-- ==== Sys2Proof/Word.lean ====
section
/-! DEFINITION. Words and bytes of the module (00_scope.md: registers are 32 bits wide, multi-byte values little-endian). -/

namespace Sys2Proof

/-- A 32-bit register or descriptor word. -/
abbrev Word := BitVec 32

/-- One byte of memory, of a buffer or of a frame. -/
abbrev Byte := BitVec 8

/-- A byte range or table cell: address and byte, as `Host.Cell` in shape. -/
abbrev Cell := Nat × BitVec 8

end Sys2Proof
end

