-- ==== Sys2Proof/Syntax.lean ====
section
/-! DEFINITION. The commands of the block: one constructor per row of spec/opcode_table.json.
The table gives no row any operand bits; a constructor carries what its governing rule needs from outside the state:
an index, a word written, a payload, a measured value, the outcome of a test, or data seen (log entry 6). -/

namespace Sys2Proof

/-- Who makes a register access (R435). A CXL requester carries its PCIe requester ID (Table RAS.6). -/
inductive Requester where
  | host (id : BitVec 16)
  | coxswain
  | powerController
  | sideband
deriving DecidableEq, Repr

/-- How a transfer to or from a place outside the state ends (R102, R404, R364). -/
inductive Ending where
  | ok
  | poisoned
  | timeout
  | aborted
deriving DecidableEq, Repr

/-- What a read of one piece of DRAM finds (R292); `parity`: a command-parity error of its channel after retry (R297). -/
inductive PieceCheck where
  | clean
  | corrected
  | uncorrectable
  | parity
deriving DecidableEq, Repr

/-- Where an uncorrectable local-store error lies (R97): a staging buffer; a cache that task t reads; a scrubbed word. -/
inductive StoreUe where
  | staging
  | taskRead (t : Nat)
  | scrub
deriving DecidableEq, Repr

/-- What a delay line serves (R34, Table CONV.7): its crew, a scull of it, or the erg's Bow. -/
inductive Line where
  | crew
  | scull (k : Nat)
  | bow
deriving DecidableEq, Repr

/-- What an SRAM scrub visit covers (R485): a scull's store, a crew store, or a Rigger slot of an epoch's group. -/
inductive ScrubSite where
  | scull (k : Nat)
  | crew (c : Nat)
  | rigger (die : Nat) (group : Nat)
deriving DecidableEq, Repr

/-- A mailbox command as its sender placed it (Table COX.1); the opcode is the row's own. `id` is the PCIe requester ID
that came with the doorbell of a host mailbox. -/
structure MbCmd where
  m        : Nat
  id       : BitVec 16
  flags    : BitVec 16
  tag      : Word
  length   : Word
  reserved : Word
  payload  : List Byte
deriving DecidableEq, Repr

/-- What a start step found on the module (Tables START.2, R451, R452): `phyFail` is (stack, physical channel), `refused` a
pending row repair that its die refuses (R296), `margins` each erg's least delay-line margin. -/
structure StepReport where
  fuseBad     : Bool
  lockstepBad : Bool
  secBad      : Bool
  storeBad    : Bool
  linkWidth   : Nat
  linkRate    : Nat
  flit        : Bool
  phyFail     : List (Nat × Nat)
  sculls      : List Nat
  seifs       : List Nat
  bows        : List Nat
  wakes       : List Nat
  refused     : List (Nat × Nat × Nat × Nat)
  margins     : List Nat
  calFails    : List (Nat × Line)
deriving DecidableEq, Repr

/-- A Sweep frame as received: its 32-byte header, the encrypted data, the tag and its length in flits (R350). -/
structure Frame where
  header : List Byte
  body   : List Byte
  tag    : List Byte
  flits  : Nat
  padded : Bool
deriving DecidableEq, Repr

/-- The header fields of a message after its frame was accepted (Table SWEEP.2), with its data. -/
structure Msg where
  src      : Nat
  poisoned : Bool
  masked   : Bool
  da       : Nat
  group    : Nat
  rank     : Nat
  epoch    : Word
  tag      : Word
  status   : BitVec 16
  bytes    : Nat
  data     : List Byte
deriving DecidableEq, Repr

/-- One measurement round of the power controller (R516): input power and voltage, the voltage it asks of each
erg (mV) and the floor of each erg (R31), the hottest die of each erg and Oasis die (°C), and whether the cap in force
binds. Input voltage in mV. -/
structure PowerSample where
  watts   : Nat
  vin     : Nat
  ask     : List Nat
  floor   : List Nat
  ergTemp : List Nat
  oasisTemp : List Nat
  binds     : Bool
deriving DecidableEq, Repr

/-- The commands. The comment of a constructor names the row's governing rule. -/
inductive Instr where
  /-- R448 -/ | powerApplied
  /-- R521: the low pulse in ns; whether the retained SRAM passes its check codes. -/
  | resetN (lowNs : Nat) (retainedGood : Bool)
  /-- R514 -/ | inputSwitchOff
  /-- R514 -/ | powerRestore
  /-- R448 -/ | startDelayExpiry (retainedGood : Bool)
  /-- R450 -/ | startStepComplete (r : StepReport)
  /-- R451 -/ | startStepTimeout
  /-- R455 -/ | startRetry
  /-- R416 -/ | lockstepMismatch
  /-- R416 -/ | coxWatchdogExpiry
  /-- R467 -/ | entropyHealthFail
  /-- R38 -/ | islandLockLoss (i : Nat)
  /-- R489 -/ | islandRelock (i : Nat)
  /-- R489 -/ | islandRelockTimeout (i : Nat)
  /-- R33, R34: the crew visited, what the line serves, the margin in 0.1 %, taps left. -/
  | delayLineRecal (crew : Nat) (line : Line) (margin : Nat) (tapsLeft : Bool)
  /-- R48: beats of the window, monitor mean voltage. -/
  | beatRateWindowEnd (erg : Nat) (mv : Nat)
  /-- R406 -/ | doorbellWrite (q : Nat) (v : Word) (req : Requester)
  /-- R408 -/ | ringFetchVisit (q : Nat)
  /-- R112: how the descriptor read ends, which of its descriptors (0 to 7) have a block read that a CXL error ends,
  and what host memory holds. -/
  | descriptorReadComplete (q : Nat) (res : Ending) (bad : List Nat) (host : List Cell)
  /-- R123 -/ | taskTake (k : Nat)
  /-- R123 -/ | taskSteal (k : Nat)
  /-- R122 -/ | taskResume (k : Nat) (t : Nat)
  /-- R99: which outstanding transfer of the scull's task, its outcome, and what host memory holds. -/
  | scullDmaComplete (k : Nat) (x : Nat) (res : Ending) (host : List Cell) (found : List (Nat × PieceCheck)) (fixed : Nat)
  /-- R127 -/ | taskCommit (k : Nat) (bufferOk : Bool)
  /-- R122 -/ | taskDone (t : Nat)
  /-- R88: slot and block of the failed check. -/
  | residueMismatch (k : Nat) (slot : Nat) (block : Nat)
  /-- R92 -/ | accEccUe (k : Nat)
  /-- R97 -/ | storeEccUe (k : Nat) (offset : Nat) (site : StoreUe)
  /-- R103 -/ | taskHandback (k : Nat)
  /-- R103 -/ | handbackTimeout (k : Nat)
  /-- R88 -/ | scullSelfTestDone (k : Nat) (pass : Bool)
  /-- R211 -/ | seifMismatch (c : Nat)
  /-- R211 -/ | seifSelfTestDone (c : Nat) (pass : Bool)
  /-- R256 -/ | bowMismatch (d : Nat)
  /-- R256 -/ | bowSelfTestDone (d : Nat) (pass : Bool)
  /-- R118 -/ | fenceComplete (q : Nat)
  /-- R119 -/ | signal (t : Nat)
  /-- R234 -/ | walkerEntryRead (t : Nat) (g : Nat)
  /-- R206 -/ | seifPageSuspend (t : Nat)
  /-- R239 -/ | swapinServeComplete (res : Ending) (host : List Cell)
  /-- R221 -/ | kvRingTailWrite (r : Nat) (v : Word) (req : Requester)
  /-- R275 -/ | lowpEvalStart (req : Requester)
  /-- R275 -/ | lowpEvalComplete
  /-- R288 -/ | wcbEntryTimeout (s : Nat) (line : Nat) (found : List (Nat × PieceCheck))
  /-- R288 -/ | wcbFlush (s : Nat) (req : Requester) (found : List (Nat × PieceCheck))
  /-- R484: the outcome of each of the line's eight pieces. -/
  | patrolScrubRead (s : Nat) (pieces : List PieceCheck)
  /-- R299: the hottest die in °C. -/
  | bandEvaluation (s : Nat) (temp : Nat)
  /-- R300 -/ | stackPowerRemove (s : Nat)
  /-- R484, R485 -/ | sramScrub (site : ScrubSite) (offset : Nat) (found : PieceCheck)
  /-- R484, R297 -/ | dunePhyCal (s : Nat) (lchan : Nat) (ok : Bool)
  /-- R485: page index, corrected bits as a share of capacity in percent, readable. -/
  | flashPatrol (page : Nat) (corrected : Nat) (readable : Bool)
  /-- R484 -/ | wearLevelling (block : Nat) (eraseCount : Nat) (least : Nat)
  /-- R487: sensor numbers and readings. -/
  | telemetrySample (readings : List (Nat × Word))
  /-- R309 -/ | tierRegister (index : Nat) (req : Requester)
  /-- R323 -/ | tierUnregister (index : Nat) (req : Requester)
  /-- R323 -/ | tierLoad (index : Nat) (req : Requester) (host : List Cell)
  /-- R323 -/ | tierFlush (req : Requester)
  /-- R316 -/ | tierPromote (index : Nat) (req : Requester)
  /-- R319 -/ | tierEvict (index : Nat) (req : Requester)
  /-- R318: the tensor, whether every home read succeeded, and what its T2 home holds. -/
  | copyInComplete (index : Nat) (ok : Bool) (host : List Cell)
  /-- R317 -/ | copyOutComplete (index : Nat) (ok : Bool)
  /-- R314 -/ | heatDecay
  /-- R320: the scull's transfer whose deadline expires, the tensor it reads. -/
  | deadlineExpiry (k : Nat) (x : Nat)
  /-- R329 -/ | wakeRingTailWrite (w : Nat) (r : Nat) (v : Word) (req : Requester)
  /-- R333 -/ | wakeOpen (w : Nat) (r : Nat) (host : List Cell)
  /-- R335, R336 -/ | wakeRun (w : Nat) (r : Nat) (host : List Cell)
  /-- R333 -/ | wakeClose (w : Nat) (r : Nat)
  /-- R337: decode: the integer samples of the shown frame (luma, Cb, Cr), its bit depth, width and height,
  and the pool buffers that the decoder holds after it (a unit that shows no frame has no width and height); encode: the coded
  bytes. Then the units that were bad and the frames skipped before it, and what host memory holds. -/
  | wakeFrameDone (w : Nat) (r : Nat) (depth : Nat) (width : Nat) (height : Nat)
      (luma : List Nat) (cb : List Nat) (cr : List Nat) (coded : List Byte) (held : List Nat)
      (bad : Nat) (skipped : Nat) (host : List Cell)
  /-- R331, R343: units bad, frames skipped, bytes consumed, data outcome. -/
  | wakeJobEnd (w : Nat) (r : Nat) (bad : Nat) (skipped : Nat) (consumed : Nat) (res : Ending)
  /-- R344 -/ | wakeFrameWatchdog (w : Nat) (r : Nat)
  /-- R344 -/ | wakeParityFail (w : Nat)
  /-- R344 -/ | wakeSelfTestDone (w : Nat) (pass : Bool)
  /-- R357: the word written to SWEEP_PORT_CTRL. -/
  | portEnable (p : Nat) (v : Word) (req : Requester)
  /-- R357 -/ | portDisable (p : Nat) (v : Word) (req : Requester)
  /-- R360 -/ | readmit (p : Nat) (v : Word) (req : Requester)
  /-- R348: which lanes trained, bit i for lane i. -/
  | trainingDone (p : Nat) (lanes : BitVec 8)
  /-- R357 -/ | trainingTimeout (p : Nat)
  /-- R357 -/ | downRetryExpiry (p : Nat)
  /-- R357 -/ | attestTimeout (p : Nat)
  /-- R351: the 256 bytes of the flit. -/
  | flitReceive (p : Nat) (flit : List Byte)
  /-- R352 -/ | frameReceive (p : Nat) (f : Frame)
  /-- R356 -/ | creditStarvation (p : Nat) (vc : Nat)
  /-- R352 -/ | rekeyStart (p : Nat)
  /-- R479 -/ | rekeyTimeout (p : Nat)
  /-- R478 -/ | mgmtCert (p : Nat) (src : Nat) (index : Nat) (cert : List Byte)
  /-- R478 -/ | mgmtKemEk (p : Nat) (ek : List Byte) (nonce : List Byte)
  /-- R478 -/ | mgmtKemCt (p : Nat) (ct : List Byte) (nonce : List Byte)
  /-- R478 -/ | mgmtSign (p : Nat) (sig : List Byte) (sender : Nat) (senderPort : Nat)
  /-- R478 -/ | mgmtFinish (p : Nat) (hash : List Byte) (tagGood : Bool)
  /-- R479 -/ | mgmtRekeyEk (p : Nat) (ek : List Byte) (nonce : List Byte)
  /-- R479 -/ | mgmtRekeyCt (p : Nat) (ct : List Byte) (nonce : List Byte)
  /-- R479 -/ | mgmtRekeyDone (p : Nat)
  /-- R477 -/ | mgmtQuoteReq (p : Nat) (nonce : List Byte)
  /-- R477 -/ | mgmtQuote (p : Nat) (quote : List Byte)
  /-- R477 -/ | mgmtLinkstat (p : Nat) (retry : Word) (err : Word)
  /-- R477 -/ | linkstatSend (p : Nat)
  /-- R363 -/ | rdReq (p : Nat) (m : Msg)
  /-- R364 -/ | rdRsp (p : Nat) (m : Msg)
  /-- R363 -/ | wrReq (p : Nat) (m : Msg)
  /-- R363 -/ | wrAck (p : Nat) (m : Msg)
  /-- R364 -/ | peerTimeout (tag : Nat)
  /-- R369 -/ | collStart (p : Nat) (m : Msg)
  /-- R371 -/ | chunkUp (p : Nat) (m : Msg)
  /-- R369 -/ | chunkDown (p : Nat) (m : Msg)
  /-- R369 -/ | ackUp (p : Nat) (m : Msg)
  /-- R375 -/ | collNote (p : Nat) (m : Msg)
  /-- R370 -/ | collFinal (p : Nat) (m : Msg)
  /-- R378 -/ | flagUp (p : Nat) (m : Msg)
  /-- R378 -/ | flagDown (p : Nat) (m : Msg)
  /-- R374 -/ | phaseTimerExpiry (g : Nat)
  /-- R376 -/ | memberGuardExpiry (g : Nat)
  /-- R390 -/ | reclaim (part : Nat) (req : Requester)
  /-- R393 -/ | schedReturn (part : Nat) (req : Requester)
  /-- R390 -/ | drainLimitExpiry
  /-- R389 -/ | beOverrun (k : Nat)
  /-- R414: the word written to LR_CFG. -/
  | ringEnable (q : Nat) (v : Word) (req : Requester)
  /-- R414 -/ | ringDisable (q : Nat) (v : Word) (req : Requester)
  /-- R410 -/ | cqHeadWrite (q : Nat) (v : Word) (req : Requester)
  /-- R412 -/ | ringIrqHoldExpiry (q : Nat)
  /-- R413: the vector whose mask bit is cleared; none: the link comes up. -/
  | msixVectorUnmask (v : Option Nat)
  /-- R397: width and rate the link comes up with; rate 0: it stays down. -/
  | linkRetrain (width : Nat) (rate : Nat) (flit : Bool)
  /-- R402: offset, bytes written or none for a read, length of a read. -/
  | bar2Access (offset : Nat) (data : Option (List Byte)) (len : Nat)
  /-- R402 -/ | cxlMemRequest (offset : Nat) (data : Option (List Byte)) (len : Nat)
  /-- R480 -/ | spdmRequest (request : List Byte)
  /-- R400: stream 0 is CXL.io, 1 is CXL.mem. -/
  | ideKeySet (stream : Nat)
  /-- R400 -/ | ideIntegrityFail (stream : Nat)
  /-- R429 -/ | devInfo (c : MbCmd)
  /-- R429 -/ | devStatus (c : MbCmd)
  /-- R429 -/ | capRead (c : MbCmd)
  /-- R425 -/ | devRun (c : MbCmd)
  /-- R427 -/ | devQuiesce (c : MbCmd)
  /-- R426 -/ | quiesceComplete
  /-- R425 -/ | devConfig (c : MbCmd)
  /-- R424 -/ | devRestart (c : MbCmd)
  /-- R429 -/ | pwrGet (c : MbCmd)
  /-- R429 -/ | pwrCapSet (c : MbCmd) (interrupted : Bool)
  /-- R429 -/ | logInfo (c : MbCmd)
  /-- R498 -/ | logRead (c : MbCmd)
  /-- R487 -/ | sensorRead (c : MbCmd)
  /-- R417 -/ | fwInfo (c : MbCmd)
  /-- R429 -/ | fwStage (c : MbCmd)
  /-- R458 -/ | fwActivate (c : MbCmd)
  /-- R475 -/ | attestQuote (c : MbCmd)
  /-- R476 -/ | certRead (c : MbCmd)
  /-- R462 -/ | lcTransition (c : MbCmd)
  /-- R501 -/ | cairnRegister (c : MbCmd) (host : List Cell)
  /-- R504 -/ | cairnTake (c : MbCmd)
  /-- R508 -/ | cairnRestore (c : MbCmd)
  /-- R510 -/ | cairnStatus (c : MbCmd)
  /-- R504 -/ | cairnDrainUsExpiry
  /-- R504 -/ | cairnStopDrained
  /-- R504 -/ | cairnCopyComplete
  /-- R504 -/ | cairnDrainComplete (ok : Bool)
  /-- R506 -/ | cairnLossReady
  /-- R509 -/ | cairnReplayVerdict
  /-- R437 -/ | guardValueWrite (reg : Nat) (v : Word) (req : Requester)
  /-- R438 -/ | guardPendingTimeout (reg : Nat)
  /-- R448 -/ | globalGReset (twin : Word) (req : Requester)
  /-- R515 -/ | globalGPwrCap (twin : Word) (req : Requester)
  /-- R440 -/ | globalGVlimit (twin : Word) (req : Requester)
  /-- R440 -/ | globalGRemapRow (twin : Word) (req : Requester)
  /-- R440 -/ | globalGRemapCh (twin : Word) (req : Requester)
  /-- R357 -/ | globalGPortDis (twin : Word) (req : Requester)
  /-- R452 -/ | globalGFuse (twin : Word) (req : Requester)
  /-- R441 -/ | globalApply (mask : Word) (req : Requester)
  /-- R445 -/ | globalSnap (mask : Word) (req : Requester)
  /-- R444: the register's offset, the bit, the data word. -/
  | bitAliasWrite (offset : Nat) (bit : Nat) (v : Word) (req : Requester)
  /-- R16 -/ | w1cClear (offset : Nat) (v : Word) (req : Requester)
  /-- R434: the offset, the word, the byte enables. -/
  | registerWrite (offset : Nat) (v : Word) (be : BitVec 4) (req : Requester)
  /-- R436 -/ | registerAccessTimeout (offset : Nat) (write : Option Word) (req : Requester)
  /-- R516 -/ | powerControlTick (p : PowerSample)
  /-- R518: flow of sensor 514 in mL/min. -/
  | flowLimitEval (flow : Nat)
  /-- R519 -/ | lowFlowSwitchOff
  /-- R520 -/ | thermalPowerRemove
  /-- R496 -/ | logPersist
  /-- R497 -/ | suppressionWindowClose (i : Nat)
  /-- R420: the opcode. -/
  | unknownOpcode (c : MbCmd) (opcode : BitVec 16)
  /-- R323 -/ | tierCmdComplete (ok : Bool)
  /-- R508 -/ | cairnRestoreCopyComplete (res : Ending) (host : List Cell)
deriving DecidableEq, Repr

end Sys2Proof
end

