-- ==== Sys2Proof/WellFormed.lean ====
section
/-! DEFINITION. Which commands are well formed: every index names a unit of the module (R18, R23, Tables CSR.1, COX.1,
HOST.3, SWEEP.5), every list has the length its rule gives. Whether the unit is present is the machine's business (R6). -/

namespace Sys2Proof

/-- A mailbox command: mailbox 0 to 8, a payload that fits the 4,096-byte buffer after the 16-byte header (Table COX.1). -/
def MbCmd.wf (c : MbCmd) : Bool := decide (c.m < 9) && decide (c.payload.length ≤ 4080)

/-- A frame: a 32-byte header, a 16-byte tag (R350). -/
def Frame.wf (f : Frame) : Bool := decide (f.header.length = 32) && decide (f.tag.length = 16)

/-- A message: at most 4,096 bytes of data, as many as its length says; a tag of 32 bits (Table SWEEP.2). -/
def Msg.wf (m : Msg) : Bool := decide (m.bytes ≤ 4096) && (m.data.length == m.bytes || m.data.isEmpty)

/-- A word offset into BAR0: aligned, below 64 MiB (R432, R433). -/
def offsetOk (off : Nat) : Bool := decide (off < 0x4000000) && decide (off % 4 = 0)

/-- A scrub site names a unit that the floorplan has (R18, R19). -/
def ScrubSite.wf : ScrubSite → Bool
  | .scull k => decide (k < 12288)
  | .crew c => decide (c < 768)
  | .rigger die group => decide (die < 4) && decide (group < 256)

/-- The line of a crew's visit serves that crew, one of its sculls, or the Bow of its erg. -/
def Line.wf (line : Line) (crew : Nat) : Bool :=
  match line with
  | .scull k => decide (k / 16 = crew)
  | _ => true

/-- The commands whose operands name things that exist. -/
def Instr.wf : Instr → Bool
  | .resetN lowNs _ => decide (1000 ≤ lowNs)
  | .islandLockLoss i | .islandRelock i | .islandRelockTimeout i => decide (i < 40)
  | .delayLineRecal crew line _ _ => decide (crew < 768) && line.wf crew
  | .beatRateWindowEnd erg mv => decide (erg < 16) && decide (mv < 1024)
  | .doorbellWrite q _ _ | .ringFetchVisit q | .descriptorReadComplete q _ _ _ | .fenceComplete q | .ringEnable q _ _
  | .ringDisable q _ _ | .cqHeadWrite q _ _ | .ringIrqHoldExpiry q => decide (q < 512)
  | .taskTake k | .taskSteal k | .taskResume k _ | .scullDmaComplete k _ _ _ _ _ | .taskCommit k _ | .accEccUe k
  | .taskHandback k | .handbackTimeout k | .scullSelfTestDone k _ | .deadlineExpiry k _ | .beOverrun k =>
      decide (k < 12288)
  | .residueMismatch k slot _ => decide (k < 12288) && decide (slot < 8)
  | .storeEccUe k offset _ => decide (k < 12288) && decide (offset < 0x80000)
  | .seifMismatch c | .seifSelfTestDone c _ => decide (c < 768)
  | .bowMismatch d | .bowSelfTestDone d _ => decide (d < 16)
  | .kvRingTailWrite r _ _ => decide (r < 2)
  | .wcbEntryTimeout s _ _ | .wcbFlush s _ _ | .bandEvaluation s _ | .stackPowerRemove s => decide (s < 48)
  | .patrolScrubRead s pieces => decide (s < 48) && decide (pieces.length = 8)
  | .sramScrub site _ found => site.wf && found != .parity
  | .dunePhyCal s lchan _ => decide (s < 48) && decide (lchan < 128)
  | .telemetrySample readings => readings.all fun r => decide (r.1 < 1024)
  | .tierRegister i _ | .tierUnregister i _ | .tierLoad i _ _ | .tierPromote i _ | .tierEvict i _
  | .copyInComplete i _ _ | .copyOutComplete i _ => decide (i < 0x100000)
  | .wakeRingTailWrite w r _ _ | .wakeOpen w r _ | .wakeRun w r _ | .wakeClose w r
  | .wakeJobEnd w r _ _ _ _ | .wakeFrameWatchdog w r => decide (w < 8) && decide (r < 2)
  | .wakeFrameDone w r _ _ _ _ _ _ _ _ _ _ _ => decide (w < 8) && decide (r < 2)
  | .wakeParityFail w | .wakeSelfTestDone w _ => decide (w < 8)
  | .portEnable p _ _ | .portDisable p _ _ | .readmit p _ _ | .trainingDone p _ | .trainingTimeout p
  | .downRetryExpiry p | .attestTimeout p | .rekeyStart p | .rekeyTimeout p | .mgmtCert p _ _ _ | .mgmtKemEk p _ _
  | .mgmtKemCt p _ _ | .mgmtSign p _ _ _ | .mgmtFinish p _ _ | .mgmtRekeyEk p _ _ | .mgmtRekeyCt p _ _
  | .mgmtRekeyDone p | .mgmtQuoteReq p _ | .mgmtQuote p _ | .mgmtLinkstat p _ _ | .linkstatSend p =>
      decide (p < 18)
  | .flitReceive p flit => decide (p < 18) && decide (flit.length = 256)
  | .frameReceive p f => decide (p < 18) && f.wf
  | .creditStarvation p vc => decide (p < 18) && decide (vc < 4)
  | .rdReq p m | .rdRsp p m | .wrReq p m | .wrAck p m | .collStart p m | .chunkUp p m | .chunkDown p m | .ackUp p m
  | .collNote p m | .collFinal p m | .flagUp p m | .flagDown p m => decide (p < 18) && m.wf
  | .phaseTimerExpiry g | .memberGuardExpiry g => decide (g < 256)
  | .reclaim part _ | .schedReturn part _ => decide (part < 8)
  | .msixVectorUnmask v => v.all fun n => decide (n < 256)
  | .ideKeySet stream | .ideIntegrityFail stream => decide (stream < 2)
  | .devInfo c | .devStatus c | .capRead c | .devRun c | .devQuiesce c | .devConfig c | .devRestart c | .pwrGet c
  | .pwrCapSet c _ | .logInfo c | .logRead c | .sensorRead c | .fwInfo c | .fwStage c | .fwActivate c
  | .attestQuote c | .certRead c | .lcTransition c | .cairnRegister c _ | .cairnTake c | .cairnRestore c
  | .cairnStatus c | .unknownOpcode c _ => c.wf
  | .guardValueWrite reg _ _ | .guardPendingTimeout reg => decide (reg < 8)
  | .bitAliasWrite offset bit _ _ => decide (offset < 0x40000) && decide (offset % 4 = 0) && decide (bit < 32)
  | .w1cClear offset _ _ => offsetOk offset
  | .registerWrite offset _ _ _ => offsetOk offset
  | .registerAccessTimeout offset _ _ => offsetOk offset
  | .powerControlTick p => decide (p.ask.length = 16) && decide (p.floor.length = 16) && decide (p.ergTemp.length = 16)
      && decide (p.oasisTemp.length = 4)
  | .powerApplied | .inputSwitchOff | .powerRestore | .startDelayExpiry _ | .startStepComplete _ | .startStepTimeout
  | .startRetry | .lockstepMismatch | .coxWatchdogExpiry | .entropyHealthFail | .taskDone _ | .signal _
  | .walkerEntryRead _ _ | .seifPageSuspend _ | .swapinServeComplete _ _ | .lowpEvalStart _ | .lowpEvalComplete
  | .flashPatrol _ _ _ | .wearLevelling _ _ _ | .tierFlush _ | .heatDecay | .peerTimeout _ | .drainLimitExpiry
  | .linkRetrain _ _ _ | .bar2Access _ _ _ | .cxlMemRequest _ _ _ | .spdmRequest _ | .quiesceComplete
  | .cairnDrainUsExpiry | .cairnStopDrained | .cairnCopyComplete | .cairnDrainComplete _ | .cairnLossReady
  | .cairnReplayVerdict | .globalGReset _ _ | .globalGPwrCap _ _ | .globalGVlimit _ _ | .globalGRemapRow _ _
  | .globalGRemapCh _ _ | .globalGPortDis _ _ | .globalGFuse _ _ | .globalApply _ _ | .globalSnap _ _
  | .flowLimitEval _ | .lowFlowSwitchOff | .thermalPowerRemove | .logPersist | .suppressionWindowClose _
  | .tierCmdComplete _ | .cairnRestoreCopyComplete _ _ => true

end Sys2Proof
end

