-- ==== Sys2Proof/Machine/Hash.lean ====
section
/-! DEFINITION. SHAKE256 (FIPS 202), which the spec names for the log chain (R495), digests and the messages that
signatures cover; and CRC-32 of IEEE 802.3, which closes a Sweep flit (Table SWEEP.1). -/

namespace Sys2Proof.Machine

/-! ### The permutation, on 25 lanes kept as numbers below 2^64: lane (x, y) stands at place x + 5 y -/

/-- A lane turned left by `r` places. -/
def turned (v r : Nat) : Nat := v * 2 ^ r % 2 ^ 64 + v / 2 ^ (64 - r)

/-- What theta adds to the lanes of sheet x: the parity of the sheet before it and, turned once, of the one after it. -/
def thetaOf (a : List Nat) (x : Nat) : Nat :=
  let parity (x : Nat) : Nat := (List.range 5).foldl (fun p y => p ^^^ a.getD (x % 5 + 5 * y) 0) 0
  parity (x + 4) ^^^ turned (parity (x + 1)) 1

/-- The walk of rho and pi: from lane (x, y) at its step t the walk goes to (y, 2 x + 3 y), and the lane goes there with it,
turned by the sum of 1 to t + 1. Each entry is the place a lane leaves, the place it takes, its turn. -/
def laneWalk : Nat → Nat → Nat → Nat → List (Nat × Nat × Nat)
  | 0, _, _, _ => []
  | n + 1, t, x, y =>
    let y' := (2 * x + 3 * y) % 5
    (x + 5 * y, y + 5 * y', (t + 1) * (t + 2) / 2 % 64) :: laneWalk n (t + 1) y y'

/-- The 8-bit shift register that the round constants are read from, after one step. -/
def rcStep (r : Nat) : Nat := if r < 128 then 2 * r else (2 * r - 256) ^^^ 0x71

/-- A round constant: bit 2^j - 1 is the register's lowest bit at its step j of the round; and the register after the round. -/
def rcRound (r : Nat) : Nat × Nat :=
  (List.range 7).foldl (fun (q : Nat × Nat) j => (q.1 + q.2 % 2 * 2 ^ (2 ^ j - 1), rcStep q.2)) (0, r)

/-- One round: theta, rho and pi, chi, and the constant into lane (0, 0). -/
def permRound (a : List Nat) (rc : Nat) : List Nat :=
  let ds := (List.range 5).map (thetaOf a)
  let t := a.zipIdx.map fun q => q.1 ^^^ ds.getD (q.2 % 5) 0
  let b := (laneWalk 24 0 1 0).foldl (fun b q => b.set q.2.1 (turned (t.getD q.1 0) q.2.2)) t
  b.zipIdx.map fun q =>
    let next (k : Nat) : Nat := b.getD ((q.2 + k) % 5 + q.2 / 5 * 5) 0
    q.1 ^^^ next 2 ^^^ (next 1 &&& next 2) ^^^ (if q.2 = 0 then rc else 0)

/-- `n` rounds, with the register that their constants come from. -/
def permRounds : Nat → Nat → List Nat → List Nat
  | 0, _, a => a
  | n + 1, r, a => permRounds n (rcRound r).2 (permRound a (rcRound r).1)

/-- The permutation of 24 rounds. -/
def permute (a : List Nat) : List Nat := permRounds 24 1 a

/-! ### Bytes -/

/-- The little-endian number in the first `n` bytes of a list. -/
def leNat : Nat → List Byte → Nat
  | 0, _ => 0
  | _ + 1, [] => 0
  | n + 1, b :: r => b.toNat + 256 * leNat n r

/-- The `n` little-endian bytes of a number. -/
def leBytes : Nat → Nat → List Byte
  | 0, _ => []
  | n + 1, v => BitVec.ofNat 8 v :: leBytes n (v / 256)

/-! ### The sponge, 136 bytes at a time -/

/-- A message with SHAKE's suffix 1111 and the padding 10*1. -/
def shakePad (m : List Byte) : List Byte :=
  let gap := 136 - m.length % 136
  if gap = 1 then m ++ [0x9F] else m ++ [0x1F] ++ List.replicate (gap - 2) 0 ++ [0x80]

/-- The lanes after `n` blocks of a padded message. -/
def absorbed (p : List Byte) : Nat → List Nat
  | 0 => List.replicate 25 0
  | n + 1 => permute ((absorbed p n).zipIdx.map fun q =>
      if q.2 < 17 then q.1 ^^^ leNat 8 (p.drop (136 * n + 8 * q.2)) else q.1)

/-- `n` blocks of output from the lanes, each the first 17. -/
def squeezed : Nat → List Nat → List Byte
  | 0, _ => []
  | n + 1, a => (a.take 17).flatMap (leBytes 8) ++ squeezed n (permute a)

/-- SHAKE256 of a message, to `n` bytes. -/
def shake256 (m : List Byte) (n : Nat) : List Byte :=
  (squeezed ((n + 135) / 136) (absorbed (shakePad m) (m.length / 136 + 1))).take n

/-- Eight steps of the reflected CRC-32 register. -/
def crcSteps : Nat → BitVec 32 → BitVec 32
  | 0, c => c
  | n + 1, c => crcSteps n (if c.getLsbD 0 then (c >>> 1) ^^^ 0xEDB88320#32 else c >>> 1)

/-- CRC-32 of the IEEE polynomial over bytes, reflected, complemented in and out. -/
def crc32 (m : List Byte) : BitVec 32 :=
  ~~~ (m.foldl (fun c b => crcSteps 8 (c ^^^ b.zeroExtend 32)) 0xFFFFFFFF#32)

end Sys2Proof.Machine
end

