-- ==== Sys2Proof/Config.lean ====
section
/-! DEFINITION. What the spec names and does not give: primitives of published standards and values left open.
Every constant here has no body, so that nothing can be proved of its value (log entries 9, 11, 14 and 78). -/

namespace Sys2Proof.Config

/-- XMSS-SHAKE256 verification (Table SEC.1): public key, message, signature. -/
opaque xmssVerify : List Byte → List Byte → List Byte → Bool

/-- XMSS-SHAKE256_16_256 signature by the attestation key of a boot (R475): boot epoch, key index, message. -/
opaque xmssSign : Nat → Nat → List Byte → List Byte

/-- ML-KEM-1024 key pair drawn at the n-th use of the random-bit generator (R478): the encapsulation key. -/
opaque kemKey : Nat → List Byte

/-- ML-KEM-1024 encapsulation with the n-th random draw: ciphertext and shared secret. -/
opaque kemEncaps : Nat → List Byte → List Byte × List Byte

/-- ML-KEM-1024 decapsulation with the key pair of the n-th draw: shared secret. -/
opaque kemDecaps : Nat → List Byte → List Byte

/-- The n-th 32-byte output of the random-bit generator (nonces). -/
opaque nonce : Nat → List Byte

/-- AES-256-GCM seal (R352): key, IV, additional data, plaintext; the ciphertext and the tag. -/
opaque gcmSeal : List Byte → List Byte → List Byte → List Byte → List Byte × List Byte

/-- AES-256-GCM open (R352): key, IV, additional data, ciphertext, tag. -/
opaque gcmOpen : List Byte → List Byte → List Byte → List Byte → List Byte → Option (List Byte)

/-- SPDM 1.2 responder (R480): the answer, apart from the signature, to a request, by the certificates of slot 0 and the
measurement blocks 1 to 4; a standard the spec names only. -/
opaque spdmAnswer : List Byte → List (List Byte) → List (List Byte) → List Byte

/-- The subject key of the attestation key of a boot (R475). -/
opaque attestationKey : Nat → List Byte

/-- The identity key's signature at an index over a message (R472). -/
opaque identitySign : Nat → List Byte → List Byte

/-- Digest of the ROM (quote offset 0x068). -/
opaque romDigest : List Byte

/-- Version of a firmware image (DEV_INFO, FW_INFO): the header has no field for it, so it lies in the body. -/
opaque imageVersion : List Byte → Word

/-- ROM version (FW_INFO), left to the module. -/
opaque romVersion : Word

/-- Interface version of the ROM firmware, reported while it runs (R417). -/
opaque romInterface : Word

/-- Silicon stepping (GLOBAL_ID), a field the start sets. -/
opaque stepping : BitVec 8

/-- The F × F transform of R257 and R259 (inverse or not) on FP32 pairs of real and imaginary parts, row by row: the
manual bounds its error (R260) and does not fix its roundings (log entry 78). -/
opaque transform : Bool → Nat → List (Word × Word) → List (Word × Word)

/-- The IEEE flags that the roundings of such a transform raise. -/
opaque transformExc : Bool → Nat → List (Word × Word) → BitVec 5

/-- Beats that an erg's monitor makes in one microsecond (R48): boot epoch, erg, ETC. -/
opaque beats : Nat → Nat → Nat → Nat

/-- A free value of 32 bits: whatever the spec leaves undefined after a command that goes on. -/
opaque freeWord : Nat → Word

/-- A free byte. -/
opaque freeByte : Nat → Byte

end Sys2Proof.Config
end

