-- ==== Sys2Proof/Machine/Num.lean ====
section
/-! DEFINITION. Number formats and conversions (03_number_formats.md): exact values, the rounding attributes, the long
formats of IEEE 754-2019, the short formats, block scales and stochastic rounding. -/

namespace Sys2Proof.Machine

/-- A value: (−1)^neg × m × 2^e, an infinity, or a NaN (signalling or not). -/
inductive Val where
  | fin (neg : Bool) (m : Nat) (e : Int)
  | inf (neg : Bool)
  | nan (sig : Bool)
deriving DecidableEq, Repr

/-- Exception flags in the layout of GLOBAL_FP_EXC: invalid, div_zero, overflow, underflow, inexact. -/
abbrev Exc := BitVec 5

def excInvalid : Exc := 1
def excDivZero : Exc := 2
def excOverflow : Exc := 4
def excUnderflow : Exc := 8
def excInexact : Exc := 16

/-- A result with the flags it raised. -/
abbrev Flagged (α : Type) := α × Exc

/-- The quiet NaN and the zeros. -/
def Val.qnan : Val := .nan false
def Val.zero : Val := .fin false 0 0
def Val.one : Val := .fin false 1 0

/-- Whether a value is a NaN. -/
def Val.isNan : Val → Bool
  | .nan _ => true
  | _ => false

/-- Whether a value is a zero of either sign. -/
def Val.isZero : Val → Bool
  | .fin _ 0 _ => true
  | _ => false

/-- The sign of a value; a NaN has sign 0. -/
def Val.neg : Val → Bool
  | .fin n _ _ => n
  | .inf n => n
  | .nan _ => false

/-- The value with its sign changed; a NaN stays. -/
def Val.negate : Val → Val
  | .fin n m e => .fin (!n) m e
  | .inf n => .inf (!n)
  | .nan s => .nan s

/-- The value with sign 0. -/
def Val.abs : Val → Val
  | .fin _ m e => .fin false m e
  | .inf _ => .inf false
  | .nan s => .nan s

/-- m × 2^k for a shift of either sign, rounded down. -/
def shiftTo (m : Nat) (k : Int) : Nat := if 0 ≤ k then m * 2 ^ k.toNat else m / 2 ^ (-k).toNat

/-- The rounding attributes (Table NUM.5, rnd). -/
inductive Rnd where
  | rne | rna | rtz | rup | rdn | stoch
deriving DecidableEq, Repr

/-- The attribute of a code; codes 6 and 7 are refused at validation. -/
def rndOf (n : Nat) : Rnd :=
  match n with
  | 0 => .rne | 1 => .rna | 2 => .rtz | 3 => .rup | 4 => .rdn | _ => .stoch

/-- Round up from the lower neighbour? `odd`: its code is odd; the excess over it is x of a step of w, with more beyond
if `rest` (R69-R71); `draw` is the draw of a stochastic rounding. -/
def roundUp (r : Rnd) (neg odd : Bool) (x w : Nat) (rest : Bool) (draw : Nat) : Bool :=
  match r with
  | .rne => decide (w < 2 * x) || (decide (2 * x = w) && (rest || odd))
  | .rna => decide (w ≤ 2 * x)
  | .rtz => false
  | .rup => !neg && (decide (x ≠ 0) || rest)
  | .rdn => neg && (decide (x ≠ 0) || rest)
  | .stoch => decide (draw < x * 65536 / w)

/-- A long format: precision with the hidden bit, exponent of the smallest normal, exponent of the largest binade,
bits of the exponent field. -/
structure LongFmt where
  p    : Nat
  emin : Int
  emax : Int
  eb   : Nat
deriving DecidableEq, Repr

def fp32 : LongFmt := ⟨24, -126, 127, 8⟩
def fp16 : LongFmt := ⟨11, -14, 15, 5⟩
def bf16 : LongFmt := ⟨8, -126, 127, 8⟩

/-- Read the bits of a long format (R51). -/
def decodeLong (f : LongFmt) (w : Nat) : Val :=
  let fb := f.p - 1
  let neg := w / 2 ^ (fb + f.eb) % 2 = 1
  let ex := w / 2 ^ fb % 2 ^ f.eb
  let fr := w % 2 ^ fb
  if ex = 2 ^ f.eb - 1 then (if fr = 0 then .inf neg else .nan (decide (fr < 2 ^ (fb - 1))))
  else if ex = 0 then .fin neg fr (f.emin - fb)
  else .fin neg (2 ^ fb + fr) (f.emin - fb + ex - 1)

/-- Write a value that the format holds (R52: the one NaN). -/
def encodeLong (f : LongFmt) (v : Val) : Nat :=
  let fb := f.p - 1
  let s (neg : Bool) : Nat := if neg then 2 ^ (fb + f.eb) else 0
  match v with
  | .nan _ => (2 ^ f.eb - 1) * 2 ^ fb + 2 ^ (fb - 1)
  | .inf n => s n + (2 ^ f.eb - 1) * 2 ^ fb
  | .fin n m e =>
    let qmin := f.emin - fb
    if m = 0 then s n
    else
      let k : Int := e + Nat.log2 m
      let q := max (k - fb) qmin
      let x := shiftTo m (e - q)
      if x < 2 ^ fb then s n + x else s n + ((q - qmin).toNat + 1) * 2 ^ fb + (x - 2 ^ fb)

/-- The largest finite magnitude of a long format. -/
def LongFmt.largest (f : LongFmt) (neg : Bool) : Val := .fin neg (2 ^ f.p - 1) (f.emax - (f.p - 1))

/-- Overflow of a long format (R65): by the attribute, or the largest finite value under SATMODE 1. -/
def overflowTo (f : LongFmt) (r : Rnd) (sat neg : Bool) : Val :=
  if sat then f.largest neg
  else match r with
    | .rtz => f.largest neg
    | .rup => if neg then f.largest neg else .inf neg
    | .rdn => if neg then .inf neg else f.largest neg
    | _ => .inf neg

/-- Round (−1)^neg × (m + rest) × 2^e into a long format: value and flags, tininess detected after rounding (R80). -/
def roundLong (f : LongFmt) (r : Rnd) (sat : Bool) (draw : Nat) (neg : Bool) (m : Nat) (e : Int) (rest : Bool) :
    Flagged Val :=
  if m = 0 then
    if rest then
      let up := roundUp r neg false 0 1 true 0
      (if up then .fin neg 1 (f.emin - (f.p - 1)) else .fin neg 0 0, excUnderflow ||| excInexact)
    else (.fin neg 0 0, 0)
  else
    let fb := f.p - 1
    let k : Int := e + Nat.log2 m
    let step (q : Int) : Nat × Bool :=
      if q ≤ e then (m * 2 ^ (e - q).toNat + b2 (roundUp r neg (decide (m * 2 ^ (e - q).toNat % 2 = 1)) 0 1 rest draw), rest)
      else
        let w := 2 ^ (q - e).toNat
        (m / w + b2 (roundUp r neg (decide (m / w % 2 = 1)) (m % w) w rest draw), decide (m % w ≠ 0) || rest)
    let q := max (k - fb) (f.emin - fb)
    let (n, inexact) := step q
    let (nu, _) := step (k - fb)
    let tiny := decide (k < f.emin) && !(decide (k + 1 = f.emin) && decide (2 ^ f.p ≤ nu))
    if decide (2 ^ f.p ≤ n) && decide (f.emax < q + f.p) || decide (f.emax - fb < q) then
      (overflowTo f r sat neg, excOverflow ||| excInexact)
    else
      (.fin neg n q, (if inexact then excInexact else 0) ||| (if tiny && inexact then excUnderflow else 0))
where
  b2 (b : Bool) : Nat := if b then 1 else 0

/-- Round a value into a long format. -/
def toLong (f : LongFmt) (r : Rnd) (sat : Bool) (draw : Nat) (v : Val) : Flagged Val :=
  match v with
  | .nan s => (.qnan, if s then excInvalid else 0)
  | .inf n => (.inf n, 0)
  | .fin n m e => roundLong f r sat draw n m e false

/-- The value of an FP32 word. -/
def f32 (w : Word) : Val := decodeLong fp32 w.toNat

/-- The FP32 word of a value that FP32 holds. -/
def f32w (v : Val) : Word := BitVec.ofNat 32 (encodeLong fp32 v)

/-- Exact signed numerators of two finite values over a common exponent. -/
def align (n1 : Bool) (m1 : Nat) (e1 : Int) (n2 : Bool) (m2 : Nat) (e2 : Int) : Int × Int × Int :=
  let e := min e1 e2
  let a : Int := (m1 * 2 ^ (e1 - e).toNat : Nat)
  let b : Int := (m2 * 2 ^ (e2 - e).toNat : Nat)
  (if n1 then -a else a, if n2 then -b else b, e)

/-- A signalling NaN among the inputs raises invalid (R52). -/
def sigNan (vs : List Val) : Exc := if vs.any fun v => v == .nan true then excInvalid else 0

/-- Round an exact signed dyadic number into a long format; an exact zero takes the sign `z`. -/
def roundInt (f : LongFmt) (r : Rnd) (sat : Bool) (draw : Nat) (x : Int) (e : Int) (z : Bool) : Flagged Val :=
  if x = 0 then (.fin z 0 0, 0) else roundLong f r sat draw (decide (x < 0)) x.natAbs e false

/-- Addition (IEEE 754-2019) rounded into a long format. -/
def addTo (f : LongFmt) (r : Rnd) (a b : Val) : Flagged Val :=
  match a, b with
  | .nan _, _ => (.qnan, sigNan [a, b])
  | _, .nan _ => (.qnan, sigNan [a, b])
  | .inf n, .inf m => if n == m then (.inf n, 0) else (.qnan, excInvalid)
  | .inf n, _ => (.inf n, 0)
  | _, .inf n => (.inf n, 0)
  | .fin n1 m1 e1, .fin n2 m2 e2 =>
    let (x, y, e) := align n1 m1 e1 n2 m2 e2
    let z := if m1 = 0 ∧ m2 = 0 then (if n1 == n2 then n1 else r == .rdn) else r == .rdn
    roundInt f r false 0 (x + y) e z

/-- Multiplication rounded into a long format. -/
def mulTo (f : LongFmt) (r : Rnd) (a b : Val) : Flagged Val :=
  match a, b with
  | .nan _, _ => (.qnan, sigNan [a, b])
  | _, .nan _ => (.qnan, sigNan [a, b])
  | .inf n, .inf m => (.inf (n ^^ m), 0)
  | .inf n, .fin n2 m2 _ => if m2 = 0 then (.qnan, excInvalid) else (.inf (n ^^ n2), 0)
  | .fin n1 m1 _, .inf n => if m1 = 0 then (.qnan, excInvalid) else (.inf (n1 ^^ n), 0)
  | .fin n1 m1 e1, .fin n2 m2 e2 => roundLong f r false 0 (n1 ^^ n2) (m1 * m2) (e1 + e2) false

/-- Fused multiply-add a × b + c with one rounding. -/
def fmaTo (f : LongFmt) (r : Rnd) (a b c : Val) : Flagged Val :=
  match a, b, c with
  | .fin n1 m1 e1, .fin n2 m2 e2, .fin n3 m3 e3 =>
    let (x, y, e) := align (n1 ^^ n2) (m1 * m2) (e1 + e2) n3 m3 e3
    let z := if m1 * m2 = 0 ∧ m3 = 0 then (if (n1 ^^ n2) == n3 then n3 else r == .rdn) else r == .rdn
    roundInt f r false 0 (x + y) e z
  | _, _, _ =>
    let (p, ep) : Flagged Val :=
      match a, b with
      | .nan _, _ => (.qnan, 0)
      | _, .nan _ => (.qnan, 0)
      | .inf n, .inf m => (.inf (n ^^ m), 0)
      | .inf n, .fin n2 m2 _ => if m2 = 0 then (.qnan, excInvalid) else (.inf (n ^^ n2), 0)
      | .fin n1 m1 _, .inf n => if m1 = 0 then (.qnan, excInvalid) else (.inf (n1 ^^ n), 0)
      | .fin n1 m1 e1, .fin n2 m2 e2 => (.fin (n1 ^^ n2) (m1 * m2) (e1 + e2), 0)
    match p, c with
    | .nan _, _ => (.qnan, ep ||| sigNan [a, b, c])
    | _, .nan _ => (.qnan, ep ||| sigNan [a, b, c])
    | .inf n, .inf m => if n == m then (.inf n, 0) else (.qnan, excInvalid)
    | .inf n, _ => (.inf n, 0)
    | _, .inf n => (.inf n, 0)
    | _, _ => (.qnan, excInvalid)

/-- Division rounded into a long format. -/
def divTo (f : LongFmt) (r : Rnd) (a b : Val) : Flagged Val :=
  match a, b with
  | .nan _, _ => (.qnan, sigNan [a, b])
  | _, .nan _ => (.qnan, sigNan [a, b])
  | .inf _, .inf _ => (.qnan, excInvalid)
  | .inf n, .fin m _ _ => (.inf (n ^^ m), 0)
  | .fin n _ _, .inf m => (.fin (n ^^ m) 0 0, 0)
  | .fin n1 m1 e1, .fin n2 m2 e2 =>
    if m2 = 0 then (if m1 = 0 then (.qnan, excInvalid) else (.inf (n1 ^^ n2), excDivZero))
    else if m1 = 0 then (.fin (n1 ^^ n2) 0 0, 0)
    else
      let k := 64 + Nat.log2 m2
      roundLong f r false 0 (n1 ^^ n2) (m1 * 2 ^ k / m2) (e1 - e2 - k) (decide (m1 * 2 ^ k % m2 ≠ 0))

/-- Square root rounded into a long format. -/
def sqrtTo (f : LongFmt) (r : Rnd) (a : Val) : Flagged Val :=
  match a with
  | .nan s => (.qnan, if s then excInvalid else 0)
  | .inf n => if n then (.qnan, excInvalid) else (.inf false, 0)
  | .fin n m e =>
    if m = 0 then (.fin n 0 0, 0)
    else if n then (.qnan, excInvalid)
    else
      let k : Nat := 64 + (if (e % 2 = 0) then 0 else 1)
      let x := m * 2 ^ k * 2 ^ 64
      let y := Nat.sqrt (m * 2 ^ (k + 64))
      roundLong f r false 0 false y ((e - k - 64) / 2) (decide (y * y ≠ x))

/-- Comparison of two values: negative, zero or positive as a < b, a = b, a > b; none when unordered. -/
def compareVal (a b : Val) : Option Int :=
  match a, b with
  | .nan _, _ => none
  | _, .nan _ => none
  | .inf n, .inf m => some (if n == m then 0 else if n then -1 else 1)
  | .inf n, _ => some (if n then -1 else 1)
  | _, .inf n => some (if n then 1 else -1)
  | .fin n1 m1 e1, .fin n2 m2 e2 =>
    let (x, y, _) := align n1 m1 e1 n2 m2 e2
    some (x - y)

/-- a < b, false when unordered. -/
def ltVal (a b : Val) : Bool := (compareVal a b).any fun c => decide (c < 0)

/-- FP32 operations with nearest-even rounding. -/
def add32 (a b : Val) : Flagged Val := addTo fp32 .rne a b
def mul32 (a b : Val) : Flagged Val := mulTo fp32 .rne a b
def fma32 (a b c : Val) : Flagged Val := fmaTo fp32 .rne a b c

/-! ### Short formats (R53, R54) -/

/-- Format codes (Table NUM.1). -/
def fmtFp32 : Nat := 0
def fmtFp16 : Nat := 1
def fmtBf16 : Nat := 2
def fmtInt32 : Nat := 3
def fmtInt8 : Nat := 4
def fmtY8A : Nat := 8
def fmtY8B : Nat := 9
def fmtY6 : Nat := 10
def fmtY4 : Nat := 11
def fmtY4i : Nat := 12
def fmtY3 : Nat := 13
def fmtY2 : Nat := 14

/-- Whether a code names a format. -/
def fmtOk (f : Nat) : Bool := decide (f ≤ 4) || (decide (8 ≤ f) && decide (f ≤ 14))

/-- Bits of an element. -/
def fmtBits (f : Nat) : Nat :=
  match f with
  | 0 => 32 | 1 => 16 | 2 => 16 | 3 => 32 | 4 => 8 | 8 => 8 | 9 => 8 | 10 => 6 | 11 => 4 | 12 => 4 | 13 => 3 | 14 => 2
  | _ => 8

/-- Short formats. -/
def isShort (f : Nat) : Bool := decide (8 ≤ f) && decide (f ≤ 14)

/-- Long floating-point formats. -/
def isLong (f : Nat) : Bool := decide (f ≤ 2)

/-- Formats that always carry a block scale. -/
def alwaysBlock (f : Nat) : Bool := decide (10 ≤ f) && decide (f ≤ 14)

/-- The long format of a code. -/
def longOf (f : Nat) : LongFmt := if f = 1 then fp16 else if f = 2 then bf16 else fp32

/-- Exponent-format parameters: exponent bits, fraction bits, bias. -/
def shortParams (f : Nat) : Nat × Nat × Nat :=
  match f with
  | 8 => (4, 3, 8) | 9 => (5, 2, 16) | 10 => (3, 2, 4) | _ => (2, 1, 1)

/-- The value of an element code, before any scale: sign, magnitude and exponent; none is the NaN of Y8A and Y8B. -/
def shortVal (f code : Nat) : Option (Bool × Nat × Int) :=
  if f = 8 ∨ f = 9 ∨ f = 10 ∨ f = 11 then
    let (eb, fb, bias) := shortParams f
    let neg := decide (code / 2 ^ (eb + fb) % 2 = 1)
    let ex := code / 2 ^ fb % 2 ^ eb
    let fr := code % 2 ^ fb
    if neg ∧ ex = 0 ∧ fr = 0 then (if f = 8 ∨ f = 9 then none else some (false, 0, 0))
    else if ex = 0 then some (neg, fr, 1 - (bias : Int) - fb)
    else some (neg, 2 ^ fb + fr, (ex : Int) - bias - fb)
  else if f = 12 then (if code < 8 then some (false, code, 0) else some (true, 16 - code, 0))
  else if f = 13 then
    let m := match code % 4 with | 0 => 0 | 1 => 1 | 2 => 2 | _ => 4
    if m = 0 then some (false, 0, 0) else some (decide (code / 4 = 1), m, -1)
  else if code = 1 then some (false, 1, 0) else if code = 3 then some (true, 1, 0) else some (false, 0, 0)

/-- Whether a code is the reserved Y2 code, counted when read (R54). -/
def isRsvd (f code : Nat) : Bool := decide (f = 14) && decide (code = 2)

/-- Unit exponent of a format's grid: its smallest step. -/
def gridUnit (f : Nat) : Int :=
  match f with
  | 8 => -10 | 9 => -17 | 10 => -5 | 11 => -1 | 13 => -1 | _ => 0

/-- Lower neighbour, step and odd code of a magnitude X on the grid, in units of 2^u below the grid unit: `s` such units
make one grid unit. Beyond the largest finite value the last step goes on (R64). -/
def gridCell (f X s : Nat) : Nat × Nat × Bool :=
  if f = 8 ∨ f = 9 ∨ f = 10 ∨ f = 11 then
    let (eb, fb, _) := shortParams f
    let top := 2 ^ eb - 2
    let b := X / s
    let q := if b < 2 ^ (fb + 1) then 0 else min (Nat.log2 b - fb) top
    let w := s * 2 ^ q
    (X / w * w, w, decide (X / w % 2 = 1))
  else if f = 13 then
    if X < s then (0, s, false)
    else if X < 2 * s then (s, s, true)
    else if X < 4 * s then (2 * s, 2 * s, false)
    else (X / (2 * s) * (2 * s), 2 * s, decide (X / (2 * s) % 2 = 0))
  else (X / s * s, s, decide (X / s % 2 = 1))

/-- Largest finite magnitude in grid units (Table NUM.3). -/
def gridMax (f : Nat) (neg : Bool) : Nat :=
  match f with
  | 8 => 240 * 1024 | 9 => 57344 * 131072 | 10 => 14 * 32 | 11 => 12 | 12 => if neg then 8 else 7 | 13 => 4 | _ => 1

/-- The code of a magnitude of `g` grid units. -/
def gridCode (f : Nat) (neg : Bool) (g : Nat) : Nat :=
  if g = 0 then 0
  else if f = 8 ∨ f = 9 ∨ f = 10 ∨ f = 11 then
    let (eb, fb, _) := shortParams f
    let q := Nat.log2 g - fb
    let c := if g < 2 ^ fb then g else (q + 1) * 2 ^ fb + (g / 2 ^ q - 2 ^ fb)
    (if neg then 2 ^ (eb + fb) else 0) + c
  else if f = 12 then (if neg then 16 - g else g)
  else if f = 13 then (if neg then 4 else 0) + (if g = 4 then 3 else g)
  else if neg then 3 else 1

/-- What a conversion of one element gives: a code, or a request that its block become a NaN block. -/
inductive ShortOut where
  | code (c : Nat)
  | nanBlock
deriving DecidableEq, Repr

/-- Events and sticky flag of one conversion: SAT, ZERO, NANZ (Table NUM.7). -/
structure Ev where
  sat  : Bool
  zero : Bool
  nanz : Bool
deriving DecidableEq, Repr

def Ev.none : Ev := ⟨false, false, false⟩

/-- Convert a value, already divided by its block scale, into a short format (R64, R65, Table NUM.6). At −8.5 in Y4i, a tie
whose even code is that of −8, nearest rounding gives −8 without overflow (log entry 77). -/
def toShort (f : Nat) (sat : Bool) (r : Rnd) (draw : Nat) (v : Val) : ShortOut × Ev :=
  let ovf (neg : Bool) : ShortOut :=
    if sat then .code (gridCode f neg (gridMax f neg))
    else if f = 8 ∨ f = 9 then .code 0x80 else .nanBlock
  match v with
  | .nan _ =>
    if f = 8 ∨ f = 9 then (.code 0x80, .none)
    else if sat then (.code 0, ⟨false, false, true⟩) else (.nanBlock, .none)
  | .inf neg => (ovf neg, ⟨true, false, false⟩)
  | .fin neg m e =>
    if m = 0 then (.code 0, .none)
    else
      let u := min e (gridUnit f)
      let X := m * 2 ^ (e - u).toNat
      let s := 2 ^ (gridUnit f - u).toNat
      let (a, w, odd) := gridCell f X s
      let y := if roundUp r neg odd (X - a) w false draw then a + w else a
      if gridMax f neg * s < y then (ovf neg, ⟨true, false, false⟩)
      else (.code (gridCode f neg (y / s)), ⟨false, decide (y = 0), false⟩)

/-! ### Block scales (R55-R61) -/

/-- A value times 2^k. -/
def Val.scale (v : Val) (k : Int) : Val :=
  match v with
  | .fin n m e => .fin n m (e + k)
  | x => x

/-- Whether a finite magnitude is at most L × 2^k for the format's L (Y4i: 7). -/
def fitsL (f : Nat) (m : Nat) (e k : Int) : Bool :=
  let u := min e (gridUnit f + k)
  decide (m * 2 ^ (e - u).toNat ≤ gridMax f false * 2 ^ (gridUnit f + k - u).toNat)

/-- The FIT scale of a block (R58, R60). -/
def fitScale (f : Nat) (vs : List Val) : Nat :=
  let fs := vs.filterMap fun v => match v with | .fin _ m e => if m = 0 then none else some (m, e) | _ => none
  if fs.isEmpty then 0x7F
  else ((List.range 255).find? fun (s : Nat) => fs.all fun x => fitsL f x.1 x.2 ((s : Int) - 127)).getD 254

/-- The fields of a conversion attribute word (Table NUM.5). -/
structure Attr where
  fmt    : Nat
  sat    : Bool
  rnd    : Nat
  given  : Bool
  factor : Bool
  blk    : Bool
  scale  : Nat
deriving DecidableEq, Repr

/-- Read an attribute word. -/
def attrOf (w : Nat) : Attr :=
  ⟨w % 16, decide (w / 16 % 2 = 1), w / 32 % 8, decide (w / 256 % 2 = 1), decide (w / 512 % 2 = 1),
   decide (w / 1024 % 2 = 1), w / 65536 % 256⟩

/-- Whether a tensor of the word carries block scales. -/
def Attr.scaled (a : Attr) : Bool := alwaysBlock a.fmt || ((a.fmt == 8 || a.fmt == 9) && a.blk)

/-- Whether an attribute word is valid (R50, R59, R63; its reserved bits 0). -/
def attrOk (w : Nat) : Bool :=
  let a := attrOf w
  fmtOk a.fmt && decide (a.rnd < 6) && !(a.rnd == 5 && (a.fmt == 0 || a.fmt == 3 || a.fmt == 4)) &&
  !(a.blk && decide (a.fmt < 5)) && !(a.given && !a.scaled) && !(a.given && a.scaled && a.scale == 0xFF) &&
  decide (w / 2048 % 32 = 0) && decide (w / 16777216 % 256 = 0)

/-- A per-tensor factor must be a positive, finite, normal FP32 value (R57). -/
def factorOk (w : Nat) : Bool := decide (0x800000 ≤ w) && decide (w < 0x7F800000)

/-- The reciprocal that an encoder multiplies by (R57). -/
def recip (w : Nat) : Val := (divTo fp32 .rne .one (decodeLong fp32 w)).1

/-- The stochastic draw (R72). -/
def srDraw (seed : BitVec 64) (key elem : Nat) : Nat :=
  let c : BitVec 64 := BitVec.ofNat 64 (key % 0x1000000 * 0x10000000000 + elem % 0x10000000000)
  let z := seed + c * 0x9E3779B97F4A7C15#64
  let z := (z ^^^ (z >>> 30)) * 0xBF58476D1CE4E5B9#64
  let z := (z ^^^ (z >>> 27)) * 0x94D049BB133111EB#64
  (z ^^^ (z >>> 31)).toNat / 0x1000000000000

/-- What an encoding of elements gives: element codes, scales, flags, sticky bits and events; for block-scaled Y8A also
the codes and scales of its residual plane (R273). -/
structure Enc where
  codes  : List Nat
  scales : List Nat
  exc    : Exc
  nanz   : Bool
  sat    : Nat
  zero   : Nat
  nanzN  : Nat
  lo     : List Nat
  loScales : List Nat
deriving DecidableEq, Repr

def Enc.empty : Enc := ⟨[], [], 0, false, 0, 0, 0, [], []⟩

/-- Two encodings one after the other. -/
def Enc.append (a b : Enc) : Enc :=
  ⟨a.codes ++ b.codes, a.scales ++ b.scales, a.exc ||| b.exc, a.nanz || b.nanz, a.sat + b.sat, a.zero + b.zero,
   a.nanzN + b.nanzN, a.lo ++ b.lo, a.loScales ++ b.loScales⟩

/-- The exact value of a short element under its block scale: 0xFF is a NaN block (R55, R61). -/
def shortValue (f code scale : Nat) : Val :=
  if scale = 0xFF then .qnan
  else match shortVal f code with
    | none => .qnan
    | some (n, m, e) => .fin n m (e + scale - 127)

/-- The residual block of a Y8A block (R273): x − hi in FP32, in Y8A with FIT, nearest rounding and SATMODE 1; the
residual of a NaN element is 0x80. -/
def residual (vs : List Val) (codes : List Nat) (s : Nat) : List Nat × List Nat :=
  let rs := (vs.zip codes).map fun x => (add32 x.1 (shortValue 8 x.2 s).negate).1
  let t := fitScale 8 rs
  (((rs.zip codes).map fun x => if x.2 = 0x80 then 0x80
    else match (toShort 8 true .rne 0 (x.1.scale (127 - (t : Int)))).1 with | .code c => c | .nanBlock => 0x80), [t])

/-- Encode one block of a block-scaled format: values after the factor, with their draws (R58-R61, R65). A NaN block counts
its overflowing elements alone (Table LOWP.1). -/
def encBlock (a : Attr) (vs : List (Val × Nat)) : Enc :=
  let s := if a.given then a.scale else fitScale a.fmt (vs.map (·.1))
  let outs := vs.map fun v => toShort a.fmt a.sat (rndOf a.rnd) v.2 (v.1.scale (127 - (s : Int)))
  let bad := outs.any fun o => o.1 == .nanBlock
  let codes := outs.map fun o => match o.1 with | .code c => if bad then 0 else c | .nanBlock => 0
  let rs := if a.fmt = 8 then residual (vs.map (·.1)) codes s else ([], [])
  ⟨codes, [if bad then 0xFF else s], 0, outs.any (·.2.nanz), (outs.filter (·.2.sat)).length,
   if bad then 0 else (outs.filter (·.2.zero)).length, (outs.filter (·.2.nanz)).length, rs.1, rs.2⟩

/-- Convert one FP32 value into INT8 or INT32 (R66). -/
def toInt (w : Nat) (r : Rnd) (v : Val) : Flagged Int :=
  let hi : Int := 2 ^ (w - 1) - 1
  let lo : Int := -(2 ^ (w - 1))
  match v with
  | .nan _ => (0, excInvalid)
  | .inf n => (if n then lo else hi, excInvalid)
  | .fin n m e =>
    let W := 2 ^ (-e).toNat
    let q := if 0 ≤ e then m * 2 ^ e.toNat else m / W
    let x := if 0 ≤ e then 0 else m % W
    let r := if r == .stoch then .rne else r
    let k : Int := (q + (if roundUp r n (decide (q % 2 = 1)) x W false 0 then 1 else 0) : Nat)
    let k := if n then -k else k
    if k < lo then (lo, excInvalid) else if hi < k then (hi, excInvalid)
    else (k, if x = 0 then 0 else excInexact)

/-- An integer as an unsigned code of `w` bits. -/
def intCode (w : Nat) (k : Int) : Nat := (k % (2 ^ w : Int)).toNat

/-- Apply the per-tensor reciprocal (R57): nearest even in FP32. -/
def applyRecip (g : Option Val) (v : Val) : Flagged Val :=
  match g with
  | some g => mul32 v g
  | none => (v, 0)

/-- Encode a row of FP32 values under an attribute word; `g` is the reciprocal of the factor if it carries one, each value
comes with its draw. Blocks of 32 along the row; the last may be partial (R56). -/
def encRow (a : Attr) (g : Option Val) (vs : List (Val × Nat)) : Enc :=
  if isLong a.fmt then
    let outs := vs.map fun v =>
      let y := applyRecip g v.1
      let z := toLong (longOf a.fmt) (rndOf a.rnd) a.sat v.2 y.1
      (encodeLong (longOf a.fmt) z.1, y.2 ||| z.2)
    ⟨outs.map (·.1), [], outs.foldl (fun x o => x ||| o.2) 0, false, 0, 0, 0, [], []⟩
  else if a.fmt = 3 ∨ a.fmt = 4 then
    let w := fmtBits a.fmt
    let outs := vs.map fun v =>
      let y := applyRecip g v.1
      let z := toInt w (rndOf a.rnd) y.1
      (intCode w z.1, y.2 ||| z.2, y.1.isNan)
    ⟨outs.map (·.1), [], outs.foldl (fun x o => x ||| o.2.1) 0, outs.any (·.2.2), 0, 0, 0, [], []⟩
  else
    let ys := vs.map fun v => ((applyRecip g v.1).1, v.2)
    if a.scaled then (blocks (ys.length / 32 + 1) ys).foldl (fun x b => x.append (encBlock a b)) Enc.empty
    else
      let outs := ys.map fun v => toShort a.fmt a.sat (rndOf a.rnd) v.2 v.1
      ⟨outs.map fun o => match o.1 with | .code c => c | .nanBlock => 0, [], 0, outs.any (·.2.nanz),
       (outs.filter (·.2.sat)).length, (outs.filter (·.2.zero)).length, (outs.filter (·.2.nanz)).length, [], []⟩
where
  blocks : Nat → List (Val × Nat) → List (List (Val × Nat))
    | 0, _ => []
    | n + 1, l => if l.isEmpty then [] else l.take 32 :: blocks n (l.drop 32)

/-- Pack codes of `w` bits into a little-endian bit stream. -/
def packCodes (w : Nat) (codes : List Nat) : List Byte :=
  let v := codes.foldr (fun c x => c + x * 2 ^ w) 0
  (List.range ((codes.length * w + 7) / 8)).map fun i => BitVec.ofNat 8 (v / 256 ^ i)

/-- The code of element i of a row packed at `w` bits, blocks of 32 one after another (R56). -/
def unpackCode (w : Nat) (bs : Nat → Byte) (i : Nat) : Nat :=
  let b := i * w
  ((bs (b / 8)).toNat + 256 * (bs (b / 8 + 1)).toNat + 65536 * (bs (b / 8 + 2)).toNat + 16777216 * (bs (b / 8 + 3)).toNat)
    / 2 ^ (b % 8) % 2 ^ w

/-- Decode a stored element into FP32 (R55, R57, R67): the exact scaled value times the factor, one rounding. SATMODE acts on
short elements; a long one times its factor overflows as the standard has it (log entry 77). -/
def decodeElem (f : Nat) (sat : Bool) (factor : Option Val) (code scale : Nat) : Flagged Val :=
  if isLong f then
    let v := decodeLong (longOf f) code
    match factor with
    | none => if v == .nan true then (.qnan, excInvalid) else (v, 0)
    | some g => mul32 v g
  else if f = 3 ∨ f = 4 then
    let w := fmtBits f
    let k : Int := if code < 2 ^ (w - 1) then code else (code : Int) - 2 ^ w
    let x := Val.fin (decide (k < 0)) k.natAbs 0
    match factor with
    | none => toLong fp32 .rne false 0 x
    | some g => mul32 x g
  else
    match shortValue f code scale with
    | .nan _ => (.qnan, 0)
    | .fin n m e =>
      match factor with
      | some (.fin n2 m2 e2) => roundLong fp32 .rne sat 0 (n ^^ n2) (m * m2) (e + e2) false
      | _ => roundLong fp32 .rne sat 0 n m e false
    | .inf n => (.inf n, 0)

end Sys2Proof.Machine
end

