-- ==== Sys2Proof/Machine/Fourier.lean ====
section
/-! DEFINITION. The F × F transforms of route 3 (R257, R259, R260). The spec states the sum and bounds the error; the roundings
of the radix-4 stages are open: the result is a free value within the bound (log entry 78). -/

namespace Sys2Proof.Machine

/-- Fraction bits of the fixed-point twiddles that the sum is formed with. -/
def twBits : Nat := 256

/-- cos and sin of 2π / 2^(n + 2) in fixed point, from a quarter turn by half angles. -/
def halfAngles : Nat → Int × Int
  | 0 => (0, 2 ^ twBits)
  | n + 1 =>
    let c := (halfAngles n).1.toNat
    ((Nat.sqrt ((2 ^ twBits + c) * 2 ^ (twBits - 1)) : Nat), (Nat.sqrt ((2 ^ twBits - c) * 2 ^ (twBits - 1)) : Nat))

/-- cos and sin of 2π k / F in fixed point, for F = 2^(n + 2). -/
def turnOf (n : Nat) : Nat → Int × Int
  | 0 => (2 ^ twBits, 0)
  | k + 1 =>
    let (c, s) := turnOf n k
    let (c1, s1) := halfAngles n
    ((c * c1 - s * s1) / 2 ^ twBits, (s * c1 + c * s1) / 2 ^ twBits)

/-- A finite value in units of 2^−149; none: it is not finite. -/
def fixedOf (v : Val) : Option Int :=
  match v with
  | .fin n m e => some (let k : Int := (m * 2 ^ (e + 149).toNat : Nat); if n then -k else k)
  | _ => none

/-- Exponent of the units of `exactSum`: those of the inputs and twiddles, and of the inverse's 1 / F². -/
def sumExp (inv : Bool) (F : Nat) : Int := -149 - twBits - (if inv then 2 * (Nat.log2 F : Int) else 0)

/-- The sum of R257 at bin (u, v), or of its inverse at position (u, v), of real and imaginary parts in units of 2^−149. -/
def exactSum (inv : Bool) (F : Nat) (xs : List (Int × Int)) (u v : Nat) : Int × Int :=
  let tab := (List.range F).map (turnOf (Nat.log2 F - 2))
  xs.zipIdx.foldl (fun a x =>
    let (c, s) := tab.getD ((u * (x.2 / F) + v * (x.2 % F)) % F) (0, 0)
    let s := if inv then s else -s
    (a.1 + (x.1.1 * c - x.1.2 * s), a.2 + (x.1.1 * s + x.1.2 * c))) (0, 0)

/-- Squares of a list of numbers, summed: the square of its norm. -/
def normSq (xs : List (Int × Int)) : Int := xs.foldl (fun a x => a + (x.1 * x.1 + x.2 * x.2)) 0

/-- A result within the bound of R260 of the sums xs in units of 2^q: ‖X̂ − X‖ ≤ 8 × log4 F × 2^−24 × ‖X‖. -/
def within260 (F : Nat) (q : Int) (xs : List (Int × Int)) (ys : List (Word × Word)) : Bool :=
  let part (w : Word) : Option Int := (fixedOf (f32 w)).map fun k => k * 2 ^ (-149 - q).toNat
  let ds := (xs.zip ys).map fun z =>
    (part z.2.1).bind fun a => (part z.2.2).map fun b => (a - z.1.1, b - z.1.2)
  let l : Int := 8 * (Nat.log2 F / 2 : Nat)
  decide (ys.length = xs.length) && ds.all Option.isSome &&
  decide (normSq (ds.filterMap fun d => d) * 2 ^ 48 ≤ l * l * normSq xs)

/-- The transform of a tile of F × F FP32 pairs, row by row (R257, R259): what the module gives where it keeps the bound, else
the sums rounded to nearest; a tile with a NaN or an infinity has no bound. With the flags: free ones of its roundings. -/
def transformed (inv : Bool) (F : Nat) (xs : List (Val × Val)) : List (Word × Word) × Exc :=
  let ws := xs.map fun x => (f32w x.1, f32w x.2)
  let ys := Config.transform inv F ws
  let ex := Config.transformExc inv F ws
  let fs := xs.map fun x => (fixedOf x.1).bind fun a => (fixedOf x.2).map fun b => (a, b)
  if fs.any Option.isNone then (ys, ex)
  else
    let ks := fs.filterMap fun f => f
    let q := sumExp inv F
    let sums := (List.range (F * F)).map fun i => exactSum inv F ks (i / F) (i % F)
    if ks.all fun k => k.1 == 0 && k.2 == 0 then (List.replicate (F * F) (0, 0), 0)
    else
      (if within260 F q sums ys then ys
       else sums.map fun s => (f32w (roundInt fp32 .rne false 0 s.1 q false).1, f32w (roundInt fp32 .rne false 0 s.2 q false).1),
       ex &&& (excOverflow ||| excUnderflow ||| excInexact))

end Sys2Proof.Machine
end

