-- ==== Sys2Proof/Machine/Pwl.lean ====
section
/-! DEFINITION. Piecewise-linear functions (08_special_functions.md): the endpoints y_i = RN(f(b_i)) of R180 as FP32 words,
the exact interpolation of R179 with its one rounding, and the functions built from the segments (R183). -/

namespace Sys2Proof.Machine

/-! Endpoints: 2^(i/16); log2(1 + i/16); 1/(1 + i/16); 1/√b_i on the breakpoints of RSQRT; sin(2π i/128). -/

/-- Endpoints of EXP2. -/
def tabExp2 : List Nat :=
  [0x3F800000, 0x3F85AAC3, 0x3F8B95C2, 0x3F91C3D3, 0x3F9837F0, 0x3F9EF532, 0x3FA5FED7, 0x3FAD583F, 0x3FB504F3,
   0x3FBD08A4, 0x3FC5672A, 0x3FCE248C, 0x3FD744FD, 0x3FE0CCDF, 0x3FEAC0C7, 0x3FF5257D, 0x40000000]

/-- Endpoints of LOG2. -/
def tabLog2 : List Nat :=
  [0x00000000, 0x3DB31FB8, 0x3E2E00D2, 0x3E7DE0B6, 0x3EA4D3C2, 0x3EC8DDD4, 0x3EEB3A9F, 0x3F060828, 0x3F15C01A,
   0x3F24D3C2, 0x3F335004, 0x3F41404F, 0x3F4EAED0, 0x3F5BA4A4, 0x3F6829FB, 0x3F744636, 0x3F800000]

/-- Endpoints of RCP. -/
def tabRcp : List Nat :=
  [0x3F800000, 0x3F70F0F1, 0x3F638E39, 0x3F579436, 0x3F4CCCCD, 0x3F430C31, 0x3F3A2E8C, 0x3F321643, 0x3F2AAAAB,
   0x3F23D70A, 0x3F1D89D9, 0x3F17B426, 0x3F124925, 0x3F0D3DCB, 0x3F088889, 0x3F042108, 0x3F000000]

/-- Endpoints of RSQRT. -/
def tabRsqrt : List Nat :=
  [0x3F800000, 0x3F715BEF, 0x3F64F92E, 0x3F5A514A, 0x3F5105EC, 0x3F48D2AB, 0x3F41848F, 0x3F3AF4BA, 0x3F3504F3,
   0x3F2AAAAB, 0x3F21E89B, 0x3F1A5FB2, 0x3F13CD3A, 0x3F0E00D5, 0x3F08D677, 0x3F0432A5, 0x3F000000]

/-- Endpoints of SIN. -/
def tabSin : List Nat :=
  [0x00000000, 0x3D48FB30, 0x3DC8BD36, 0x3E164083, 0x3E47C5C2, 0x3E78CFCC, 0x3E94A031, 0x3EAC7CD4, 0x3EC3EF15,
   0x3EDAE880, 0x3EF15AEA, 0x3F039C3D, 0x3F0E39DA, 0x3F187FC0, 0x3F226799, 0x3F2BEB4A, 0x3F3504F3, 0x3F3DAEF9,
   0x3F45E403, 0x3F4D9F02, 0x3F54DB31, 0x3F5B941A, 0x3F61C598, 0x3F676BD8, 0x3F6C835E, 0x3F710908, 0x3F74FA0B,
   0x3F7853F8, 0x3F7B14BE, 0x3F7D3AAC, 0x3F7EC46D, 0x3F7FB10F, 0x3F800000]

/-- An exact number m × 2^e. -/
structure Dy where
  m : Int
  e : Int
deriving DecidableEq, Repr

/-- Exact sum. -/
def Dy.add (a b : Dy) : Dy :=
  let e := min a.e b.e
  ⟨a.m * 2 ^ (a.e - e).toNat + b.m * 2 ^ (b.e - e).toNat, e⟩

/-- Exact product. -/
def Dy.mul (a b : Dy) : Dy := ⟨a.m * b.m, a.e + b.e⟩

/-- Exact negation. -/
def Dy.neg (a : Dy) : Dy := ⟨-a.m, a.e⟩

/-- The exact value of a finite FP32 word of sign 0. -/
def dyWord (w : Nat) : Dy :=
  match decodeLong fp32 w with
  | .fin n m e => ⟨if n then -(m : Int) else m, e⟩
  | _ => ⟨0, 0⟩

/-- The line of segment i at t (R179): y_i + (y_{i+1} − y_i) t, exact. -/
def interp (tab : List Nat) (i : Nat) (t : Dy) : Dy :=
  let a := dyWord (tab.getD i 0)
  let b := dyWord (tab.getD (i + 1) 0)
  a.add ((b.add a.neg).mul t)

/-- Segment and position of an offset m × 2^e from the start of `n` equal segments of width 2^w: the last breakpoint
closes the last segment. -/
def segment (m : Nat) (e w : Int) (n : Nat) : Nat × Dy :=
  let i := min (shiftTo m (e - w)) (n - 1)
  (i, (Dy.mk m (e - w)).add ⟨-(i : Int), 0⟩)

/-- Round a result to FP32 with the flags rule of R184: an infinite one raises overflow alone; an exact case what its
rounding raises; any other inexact, and underflow below 2^−126. -/
def pwlOut (exact : Bool) (d : Dy) : Flagged Val :=
  let r := roundLong fp32 .rne false 0 (decide (d.m < 0)) d.m.natAbs d.e false
  match r.1 with
  | .fin _ m e =>
    if exact then (if d.m = 0 then (.zero, 0) else r)
    else (r.1, excInexact ||| (if m = 0 ∨ e + Nat.log2 m < -126 then excUnderflow else 0))
  | _ => (r.1, excOverflow)

/-- A NaN input of a function. -/
def nanIn (s : Bool) : Flagged Val := (.qnan, if s then excInvalid else 0)

/-- EXP2 (Table PWL.1). -/
def exp2 (v : Val) : Flagged Val :=
  match v with
  | .nan s => nanIn s
  | .inf n => (if n then .zero else .inf false, 0)
  | .fin n m e =>
    if m = 0 then (.one, 0)
    else if !n && decide (128 ≤ shiftTo m e) then (.inf false, excOverflow)
    else if n && decide (400 ≤ shiftTo m e) then (.zero, excUnderflow ||| excInexact)
    else
      let w := 2 ^ (-e).toNat
      let x := if 0 ≤ e then m * 2 ^ e.toNat else m
      let e := min e 0
      let fl : Int := if n then -(((x + w - 1) / w : Nat) : Int) else (x / w : Nat)
      let fr := if n then ((x + w - 1) / w) * w - x else x % w
      let (i, t) := segment fr e (-4) 16
      let g := interp tabExp2 i t
      pwlOut (decide (fr = 0)) ⟨g.m, g.e + fl⟩

/-- Exponent and offset of a positive finite value from its power of two: x = 2^k (1 + m × 2^e). -/
def normal (m : Nat) (e : Int) : Int × Nat × Int :=
  let l := Nat.log2 m
  (e + l, m - 2 ^ l, -(l : Int))

/-- LOG2. -/
def log2v (v : Val) : Flagged Val :=
  match v with
  | .nan s => nanIn s
  | .inf n => if n then (.qnan, excInvalid) else (.inf false, 0)
  | .fin n m e =>
    if m = 0 then (.inf true, excDivZero)
    else if n then (.qnan, excInvalid)
    else
      let (k, fr, fe) := normal m e
      let (i, t) := segment fr fe (-4) 16
      pwlOut (decide (fr = 0)) ((interp tabLog2 i t).add ⟨k, 0⟩)

/-- RCP. -/
def rcp (v : Val) : Flagged Val :=
  match v with
  | .nan s => nanIn s
  | .inf n => (.fin n 0 0, 0)
  | .fin n m e =>
    if m = 0 then (.inf n, excDivZero)
    else
      let (k, fr, fe) := normal m e
      let (i, t) := segment fr fe (-4) 16
      let g := interp tabRcp i t
      pwlOut (decide (fr = 0)) ⟨if n then -g.m else g.m, g.e - k⟩

/-- RSQRT. -/
def rsqrt (v : Val) : Flagged Val :=
  match v with
  | .nan s => nanIn s
  | .inf n => if n then (.qnan, excInvalid) else (.zero, 0)
  | .fin n m e =>
    if m = 0 then (.inf n, excDivZero)
    else if n then (.qnan, excInvalid)
    else
      let (k, fr, fe) := normal m e
      if k % 2 = 0 then
        let (i, t) := segment fr fe (-3) 8
        let g := interp tabRsqrt i t
        pwlOut (decide (fr = 0)) ⟨g.m, g.e - k / 2⟩
      else
        let (i, t) := segment (2 * fr) fe (-2) 8
        let g := interp tabRsqrt (i + 8) t
        pwlOut false ⟨g.m, g.e - (k - 1) / 2⟩

/-- r = x − rint(x) as a sign and a magnitude a × 2^e, ties of rint to even (R181). -/
def turn (n : Bool) (m : Nat) (e : Int) : Bool × Nat × Int :=
  if 0 ≤ e then (false, 0, 0)
  else
    let w := 2 ^ (-e).toNat
    let f := m % w
    let up := decide (w < 2 * f) || (decide (2 * f = w) && decide (m / w % 2 = 1))
    if up then (!n, w - f, e) else (n, f, e)

/-- One quarter of the sine at u = a × 2^e ≤ 1/4. -/
def quarter (a : Nat) (e : Int) : Dy :=
  let (i, t) := segment a e (-7) 32
  interp tabSin i t

/-- SIN of 2π x. -/
def sinv (v : Val) : Flagged Val :=
  match v with
  | .nan s => nanIn s
  | .inf _ => (.qnan, excInvalid)
  | .fin n m e =>
    if m = 0 then (.fin n 0 0, 0)
    else
      let (s, a, e) := turn n m e
      let w := 2 ^ (-e).toNat
      let u := if 4 * a ≤ w then a else w / 2 - a
      let g := quarter u e
      pwlOut (decide (a = 0) || decide (4 * a = w) || decide (2 * a = w)) ⟨if s then -g.m else g.m, g.e⟩

/-- COS of 2π x. -/
def cosv (v : Val) : Flagged Val :=
  match v with
  | .nan s => nanIn s
  | .inf _ => (.qnan, excInvalid)
  | .fin n m e =>
    if m = 0 then (.one, 0)
    else
      let (_, a, e) := turn n m e
      let w := 4 * 2 ^ (-e).toNat
      let a := 4 * a
      let low := decide (4 * a ≤ w)
      let g := quarter (if low then w / 4 - a else a - w / 4) (e - 2)
      pwlOut (decide (a = 0) || decide (4 * a = w) || decide (2 * a = w)) ⟨if low then g.m else -g.m, g.e⟩

/-- Constants of R183 as FP32 values. -/
def cL2E : Val := decodeLong fp32 0x3FB8AA3B
def cC2 : Val := decodeLong fp32 0xC038AA3B
def cKG : Val := decodeLong fp32 0x3FCC422A
def cAG : Val := decodeLong fp32 0x3D372713
def cTwo : Val := .fin false 2 0
def cHalf : Val := .fin false 1 (-1)
def cThreeHalves : Val := .fin false 3 (-1)

/-- sigm, without flags. -/
def sigm0 (x : Val) : Val := (rcp (add32 .one (exp2 (mul32 x.negate cL2E).1).1).1).1

/-- Flags of a composed function (Table PWL.2): none at a zero input, else inexact, and underflow below 2^−126. -/
def composed (x r : Val) : Flagged Val :=
  match r with
  | .fin _ m e =>
    if x.isZero then (r, 0)
    else (r, excInexact ||| (if decide (m = 0) || decide (e + Nat.log2 m < -126) then excUnderflow else 0))
  | _ => (r, 0)

/-- SIGM. -/
def sigm (v : Val) : Flagged Val :=
  match v with
  | .nan s => nanIn s
  | .inf n => (if n then .zero else .one, 0)
  | _ => composed v (sigm0 v)

/-- TANH. -/
def tanhv (v : Val) : Flagged Val :=
  match v with
  | .nan s => nanIn s
  | .inf n => (.fin n 1 0, 0)
  | _ =>
    let r := (rcp (add32 .one (exp2 (mul32 v.abs cC2).1).1).1).1
    let y := (add32 (mul32 cTwo r).1 (Val.fin true 1 0)).1
    composed v (if v.neg then y.abs.negate else y.abs)

/-- SILU. -/
def silu (v : Val) : Flagged Val :=
  match v with
  | .nan s => nanIn s
  | .inf n => (if n then .fin true 0 0 else .inf false, 0)
  | _ => composed v (mul32 v (sigm0 v)).1

/-- GELU in its tanh form. -/
def gelu (v : Val) : Flagged Val :=
  match v with
  | .nan s => nanIn s
  | .inf n => (if n then .fin true 0 0 else .inf false, 0)
  | _ =>
    let w := (fma32 cAG (mul32 v v).1 .one).1
    let z := (mul32 (mul32 cKG v).1 w).1
    composed v (mul32 v (match z with | .inf n => (if n then Val.zero else Val.one) | _ => sigm0 z)).1

/-- IEEE maximum: NaN propagates, −0 < +0. -/
def maxVal (a b : Val) : Flagged Val :=
  match compareVal a b with
  | none => (.qnan, sigNan [a, b])
  | some c => (if c = 0 then (if a.neg then b else a) else if c < 0 then b else a, 0)

/-- IEEE minimum. -/
def minVal (a b : Val) : Flagged Val :=
  match compareVal a b with
  | none => (.qnan, sigNan [a, b])
  | some c => (if c = 0 then (if a.neg then a else b) else if c < 0 then a else b, 0)

/-- The halving tree of R170 over a list of a power-of-two length; `n` bounds its depth. -/
def tree (f : Val → Val → Flagged Val) : Nat → List Val → Flagged Val
  | 0, l => (l.headD .zero, 0)
  | n + 1, l =>
    if l.length ≤ 1 then (l.headD .zero, 0)
    else
      let h := l.length / 2
      let r := (l.take h).zipWith f (l.drop h)
      let e : Exc := r.foldl (fun x o => x ||| o.2) 0
      let t := tree f n (r.map (·.1))
      (t.1, e ||| t.2)

end Sys2Proof.Machine
end

