-- ==== Sys2Proof/Machine/State.lean ====
section
/-! DEFINITION. The state of the module, plain data. Every register of the spec's tables lives in `regs` (its offset is
its key; an offset not listed reads as its reset value) or, where it shows the state of a unit, in that unit's record.
INVENTORY.md lists each piece with the rule that names it. -/

namespace Sys2Proof.Machine

/-- A sparse table by number: entries in rising order of key, none equal to what an unlisted key reads as. -/
abbrev Tab (α : Type) := List (Nat × α)

/-- Status codes (Table SCOPE.4). -/
inductive Status where
  | ok | busy | stateInvalid | badArgument | unitAbsent | authFailed | guardMismatch | accOvercommit
  | collTimeout | collPoisoned | redFull | peerAbsent | evictDeferred | deadlineMiss | poolExhausted
  | tileRetired | crewRetired | startFailed | internal
deriving DecidableEq, Repr

/-- Device states (Table COX.3). -/
inductive DevState where
  | starting | ready | running | quiescing | quiesced | recovery | faulted | retired
deriving DecidableEq, Repr

/-- Whether the module has power (R512, R514, R520): `latched` is off until the input is cycled. -/
inductive Power where
  | on | off | latched
deriving DecidableEq, Repr

/-- Variants (Table SCOPE.1). -/
inductive Variant where
  | yd1f | yd1t | yd1e
deriving DecidableEq, Repr

/-- States of a scull (R104). -/
inductive ScullState where
  | good | spare | fused | retired
deriving DecidableEq, Repr

/-- States of a crew, a Bow or a Wake engine (Tables TASK.8, CONV.7, WAKE.6). -/
inductive UnitState where
  | good | absent | retired
deriving DecidableEq, Repr

/-- States of a Dune stack (Table DUNE.2). -/
inductive StackState where
  | online | stopped | failed | offline
deriving DecidableEq, Repr

/-- Why a task is parked (R117, R118, R122, R205, R211, R223, R255, R276, R311, R368, R386). -/
inductive ParkWhy where
  | counter | barrier | lines | claim | pin | context | seifTest | bow | evaluation | collective
deriving DecidableEq, Repr

/-- Why a running task is suspended (R206, R322, R369). -/
inductive SuspendWhy where
  | page (list : Nat) (pg : Nat)
  | recompute (tensor : Nat)
  | collective (group : Nat)
deriving DecidableEq, Repr

/-- Task states (Table TASK.4); `ended` is a run that ended before commit and waits for its hand-back (R103). -/
inductive TaskState where
  | fetched
  | queued
  | parked (why : ParkWhy)
  | running
  | suspended (why : SuspendWhy)
  | ended (preempted : Bool)
  | committed
  | done
deriving DecidableEq, Repr

/-- What a DMA transfer of a run does (R98): an operand fill of the staging buffers; a read into the operand image (streams,
tables, rows); a C-operand load; a spill write or the read that brings a spilled slot back; a result write. -/
inductive XferKind where
  | fill | read | load | spill | reload | write
deriving DecidableEq, Repr

/-- One transfer (R98): `rows` rows of `len` bytes, `stride` apart from `da`, with `slen` scale bytes a row, `sstride` apart
from `sda`. `stage` is the chunk or pass that a read serves, or the tile part of a slot's transfer. Once it is granted,
`placed` holds where its bytes lead (from, to, length; R312), `issuedAt` the time, and `home` the tensor whose home page it
reads first (R320). A write carries its cells in `data`. `weight`: a fill of B or of weights; `panel`: through the panel
cache. -/
structure Xfer where
  kind     : XferKind
  stage    : Nat
  da       : Nat
  len      : Nat
  rows     : Nat
  stride   : Nat
  sda      : Nat
  slen     : Nat
  sstride  : Nat
  data     : List Cell
  weight   : Bool
  panel    : Bool
  issuedAt : Nat
  home     : Option Nat
  placed   : List (Nat × Nat × Nat)
deriving DecidableEq, Repr

/-- States of an accumulator slot that is not FREE (Table SCULL.3). -/
inductive SlotState where
  | live | spilled | draining
deriving DecidableEq, Repr

/-- An accumulator slot that a task owns (R89, R90): the tile part it belongs to, its place in the part, and its 1,024 FP32
words, row-major; none of them while it is SPILLED. -/
structure Slot where
  task  : Nat
  part  : Nat
  idx   : Nat
  state : SlotState
  words : List Word
deriving DecidableEq, Repr

/-- Counted conversion events of a run (Table NUM.7, R267). -/
structure Counts where
  elems : Nat
  sat   : Nat
  zero  : Nat
  nanz  : Nat
  rsvd  : Nat
deriving DecidableEq, Repr

/-- Side results that a run adds to its unit's counters at commit (R115, R178, R212, R266). -/
structure Tally where
  oobRows   : Nat
  permOob   : Nat
  issues    : Nat
  spills    : Nat
  frcBlocks : Nat
  frcNans   : Nat
  blkRead   : Nat
  blkSkip   : Nat
  exps      : Nat
  rowsEmpty : Nat
  rowsNan   : Nat
  bowBeats  : Nat
deriving DecidableEq, Repr

/-- A task: one descriptor and the life of its runs (R108-R122). `pages` maps list × 2^20 + page to a frame; `shadow`
holds the home ranges (from, to) that a shadow serves, with its element and scale addresses (R321). `lo` holds the lo
plane of B when the task's tag runs at P = 2 (R270), `grants` the src ranges at P = 2 that its outputs may fall in, with
their granules (R273). `avoid` is the scull that it may not run on again (R88), `parkedAt` the crew that tried it when it
parked, `seed` the seed of its first run (R72). `fills` holds bytes that fills brought in, by stage; `nextFill` and `worked`
count the stages whose fills are queued and that are worked, `opened` those up to which a part has its slots; `counted` lists the blocks whose split events are counted. -/
structure Task where
  ring      : Option Nat
  seq       : Word
  words     : List Word
  blocks    : List Cell
  state     : TaskState
  status    : Status
  home      : Nat
  placed    : Bool
  runs      : Nat
  lastCrew  : Option Nat
  scull     : Option Nat
  part      : Nat
  lc        : Bool
  lcLines   : Nat
  lines     : Nat
  todo      : List Xfer
  flying    : List Xfer
  image     : List Cell
  held      : List Cell
  computed  : Bool
  exc       : BitVec 5
  sticky    : BitVec 4
  counts    : Counts
  tally     : Tally
  lo        : Option (Nat × Nat)
  grants    : List (Nat × Nat × Nat × Nat × Nat)
  seed      : Option (BitVec 64)
  avoid     : Option Nat
  parkedAt  : Nat
  fills     : List (Nat × List Cell)
  nextFill  : Nat
  worked    : Nat
  opened    : Nat
  counted   : List (Bool × Nat × Nat)
  nk        : Nat
  startedAt : Nat
  busyUs    : Nat
  overrun   : Bool
  pins      : List (Nat × Bool)
  claims    : List Nat
  frames    : List Nat
  pages     : List (Nat × Nat)
  recompute : Option Nat
  chunksOut : Bool
  ctx       : Bool
  bowHeld   : Bool
  shadow    : List (Nat × Nat × Nat × Nat)
  cacheFmt  : Nat
  susp      : Nat
deriving DecidableEq, Repr

/-- A scull (R89, R95, R99, R104, R107). `testDue`: its self-test follows the hand-back (R88); `resTimes` and `ueTimes` hold the
times of its faults since the start; `dryAt` is the time since which step 2 of R123 has found nothing; `bank` holds the
slots that are not FREE, least recently used part first; `sidecar` the S8 bytes of its staging buffers. -/
structure Scull where
  state     : ScullState
  cause     : Nat
  task      : Option Nat
  testing   : Bool
  testDue   : Bool
  resTimes  : List Nat
  ueTimes   : List Nat
  dryAt     : Option Nat
  suspended : List Nat
  bank      : List Slot
  sidecar   : Tab Byte
deriving DecidableEq, Repr

/-- A crew with its queue, its parked list, its Seif and its panel cache, whose lines of 256 bytes stand by line number, oldest
first (R120, R147, R205, R211, R382). -/
structure Crew where
  state    : UnitState
  cause    : Nat
  queue    : List Nat
  parked   : List Nat
  ctxHeld  : List Nat
  seifTest : Bool
  seifTimes : List Nat
  ueTimes  : List Nat
  serving  : Option Nat
  draining : Bool
  panel    : List (Nat × List Byte)
deriving DecidableEq, Repr

/-- An erg: commit lines, Bow, voltage, task-issue limit (R125, R255, R516, R519). -/
structure Erg where
  lcUsed   : Nat
  used     : Nat
  bow      : UnitState
  bowCause : Nat
  bowTask  : Option Nat
  bowTest  : Bool
  bowTimes : List Nat
  mv       : Nat
  issueLim : Bool
  issueStop : Bool
  windows  : Nat
deriving DecidableEq, Repr

/-- Ring states (Table HOST.3). -/
inductive RingState where
  | disabled | active | halted | draining
deriving DecidableEq, Repr

/-- A lane ring (R405-R415). `reads` are the outstanding descriptor reads (first seq, count, oldest first). -/
structure Ring where
  state    : RingState
  head     : Word
  tail     : Word
  cqTail   : Word
  cqHead   : Word
  reserved : Nat
  reads    : List (Word × Nat)
  waiting  : List Nat
  live     : List Nat
  fence    : Option Nat
  failed   : List (Word × Status)
  lastIrq  : Option Nat
  deferred : Bool
deriving DecidableEq, Repr

/-- Mailbox phases (Table COX.2). -/
inductive MbPhase where
  | idle | running | done | offline
deriving DecidableEq, Repr

/-- A mailbox (R418, R419). -/
structure Mailbox where
  phase      : MbPhase
  lastStatus : BitVec 16
  cmd        : Tab Byte
  rsp        : List Byte
  lastOp     : BitVec 16
  tag        : Word
  irq        : Bool
  unread     : Bool
deriving DecidableEq, Repr

/-- One record of the event log (Table RAS.5). -/
structure LogRec where
  number   : Nat
  etc      : Nat
  epoch    : Nat
  cls      : Nat
  severity : Nat
  code     : Nat
  ident    : Nat
  status   : Status
  payload  : List Word
  chain    : List Byte
deriving DecidableEq, Repr

/-- An open suppression window (R497). -/
structure Window where
  code     : Nat
  cls      : Nat
  ident    : Nat
  status   : Status
  severity : Nat
  openedAt : Nat
  count    : Nat
deriving DecidableEq, Repr

/-- The event log: the ring, the flash log area, numbering and suppression (R492-R498). -/
structure Log where
  ring      : List LogRec
  area      : List LogRec
  next      : Nat
  last      : List Byte
  waiting   : Nat
  oldest    : Nat
  windows   : List Window
  lostFirst : Option Nat
  lostCount : Nat
  lostAt    : Nat
  readUpTo  : Nat
deriving DecidableEq, Repr

/-- The stages of a guarded pair (R437, R438). -/
structure Guard where
  committed : Word
  pending   : Option (Word × Requester × Nat)
deriving DecidableEq, Repr

/-- A write-combining entry (R287): the line number, the byte mask as the offsets written, when it was allocated. -/
structure WcbEntry where
  line  : Nat
  bytes : List Cell
  at_   : Nat
deriving DecidableEq, Repr

/-- A Dune stack controller (R287-R300). -/
structure Stack where
  state     : StackState
  band      : Nat
  bandMax   : Nat
  temp      : Nat
  band5At   : Option Nat
  wcb       : List WcbEntry
  remap     : List (Nat × Nat × Nat)
  burnt     : List (Nat × Nat × Nat)
  tracker   : List (Nat × Nat × Nat × List Nat)
  ueTimes   : List (Nat × Nat)
  chFailed  : List Nat
  phyFailed : List Nat
  parity    : Tab Nat
  spares    : List (Nat × Nat)
  logged    : List Nat
  scrub     : Nat
deriving DecidableEq, Repr

/-- Tensor states (Table TIER.5). -/
inductive TensorState where
  | unregistered | atHome | copyIn | recompute | resident | copyOut
deriving DecidableEq, Repr

/-- A registered tensor (Tables TIER.2, TIER.3). `heat` is by page. -/
structure Tensor where
  state   : TensorState
  prefT1  : Bool
  dlClass : Nat
  name    : Nat
  size    : Nat
  shBase  : Nat
  shScale : Nat
  shStride : Nat
  shScaleStride : Nat
  recomp  : Nat
  dirty   : Bool
  pinsR   : List Nat
  pinsW   : List Nat
  moves   : Nat
  frames  : List Nat
  heat    : Tab Nat
deriving DecidableEq, Repr

/-- The tier engine (R303-R324). `cmd` is the command in progress: op and index. -/
structure Tier where
  tensors  : Tab Tensor
  cmd      : Option (Nat × Nat)
  status   : Status
  decayAt  : Nat
  loading  : List Cell
deriving DecidableEq, Repr

/-- A claim on a page list (R223, R224). -/
structure Claim where
  readers   : List Nat
  appenders : List Nat
  swapper   : Option Nat
  count     : Nat
  lastFill  : Nat
  pending   : List (Nat × Nat)
deriving DecidableEq, Repr

/-- A swap-in request of the page mover (R235, R239); `waiting`: for a frame; `due`: it may be tried now. -/
structure SwapReq where
  list    : Nat
  pg      : Nat
  waiters : List Nat
  waiting : Bool
  due     : Bool
deriving DecidableEq, Repr

/-- The key-value cache engine (R219-R240). -/
structure Kv where
  head    : Tab Word
  tail    : Tab Word
  claims  : Tab Claim
  swaps   : List SwapReq
deriving DecidableEq, Repr

/-- What an evaluation keeps of a layer tag (Tables LOWP.2, LOWP.3). -/
structure Tag where
  watch    : Bool
  prio     : Nat
  hold     : Nat
  satDn    : Nat
  zeroDn   : Nat
  srcBase  : Nat
  srcLen   : Nat
  sclBase  : Nat
  sclLen   : Nat
  p2       : Bool
  grant    : Nat
  quiet    : Nat
  denied   : Bool
  granted  : Bool
  lowered  : Bool
  last     : Counts
deriving DecidableEq, Repr

/-- The low-precision engine (R267-R278). `open_` holds the open pass's counters by crew × 4096 + tag. -/
structure Lowp where
  open_ : Tab Counts
  ended : Tab Counts
  last  : Tab Counts
  tags  : Tab Tag
  busy  : Bool
deriving DecidableEq, Repr

/-- Marks of a Wake pool buffer (R338). -/
inductive Mark where
  | free | short | long | decode
deriving DecidableEq, Repr

/-- A region of interest (R342): its corners in units of 64 samples, the upper ones exclusive, and its offset. -/
structure Interest where
  x0     : Nat
  y0     : Nat
  x1     : Nat
  y1     : Nat
  offset : Int
deriving DecidableEq, Repr

/-- The intra band of a frame (R341): whether its units are superblock rows, its first unit, how many it covers. -/
structure Band where
  rows  : Bool
  first : Nat
  units : Nat
deriving DecidableEq, Repr

/-- The frame that an encoder's codec was last given (R336, R341, R342): its integer samples, row-major, and how it is to be
coded: the quantiser of each 64 x 64 block, row-major, and its intra band. -/
structure Coded where
  key    : Bool
  band   : Option Band
  quants : List Nat
  luma   : List Nat
  cb     : List Nat
  cr     : List Nat
deriving DecidableEq, Repr

/-- A Wake session (Table WAKE.4), kept as its record's bytes; `coded` is the encoder's last frame. -/
structure Session where
  record  : List Byte
  frames  : Nat
  sinceKey : Nat
  coded   : Option Coded
deriving DecidableEq, Repr

/-- A Wake job in progress (Table WAKE.3); `ends` once nothing of it remains to run. `ran` once it has passed its checks and
its wait; `regions` is the table that a RUN read at its start; `bad` and `skipped` are the units and frames of R343 so far. -/
structure Job where
  words  : List Word
  done   : Nat
  bytes  : Nat
  since  : Nat
  ends   : Option Status
  ran    : Bool
  regions : List Interest
  bad    : Nat
  skipped : Nat
deriving DecidableEq, Repr

/-- A Wake engine (R326-R345); pipes 0 (decode) and 1 (encode). -/
structure Wake where
  state    : UnitState
  cause    : Nat
  testing  : Bool
  sessions : Tab (Option Session)
  jobs     : Tab (Option Job)
  head     : Tab Word
  tail     : Tab Word
  marks    : Tab Mark
  ages     : Tab Nat
  clock    : Nat
deriving DecidableEq, Repr

/-- Something the module has sent on its connectors (log entry 6). -/
inductive Sent where
  | msix (vector : Nat)
  | frame (port : Nat) (typ : Nat) (dst : Nat) (header : List Byte) (body : List Byte)
  | flit (port : Nat) (bytes : List Byte)
  | spdm (answer : List Byte)
  | window (ok : Bool) (poisoned : Bool) (data : List Byte)
  | alert (mailbox : Nat)
  | pwrGood (level : Bool)
deriving DecidableEq, Repr

/-- Port states (Table SWEEP.5). -/
inductive PortState where
  | disabled | down | training | attesting | admitted | quarantined
deriving DecidableEq, Repr

/-- A Sweep port (R347-R361, R477-R479). `waiting` holds frames without a credit: channel, flits, frame. `underway` has, by
channel, the sequence numbers that flits of a frame not yet whole have used; `unacked` the flits of whole frames that the
partner has not acknowledged, oldest first; `rxBuf` the bodies in the receive buffers, by channel. -/
structure Port where
  state     : PortState
  since     : Nat
  guardDis  : Bool
  x4        : Bool
  upper     : Bool
  peer      : Nat
  qcause    : Nat
  transcript : List (List Byte)
  certs     : List (Nat × List Byte)
  nonceUsed : Nat
  secret    : List Byte
  digest    : List Byte
  kid       : Nat
  txKey     : List Byte
  rxKey     : List Byte
  newRx     : List Byte
  txCtr     : Nat
  rxCtr     : Nat
  finSent   : Bool
  rekeyAt   : Option Nat
  ekSent    : Bool
  tagFails  : Nat
  rxSeq     : Nat
  firstSeq  : Tab Nat
  txSeq     : Nat
  txAck     : Nat
  replays   : Nat
  inFrame   : Tab Nat
  lost      : Bool
  credits   : Tab Nat
  granted   : Tab Nat
  waiting   : List (Nat × Nat × Sent)
  txBytes   : Nat
  rxBytes   : Nat
  creditAt  : Tab Nat
  statAt    : Nat
  underway  : Tab (List Nat)
  unacked   : List (Nat × List Byte)
  rxBuf     : Tab (List (List Byte))
deriving DecidableEq, Repr

/-- A running collective epoch on this module (R368-R377). -/
structure Coll where
  group    : Nat
  task     : Nat
  epoch    : Word
  op       : Nat
  red      : Nat
  fmt      : Nat
  count    : Nat
  timeout  : Nat
  root     : Bool
  parent   : Nat
  children : List Nat
  rank     : Nat
  members  : Nat
  die      : Nat
  claim    : Nat
  phase    : Nat
  armedAt  : Nat
  guardAt  : Option Nat
  opened   : Bool
  arrivals : Tab Nat
  sums     : Tab Word
  exc      : BitVec 5
  result   : Tab Word
  written  : Tab Bool
  acks     : List Nat
  sentAck  : Bool
  note     : Option Status
  poison   : Bool
  after_   : Bool
deriving DecidableEq, Repr

/-- The collective engine: running epochs by group and number, held STARTs, last ended epochs (R368-R370). -/
structure Colls where
  running : Tab Coll
  held    : Tab (Option (Word × Nat))
  ended   : Tab (Word × Status)
deriving DecidableEq, Repr

/-- A scheduler command in progress (R390, R393). -/
structure Sched where
  op      : Nat
  part    : Nat
  at_     : Nat
  crews   : List Nat
  moved   : Nat
  busy    : Bool
  status  : Status
deriving DecidableEq, Repr

/-- A peer access that awaits its response (R364). -/
structure PeerReq where
  tag  : Nat
  task : Nat
  da   : Nat
  len  : Nat
  write : Bool
  at_  : Nat
deriving DecidableEq, Repr

/-- Phases of a take (Tables CAIRN.3, CAIRN.5). -/
inductive CairnPhase where
  | idle | stopping | copying | draining
deriving DecidableEq, Repr

/-- The Cairn engine (R500-R510). An entry is base, size, shadow. -/
structure Cairn where
  registered : Bool
  parts      : Nat
  entries    : List (Nat × Nat × Nat)
  target0    : Nat
  target1    : Nat
  phase      : CairnPhase
  grantedAt  : Nat
  copyEtc    : Nat
  drained    : Bool
  bytes      : Nat
  lossWait   : Bool
  lossDone   : Bool
  loss       : Word
  lossDa     : Nat
  ctr        : Nat
  ctrVal     : Word
  takeId     : Word
  takeTarget : Nat
  newestV    : Bool
  newestT    : Nat
  newestId   : Word
  restoring  : Option Nat
  restoreMb  : Nat
  replay     : Nat
  replayCtr  : Nat
  replayVal  : Word
  replayDa   : Nat
  tolerance  : Word
  recorded   : Word
  replayed   : Word
  status     : Status
  window     : Nat
deriving DecidableEq, Repr

/-- Kinds of start (R448). -/
inductive StartKind where
  | cold | warm
deriving DecidableEq, Repr

/-- The start in progress and what the next start depends on (R448-R458): the step, when it began and when step 3 ended;
the delayed start (kind, cause, time), `retryAt` when it is the retry of a failed one; the state it left (0xFF: none
known) for the record at step 2; whether power has been held, image or life-cycle state changed, and the start reached
READY; whether the ROM runs, and whether the boot's first records are written. -/
structure Start where
  step      : Nat
  at_       : Nat
  keyAt     : Nat
  kind      : Nat
  cause     : Nat
  fallback  : Nat
  delayed   : Option (StartKind × Nat × Nat)
  retryAt   : Bool
  fromState : Nat
  held      : Bool
  changed   : Bool
  lastGood  : Bool
  rom       : Bool
  logOpen   : Bool
deriving DecidableEq, Repr

/-- Fuses and non-volatile store of the security block, with the module's identity (R44, R452, R468, R473, R494). -/
structure Nv where
  variant   : Variant
  serial    : List Byte
  epoch     : Nat
  failed    : Nat
  failStep  : Nat
  lifecycle : Nat
  lcUsed    : Nat
  roots     : List (List Byte)
  revoked   : List Nat
  minSvn    : Nat
  floors    : Nat
  idIndex   : Nat
  idCert    : List Byte
  flashKey  : Bool
  bootImage : List Byte
  staged    : List Byte
  runImage  : List Byte
  fused     : List Nat
  spareSculls : List Nat
  goodCount : Tab Nat
  testFails : Tab Nat
  repairs   : List (Nat × Nat × Nat × Nat)
  chRepairs : List (Nat × Nat)
  chReplaced : List (Nat × Nat)
  reserved  : Nat
  badPages  : List Nat
  taps      : Tab Nat
deriving DecidableEq, Repr

/-- Security of this boot (R467, R475). -/
structure Sec where
  attReady : Bool
  attUsed  : Nat
  attCert  : List Byte
  rngStop  : Bool
  draws    : Nat
  slot     : Nat
deriving DecidableEq, Repr

/-- The host port (R397-R413). -/
structure HostPort where
  width    : Nat
  rate     : Nat
  flit     : Bool
  ideIo    : Bool
  ideMem   : Bool
  vecMask  : Tab Bool
  vecPend  : Tab Bool
  dropLogged : Bool
deriving DecidableEq, Repr

/-- Power, cooling and telemetry (R487, R513-R520). `vin` in mV, `flow` in mL/min; `hot` holds the dies at 100 °C or above
(erg d as d, Oasis die o as 16 + o). -/
structure Pwr where
  cap      : Nat
  capCode  : Nat
  flowLim  : Option Nat
  vinLim   : Option Nat
  watts    : Nat
  vin      : Nat
  limited  : Bool
  hot      : List Nat
  tjMax    : Nat
  flow     : Nat
  inlet    : Nat
  lowFlowAt : Option Nat
  offAt    : Option Nat
  sensors  : Tab Word
deriving DecidableEq, Repr

/-- The state of the module. `pending` is the queue of commands, first in first out; `fresh` counts free values
drawn (log entry 14); `tx` is what has left the module, newest first. -/
structure State where
  pending : List Instr
  fresh   : Nat
  tx      : List Sent
  power   : Power
  pwrGood : Bool
  etc     : Nat
  timer   : Bool
  dev     : DevState
  fault   : Nat
  start   : Start
  nv      : Nv
  sec     : Sec
  log     : Log
  crash   : Option (Nat × Nat × List (BitVec 16))
  regs    : Tab Word
  staged5 : Option Word
  staged3 : Option (BitVec 64)
  seeded  : List Nat
  holding : Tab Word
  guards  : Tab Guard
  mem     : Tab Byte
  poison  : List Nat
  sculls  : Tab Scull
  crews   : Tab Crew
  ergs    : Tab Erg
  ctrs    : Tab Word
  tasks   : Tab Task
  rings   : Tab Ring
  lastRing : Nat
  mbs     : Tab Mailbox
  stateMb : Option Nat
  mbQueue : List (Nat × MbCmd)
  dunes   : Tab Stack
  tier    : Tier
  kv      : Kv
  lowp    : Lowp
  wakes   : Tab Wake
  ports   : Tab Port
  rigger  : Tab Nat
  colls   : Colls
  peers   : List PeerReq
  sched   : Sched
  host    : HostPort
  islands : Tab Nat
  flashGone : Bool
  pwr     : Pwr
  cairn   : Cairn
deriving DecidableEq, Repr

/-! Records at their values after a start (Table START.3; a field without a stated value as log entry 2 says). -/

/-- No event counted. -/
def Counts.empty : Counts := ⟨0, 0, 0, 0, 0⟩

/-- Nothing to add at commit. -/
def Tally.empty : Tally := ⟨0, 0, 0, 0, 0, 0, 0, 0, 0, 0, 0, 0⟩

/-- A descriptor slot that no task occupies. -/
def Task.none : Task :=
  { ring := Option.none, seq := 0, words := [], blocks := [], state := .done, status := .ok, home := 0, placed := false,
    runs := 0, lastCrew := Option.none, scull := Option.none, part := 0, lc := false, lcLines := 0, lines := 0,
    todo := [], flying := [], image := [], held := [], computed := false, exc := 0, sticky := 0, counts := .empty,
    tally := .empty, lo := Option.none, grants := [], seed := Option.none, avoid := Option.none, parkedAt := 0, fills := [],
    nextFill := 0, worked := 0, opened := 0, counted := [], nk := 0, startedAt := 0,
    busyUs := 0, overrun := false, pins := [],
    claims := [], frames := [], pages := [], recompute := Option.none, chunksOut := false, ctx := false,
    bowHeld := false, shadow := [], cacheFmt := 0, susp := 0 }

/-- A scull after a start that found it good. -/
def Scull.init : Scull := ⟨.good, 0, none, false, false, [], [], none, [], [], []⟩

/-- A crew after a start. -/
def Crew.init : Crew := ⟨.good, 0, [], [], [], false, [], [], none, false, []⟩

/-- An erg after a start: commit lines free, Bow good, the core voltage nominal (750 mV, Table BEAT.2). -/
def Erg.init : Erg := ⟨0, 0, .good, 0, none, false, [], 750, false, false, 0⟩

/-- A lane ring after a start (R415). -/
def Ring.init : Ring := ⟨.disabled, 0, 0, 0, 0, 0, [], [], [], none, [], none, false⟩

/-- A mailbox after a start begins (Table COX.2). -/
def Mailbox.init : Mailbox := ⟨.offline, 0, [], [], 0, 0, false, false⟩

/-- A guarded pair with its committed value at 0 and nothing pending. -/
def Guard.init : Guard := ⟨0, none⟩

/-- A Dune stack after a start found it whole. -/
def Stack.init : Stack :=
  { state := .online, band := 0, bandMax := 0, temp := 0, band5At := none, wcb := [], remap := [],
    burnt := [], tracker := [], ueTimes := [], chFailed := [], phyFailed := [], parity := [], spares := [], logged := [], scrub := 0 }

/-- An index that no tensor is registered at. -/
def Tensor.none : Tensor :=
  ⟨.unregistered, false, 0, 0, 0, 0, 0, 0, 0, 0, false, [], [], 0, [], []⟩

/-- The tier engine after a start. -/
def Tier.init : Tier := ⟨[], none, .ok, 0, []⟩

/-- A page list that no task has claimed. -/
def Claim.none : Claim := ⟨[], [], Option.none, 0, 0, []⟩

/-- The key-value cache engine after a start. -/
def Kv.init : Kv := ⟨[], [], [], []⟩

/-- A layer tag that no evaluation watches. -/
def Tag.none : Tag := ⟨false, 0, 0, 0, 0, 0, 0, 0, 0, false, 0, 0, false, false, false, .empty⟩

/-- The low-precision engine after a start. -/
def Lowp.init : Lowp := ⟨[], [], [], [], false⟩

/-- A Wake engine after a start. -/
def Wake.init : Wake := ⟨.good, 0, false, [], [], [], [], [], [], 0⟩

/-- A Sweep port after a start: DISABLED (R452). -/
def Port.init : Port :=
  { state := .disabled, since := 0, guardDis := false, x4 := false, upper := false, peer := 0, qcause := 0,
    transcript := [], certs := [], nonceUsed := 0, secret := [], digest := [], kid := 0, txKey := [], rxKey := [],
    newRx := [], txCtr := 0, rxCtr := 0, finSent := false, rekeyAt := none,
    ekSent := false, tagFails := 0, rxSeq := 0, txSeq := 0, txAck := 0, replays := 0, firstSeq := [], inFrame := [], lost := false,
    credits := [], granted := [], waiting := [], txBytes := 0, rxBytes := 0, creditAt := [], statAt := 0,
    underway := [], unacked := [], rxBuf := [] }

/-- A group of which no epoch runs. -/
def Coll.none : Coll :=
  { group := 0, task := 0, epoch := 0, op := 0, red := 0, fmt := 0, count := 0, timeout := 0, root := false, parent := 0,
    children := [], rank := 0, members := 0, die := 0, claim := 0, phase := 0, armedAt := 0, guardAt := Option.none,
    opened := false, arrivals := [], sums := [], exc := 0, result := [], written := [], acks := [], sentAck := false,
    note := Option.none, poison := false, after_ := false }

/-- The scheduler after a start. -/
def Sched.init : Sched := ⟨0, 0, 0, [], 0, false, .ok⟩

/-- The Cairn engine after a start (R500). -/
def Cairn.init : Cairn :=
  { registered := false, parts := 0, entries := [], target0 := 0, target1 := 0, phase := .idle, grantedAt := 0,
    copyEtc := 0, drained := false, bytes := 0, lossWait := false, lossDone := false, loss := 0, lossDa := 0, ctr := 0,
    ctrVal := 0, takeId := 0, takeTarget := 0, newestV := false, newestT := 0, newestId := 0, restoring := none,
    restoreMb := 0, replay := 0, replayCtr := 0, replayVal := 0, replayDa := 0, tolerance := 0, recorded := 0, replayed := 0, status := .ok, window := 0 }

/-- An empty event log (R495: `last` is set when the log opens). -/
def Log.init : Log := ⟨[], [], 0, [], 0, 0, [], none, 0, 0, 0⟩

/-- The cold start that power began: step 1 in progress (R448, R450). -/
def Start.init : Start :=
  { step := 1, at_ := 0, keyAt := 0, kind := 0, cause := 0, fallback := 0, delayed := none, retryAt := false,
    fromState := 0xFF, held := true, changed := false, lastGood := false, rom := true, logOpen := false }

/-- The root key that the model's fuses hold the hash of (log entry 3). -/
def rootKey0 : List Byte := List.replicate 68 0

/-- A boot image whose fields pass every check of R469 but the two signatures, which only `Config.xmssVerify` decides (log
entry 3): format 1, 0x1800 bytes, a certificate of kind 1 under the root. -/
def bootImage0 : List Byte :=
  leBytes 4 1 ++ leBytes 4 0x1800 ++ List.replicate 0x60 0 ++ (leBytes 4 1 ++ leBytes 4 1 ++ List.replicate 0x5C 0 ++
    shake256 rootKey0 32 ++ List.replicate 2820 0) ++ List.replicate (0x1800 - 0x0BF0) 0

/-- Fuses and non-volatile store of a module at its first start (log entry 3): a YD1-F in FIELD, boot epoch 1. -/
def Nv.init : Nv :=
  { variant := .yd1f, serial := List.replicate 16 0, epoch := 1, failed := 0, failStep := 0, lifecycle := 2, lcUsed := 2,
    roots := [shake256 rootKey0 32, [], [], []], revoked := [], minSvn := 0, floors := 0, idIndex := 0, idCert := [],
    flashKey := true, bootImage := bootImage0, staged := [], runImage := [],
    fused := [], spareSculls := [], goodCount := [], testFails := [], repairs := [], chRepairs := [],
    chReplaced := [], reserved := 0, badPages := [], taps := [] }

/-- Security of a boot whose attestation key is not made yet (R475). -/
def Sec.init : Sec := ⟨false, 0, [], false, 0, 0⟩

/-- The host port before its link has trained; every vector masked (log entry 8). -/
def HostPort.init : HostPort := ⟨0, 0, false, false, false, [], [], false⟩

/-- Power and cooling before the first sample (log entry 2); the cap is 20,000 W (R515). -/
def Pwr.init : Pwr := ⟨20000, 0, none, none, 0, 0, false, [], 0, 0, 0, none, none, []⟩

/-- The machine right after reset: power is on, a cold start is in its first step, nothing is queued (log entry 1). -/
def State.reset : State :=
  { pending := [], fresh := 0, tx := [], power := .on, pwrGood := true, etc := 0, timer := true, dev := .starting,
    fault := 0, start := .init, nv := .init, sec := .init, log := .init, crash := none, regs := [],
    staged5 := none, staged3 := none, seeded := [], holding := [], guards := [],
    mem := [], poison := [], sculls := [], crews := [], ergs := [], ctrs := [], tasks := [], rings := [], lastRing := 0,
    mbs := [], stateMb := none, mbQueue := [], dunes := [], tier := .init, kv := .init, lowp := .init, wakes := [],
    ports := [], rigger := [], colls := ⟨[], [], []⟩, peers := [], sched := .init, host := .init, islands := [],
    flashGone := false, pwr := .init, cairn := .init }

/-- No command of the block faults: every failure the spec describes is a status, a record, a register or a flag in the
state. The one constructor is kept so that the type is not empty. -/
inductive Fault where
  /-- Raised by no command: the spec describes no stop of the block. Safe, since nothing answers it. -/
  | unreachable
deriving DecidableEq, Repr

/-- Why a command has no meaning. -/
inductive Refusal where
  /-- Raised by an arm of exec whose command has no meaning yet; the machine stops there. Safe. -/
  | notModelled (mnemonic : String)
deriving DecidableEq, Repr

end Sys2Proof.Machine
end

