-- ==== Sys2Proof/Machine/RegMap.lean ====
section
/-! DEFINITION. The register map: one row per register of the spec's register tables (BEAT.5 to PWR.6), in BAR0 offsets
(R432). A row: name, offset of the first, two repeat counts with their strides, whether it takes writes only in READY
(R134 and the rules that cite it), and its named fields: low bit, width, access code, reset value, counter or not.
Bits outside every field are reserved (R9). A reset value the spec gives as "—" is 0 here (log entry 2). -/

namespace Sys2Proof.Machine

/-- Access codes (Table SCOPE.3). -/
inductive Acc where
  | rw | ro | w1c | rs | wg
deriving DecidableEq, Repr

/-- A named field of a register. -/
structure RegField where
  lo      : Nat
  width   : Nat
  acc     : Acc
  reset   : Nat
  counter : Bool
deriving DecidableEq, Repr

/-- A register, or a family of them: `base + i * s1 + j * s2` for `i < n1`, `j < n2`. -/
structure RegDef where
  name  : String
  base  : Nat
  n1    : Nat
  s1    : Nat
  n2    : Nat
  s2    : Nat
  ready : Bool
  fields : List RegField
deriving DecidableEq, Repr

/-- Registers of the BEAT tables. -/
def regsBeat : List RegDef := [
  ⟨"GLOBAL_ETC_LO", 0x200, 1, 0x0, 1, 0x0, false,
    [⟨0, 32, .ro, 0, true⟩]⟩,
  ⟨"GLOBAL_ETC_HI", 0x204, 1, 0x0, 1, 0x0, false,
    [⟨0, 32, .ro, 0, true⟩]⟩,
  ⟨"GLOBAL_BOOT_EPOCH", 0x208, 1, 0x0, 1, 0x0, false,
    [⟨0, 32, .ro, 0, false⟩]⟩,
  ⟨"GLOBAL_ISLAND_LOCK0", 0x210, 1, 0x0, 1, 0x0, false,
    [⟨0, 32, .ro, 0, false⟩]⟩,
  ⟨"GLOBAL_ISLAND_LOCK1", 0x214, 1, 0x0, 1, 0x0, false,
    [⟨0, 8, .ro, 0, false⟩]⟩,
  ⟨"ERG_BEAT_LO", 0x1000100, 16, 0x100000, 1, 0x0, false,
    [⟨0, 32, .ro, 0, true⟩]⟩,
  ⟨"ERG_BEAT_HI", 0x1000104, 16, 0x100000, 1, 0x0, false,
    [⟨0, 32, .ro, 0, true⟩]⟩,
  ⟨"ERG_BEAT_RATE", 0x1000108, 16, 0x100000, 1, 0x0, false,
    [⟨0, 16, .ro, 0, false⟩, ⟨16, 10, .ro, 0, false⟩]⟩,
  ⟨"ERG_DL_STAT", 0x100010c, 16, 0x100000, 1, 0x0, false,
    [⟨0, 16, .ro, 0, false⟩, ⟨16, 8, .ro, 0, true⟩]⟩]

/-- Registers of the NUM tables. -/
def regsNum : List RegDef := [
  ⟨"GLOBAL_SR_SEED_LO", 0x300, 1, 0x0, 1, 0x0, false,
    [⟨0, 32, .rs, 0, false⟩]⟩,
  ⟨"GLOBAL_SR_SEED_HI", 0x304, 1, 0x0, 1, 0x0, false,
    [⟨0, 32, .rs, 0, false⟩]⟩,
  ⟨"GLOBAL_FP_EXC", 0x308, 1, 0x0, 1, 0x0, false,
    [⟨0, 1, .w1c, 0, false⟩, ⟨1, 1, .w1c, 0, false⟩, ⟨2, 1, .w1c, 0, false⟩, ⟨3, 1, .w1c, 0, false⟩, ⟨4, 1, .w1c, 0, false⟩]⟩,
  ⟨"GLOBAL_NUM_STICKY", 0x30c, 1, 0x0, 1, 0x0, false,
    [⟨0, 4, .w1c, 0, false⟩]⟩]

/-- Registers of the SCULL tables. -/
def regsScull : List RegDef := [
  ⟨"SCULL_STAT", 0x1080000, 16, 0x100000, 768, 0x100, false,
    [⟨0, 2, .ro, 0, false⟩, ⟨2, 1, .ro, 0, false⟩, ⟨3, 1, .ro, 0, false⟩, ⟨4, 4, .ro, 0, false⟩, ⟨8, 3, .ro, 0, false⟩, ⟨16, 8, .ro, 0, false⟩]⟩,
  ⟨"SCULL_TASK", 0x1080004, 16, 0x100000, 768, 0x100, false,
    [⟨0, 24, .ro, 0, false⟩, ⟨24, 1, .ro, 0, false⟩]⟩,
  ⟨"SCULL_BUSY_LO", 0x1080008, 16, 0x100000, 768, 0x100, false,
    [⟨0, 32, .ro, 0, true⟩]⟩,
  ⟨"SCULL_BUSY_HI", 0x108000c, 16, 0x100000, 768, 0x100, false,
    [⟨0, 32, .ro, 0, true⟩]⟩,
  ⟨"SCULL_SPILL", 0x1080010, 16, 0x100000, 768, 0x100, false,
    [⟨0, 32, .ro, 0, true⟩]⟩,
  ⟨"SCULL_RES_ERR", 0x1080014, 16, 0x100000, 768, 0x100, false,
    [⟨0, 16, .ro, 0, true⟩, ⟨16, 16, .ro, 0, true⟩]⟩,
  ⟨"SCULL_STORE_ECC", 0x1080018, 16, 0x100000, 768, 0x100, false,
    [⟨0, 16, .ro, 0, true⟩, ⟨16, 8, .ro, 0, true⟩]⟩,
  ⟨"SCULL_ACC_ECC", 0x108001c, 16, 0x100000, 768, 0x100, false,
    [⟨0, 16, .ro, 0, true⟩, ⟨16, 8, .ro, 0, true⟩]⟩,
  ⟨"SCULL_FAULT_ADDR", 0x1080020, 16, 0x100000, 768, 0x100, false,
    [⟨0, 19, .ro, 0, false⟩, ⟨19, 1, .w1c, 0, false⟩]⟩,
  ⟨"SCULL_DMA_STAT", 0x1080024, 16, 0x100000, 768, 0x100, false,
    [⟨0, 32, .ro, 0, true⟩]⟩,
  ⟨"ERG_SCULL_CFG", 0x1000120, 16, 0x100000, 1, 0x0, false,
    [⟨0, 8, .rw, 3, false⟩, ⟨8, 8, .rw, 2, false⟩]⟩,
  ⟨"ERG_SCULL_WIN", 0x1000124, 16, 0x100000, 1, 0x0, false,
    [⟨0, 32, .rw, 0xd693a400, false⟩]⟩]

/-- Registers of the TASK tables. -/
def regsTask : List RegDef := [
  ⟨"ERG_STEAL_CFG", 0x1000140, 16, 0x100000, 1, 0x0, false,
    [⟨0, 4, .rw, 2, false⟩, ⟨4, 4, .rw, 4, false⟩, ⟨8, 16, .rw, 2, false⟩]⟩,
  ⟨"ERG_PORT_SPLIT", 0x1000144, 16, 0x100000, 1, 0x0, true,
    [⟨0, 4, .rw, 5, false⟩, ⟨4, 4, .rw, 3, false⟩, ⟨8, 4, .rw, 2, false⟩]⟩,
  ⟨"ERG_COMMIT_STAT", 0x1000148, 16, 0x100000, 1, 0x0, false,
    [⟨0, 16, .ro, 0x8000, false⟩]⟩,
  ⟨"ERG_COMMIT_WAIT", 0x100014c, 16, 0x100000, 1, 0x0, false,
    [⟨0, 32, .ro, 0, true⟩]⟩,
  ⟨"ERG_CTR_i", 0x1060000, 16, 0x100000, 4096, 0x4, false,
    [⟨0, 32, .ro, 0, false⟩]⟩,
  ⟨"CREW_STAT", 0x1040000, 16, 0x100000, 48, 0x100, false,
    [⟨0, 2, .ro, 0, false⟩, ⟨8, 5, .ro, 0, false⟩, ⟨16, 8, .ro, 0, false⟩]⟩,
  ⟨"CREW_QSTAT", 0x1040004, 16, 0x100000, 48, 0x100, false,
    [⟨0, 9, .ro, 0, false⟩, ⟨9, 9, .ro, 0, false⟩, ⟨18, 7, .ro, 0, false⟩]⟩,
  ⟨"CREW_STEAL", 0x1040008, 16, 0x100000, 48, 0x100, false,
    [⟨0, 16, .ro, 0, true⟩, ⟨16, 16, .ro, 0, true⟩]⟩,
  ⟨"CREW_PARKS", 0x104000c, 16, 0x100000, 48, 0x100, false,
    [⟨0, 32, .ro, 0, true⟩]⟩,
  ⟨"CREW_RERUN", 0x1040010, 16, 0x100000, 48, 0x100, false,
    [⟨0, 16, .ro, 0, true⟩, ⟨16, 16, .ro, 0, true⟩]⟩]

/-- Registers of the VEC tables. -/
def regsVec : List RegDef := [
  ⟨"VEC_ISSUE_LO", 0x1080040, 16, 0x100000, 768, 0x100, false,
    [⟨0, 32, .ro, 0, true⟩]⟩,
  ⟨"VEC_ISSUE_HI", 0x1080044, 16, 0x100000, 768, 0x100, false,
    [⟨0, 32, .ro, 0, true⟩]⟩,
  ⟨"VEC_PERM", 0x1080048, 16, 0x100000, 768, 0x100, false,
    [⟨0, 16, .ro, 0, true⟩, ⟨16, 16, .ro, 0, true⟩]⟩,
  ⟨"VEC_TRAP", 0x108004c, 16, 0x100000, 768, 0x100, false,
    [⟨0, 24, .ro, 0, false⟩, ⟨24, 1, .w1c, 0, false⟩]⟩,
  ⟨"VEC_TRAP_POS", 0x1080050, 16, 0x100000, 768, 0x100, false,
    [⟨0, 25, .ro, 0, false⟩, ⟨25, 7, .ro, 0, false⟩]⟩]

/-- Registers of the SEIF tables. -/
def regsSeif : List RegDef := [
  ⟨"SEIF_CTRL", 0x1040040, 16, 0x100000, 48, 0x100, false,
    [⟨0, 1, .rw, 1, false⟩]⟩,
  ⟨"SEIF_STAT", 0x1040044, 16, 0x100000, 48, 0x100, false,
    [⟨0, 2, .ro, 0, false⟩, ⟨2, 1, .ro, 0, false⟩, ⟨3, 1, .ro, 0, false⟩, ⟨4, 1, .ro, 0, false⟩]⟩,
  ⟨"SEIF_BLK_READ", 0x1040048, 16, 0x100000, 48, 0x100, false,
    [⟨0, 32, .ro, 0, true⟩]⟩,
  ⟨"SEIF_BLK_SKIP", 0x104004c, 16, 0x100000, 48, 0x100, false,
    [⟨0, 32, .ro, 0, true⟩]⟩,
  ⟨"SEIF_EXP_LO", 0x1040050, 16, 0x100000, 48, 0x100, false,
    [⟨0, 32, .ro, 0, true⟩]⟩,
  ⟨"SEIF_EXP_HI", 0x1040054, 16, 0x100000, 48, 0x100, false,
    [⟨0, 32, .ro, 0, true⟩]⟩,
  ⟨"SEIF_ROWS", 0x1040058, 16, 0x100000, 48, 0x100, false,
    [⟨0, 16, .ro, 0, true⟩, ⟨16, 16, .ro, 0, true⟩]⟩,
  ⟨"SEIF_SUSP", 0x104005c, 16, 0x100000, 48, 0x100, false,
    [⟨0, 16, .ro, 0, true⟩, ⟨16, 16, .ro, 0, true⟩]⟩]

/-- Registers of the KV tables. -/
def regsKv : List RegDef := [
  ⟨"KV_RING_BASE_LO", 0x2010000, 2, 0x20, 1, 0x0, true,
    [⟨0, 32, .rw, 0, false⟩]⟩,
  ⟨"KV_RING_BASE_HI", 0x2010004, 2, 0x20, 1, 0x0, true,
    [⟨0, 24, .rw, 0, false⟩]⟩,
  ⟨"KV_RING_CFG", 0x2010008, 2, 0x20, 1, 0x0, true,
    [⟨0, 5, .rw, 0xa, false⟩, ⟨5, 1, .rw, 0, false⟩]⟩,
  ⟨"KV_RING_HEAD", 0x201000c, 2, 0x20, 1, 0x0, false,
    [⟨0, 32, .ro, 0, false⟩]⟩,
  ⟨"KV_RING_TAIL", 0x2010010, 2, 0x20, 1, 0x0, false,
    [⟨0, 32, .rw, 0, false⟩]⟩,
  ⟨"KV_RING_LOW", 0x2010014, 2, 0x20, 1, 0x0, false,
    [⟨0, 26, .rw, 0, false⟩]⟩,
  ⟨"KV_RING_STAT", 0x2010018, 2, 0x20, 1, 0x0, false,
    [⟨0, 16, .ro, 0, true⟩, ⟨16, 16, .ro, 0, true⟩]⟩,
  ⟨"KV_MOVER_CFG", 0x2010040, 1, 0x0, 1, 0x0, false,
    [⟨0, 8, .rw, 0, false⟩, ⟨8, 1, .rw, 0, false⟩]⟩,
  ⟨"KV_MOVER_STAT", 0x2010044, 1, 0x0, 1, 0x0, false,
    [⟨0, 5, .ro, 0, false⟩, ⟨5, 1, .ro, 0, false⟩, ⟨16, 16, .ro, 0, true⟩]⟩,
  ⟨"KV_SWAPIN_CNT", 0x2010048, 1, 0x0, 1, 0x0, false,
    [⟨0, 32, .ro, 0, true⟩]⟩,
  ⟨"KV_CLAIM_STAT", 0x201004c, 1, 0x0, 1, 0x0, false,
    [⟨0, 13, .ro, 0, false⟩, ⟨16, 16, .ro, 0, true⟩]⟩,
  ⟨"KV_POOL_FIRST_s", 0x2010100, 48, 0x10, 1, 0x0, true,
    [⟨0, 20, .rw, 0, false⟩]⟩,
  ⟨"KV_POOL_COUNT_s", 0x2010104, 48, 0x10, 1, 0x0, true,
    [⟨0, 21, .rw, 0, false⟩]⟩,
  ⟨"KV_POOL_SCALE_LO_s", 0x2010108, 48, 0x10, 1, 0x0, true,
    [⟨0, 32, .rw, 0, false⟩]⟩,
  ⟨"KV_POOL_SCALE_HI_s", 0x201010c, 48, 0x10, 1, 0x0, true,
    [⟨0, 24, .rw, 0, false⟩]⟩]

/-- Registers of the CONV tables. -/
def regsConv : List RegDef := [
  ⟨"ERG_BOW_STAT", 0x1000180, 16, 0x100000, 1, 0x0, false,
    [⟨0, 2, .ro, 0, false⟩, ⟨2, 1, .ro, 0, false⟩, ⟨3, 1, .ro, 0, false⟩, ⟨8, 8, .ro, 0, false⟩]⟩,
  ⟨"ERG_BOW_TASK", 0x1000184, 16, 0x100000, 1, 0x0, false,
    [⟨0, 24, .ro, 0, false⟩, ⟨24, 1, .ro, 0, false⟩]⟩,
  ⟨"ERG_BOW_BUSY_LO", 0x1000188, 16, 0x100000, 1, 0x0, false,
    [⟨0, 32, .ro, 0, true⟩]⟩,
  ⟨"ERG_BOW_BUSY_HI", 0x100018c, 16, 0x100000, 1, 0x0, false,
    [⟨0, 32, .ro, 0, true⟩]⟩,
  ⟨"ERG_BOW_ERR", 0x1000190, 16, 0x100000, 1, 0x0, false,
    [⟨0, 16, .ro, 0, true⟩, ⟨16, 16, .ro, 0, true⟩]⟩,
  ⟨"ERG_FRC_ENC", 0x1000194, 16, 0x100000, 1, 0x0, false,
    [⟨0, 32, .ro, 0, true⟩]⟩,
  ⟨"ERG_FRC_NAN", 0x1000198, 16, 0x100000, 1, 0x0, false,
    [⟨0, 16, .ro, 0, true⟩]⟩,
  ⟨"ERG_BOW_PARK", 0x100019c, 16, 0x100000, 1, 0x0, false,
    [⟨0, 32, .ro, 0, true⟩]⟩]

/-- Registers of the LOWP tables. -/
def regsLowp : List RegDef := [
  ⟨"LOWP_POOL_BASE_LO", 0x2020000, 1, 0x0, 1, 0x0, true,
    [⟨0, 32, .rw, 0, false⟩]⟩,
  ⟨"LOWP_POOL_BASE_HI", 0x2020004, 1, 0x0, 1, 0x0, true,
    [⟨0, 24, .rw, 0, false⟩]⟩,
  ⟨"LOWP_POOL_LEN", 0x2020008, 1, 0x0, 1, 0x0, true,
    [⟨0, 21, .rw, 0, false⟩]⟩,
  ⟨"LOWP_TAB_BASE_LO", 0x202000c, 1, 0x0, 1, 0x0, true,
    [⟨0, 32, .rw, 0, false⟩]⟩,
  ⟨"LOWP_TAB_BASE_HI", 0x2020010, 1, 0x0, 1, 0x0, true,
    [⟨0, 24, .rw, 0, false⟩]⟩,
  ⟨"LOWP_DUMP_BASE_LO", 0x2020014, 1, 0x0, 1, 0x0, false,
    [⟨0, 32, .rw, 0, false⟩]⟩,
  ⟨"LOWP_DUMP_BASE_HI", 0x2020018, 1, 0x0, 1, 0x0, false,
    [⟨0, 24, .rw, 0, false⟩]⟩,
  ⟨"LOWP_CFG", 0x202001c, 1, 0x0, 1, 0x0, false,
    [⟨0, 8, .rw, 0, false⟩, ⟨8, 1, .rw, 0, false⟩, ⟨9, 1, .rw, 0, false⟩]⟩,
  ⟨"LOWP_EVAL", 0x2020020, 1, 0x0, 1, 0x0, false,
    [⟨0, 1, .rw, 0, false⟩]⟩,
  ⟨"LOWP_STAT", 0x2020024, 1, 0x0, 1, 0x0, false,
    [⟨0, 21, .ro, 0, false⟩]⟩,
  ⟨"LOWP_EVAL_STAT", 0x2020028, 1, 0x0, 1, 0x0, false,
    [⟨0, 13, .ro, 0, false⟩, ⟨13, 13, .ro, 0, false⟩]⟩,
  ⟨"LOWP_EVAL_LOW", 0x202002c, 1, 0x0, 1, 0x0, false,
    [⟨0, 13, .ro, 0, false⟩, ⟨16, 16, .ro, 0, true⟩]⟩,
  ⟨"LOWP_TAG_SEL", 0x2020030, 1, 0x0, 1, 0x0, false,
    [⟨0, 12, .rw, 0, false⟩, ⟨12, 10, .rw, 0x3ff, false⟩]⟩,
  ⟨"LOWP_TAG_DATAi", 0x2020034, 8, 0x4, 1, 0x0, false,
    [⟨0, 32, .ro, 0, false⟩]⟩]

/-- Registers of the DUNE tables. -/
def regsDune : List RegDef := [
  ⟨"DUNE_STAT", 0x3000000, 48, 0x10000, 1, 0x0, false,
    [⟨0, 2, .ro, 0, false⟩, ⟨2, 3, .ro, 0, false⟩, ⟨5, 3, .ro, 0, false⟩, ⟨8, 3, .ro, 0, false⟩, ⟨16, 11, .ro, 0, false⟩]⟩,
  ⟨"DUNE_THERM", 0x3000004, 48, 0x10000, 1, 0x0, false,
    [⟨0, 8, .ro, 0, false⟩, ⟨16, 16, .ro, 0, true⟩]⟩,
  ⟨"DUNE_IRQ_CFG", 0x3000008, 48, 0x10000, 1, 0x0, false,
    [⟨0, 8, .rw, 0, false⟩, ⟨8, 1, .rw, 0, false⟩, ⟨9, 3, .rw, 3, false⟩, ⟨12, 1, .rw, 0, false⟩]⟩,
  ⟨"DUNE_REMAP_CFG", 0x300000c, 48, 0x10000, 1, 0x0, false,
    [⟨0, 4, .rw, 2, false⟩, ⟨4, 1, .rw, 1, false⟩]⟩,
  ⟨"DUNE_REMAP_WIN_LO", 0x3000010, 48, 0x10000, 1, 0x0, false,
    [⟨0, 32, .rw, 0x1dd76000, false⟩]⟩,
  ⟨"DUNE_REMAP_WIN_HI", 0x3000014, 48, 0x10000, 1, 0x0, false,
    [⟨0, 32, .rw, 0x14, false⟩]⟩,
  ⟨"DUNE_ERR_CFG", 0x3000018, 48, 0x10000, 1, 0x0, false,
    [⟨0, 8, .rw, 8, false⟩]⟩,
  ⟨"DUNE_ECC_CE", 0x300001c, 48, 0x10000, 1, 0x0, false,
    [⟨0, 32, .ro, 0, true⟩]⟩,
  ⟨"DUNE_ECC_UE", 0x3000020, 48, 0x10000, 1, 0x0, false,
    [⟨0, 16, .ro, 0, true⟩, ⟨16, 16, .ro, 0, true⟩]⟩,
  ⟨"DUNE_FAULT_LO", 0x3000024, 48, 0x10000, 1, 0x0, false,
    [⟨0, 32, .ro, 0, false⟩]⟩,
  ⟨"DUNE_FAULT_HI", 0x3000028, 48, 0x10000, 1, 0x0, false,
    [⟨0, 4, .ro, 0, false⟩, ⟨4, 7, .ro, 0, false⟩, ⟨31, 1, .w1c, 0, false⟩]⟩,
  ⟨"DUNE_REMAP_STAT", 0x300002c, 48, 0x10000, 1, 0x0, false,
    [⟨0, 16, .ro, 0, true⟩, ⟨16, 8, .ro, 0, true⟩, ⟨24, 8, .ro, 0, true⟩]⟩,
  ⟨"DUNE_CH_FAILi", 0x3000030, 48, 0x10000, 4, 0x4, false,
    [⟨0, 32, .ro, 0, false⟩]⟩,
  ⟨"DUNE_CH_FAIL4", 0x3000040, 48, 0x10000, 1, 0x0, false,
    [⟨0, 4, .ro, 0, false⟩]⟩,
  ⟨"DUNE_SPARE_k", 0x3000044, 48, 0x10000, 4, 0x4, false,
    [⟨0, 8, .ro, 0, false⟩, ⟨8, 7, .ro, 0, false⟩, ⟨15, 1, .ro, 0, false⟩]⟩,
  ⟨"DUNE_CH_DROP", 0x3000054, 48, 0x10000, 1, 0x0, false,
    [⟨0, 32, .ro, 0, true⟩]⟩,
  ⟨"DUNE_WCB_STAT", 0x3000058, 48, 0x10000, 1, 0x0, false,
    [⟨0, 10, .ro, 0, false⟩]⟩,
  ⟨"DUNE_WCB_CTRL", 0x300005c, 48, 0x10000, 1, 0x0, false,
    [⟨0, 1, .rw, 0, false⟩]⟩,
  ⟨"DUNE_WCB_WAIT", 0x3000060, 48, 0x10000, 1, 0x0, false,
    [⟨0, 32, .ro, 0, true⟩]⟩,
  ⟨"DUNE_RD_LO", 0x3000064, 48, 0x10000, 1, 0x0, false,
    [⟨0, 32, .ro, 0, true⟩]⟩,
  ⟨"DUNE_RD_HI", 0x3000068, 48, 0x10000, 1, 0x0, false,
    [⟨0, 32, .ro, 0, true⟩]⟩,
  ⟨"DUNE_WR_LO", 0x300006c, 48, 0x10000, 1, 0x0, false,
    [⟨0, 32, .ro, 0, true⟩]⟩,
  ⟨"DUNE_WR_HI", 0x3000070, 48, 0x10000, 1, 0x0, false,
    [⟨0, 32, .ro, 0, true⟩]⟩,
  ⟨"DUNE_NARROW", 0x3000074, 48, 0x10000, 1, 0x0, false,
    [⟨0, 32, .ro, 0, true⟩]⟩]

/-- Registers of the TIER tables. -/
def regsTier0 : List RegDef := [
  ⟨"TIER_REG_BASE_LO", 0x2030000, 1, 0x0, 1, 0x0, true,
    [⟨0, 32, .rw, 0, false⟩]⟩,
  ⟨"TIER_REG_BASE_HI", 0x2030004, 1, 0x0, 1, 0x0, true,
    [⟨0, 24, .rw, 0, false⟩]⟩,
  ⟨"TIER_REG_COUNT", 0x2030008, 1, 0x0, 1, 0x0, true,
    [⟨0, 21, .rw, 0, false⟩]⟩,
  ⟨"TIER_PT_BASE_LO", 0x203000c, 1, 0x0, 1, 0x0, true,
    [⟨0, 32, .rw, 0, false⟩]⟩,
  ⟨"TIER_PT_BASE_HI", 0x2030010, 1, 0x0, 1, 0x0, true,
    [⟨0, 24, .rw, 0, false⟩]⟩,
  ⟨"TIER_NAME0_BASE_LO", 0x2030014, 1, 0x0, 1, 0x0, true,
    [⟨0, 32, .rw, 0, false⟩]⟩,
  ⟨"TIER_NAME0_BASE_HI", 0x2030018, 1, 0x0, 1, 0x0, true,
    [⟨0, 24, .rw, 0, false⟩]⟩,
  ⟨"TIER_NAME0_PAGES", 0x203001c, 1, 0x0, 1, 0x0, true,
    [⟨0, 24, .rw, 0, false⟩]⟩,
  ⟨"TIER_NAME1_BASE_LO", 0x2030020, 1, 0x0, 1, 0x0, true,
    [⟨0, 32, .rw, 0, false⟩]⟩,
  ⟨"TIER_NAME1_BASE_HI", 0x2030024, 1, 0x0, 1, 0x0, true,
    [⟨0, 24, .rw, 0, false⟩]⟩,
  ⟨"TIER_NAME1_PAGES", 0x2030028, 1, 0x0, 1, 0x0, true,
    [⟨0, 24, .rw, 0, false⟩]⟩,
  ⟨"TIER_THR", 0x203002c, 1, 0x0, 1, 0x0, false,
    [⟨0, 16, .rw, 0x40, false⟩, ⟨16, 16, .rw, 8, false⟩]⟩,
  ⟨"TIER_DECAY", 0x2030030, 1, 0x0, 1, 0x0, false,
    [⟨0, 32, .rw, 0xf4240, false⟩]⟩,
  ⟨"TIER_LOW", 0x2030034, 1, 0x0, 1, 0x0, false,
    [⟨0, 21, .rw, 0, false⟩]⟩,
  ⟨"TIER_DL_c", 0x2030040, 8, 0x4, 1, 0x0, false,
    [⟨0, 32, .rw, 0, false⟩]⟩,
  ⟨"TIER_CMD", 0x2030060, 1, 0x0, 1, 0x0, false,
    [⟨0, 4, .rw, 0, false⟩, ⟨4, 20, .rw, 0, false⟩]⟩,
  ⟨"TIER_CMD_SRC_LO", 0x2030064, 1, 0x0, 1, 0x0, false,
    [⟨0, 32, .rw, 0, false⟩]⟩,
  ⟨"TIER_CMD_SRC_HI", 0x2030068, 1, 0x0, 1, 0x0, false,
    [⟨0, 24, .rw, 0, false⟩]⟩,
  ⟨"TIER_CMD_STAT", 0x203006c, 1, 0x0, 1, 0x0, false,
    [⟨0, 1, .ro, 0, false⟩, ⟨16, 16, .ro, 0, false⟩]⟩,
  ⟨"TIER_POOL_STAT", 0x2030070, 1, 0x0, 1, 0x0, false,
    [⟨0, 21, .ro, 0, false⟩]⟩,
  ⟨"TIER_PROMOTE", 0x2030074, 1, 0x0, 1, 0x0, false,
    [⟨0, 16, .ro, 0, true⟩, ⟨16, 16, .ro, 0, true⟩]⟩,
  ⟨"TIER_EVICT", 0x2030078, 1, 0x0, 1, 0x0, false,
    [⟨0, 16, .ro, 0, true⟩, ⟨16, 16, .ro, 0, true⟩]⟩,
  ⟨"TIER_MISS", 0x203007c, 1, 0x0, 1, 0x0, false,
    [⟨0, 16, .ro, 0, true⟩, ⟨16, 16, .ro, 0, true⟩]⟩,
  ⟨"TIER_STALL", 0x2030080, 1, 0x0, 1, 0x0, false,
    [⟨0, 32, .ro, 0, true⟩]⟩]

/-- Registers of the TIER tables. -/
def regsTier1 : List RegDef := [
  ⟨"TIER_POOL_s", 0x2030100, 48, 0x4, 1, 0x0, true,
    [⟨0, 15, .rw, 0, false⟩, ⟨15, 16, .rw, 0, false⟩]⟩]

/-- Registers of the WAKE tables. -/
def regsWake : List RegDef := [
  ⟨"WAKE_STAT", 0x3400000, 8, 0x20000, 1, 0x0, false,
    [⟨0, 2, .ro, 0, false⟩, ⟨2, 1, .ro, 0, false⟩, ⟨3, 1, .ro, 0, false⟩, ⟨4, 1, .ro, 0, false⟩, ⟨8, 8, .ro, 0, false⟩]⟩,
  ⟨"WAKE_POOL_BASE_LO", 0x3400004, 8, 0x20000, 1, 0x0, true,
    [⟨0, 32, .rw, 0, false⟩]⟩,
  ⟨"WAKE_POOL_BASE_HI", 0x3400008, 8, 0x20000, 1, 0x0, true,
    [⟨0, 24, .rw, 0, false⟩]⟩,
  ⟨"WAKE_POOL_CFG", 0x340000c, 8, 0x20000, 1, 0x0, true,
    [⟨0, 12, .rw, 0, false⟩]⟩,
  ⟨"WAKE_CFG", 0x3400010, 8, 0x20000, 1, 0x0, false,
    [⟨0, 8, .rw, 0, false⟩]⟩,
  ⟨"WAKE_FRAME_LIMIT", 0x3400014, 8, 0x20000, 1, 0x0, false,
    [⟨0, 32, .rw, 0xf4240, false⟩]⟩,
  ⟨"WAKE_MARKS", 0x3400018, 8, 0x20000, 1, 0x0, false,
    [⟨0, 32, .ro, 0, false⟩]⟩,
  ⟨"WAKE_RING_BASE_LO", 0x3400020, 8, 0x20000, 2, 0x20, false,
    [⟨0, 32, .rw, 0, false⟩]⟩,
  ⟨"WAKE_RING_BASE_HI", 0x3400024, 8, 0x20000, 2, 0x20, false,
    [⟨0, 24, .rw, 0, false⟩]⟩,
  ⟨"WAKE_RING_CFG", 0x3400028, 8, 0x20000, 2, 0x20, false,
    [⟨0, 5, .rw, 4, false⟩, ⟨5, 1, .rw, 0, false⟩]⟩,
  ⟨"WAKE_RING_HEAD", 0x340002c, 8, 0x20000, 2, 0x20, false,
    [⟨0, 32, .ro, 0, false⟩]⟩,
  ⟨"WAKE_RING_TAIL", 0x3400030, 8, 0x20000, 2, 0x20, false,
    [⟨0, 32, .rw, 0, false⟩]⟩,
  ⟨"WAKE_DEC_FRAMES", 0x3400060, 8, 0x20000, 1, 0x0, false,
    [⟨0, 32, .ro, 0, true⟩]⟩,
  ⟨"WAKE_ENC_FRAMES", 0x3400064, 8, 0x20000, 1, 0x0, false,
    [⟨0, 32, .ro, 0, true⟩]⟩,
  ⟨"WAKE_ERR", 0x3400068, 8, 0x20000, 1, 0x0, false,
    [⟨0, 16, .ro, 0, true⟩, ⟨16, 16, .ro, 0, true⟩]⟩,
  ⟨"WAKE_CLAMP", 0x340006c, 8, 0x20000, 1, 0x0, false,
    [⟨0, 32, .ro, 0, true⟩]⟩]

/-- Registers of the SWEEP tables. -/
def regsSweep : List RegDef := [
  ⟨"SWEEP_PORT_CTRL", 0x2040000, 4, 0x400000, 5, 0x100, false,
    [⟨0, 1, .rw, 0, false⟩, ⟨1, 1, .rw, 1, false⟩, ⟨2, 1, .rw, 0, false⟩, ⟨3, 1, .rw, 1, false⟩, ⟨4, 2, .rw, 0, false⟩, ⟨6, 13, .rw, 0, false⟩]⟩,
  ⟨"SWEEP_PORT_STAT", 0x2040004, 4, 0x400000, 5, 0x100, false,
    [⟨0, 3, .ro, 0, false⟩, ⟨3, 1, .ro, 0, false⟩, ⟨4, 1, .ro, 0, false⟩, ⟨8, 13, .ro, 0, false⟩, ⟨24, 4, .ro, 0, false⟩]⟩,
  ⟨"SWEEP_PORT_RETRY", 0x2040008, 4, 0x400000, 5, 0x100, false,
    [⟨0, 16, .ro, 0, true⟩, ⟨16, 16, .ro, 0, true⟩]⟩,
  ⟨"SWEEP_PORT_ERR", 0x204000c, 4, 0x400000, 5, 0x100, false,
    [⟨0, 16, .ro, 0, true⟩, ⟨16, 16, .ro, 0, true⟩]⟩,
  ⟨"SWEEP_PORT_TX", 0x2040010, 4, 0x400000, 5, 0x100, false,
    [⟨0, 32, .ro, 0, true⟩]⟩,
  ⟨"SWEEP_PORT_RX", 0x2040014, 4, 0x400000, 5, 0x100, false,
    [⟨0, 32, .ro, 0, true⟩]⟩,
  ⟨"RIGGER_STAT", 0x2050000, 4, 0x400000, 1, 0x0, false,
    [⟨0, 9, .ro, 0x100, false⟩, ⟨16, 7, .ro, 0, false⟩]⟩,
  ⟨"RIGGER_CLAIM", 0x2050004, 4, 0x400000, 1, 0x0, false,
    [⟨0, 16, .ro, 0, true⟩, ⟨16, 16, .ro, 0, true⟩]⟩,
  ⟨"RIGGER_ECC", 0x2050008, 4, 0x400000, 1, 0x0, false,
    [⟨0, 16, .ro, 0, true⟩, ⟨16, 16, .ro, 0, true⟩]⟩,
  ⟨"SWEEP_MODULE_ID", 0x2060000, 1, 0x0, 1, 0x0, true,
    [⟨0, 13, .rw, 0, false⟩]⟩,
  ⟨"SWEEP_VC_WEIGHT", 0x2060004, 1, 0x0, 1, 0x0, false,
    [⟨0, 8, .rs, 0xa, false⟩, ⟨8, 8, .rs, 0x32, false⟩, ⟨16, 8, .rs, 0x23, false⟩, ⟨24, 8, .rs, 5, false⟩]⟩,
  ⟨"SWEEP_CFG", 0x2060008, 1, 0x0, 1, 0x0, false,
    [⟨0, 16, .rw, 0x64, false⟩, ⟨16, 8, .rw, 4, false⟩]⟩,
  ⟨"SWEEP_PEER_TO", 0x206000c, 1, 0x0, 1, 0x0, false,
    [⟨0, 32, .rw, 0x3e8, false⟩]⟩,
  ⟨"SWEEP_COLL_GUARD", 0x2060010, 1, 0x0, 1, 0x0, false,
    [⟨0, 32, .rw, 0x3e8, false⟩]⟩,
  ⟨"SWEEP_GRP_BASE_LO", 0x2060014, 1, 0x0, 1, 0x0, true,
    [⟨0, 32, .rw, 0, false⟩]⟩,
  ⟨"SWEEP_GRP_BASE_HI", 0x2060018, 1, 0x0, 1, 0x0, true,
    [⟨0, 24, .rw, 0, false⟩]⟩,
  ⟨"SWEEP_COLL_STAT", 0x206001c, 1, 0x0, 1, 0x0, false,
    [⟨0, 7, .ro, 0, false⟩, ⟨7, 9, .ro, 0, true⟩, ⟨16, 16, .ro, 0, true⟩]⟩,
  ⟨"SWEEP_COLL_OUT", 0x2060020, 1, 0x0, 1, 0x0, false,
    [⟨0, 16, .ro, 0, true⟩, ⟨16, 16, .ro, 0, true⟩]⟩,
  ⟨"SWEEP_COLL_GUARDS", 0x2060024, 1, 0x0, 1, 0x0, false,
    [⟨0, 16, .ro, 0, true⟩]⟩,
  ⟨"SWEEP_EXP_e_BASE", 0x2060100, 16, 0x10, 1, 0x0, false,
    [⟨0, 21, .rw, 0, false⟩]⟩,
  ⟨"SWEEP_EXP_e_LEN", 0x2060104, 16, 0x10, 1, 0x0, false,
    [⟨0, 22, .rw, 0, false⟩]⟩,
  ⟨"SWEEP_EXP_e_CFG", 0x2060108, 16, 0x10, 1, 0x0, false,
    [⟨0, 13, .rw, 0, false⟩, ⟨13, 1, .rw, 0, false⟩, ⟨14, 1, .rw, 0, false⟩, ⟨15, 1, .rw, 0, false⟩, ⟨16, 1, .rw, 0, false⟩]⟩,
  ⟨"SWEEP_APER_a", 0x2060200, 64, 0x4, 1, 0x0, false,
    [⟨0, 13, .rw, 0, false⟩, ⟨31, 1, .rw, 0, false⟩]⟩,
  ⟨"SWEEP_ROUTE_i", 0x2080000, 8192, 0x4, 1, 0x0, false,
    [⟨0, 5, .rw, 0x1f, false⟩]⟩]

/-- Registers of the SCHED tables. -/
def regsSched : List RegDef := [
  ⟨"SCHED_PART_p_CFG", 0x2070000, 8, 0x10, 1, 0x0, true,
    [⟨0, 1, .rw, 0, false⟩, ⟨1, 1, .rw, 0, false⟩, ⟨16, 16, .rw, 0, false⟩]⟩,
  ⟨"SCHED_PART_p_STAT", 0x2070004, 8, 0x10, 1, 0x0, false,
    [⟨0, 10, .ro, 0, false⟩, ⟨10, 10, .ro, 0, false⟩]⟩,
  ⟨"SCHED_PART_p_PRE", 0x2070008, 8, 0x10, 1, 0x0, false,
    [⟨0, 16, .ro, 0, true⟩, ⟨16, 16, .ro, 0, true⟩]⟩,
  ⟨"SCHED_WAYS", 0x2070080, 1, 0x0, 1, 0x0, true,
    [⟨0, 16, .rw, 0, false⟩]⟩,
  ⟨"SCHED_STACK_CLASSi", 0x2070084, 3, 0x4, 1, 0x0, true,
    [⟨0, 32, .rw, 0, false⟩]⟩,
  ⟨"SCHED_CFG", 0x2070090, 1, 0x0, 1, 0x0, false,
    [⟨0, 16, .rw, 0xc8, false⟩, ⟨16, 16, .rw, 0xc8, false⟩]⟩,
  ⟨"SCHED_CMD", 0x2070094, 1, 0x0, 1, 0x0, false,
    [⟨0, 2, .rw, 0, false⟩, ⟨2, 3, .rw, 0, false⟩]⟩,
  ⟨"SCHED_CMD_STAT", 0x2070098, 1, 0x0, 1, 0x0, false,
    [⟨0, 1, .ro, 0, false⟩, ⟨16, 16, .ro, 0, false⟩]⟩,
  ⟨"SCHED_IRQ", 0x207009c, 1, 0x0, 1, 0x0, false,
    [⟨0, 8, .rw, 0, false⟩, ⟨8, 1, .rw, 0, false⟩]⟩,
  ⟨"CREW_PART", 0x1040020, 16, 0x100000, 48, 0x100, true,
    [⟨0, 3, .rw, 0, false⟩, ⟨3, 1, .rw, 0, false⟩, ⟨4, 3, .rw, 0, false⟩, ⟨7, 1, .rw, 0, false⟩, ⟨8, 3, .ro, 0, false⟩, ⟨11, 1, .ro, 0, false⟩]⟩,
  ⟨"ERG_SCHED", 0x10001c0, 16, 0x100000, 1, 0x0, true,
    [⟨0, 16, .rw, 0, false⟩]⟩,
  ⟨"ERG_SCHED_STAT", 0x10001c4, 16, 0x100000, 1, 0x0, false,
    [⟨0, 16, .ro, 0, false⟩, ⟨16, 16, .ro, 0, true⟩]⟩]

/-- Registers of the HOST tables. -/
def regsHost : List RegDef := [
  ⟨"HOST_STAT", 0x200000, 1, 0x0, 1, 0x0, false,
    [⟨0, 5, .ro, 0, false⟩, ⟨5, 3, .ro, 0, false⟩, ⟨8, 1, .ro, 0, false⟩, ⟨9, 1, .ro, 0, false⟩, ⟨10, 1, .ro, 0, false⟩]⟩,
  ⟨"HOST_IDE", 0x200004, 1, 0x0, 1, 0x0, false,
    [⟨0, 1, .ro, 0, false⟩, ⟨16, 16, .ro, 0, true⟩]⟩,
  ⟨"HOST_MEMWIN_BASE_LO", 0x200010, 1, 0x0, 1, 0x0, true,
    [⟨0, 32, .rw, 0, false⟩]⟩,
  ⟨"HOST_MEMWIN_BASE_HI", 0x200014, 1, 0x0, 1, 0x0, true,
    [⟨0, 24, .rw, 0, false⟩]⟩,
  ⟨"HOST_MEMWIN_LEN", 0x200018, 1, 0x0, 1, 0x0, true,
    [⟨0, 12, .rw, 0, false⟩]⟩,
  ⟨"HOST_MEMWIN_DROP", 0x20001c, 1, 0x0, 1, 0x0, false,
    [⟨0, 32, .ro, 0, true⟩]⟩,
  ⟨"HOST_ERR", 0x200020, 1, 0x0, 1, 0x0, false,
    [⟨0, 16, .ro, 0, true⟩, ⟨16, 8, .ro, 0, true⟩, ⟨24, 8, .ro, 0, true⟩]⟩,
  ⟨"LR_BASE_LO", 0x210000, 512, 0x40, 1, 0x0, false,
    [⟨12, 20, .rw, 0, false⟩]⟩,
  ⟨"LR_BASE_HI", 0x210004, 512, 0x40, 1, 0x0, false,
    [⟨0, 16, .rw, 0, false⟩]⟩,
  ⟨"LR_CFG", 0x210008, 512, 0x40, 1, 0x0, false,
    [⟨0, 5, .rw, 4, false⟩, ⟨5, 5, .rw, 4, false⟩, ⟨10, 1, .rw, 0, false⟩, ⟨11, 8, .rw, 0, false⟩, ⟨19, 1, .rw, 0, false⟩]⟩,
  ⟨"LR_CQ_BASE_LO", 0x21000c, 512, 0x40, 1, 0x0, false,
    [⟨12, 20, .rw, 0, false⟩]⟩,
  ⟨"LR_CQ_BASE_HI", 0x210010, 512, 0x40, 1, 0x0, false,
    [⟨0, 16, .rw, 0, false⟩]⟩,
  ⟨"LR_HEAD", 0x210014, 512, 0x40, 1, 0x0, false,
    [⟨0, 32, .rw, 0, false⟩]⟩,
  ⟨"LR_TAIL", 0x210018, 512, 0x40, 1, 0x0, false,
    [⟨0, 32, .ro, 0, false⟩]⟩,
  ⟨"LR_CQ_TAIL", 0x21001c, 512, 0x40, 1, 0x0, false,
    [⟨0, 32, .rw, 0, false⟩]⟩,
  ⟨"LR_CQ_HEAD", 0x210020, 512, 0x40, 1, 0x0, false,
    [⟨0, 32, .rw, 0, false⟩]⟩,
  ⟨"LR_STAT", 0x210024, 512, 0x40, 1, 0x0, false,
    [⟨0, 2, .ro, 0, false⟩, ⟨2, 17, .ro, 0, false⟩]⟩,
  ⟨"LR_IRQ", 0x210028, 512, 0x40, 1, 0x0, false,
    [⟨0, 16, .rw, 0, false⟩]⟩]

/-- Registers of the COX tables. -/
def regsCox : List RegDef := [
  ⟨"COX_MB_DOORBELL", 0x102000, 8, 0x4000, 1, 0x0, false,
    [⟨0, 1, .rw, 0, false⟩]⟩,
  ⟨"COX_MB_STAT", 0x102004, 8, 0x4000, 1, 0x0, false,
    [⟨0, 2, .ro, 3, false⟩, ⟨16, 16, .ro, 0, false⟩]⟩,
  ⟨"COX_MB_CFG", 0x102008, 8, 0x4000, 1, 0x0, false,
    [⟨0, 8, .rw, 0, false⟩, ⟨8, 1, .rw, 0, false⟩]⟩,
  ⟨"COX_MB_DROP", 0x10200c, 8, 0x4000, 1, 0x0, false,
    [⟨0, 16, .ro, 0, true⟩]⟩,
  ⟨"COX_STATE", 0x120000, 1, 0x0, 1, 0x0, false,
    [⟨0, 3, .ro, 0, false⟩, ⟨8, 8, .ro, 0, false⟩, ⟨16, 2, .ro, 0, false⟩]⟩,
  ⟨"COX_STATE_IRQ", 0x120004, 1, 0x0, 1, 0x0, false,
    [⟨0, 8, .rw, 0, false⟩, ⟨8, 1, .rw, 0, false⟩]⟩]

/-- Registers of the CSR tables. -/
def regsCsr : List RegDef := [
  ⟨"GLOBAL_ID", 0x0, 1, 0x0, 1, 0x0, false,
    [⟨0, 16, .ro, 0xd1a0, false⟩, ⟨16, 4, .ro, 0, false⟩, ⟨20, 8, .ro, 0, false⟩]⟩,
  ⟨"GLOBAL_CAP_UNITS", 0x4, 1, 0x0, 1, 0x0, false,
    [⟨0, 8, .ro, 0, false⟩, ⟨8, 16, .ro, 0, false⟩, ⟨24, 2, .ro, 0, false⟩]⟩,
  ⟨"GLOBAL_CAP_COMPUTE", 0x8, 1, 0x0, 1, 0x0, false,
    [⟨0, 14, .ro, 0, false⟩, ⟨14, 10, .ro, 0, false⟩, ⟨24, 7, .ro, 0, false⟩]⟩,
  ⟨"GLOBAL_CAP_COUNTS", 0xc, 1, 0x0, 1, 0x0, false,
    [⟨0, 6, .ro, 0, false⟩, ⟨6, 5, .ro, 0, false⟩, ⟨11, 4, .ro, 0, false⟩]⟩,
  ⟨"GLOBAL_CAP_STACK_LO", 0x10, 1, 0x0, 1, 0x0, false,
    [⟨0, 32, .ro, 0, false⟩]⟩,
  ⟨"GLOBAL_CAP_STACK_HI", 0x14, 1, 0x0, 1, 0x0, false,
    [⟨0, 16, .ro, 0, false⟩]⟩,
  ⟨"GLOBAL_APPLY", 0x100, 1, 0x0, 1, 0x0, false,
    [⟨0, 32, .rw, 0, false⟩]⟩,
  ⟨"GLOBAL_SNAP", 0x104, 1, 0x0, 1, 0x0, false,
    [⟨0, 20, .rw, 0, false⟩]⟩,
  ⟨"GLOBAL_SNAP_CTRL", 0x108, 1, 0x0, 1, 0x0, false,
    [⟨0, 1, .rw, 0, false⟩]⟩,
  ⟨"GLOBAL_GUARD_STAT", 0x110, 1, 0x0, 1, 0x0, false,
    [⟨0, 16, .ro, 0, false⟩, ⟨16, 10, .ro, 0, false⟩, ⟨26, 1, .ro, 0, false⟩]⟩,
  ⟨"GLOBAL_GUARD_CNT", 0x114, 1, 0x0, 1, 0x0, false,
    [⟨0, 16, .ro, 0, true⟩, ⟨16, 16, .ro, 0, true⟩]⟩,
  ⟨"GLOBAL_REG_TO", 0x118, 1, 0x0, 1, 0x0, false,
    [⟨0, 16, .ro, 0, true⟩, ⟨16, 16, .ro, 0, true⟩]⟩,
  ⟨"GLOBAL_SCULL_GOODi", 0x1000, 384, 0x4, 1, 0x0, false,
    [⟨0, 32, .ro, 0, false⟩]⟩,
  ⟨"GLOBAL_CREW_GOODi", 0x1800, 24, 0x4, 1, 0x0, false,
    [⟨0, 32, .ro, 0, false⟩]⟩,
  ⟨"GLOBAL_G_RESET", 0x4000, 1, 0x0, 1, 0x0, false,
    [⟨0, 1, .wg, 0, false⟩]⟩,
  ⟨"GLOBAL_G_PWR_CAP", 0x4004, 1, 0x0, 1, 0x0, false,
    [⟨0, 15, .wg, 0x4e20, false⟩]⟩,
  ⟨"GLOBAL_G_VLIMIT", 0x4008, 1, 0x0, 1, 0x0, false,
    [⟨0, 10, .wg, 0x2a8, false⟩, ⟨16, 10, .wg, 0x352, false⟩]⟩,
  ⟨"GLOBAL_G_REMAP_ROW", 0x400c, 1, 0x0, 1, 0x0, false,
    [⟨0, 6, .wg, 0, false⟩, ⟨6, 7, .wg, 0, false⟩, ⟨13, 5, .wg, 0, false⟩, ⟨18, 14, .wg, 0, false⟩]⟩,
  ⟨"GLOBAL_G_REMAP_CH", 0x4010, 1, 0x0, 1, 0x0, false,
    [⟨0, 6, .wg, 0, false⟩, ⟨6, 7, .wg, 0, false⟩]⟩,
  ⟨"GLOBAL_G_PORT_DIS", 0x4014, 1, 0x0, 1, 0x0, false,
    [⟨0, 18, .wg, 0, false⟩]⟩,
  ⟨"GLOBAL_G_LIFECYCLE", 0x4018, 1, 0x0, 1, 0x0, false,
    [⟨0, 4, .wg, 0, false⟩]⟩,
  ⟨"GLOBAL_G_FUSE", 0x401c, 1, 0x0, 1, 0x0, false,
    [⟨0, 12, .wg, 0, false⟩]⟩]

/-- Registers of the START tables. -/
def regsStart : List RegDef := [
  ⟨"GLOBAL_START", 0x220, 1, 0x0, 1, 0x0, false,
    [⟨0, 2, .ro, 0, false⟩, ⟨2, 4, .ro, 0, false⟩, ⟨6, 4, .ro, 0, false⟩, ⟨16, 16, .ro, 0, false⟩]⟩,
  ⟨"GLOBAL_LIFECYCLE", 0x224, 1, 0x0, 1, 0x0, false,
    [⟨0, 4, .ro, 0, false⟩, ⟨4, 7, .ro, 0, false⟩, ⟨11, 1, .ro, 0, false⟩, ⟨12, 1, .ro, 0, false⟩, ⟨13, 1, .ro, 0, false⟩]⟩]

/-- Registers of the SEC tables. -/
def regsSec : List RegDef := [
  ⟨"GLOBAL_SEC_ID", 0x240, 1, 0x0, 1, 0x0, false,
    [⟨0, 21, .ro, 0, false⟩, ⟨21, 7, .ro, 0, false⟩]⟩,
  ⟨"GLOBAL_SEC_ATT", 0x244, 1, 0x0, 1, 0x0, false,
    [⟨0, 17, .ro, 0, false⟩, ⟨17, 1, .ro, 0, false⟩]⟩,
  ⟨"GLOBAL_SEC_ROOT", 0x248, 1, 0x0, 1, 0x0, false,
    [⟨0, 4, .ro, 0, false⟩, ⟨4, 4, .ro, 0, false⟩, ⟨8, 2, .ro, 0, false⟩, ⟨10, 6, .ro, 0, false⟩, ⟨16, 6, .ro, 0, false⟩]⟩,
  ⟨"GLOBAL_SEC_PEER", 0x24c, 1, 0x0, 1, 0x0, true,
    [⟨0, 6, .rw, 0, false⟩, ⟨6, 6, .rw, 0, false⟩]⟩,
  ⟨"GLOBAL_SEC_FAIL", 0x250, 1, 0x0, 1, 0x0, false,
    [⟨0, 16, .ro, 0, true⟩, ⟨16, 16, .ro, 0, true⟩]⟩]

/-- Registers of the RAS tables. -/
def regsRas : List RegDef := [
  ⟨"GLOBAL_LOG_STAT", 0x260, 1, 0x0, 1, 0x0, false,
    [⟨0, 15, .ro, 0, false⟩, ⟨15, 1, .ro, 0, false⟩]⟩,
  ⟨"GLOBAL_LOG_LOST", 0x264, 1, 0x0, 1, 0x0, false,
    [⟨0, 32, .ro, 0, true⟩]⟩,
  ⟨"GLOBAL_LOG_NEXT_LO", 0x268, 1, 0x0, 1, 0x0, false,
    [⟨0, 32, .ro, 0, false⟩]⟩,
  ⟨"GLOBAL_LOG_NEXT_HI", 0x26c, 1, 0x0, 1, 0x0, false,
    [⟨0, 32, .ro, 0, false⟩]⟩,
  ⟨"GLOBAL_RAS_IRQ", 0x270, 1, 0x0, 1, 0x0, false,
    [⟨0, 8, .rw, 0, false⟩, ⟨8, 1, .rw, 0, false⟩, ⟨9, 2, .rw, 2, false⟩]⟩,
  ⟨"GLOBAL_RAS_RETIRE", 0x274, 1, 0x0, 1, 0x0, false,
    [⟨0, 14, .ro, 0, true⟩, ⟨14, 10, .ro, 0, true⟩, ⟨24, 4, .ro, 0, true⟩, ⟨28, 4, .ro, 0, true⟩]⟩,
  ⟨"GLOBAL_RAS_SUPP", 0x278, 1, 0x0, 1, 0x0, false,
    [⟨0, 32, .ro, 0, true⟩]⟩]

/-- Registers of the CAIRN tables. -/
def regsCairn : List RegDef := [
  ⟨"CAIRN_CFG", 0x2090000, 1, 0x0, 1, 0x0, false,
    [⟨0, 16, .rw, 0x3e8, false⟩, ⟨16, 8, .rw, 0, false⟩, ⟨24, 1, .rw, 0, false⟩]⟩,
  ⟨"CAIRN_STAT", 0x2090004, 1, 0x0, 1, 0x0, false,
    [⟨0, 2, .ro, 0, false⟩, ⟨2, 1, .ro, 0, false⟩, ⟨3, 2, .ro, 0, false⟩, ⟨5, 1, .ro, 0, false⟩, ⟨6, 1, .ro, 0, false⟩, ⟨7, 1, .ro, 0, false⟩, ⟨16, 16, .ro, 0, false⟩]⟩,
  ⟨"CAIRN_NEWEST", 0x2090008, 1, 0x0, 1, 0x0, false,
    [⟨0, 32, .ro, 0, false⟩]⟩,
  ⟨"CAIRN_WINDOW", 0x209000c, 1, 0x0, 1, 0x0, false,
    [⟨0, 32, .ro, 0, false⟩]⟩,
  ⟨"CAIRN_CNT", 0x2090010, 1, 0x0, 1, 0x0, false,
    [⟨0, 16, .ro, 0, true⟩, ⟨16, 16, .ro, 0, true⟩]⟩]

/-- Registers of the PWR tables. -/
def regsPwr : List RegDef := [
  ⟨"GLOBAL_PWR_STAT", 0x280, 1, 0x0, 1, 0x0, false,
    [⟨0, 15, .ro, 0x4e20, false⟩, ⟨15, 1, .ro, 0, false⟩, ⟨16, 1, .ro, 0, false⟩, ⟨17, 1, .ro, 0, false⟩, ⟨18, 1, .ro, 0, false⟩, ⟨19, 1, .ro, 0, false⟩]⟩,
  ⟨"GLOBAL_PWR_INPUT", 0x284, 1, 0x0, 1, 0x0, false,
    [⟨0, 16, .ro, 0, false⟩, ⟨16, 16, .ro, 0, false⟩]⟩,
  ⟨"GLOBAL_PWR_LIM", 0x288, 1, 0x0, 1, 0x0, false,
    [⟨0, 32, .ro, 0, true⟩]⟩,
  ⟨"GLOBAL_THERM_STAT", 0x28c, 1, 0x0, 1, 0x0, false,
    [⟨0, 8, .ro, 0, false⟩, ⟨8, 8, .ro, 0, false⟩, ⟨16, 16, .ro, 0, false⟩]⟩,
  ⟨"GLOBAL_PWR_IRQ", 0x290, 1, 0x0, 1, 0x0, false,
    [⟨0, 8, .rw, 0, false⟩, ⟨8, 1, .rw, 0, false⟩]⟩]

/-- Every register of BAR0. -/
def regTable : List RegDef :=
  regsBeat ++ regsNum ++ regsScull ++ regsTask ++ regsVec ++ regsSeif ++ regsKv ++ regsConv ++ regsLowp ++ regsDune ++ regsTier0 ++ regsTier1 ++ regsWake ++ regsSweep ++ regsSched ++ regsHost ++ regsCox ++ regsCsr ++ regsStart ++ regsSec ++ regsRas ++ regsCairn ++ regsPwr

end Sys2Proof.Machine
end

