-- ==== Sys2Proof/Machine/Ops.lean ====
section
/-! DEFINITION. The named operations that every meaning is written over: sparse tables, memory, registers and counters,
interrupt vectors, the event log and the device state. -/

namespace Sys2Proof.Machine

/-! ### Sparse tables -/

/-- What key `k` reads as; `d` is what an unlisted key reads as. -/
def Tab.get {α : Type} (d : α) : Tab α → Nat → α
  | [], _ => d
  | (k', v) :: r, k => if k' = k then v else Tab.get d r k

/-- Key `k` now reads as `v`; an entry equal to the default is not kept. -/
def Tab.put {α : Type} [DecidableEq α] (d : α) : Tab α → Nat → α → Tab α
  | [], k, v => if v = d then [] else [(k, v)]
  | (k', v') :: r, k, v =>
    if k < k' then (if v = d then (k', v') :: r else (k, v) :: (k', v') :: r)
    else if k = k' then (if v = d then r else (k, v) :: r)
    else (k', v') :: Tab.put d r k v

/-- Every key of the list is above `lo` and in rising order, and no entry equals the default. -/
def Tab.above {α : Type} [DecidableEq α] (d : α) : Nat → Tab α → Bool
  | _, [] => true
  | lo, (k, v) :: r => decide (lo < k) && decide (v ≠ d) && Tab.above d k r

/-- The canonical form: keys strictly rising, no entry equal to what an unlisted key reads as. -/
def Tab.wf {α : Type} [DecidableEq α] (d : α) : Tab α → Bool
  | [] => true
  | (k, v) :: r => decide (v ≠ d) && Tab.above d k r

/-! ### Words -/

/-- A number as a 32-bit word. -/
def w32 (n : Nat) : Word := BitVec.ofNat 32 n

/-- Bits [lo + n - 1 : lo] of a word, as a number. -/
def bits (w : Word) (lo n : Nat) : Nat := w.toNat / 2 ^ lo % 2 ^ n

/-- The word with bits [lo + n - 1 : lo] replaced by the low bits of `v`. -/
def setBits (w : Word) (lo n v : Nat) : Word :=
  w32 (w.toNat - bits w lo n * 2 ^ lo + v % 2 ^ n * 2 ^ lo)

/-- One bit of a number. -/
def natBit (v i : Nat) : Bool := v / 2 ^ i % 2 = 1

/-- A number of 64 bits from its two words, low first. -/
def join (lo hi : Word) : Nat := lo.toNat + hi.toNat * 0x100000000

/-- 1 for true. -/
def b2n (b : Bool) : Nat := if b then 1 else 0

/-! ### Memory (R23): one address space; what is not listed reads 0 (log entry 7) -/

/-- The byte at a device address. -/
def State.byte (s : State) (da : Nat) : Byte := Tab.get 0 s.mem da

/-- Store one byte. -/
def State.setByte (s : State) (da : Nat) (b : Byte) : State := { s with mem := Tab.put 0 s.mem da b }

/-- Store cells in order. -/
def State.store (s : State) (cs : List Cell) : State :=
  { s with mem := cs.foldl (fun m c => Tab.put 0 m c.1 c.2) s.mem }

/-- `n` bytes from a device address. -/
def State.load (s : State) (da n : Nat) : List Byte := (List.range n).map fun i => s.byte (da + i)

/-- A little-endian number of `n` bytes at a device address. -/
def State.loadNat (s : State) (da n : Nat) : Nat := leNat n (s.load da n)

/-- Bytes at consecutive addresses. -/
def cellsAt (da : Nat) (bs : List Byte) : List Cell := bs.zipIdx.map fun p => (da + p.2, p.1)

/-- Words at consecutive addresses, little-endian. -/
def wordCells (da : Nat) (ws : List Word) : List Cell := cellsAt da (ws.flatMap fun w => leBytes 4 w.toNat)

/-- Insert a number into a rising list without repeats. -/
def insertSorted (n : Nat) : List Nat → List Nat
  | [] => [n]
  | m :: r => if n < m then n :: m :: r else if n = m then m :: r else m :: insertSorted n r

/-- Mark the 64-bit word of an address poisoned (R97). -/
def State.poisonWord (s : State) (da : Nat) : State := { s with poison := insertSorted (da / 8) s.poison }

/-- Mark the 32-byte piece of an address poisoned (R292): its four words. -/
def State.poisonPiece (s : State) (da : Nat) : State :=
  let w := da / 32 * 4
  { s with poison := [w, w + 1, w + 2, w + 3].foldr insertSorted s.poison }

/-- Clear the poison of the words from `lo` to below `hi`. -/
def State.clearPoison (s : State) (lo hi : Nat) : State :=
  { s with poison := s.poison.filter fun p => decide (p < lo) || decide (hi ≤ p) }

/-- Whether any word that `n` bytes from `da` touch is poisoned. -/
def State.poisoned (s : State) (da n : Nat) : Bool :=
  s.poison.any fun p => decide (da < p * 8 + 8) && decide (p * 8 < da + n)

/-- Base of the host window (Table DRAA.6). -/
def hostBase : Nat := 0x01000000000000

/-- End of the host window. -/
def hostEnd : Nat := 0x02000000000000

/-- What host memory holds at a read is an operand (log entry 7): its cells inside the host window enter the memory. -/
def State.seeHost (s : State) (host : List Cell) : State :=
  s.store (host.filter fun c => decide (hostBase ≤ c.1) && decide (c.1 < hostEnd))

/-! ### Registers (R8, R432): a word by BAR0 offset, its reset value where nothing has changed it -/

/-- The row of the register map that an offset falls in. -/
def RegDef.has (d : RegDef) (off : Nat) : Bool :=
  let r := off - d.base
  let i := if d.n1 ≤ 1 then 0 else r / d.s1
  let r' := if d.n1 ≤ 1 then r else r % d.s1
  let j := if d.n2 ≤ 1 then 0 else r' / d.s2
  let r'' := if d.n2 ≤ 1 then r' else r' % d.s2
  decide (d.base ≤ off) && decide (i < d.n1) && decide (j < d.n2) && decide (r'' = 0)

/-- The register at an offset, if a block defines one. -/
def regDef (off : Nat) : Option RegDef := regTable.find? (·.has off)

/-- The reset value of a register row: its fields' reset values in place. -/
def RegDef.resetWord (d : RegDef) : Word := w32 (d.fields.foldl (fun a f => a + f.reset * 2 ^ f.lo) 0)

/-- The reset value at an offset. -/
def resetAt (off : Nat) : Word := ((regDef off).map RegDef.resetWord).getD 0

/-- The word a register holds. -/
def State.reg (s : State) (off : Nat) : Word := Tab.get (resetAt off) s.regs off

/-- Set a register. -/
def State.setReg (s : State) (off : Nat) (v : Word) : State :=
  { s with regs := Tab.put (resetAt off) s.regs off v }

/-- A field of a register. -/
def State.fld (s : State) (off lo n : Nat) : Nat := bits (s.reg off) lo n

/-- Set a field of a register. -/
def State.setFld (s : State) (off lo n v : Nat) : State := s.setReg off (setBits (s.reg off) lo n v)

/-- A counter field rises by `k` and saturates (R415 and the register rules of each block). -/
def State.bumpBy (s : State) (off lo n k : Nat) : State := s.setFld off lo n (min (s.fld off lo n + k) (2 ^ n - 1))

/-- A counter field rises by one and saturates. -/
def State.bump (s : State) (off lo n : Nat) : State := s.bumpBy off lo n 1

/-- A 64-bit counter in two registers, low word at `off`, rises by `k` and saturates. -/
def State.bump64 (s : State) (off k : Nat) : State :=
  let v := min (join (s.reg off) (s.reg (off + 4)) + k) (2 ^ 64 - 1)
  (s.setReg off (w32 v)).setReg (off + 4) (w32 (v / 0x100000000))

/-- Set sticky bits of a W1C word: a flag once set stays set (R15). -/
def State.stick (s : State) (off : Nat) (v : Nat) : State := s.setReg off (s.reg off ||| w32 v)

/-! ### Units by index -/

/-- Scull k. -/
def State.scull (s : State) (k : Nat) : Scull := Tab.get Scull.init s.sculls k
/-- Change scull k. -/
def State.setScull (s : State) (k : Nat) (v : Scull) : State := { s with sculls := Tab.put Scull.init s.sculls k v }
/-- Crew c. -/
def State.crew (s : State) (c : Nat) : Crew := Tab.get Crew.init s.crews c
/-- Change crew c. -/
def State.setCrew (s : State) (c : Nat) (v : Crew) : State := { s with crews := Tab.put Crew.init s.crews c v }
/-- Erg d. -/
def State.erg (s : State) (d : Nat) : Erg := Tab.get Erg.init s.ergs d
/-- Change erg d. -/
def State.setErg (s : State) (d : Nat) (v : Erg) : State := { s with ergs := Tab.put Erg.init s.ergs d v }
/-- Task t. -/
def State.task (s : State) (t : Nat) : Task := Tab.get Task.none s.tasks t
/-- Change task t. -/
def State.setTask (s : State) (t : Nat) (v : Task) : State := { s with tasks := Tab.put Task.none s.tasks t v }
/-- Lane ring q. -/
def State.ring (s : State) (q : Nat) : Ring := Tab.get Ring.init s.rings q
/-- Change lane ring q. -/
def State.setRing (s : State) (q : Nat) (v : Ring) : State := { s with rings := Tab.put Ring.init s.rings q v }
/-- Mailbox m. -/
def State.mb (s : State) (m : Nat) : Mailbox := Tab.get Mailbox.init s.mbs m
/-- Change mailbox m. -/
def State.setMb (s : State) (m : Nat) (v : Mailbox) : State := { s with mbs := Tab.put Mailbox.init s.mbs m v }
/-- Dune stack n. -/
def State.dune (s : State) (n : Nat) : Stack := Tab.get Stack.init s.dunes n
/-- Change Dune stack n. -/
def State.setDune (s : State) (n : Nat) (v : Stack) : State := { s with dunes := Tab.put Stack.init s.dunes n v }
/-- Wake engine w. -/
def State.wake (s : State) (w : Nat) : Wake := Tab.get Wake.init s.wakes w
/-- Change Wake engine w. -/
def State.setWake (s : State) (w : Nat) (v : Wake) : State := { s with wakes := Tab.put Wake.init s.wakes w v }
/-- Sweep port p. -/
def State.port (s : State) (p : Nat) : Port := Tab.get Port.init s.ports p
/-- Change Sweep port p. -/
def State.setPort (s : State) (p : Nat) (v : Port) : State := { s with ports := Tab.put Port.init s.ports p v }
/-- Dependency counter n of the module: erg n / 4096, counter n mod 4096 (R116). -/
def State.ctr (s : State) (n : Nat) : Word := Tab.get 0 s.ctrs n
/-- Change a dependency counter. -/
def State.setCtr (s : State) (n : Nat) (v : Word) : State := { s with ctrs := Tab.put 0 s.ctrs n v }
/-- The tensor at registry index i. -/
def State.tensor (s : State) (i : Nat) : Tensor := Tab.get Tensor.none s.tier.tensors i
/-- Change a tensor. -/
def State.setTensor (s : State) (i : Nat) (v : Tensor) : State :=
  { s with tier := { s.tier with tensors := Tab.put Tensor.none s.tier.tensors i v } }

/-! ### Variants and presence (Table SCOPE.1, R6, R7) -/

/-- Whether the variant carries Wake engines. -/
def State.hasWake (s : State) : Bool := s.nv.variant == .yd1f

/-- Whether the variant carries Bow engines. -/
def State.hasBow (s : State) : Bool := s.nv.variant != .yd1e

/-- Whether the module has Hamada flash now: the variant carries it and it is not treated as absent (Table RAS.4). -/
def State.hasFlash (s : State) : Bool := s.nv.variant != .yd1e && !s.flashGone

/-- Provisioned flash extent in bytes (R25). -/
def State.flashBytes (s : State) : Nat :=
  match s.nv.variant with
  | .yd1f => 16000000000000
  | .yd1t => 8000000000000
  | .yd1e => 0

/-- Vector width W in FP32 lanes. -/
def State.lanes (s : State) : Nat := if s.nv.variant == .yd1e then 32 else 64

/-- A clocked island is locked while no time of loss is listed. -/
def State.locked (s : State) (i : Nat) : Bool := !(s.islands.any fun p => p.1 == i)

/-! ### Host port conditions (R400, R413) -/

/-- HOST_IDE.require: fixed by the life-cycle state (Table START.4). -/
def State.ideRequired (s : State) : Bool := s.nv.lifecycle == 2 || s.nv.lifecycle == 3 || s.nv.lifecycle == 5

/-- The required streams are established, or none is required. -/
def State.ideOpen (s : State) : Bool := !s.ideRequired || (s.host.ideIo && s.host.ideMem)

/-- The link is up and the port may issue requests. -/
def State.hostOpen (s : State) : Bool := decide (s.host.rate ≠ 0) && s.locked 25 && s.ideOpen

/-! ### Interrupt vectors (R413) -/

/-- Raise vector v: sent at once, or held pending while it is masked or the port may not send. -/
def State.raise (s : State) (v : Nat) : State :=
  if Tab.get false s.host.vecPend v then s
  else if Tab.get true s.host.vecMask v || !s.hostOpen then
    { s with host := { s.host with vecPend := Tab.put false s.host.vecPend v true } }
  else { s with tx := .msix v :: s.tx }

/-- Raise the vector that a register names in [7:0] if its bit `en` is 1. -/
def State.raiseReg (s : State) (off en : Nat) : State :=
  if s.fld off en 1 = 1 then s.raise (s.fld off 0 8) else s

/-! ### Status codes and device states as numbers (Tables SCOPE.4, COX.3) -/

/-- The 16-bit value of a status. -/
def Status.code : Status → Nat
  | .ok => 0 | .busy => 1 | .stateInvalid => 2 | .badArgument => 3 | .unitAbsent => 4 | .authFailed => 5
  | .guardMismatch => 6 | .accOvercommit => 0x10 | .collTimeout => 0x20 | .collPoisoned => 0x21 | .redFull => 0x22
  | .peerAbsent => 0x23 | .evictDeferred => 0x30 | .deadlineMiss => 0x31 | .poolExhausted => 0x32
  | .tileRetired => 0x40 | .crewRetired => 0x41 | .startFailed => 0x50 | .internal => 0xFF

/-- The code of a device state. -/
def DevState.code : DevState → Nat
  | .starting => 0 | .ready => 1 | .running => 2 | .quiescing => 3 | .quiesced => 4 | .recovery => 5 | .faulted => 6
  | .retired => 7

/-! ### The event log (R491-R498) -/

/-- Event codes (Table RAS.7). -/
def evState : Nat := 0x0001
def evStartStep : Nat := 0x0002
def evSeal : Nat := 0x0003
def evCrash : Nat := 0x0004
def evLogLoss : Nat := 0x0005
def evSuppressed : Nat := 0x0006
def evLifecycle : Nat := 0x0007
def evCommand : Nat := 0x1001
def evRegWrite : Nat := 0x1002
def evRing : Nat := 0x1003
def evResidue : Nat := 0x2001
def evEccUe : Nat := 0x2002
def evRetire : Nat := 0x2003
def evDelayTap : Nat := 0x2004
def evDuneUe : Nat := 0x3001
def evRemap : Nat := 0x3002
def evRemapRefused : Nat := 0x3003
def evChannel : Nat := 0x3004
def evBand : Nat := 0x3005
def evPortState : Nat := 0x4001
def evQuarantine : Nat := 0x4002
def evVerdict : Nat := 0x4003
def evRedFull : Nat := 0x4004
def evTier : Nat := 0x5001
def evDeadline : Nat := 0x5002
def evKv : Nat := 0x5003
def evLowpEval : Nat := 0x5004
def evWake : Nat := 0x6001
def evSecFail : Nat := 0x7001
def evFuseBurn : Nat := 0x7002
def evCap : Nat := 0x8001
def evThermal : Nat := 0x8002
def evLock : Nat := 0x9001
def evCal : Nat := 0x9002
def evOverrun : Nat := 0xA001
def evSched : Nat := 0xA002

/-- Identifier of a hardware unit: kind and index (Table RAS.6, class 3). -/
def unitId (kind index : Nat) : Nat := kind * 0x10000000 + index

/-- Bytes 0x00 to 0x37 of a record (Table RAS.5). -/
def LogRec.bytes (r : LogRec) : List Byte :=
  leBytes 8 r.number ++ leBytes 8 r.etc ++ leBytes 4 r.epoch ++ leBytes 1 r.cls ++ leBytes 1 r.severity ++
  leBytes 2 r.code ++ leBytes 4 r.ident ++ leBytes 2 r.status.code ++ leBytes 2 0 ++
  (((r.payload ++ List.replicate 6 0).take 6).flatMap fun (w : Word) => leBytes 4 w.toNat)

/-- Records the ring holds at most. -/
def logRingSize : Nat := 16384

/-- Whether records are persisted to flash (R496). -/
def State.persists (s : State) : Bool := s.hasFlash && s.nv.flashKey

/-- Write one record (R494, R495, R496): number it, chain it, put it into the ring; a record overwritten before it was
persisted or returned is counted lost. Then the RAS vector, if its severity reaches min_sev (R490). -/
def State.writeRec (s : State) (cls ident sev code : Nat) (st : Status) (pl : List Word) : State :=
  let l := s.log
  let r0 : LogRec := ⟨l.next, s.etc, s.nv.epoch, cls, sev, code, ident, st, (pl ++ List.replicate 6 0).take 6, []⟩
  let r := { r0 with chain := shake256 (l.last ++ r0.bytes) 8 }
  let full := decide (logRingSize ≤ l.ring.length)
  let old := l.ring.getLast?.map LogRec.number
  let gone := full && decide (logRingSize ≤ l.waiting) && (old.any fun n => decide (l.readUpTo ≤ n))
  let l' : Log :=
    { l with
      ring := (r :: l.ring).take logRingSize
      next := l.next + 1
      last := r.chain
      waiting := min (l.waiting + 1) logRingSize
      oldest := if l.waiting = 0 then s.etc else l.oldest
      lostFirst := if gone && l.lostFirst.isNone then old else l.lostFirst
      lostCount := if gone then l.lostCount + 1 else l.lostCount
      lostAt := if gone && l.lostFirst.isNone then s.etc else l.lostAt }
  let nv := if l.next + 1 = s.nv.reserved then { s.nv with reserved := s.nv.reserved + 65536 } else s.nv
  let s : State := { s with log := l', nv := nv }
  let s : State := if gone then s.bump 0x264 0 32 else s
  if decide (s.fld 0x270 8 1 = 1) && decide (s.fld 0x270 9 2 ≤ sev) then s.raise (s.fld 0x270 0 8) else s

/-- Report the span of 1,000 µs in which records were lost, once it has ended (R496). -/
def State.reportLoss (s : State) : State :=
  match s.log.lostFirst with
  | some n =>
    if s.log.lostAt + 1000 ≤ s.etc then
      let c := s.log.lostCount
      { s with log := { s.log with lostFirst := none, lostCount := 0 } }.writeRec 0 0 2 evLogLoss .ok
        [w32 c, w32 n, w32 (n / 0x100000000)]
    else s
  | none => s

/-- Whether a window counts a record: code, class, identifier and status agree (R497). -/
def Window.hits (w : Window) (cls ident code : Nat) (st : Status) : Bool :=
  decide (w.code = code) && decide (w.cls = cls) && decide (w.ident = ident) && decide (w.status = st)

/-- Records that no window suppresses and that open none (R497). -/
def neverSuppressed (sev code : Nat) : Bool := decide (sev = 3) || decide (code = evSuppressed) || decide (code = evLogLoss)

/-- Write a record and open its suppression window (R497). -/
def State.record (s : State) (cls ident sev code : Nat) (st : Status) (pl : List Word) : State :=
  let s := s.writeRec cls ident sev code st pl
  if neverSuppressed sev code then s
  else { s with log := { s.log with windows := s.log.windows ++ [⟨code, cls, ident, st, sev, s.etc, 0⟩] } }

/-- The first records of a boot (R425, R454, R494, R495): a warm start, which kept its ring, writes CRASH behind SEAL; another
start begins its numbers at the end of the reserved range, reports those it does not know with LOG_LOSS, and chains from
the serial and the boot epoch. Then the entry into STARTING is recorded. -/
def State.openBoot (s : State) : State :=
  let s : State := { s with start := { s.start with logOpen := true } }
  let s := match s.crash with
    | some (st, fault, ops) =>
      let w (i : Nat) : Nat := (ops.getD i 0).toNat
      s.record 0 1 0 evCrash .ok
        [w32 (st + fault * 0x100 + w 0 * 0x10000), w32 (w 1 + w 2 * 0x10000), w32 (w 3 + w 4 * 0x10000),
         w32 (w 5 + w 6 * 0x10000), w32 (w 7 + w 8 * 0x10000)]
    | none =>
      let n := s.nv.reserved
      let lo := n - 65536
      let from_ := s.log.area.foldl (fun (m : Nat) (r : LogRec) => if lo ≤ r.number ∧ r.number < n then max m (r.number + 1) else m) lo
      let last := shake256 (s.nv.serial ++ leBytes 4 s.nv.epoch) 8
      { s with nv := { s.nv with reserved := n + 65536 }, log := { Log.init with area := s.log.area, next := n, last := last } }.record
        0 0 2 evLogLoss .ok [w32 (n - from_), w32 from_, w32 (from_ / 0x100000000)]
  s.record 0 1 0 evState .ok [w32 s.start.fromState, 0, 0]

/-- Log an event (R491, R497): a record that an open window matches is only counted; another is written, and opens a
window unless its severity is 3 or it is a SUPPRESSED or LOG_LOSS record. -/
def State.emit (s : State) (cls ident sev code : Nat) (st : Status) (pl : List Word) : State :=
  let s := if s.start.logOpen then s else s.openBoot
  let s := s.reportLoss
  if !neverSuppressed sev code && (s.log.windows.any fun w => w.hits cls ident code st) then
    let ws := s.log.windows.map fun w => if w.hits cls ident code st then { w with count := w.count + 1 } else w
    { s with log := { s.log with windows := ws } }.bump 0x278 0 32
  else s.record cls ident sev code st pl

/-- Log an event of a hardware unit. -/
def State.emitUnit (s : State) (kind index sev code : Nat) (st : Status) (pl : List Word) : State :=
  s.emit 3 (unitId kind index) sev code st pl

/-- Log an event of the firmware, or of the ROM while it runs. -/
def State.emitFw (s : State) (sev code : Nat) (st : Status) (pl : List Word) : State :=
  s.emit 0 (b2n s.start.rom) sev code st pl

/-- Close window number i, with its SUPPRESSED record if it has counted any (R497). -/
def State.closeWindow (s : State) (i : Nat) : State :=
  match s.log.windows[i]? with
  | some w =>
    let s := { s with log := { s.log with windows := s.log.windows.eraseIdx i } }
    if w.count = 0 then s
    else s.emit 0 0 w.severity evSuppressed w.status [w32 w.code, w32 w.cls, w32 w.ident, w32 w.count]
  | none => s

/-- Origin class and identifier of a requester's access (Table RAS.6). -/
def originOf : Requester → Nat × Nat
  | .host id => (2, id.toNat)
  | .coxswain => (0, 0)
  | .powerController => (3, unitId 14 0)
  | .sideband => (1, 8)

/-- Log a register write that changed a register (R491). -/
def State.logWrite (s : State) (req : Requester) (off : Nat) (old new : Word) : State :=
  if old = new then s else s.emit (originOf req).1 (originOf req).2 0 evRegWrite .ok [w32 off, old, new]

/-- Log a register or doorbell write that was discarded or refused (R491). -/
def State.logRefused (s : State) (req : Requester) (off : Nat) (st : Status) (held tried : Word) : State :=
  s.emit (originOf req).1 (originOf req).2 1 evRegWrite st [w32 off, held, tried]

/-! ### Device state (R425) -/

/-- Change the device state: COX_STATE first, then the STATE record, then COX_STATE_IRQ. -/
def State.setDev (s : State) (d : DevState) (cause : Nat) : State :=
  let old := s.dev
  let s := { s with dev := d }
  let pl := [w32 old.code, w32 d.code, w32 cause]
  let s := match d with
    | .faulted => s.emit 0 1 3 evState .internal pl
    | .recovery => s.emitFw 2 evState .startFailed pl
    | _ => s.emitFw 0 evState .ok pl
  s.raiseReg 0x120004 8

/-- A start is due at a time; one that is due earlier stands (R448). -/
def State.delayStart (s : State) (kind : StartKind) (row due : Nat) (retry : Bool) : State :=
  if s.start.delayed.any fun d => decide (d.2.2 ≤ due) then s
  else { s with start := { s.start with delayed := some (kind, row, due), retryAt := retry } }

/-- Whether the device has a start behind it and runs its firmware. -/
def State.live (s : State) : Bool :=
  s.power == .on && (s.dev == .ready || s.dev == .running || s.dev == .quiescing || s.dev == .quiesced)

/-- Whether background work runs: every state from READY onward (R484). -/
def State.background (s : State) : Bool :=
  s.power == .on && s.dev != .starting && s.dev != .recovery

/-- Draw a fresh free value of 32 bits (log entry 14). -/
def State.draw (s : State) : Word × State := (Config.freeWord s.fresh, { s with fresh := s.fresh + 1 })

/-- Beats that erg d's monitor makes in `n` microseconds from ETC `lo` on (R48); what each microsecond brings is free. -/
def State.beatsIn (s : State) (d lo n : Nat) : Nat :=
  ((List.range n).map fun i => Config.beats s.nv.epoch d (lo + i)).sum

/-- What a meaning answers: always a next state (log entry 5). -/
abbrev Result := Host.Outcome State Fault Refusal

end Sys2Proof.Machine
end

