-- ==== Sys2Proof/Machine/Access.lean ====
section
/-! DEFINITION. A write to a register (20_register_behaviour.md, R432-R436): who reaches it, which target answers, the range
checks of R434, and the write itself by access code. -/

namespace Sys2Proof.Machine

/-! ### Reaching a register -/

/-- The window of an absent unit (R7): a Wake engine that the variant lacks or the fuses remove, or Hamada on a YD1-E. -/
def State.absentAt (s : State) (off : Nat) : Bool :=
  (decide (0x03400000 ≤ off) && decide (off < 0x03500000) &&
    (!s.hasWake || (s.wake ((off - 0x03400000) / 0x20000)).state == .absent)) ||
  (decide (0x03600000 ≤ off) && decide (off < 0x03800000) && s.nv.variant == .yd1e)

/-- Island of an offset (Table CSR.1, Table BEAT.3); none: the core of a die, which has no clock to lose. -/
def islandOf (off : Nat) : Option Nat :=
  let o := off % 0x400000
  if 0x200 ≤ off ∧ off < 0x20C then some 36
  else if 0x100000 ≤ off ∧ off < 0x200000 then some 35
  else if 0x200000 ≤ off ∧ off < 0x600000 then some 25
  else if 0x02000000 ≤ off ∧ off < 0x03000000 ∧ 0x40000 ≤ o ∧ o < 0x40500 then
    some (16 + ((if (off - 0x02000000) / 0x400000 = 0 then 0 else if (off - 0x02000000) / 0x400000 = 1 then 5
      else if (off - 0x02000000) / 0x400000 = 2 then 10 else 14) + (o - 0x40000) / 0x100) / 2)
  else if 0x03000000 ≤ off ∧ off < 0x03300000 then some ((off - 0x03000000) / 0x10000 / 3)
  else if 0x03400000 ≤ off ∧ off < 0x03500000 then some (26 + (off - 0x03400000) / 0x20000)
  else if 0x03600000 ≤ off ∧ off < 0x03800000 then some 34
  else none

/-- The target answers within 1.4 µs (R436): its island is locked and its stack has not FAILED. -/
def State.answers (s : State) (off : Nat) : Bool :=
  ((islandOf off).all s.locked) &&
  !(decide (0x03000000 ≤ off) && decide (off < 0x03300000) && (s.dune ((off - 0x03000000) / 0x10000)).state == .failed)

/-- An access that no target answers (R436): counted and logged with INTERNAL and the offset. -/
def State.regTimeout (s : State) (req : Requester) (off : Nat) (v : Word) : State :=
  (s.bump 0x118 0 16).logRefused req off .internal 0 v

/-- Count an access discarded under R433 or R434. -/
def State.unmapped (s : State) : State := s.bump 0x118 16 16

/-- A request of the host reaches BAR0 while the link is up; without required IDE streams it is refused and counted (R400).
The other requesters reach every register. -/
def State.reach (s : State) (req : Requester) (go : State → State) : State :=
  if s.power ≠ .on then s
  else match req with
  | .host _ =>
    if s.host.rate = 0 ∨ s.locked 25 = false then s
    else if s.ideOpen then go s
    else s.bump 0x00200004 16 16
  | _ => go s

/-- A write of `v` arrives at offset `off`: an absent unit discards it, a silent one times out (R7, R436). -/
def State.onReg (s : State) (req : Requester) (off : Nat) (v : Word) (go : State → State) : State :=
  s.reach req fun s =>
    if s.absentAt off then s
    else if s.answers off then go s
    else s.regTimeout req off v

/-! ### Ranges (R434) -/

/-- A field value outside a range. -/
def out (w : Word) (lo n a b : Nat) : Bool := decide (bits w lo n < a) || decide (b < bits w lo n)

/-- The register's name, at an offset. -/
def regName (off : Nat) : String := ((regDef off).map RegDef.name).getD ""

/-- Ways of a partition's class (Table SCHED.1). -/
def State.classWays (s : State) (be : Bool) : Nat :=
  if be then 0xFFFF - s.fld 0x02070080 0 16 else s.fld 0x02070080 0 16

/-- A value of an RW or RS field is outside the range its table states, or a reserved code. -/
def State.rangeBad (s : State) (off : Nat) (w : Word) : Bool :=
  match regName off with
  | "LR_CFG" => out w 0 5 4 16 || out w 5 5 4 16
  | "KV_RING_CFG" => out w 0 5 10 26
  | "KV_POOL_COUNT_s" => out w 0 21 0 0x100000
  | "LOWP_POOL_LEN" => out w 0 21 0 0x100000
  | "LOWP_TAG_SEL" => out w 12 10 0 767 && bits w 12 10 != 0x3FF
  | "TIER_REG_COUNT" => out w 0 21 0 0x100000
  | "TIER_NAME0_PAGES" => out w 0 24 0 0x800000
  | "TIER_NAME1_PAGES" => out w 0 24 0 0x800000
  | "TIER_POOL_s" => out w 15 16 0 32768
  | "TIER_CMD" => out w 0 4 1 6
  | "WAKE_RING_CFG" => out w 0 5 4 16
  | "SWEEP_PORT_CTRL" => bits w 4 2 == 3
  | "SWEEP_ROUTE_i" => out w 0 5 0 17 && bits w 0 5 != 31
  | "SCHED_STACK_CLASSi" => (List.range 16).any fun j => bits w (2 * j) 2 == 3
  | "SCHED_PART_p_CFG" => bits w 16 16 &&& s.classWays (bits w 1 1 == 1) != bits w 16 16
  | "HOST_MEMWIN_LEN" => out w 0 12 0 3072
  | _ => false

/-! ### The write (R8, R9) -/

/-- The bits of a register whose fields have one of the given access codes. -/
def RegDef.mask (d : RegDef) (p : Acc → Bool) : Word :=
  w32 (d.fields.foldl (fun a f => if p f.acc then a + (2 ^ f.width - 1) * 2 ^ f.lo else a) 0)

/-- RW and RS fields. -/
def RegDef.writable (d : RegDef) : Word := d.mask fun a => a == .rw || a == .rs

/-- W1C fields. -/
def RegDef.clearable (d : RegDef) : Word := d.mask (· == .w1c)

/-- The register after a write: RW and RS fields take the value, W1C fields written 1 clear. -/
def RegDef.after (d : RegDef) (old v : Word) : Word :=
  ((old &&& ~~~ d.writable) ||| (v &&& d.writable)) &&& ~~~ (v &&& d.clearable)

/-- Take the value of a register whose write has been accepted, and log a change of its RW and RS fields (R491). -/
def State.takeReg (s : State) (req : Requester) (off : Nat) (old new logged : Word) : State :=
  (s.setReg off new).logWrite req off old logged

/-- Registers that hold bits [55:32] of a device address. -/
def daHigh : List String :=
  ["KV_RING_BASE_HI", "KV_POOL_SCALE_HI_s", "LOWP_POOL_BASE_HI", "LOWP_TAB_BASE_HI", "LOWP_DUMP_BASE_HI", "TIER_REG_BASE_HI",
   "TIER_PT_BASE_HI", "TIER_NAME0_BASE_HI", "TIER_NAME1_BASE_HI", "TIER_CMD_SRC_HI", "WAKE_POOL_BASE_HI",
   "WAKE_RING_BASE_HI", "SWEEP_GRP_BASE_HI", "HOST_MEMWIN_BASE_HI"]

/-- A write names the Hamada window on a YD1-E (R304). -/
def State.namesFlash (s : State) (off : Nat) (v : Word) : Bool :=
  s.nv.variant == .yd1e && decide (0x20000 ≤ bits v 0 24) && decide (bits v 0 24 < 0x21000) && daHigh.contains (regName off)

/-- The checks of a plain write in R14's order: the presence of what it names, its legality in the device state, its ranges. -/
def State.checked (s : State) (req : Requester) (off : Nat) (v : Word) (go : State → State) : State :=
  match regDef off with
  | none => s.unmapped
  | some d =>
    let old := s.reg off
    if s.namesFlash off v then s.logRefused req off .unitAbsent old v
    else if d.ready ∧ s.dev ≠ .ready then s.logRefused req off .stateInvalid old v
    else if s.rangeBad off (d.after old v) then s.unmapped.logRefused req off .badArgument old v
    else go s

/-- A plain write. -/
def State.writePlain (s : State) (req : Requester) (off : Nat) (v : Word) : State :=
  s.checked req off v fun s =>
    match regDef off with
    | none => s
    | some d =>
      let old := s.reg off
      s.takeReg req off old (d.after old v) ((old &&& ~~~ d.writable) ||| (v &&& d.writable))

end Sys2Proof.Machine
end

