-- ==== Sys2Proof/Machine/Dune.lean ====
section
/-! DEFINITION. The Dune stack controllers (13_dune_stacks.md): the write path with its combining buffer, error handling,
row remapping, channel failure, temperature bands; and the commands about them. The memory holds, for each byte, the
value of the last write granted (R286, R289); an entry of the combining buffer remembers which bytes it holds. -/

namespace Sys2Proof.Machine

/-- Stack of a device address below the Dune range's end. -/
def stackOf (da : Nat) : Nat := da / 0x1000000000

/-- End of the Dune range (Table DRAA.6). -/
def duneEnd : Nat := 0x30000000000

/-- Register offset of stack n (Table DUNE.5). -/
def duneReg (n off : Nat) : Nat := 0x03000000 + n * 0x10000 + off

/-- Logical channel of a stack offset: 8 g + i (Figure DUNE.1). -/
def duneChan (o : Nat) : Nat := o / 256 % 16 * 8 + o / 32 % 8

/-- Row of a stack offset. -/
def duneRow (o : Nat) : Nat := o / 0x400000 % 16384

/-- Bank of a stack offset: the bank field XOR the low row bits. -/
def duneBank (o : Nat) : Nat := (o / 0x20000 % 32) ^^^ (duneRow o % 32)

/-- The physical channel that serves a logical channel (R284, R297): itself, or the spare that replaced it. -/
def Stack.phys (k : Stack) (lchan : Nat) : Nat :=
  match k.spares.find? fun p => p.2 == lchan with
  | some (i, _) => 128 + i
  | none => lchan

/-- Whether a device address below `duneEnd` is served: its stack ONLINE and its channel not failed (R297, R300). -/
def State.served (s : State) (da : Nat) : Bool :=
  let k := s.dune (stackOf da)
  (k.state == .online) && s.locked (stackOf da / 3) && !(k.chFailed.contains (duneChan (da % 0x1000000000)))

/-- Pieces (32 bytes) that cells touch, without repeats. -/
def piecesOf (cs : List Cell) : List Nat := (cs.map fun c => c.1 / 32).dedup

/-- Whether cells hold every byte of a piece. -/
def wholePiece (cs : List Cell) (p : Nat) : Bool :=
  (List.range 32).all fun i => cs.any fun c => c.1 == p * 32 + i

/-- A piece written whole loses its poison and may be logged again (R292). -/
def State.freshPiece (s : State) (p : Nat) : State :=
  let n := stackOf (p * 32)
  let s := s.clearPoison (p * 4) (p * 4 + 4)
  if (s.dune n).logged.contains p then
    s.setDune n { s.dune n with logged := (s.dune n).logged.filter (· != p) }
  else s

/-- Write an entry to the channels (R288): whole pieces clear poison; a partly masked piece that is poisoned, or that the
read finds uncorrectable (`ue`, by piece), stays poisoned and is counted and logged (R290). -/
def State.writeEntry (s : State) (n : Nat) (ue : List Nat) (e : WcbEntry) : State :=
  let s := s.setDune n { s.dune n with wcb := (s.dune n).wcb.filter fun x => x.line != e.line }
  (piecesOf e.bytes).foldl (fun s p =>
    if wholePiece e.bytes p then s.freshPiece p
    else if s.poisoned (p * 32) 32 || ue.contains p then
      let s := (s.bump (duneReg n 0x20) 16 16).poisonPiece (p * 32)
      s.emitUnit 4 n 2 evDuneUe .internal [w32 (p * 32), w32 (p * 32 / 0x100000000)]
    else s) s

/-- An entry whose reads find nothing new is written to the channels. -/
def State.flushEntry (s : State) (n : Nat) (e : WcbEntry) : State := s.writeEntry n [] e

/-- Flush every entry of a stack, oldest first. -/
def State.flushWcb (s : State) (n : Nat) : State := (s.dune n).wcb.foldl (fun s e => s.flushEntry n e) s

/-- The entry after a merge: a later byte replaces an earlier one. -/
def WcbEntry.merge (e : WcbEntry) (cs : List Cell) : WcbEntry :=
  { e with bytes := (e.bytes.filter fun b => !(cs.any fun c => c.1 == b.1)) ++ cs }

/-- Merge bytes into the line's entry, allocating one if need be (R287, R288); with all 512 held the write waits, counted, until
the oldest has been flushed (R291). -/
def State.mergeWcb (s : State) (n line : Nat) (cs : List Cell) : State :=
  let k := s.dune n
  match k.wcb.find? fun e => e.line == line with
  | some e =>
    let e' := e.merge cs
    let s := s.setDune n { k with wcb := k.wcb.map fun x => if x.line == line then e' else x }
    if (piecesOf e'.bytes).all (wholePiece e'.bytes) then s.flushEntry n e' else s
  | none =>
    let s := if 512 ≤ k.wcb.length then
        match k.wcb with
        | e :: _ => (s.bump (duneReg n 0x60) 0 32).flushEntry n e
        | [] => s
      else s
    let k := s.dune n
    s.setDune n { k with wcb := k.wcb ++ [⟨line, cs, s.etc⟩] }

/-- One line's bytes arrive at a stack controller (R285, R287, R297, R300). `key` is the task_key of the writer. -/
def State.duneWriteLine (s : State) (key : Word) (line : Nat) (cs : List Cell) : State :=
  let n := stackOf (line * 256)
  let ok := cs.filter fun c => s.served c.1
  let lost := (piecesOf (cs.filter fun c => !s.served c.1)).length
  let s := if lost = 0 then s else s.bumpBy (duneReg n 0x54) 0 32 lost
  let s := if (s.dune n).state == .stopped && !(lost == 0) then
      s.emitUnit 4 n 2 evDuneUe .internal [key, w32 (line * 256), w32 (line / 0x1000000)]
    else s
  if ok.isEmpty then s
  else
    let s := s.bump64 (duneReg n 0x6C) ok.length
    let s := if ok.length = 256 then s else s.bumpBy (duneReg n 0x74) 0 32 (piecesOf ok).length
    let s := s.store ok
    if (piecesOf ok).all (wholePiece ok) && !((s.dune n).wcb.any fun e => e.line == line) then
      (piecesOf ok).foldl State.freshPiece s
    else s.mergeWcb n line ok

/-- Pieces (32 bytes) that a range touches. -/
def dunePieces (da n : Nat) : List Nat :=
  if n = 0 then [] else (List.range ((da + n - 1) / 32 + 1 - da / 32)).map (da / 32 + ·)

/-- Lines that a range covers whole: its wide requests (R285). -/
def wideIn (da n : Nat) : Nat := (da + n) / 256 - (da + 255) / 256

/-- Pieces of the lines that a range covers in part: its narrow requests (R285). -/
def narrowIn (da n : Nat) : Nat := (dunePieces da n).length - 8 * wideIn da n

/-- A read of `n` bytes that makes `narrow` narrow requests is counted where it is served (Table DUNE.5); a poisoned piece is
counted again (R292). -/
def State.countServed (s : State) (da n narrow : Nat) : State :=
  if duneEnd ≤ da ∨ n = 0 then s
  else
    let k := stackOf da
    let s := (s.bump64 (duneReg k 0x64) n).bumpBy (duneReg k 0x74) 0 32 narrow
    s.bumpBy (duneReg k 0x20) 0 16 ((dunePieces da n).filter fun p => s.poisoned (p * 32) 32).length

/-- A read of a transfer: wide requests for the lines that it covers whole, narrow ones for the rest (R285). -/
def State.countRead (s : State) (da n : Nat) : State := s.countServed da n (narrowIn da n)

/-- A read that R285 makes narrow throughout: page lists, list descriptors, argument blocks, programs, free-frame rings, the
watch table, GATHER indices. -/
def State.countNarrow (s : State) (da n : Nat) : State := s.countServed da n (dunePieces da n).length

/-- Whether the combining buffer holds a byte, so that a read takes it from there (R289). -/
def State.buffered (s : State) (a : Nat) : Bool :=
  (s.dune (stackOf a)).wcb.any fun e => e.line == a / 256 && e.bytes.any fun c => c.1 == a

/-- A poisoned word in a range has a byte there that the combining buffer does not hold. -/
def State.rawPoison (s : State) (da n : Nat) : Bool :=
  s.poison.any fun p => (List.range 8).any fun i =>
    decide (da ≤ p * 8 + i) && decide (p * 8 + i < da + n) && !s.buffered (p * 8 + i)

/-- Whether a read of `n` bytes from the Dune range returns poisoned data. -/
def State.duneReadBad (s : State) (da n : Nat) : Bool :=
  s.rawPoison da n || ((List.range ((da + n - 1) / 32 + 1 - da / 32)).any fun i => !s.served ((da / 32 + i) * 32))

/-- Write an entry of the event log for a channel: kind 5, index stack × 256 + logical channel. -/
def State.emitChan (s : State) (n lchan sev code : Nat) (st : Status) (pl : List Word) : State :=
  s.emitUnit 5 (n * 256 + lchan) sev code st pl

/-- Times within a window that ends now; a window of 0 keeps every time since the start (Table DUNE.5, Table SCULL.6). -/
def within (span now : Nat) (ts : List Nat) : List Nat :=
  if span = 0 then ts else ts.filter fun t => decide (now ≤ t + span)

/-- Remap a row, or refuse (R294, R295, R296). -/
def State.remapRow (s : State) (n lchan bank row : Nat) : State :=
  let k := s.dune n
  let pl := [w32 lchan, w32 bank, w32 row]
  if k.remap.contains (lchan, bank, row) then s
  else if 1024 ≤ k.remap.length then
    (s.bump (duneReg n 0x2C) 16 8).emitChan n lchan 1 evRemapRefused .ok pl
  else if 32 ≤ ((k.remap ++ k.burnt).filter fun e => e.1 == lchan && e.2.1 == bank).length then
    (s.bump (duneReg n 0x2C) 24 8).emitChan n lchan 1 evRemapRefused .ok pl
  else
    let s := s.setDune n { k with remap := k.remap ++ [(lchan, bank, row)] }
    let s : State := { s with nv := { s.nv with repairs := s.nv.repairs ++ [(n, lchan, bank, row)] } }
    (s.bump (duneReg n 0x2C) 0 16).emitChan n lchan 1 evRemap .ok pl

/-- The tracker after one more corrected access to a row: the 64 rows of the channel that most recently erred. -/
def trackRow (tr : List (Nat × Nat × Nat × List Nat)) (lchan bank row now span : Nat) :
    List (Nat × Nat × Nat × List Nat) :=
  let old := (tr.find? fun e => e.1 == lchan && e.2.1 == bank && e.2.2.1 == row).map (·.2.2.2)
  let mine := (tr.filter fun e => e.1 == lchan && !(e.2.1 == bank && e.2.2.1 == row)).take 63
  (lchan, bank, row, now :: within span now (old.getD [])) :: mine ++ tr.filter fun e => e.1 != lchan

/-- A corrected read at a stack offset (R292, R293). -/
def State.duneCorrected (s : State) (n o : Nat) : State :=
  let s := s.bump (duneReg n 0x1C) 0 32
  let c := duneChan o; let b := duneBank o; let r := duneRow o
  let k := s.dune n
  let span := join (s.reg (duneReg n 0x10)) (s.reg (duneReg n 0x14))
  let tr := trackRow k.tracker c b r s.etc span
  let s := s.setDune n { k with tracker := tr }
  let cnt := ((tr.head?.map (·.2.2.2)).getD []).length
  if s.fld (duneReg n 0xC) 4 1 = 1 ∧ max 1 (s.fld (duneReg n 0xC) 0 4) ≤ cnt then s.remapRow n c b r else s

/-- A logical channel fails (R297). -/
def State.channelFail (s : State) (n lchan : Nat) : State :=
  let k := s.dune n
  if k.chFailed.contains lchan then s
  else
    let s := s.setDune n { k with chFailed := k.chFailed ++ [lchan], phyFailed := k.phyFailed ++ [k.phys lchan] }
    let s : State := { s with nv := { s.nv with chRepairs := s.nv.chRepairs ++ [(n, lchan)] } }
    let s := s.emitChan n lchan 2 evChannel .internal [w32 (n * 256 + lchan)]
    s.raiseReg (duneReg n 0x8) 12

/-- An uncorrectable read at a stack offset (R292, R297). -/
def State.duneUncorrectable (s : State) (n o : Nat) : State :=
  let da := n * 0x1000000000 + o
  let p := da / 32
  let c := duneChan o
  let s := (s.bump (duneReg n 0x20) 0 16).poisonPiece da
  let s := if s.fld (duneReg n 0x28) 31 1 = 1 then s
    else
      let s := s.setReg (duneReg n 0x24) (w32 (o / 32 * 32))
      s.setReg (duneReg n 0x28) (w32 (o / 0x100000000 + c * 16 + 0x80000000))
  let s := if (s.dune n).logged.contains p then s
    else
      let s := s.setDune n { s.dune n with logged := p :: (s.dune n).logged }
      s.emitUnit 4 n 2 evDuneUe .internal [w32 (p * 32), w32 (p * 32 / 0x100000000)]
  let span := join (s.reg (duneReg n 0x10)) (s.reg (duneReg n 0x14))
  let k := s.dune n
  let ue := (c, s.etc) :: k.ueTimes.filter fun e => span == 0 || decide (s.etc ≤ e.2 + span)
  let s := s.setDune n { k with ueTimes := ue }
  if max 1 (s.fld (duneReg n 0x18) 0 8) ≤ (ue.filter fun e => e.1 == c).length then s.channelFail n c else s

/-- A command-parity error of a channel after retry: the third in a row fails it (R297). -/
def State.parityError (s : State) (n lchan : Nat) : State :=
  let k := s.dune n
  let c := Tab.get 0 k.parity lchan + 1
  let s := s.setDune n { k with parity := Tab.put 0 k.parity lchan c }
  if 3 ≤ c then s.channelFail n lchan else s

/-- An access of a channel without a command-parity error ends its row of them. -/
def State.parityGood (s : State) (n lchan : Nat) : State :=
  let k := s.dune n
  s.setDune n { k with parity := Tab.put 0 k.parity lchan 0 }

/-- One piece as a read finds it (R485, R292, R297). -/
def State.scrubPiece (s : State) (n o : Nat) (c : PieceCheck) : State :=
  if (s.dune n).chFailed.contains (duneChan o) then s
  else if c = .parity then s.parityError n (duneChan o)
  else
    let s := s.parityGood n (duneChan o)
    if s.poisoned (n * 0x1000000000 + o) 32 then s.bump (duneReg n 0x20) 0 16
    else
      match c with
      | .corrected => s.duneCorrected n o
      | .uncorrectable => s.duneUncorrectable n o
      | _ => s

/-- The band of a temperature on its way up (Table DUNE.3). -/
def bandOf (t : Nat) : Nat :=
  if t < 70 then 0 else if t < 80 then 1 else if t < 90 then 2 else if t < 95 then 3 else if t < 100 then 4 else 5

/-- The lower threshold of a band. -/
def bandLow : Nat → Nat
  | 0 => 0 | 1 => 70 | 2 => 80 | 3 => 90 | 4 => 95 | _ => 100

/-- A band falls while the temperature is 3 °C below its lower threshold (R299). -/
def bandFall (t : Nat) : Nat → Nat
  | 0 => 0
  | b + 1 => if t + 3 ≤ bandLow (b + 1) then bandFall t b else b + 1

/-- The next band. -/
def nextBand (b t : Nat) : Nat := if b < bandOf t then bandOf t else bandFall t b

/-- Stack n loses its contents. -/
def State.dropStack (s : State) (n : Nat) : State :=
  let lo := n * 0x1000000000
  let hi := lo + 0x1000000000
  { s with
    mem := s.mem.filter fun c => decide (c.1 < lo) || decide (hi ≤ c.1)
    poison := s.poison.filter fun p => decide (p < lo / 8) || decide (hi / 8 ≤ p) }

/-- The pieces of an entry that must be read to be written (R288): those that it masks in part. -/
def WcbEntry.parts (e : WcbEntry) : List Nat := (piecesOf e.bytes).filter fun p => !wholePiece e.bytes p

/-- An entry is written to the channels; its reads find what `found` says, by address (R290, R292). -/
def State.flushFound (s : State) (n : Nat) (found : List (Nat × PieceCheck)) (e : WcbEntry) : State :=
  let fs := found.filter fun f => e.parts.contains (f.1 / 32) && s.served f.1
  let s := fs.foldl (fun s f => if f.2 = .uncorrectable then s else s.scrubPiece n (f.1 % 0x1000000000) f.2) s
  s.writeEntry n ((fs.filter fun f => f.2 == .uncorrectable).map fun f => f.1 / 32) e

/-- An entry is due (R288): 8 µs have passed since its allocation (from A + T + 1, R46), or it is the oldest while the buffer
holds 448 entries. -/
def Stack.entryDue (k : Stack) (now : Nat) (e : WcbEntry) : Bool :=
  decide (e.at_ + 8 + 1 ≤ now) || (decide (448 ≤ k.wcb.length) && k.wcb.head? == some e)

/-- WCB_ENTRY_TIMEOUT (R288, R290): an entry that is due is written to the channels. -/
def execWcbEntryTimeout (n line : Nat) (found : List (Nat × PieceCheck)) (s : State) : Result :=
  match (s.dune n).wcb.find? fun e => e.line == line && (s.dune n).entryDue s.etc e with
  | some e => .next (s.flushFound n found e)
  | none => .next s

/-- DUNE_WCB_CTRL.flush is written (R288): every entry goes to the channels; the bit reads 0 again once the flush has ended. -/
def State.wcbFlush (s : State) (n : Nat) (req : Requester) (found : List (Nat × PieceCheck)) : State :=
  s.onReg req (duneReg n 0x5C) 1 fun s =>
    let s := s.logWrite req (duneReg n 0x5C) 0 1
    (s.dune n).wcb.foldl (fun s e => s.flushFound n found e) s

/-- WCB_FLUSH (R288, R290). -/
def execWcbFlush (n : Nat) (req : Requester) (found : List (Nat × PieceCheck)) (s : State) : Result :=
  .next (s.wcbFlush n req found)

/-- BAND_EVALUATION (R299, R300): set the band from the hottest die; band 5 stops the stack, band 3 or below lets it
resume. -/
def execBandEvaluation (n temp : Nat) (s : State) : Result :=
  let k := s.dune n
  if s.background ∧ n < 48 ∧ (k.state = .online ∨ k.state = .stopped) then
    let b := nextBand k.band temp
    let s := s.setDune n { k with band := b, bandMax := max k.bandMax b, temp := temp }
    if b = k.band then .next s
    else
      let s := s.emitUnit 4 n (if b = 5 then 2 else 1) evBand .ok [w32 k.band, w32 b, w32 temp]
      let s := if k.band < b ∧ s.fld (duneReg n 0x8) 9 3 ≤ b then s.raiseReg (duneReg n 0x8) 8 else s
      if b = 5 then
        let s := s.flushWcb n
        let s := s.setDune n { s.dune n with state := .stopped, band5At := some s.etc }
        .next ((s.bump (duneReg n 0x4) 16 16).raiseReg (duneReg n 0x8) 12)
      else if b ≤ 3 then .next (s.setDune n { s.dune n with state := .online, band5At := none })
      else .next (s.setDune n { s.dune n with band5At := none })
  else .next s

/-- STACK_POWER_REMOVE (R300): after 100 ms at band 5 the stack's power is removed; its contents are lost and it is
FAILED until the next start. -/
def execStackPowerRemove (n : Nat) (s : State) : Result :=
  let k := s.dune n
  if s.power = .on ∧ n < 48 ∧ k.state = .stopped ∧ k.band = 5 ∧ (k.band5At.any fun a => decide (a + 100000 < s.etc)) then
    let s := (s.setDune n { k with state := .failed, wcb := [], logged := [] }).dropStack n
    .next (s.emitUnit 4 n 2 evBand .internal [w32 5, w32 5, w32 k.temp])
  else .next s

/-- DUNE_PHY_CAL (R484, R297): a calibration visit to a channel; a failed check fails the channel. -/
def execDunePhyCal (n lchan : Nat) (ok : Bool) (s : State) : Result :=
  if s.background ∧ n < 48 ∧ lchan < 128 ∧ (s.dune n).state = .online ∧ ok = false then .next (s.channelFail n lchan)
  else .next s

end Sys2Proof.Machine
end

