-- ==== Sys2Proof/Machine/Memory.lean ====
section
/-! DEFINITION. The regions of the device address space (R23), who may reach them, and the write path by region. -/

namespace Sys2Proof.Machine

/-- The regions of Table DRAA.6. -/
inductive Region where
  | dune | host | flash | peer | crewStore | scullStore
deriving DecidableEq, Repr

def flashBase : Nat := 0x02000000000000
def flashEnd : Nat := 0x02100000000000
def peerBase : Nat := 0x03000000000000
def peerEnd : Nat := 0x04000000000000
def crewBase : Nat := 0x0F000000000000
def crewEnd : Nat := 0x0F0000C0000000
def scullBase : Nat := 0x0F000100000000
def scullEnd : Nat := 0x0F000280000000

/-- The region of a device address; none: unmapped. -/
def regionOf (da : Nat) : Option Region :=
  if da < duneEnd then some .dune
  else if hostBase ≤ da ∧ da < hostEnd then some .host
  else if flashBase ≤ da ∧ da < flashEnd then some .flash
  else if peerBase ≤ da ∧ da < peerEnd then some .peer
  else if crewBase ≤ da ∧ da < crewEnd then some .crewStore
  else if scullBase ≤ da ∧ da < scullEnd then some .scullStore
  else none

/-- The crew of a crew-store address. -/
def crewOfDa (da : Nat) : Nat := (da - crewBase) / 0x400000

/-- The scull of a local-store address. -/
def scullOfDa (da : Nat) : Nat := (da - scullBase) / 0x80000

/-- Whether a range touches a scull's staging buffers (Table SCULL.4): offset 0x7_0000 and above. -/
def touchesStaging (da n : Nat) : Bool :=
  let o := (da - scullBase) % 0x80000
  decide (0x70000 < o + n)

/-- Table SWEEP.12: the module bound to an aperture. -/
def State.apertureId (s : State) (a : Nat) : Nat := s.fld (0x02060200 + 4 * a) 0 13

/-- SWEEP_ROUTE at a module id. -/
def State.routeOf (s : State) (id : Nat) : Nat := s.fld (0x02080000 + 4 * id) 0 5

/-- A peer is admitted while the route to its id leaves through an ADMITTED port (R361). -/
def State.peerAdmitted (s : State) (id : Nat) : Bool :=
  decide (s.routeOf id < 18) && (s.port (s.routeOf id)).state == .admitted

/-- Lines of 256 bytes that cells touch, without repeats. -/
def linesOf (cs : List Cell) : List Nat := (cs.map fun c => c.1 / 256).dedup

/-- Bytes arrive in a local or crew store (R96, R97): whole 64-bit words lose their mark. -/
def State.storeLocal (s : State) (cs : List Cell) : State :=
  ((cs.map fun c => c.1 / 8).dedup).foldl (fun s w =>
    if (List.range 8).all fun i => cs.any fun c => c.1 == w * 8 + i then s.clearPoison w (w + 1) else s) (s.store cs)

/-- The flash can be read and written: provisioned with its key, and its island locked (R38, R464, Table RAS.4). -/
def State.flashOpen (s : State) : Bool := !s.flashGone && s.nv.flashKey && s.locked 34

/-- One line of a write reaches its region. A write to the store of a unit that is not GOOD is lost (R20); writes to
peer apertures leave as frames and never come here. -/
def State.writeLine (s : State) (key : Word) (line : Nat) (cs : List Cell) : State :=
  match regionOf (line * 256) with
  | some .dune => s.duneWriteLine key line cs
  | some .host => s.store cs
  | some .flash => if s.flashOpen then s.store cs else s
  | some .crewStore => if (s.crew (crewOfDa (line * 256))).state == .good then s.storeLocal cs else s
  | some .scullStore => if (s.scull (scullOfDa (line * 256))).state == .good then s.storeLocal cs else s
  | some .peer => s
  | none => s

/-- Write cells, line by line; `key` is the task_key of the writer. -/
def State.write (s : State) (key : Word) (cs : List Cell) : State :=
  (linesOf cs).foldl (fun s l => s.writeLine key l (cs.filter fun c => c.1 / 256 == l)) s

/-- Whether a read of a range returns data that is not good: poisoned, a Dune stack that does not serve it, a closed
store, a flash that is absent or unreadable (R102, R300, R105, Table RAS.4). -/
def State.readBad (s : State) (da n : Nat) : Bool :=
  match regionOf da with
  | some .dune => s.duneReadBad da n
  | some .crewStore => s.poisoned da n || (s.crew (crewOfDa da)).state != .good
  | some .scullStore => s.poisoned da n || (s.scull (scullOfDa da)).state != .good
  | some .flash => !s.flashOpen ||
      (s.nv.badPages.any fun p => decide (da < flashBase + p * 16384 + 16384) && decide (flashBase + p * 16384 < da + n))
  | _ => false

/-- Whether `n` bytes from `da` are wholly inside one stack range, aligned to `a`. -/
def inDune (da n a : Nat) : Bool := decide (da + n ≤ duneEnd) && decide (da % a = 0)

end Sys2Proof.Machine
end

