-- ==== Sys2Proof/Machine/Tier.lean ====
section
/-! DEFINITION. Memory tiers (14_tiers_and_migration.md): registered tensors, redirection, heat, promotion, eviction and
the commands of TIER_CMD. -/

namespace Sys2Proof.Machine

/-- Bytes of a tier page and frame: 2 MiB. -/
def tierPage : Nat := 0x200000

/-- Pages of a tensor. -/
def Tensor.pages (t : Tensor) : Nat := (t.size + tierPage - 1) / tierPage

/-- Name regions 0 and 1: base and pages (Table TIER.7). -/
def State.nameRegion (s : State) (r : Nat) : Nat × Nat :=
  if r = 0 then (join (s.reg 0x02030014) (s.reg 0x02030018), (s.reg 0x0203001C).toNat)
  else (join (s.reg 0x02030020) (s.reg 0x02030024), (s.reg 0x02030028).toNat)

/-- Whether a name lies wholly inside region r. -/
def State.nameIn (s : State) (r name size : Nat) : Bool :=
  let (b, p) := s.nameRegion r
  decide (b ≤ name) && decide (name + size ≤ b + p * tierPage)

/-- Page-table DA of the page at a name address (R307). -/
def State.pteDa (s : State) (da : Nat) : Nat :=
  let base := join (s.reg 0x0203000C) (s.reg 0x02030010)
  let (b0, p0) := s.nameRegion 0
  let (b1, _) := s.nameRegion 1
  if s.nameIn 0 da 1 then base + 8 * ((da - b0) / tierPage) else base + 8 * (p0 + (da - b1) / tierPage)

/-- Registry entry of an index (R308). -/
def State.regEntryDa (s : State) (i : Nat) : Nat := join (s.reg 0x02030000) (s.reg 0x02030004) + 64 * i

/-- The registered tensor and page at a device address (R305). -/
def State.named (s : State) (da : Nat) : Option (Nat × Nat) :=
  (s.tier.tensors.find? fun e =>
    e.2.state != .unregistered && decide (e.2.name ≤ da) && decide (da < e.2.name + e.2.pages * tierPage)).map
      fun e => (e.1, (da - e.2.name) / tierPage)

/-- Frames the pool names (R306), in rising order of number; a number above a stack's 32,768 is not a frame. -/
def State.poolFrames (s : State) : List Nat :=
  (List.range 48).flatMap fun n =>
    let r := s.reg (0x02030100 + 4 * n)
    ((List.range (bits r 15 16)).filter fun i => decide (bits r 0 15 + i < 32768)).map fun i => 32768 * n + bits r 0 15 + i

/-- Frames that tensors hold. -/
def State.usedFrames (s : State) : List Nat := s.tier.tensors.flatMap fun e => e.2.frames

/-- Pool frames that no tensor holds. -/
def State.freeFrames (s : State) : List Nat := s.poolFrames.filter fun f => !(s.usedFrames.contains f)

/-- A tensor's heat: the largest among its pages (R314). -/
def Tensor.hot (t : Tensor) : Nat := t.heat.foldl (fun m e => max m e.2) 0

/-- No task holds a pin. -/
def Tensor.unpinned (t : Tensor) : Bool := t.pinsR.isEmpty && t.pinsW.isEmpty

/-- Code of a tensor state (Table TIER.5). -/
def TensorState.code : TensorState → Nat
  | .unregistered => 0 | .atHome => 1 | .copyIn => 2 | .recompute => 3 | .resident => 4 | .copyOut => 5

/-- Whether the tensor's pages are in frames for a given reader. -/
def Tensor.inT1 (t : Tensor) : Bool := t.state == .resident || t.state == .copyOut

/-- The engine writes the page-table entry of a page (Table TIER.2). -/
def State.putPte (s : State) (i pg : Nat) : State :=
  let t := s.tensor i
  let frame := if t.inT1 then t.frames.getD pg 0 else 0
  let v := if t.state == .unregistered then 0
    else min (Tab.get 0 t.heat pg) 65535 + i * 0x10000 + 0x1000000000 + frame * 0x2000000000
  s.write 0 (cellsAt (s.pteDa (t.name + pg * tierPage)) (leBytes 8 v))

/-- The engine writes words 0x38 to 0x3F of the registry entry (Table TIER.3). -/
def State.putRegEntry (s : State) (i : Nat) : State :=
  let t := s.tensor i
  let v := t.state.code + b2n t.dirty * 8 + (t.pinsR ++ t.pinsW).dedup.length % 65536 * 16
  s.write 0 (cellsAt (s.regEntryDa i + 0x38) (leBytes 4 v ++ leBytes 4 (min t.moves 0xFFFFFFFF)))

/-- Change a tensor and show it in the registry. -/
def State.updTensor (s : State) (i : Nat) (t : Tensor) : State := (s.setTensor i t).putRegEntry i

/-- Change a tensor and show it in the registry and in every page-table entry. -/
def State.moveTensor (s : State) (i : Nat) (t : Tensor) : State :=
  (List.range t.pages).foldl (fun s pg => s.putPte i pg) (s.updTensor i t)

/-- Where an access to an address goes (R312); `rc` is the tensor that the accessing task recomputes, if any. -/
def State.redirect (s : State) (rc : Option Nat) (da : Nat) : Nat :=
  match s.named da with
  | some (i, pg) =>
    let t := s.tensor i
    if t.state == .resident || (t.state == .recompute && rc == some i) then
      t.frames.getD pg 0 * tierPage + da % tierPage
    else da
  | none => da

/-- Requests that a range makes (R285, R314): one for each line it covers whole, one for each piece otherwise. -/
def requestsIn (lo n : Nat) : Nat := wideIn lo n + narrowIn lo n

/-- Moves that run (R318). -/
def State.moves (s : State) : Nat :=
  (s.tier.tensors.filter fun e => e.2.state == .copyIn || e.2.state == .copyOut).length

/-- Whether the engine may start moves: not in QUIESCING or later (R324), and fewer than 8 run (R318). -/
def State.mayMove (s : State) : Bool := (s.dev == .ready || s.dev == .running) && decide (s.moves < 8)

/-- Free a tensor's frames: it is AT_HOME. -/
def State.sendHome (s : State) (i : Nat) : State :=
  s.moveTensor i { s.tensor i with state := .atHome, frames := [], dirty := false }

/-- Evict a RESIDENT tensor (R317): a clean copy is dropped, a dirty one starts its write-back. -/
def State.evictNow (s : State) (i : Nat) : State :=
  if (s.tensor i).dirty then s.updTensor i { s.tensor i with state := .copyOut }
  else (s.sendHome i).bump 0x02030078 0 16

/-- Apply the halvings of heat that ETC has brought (R314): one for each span since the last one applied. -/
def State.settleHeat (s : State) : State :=
  let span := (s.reg 0x02030030).toNat
  let n := if span = 0 then 0 else (s.etc - s.tier.decayAt) / span
  if n = 0 then s
  else
    let fall (h : Nat × Nat) : Option (Nat × Nat) :=
      if h.2 / 2 ^ min n 16 = 0 then none else some (h.1, h.2 / 2 ^ min n 16)
    let half (t : Tensor) : Tensor := { t with heat := t.heat.filterMap fall }
    { s with tier := { s.tier with
      decayAt := s.tier.decayAt + n * span
      tensors := s.tier.tensors.map fun e => (e.1, half e.2) } }

/-- Every pin of the tensor was taken in this very microsecond: its taking and an evictor's choice may have raced (R319). -/
def State.pinnedNow (s : State) (t : Tensor) : Bool :=
  !t.unpinned && (t.pinsR ++ t.pinsW).all fun id => (s.task id).state == .running && (s.task id).startedAt == s.etc

/-- The next tensor that the evictor chooses (R315, R316): pref_t1 = 0 first, then lowest heat, then lowest index; a dirty one
only where a move may start; none that it has passed over. A tensor pinned in this microsecond may have been chosen before
its pin was taken. -/
def State.candidate (s : State) (dirtyOk : Bool) (passed : List Nat) : Option Nat :=
  let thr := s.fld 0x0203002C 16 16
  let cs := s.tier.tensors.filter fun e => e.2.state == .resident && (e.2.unpinned || s.pinnedNow e.2) &&
    decide (e.2.hot < thr) && (dirtyOk || !e.2.dirty) && !passed.contains e.1
  (cs.foldl (fun (best : Option (Nat × Tensor)) e =>
    match best with
    | none => some e
    | some b =>
      if decide (b2n e.2.prefT1 < b2n b.2.prefT1) || (e.2.prefT1 == b.2.prefT1 && decide (e.2.hot < b.2.hot)) then some e
      else some b) none).map (·.1)

/-- Evict candidates until `n` frames are free or none is left, starting write-backs only while more than `keep` moves may
start; `fuel` bounds them. Where a pin taken in the same microsecond wins over the choice, the eviction is refused with
EVICT_DEFERRED and the next candidate taken (R319); whether it had been chosen by then is free (log entry 79). -/
def State.makeRoom (s : State) (n keep : Nat) (passed : List Nat) : Nat → State
  | 0 => s
  | fuel + 1 =>
    let s := s.settleHeat
    if n ≤ s.freeFrames.length then s
    else match s.candidate (s.mayMove && decide (s.moves + keep < 8)) passed with
      | some i =>
        if (s.tensor i).unpinned then (s.evictNow i).makeRoom n keep passed fuel
        else
          let (v, s) := s.draw
          (if v.getLsbD 0 then s.bump 0x02030078 16 16 else s).makeRoom n keep (i :: passed) fuel
      | none => s

/-- The low mark (R316): the evictor runs while free frames are below TIER_LOW. -/
def State.lowFrames (s : State) : State :=
  if s.freeFrames.length < s.fld 0x02030034 0 21 then s.makeRoom (s.fld 0x02030034 0 21) 0 [] s.tier.tensors.length else s

/-- Take `n` frames, the lowest free ones, all or none. -/
def State.takeFrames (s : State) (n : Nat) : Option (List Nat) :=
  let f := s.freeFrames.take n
  if f.length = n then some f else none

/-- Request the promotion of an AT_HOME tensor (R316). -/
def State.promote (s : State) (i : Nat) : State :=
  if (s.tensor i).state == .atHome && s.mayMove then
    let n := (s.tensor i).pages
    let s := s.makeRoom n 1 [] s.tier.tensors.length
    match s.takeFrames n with
    | some f => (s.updTensor i { s.tensor i with state := .copyIn, frames := f }).lowFrames
    | none => s.bump 0x02030074 16 16
  else s

/-- Add `k` requests to a page's heat; reaching the promote threshold requests promotion (R314, R315). -/
def State.heatPage (s : State) (i pg k : Nat) : State :=
  let s := s.settleHeat
  let t := s.tensor i
  let h := min (Tab.get 0 t.heat pg + k) 65535
  let s := (s.setTensor i { t with heat := Tab.put 0 t.heat pg h }).putPte i pg
  if Tab.get 0 t.heat pg < s.fld 0x0203002C 0 16 ∧ s.fld 0x0203002C 0 16 ≤ h then s.promote i else s

/-- A task's access of a range counts in the heat of each registered page it touches. -/
def State.heatRange (s : State) (da n : Nat) : State :=
  if n = 0 then s
  else
    (List.range ((da + n - 1) / tierPage + 1 - da / tierPage)).foldl (fun s j =>
      let lo := max da ((da / tierPage + j) * tierPage)
      let hi := min (da + n) ((da / tierPage + j + 1) * tierPage)
      match s.named lo with
      | some (i, pg) => s.heatPage i pg (requestsIn lo (hi - lo))
      | none => s) s

/-- The bytes of a tensor's pages, whole (R313), from its frames to its home or back. -/
def State.tensorCells (s : State) (i : Nat) (toHome : Bool) : List Cell :=
  let t := s.tensor i
  (List.range t.pages).flatMap fun pg =>
    let f := t.frames.getD pg 0 * tierPage
    let h := t.name + pg * tierPage
    if toHome then cellsAt h (s.load f tierPage) else cellsAt f (s.load h tierPage)

/-- The places that a move of the tensor reads, to count them at their stacks. -/
def State.countMove (s : State) (i : Nat) : State :=
  (s.tensor i).frames.foldl (fun s f => s.countRead (f * tierPage) tierPage) s

/-- Log an event of the tier engine. -/
def State.emitTier (s : State) (sev : Nat) (st : Status) (pl : List Word) : State := s.emitUnit 10 0 sev evTier st pl

/-- A command ends with a status. -/
def State.endTierCmd (s : State) (st : Status) : State :=
  { s with tier := { s.tier with cmd := none, status := st, loading := [] } }

/-- A REGISTER or LOAD names a home in T3 on a module without flash (R304): a registry entry whose name lies in the Hamada
window or in region 1; a LOAD of anything but a tensor with its home in T2, since it writes the flash. -/
def State.tierAbsent (s : State) (op i : Nat) : Bool :=
  !s.hasFlash && (
    let name := s.loadNat (s.regEntryDa i + 8) 8 % 2 ^ 56
    (op == 1 && (regionOf name == some .flash || s.nameIn 1 name 1)) ||
    (op == 3 && ((s.tensor i).state == .unregistered || s.nameIn 1 (s.tensor i).name 1)))

/-- A write to TIER_CMD, checked in R14's order (R304, R323): the presence of what it names, the device state, BUSY. A write
that is refused leaves the command in progress and its status; one that is accepted enters the register. -/
def State.tierCmd (s : State) (req : Requester) (op i : Nat) (go : State → State) : State :=
  let v := w32 (op + i * 16)
  let old := s.reg 0x02030060
  s.onReg req 0x02030060 v fun s =>
  let legal := s.dev == .ready || s.dev == .running || (s.dev == .quiescing && op == 4)
  let absent := s.tierAbsent op i
  let taken := (s.setReg 0x02030060 v).logWrite req 0x02030060 old v
  if absent && (!legal || s.tier.cmd.isSome) then s.logRefused req 0x02030060 .unitAbsent old v
  else if !legal then s.logRefused req 0x02030060 .stateInvalid old v
  else if s.tier.cmd.isSome then (s.bump 0x118 16 16).logRefused req 0x02030060 .busy old v
  else if absent then taken.endTierCmd .unitAbsent
  else go taken

/-- An 8-byte little-endian field of a list of bytes. -/
def field (bs : List Byte) (off n : Nat) : Nat := leNat n (bs.drop off)

/-- The status of a REGISTER of index i once presence and device state are checked (R309). -/
def State.registerCheck (s : State) (i : Nat) : Status :=
  let e := s.load (s.regEntryDa i) 64
  let w0 := field e 0 8
  let name := field e 8 8
  let size := field e 16 8
  let base := field e 24 8
  let scale := field e 32 8
  let recomp := field e 48 8
  let reg1 := s.nameIn 1 name 1
  let pages := (size + tierPage - 1) / tierPage
  if w0 % 2 = 0 ∨ 32 ≤ w0 ∨ 2 ^ 56 ≤ name ∨ 2 ^ 40 ≤ size ∨ 2 ^ 56 ≤ base ∨ 2 ^ 56 ≤ scale ∨ 2 ^ 56 ≤ recomp
      ∨ 2 ^ 20 ≤ field e 0x38 4 ∨ (s.reg 0x02030008).toNat ≤ i then .badArgument
  else if size = 0 ∨ 2 ^ 36 < size ∨ name % tierPage ≠ 0 then .badArgument
  else if !(s.nameIn 0 name size) && !(s.nameIn 1 name size) then .badArgument
  else if (s.tier.tensors.any fun x => x.2.state != .unregistered &&
      decide (x.2.name < name + pages * tierPage) && decide (name < x.2.name + x.2.pages * tierPage)) then .badArgument
  else if (base ≠ 0 ∧ duneEnd ≤ base) ∨ (scale ≠ 0 ∧ duneEnd ≤ scale) ∨ (recomp ≠ 0 ∧ duneEnd ≤ recomp) then .badArgument
  else if base ≠ 0 ∧ scale = 0 then .badArgument
  else if reg1 && decide (flashBase + s.flashBytes < name + size) then .badArgument
  else if natBit w0 1 && decide (s.poolFrames.length < pages) then .badArgument
  else if (s.tensor i).state != .unregistered then .busy
  else .ok

/-- The tensor that an entry describes. -/
def tensorOf (e : List Byte) : Tensor :=
  { Tensor.none with
    state := .atHome
    prefT1 := natBit (field e 0 8) 1
    dlClass := field e 0 8 / 4 % 8
    name := field e 8 8
    size := field e 16 8
    shBase := field e 24 8
    shScale := field e 32 8
    shStride := field e 40 4
    shScaleStride := field e 44 4
    recomp := field e 48 8 }

/-- REGISTER (R309): fill the page entries, heat 0, AT_HOME; a tensor that prefers T1 requests promotion at once. -/
def execTierRegister (i : Nat) (req : Requester) (s : State) : Result :=
  .next (s.tierCmd req 1 i fun s =>
    let st := s.registerCheck i
    let s := s.endTierCmd st
    if st == .ok then
      let t := tensorOf (s.load (s.regEntryDa i) 64)
      let s := s.moveTensor i t
      if t.prefT1 then s.promote i else s
    else s)

/-- Clear an index: its page entries, its registry state, its frames. -/
def State.dropTensor (s : State) (i : Nat) : State :=
  let t := s.tensor i
  let s := s.moveTensor i { t with state := .unregistered, frames := [], dirty := false }
  s.setTensor i Tensor.none

/-- UNREGISTER of a tensor (Table TIER.6): BUSY while it is pinned or comes in; a dirty copy is written back first, once a move
may start (R318), and the command ends with the write-back. -/
def State.unregisterGo (s : State) (i : Nat) : State :=
  let t := s.tensor i
  let hold (s : State) : State := { s with tier := { s.tier with cmd := some (2, i) } }
  if t.state == .unregistered then s.endTierCmd .badArgument
  else if !t.unpinned || t.state == .copyIn || t.state == .recompute then s.endTierCmd .busy
  else if t.state == .resident && t.dirty then
    hold (if s.mayMove then s.updTensor i { t with state := .copyOut } else s)
  else if t.state == .copyOut then hold s
  else (s.dropTensor i).endTierCmd .ok

/-- UNREGISTER (R323). -/
def execTierUnregister (i : Nat) (req : Requester) (s : State) : Result :=
  .next (s.tierCmd req 2 i fun s => s.unregisterGo i)

/-- LOAD (R323, R304): copy size bytes from TIER_CMD_SRC into a region-1 home; it ends at TIER_CMD_COMPLETE. -/
def execTierLoad (i : Nat) (req : Requester) (host : List Cell) (s : State) : Result :=
  .next (s.tierCmd req 3 i fun s =>
    let t := s.tensor i
    let src := join (s.reg 0x02030064) (s.reg 0x02030068)
    let inHost := decide (hostBase ≤ src) && decide (src + t.size ≤ hostEnd)
    let overlap := s.tier.tensors.any fun x => x.2.state != .unregistered &&
      decide (x.2.name < src + t.size) && decide (src < x.2.name + x.2.pages * tierPage)
    if t.state != .atHome || !t.unpinned || !(s.nameIn 1 t.name 1) || !(inDune src t.size 1 || inHost) || overlap then
      s.endTierCmd .badArgument
    else
      let s := (s.seeHost host).countRead src t.size
      { s with tier := { s.tier with cmd := some (3, i), loading := cellsAt t.name (s.load src t.size) } })

/-- A FLUSH with an index in the register, which it does not use. -/
def State.tierFlush (s : State) (req : Requester) (i : Nat) : State :=
  s.tierCmd req 4 i fun s => { s with tier := { s.tier with cmd := some (4, i) } }

/-- FLUSH (R323): write back every dirty copy; tensors stay RESIDENT; it ends at TIER_CMD_COMPLETE. -/
def execTierFlush (req : Requester) (s : State) : Result := .next (s.tierFlush req 0)

/-- An op that Table TIER.6 reserves. -/
def State.tierReserved (s : State) (req : Requester) (op i : Nat) : State :=
  s.tierCmd req op i fun s => s.endTierCmd .badArgument

/-- PROMOTE (R323): request promotion at once. -/
def execTierPromote (i : Nat) (req : Requester) (s : State) : Result :=
  .next (s.tierCmd req 5 i fun s =>
    if (s.tensor i).state == .atHome then (s.endTierCmd .ok).promote i else s.endTierCmd .badArgument)

/-- EVICT of a tensor (R319): a RESIDENT one without pins goes at once, a dirty one as soon as a move may start (R318); a pinned or
moving one is refused. -/
def State.evictGo (s : State) (i : Nat) : State :=
  let t := s.tensor i
  let refuse := (s.bump 0x02030078 16 16).endTierCmd .evictDeferred
  match t.state with
  | .unregistered => s.endTierCmd .badArgument
  | .atHome => s.endTierCmd .ok
  | .resident =>
    if !t.unpinned then refuse
    else if t.dirty && !s.mayMove then { s with tier := { s.tier with cmd := some (6, i) } }
    else (s.evictNow i).endTierCmd .ok
  | _ => refuse

/-- EVICT (R323). -/
def execTierEvict (i : Nat) (req : Requester) (s : State) : Result :=
  .next (s.tierCmd req 6 i fun s => s.evictGo i)

/-- A move has ended: a command that waits for one goes on (R318). -/
def State.moveEnded (s : State) : State :=
  match s.tier.cmd with
  | some (2, i) => if (s.tensor i).state == .copyOut then s else s.unregisterGo i
  | some (6, i) => if (s.tensor i).state == .copyOut then s.endTierCmd .ok else s.evictGo i
  | _ => s

/-- HEAT_DECAY (R314): the halvings that are due are made and shown in the page table. Requests and the evictor apply them too,
so that a late HEAT_DECAY changes no heat. -/
def execHeatDecay (s : State) : Result :=
  let t := s.settleHeat
  if s.power = .on ∧ t.tier.decayAt ≠ s.tier.decayAt then
    .next (t.tier.tensors.foldl (fun s e => (List.range e.2.pages).foldl (fun s pg => s.putPte e.1 pg) s) t)
  else .next s

/-- TIER_DECAY has been written: the span restarts (log entry 80). -/
def State.restartDecay (s : State) : State := { s with tier := { s.tier with decayAt := s.etc } }

end Sys2Proof.Machine
end

