-- ==== Sys2Proof/Machine/Operands.lean ====
section
/-! DEFINITION. Operand forms: the fields of a descriptor (Table TASK.2), operand records (Table MAP.3) and stream records
(Table VEC.2), the ranges they name, and the address checks of R25 and R384. -/

namespace Sys2Proof.Machine

/-! ### Descriptor fields -/

/-- Word i of the descriptor. -/
def Task.word (t : Task) (i : Nat) : Word := t.words.getD i 0

/-- Bits [lo + n − 1 : lo] of word i. -/
def Task.wf (t : Task) (i lo n : Nat) : Nat := bits (t.word i) lo n

/-- The 64 bits of words i and i + 1. -/
def Task.wide (t : Task) (i : Nat) : Nat := join (t.word i) (t.word (i + 1))

/-- The DA in words i and i + 1. -/
def Task.daAt (t : Task) (i : Nat) : Nat := t.wide i % 2 ^ 56

def Task.kind (t : Task) : Nat := t.wf 0 0 4
def Task.cmpl (t : Task) : Bool := t.wf 0 8 1 = 1
def Task.irq (t : Task) : Bool := t.wf 0 9 1 = 1
def Task.barrier (t : Task) : Bool := t.wf 0 10 1 = 1
def Task.steal (t : Task) : Nat := t.wf 0 11 2
def Task.homeCrew (t : Task) : Nat := t.wf 0 16 10
def Task.key (t : Task) : Nat := t.wf 1 0 24
def Task.layerTag (t : Task) : Nat := t.wf 2 0 12
def Task.holdLines (t : Task) : Nat := t.wf 2 16 11
def Task.waitCtr (t : Task) : Nat := t.wf 3 0 16
def Task.signalCtr (t : Task) : Nat := t.wf 3 16 16
def Task.waitVal (t : Task) : Word := t.word 4
def Task.signalAdd (t : Task) : Nat := t.wf 5 0 16
def Task.argsDa (t : Task) : Nat := (t.word 6).toNat + t.wf 7 0 24 * 2 ^ 32
def Task.argsLen (t : Task) : Nat := t.wf 7 24 4

/-- Kinds (Table TASK.1). -/
def kMatmul : Nat := 1
def kConv : Nat := 2
def kVecprog : Nat := 3
def kAttend : Nat := 4
def kKvappend : Nat := 5
def kCopy : Nat := 6
def kGather : Nat := 7
def kReduce : Nat := 8
def kCollect : Nat := 9
def kFence : Nat := 10
def kSignal : Nat := 11

/-- A byte of a block that was read with the descriptor (R111). -/
def Task.blkByte (t : Task) (da : Nat) : Byte := Tab.get 0 t.blocks da

/-- A number of `n` bytes of such a block. -/
def Task.blkNat (t : Task) (da n : Nat) : Nat := leNat n ((List.range n).map fun i => t.blkByte (da + i))

/-- A number of `n` bytes at an offset of the argument block. -/
def Task.arg (t : Task) (off n : Nat) : Nat := t.blkNat (t.argsDa + off) n

/-- Bytes of a run's operand image: what its reads brought in. -/
def Task.imgByte (t : Task) (da : Nat) : Byte := Tab.get 0 t.image da

/-- A number of `n` bytes of the image. -/
def Task.imgNat (t : Task) (da n : Nat) : Nat := leNat n ((List.range n).map fun i => t.imgByte (da + i))

/-- The first status whose check fails, in order; OK when none does (R14). -/
def firstFail : List (Bool × Status) → Status
  | [] => .ok
  | (b, st) :: r => if b then st else firstFail r

/-- Reserved fields and ranges of the common header (R114). -/
def Task.headerBad (t : Task) : Bool :=
  t.wf 0 4 4 != 0 || t.wf 0 13 3 != 0 || t.wf 0 26 6 != 0 || t.wf 1 24 8 != 0 || t.wf 2 12 4 != 0 || t.wf 2 27 5 != 0 ||
  t.wf 5 16 16 != 0 || t.wf 7 28 4 != 0 || t.steal == 3 || decide (1024 < t.holdLines) || decide (8 < t.argsLen) ||
  (decide (768 ≤ t.homeCrew) && decide (t.homeCrew < 1023))

/-! ### Ranges and the address checks -/

/-- The ranges of one operand: whether it is written, and its (DA, bytes). -/
structure Opd where
  out  : Bool
  rngs : List (Nat × Nat)
deriving DecidableEq, Repr

/-- An operand that is read. -/
def rdOpd (rs : List (Nat × Nat)) : Opd := ⟨false, rs.filter fun r => r.2 != 0⟩

/-- An operand that is written. -/
def wrOpd (rs : List (Nat × Nat)) : Opd := ⟨true, rs.filter fun r => r.2 != 0⟩

/-- Whether a range touches a place whose unit is absent (R25, presence). -/
def State.rangeAbsent (s : State) (da n : Nat) : Bool :=
  (!s.hasFlash && decide (da < flashEnd) && decide (flashBase < da + n)) ||
  ((s.dunes.any fun k => (k.2.state == .offline || k.2.state == .failed) &&
    decide (da < (k.1 + 1) * 0x1000000000) && decide (k.1 * 0x1000000000 < da + n)) && decide (da < duneEnd))

/-- Whether a range leaves the region that it starts in, or starts in none; a peer offset must lie in the peer's Dune
range (R23, R362). -/
def rangeCrosses (da n : Nat) : Bool :=
  match regionOf da with
  | none => true
  | some .peer =>
    regionOf (da + n - 1) != some .peer ||
    decide (duneEnd ≤ (da - peerBase) % 0x40000000000) ||
    decide ((da - peerBase) / 0x40000000000 ≠ (da + n - 1 - peerBase) / 0x40000000000) ||
    decide (duneEnd < (da - peerBase) % 0x40000000000 + n)
  | r => regionOf (da + n - 1) != r

/-- The apertures that a range touches name an admitted peer. -/
def State.rangePeerBad (s : State) (da : Nat) : Bool :=
  regionOf da == some .peer && (s.fld (0x02060200 + 4 * ((da - peerBase) / 0x40000000000)) 31 1 == 0 ||
    !s.peerAdmitted (s.apertureId ((da - peerBase) / 0x40000000000)))

/-- Whether a range touches the store of a scull that is not GOOD. -/
def State.rangeTileBad (s : State) (da n : Nat) : Bool :=
  regionOf da == some .scullStore && ((List.range (scullOfDa (da + n - 1) + 1 - scullOfDa da)).any fun i =>
    (s.scull (scullOfDa da + i)).state != .good)

/-- Whether a range touches the store of a crew that is not GOOD. -/
def State.rangeCrewBad (s : State) (da n : Nat) : Bool :=
  regionOf da == some .crewStore && ((List.range (crewOfDa (da + n - 1) + 1 - crewOfDa da)).any fun i =>
    (s.crew (crewOfDa da + i)).state != .good)

/-- Partition p's class bit: true for BE (SCHED_PART_p_CFG). -/
def State.partBE (s : State) (p : Nat) : Bool := s.fld (0x02070000 + 16 * p) 1 1 = 1

/-- Partition p is in use. -/
def State.partEn (s : State) (p : Nat) : Bool := s.fld (0x02070000 + 16 * p) 0 1 = 1

/-- Class of a stack: 0 shared, 1 LC, 2 BE (SCHED_STACK_CLASSi). -/
def State.stackClass (s : State) (n : Nat) : Nat := s.fld (0x02070084 + 4 * (n / 16)) (2 * (n % 16)) 2

/-- Ways that some partition's panel cache holds. -/
def State.pcWays (s : State) : Nat :=
  (List.range 8).foldl (fun w p => if s.partEn p then w ||| s.fld (0x02070000 + 16 * p) 16 16 else w) 0

/-- Whether a range breaks the isolation of classes (R384). -/
def State.rangeClassBad (s : State) (be : Bool) (da n : Nat) : Bool :=
  match regionOf da with
  | some .dune => (List.range (stackOf (da + n - 1) + 1 - stackOf da)).any fun i =>
      s.stackClass (stackOf da + i) == (if be then 1 else 2)
  | some .crewStore =>
    (List.range ((da + n - 1) / 0x40000 + 1 - da / 0x40000)).any fun i =>
      let w := (da / 0x40000 + i) % 16
      natBit s.pcWays w || (natBit (s.fld 0x02070080 0 16) w == be)
  | _ => false

/-- The presence check of R25 over the operands. -/
def State.opdsAbsent (s : State) (os : List Opd) : Bool := os.any fun o => o.rngs.any fun r => s.rangeAbsent r.1 r.2

/-- The argument checks of R25, with R94 and R384, in R25's order. R384 does not say where its class check stands among them, nor
R25 which of the retired scull and the retired crew comes first: the model puts R384's BAD_ARGUMENT before PEER_ABSENT, and
TILE_RETIRED before CREW_RETIRED (log entry 76). -/
def State.opdsCheck (s : State) (be : Bool) (os : List Opd) : Status :=
  let any (p : Nat → Nat → Bool) : Bool := os.any fun o => o.rngs.any fun r => p r.1 r.2
  firstFail [
    (any rangeCrosses || (os.any fun o => o.rngs.any fun r => regionOf r.1 != regionOf ((o.rngs.headD (0, 0)).1)) ||
      any (fun da n => regionOf da == some .scullStore && touchesStaging da n), .badArgument),
    ((os.any fun o => o.rngs.any fun r => regionOf r.1 == some .flash &&
      (o.out || decide (flashBase + s.flashBytes < r.1 + r.2))), .badArgument),
    (any (s.rangeClassBad be), .badArgument),
    (any (fun da _ => s.rangePeerBad da), .peerAbsent),
    (any s.rangeTileBad, .tileRetired),
    (any s.rangeCrewBad, .crewRetired)]

/-! ### Operand and stream records -/

/-- An operand record (Table MAP.3). -/
structure OpRec where
  base     : Nat
  scale    : Nat
  lo       : Nat
  loScale  : Nat
  stride   : Nat
  sstride  : Nat
  attr     : Nat
  pad      : Nat
  factor   : Nat
  reserved : Nat
deriving DecidableEq, Repr

/-- The reserved bits [63:56] of the 8-byte device addresses at some block addresses; 0 when none is set (R23). -/
def Task.daTops (t : Task) (das : List Nat) : Nat := (das.map fun d => t.blkNat (d + 7) 1).sum

/-- Read an operand record at a block address; `reserved` is 0 when every reserved bit of it is. -/
def Task.opRec (t : Task) (da : Nat) : OpRec :=
  ⟨t.blkNat da 7, t.blkNat (da + 8) 7, t.blkNat (da + 16) 7, t.blkNat (da + 24) 7, t.blkNat (da + 32) 4,
   t.blkNat (da + 36) 4, t.blkNat (da + 40) 4, t.blkNat (da + 44) 4, t.blkNat (da + 48) 4,
   t.blkNat (da + 52) 12 + t.daTops [da, da + 8, da + 16, da + 24]⟩

/-- Bytes of `n` elements in a row: whole blocks when block-scaled or sub-byte (R56, R136). -/
def rowBytes (a : Attr) (n : Nat) : Nat :=
  if a.scaled then (n + 31) / 32 * (fmtBits a.fmt * 4) else n * (fmtBits a.fmt / 8)

/-- Blocks in a row of `n` elements. -/
def rowBlocks (n : Nat) : Nat := (n + 31) / 32

/-- The factor that a record carries. -/
def OpRec.factorVal (r : OpRec) : Option Val := if (attrOf r.attr).factor then some (decodeLong fp32 r.factor) else none

/-- The format code is one the arrays take and the record's form is right (R135-R137); `n` elements a row; `out`: the
result record, whose whole attribute word applies. -/
def OpRec.bad (r : OpRec) (n : Nat) (out : Bool) : Bool :=
  let a := attrOf r.attr
  r.reserved != 0 || !fmtOk a.fmt || a.fmt == 3 || a.fmt == 4 ||
  (if out then !attrOk r.attr || r.lo != 0 || r.loScale != 0 || r.pad != 0
   else r.attr % 16 + b2n a.factor * 512 + b2n a.blk * 1024 != r.attr || (a.blk && decide (a.fmt < 5))) ||
  (if a.factor then !factorOk r.factor else r.factor != 0) ||
  r.base % 32 != 0 || r.stride % 32 != 0 || decide (r.stride < rowBytes a n) ||
  (if a.scaled then r.scale == 0 || r.sstride == 0 || decide (r.sstride < rowBlocks n)
   else r.scale != 0 || r.sstride != 0)

/-- The element and scale ranges of a row. -/
def OpRec.rowRange (r : OpRec) (row n : Nat) : List (Nat × Nat) :=
  let a := attrOf r.attr
  (r.base + row * r.stride, rowBytes a n) ::
    (if a.scaled then [(r.scale + row * r.sstride, rowBlocks n)] else [])

/-- The ranges of a row's stored residual plane. -/
def OpRec.loRange (r : OpRec) (row n : Nat) : List (Nat × Nat) :=
  (r.lo + row * r.stride, rowBlocks n * 32) :: (if r.loScale = 0 then [] else [(r.loScale + row * r.sstride, rowBlocks n)])

/-- A stream record (Table VEC.2). -/
structure Stream where
  base    : Nat
  estride : Nat
  scale   : Nat
  rstride : Nat
  sstride : Nat
  attr    : Nat
  factor  : Nat
  topBits : Nat
deriving DecidableEq, Repr

/-- Read a stream record at a block address. -/
def Task.stream (t : Task) (da : Nat) : Stream :=
  ⟨t.blkNat da 7, t.blkNat (da + 7) 1, t.blkNat (da + 8) 7, t.blkNat (da + 16) 4, t.blkNat (da + 20) 4,
   t.blkNat (da + 24) 4, t.blkNat (da + 28) 4, t.blkNat (da + 15) 1⟩

/-- The form of a stream record (R161, R167). -/
def Stream.bad (r : Stream) : Bool :=
  let a := attrOf r.attr
  !attrOk r.attr || r.topBits != 0 || (if a.factor then !factorOk r.factor else r.factor != 0) ||
  ((a.scaled || decide (fmtBits a.fmt < 8)) && decide (1 < r.estride)) ||
  (if a.scaled then r.scale == 0 else r.scale != 0) ||
  ((a.fmt == 3 || a.fmt == 4) && a.factor)

/-- Ranges that a stream touches over `n` elements of a row, from element `i0`. -/
def Stream.rowRange (r : Stream) (row i0 n : Nat) : List (Nat × Nat) :=
  let a := attrOf r.attr
  let w := fmtBits a.fmt
  if n = 0 then []
  else if a.scaled then
    let (b0, b1) := if r.estride = 0 then (0, 0) else (i0 / 32, (i0 + n - 1) / 32)
    [(r.base + row * r.rstride + b0 * (w * 4), (b1 - b0 + 1) * (w * 4)), (r.scale + (if r.rstride = 0 then 0 else row * r.sstride) + b0, b1 - b0 + 1)]
  else [(r.base + row * r.rstride + i0 * r.estride * (w / 8), ((n - 1) * r.estride + 1) * (w / 8))]

/-- The raw code of an element of a stream, from the image. -/
def Stream.code (r : Stream) (t : Task) (row i : Nat) : Nat :=
  let a := attrOf r.attr
  let w := fmtBits a.fmt
  let rb := r.base + row * r.rstride
  if a.scaled then unpackCode w (fun k => t.imgByte (rb + k)) (i * r.estride)
  else t.imgNat (rb + i * r.estride * (w / 8)) (w / 8)

/-- The block scale of an element of a stream; 127 where the stream has none. A row that is broadcast has the scales of
row 0 (R162). -/
def Stream.scaleOf (r : Stream) (t : Task) (row i : Nat) : Nat :=
  if (attrOf r.attr).scaled then
    (t.imgByte (r.scale + (if r.rstride = 0 then 0 else row * r.sstride) + i * r.estride / 32)).toNat
  else 127

/-- The factor of a stream. -/
def Stream.factorVal (r : Stream) : Option Val := if (attrOf r.attr).factor then some (decodeLong fp32 r.factor) else none

/-- The FP32 value of an element of a stream, with its flags (R161, R67). -/
def Stream.value (r : Stream) (t : Task) (row i : Nat) : Flagged Val :=
  let a := attrOf r.attr
  decodeElem a.fmt a.sat r.factorVal (r.code t row i) (r.scaleOf t row i)

/-- One row of a transfer (R98): `n` bytes at `da`, with `sn` scale bytes at `sda`. -/
structure Row where
  da  : Nat
  n   : Nat
  sda : Nat
  sn  : Nat
deriving DecidableEq, Repr

/-- What a run computes before it commits: writes, flags, sticky bits, counts, a tally, and a status other than OK when
the run ends with one. `lo` holds residual bytes by the address of the element or scale that each belongs to (R273);
`segs` the rows of converted results with their scales. -/
structure RunOut where
  writes : List Cell
  exc    : Exc
  sticky : BitVec 4
  counts : Counts
  tally  : Tally
  status : Status
  trap   : Option (Nat × Nat)
  lo     : List Cell
  segs   : List Row
deriving DecidableEq, Repr

def RunOut.empty : RunOut := ⟨[], 0, 0, .empty, .empty, .ok, none, [], []⟩

/-- Sum of counts. -/
def Counts.add (a b : Counts) : Counts :=
  ⟨a.elems + b.elems, a.sat + b.sat, a.zero + b.zero, a.nanz + b.nanz, a.rsvd + b.rsvd⟩

/-- Sum of tallies. -/
def Tally.add (a b : Tally) : Tally :=
  ⟨a.oobRows + b.oobRows, a.permOob + b.permOob, a.issues + b.issues, a.spills + b.spills, a.frcBlocks + b.frcBlocks,
   a.frcNans + b.frcNans, a.blkRead + b.blkRead, a.blkSkip + b.blkSkip, a.exps + b.exps, a.rowsEmpty + b.rowsEmpty,
   a.rowsNan + b.rowsNan, a.bowBeats + b.bowBeats⟩

/-- Two pieces of a run one after the other: a later write replaces nothing, it follows. -/
def RunOut.append (a b : RunOut) : RunOut :=
  ⟨a.writes ++ b.writes, a.exc ||| b.exc, a.sticky ||| b.sticky, a.counts.add b.counts, a.tally.add b.tally,
   if a.status == .ok then b.status else a.status, match a.trap with | some x => some x | none => b.trap, a.lo ++ b.lo,
   a.segs ++ b.segs⟩

/-- Sticky bit NAN_TO_ZERO (Table SCOPE.5). -/
def stickyNan (b : Bool) : BitVec 4 := if b then 8 else 0

/-- The result of writing an encoded row: element plane at `base`, scales at `scale`; counts when the target is short. -/
def encOut (a : Attr) (e : Enc) (base scale : Nat) : RunOut :=
  let n := e.codes.length
  let codes := if a.scaled then e.codes ++ List.replicate ((32 - n % 32) % 32) 0 else e.codes
  { RunOut.empty with
    writes := cellsAt base (packCodes (fmtBits a.fmt) codes) ++ cellsAt scale (e.scales.map (BitVec.ofNat 8))
    lo := cellsAt base (packCodes 8 (e.lo ++ List.replicate ((32 - e.lo.length % 32) % 32) 0)) ++
      cellsAt scale (e.loScales.map (BitVec.ofNat 8))
    segs := [⟨base, codes.length * fmtBits a.fmt / 8, scale, e.scales.length⟩]
    exc := e.exc
    sticky := stickyNan e.nanz
    counts := if isShort a.fmt then ⟨n, e.sat, e.zero, e.nanzN, 0⟩ else .empty }

/-- The draw of element `elem` when the attribute is stochastic. -/
def Task.drawFor (t : Task) (a : Attr) (elem : Nat) : Nat := if a.rnd = 5 then srDraw (t.seed.getD 0) t.key elem else 0

/-- The reciprocal of a record's factor for an encoder (R57). -/
def encFactor (a : Attr) (factor : Nat) : Option Val := if a.factor then some (recip factor) else none

/-- Pieces of 32 bytes that a segment touches (R152). -/
def piecesIn (o n : Nat) : Nat := if n = 0 then 0 else (o % 32 + n + 31) / 32

/-- Commit-buffer lines for a number of pieces (R152). -/
def linesFor (pieces : Nat) : Nat := (pieces + 7) / 8

end Sys2Proof.Machine
end

