-- ==== Sys2Proof/Machine/Vec.lean ====
section
/-! DEFINITION. The vector engine (07_vector_engine.md): micro-ops, programs by units, passes and chunks (R157), row
statistics (R170-R172), REDUCE (R175) and the epilogue program of MATMUL (R176, R177). -/

namespace Sys2Proof.Machine

/-! ### Micro-op words (Tables VEC.3, VEC.4) -/

def opCode (w : Nat) : Nat := w % 64
def opD (w : Nat) : Nat := w / 64 % 32
def opA (w : Nat) : Nat := w / 2048 % 32
def opB (w : Nat) : Nat := w / 65536 % 32
def opC (w : Nat) : Nat := w / 2097152 % 32
def opMod (w : Nat) : Nat := w / 67108864 % 8
def opS (w : Nat) : Nat := w / 536870912 % 8
def opImm (w : Nat) : Nat := w / 65536 % 65536

def opLd : Nat := 0x01
def opSt : Nat := 0x02
def opLdacc : Nat := 0x03
def opStacc : Nat := 0x04
def opEndpass : Nat := 0x07
def opRsum : Nat := 0x32
def opRmax : Nat := 0x33
def opNstat : Nat := 0x34
def opNapply : Nat := 0x35
def opPerm : Nat := 0x38

/-- Which fields an op uses: vd, va, vb, vc, the number of mod values, s, an immediate; and whether it has a packed form. -/
structure OpForm where
  d : Bool
  a : Bool
  b : Bool
  c : Bool
  mods : Nat
  s : Bool
  imm : Bool
  packed : Bool
deriving DecidableEq, Repr

/-- The form of an op code; none for a reserved code (R166). -/
def opForm (op : Nat) : Option OpForm :=
  if op = 0x00 ∨ op = 0x07 then some ⟨false, false, false, false, 1, false, false, true⟩
  else if op = 0x01 then some ⟨true, false, false, false, 1, true, false, true⟩
  else if op = 0x02 then some ⟨false, true, false, false, 1, true, false, true⟩
  else if op = 0x03 then some ⟨true, false, false, false, 1, false, false, false⟩
  else if op = 0x04 then some ⟨false, true, false, false, 1, false, false, false⟩
  else if op = 0x05 then some ⟨true, true, false, false, 1, false, false, true⟩
  else if op = 0x06 then some ⟨true, false, false, false, 1, false, false, false⟩
  else if op = 0x10 ∨ op = 0x11 ∨ op = 0x12 ∨ op = 0x14 ∨ op = 0x15 then
    some ⟨true, true, true, false, 1, false, false, true⟩
  else if op = 0x13 then some ⟨true, true, true, true, 1, false, false, true⟩
  else if op = 0x16 ∨ op = 0x17 then some ⟨true, true, false, false, 1, false, false, true⟩
  else if op = 0x18 then some ⟨false, true, true, false, 4, false, false, false⟩
  else if op = 0x19 ∨ op = 0x1B then some ⟨true, true, true, false, 1, false, false, false⟩
  else if op = 0x1A then some ⟨true, true, false, false, 4, false, false, false⟩
  else if op = 0x20 ∨ op = 0x22 ∨ op = 0x24 ∨ op = 0x25 then
    some ⟨true, true, false, false, 1, false, true, false⟩
  else if 0x28 ≤ op ∧ op ≤ 0x33 then some ⟨true, true, false, false, 1, false, false, false⟩
  else if op = 0x34 then some ⟨false, true, false, false, 2, false, false, false⟩
  else if op = 0x35 then some ⟨true, true, true, true, 1, false, false, false⟩
  else if op = 0x36 ∨ op = 0x37 ∨ op = 0x38 then some ⟨true, true, true, false, 1, false, false, false⟩
  else none

/-- A reserved code, or an unused field that is not zero (R167). -/
def opBad (w : Nat) : Bool :=
  match opForm (opCode w) with
  | none => true
  | some f =>
    (!f.d && opD w != 0) || (!f.a && opA w != 0) ||
    (!f.imm && ((!f.b && opB w != 0) || (!f.c && opC w != 0) || decide (f.mods ≤ opMod w) || (!f.s && opS w != 0)))

/-- The registers that an op reads. -/
def opReads (w : Nat) : List Nat :=
  match opForm (opCode w) with
  | none => []
  | some f => (if f.a then [opA w] else []) ++ (if f.b then [opB w] else []) ++ (if f.c then [opC w] else [])

/-- The ops of a program by pass, each with its place in the program; ENDPASS itself is dropped. -/
def passes : List (Nat × Nat) → List (Nat × Nat) → List (List (Nat × Nat))
  | [], cur => [cur.reverse]
  | x :: r, cur => if opCode x.2 = opEndpass then cur.reverse :: passes r [] else passes r (x :: cur)

/-- The passes of a program given as its words. -/
def passesOf (ops : List Nat) : List (List (Nat × Nat)) := passes ((List.range ops.length).zip ops) []

/-- The pass that holds NSTAT, if any. -/
def statPass (ops : List Nat) : Option Nat := (passesOf ops).findIdx? fun p => p.any fun o => opCode o.2 = opNstat

/-- The program checks of R167 and R177; `epi` for an epilogue. -/
def progBad (ops : List Nat) (ss : List Stream) (pk : Nat) (epi : Bool) : Bool :=
  let ps := passesOf ops
  let count (op : Nat) : Nat := (ops.filter fun w => opCode w = op).length
  ops.any opBad || decide (3 ≤ pk) ||
  (pk != 0 && ((ops.any fun w => !((opForm (opCode w)).map OpForm.packed).getD false) ||
    (ss.any fun s => (attrOf s.attr).fmt != pk))) ||
  decide (2 < count opEndpass) || decide (1 < count opNstat) || statPass ops == some 2 ||
  (ps.zipIdx.any fun p => p.1.any fun o => opCode o.2 = opNapply &&
    !((statPass ops).any fun q => decide (q < p.2))) ||
  (ps.any fun p => p.any fun o => (opCode o.2 = opRsum || opCode o.2 = opRmax) &&
    p.any fun o' => (opReads o'.2).contains (opD o.2)) ||
  (ops.any fun w => (opCode w = opLd || opCode w = opSt) && decide (ss.length ≤ opS w)) ||
  (ops.any fun w => opCode w = opSt && ((ss[opS w]?).any fun s => s.estride == 0 || s.rstride == 0)) ||
  (if epi then ops.any fun w => [opSt, opEndpass, opRsum, opRmax, opNstat, opNapply].contains (opCode w)
   else ops.any fun w => opCode w = opLdacc || opCode w = opStacc)

/-! ### The engine while a program runs -/

/-- What a program is and runs over. `look` finds an element of a stream: its code and block scale. -/
structure VProg where
  look    : Stream → Nat → Nat → Nat × Nat
  streams : List Stream
  vl      : Nat
  fmt     : LongFmt
  packed  : Bool
  trap    : Bool
  eps     : Val
  n       : Nat
  rowLen  : Nat

/-- A value that ST gave to an element of a block-scaled stream: the op's place in the program, the stream, row and element,
the FP32 value, and the element number of its draw. -/
structure Pend where
  op     : Nat
  stream : Nat
  row    : Nat
  i      : Nat
  v      : Val
  elem   : Nat
deriving DecidableEq, Repr

/-- The registers, mask, unit accumulators and outputs (R156, R170, R171). `slot` is the part row of an epilogue. -/
structure VEng where
  regs : Tab (List Nat)
  mask : List Bool
  accs : Tab (List Val)
  mean0 : Option Val
  s1   : List Val
  s2   : List Val
  rms  : Bool
  ctr  : Val
  r    : Val
  slot : List Nat
  pend : List Pend
  out  : RunOut
deriving DecidableEq, Repr

/-- The engine at the start of a task or an epilogue run: every lane +0 (R156). -/
def VEng.init : VEng := ⟨[], [], [], none, [], [], false, .zero, .zero, [], [], .empty⟩

def VEng.lane (e : VEng) (v l : Nat) : Nat := (Tab.get [] e.regs v).getD l 0
def VEng.setV (e : VEng) (v : Nat) (x : List Nat) : VEng := { e with regs := Tab.put [] e.regs v x }
def VEng.flag (e : VEng) (x : Exc) : VEng := { e with out := { e.out with exc := e.out.exc ||| x } }

/-- The value in a lane. -/
def VEng.val (e : VEng) (p : VProg) (v l : Nat) : Val := decodeLong p.fmt (e.lane v l)

/-- Write every lane from a function; only the first `act` lanes raise flags (R158). -/
def VEng.mapTo (e : VEng) (p : VProg) (act vd : Nat) (f : Nat → Flagged Nat) : VEng :=
  let xs := (List.range p.vl).map f
  (e.setV vd (xs.map (·.1))).flag ((xs.take act).foldl (fun a x => a ||| x.2) 0)

/-- Write every lane with a value. -/
def VEng.mapVal (e : VEng) (p : VProg) (act vd : Nat) (f : Nat → Flagged Val) : VEng :=
  e.mapTo p act vd fun l => (encodeLong p.fmt (f l).1, (f l).2)

/-- A 32-bit pattern as a signed number. -/
def signed32 (w : Nat) : Int := if w < 2 ^ 31 then w else (w : Int) - 2 ^ 32

/-- SCL2: va × 2^vb, one rounding; a shift beyond any FP32 exponent acts as the bound. -/
def scl2 (v : Val) (k : Int) : Flagged Val :=
  match v with
  | .nan s => (.qnan, if s then excInvalid else 0)
  | .inf n => (.inf n, 0)
  | .fin n m e => roundLong fp32 .rne false 0 n m (e + max (-1000) (min 1000 k)) false

/-- The function of a code 0x28 to 0x31. -/
def funcOf (op : Nat) (v : Val) : Flagged Val :=
  match op with
  | 0x28 => exp2 v | 0x29 => sigm v | 0x2A => tanhv v | 0x2B => silu v | 0x2C => gelu v
  | 0x2D => rcp v | 0x2E => rsqrt v | 0x2F => log2v v | 0x30 => sinv v | _ => cosv v

/-- Two-operand arithmetic in the program's format. -/
def arith (f : LongFmt) (op : Nat) (a b : Val) : Flagged Val :=
  match op with
  | 0x10 => addTo f .rne a b
  | 0x20 => addTo f .rne a b
  | 0x11 => addTo f .rne a b.negate
  | 0x12 => mulTo f .rne a b
  | 0x22 => mulTo f .rne a b
  | 0x14 => maxVal a b
  | 0x24 => maxVal a b
  | _ => minVal a b

/-- CMP (Table VEC.4): unordered is true only for ≠. -/
def cmpMod (m : Nat) (a b : Val) : Bool :=
  match compareVal a b with
  | none => m == 3
  | some c => match m with
    | 0 => decide (c < 0) | 1 => decide (c ≤ 0) | 2 => decide (c = 0) | _ => decide (c ≠ 0)

/-- A conversion of CVT; the last component: a NaN became 0. -/
def cvt (m : Nat) (w : Nat) : Nat × Exc × Bool :=
  let v := decodeLong fp32 w
  match m with
  | 0 =>
    let k := signed32 w
    let x := roundLong fp32 .rne false 0 (decide (k < 0)) k.natAbs 0 false
    (encodeLong fp32 x.1, x.2, false)
  | 1 => let x := toInt 32 .rne v
         (intCode 32 x.1, x.2, v.isNan)
  | 2 => let x := toLong fp16 .rne false 0 v
         (encodeLong fp32 x.1, x.2, false)
  | _ => let x := toLong bf16 .rne false 0 v
         (encodeLong fp32 x.1, x.2, false)

/-- The element of a stream by its strides (R161). -/
def Stream.look (t : Task) (s : Stream) (row i : Nat) : Nat × Nat := (s.code t row i, s.scaleOf t row i)

/-- LD of one lane (R161): packed lanes unchanged, integers as INT32 patterns, everything else decoded to FP32. -/
def ldLane (p : VProg) (s : Stream) (row i : Nat) : Flagged Nat :=
  let a := attrOf s.attr
  let c := p.look s row i
  if p.packed ∨ a.fmt = 3 then (c.1, 0)
  else if a.fmt = 4 then (if c.1 < 128 then c.1 else c.1 + 0xFFFFFF00, 0)
  else
    let v := decodeElem a.fmt a.sat s.factorVal c.1 c.2
    (encodeLong fp32 v.1, v.2)

/-- Reserved Y2 codes that a chunk's LD reads; a broadcast is one read (R162). -/
def ldRsvd (look : Stream → Nat → Nat → Nat × Nat) (s : Stream) (row i0 act : Nat) : Nat :=
  let n := if s.estride = 0 then min act 1 else act
  ((List.range n).filter fun l => isRsvd (attrOf s.attr).fmt (look s row (i0 + l)).1).length

/-- ST of one element whose stream carries no block scale. -/
def stOne (t : Task) (s : Stream) (row i elem : Nat) (v : Val) : RunOut :=
  let a := attrOf s.attr
  encOut a (encRow a (encFactor a s.factor) [(v, t.drawFor a elem)])
    (s.base + row * s.rstride + i * s.estride * (fmtBits a.fmt / 8)) 0

/-- Where a unit's chunk stands: the statistics row index, stream row, first element of the chunk in the stream row,
active lanes, and whether it is the unit's first. -/
structure Place where
  row   : Nat
  i0    : Nat
  act   : Nat
  first : Bool
  col   : Nat
deriving DecidableEq, Repr

/-- Run one op on one chunk. -/
def runOp (p : VProg) (t : Task) (pl : Place) (o : Nat × Nat) (e : VEng) : VEng :=
  let w := o.2
  let op := opCode w
  let d := opD w
  let va (l : Nat) : Val := e.val p (opA w) l
  let vb (l : Nat) : Val := e.val p (opB w) l
  let vc (l : Nat) : Val := e.val p (opC w) l
  if e.out.trap.isSome then e
  else if op = opLd then
    match p.streams[opS w]? with
    | none => e
    | some s =>
      let e := e.mapTo p pl.act d fun l => if l < pl.act then ldLane p s pl.row (pl.i0 + l) else (0, 0)
      { e with out := { e.out with counts := { e.out.counts with rsvd := e.out.counts.rsvd + ldRsvd p.look s pl.row pl.i0 pl.act } } }
  else if op = opSt then
    match p.streams[opS w]? with
    | none => e
    | some s =>
      (List.range pl.act).foldl (fun e l =>
        let v := e.val p (opA w) l
        let elem := pl.row * p.rowLen + pl.i0 + l
        if (attrOf s.attr).scaled then { e with pend := ⟨o.1, opS w, pl.row, pl.i0 + l, v, elem⟩ :: e.pend }
        else { e with out := e.out.append (stOne t s pl.row (pl.i0 + l) elem v) }) e
  else if op = opLdacc then e.mapTo p pl.act d fun l => (if l < pl.act then e.slot.getD (pl.col + l) 0 else 0, 0)
  else if op = opStacc then
    { e with slot := e.slot.mapIdx fun i x =>
        if pl.col ≤ i ∧ i < pl.col + pl.act then e.lane (opA w) (i - pl.col) else x }
  else if op = 0x05 then e.mapTo p pl.act d fun l => (e.lane (opA w) l, 0)
  else if op = 0x06 then e.mapTo p pl.act d fun l => (l, 0)
  else if [0x10, 0x11, 0x12, 0x14, 0x15].contains op then e.mapVal p pl.act d fun l => arith p.fmt op (va l) (vb l)
  else if [0x20, 0x22, 0x24, 0x25].contains op then
    e.mapVal p pl.act d fun l => arith p.fmt op (va l) (decodeLong bf16 (opImm w))
  else if op = 0x13 then e.mapVal p pl.act d fun l => fmaTo p.fmt .rne (va l) (vb l) (vc l)
  else if op = 0x16 then
    e.mapVal p pl.act d fun l => if (va l).isNan then (.qnan, sigNan [va l]) else ((va l).abs, 0)
  else if op = 0x17 then
    e.mapVal p pl.act d fun l => if (va l).isNan then (.qnan, sigNan [va l]) else ((va l).negate, 0)
  else if op = 0x18 then
    { e with mask := (List.range p.vl).map fun l => cmpMod (opMod w) (va l) (vb l) }.flag
      ((List.range pl.act).foldl (fun x l => x ||| sigNan [va l, vb l]) 0)
  else if op = 0x19 then
    e.mapTo p pl.act d fun l => (if e.mask.getD l false then e.lane (opA w) l else e.lane (opB w) l, 0)
  else if op = 0x1A then
    let nan := (List.range pl.act).any fun l => (cvt (opMod w) (e.lane (opA w) l)).2.2
    let e := e.mapTo p pl.act d fun l => ((cvt (opMod w) (e.lane (opA w) l)).1, (cvt (opMod w) (e.lane (opA w) l)).2.1)
    { e with out := { e.out with sticky := e.out.sticky ||| stickyNan nan } }
  else if op = 0x1B then e.mapVal p pl.act d fun l => scl2 (va l) (signed32 (e.lane (opB w) l))
  else if 0x28 ≤ op ∧ op ≤ 0x31 then e.mapVal p pl.act d fun l => funcOf op (va l)
  else if op = opRsum ∨ op = opRmax then
    let z := if op = opRsum then Val.zero else Val.inf true
    let acc := Tab.get [] e.accs o.1
    let xs : List (Flagged Val) := (List.range p.vl).map fun l =>
      let a := acc.getD l z
      if l < pl.act then (if op = opRsum then add32 a (va l) else maxVal a (va l)) else (a, 0)
    let e' : VEng := { e with accs := Tab.put [] e.accs o.1 (xs.map (·.1)) }
    e'.flag (xs.foldl (fun a x => a ||| x.2) 0)
  else if op = opNstat then
    let c := if pl.first then va 0 else e.mean0.getD .zero
    let s1 := if pl.first then [] else e.s1
    let s2 := if pl.first then [] else e.s2
    let xs : List (Val × Val × Exc) := (List.range p.vl).map fun l =>
      let a := s1.getD l .zero
      let b := s2.getD l .zero
      if l < pl.act then
        let x := add32 (va l) c.negate
        let y := add32 a x.1
        let z := fma32 x.1 x.1 b
        (y.1, z.1, x.2 ||| y.2 ||| z.2)
      else (a, b, (0 : Exc))
    let e' : VEng := { e with mean0 := some c, s1 := xs.map (·.1), s2 := xs.map (·.2.1), rms := opMod w = 1 }
    e'.flag (xs.foldl (fun a x => a ||| x.2.2) 0)
  else if op = opNapply then
    e.mapVal p pl.act d fun l =>
      let x := add32 (va l) e.ctr.negate
      let y := mul32 x.1 e.r
      let z := fma32 y.1 (vb l) (vc l)
      (z.1, x.2 ||| y.2 ||| z.2)
  else if op = 0x36 ∨ op = 0x37 then
    e.mapVal p pl.act d fun l =>
      let x := if op = 0x36 then silu (va l) else gelu (va l)
      let y := mul32 x.1 (vb l)
      (y.1, x.2 ||| y.2)
  else if op = opPerm then
    let bad := (List.range pl.act).filter fun l => decide (p.vl ≤ e.lane (opB w) l)
    if p.trap && !bad.isEmpty then
      { e with out := { e.out with status := .badArgument, trap := some (pl.row, bad.headD 0) } }
    else
      let src := (List.range p.vl).map (e.lane (opA w))
      let idx := (List.range p.vl).map (e.lane (opB w))
      let e := e.mapTo p pl.act d fun l =>
        (if idx.getD l 0 < pl.act then src.getD (idx.getD l 0) 0 else 0, 0)
      { e with out := { e.out with
          sticky := if bad.isEmpty then e.out.sticky else e.out.sticky ||| 1
          tally := { e.out.tally with permOob := e.out.tally.permOob + bad.length } } }
  else e

/-- The end of a pass: sums and maxima fold by the halving tree and fill their vd; statistics are finalised (R170,
R171). -/
def finalise (p : VProg) (ops : List (Nat × Nat)) (e : VEng) : VEng :=
  ops.foldl (fun e o =>
    let op := opCode o.2
    if op = opRsum ∨ op = opRmax then
      let z := if op = opRsum then Val.zero else Val.inf true
      let acc := Tab.get [] e.accs o.1
      let x := tree (if op = opRsum then add32 else maxVal) 8 ((List.range p.vl).map fun l => acc.getD l z)
      ({ e with accs := Tab.put [] e.accs o.1 [] }.setV (opD o.2)
        (List.replicate p.vl (encodeLong fp32 x.1))).flag x.2
    else if op = opNstat then
      let n := Val.fin false p.n 0
      let S1 := tree add32 8 ((List.range p.vl).map fun l => e.s1.getD l .zero)
      let S2 := tree add32 8 ((List.range p.vl).map fun l => e.s2.getD l .zero)
      let mu := divTo fp32 .rne S1.1 n
      let q := divTo fp32 .rne S2.1 n
      let y := fma32 mu.1.negate mu.1 q.1
      let var := maxVal .zero y.1
      let mean := add32 (e.mean0.getD .zero) mu.1
      let m2 := fma32 mean.1 mean.1 var.1
      let v := if e.rms then m2 else (var.1, 0)
      let ve := add32 v.1 p.eps
      let r0 := rsqrt ve.1
      let a := mul32 cHalf ve.1
      let b := mul32 a.1 r0.1
      let c := mul32 b.1 r0.1
      let d := add32 cThreeHalves c.1.negate
      let r := mul32 r0.1 d.1
      { e with ctr := if e.rms then .zero else mean.1, r := r.1, mean0 := none, s1 := [], s2 := [] }.flag
        (S1.2 ||| S2.2 ||| mu.2 ||| q.2 ||| y.2 ||| mean.2 ||| v.2 ||| ve.2 ||| r0.2 ||| a.2 ||| b.2 ||| c.2 ||| d.2 |||
          r.2)
    else e) e

/-- Run the passes of one statistics unit: rows from `row0`, a segment of `len` elements from `i0` (R157). Pass q finds the
elements of its streams with `look q`. -/
def runUnit (look : Nat → Stream → Nat → Nat → Nat × Nat) (p : VProg) (t : Task) (ps : List (List (Nat × Nat)))
    (row0 rows i0 len : Nat) (e : VEng) : VEng :=
  let nc := (len + p.vl - 1) / p.vl
  ps.zipIdx.foldl (fun e q =>
    let p := { p with look := look q.2 }
    let ops := q.1
    let e := (List.range rows).foldl (fun e r =>
      (List.range nc).foldl (fun e c =>
        let pl : Place := ⟨row0 + r, i0 + c * p.vl, min p.vl (len - c * p.vl), r == 0 && c == 0, c * p.vl⟩
        let e := ops.foldl (fun e o => runOp p t pl o e) e
        { e with out := { e.out with tally := { e.out.tally with issues := e.out.tally.issues + ops.length } } }) e) e
    finalise p ops e) e

/-- Encode the block-scaled elements that ST gathered, block by block for each ST in program order (R164): every one counts
its events, and a later one replaces what an earlier one wrote. -/
def flushPend (t : Task) (ss : List Stream) (pend : List Pend) : RunOut :=
  (((pend.map fun x => (x.op, x.stream, x.row, x.i / 32)).dedup).mergeSort fun a b => decide (a.1 ≤ b.1)).foldl (fun o k =>
    match ss[k.2.1]? with
    | none => o
    | some s =>
      let a := attrOf s.attr
      let xs := pend.filter fun x => x.op == k.1 && x.stream == k.2.1 && x.row == k.2.2.1 && x.i / 32 == k.2.2.2
      let els := (List.range 32).filterMap fun j => xs.find? fun x => x.i % 32 == j
      let g := encFactor a s.factor
      let e := encBlock a (els.map fun x => ((applyRecip g x.v).1, t.drawFor a x.elem))
      let place (cs : List Nat) : List Nat := (List.range 32).map fun j => (((els.map fun x => x.i % 32).zip cs).lookup j).getD 0
      let n := els.length
      let r := encOut a { e with codes := place e.codes, lo := if e.lo.isEmpty then [] else place e.lo }
        (s.base + k.2.2.1 * s.rstride + k.2.2.2 * (fmtBits a.fmt * 4)) (s.scale + k.2.2.1 * s.sstride + k.2.2.2)
      o.append { r with counts := ⟨n, e.sat, e.zero, e.nanzN, 0⟩ }) RunOut.empty

/-! ### VECPROG (R160, R167) -/

def Task.vecProgDa (t : Task) : Nat := t.daAt 8
def Task.vecOps (t : Task) (da n : Nat) : List Nat := (List.range n).map fun i => t.blkNat (da + 4 * i) 4
def Task.vecNops (t : Task) : Nat := t.wf 9 24 6 + 1
def Task.vecRows (t : Task) : Nat := t.wf 10 0 25
def Task.vecLen (t : Task) : Nat := t.wf 11 0 21
def Task.vecStat (t : Task) : Nat := t.wf 12 0 16
def Task.vecGroups (t : Task) : Nat := t.wf 12 16 16
def Task.vecPk (t : Task) : Nat := t.wf 14 1 2
def Task.vecStreams (t : Task) : List Stream := (List.range t.argsLen).map fun i => t.stream (t.argsDa + 32 * i)

/-- The program of a VECPROG. -/
def Task.vecProg (t : Task) : List Nat := t.vecOps t.vecProgDa t.vecNops

/-- Ranges of one stream over the rows of a VECPROG; a broadcast row is one row. -/
def streamRanges (s : Stream) (rows len : Nat) : List (Nat × Nat) :=
  (List.range (if s.rstride = 0 then min rows 1 else rows)).flatMap fun r => s.rowRange r 0 len

/-- Streams that some op of a program reads, or writes. -/
def usedBy (op : Nat) (ops : List Nat) (ss : List Stream) : List Stream :=
  (ss.zipIdx.filter fun x => ops.any fun w => opCode w = op && opS w = x.2).map (·.1)

/-- Operands of a VECPROG. -/
def vecOpds (t : Task) : List Opd :=
  (usedBy opLd t.vecProg t.vecStreams).map (fun s => rdOpd (streamRanges s t.vecRows t.vecLen)) ++
  (usedBy opSt t.vecProg t.vecStreams).map (fun s => wrOpd (streamRanges s t.vecRows t.vecLen))

/-- Pieces that an output stream touches over `rows` rows of `len` elements (R152). -/
def streamPieces (s : Stream) (rows len : Nat) : Nat :=
  let a := attrOf s.attr
  let w := fmtBits a.fmt / 8
  (List.range rows).foldl (fun n r =>
    if a.scaled ∨ s.estride * w < 32 then n + ((s.rowRange r 0 len).map fun x => piecesIn x.1 x.2).sum
    else n + ((List.range len).map fun i => piecesIn (s.base + r * s.rstride + i * s.estride * w) w).sum) 0

/-- rnd = 5 with an output of more than 2^40 elements (R63). -/
def tooMany (attr elems : Nat) : Bool := (attrOf attr).rnd = 5 && decide (2 ^ 40 < elems)

/-- The field checks of a VECPROG (R160, R167, R113). -/
def vecBad (t : Task) : Bool :=
  let ops := t.vecProg
  let ss := t.vecStreams
  let outs := usedBy opSt ops ss
  let shape := t.vecRows == 0 || decide (2 ^ 24 < t.vecRows) || t.vecLen == 0 || decide (2 ^ 20 < t.vecLen) ||
    t.vecStat == 0 || t.vecGroups == 0 || t.vecRows % t.vecStat != 0 || t.vecLen % t.vecGroups != 0 ||
    decide (2 ^ 24 < t.vecStat * (t.vecLen / t.vecGroups))
  let eps := (t.word 13).toNat
  t.vecProgDa % 32 != 0 || t.wf 9 30 2 != 0 || t.wf 10 25 7 != 0 || t.wf 11 21 11 != 0 || t.wf 14 3 29 != 0 ||
  t.word 15 != 0 || shape || progBad ops ss t.vecPk false || ss.any Stream.bad ||
  ((statPass ops).isSome && (decide (0x7F800000 ≤ eps) || eps == 0)) ||
  (outs.any fun s => tooMany s.attr (t.vecRows * t.vecLen)) ||
  decide (t.holdLines < linesFor ((outs.map fun s => streamPieces s t.vecRows t.vecLen).sum))

/-- Passes of a VECPROG, its statistics units, and its stages: each pass of each unit reads its streams from memory (R157). -/
def Task.vecPasses (t : Task) : List (List (Nat × Nat)) := passesOf t.vecProg
def Task.vecUnits (t : Task) : Nat := t.vecRows / t.vecStat * t.vecGroups
def Task.vecStages (t : Task) : Nat := t.vecUnits * t.vecPasses.length

/-- The reads of stage n: the streams that its pass loads, over the rows and the segment of its unit; a broadcast row is
one row. -/
def Task.vecReads (t : Task) (n : Nat) : List Row :=
  let ps := t.vecPasses
  let u := n / ps.length
  let ell := t.vecLen / t.vecGroups
  (usedBy opLd ((ps.getD (n % ps.length) []).map (·.2)) t.vecStreams).flatMap fun s =>
    (List.range (if s.rstride = 0 then 1 else t.vecStat)).flatMap fun r =>
      match s.rowRange (if s.rstride = 0 then 0 else u / t.vecGroups * t.vecStat + r) (u % t.vecGroups * ell) ell with
      | [x] => [(⟨x.1, x.2, 0, 0⟩ : Row)]
      | x :: y :: _ => [⟨x.1, x.2, y.1, y.2⟩]
      | [] => []

/-- The task with the bytes of one stage as its image. -/
def Task.atStage (t : Task) (n : Nat) : Task := { t with image := (t.fills.lookup n).getD [] }

/-- The run of a VECPROG on lanes of width W. -/
def vecRun (W : Nat) (t : Task) : RunOut :=
  let ss := t.vecStreams
  let pk := t.vecPk
  let ell := t.vecLen / t.vecGroups
  let p : VProg := ⟨Stream.look t, ss, if pk = 0 then W else 2 * W, if pk = 0 then fp32 else longOf pk, decide (pk ≠ 0), t.wf 14 0 1 = 1,
    decodeLong fp32 (t.word 13).toNat, t.vecStat * ell, t.vecLen⟩
  let e := (List.range t.vecUnits).foldl (fun e u =>
    runUnit (fun q => Stream.look (t.atStage (u * t.vecPasses.length + q))) p t t.vecPasses (u / t.vecGroups * t.vecStat) t.vecStat (u % t.vecGroups * ell) ell e) VEng.init
  e.out.append (flushPend t ss e.pend)

/-! ### REDUCE (R175) -/

def Task.redOp (t : Task) : Nat := t.wf 8 0 2
def Task.redCols (t : Task) : Bool := t.wf 8 2 1 = 1
def Task.redRows (t : Task) : Nat := t.wf 9 0 25
def Task.redLen (t : Task) : Nat := t.wf 10 0 21
def Task.redSrc (t : Task) : Stream := t.stream t.argsDa
def Task.redDst (t : Task) : Stream := t.stream (t.argsDa + 32)
def Task.redOut (t : Task) : Nat := if t.redCols then t.redLen else t.redRows

/-- Operands of a REDUCE. -/
def redOpds (t : Task) : List Opd :=
  [rdOpd (streamRanges t.redSrc t.redRows t.redLen), wrOpd (t.redDst.rowRange 0 0 t.redOut)]

/-- The field checks of a REDUCE (R175, R113). -/
def redBad (t : Task) : Bool :=
  t.argsLen != 2 || t.wf 8 3 29 != 0 || t.wf 9 25 7 != 0 || t.wf 10 21 11 != 0 ||
  ((List.range 5).any fun i => t.word (11 + i) != 0) ||
  t.redRows == 0 || decide (2 ^ 24 < t.redRows) || t.redLen == 0 || decide (2 ^ 20 < t.redLen) ||
  t.redSrc.bad || t.redDst.bad || t.redDst.estride == 0 || t.redDst.rstride == 0 ||
  tooMany t.redDst.attr t.redOut || decide (t.holdLines < linesFor (streamPieces t.redDst 1 t.redOut))

/-- One combining step: add, maximum, minimum or fma(x, x, t). -/
def redStep (op : Nat) (a x : Val) : Flagged Val :=
  match op with | 0 => add32 a x | 1 => maxVal a x | 2 => minVal a x | _ => fma32 x x a

/-- The value the lanes start at. -/
def redInit (op : Nat) : Val := match op with | 1 => .inf true | 2 => .inf false | _ => .zero

/-- Fold one list of values in one lane. -/
def redLane (op : Nat) (xs : List (Flagged Val)) : Flagged Val :=
  xs.foldl (fun a x => let y := redStep op a.1 x.1; (y.1, a.2 ||| x.2 ||| y.2)) (redInit op, 0)

/-- The run of a REDUCE on lanes of width W. -/
def redRun (W : Nat) (t : Task) : RunOut :=
  let s := t.redSrc
  let op := t.redOp
  let n := t.redLen
  let res : List (Flagged Val) :=
    if t.redCols then (List.range n).map fun j => redLane op ((List.range t.redRows).map fun r => s.value t r j)
    else (List.range t.redRows).map fun r =>
      let lanes := (List.range W).map fun l =>
        redLane op ((List.range ((n + W - 1 - l) / W)).map fun c => s.value t r (c * W + l))
      let x := tree (fun a b => redStep (if op = 3 then 0 else op) a b) 8 (lanes.map (·.1))
      (x.1, lanes.foldl (fun a y => a ||| y.2) x.2)
  let rsvd := ((List.range t.redRows).map fun r =>
    if s.estride = 0 then (n + W - 1) / W * ldRsvd (Stream.look t) s r 0 n else ldRsvd (Stream.look t) s r 0 n).sum
  let d := t.redDst
  let a := attrOf d.attr
  let g := encFactor a d.factor
  let vs := res.zipIdx.map fun x => (x.1.1, t.drawFor a x.2)
  let out :=
    if a.scaled ∨ d.estride = 1 then encOut a (encRow a g vs) d.base d.scale
    else (res.zipIdx.map fun x => stOne t d 0 x.2 x.2 x.1.1).foldl RunOut.append RunOut.empty
  { out with
    exc := res.foldl (fun x y => x ||| y.2) out.exc
    counts := { out.counts with rsvd := rsvd }
    tally := { Tally.empty with issues := t.redRows * ((n + W - 1) / W) } }

/-! ### Epilogues (R176, R177) -/

/-- An epilogue record: its program's DA and length, its streams. -/
def Task.epiProgDa (t : Task) (da : Nat) : Nat := t.blkNat da 8 % 2 ^ 56
def Task.epiNops (t : Task) (da : Nat) : Nat := t.blkNat (da + 7) 1 % 64 + 1
def Task.epiNstreams (t : Task) (da : Nat) : Nat := t.blkNat (da + 8) 4 % 8
def Task.epiStreams (t : Task) (da : Nat) : List Stream :=
  (List.range (t.epiNstreams da)).map fun i => t.stream (da + 32 + 32 * i)
def Task.epiOps (t : Task) (da : Nat) : List Nat := t.vecOps (t.epiProgDa da) (t.epiNops da)

/-- The checks of an epilogue record and its program (R177). -/
def epiBad (t : Task) (da : Nat) : Bool :=
  decide (64 ≤ t.blkNat (da + 7) 1) || decide (8 ≤ t.blkNat (da + 8) 4) || t.blkNat (da + 12) 20 != 0 ||
  t.epiProgDa da % 32 != 0 || (t.epiStreams da).any Stream.bad || progBad (t.epiOps da) (t.epiStreams da) 0 true

/-- Run the epilogue program on one written row of a part: `vals` are its FP32 words, at result row `rowC` from column
`n0`; the words after it, and what the run raised. -/
def epiRow (look : Stream → Nat → Nat → Nat × Nat) (W : Nat) (t : Task) (da rowC n0 : Nat) (vals : List Nat) :
    List Nat × RunOut :=
  let p : VProg := ⟨look, t.epiStreams da, W, fp32, false, false, .zero, vals.length, 0⟩
  let e := runUnit (fun _ => look) p t (passesOf (t.epiOps da)) rowC 1 n0 vals.length { VEng.init with slot := vals }
  (e.slot, e.out)

end Sys2Proof.Machine
end

