-- ==== Sys2Proof/Machine/KvFmt.lean ====
section
/-! DEFINITION. Page frames and the encoding of appended tokens (10_kv_pages.md, R213, R214, R226-R228, R232). -/

namespace Sys2Proof.Machine

/-- d of a dc code (Table SEIF.2). -/
def headDim (dc : Nat) : Nat :=
  match dc with
  | 0 => 32 | 1 => 64 | 2 => 96 | 3 => 128 | 4 => 192 | _ => 256

/-- Tokens per page (R213). -/
def tokensPerPage (d : Nat) : Nat := 64 * (512 / d)

/-- Key of a page of a run's list in its page map. -/
def pageKey (list pg : Nat) : Nat := list * 0x100000 + pg

/-- The frame of a page of one of the run's lists. -/
def Task.frameOf (t : Task) (list pg : Nat) : Option Nat := t.pages.lookup (pageKey list pg)

/-- Frame number to DA (R213). -/
def frameDa (pfn : Nat) : Nat := pfn * 0x10000

/-- Encode one K block: 32 channels `b` of the token at `pos` (R214, R228). `sc` gives a frame's scale area. -/
def kvK (t : Task) (a : Attr) (g : Option Val) (sc : Nat → Nat) (list d pos b : Nat) (vs : List (Val × Nat)) : RunOut :=
  let tpp := tokensPerPage d
  let tk := pos % tpp
  match t.frameOf list (pos / tpp) with
  | none => RunOut.empty
  | some pfn =>
    encOut a (encBlock a (vs.map fun v => ((applyRecip g v.1).1, v.2))) (frameDa pfn + tk * d + 32 * b)
      (sc pfn + tk * (d / 32) + b)

/-- Encode one V block: the tokens given, by their place 0 to 31 in the block at position `p0`, of channel `c`; the
other elements are code 0 (R228). -/
def kvV (t : Task) (a : Attr) (g : Option Val) (sc : Nat → Nat) (list d p0 c : Nat) (vs : List (Nat × Val × Nat)) :
    RunOut :=
  let tpp := tokensPerPage d
  let tk := p0 % tpp
  match t.frameOf list (p0 / tpp) with
  | none => RunOut.empty
  | some pfn =>
    let e := encBlock a (vs.map fun v => ((applyRecip g v.2.1).1, v.2.2))
    let at_ := (vs.map (·.1)).zip e.codes
    let e' : Enc := { e with codes := (List.range 32).map fun j => (at_.lookup j).getD 0 }
    let o := encOut a e' (frameDa pfn + 0x8000 + c * tpp + tk) (sc pfn + 0x400 + tk / 32 * d + c)
    { o with counts := { o.counts with elems := vs.length } }

/-- Pieces of an append (R232): 32-position blocks of one plane, and 17 for each list. -/
def kvPieces (d planes lists : Nat) : Nat := planes * (d + d / 32) + 17 * lists

/-! ### KVAPPEND body (Table KV.5) -/

def Task.kvOp (t : Task) : Nat := t.wf 8 0 2
def Task.kvList (t : Task) : Nat := t.daAt 9
def Task.kvFirst (t : Task) : Nat := (t.word 11).toNat
def Task.kvCount (t : Task) : Nat := (t.word 12).toNat
def Task.kvSlot (t : Task) : Nat := t.wf 13 0 30
def Task.kvDc (t : Task) : Nat := t.wf 14 0 3
/-- The conversion attribute of an APPEND: cfmt, crnd, csat, blk = 1, FIT (R228). -/
def Task.kvAttr (t : Task) : Attr := ⟨t.wf 14 3 4, t.wf 14 11 1 = 1, t.wf 14 7 4, false, false, true, 0x7F⟩
def Task.kvK (t : Task) : Stream := t.stream t.argsDa
def Task.kvV (t : Task) : Stream := t.stream (t.argsDa + 32)

/-- Ranges named by a KVAPPEND at validation: its list descriptor and, for an APPEND, its streams. -/
def kvOpds (t : Task) : List Opd :=
  rdOpd [(t.kvList, 32)] ::
  (if t.kvOp = 0 then
    [rdOpd (streamRanges t.kvK t.kvCount (headDim t.kvDc)), rdOpd (streamRanges t.kvV t.kvCount (headDim t.kvDc))]
   else [])

/-- The field checks of a KVAPPEND (R225, R114, R232). -/
def kvBad (t : Task) : Bool :=
  let d := headDim t.kvDc
  let planes := 2 * ((t.kvFirst + t.kvCount + 31) / 32 - t.kvFirst / 32)
  t.kvOp == 3 || t.wf 8 2 30 != 0 || t.wf 10 24 8 != 0 || t.wf 13 30 2 != 0 || t.wf 14 12 20 != 0 || t.word 15 != 0 ||
  decide (5 < t.kvDc) || t.kvList % 32 != 0 || decide (duneEnd ≤ t.kvList) ||
  (if t.kvOp = 0 then
    t.argsLen != 2 || t.kvCount == 0 || decide (4096 < t.kvCount) || t.kvSlot != 0 ||
    !(t.kvAttr.fmt == 8 || t.kvAttr.fmt == 9) || decide (6 ≤ t.kvAttr.rnd) || t.kvK.bad || t.kvV.bad ||
    decide (t.holdLines < linesFor (kvPieces d planes 1))
   else
    t.argsLen != 0 || t.holdLines != 0 || t.kvCount == 0 || decide (64 < t.kvCount) || t.wf 14 3 9 != 0)

/-- The run of an APPEND: every token of the two streams (R227, R228). Row-major draws over tokens × 2d. -/
def appendRun (sc : Nat → Nat) (t : Task) : RunOut :=
  let d := headDim t.kvDc
  let a := t.kvAttr
  let n := t.kvCount
  let val (s : Stream) (row c off : Nat) : Val × Nat := ((s.value t row c).1, t.drawFor a (row * (2 * d) + off + c))
  let ks := (List.range n).flatMap fun r => (List.range (d / 32)).map fun b =>
    kvK t a none sc 0 d (t.kvFirst + r) b ((List.range 32).map fun j => val t.kvK r (32 * b + j) 0)
  let lo := t.kvFirst / 32
  let vs := (List.range ((t.kvFirst + n + 31) / 32 - lo)).flatMap fun j => (List.range d).map fun c =>
    kvV t a none sc 0 d (32 * (lo + j)) c
      (((List.range 32).filter fun i => decide (t.kvFirst ≤ 32 * (lo + j) + i) &&
        decide (32 * (lo + j) + i < t.kvFirst + n)).map fun i => (i, val t.kvV (32 * (lo + j) + i - t.kvFirst) c d))
  let exc := (List.range n).foldl (fun x r => (List.range d).foldl (fun x c =>
    x ||| (t.kvK.value t r c).2 ||| (t.kvV.value t r c).2) x) (0 : Exc)
  let rsvd := ((List.range n).map fun r => ldRsvd (Stream.look t) t.kvK r 0 d + ldRsvd (Stream.look t) t.kvV r 0 d).sum
  let o := (ks ++ vs).foldl RunOut.append RunOut.empty
  { o with exc := exc, counts := { o.counts with rsvd := rsvd } }

end Sys2Proof.Machine
end

