-- ==== Sys2Proof/Machine/Matmul.lean ====
section
/-! DEFINITION. MATMUL (06_tiling_and_mapping.md, R81-R84, R76-R78): the descriptor and its checks, the visiting order,
the operand planes, the accumulation of a cell, epilogues and the writes. -/

namespace Sys2Proof.Machine

/-! ### Fields (Tables MAP.1, MAP.2) -/

def Task.mmFirst (t : Task) : Nat := (t.word 8).toNat
def Task.mmCount (t : Task) : Nat := t.wf 9 0 16
def Task.mmMt (t : Task) : Nat := 32 * 2 ^ t.wf 9 16 2
def Task.mmNt (t : Task) : Nat := 32 * 2 ^ t.wf 9 18 2
def Task.mmKt (t : Task) : Nat := 32 * t.wf 9 20 8
def Task.mmP (t : Task) : Nat := t.wf 9 28 2
def Task.mmKloop (t : Task) : Bool := t.wf 9 30 1 = 1
def Task.mmInner (t : Task) : Nat := (t.word 10).toNat
def Task.mmN (t : Task) : Nat := (t.word 11).toNat
def Task.mmK (t : Task) : Nat := (t.word 12).toNat
def Task.mmNfold (t : Task) : Nat := t.wf 13 0 2
def Task.mmEpi (t : Task) : Nat := t.wf 13 2 2
def Task.mmCin (t : Task) : Bool := t.wf 13 4 1 = 1
def Task.mmSpill (t : Task) : Bool := t.wf 13 5 1 = 1
def Task.mmEpiDa (t : Task) : Nat := t.daAt 14
def Task.mmA (t : Task) : OpRec := t.opRec t.argsDa
def Task.mmB (t : Task) : OpRec := t.opRec (t.argsDa + 0x40)
def Task.mmC (t : Task) : OpRec := t.opRec (t.argsDa + 0x80)
def Task.mmSpillDa (t : Task) : Nat := t.arg 0xF0 7
def Task.mmCinDa (t : Task) : Nat := t.arg 0xF8 7

/-- Extent of fold f; an absent fold has extent 1. -/
def Task.mmExt (t : Task) (f : Nat) : Nat := if f < t.mmNfold then t.arg (0xC0 + 16 * f) 2 else 1

/-- Row offsets per step of fold f in A (k = 1), B (k = 2) or C (k = 3). -/
def Task.mmFold (t : Task) (k f : Nat) : Nat := if f < t.mmNfold then t.arg (0xC0 + 16 * f + 4 * k) 4 else 0

def Task.mmM (t : Task) : Nat := t.mmInner * t.mmExt 0 * t.mmExt 1 * t.mmExt 2
def Task.mmTm (t : Task) : Nat := (t.mmM + t.mmMt - 1) / t.mmMt
def Task.mmTn (t : Task) : Nat := (t.mmN + t.mmNt - 1) / t.mmNt
/-- Blocks along the reduction: Kb / 32. -/
def Task.mmNb (t : Task) : Nat := (t.mmK + 31) / 32
/-- Reduction steps (R140). -/
def Task.mmNk (t : Task) : Nat := (32 * t.mmNb + t.mmKt - 1) / t.mmKt

/-- The stored row of folded row m (R144); k = 1 for A, 3 for C; k = 2 gives the offset of R145 plus m_in. -/
def Task.mmRow (t : Task) (k m : Nat) : Nat :=
  let q := m / t.mmInner
  m % t.mmInner + q % t.mmExt 0 * t.mmFold k 0 + q / t.mmExt 0 % t.mmExt 1 * t.mmFold k 1 +
    q / (t.mmExt 0 * t.mmExt 1) * t.mmFold k 2

/-- What column 0 of a tile that starts at folded row m reads as its B row (R145). -/
def Task.mmBoff (t : Task) (m : Nat) : Nat := t.mmRow 2 m - m % t.mmInner

/-! ### The visiting order (R146) -/

/-- Tile of position v in the rectangle of the generalised Hilbert curve: the recursion descends into the part that holds
v. `fuel` bounds the depth; every call at least halves a side beyond 2. -/
def gilbertAt : Nat → Nat → Int → Int → Int → Int → Int → Int → Int × Int
  | 0, _, x, y, _, _, _, _ => (x, y)
  | fuel + 1, v, x, y, ax, ay, bx, by_ =>
    let w := (ax + ay).natAbs
    let h := (bx + by_).natAbs
    if h = 1 then (x + ax.sign * v, y + ay.sign * v)
    else if w = 1 then (x + bx.sign * v, y + by_.sign * v)
    else if 3 * h < 2 * w then
      let odd := (ax / 2 + ay / 2).natAbs % 2 = 1 ∧ 2 < w
      let ax2 := if odd then ax / 2 + ax.sign else ax / 2
      let ay2 := if odd then ay / 2 + ay.sign else ay / 2
      let n := (ax2 + ay2).natAbs * h
      if v < n then gilbertAt fuel v x y ax2 ay2 bx by_
      else gilbertAt fuel (v - n) (x + ax2) (y + ay2) (ax - ax2) (ay - ay2) bx by_
    else
      let odd := (bx / 2 + by_ / 2).natAbs % 2 = 1 ∧ 2 < h
      let bx2 := if odd then bx / 2 + bx.sign else bx / 2
      let by2 := if odd then by_ / 2 + by_.sign else by_ / 2
      let ax2 := ax / 2
      let ay2 := ay / 2
      let n1 := (bx2 + by2).natAbs * (ax2 + ay2).natAbs
      let n2 := w * (bx - bx2 + (by_ - by2)).natAbs
      if v < n1 then gilbertAt fuel v x y bx2 by2 ax2 ay2
      else if v < n1 + n2 then gilbertAt fuel (v - n1) (x + bx2) (y + by2) ax ay (bx - bx2) (by_ - by2)
      else gilbertAt fuel (v - n1 - n2) (x + (ax - ax.sign) + (bx2 - bx.sign)) (y + (ay - ay.sign) + (by2 - by_.sign))
        (-bx2) (-by2) (-(ax - ax2)) (-(ay - ay2))

/-- Tile (row, column) of position v in a grid of Tm × Tn tiles. -/
def tileAt (tm tn v : Nat) : Nat × Nat :=
  let p := if tm ≤ tn then gilbertAt 200 v 0 0 tn 0 0 tm else gilbertAt 200 v 0 0 0 tm tn 0
  (p.2.toNat, p.1.toNat)

/-- The tiles of a task in its order (R138). -/
def Task.mmTiles (t : Task) : List (Nat × Nat) := (List.range t.mmCount).map fun i => tileAt t.mmTm t.mmTn (t.mmFirst + i)

/-! ### Parts, slots and spills (R139-R142) -/

/-- Rows and columns of a part (Table MAP.4). -/
def partShape (mt nt : Nat) : Nat × Nat := (min mt (if nt < 128 then 128 else 64), min nt 128)

/-- Slots of one part. -/
def Task.mmPartSlots (t : Task) : Nat := (partShape t.mmMt t.mmNt).1 * (partShape t.mmMt t.mmNt).2 / 1024

/-- Slots of a tile. -/
def Task.mmSlots (t : Task) : Nat := t.mmMt * t.mmNt / 1024

/-- Live slots D (Table MAP.5). -/
def Task.mmD (t : Task) : Nat := if t.mmKloop && t.mmNk != 1 then t.mmSlots else t.mmPartSlots

/-! ### Operand planes (R76-R78, R148, R149) -/

/-- A block of one plane: integers over one power of two; none for a block that holds a NaN (R83). -/
abbrev Blk := Option (List Int × Int)

/-- A block from its values. -/
def blkOf (vs : List Val) : Blk :=
  if vs.any fun v => match v with | .fin _ _ _ => false | _ => true then none
  else
    let e := vs.foldl (fun (a : Int) v => match v with | .fin _ _ x => min a x | _ => a) 0
    some (vs.map fun v => match v with
      | .fin n m x => let k : Int := (m * 2 ^ (x - e).toNat : Nat); if n then -k else k
      | _ => 0, e)

/-- The value of a short code under a scale, for codes that the encoder made. -/
def y8aVal (o : ShortOut) (s : Nat) : Val :=
  match o with
  | .code c => shortValue fmtY8A c s
  | .nanBlock => .qnan

/-- The planes of one 32-element block of an operand row as the staging buffers hold them (R95): element codes of the hi
plane in a format, their S8; Y8A codes of the lo plane, their S8; and the events that its conversion counts. -/
structure Planes where
  fmt : Nat
  hi  : List Nat
  sHi : Nat
  lo  : List Nat
  sLo : Nat
  cnt : Counts
deriving DecidableEq, Repr

/-- The lo plane of an operand that has none: zeros. -/
def noLo : List Nat := List.replicate 32 0

/-- The code of a conversion that makes no NaN block. -/
def codeOf (o : ShortOut) : Nat :=
  match o with
  | .code c => c
  | .nanBlock => 0x80

/-- One plane of the split (R76, steps 1 and 3): the Y8A codes of a block with FIT over its real elements, its S8, and which
elements overflowed. A block without real elements takes S8 = 0x7F (R149). -/
def splitPlane (real : List Bool) (vs : List Val) : List Nat × Nat × List Bool :=
  let s := if real.any id then fitScale fmtY8A (((vs.zip real).filter (·.2)).map (·.1)) else 127
  let os := vs.map fun v => toShort fmtY8A true .rne 0 (v.scale (127 - (s : Int)))
  (os.map fun o => codeOf o.1, s, os.map fun o => o.2.sat)

/-- The split of a block of a long operand (R76): `real` marks its elements that are no pads, `xs` are the operand's values,
`ys` the values after division by the factor; `two`: lo is used too. -/
def splitBlock (real : List Bool) (two : Bool) (xs ys : List Val) : Planes :=
  let (hi, sHi, sat) := splitPlane real ys
  let hv := hi.map fun c => shortValue fmtY8A c sHi
  let (lo, sLo, _) := splitPlane real (ys.zipWith (fun y h => (add32 y h.negate).1) hv)
  let lv := lo.map fun c => shortValue fmtY8A c sLo
  let idx := (List.range real.length).filter fun i => real.getD i false
  let ev := idx.map fun i =>
    let x := xs.getD i .zero
    let zero := (match x with | .fin _ m _ => decide (m ≠ 0) | _ => false) && (hv.getD i .zero).isZero &&
      (!two || (lv.getD i .zero).isZero)
    let s := sat.getD i false || (match x with | .inf _ => true | _ => false)
    (s, zero)
  ⟨fmtY8A, hi, sHi, lo, sLo, ⟨idx.length, (ev.filter (·.1)).length, (ev.filter (·.2)).length, 0, 0⟩⟩

/-- A plane as the arrays multiply it. -/
def blkAt (fmt : Nat) (codes : List Nat) (s8 : Nat) : Blk := blkOf (codes.map fun c => shortValue fmt c s8)

/-- The element code of an operand row from the image, at an element and a scale plane. -/
def elemCode (t : Task) (a : Attr) (base i : Nat) : Nat :=
  if a.scaled then unpackCode (fmtBits a.fmt) (fun k => t.imgByte (base + k)) i
  else t.imgNat (base + i * (fmtBits a.fmt / 8)) (fmtBits a.fmt / 8)

/-- The shadow, if any, that serves a home address (R321). -/
def Task.shadowOf (t : Task) (da : Nat) : Option (Nat × Nat × Nat × Nat) :=
  t.shadow.find? fun h => decide (h.1 ≤ da) && decide (da < h.2.1)

/-- A block of a long operand that its shadow serves: the shadow's codes and scale; a pad is the operand's pad code,
converted under that scale (R149, R321). -/
def shadowBlock (t : Task) (a : Attr) (pad from_ n : Nat) (h : Nat × Nat × Nat × Nat) : Planes :=
  let e0 := (from_ - h.1) / (fmtBits a.fmt / 8)
  let s8 := (t.imgByte (h.2.2.2 + e0 / 32)).toNat
  let pc := codeOf (toShort fmtY8A true .rne 0 ((decodeLong (longOf a.fmt) pad).scale (127 - (s8 : Int)))).1
  ⟨fmtY8A, (List.range 32).map fun j => if j < n then (t.imgByte (h.2.2.1 + e0 + j)).toNat else pc, s8, noLo, 127,
    .empty⟩

/-- The planes of block b of one operand row of k elements, from the image. `two`: the row's lo plane is used. -/
def opBlock (t : Task) (r : OpRec) (row k : Nat) (two : Bool) (b : Nat) : Planes :=
  let a := attrOf r.attr
  let base := r.base + row * r.stride
  let n := min 32 (k - 32 * b)
  let idx : List Nat := (List.range 32).map (32 * b + ·)
  if isLong a.fmt then
    match t.shadowOf (base + 32 * b * (fmtBits a.fmt / 8)) with
    | some h => shadowBlock t a r.pad (base + 32 * b * (fmtBits a.fmt / 8)) n h
    | none =>
      let xs := idx.map fun i => decodeLong (longOf a.fmt) (if i < k then elemCode t a base i else r.pad)
      let ys := xs.map fun x => (applyRecip (if a.factor then some (recip r.factor) else none) x).1
      splitBlock (idx.map fun i => decide (i < k)) two xs ys
  else
    let lb := r.lo + row * r.stride
    ⟨a.fmt, idx.map fun i => if i < k then elemCode t a base i else r.pad,
     if a.scaled then (t.imgByte (r.scale + row * r.sstride + b)).toNat else 127,
     if two then idx.map fun i => if i < k then (t.imgByte (lb + i)).toNat else 0 else noLo,
     if two && r.loScale != 0 then (t.imgByte (r.loScale + row * r.sstride + b)).toNat else 127,
     ⟨0, 0, 0, 0, (idx.filter fun i => decide (i < k) && isRsvd a.fmt (elemCode t a base i)).length⟩⟩

/-- The planes of a block that lies wholly out of bounds (R148, R149): the pad code under S8 = 0x7F. -/
def padBlock (attr pad : Nat) : Planes :=
  let a := attrOf attr
  if isLong a.fmt then
    let v := decodeLong (longOf a.fmt) pad
    splitBlock (List.replicate 32 false) true (List.replicate 32 v) (List.replicate 32 v)
  else ⟨a.fmt, List.replicate 32 pad, 127, noLo, 127, .empty⟩

/-- The rows of one transfer that fill blocks b0 to b1 − 1 of an operand row of k elements (R98): the element plane with its
scales, and with `lo` the residual plane with its own. -/
def OpRec.fillRows (r : OpRec) (row k b0 b1 : Nat) (lo : Bool) : List Row :=
  let a := attrOf r.attr
  let n := min k (32 * b1) - 32 * b0
  let nb := rowBlocks n
  ⟨r.base + row * r.stride + b0 * (fmtBits a.fmt * 4), rowBytes a n,
   if a.scaled then r.scale + row * r.sstride + b0 else 0, if a.scaled then nb else 0⟩ ::
  (if lo then [⟨r.lo + row * r.stride + 32 * b0, 32 * nb,
     if r.loScale = 0 then 0 else r.loScale + row * r.sstride + b0, if r.loScale = 0 then 0 else nb⟩] else [])

/-! ### Accumulation (R83, R84) -/

/-- One block and one term: the exact block sum, scaled, added with one rounding. -/
def accStep (acc : Flagged Val) (x y : Blk) : Flagged Val :=
  match x, y with
  | some a, some b =>
    let s : Int := (a.1.zipWith (· * ·) b.1).sum
    let r := add32 acc.1 (.fin (decide (s < 0)) s.natAbs (a.2 + b.2))
    (r.1, acc.2 ||| r.2)
  | _, _ => (.qnan, acc.2)

/-- Block terms of a cell in the order of Table NUM.9: hi × hi, hi × lo of B, lo of A × hi. -/
def accBlock (p : Nat) (acc : Flagged Val) (x y : Blk × Blk) : Flagged Val :=
  let acc := accStep acc x.1 y.1
  let acc := if 2 ≤ p then accStep acc x.1 y.2 else acc
  if 3 ≤ p then accStep acc x.2 y.1 else acc

/-- A cell over a chunk of blocks (R83, R84): every block in order. -/
def accCell (p : Nat) (init : Val) (xs ys : List (Blk × Blk)) : Flagged Val :=
  (xs.zip ys).foldl (fun acc z => accBlock p acc z.1 z.2) (init, 0)

/-! ### Residues (R85, R86) -/

/-- The residue of an integer modulo 7. -/
def mod7 (x : Int) : Nat := (x % 7).toNat

/-- The weight of a bit position modulo 7: 1, 2 and 4 in turn. -/
def weight7 (e : Nat) : Nat := 2 ^ (e % 3)

/-- The lowest bit position that an integer uses. -/
def lowestBit (u : Int) : Nat := ((List.range 128).find? fun z => decide (u.natAbs % 2 ^ (z + 1) ≠ 0)).getD 0

/-- The residue that the checker forms from the operands of one block and term: integer significands reduced modulo 7,
multiplied, weighted by 2 to the product's bit position, and added with their signs. -/
def operandResidue (x y : Blk) : Nat :=
  match x, y with
  | some a, some b =>
    (a.1.zipWith (fun u v =>
      let (i, j) := (lowestBit u, lowestBit v)
      mod7 (u / 2 ^ i) * mod7 (v / 2 ^ j) % 7 * weight7 (i + j)) b.1).sum % 7
  | _, _ => 0

/-- The residue of the exact block sum in the fixed-point adder. -/
def sumResidue (x y : Blk) : Nat :=
  match x, y with
  | some a, some b => mod7 (a.1.zipWith (· * ·) b.1).sum
  | _, _ => 0

/-- The two significands of an FP32 addition over their common lowest place. -/
def aligned (x y : Val) : Option (Int × Int × Int) :=
  match x, y with
  | .fin n1 m1 e1, .fin n2 m2 e2 =>
    let e := min e1 e2
    let k (n : Bool) (m : Nat) (d : Int) : Int := if n then -((m * 2 ^ (d - e).toNat : Nat) : Int) else (m * 2 ^ (d - e).toNat : Nat)
    some (k n1 m1 e1, k n2 m2 e2, e)
  | _, _ => none

/-- The verdict on one block and term: the operands' residue against the block sum's, the residue of the aligned
significands against the adder's unrounded output, and a second rounding against the first. -/
def blockVerdict (acc : Val) (x y : Blk) : Bool :=
  operandResidue x y == sumResidue x y &&
  (match x, y with
   | some a, some b =>
     let s : Int := (a.1.zipWith (· * ·) b.1).sum
     let v := Val.fin (decide (s < 0)) s.natAbs (a.2 + b.2)
     match aligned acc v with
     | some (u, w, e) =>
       (mod7 u + mod7 w) % 7 == mod7 (u + w) &&
       (u + w == 0 || (add32 acc v).1 == (add32 .zero (.fin (decide (u + w < 0)) (u + w).natAbs e)).1)
     | none => true
   | _, _ => true)

/-- The verdicts on a chunk of blocks of one cell (R87): all terms of every block. -/
def cellVerdict (p : Nat) (init : Val) (xs ys : List (Blk × Blk)) : Bool :=
  ((xs.zip ys).foldl (fun (a : Flagged Val × Bool) z =>
    (accBlock p a.1 z.1 z.2, a.2 && blockVerdict a.1.1 z.1.1 z.2.1)) ((init, 0), true)).2

/-! ### Ranges and checks (R137, R148, R152) -/

/-- Rows of A, rows of B, and the written rows (result row, folded row, first and end column) of a task. -/
def Task.mmRowsA (t : Task) : List Nat :=
  (t.mmTiles.flatMap fun x => (List.range (min t.mmMt (t.mmM - x.1 * t.mmMt))).map fun i =>
    t.mmRow 1 (x.1 * t.mmMt + i)).dedup
def Task.mmRowsB (t : Task) : List Nat :=
  (t.mmTiles.flatMap fun x => (List.range (min t.mmNt (t.mmN - x.2 * t.mmNt))).map fun j =>
    t.mmBoff (x.1 * t.mmMt) + x.2 * t.mmNt + j).dedup
def Task.mmOut (t : Task) : List (Nat × Nat × Nat × Nat) :=
  t.mmTiles.flatMap fun x => (List.range (min t.mmMt (t.mmM - x.1 * t.mmMt))).map fun i =>
    (t.mmRow 3 (x.1 * t.mmMt + i), x.1 * t.mmMt + i, x.2 * t.mmNt, min t.mmN ((x.2 + 1) * t.mmNt))

/-- Element and scale segments of columns c0 to c1 − 1 of a result row. -/
def OpRec.segment (r : OpRec) (row c0 c1 : Nat) : List (Nat × Nat) :=
  let a := attrOf r.attr
  let off := if a.scaled then c0 / 32 * (fmtBits a.fmt * 4) else c0 * (fmtBits a.fmt / 8)
  (r.base + row * r.stride + off, rowBytes a (c1 - c0)) ::
    (if a.scaled then [(r.scale + row * r.sstride + c0 / 32, rowBlocks (c1 - c0))] else [])

/-- KV append record (Table KV.6). -/
def Task.kvaTab (t : Task) : Nat := t.blkNat t.mmEpiDa 7
def Task.kvaPos (t : Task) : Nat := t.blkNat (t.mmEpiDa + 8) 4
def Task.kvaHeads (t : Task) : Nat := t.blkNat (t.mmEpiDa + 12) 4 % 128
def Task.kvaDc (t : Task) : Nat := t.blkNat (t.mmEpiDa + 12) 4 / 256 % 8

/-- The (plane, head) pairs that the columns of a task's tiles touch, and the heads among them. -/
def Task.kvaPlanes (t : Task) : List (Nat × Nat) :=
  let d := headDim t.kvaDc
  (t.mmTiles.flatMap fun x =>
    (List.range ((min t.mmNt (t.mmN - x.2 * t.mmNt) + 31) / 32)).map fun b => (x.1, (x.2 * t.mmNt + 32 * b) / d)).dedup
def Task.kvaLists (t : Task) : List Nat :=
  ((t.kvaPlanes.map fun p => p.2 % t.kvaHeads).dedup).mergeSort (· ≤ ·)

/-- Pieces of R232 for epi = 2. -/
def Task.kvaPieces (t : Task) : Nat :=
  let d := headDim t.kvaDc
  (t.kvaPlanes.map fun p => (min t.mmMt (t.mmM - p.1 * t.mmMt) + 31) / 32 * (d + d / 32)).sum + 17 * t.kvaLists.length

/-- Operands of a MATMUL: what it reads and writes, in bounds only (R148). -/
def mmOpds (t : Task) : List Opd :=
  let k := t.mmK
  let a := t.mmRowsA.flatMap fun r => t.mmA.rowRange r k
  let b := t.mmRowsB.flatMap fun r => t.mmB.rowRange r k
  let la := if t.mmP = 3 ∧ ¬ isLong (attrOf t.mmA.attr).fmt then t.mmRowsA.flatMap fun r => t.mmA.loRange r k else []
  let lb := if 2 ≤ t.mmP ∧ ¬ isLong (attrOf t.mmB.attr).fmt then t.mmRowsB.flatMap fun r => t.mmB.loRange r k else []
  let c := if t.mmEpi = 2 then [] else t.mmOut.flatMap fun o => t.mmC.segment o.1 o.2.2.1 o.2.2.2
  let ci := if t.mmCin then t.mmOut.map fun o => (t.mmCinDa + o.1 * t.mmC.stride + 4 * o.2.2.1, 4 * (o.2.2.2 - o.2.2.1)) else []
  let ep := if t.mmEpi = 1 then (t.epiStreams t.mmEpiDa).map fun s =>
      rdOpd (t.mmOut.flatMap fun o => s.rowRange o.1 o.2.2.1 (o.2.2.2 - o.2.2.1)) else []
  [rdOpd a, rdOpd b, rdOpd la, rdOpd lb, rdOpd ci, wrOpd c] ++ ep ++
  (if t.mmEpi = 2 then [rdOpd [(t.kvaTab, 8 * t.kvaHeads)]] else []) ++
  (if t.mmSpill then [wrOpd [(t.mmSpillDa, 4096 * t.mmSlots)]] else [])

/-- The addresses that a MATMUL names, as ranges that hold whatever its shape says. -/
def mmNamed (t : Task) : Opd :=
  let opt (a : Nat) : List (Nat × Nat) := if a = 0 then [] else [(a, 1)]
  let rec_ (r : OpRec) : List (Nat × Nat) := (r.base, 1) :: (opt r.scale ++ opt r.lo ++ opt r.loScale)
  rdOpd (rec_ t.mmA ++ rec_ t.mmB ++ (if t.mmEpi = 2 then opt t.mmC.base else rec_ t.mmC) ++
    (if t.mmSpill then [(t.mmSpillDa, 1)] else []) ++ (if t.mmCin then [(t.mmCinDa, 1)] else []))

/-- Commit lines that the run can need (R152, R232). -/
def Task.mmLines (t : Task) : Nat :=
  if t.mmEpi = 2 then linesFor t.kvaPieces
  else linesFor ((t.mmOut.map fun o => ((t.mmC.segment o.1 o.2.2.1 o.2.2.2).map fun x => piecesIn x.1 x.2).sum).sum)

/-- A plane that P needs has no source, or a residual is named where none is used (R78, Table MAP.3). -/
def loBad (r : OpRec) (need : Bool) : Bool :=
  let a := attrOf r.attr
  if need && !isLong a.fmt then a.fmt != 8 || r.lo == 0 || (a.blk && r.loScale == 0) || r.lo % 32 != 0
  else r.lo != 0 || r.loScale != 0

/-- The spill region lies wholly in one Dune stack range or one crew store. -/
def oneStore (da n : Nat) : Bool :=
  (decide (da + n ≤ duneEnd) && decide (stackOf da = stackOf (da + n - 1))) ||
  (regionOf da == some .crewStore && regionOf (da + n - 1) == some .crewStore && crewOfDa da == crewOfDa (da + n - 1))

/-- The shape checks, which everything else of R137 rests on. -/
def mmShapeBad (t : Task) : Bool :=
  t.argsLen != 8 || t.mmP == 0 || t.mmKt == 0 || decide (4096 < t.mmKt) || t.mmCount == 0 || t.mmInner == 0 ||
  decide (2 ^ 31 < t.mmInner) || t.mmN == 0 || decide (2 ^ 24 < t.mmN) || t.mmK == 0 || decide (2 ^ 24 < t.mmK) ||
  ((List.range 3).any fun f => t.mmExt f == 0) || decide (2 ^ 31 < t.mmM) || decide (2 ^ 32 < t.mmTm * t.mmTn) ||
  decide (t.mmTm * t.mmTn < t.mmFirst + t.mmCount)

/-- The field checks of a MATMUL (R135-R137, R177, R226), before the address checks. -/
def mmBad (t : Task) : Bool :=
  let a := attrOf t.mmC.attr
  let d := headDim t.kvaDc
  mmShapeBad t || t.wf 9 31 1 != 0 || t.wf 9 28 2 == 0 || t.wf 13 8 24 != 0 || t.wf 15 24 8 != 0 ||
  ((List.range 3).any fun f => t.arg (0xC2 + 16 * f) 2 != 0 ||
    (decide (t.mmNfold ≤ f) && t.arg (0xC0 + 16 * f) 16 != 0)) ||
  t.daTops [t.argsDa + 0xF0, t.argsDa + 0xF8] != 0 ||
  t.mmA.bad t.mmK false || t.mmB.bad t.mmK false || loBad t.mmA (t.mmP == 3) || loBad t.mmB (decide (2 ≤ t.mmP)) ||
  decide (2 ^ fmtBits (attrOf t.mmA.attr).fmt ≤ t.mmA.pad) || decide (2 ^ fmtBits (attrOf t.mmB.attr).fmt ≤ t.mmB.pad) ||
  t.mmC.bad t.mmN true ||
  tooMany t.mmC.attr (t.mmM * t.mmN) ||
  (((List.range 3).any fun f => t.mmFold 2 f != 0) && t.mmInner % t.mmMt != 0) ||
  (t.mmCin && a.fmt != 0) ||
  (t.mmSpill && (t.mmSpillDa % 256 != 0 || !oneStore t.mmSpillDa (4096 * t.mmSlots))) ||
  t.mmEpi == 3 || ((t.mmEpi != 0) != (t.mmEpiDa != 0)) ||
  (t.mmEpi == 1 && epiBad t t.mmEpiDa) ||
  (t.mmEpi == 2 && (t.mmC.base != 0 || t.mmN != 2 * t.kvaHeads * d || t.kvaPos % 32 != 0 || decide (5 < t.kvaDc) ||
    t.kvaHeads == 0 || decide (64 < t.kvaHeads) || !(a.fmt == 8 || a.fmt == 9) || !a.blk || a.given ||
    t.blkNat (t.mmEpiDa + 12) 4 / 128 % 2 != 0 || decide (2048 ≤ t.blkNat (t.mmEpiDa + 12) 4) ||
    t.blkNat (t.mmEpiDa + 16) 16 != 0 || t.daTops [t.mmEpiDa] != 0)) ||
  decide (t.holdLines < t.mmLines)

/-- The slot test of R141, last of all. -/
def mmOvercommit (t : Task) : Bool := decide (8 < t.mmD) && !t.mmSpill

/-! ### The drain of a part (R153) -/

/-- The columns of one part: first and end column, cut at N. -/
def Task.mmParts (t : Task) (tn : Nat) : List (Nat × Nat) :=
  let w := (partShape t.mmMt t.mmNt).2
  (List.range (t.mmNt / w)).map fun i => (tn * t.mmNt + i * w, min t.mmN (tn * t.mmNt + (i + 1) * w))

/-- The product of the operands' factors, formed once per task; none where neither carries one (R153 step 2). -/
def factorsOf (aA fA aB fB : Nat) : Option (Flagged Val) :=
  let fac (a f : Nat) : Val := if (attrOf a).factor then decodeLong fp32 f else .one
  if (attrOf aA).factor || (attrOf aB).factor then some (mul32 (fac aA fA) (fac aB fB)) else none

/-- Accumulated words after the factors (R153 step 2), with the flags of the products. -/
def factored (g : Option (Flagged Val)) (ws : List Word) : List Nat × Exc :=
  match g with
  | some f =>
    let ys := ws.map fun w => mul32 (f32 w) f.1
    (ys.map fun y => encodeLong fp32 y.1, ys.foldl (fun e y => e ||| y.2) f.2)
  | none => (ws.map (·.toNat), 0)

/-- Write one row of a tile: the FP32 words of columns from c0, of folded row m (R153 step 5). -/
def mmWriteRow (t : Task) (m rowC c0 : Nat) (ws : List Nat) : RunOut :=
  let a := attrOf t.mmC.attr
  let vs := ws.zipIdx.map fun x => (decodeLong fp32 x.1, t.drawFor a (m * t.mmN + c0 + x.2))
  let seg := t.mmC.segment rowC c0 (c0 + ws.length)
  encOut a (encRow a (encFactor a t.mmC.factor) vs) (seg.headD (0, 0)).1 ((seg.getD 1 (0, 0)).1)

/-- Hand a tile to the KV append (R153 step 4): its rows as (folded row, words) from column c0. -/
def mmAppend (t : Task) (sc : Nat → Nat) (c0 : Nat) (rows : List (Nat × List Nat)) : RunOut :=
  let a := attrOf t.mmC.attr
  let g := encFactor a t.mmC.factor
  let d := headDim t.kvaDc
  let nh := t.kvaHeads
  let v (m : Nat) (ws : List Nat) (j : Nat) : Val × Nat :=
    (decodeLong fp32 (ws.getD j 0), t.drawFor a (m * t.mmN + c0 + j))
  let width := ((rows.headD (0, [])).2).length
  let list (n : Nat) : Nat := (t.kvaLists.idxOf? (n / d % nh)).getD 0
  let ks := rows.flatMap fun r => (List.range (width / 32)).filterMap fun b =>
    let n := c0 + 32 * b
    if n < nh * d then
      some (kvK t a g sc (list n) d (t.kvaPos + r.1) (n % d / 32) ((List.range 32).map fun j => v r.1 r.2 (32 * b + j)))
    else none
  let vb := ((rows.map fun r => (t.kvaPos + r.1) / 32).dedup)
  let vs := vb.flatMap fun q => (List.range width).filterMap fun j =>
    let n := c0 + j
    if n < nh * d then none
    else
      let rs := rows.filter fun r => (t.kvaPos + r.1) / 32 == q
      some (kvV t a g sc (list n) d (32 * q) (n % d) (rs.map fun r => ((t.kvaPos + r.1) % 32, v r.1 r.2 j)))
  (ks ++ vs).foldl RunOut.append RunOut.empty

/-- One written row of a MATMUL part after its factors and its epilogue: folded row m from column c0. -/
def mmRowOut (W : Nat) (t : Task) (m c0 : Nat) (ws : List Word) : List Nat × RunOut :=
  let f := factored (factorsOf t.mmA.attr t.mmA.factor t.mmB.attr t.mmB.factor) ws
  let e := if t.mmEpi = 1 then epiRow (Stream.look t) W t t.mmEpiDa (t.mmRow 3 m) c0 f.1 else (f.1, RunOut.empty)
  (e.1, { e.2 with exc := e.2.exc ||| f.2 })

/-- The drain of a MATMUL part (R153): its written rows as (folded row, words) from column c0; `sc` gives a page frame's
scale area. -/
def mmDrain (W : Nat) (sc : Nat → Nat) (t : Task) (c0 : Nat) (rows : List (Nat × List Word)) : RunOut :=
  let done := rows.map fun r => (r.1, mmRowOut W t r.1 c0 r.2)
  let out := done.foldl (fun o d => o.append d.2.2) RunOut.empty
  if t.mmEpi = 2 then out.append (mmAppend t sc c0 (done.map fun d => (d.1, d.2.1)))
  else done.foldl (fun o d => o.append (mmWriteRow t d.1 (t.mmRow 3 d.1) c0 d.2.1)) out

end Sys2Proof.Machine
end

