-- ==== Sys2Proof/Machine/Seif.lean ====
section
/-! DEFINITION. The Seif attention pipeline (09_seif_attention.md): the ATTEND descriptor and its checks, masks and block
skipping, rotary codes, the forward pass and both backward passes. -/

namespace Sys2Proof.Machine

/-! ### Fields (Tables SEIF.2 to SEIF.4) -/

/-- A Seif tensor record. -/
structure SeifRec where
  base   : Nat
  scale  : Nat
  stride : Nat
  sstride : Nat
  headRows : Nat
  attr   : Nat
  tops   : Nat
deriving DecidableEq, Repr

/-- Read a Seif tensor record at a block address. -/
def Task.seifRec (t : Task) (da : Nat) : SeifRec :=
  ⟨t.blkNat da 7, t.blkNat (da + 8) 7, t.blkNat (da + 16) 4, t.blkNat (da + 20) 4, t.blkNat (da + 24) 4,
   t.blkNat (da + 28) 4, t.daTops [da, da + 8]⟩

def Task.atDir (t : Task) : Nat := t.wf 8 0 2
def Task.atDc (t : Task) : Nat := t.wf 8 2 3
def Task.atD (t : Task) : Nat := headDim t.atDc
def Task.atBucket (t : Task) : Nat := t.wf 8 5 5
def Task.atHeads (t : Task) : Nat := t.wf 8 10 4 + 1
def Task.atRope (t : Task) : Bool := t.wf 8 14 1 = 1
def Task.atLse (t : Task) : Bool := t.wf 8 15 1 = 1
def Task.atKvHead (t : Task) : Nat := t.wf 8 16 16
def Task.atFirst (t : Task) : Nat := t.wf 9 0 18
def Task.atCount (t : Task) : Nat := t.wf 10 0 18
def Task.atScale (t : Task) : Val := decodeLong fp32 (t.word 11).toNat
def Task.atList (t : Task) : Nat := t.daAt 12
def Task.atQbase (t : Task) : Nat := (t.word 14).toNat
def Task.atMask (t : Task) (i : Nat) : Bool := t.wf 15 i 1 = 1
def Task.atQ (t : Task) : SeifRec := t.seifRec t.argsDa
def Task.atO (t : Task) : SeifRec := t.seifRec (t.argsDa + 0x20)
def Task.atL (t : Task) : SeifRec := t.seifRec (t.argsDa + 0x40)
def Task.atDvDa (t : Task) : Nat := t.arg 0xB8 7
def Task.atDv (t : Task) : SeifRec := t.seifRec t.atDvDa
def Task.atDrec (t : Task) : SeifRec := t.seifRec (t.argsDa + 0xC0)
def Task.atG (t : Task) : SeifRec := t.seifRec (t.argsDa + 0xE0)
def Task.atT (t : Task) : Nat := t.arg 0x60 4
def Task.atH (t : Task) : Nat := t.arg 0x64 2
def Task.atW (t : Task) : Nat := t.arg 0x66 2
def Task.atNq (t : Task) : Nat := t.arg 0x68 4
def Task.atKpad (t : Task) : Nat := t.arg 0x6C 4
def Task.atFc (t : Task) : Int := signed32 (t.arg 0x70 4)
def Task.atRopeTab (t : Task) : Nat := t.arg 0xA0 7
def Task.atBitmap (t : Task) : Nat := t.arg 0xA8 7
def Task.atBmStride (t : Task) : Nat := t.arg 0xB0 4
/-- Rotary base, offset and channel pairs of axis a (t, h, w). -/
def Task.atBase (t : Task) (a : Nat) : Val := decodeLong fp32 (t.arg (0x80 + 4 * a) 4)
def Task.atOff (t : Task) (a : Nat) : Int := signed32 (t.arg (0x8C + 4 * a) 4)
def Task.atNp (t : Task) (a : Nat) : Nat := t.arg (0x98 + a) 1

/-- Row of a query record: token i of head u (R191). -/
def Task.atRow (t : Task) (r : SeifRec) (u i : Nat) : Nat := i + (t.atKvHead * t.atHeads + u) * r.headRows

/-- Row of a key record. -/
def Task.atKeyRow (t : Task) (r : SeifRec) (k : Nat) : Nat := k + t.atKvHead * r.headRows

/-- A tensor record as an operand record, for its row ranges. -/
def SeifRec.op (r : SeifRec) : OpRec := ⟨r.base, r.scale, 0, 0, r.stride, r.sstride, r.attr, 0, 0, 0⟩

/-- Frame, row and column of a token index. -/
def Task.atPos (t : Task) (x : Nat) : Nat × Nat × Nat :=
  (x / (t.atH * t.atW), x / t.atW % t.atH, x % t.atW)

/-! ### Masks and block skipping (R199, R200) -/

/-- The bitmap bit of a query block and a key block, from the image. -/
def Task.atBit (t : Task) (q kb : Nat) : Bool :=
  natBit (t.imgByte (t.atBitmap + q * t.atBmStride + kb / 8)).toNat (kb % 8)

/-- |a − b| of two numbers. -/
def dist (a b : Nat) : Nat := if a ≤ b then b - a else a - b

/-- Whether key k is visible to query token i (an index from 0 within the descriptor's queries). -/
def Task.visible (t : Task) (i k : Nat) : Bool :=
  let (fi, hi, wi) := t.atPos (t.atQbase + i)
  let (fk, hk, wk) := t.atPos k
  decide (k < t.nk) && decide (i < t.atNq) &&
  (!t.atMask 0 || decide ((fk : Int) ≤ fi + t.atFc)) &&
  (!t.atMask 1 || (decide (fi ≤ fk + t.arg 0x74 2) && decide (fk ≤ fi + t.arg 0x76 2))) &&
  (!t.atMask 2 || (decide (dist hi hk ≤ t.arg 0x78 2) && decide (dist wi wk ≤ t.arg 0x7A 2))) &&
  (!t.atMask 3 || decide (k < t.atKpad)) &&
  (!t.atMask 4 || t.atBit (i / 64) (k / 64))

/-- The ranges of frames, rows and columns of the tokens x0 to x1. -/
def Task.atRange (t : Task) (x0 x1 : Nat) : (Nat × Nat) × (Nat × Nat) × (Nat × Nat) :=
  let (f0, h0, w0) := t.atPos x0
  let (f1, h1, w1) := t.atPos x1
  ((f0, f1), (if f0 = f1 then (h0, h1) else (0, t.atH - 1)),
   (if f0 = f1 ∧ h0 = h1 then (w0, w1) else (0, t.atW - 1)))

/-- Distance between two ranges. -/
def gap (a b : Nat × Nat) : Nat := max (a.1 - b.2) (b.1 - a.2)

/-- Whether a rule masks every pair of a query block and a key block (R200). -/
def Task.blockMasked (t : Task) (q kb : Nat) : Bool :=
  let (fi, hi, wi) := t.atRange (t.atQbase + 64 * q) (t.atQbase + min (64 * q + 63) (t.atNq - 1))
  let (fk, hk, wk) := t.atRange (64 * kb) (min (64 * kb + 63) (t.nk - 1))
  (t.atMask 0 && decide ((fi.2 : Int) + t.atFc < fk.1)) ||
  (t.atMask 1 && (decide (fk.2 + t.arg 0x74 2 < fi.1) || decide (fi.2 + t.arg 0x76 2 < fk.1))) ||
  (t.atMask 2 && (decide (t.arg 0x78 2 < gap hi hk) || decide (t.arg 0x7A 2 < gap wi wk))) ||
  (t.atMask 3 && decide (t.atKpad ≤ 64 * kb)) ||
  (t.atMask 4 && !t.atBit q kb)

/-- Key blocks of n_k keys. -/
def Task.keyBlocks (t : Task) : Nat := (t.nk + 63) / 64

/-- Query blocks. -/
def Task.queryBlocks (t : Task) : Nat := (t.atNq + 63) / 64

/-- Whether a pair of blocks is computed; `skip` is SEIF_CTRL.skip_en (R201). -/
def Task.computes (t : Task) (skip : Bool) (q kb : Nat) : Bool := decide (kb < t.keyBlocks) && !(skip && t.blockMasked q kb)

/-- The pairs of blocks of a work item, in order: key blocks of a query block, or query blocks of a key block. -/
def Task.itemPairs (t : Task) (skip : Bool) (w : Nat) : List (Nat × Nat) :=
  if t.atDir = 1 then ((List.range t.queryBlocks).map fun q => (q, w)).filter fun p => t.computes skip p.1 p.2
  else ((List.range t.keyBlocks).map fun kb => (w, kb)).filter fun p => t.computes skip p.1 p.2

/-- The work items of a task (R191). -/
def Task.items (t : Task) : List Nat := (List.range t.atCount).map (t.atFirst + ·)

/-- The key blocks that a task reads, in the order of their first use. -/
def Task.keyBlocksRead (t : Task) (skip : Bool) : List Nat :=
  ((t.items.flatMap fun w => t.itemPairs skip w).map (·.2)).eraseDups

/-- The pages that a task reads (R234). -/
def Task.pagesRead (t : Task) (skip : Bool) : List Nat :=
  ((t.keyBlocksRead skip).map fun kb => 64 * kb / tokensPerPage t.atD).eraseDups

/-! ### Loading (R202-R204, R194, R209) -/

/-- One value and its flags in sequence: helper for FP32 code of several operations. -/
def orExc (e : Exc) (x : Flagged Val) : Flagged Val := (x.1, e ||| x.2)

/-- 1 / (2 π) and ln 2 as FP32 (R203, R208). -/
def cTurn : Val := decodeLong fp32 0x3E22F983
def cLn2 : Val := decodeLong fp32 0x3F317218

/-- The axis and the local pair of channel pair p (R202). -/
def Task.pairAxis (t : Task) (p : Nat) : Nat × Nat :=
  if p < t.atNp 0 then (0, p)
  else if p < t.atNp 0 + t.atNp 1 then (1, p - t.atNp 0)
  else (2, p - t.atNp 0 - t.atNp 1)

/-- The frequency of pair p (R203). -/
def Task.phi (t : Task) (p : Nat) : Flagged Val :=
  if t.atRopeTab ≠ 0 then (decodeLong fp32 (t.imgNat (t.atRopeTab + 4 * p) 4), 0)
  else
    let (a, j) := t.pairAxis p
    let e := divTo fp32 .rne (.fin true j 0) (.fin false (t.atNp a) 0)
    let l := log2v (t.atBase a)
    let m := mul32 e.1 l.1
    let x := exp2 m.1
    orExc (e.2 ||| l.2 ||| m.2 ||| x.2) (mul32 x.1 cTurn)

/-- θ = RN(frac(pos × φ)) (R204): the fractional part is pos × φ less its floor. -/
def theta (pos : Int) (phi : Val) : Flagged Val :=
  match phi with
  | .fin n m e =>
    let k : Int := pos * (if n then -(m : Int) else m)
    if 0 ≤ e then (.zero, 0)
    else
      let w : Int := (2 ^ (-e).toNat : Nat)
      roundInt fp32 .rne false 0 (k % w) e false
  | .inf _ => (.qnan, excInvalid)
  | .nan s => (.qnan, if s then excInvalid else 0)

/-- Rotate one pair by θ, forward or back. -/
def rotPair (back : Bool) (th : Val) (x0 x1 : Val) : (Val × Val) × Exc :=
  let th := if back then th.negate else th
  let c := cosv th
  let s := sinv th
  let a := mul32 x1 s.1
  let b := mul32 x1 c.1
  let y0 := fma32 x0 c.1 a.1.negate
  let y1 := fma32 x0 s.1 b.1
  ((y0.1, y1.1), c.2 ||| s.2 ||| a.2 ||| b.2 ||| y0.2 ||| y1.2)

/-- The position of a token on an axis (R202). -/
def Task.axisPos (t : Task) (x a : Nat) : Int :=
  let p := t.atPos x
  (match a with | 0 => (p.1 : Int) | 1 => p.2.1 | _ => p.2.2) + t.atOff a

/-- Rotate the channels of a token; without rope_en they stay. -/
def Task.rotate (t : Task) (back : Bool) (x : Nat) (vs : List Val) : List Val × Exc :=
  if t.atRope then
    let rs := (List.range (vs.length / 2)).map fun p =>
      let f := t.phi p
      let th := theta (t.axisPos x (t.pairAxis p).1) f.1
      let r := rotPair back th.1 (vs.getD (2 * p) .zero) (vs.getD (2 * p + 1) .zero)
      (r.1, f.2 ||| th.2 ||| r.2)
    (rs.flatMap fun r => [r.1.1, r.1.2], rs.foldl (fun e r => e ||| r.2) 0)
  else (vs, 0)

/-- A vector of elements along a reduction, in blocks of 32: integers over a power of two for each block; none is a NaN
element (R83). -/
abbrev EBlk := List (Option Int) × Int

/-- A block from its values. -/
def eblk (vs : List Val) : EBlk :=
  let e := vs.foldl (fun (a : Int) v => match v with | .fin _ _ x => min a x | _ => a) 0
  (vs.map fun v => match v with
    | .fin n m x => let k : Int := (m * 2 ^ (x - e).toNat : Nat); some (if n then -k else k)
    | _ => none, e)

/-- One exact block sum over the pairs of elements kept, scaled and added with one rounding (R83). -/
def accKept (acc : Flagged Val) (x y : EBlk) (keep : Nat → Bool) : Flagged Val :=
  let ps := ((x.1.zip y.1).zipIdx.filter fun p => keep p.2).map (·.1)
  if ps.any fun p => p.1.isNone || p.2.isNone then (.qnan, acc.2)
  else
    let s : Int := (ps.map fun p => p.1.getD 0 * p.2.getD 0).sum
    orExc acc.2 (add32 acc.1 (.fin (decide (s < 0)) s.natAbs (x.2 + y.2)))

/-- Blocks of 32 of a list. -/
def in32 {α : Type} : Nat → List α → List (List α)
  | 0, _ => []
  | n + 1, l => if l.isEmpty then [] else l.take 32 :: in32 n (l.drop 32)

/-- The Y8A encoding of values with FIT, nearest rounding, SATMODE 1, per 32 (R194, R195, R209); of each block the first
`n` overall are real elements. Values as encoded, and events. -/
def reY8A (n : Nat) (vs : List Val) : List EBlk × Counts :=
  (in32 (vs.length / 32 + 1) vs).zipIdx.foldl (fun o b =>
    let k := min 32 (n - 32 * b.2)
    let s := fitScale fmtY8A (b.1.take k)
    let os := b.1.map fun v => toShort fmtY8A true .rne 0 (v.scale (127 - (s : Int)))
    let ev := (os.take k).map (·.2)
    (o.1 ++ [eblk (os.map fun x => y8aVal x.1 s)],
     o.2.add ⟨k, (ev.filter (·.sat)).length, (ev.filter (·.zero)).length, 0, 0⟩)) ([], Counts.empty)

/-- The FP32 values of a row of `n` elements of a record. -/
def Task.seifRow (t : Task) (r : SeifRec) (row n : Nat) : List (Flagged Val) :=
  let a := attrOf r.attr
  (List.range n).map fun i =>
    decodeElem a.fmt a.sat .none (elemCode t a (r.base + row * r.stride) i)
      (if a.scaled then (t.imgByte (r.scale + row * r.sstride + i / 32)).toNat else 127)

/-- Reserved Y2 codes in such a row. -/
def Task.seifRsvd (t : Task) (r : SeifRec) (row n : Nat) : Nat :=
  let a := attrOf r.attr
  ((List.range n).filter fun i => isRsvd a.fmt (elemCode t a (r.base + row * r.stride) i)).length

/-- Element (K, channel c) of key k in its page (R214), exact. -/
def Task.keyVal (t : Task) (sc : Nat → Nat) (k c : Nat) : Val :=
  let d := t.atD
  let tpp := tokensPerPage d
  match t.frameOf 0 (k / tpp) with
  | .none => .zero
  | .some p =>
    let tk := k % tpp
    shortValue t.cacheFmt (t.imgByte (frameDa p + tk * d + c)).toNat (t.imgByte (sc p + tk * (d / 32) + c / 32)).toNat

/-- Element (V, channel c) of key k in its page, exact. -/
def Task.valVal (t : Task) (sc : Nat → Nat) (k c : Nat) : Val :=
  let d := t.atD
  let tpp := tokensPerPage d
  match t.frameOf 0 (k / tpp) with
  | .none => .zero
  | .some p =>
    let tk := k % tpp
    shortValue t.cacheFmt (t.imgByte (frameDa p + 0x8000 + c * tpp + tk)).toNat
      (t.imgByte (sc p + 0x400 + tk / 32 * d + c)).toNat

/-- FP32 of an exact cache element (R67). No attribute word comes with a page, so a magnitude above the FP32 range takes
SATMODE 0 (log entry 77). -/
def toF32 (v : Val) : Flagged Val :=
  match v with
  | .nan _ => (.qnan, 0)
  | x => toLong fp32 .rne false 0 x

/-- A loaded operand: its blocks along d, the FP32 values behind them, flags and counts. -/
structure Loaded where
  blks : List EBlk
  vals : List Val
  exc  : Exc
  cnt  : Counts
deriving DecidableEq, Repr

/-- Load a row of values along d for the score array: as it is when it is in Y8A or Y8B and not rotated, otherwise
rotated and re-encoded (R194, R206); `re` forces the re-encoding of R209. -/
def Task.loadVals (t : Task) (x : Nat) (short re : Bool) (exact : List Val) (fs : List (Flagged Val)) : Loaded :=
  let r := t.rotate false x (fs.map (·.1))
  if short && !t.atRope && !re then
    ⟨(in32 (exact.length / 32 + 1) exact).map eblk, fs.map (·.1), 0, .empty⟩
  else
    let e := reY8A exact.length r.1
    ⟨e.1, r.1, fs.foldl (fun a f => a ||| f.2) r.2, e.2⟩

/-- Query row i of head u. Rows at or beyond n_q are zero (R198). -/
def Task.loadQ (t : Task) (re : Bool) (u i : Nat) : Loaded :=
  let d := t.atD
  let r := t.atQ
  let a := attrOf r.attr
  if t.atNq ≤ i then ⟨List.replicate (d / 32) (eblk (List.replicate 32 .zero)), List.replicate d .zero, 0, .empty⟩
  else
    let row := t.atRow r u i
    let ex := (List.range d).map fun c => shortValue a.fmt (elemCode t a (r.base + row * r.stride) c)
      (if a.scaled then (t.imgByte (r.scale + row * r.sstride + c / 32)).toNat else 127)
    t.loadVals (t.atQbase + i) (isShort a.fmt) re ex (t.seifRow r row d)

/-- Key k along d. Keys at or beyond n_k are zero. -/
def Task.loadK (t : Task) (sc : Nat → Nat) (re : Bool) (k : Nat) : Loaded :=
  let d := t.atD
  if t.nk ≤ k then ⟨List.replicate (d / 32) (eblk (List.replicate 32 .zero)), List.replicate d .zero, 0, .empty⟩
  else
    let ex := (List.range d).map (t.keyVal sc k)
    t.loadVals k true re ex (ex.map toF32)

/-- Dot product along d from +0 (R194). -/
def dot (x y : List EBlk) : Flagged Val := (x.zip y).foldl (fun a b => accKept a b.1 b.2 fun _ => true) (.zero, 0)

/-- Score of a pair. -/
def Task.score (t : Task) (q k : Loaded) : Flagged Val :=
  let a := dot q.blks k.blks
  orExc a.2 (mul32 a.1 t.atScale)

/-! ### Forward (R196) -/

/-- The state of one row: m, l, O, flags, events, exponentials. -/
structure RowSt where
  m   : Val
  l   : Val
  o   : List Val
  exc : Exc
  cnt : Counts
  exps : Nat
deriving DecidableEq, Repr

/-- A row before its first block. -/
def RowSt.init (d : Nat) : RowSt := ⟨.inf true, .zero, List.replicate d .zero, 0, .empty, 0⟩

/-- One key block into a row: `n` its real keys, `vis` the mask over its 64 keys, `ks` the loaded keys, `vb` the V block
of a half and a channel. A masked key adds no product (log entry 23). -/
def Task.rowBlock (t : Task) (n : Nat) (q : Loaded) (ks : List Loaded) (vis : List Bool) (vb : Nat → Nat → EBlk)
    (st : RowSt) : RowSt :=
  let ss : List (Flagged Val) := (ks.zip vis).map fun p => if p.2 then t.score q p.1 else (.inf true, 0)
  let fs := ss.foldl (fun e s => e ||| s.2) st.exc
  let mb := ss.foldl (fun m s => (maxVal m s.1).1) (Val.inf true)
  let mn := (maxVal st.m mb).1
  if mn == .inf true then { st with exc := fs }
  else
    let sub (v : Val) : Flagged Val :=
      let x := add32 v mn.negate
      orExc x.2 (exp2 x.1)
    let al := sub st.m
    let ps : List (Flagged Val) := ss.map fun s => sub s.1
    let la := mul32 st.l al.1
    let ts := tree add32 6 (ps.map (·.1))
    let l := add32 la.1 ts.1
    let p := reY8A n (ps.map (·.1))
    let os : List (Flagged Val) := st.o.zipIdx.map fun x =>
      let y : Flagged Val := if compareVal al.1 .one == some 0 then (x.1, 0) else mul32 x.1 al.1
      (List.range 2).foldl (fun a h => accKept a (p.1.getD h ([], 0)) (vb h x.2) fun j => vis.getD (32 * h + j) false) y
    ⟨mn, l.1, os.map (·.1),
     os.foldl (fun e x => e ||| x.2) (ps.foldl (fun e x => e ||| x.2) (fs ||| al.2 ||| la.2 ||| ts.2 ||| l.2)),
     st.cnt.add p.2, st.exps + 65⟩

/-- Write one row of a record: `elem0` is the draw of its element 0. -/
def Task.writeRec (t : Task) (r : SeifRec) (row elem0 : Nat) (vs : List Val) : RunOut :=
  let a := attrOf r.attr
  encOut a (encRow a .none (vs.zipIdx.map fun v => (v.1, t.drawFor a (elem0 + v.2)))) (r.base + row * r.stride)
    (r.scale + row * r.sstride)

/-- The V block of a half of a key block and a channel, as stored. -/
def Task.vBlock (t : Task) (sc : Nat → Nat) (kb h c : Nat) : EBlk :=
  eblk ((List.range 32).map fun j =>
    let k := 64 * kb + 32 * h + j
    if k < t.nk then t.valVal sc k c else .zero)

/-- One work item of the forward pass: query block q. -/
def Task.fwdItem (t : Task) (sc : Nat → Nat) (skip : Bool) (q : Nat) : RunOut :=
  let d := t.atD
  let rows := (List.range 64).filter fun r => decide (64 * q + r < t.atNq)
  let blocks := t.itemPairs skip q
  let kbs := blocks.map fun p => (p.2, (List.range 64).map fun j => t.loadK sc false (64 * p.2 + j))
  let kcnt := kbs.foldl (fun c b => b.2.foldl (fun c k => c.add k.cnt) c) Counts.empty
  let kexc := kbs.foldl (fun e b => b.2.foldl (fun e k => e ||| k.exc) e) (0 : Exc)
  let outs := (List.range t.atHeads).flatMap fun u => rows.map fun r =>
    let i := 64 * q + r
    let qr := t.loadQ false u i
    let st := kbs.foldl (fun st b =>
      let vis := (List.range 64).map fun j => t.visible i (64 * b.1 + j)
      t.rowBlock (min 64 (t.nk - 64 * b.1)) qr b.2 vis (t.vBlock sc b.1) st) (RowSt.init d)
    let empty := st.m == .inf true
    let ov : List (Flagged Val) := st.o.map fun x => if empty then (.zero, 0) else divTo fp32 .rne x st.l
    let lg := log2v st.l
    let ls : Flagged Val := if empty then (.inf true, 0) else orExc lg.2 (add32 st.m lg.1)
    let w := t.writeRec t.atO (t.atRow t.atO u i) ((u * t.atNq + i) * d) (ov.map (·.1))
    let wl := if t.atLse then cellsAt (t.atL.base + t.atRow t.atL u i * t.atL.stride) (leBytes 4 (encodeLong fp32 ls.1)) else []
    { w with
      writes := w.writes ++ wl
      exc := if empty then 0 else ov.foldl (fun e x => e ||| x.2) (w.exc ||| st.exc ||| qr.exc ||| ls.2)
      sticky := if empty then w.sticky ||| 4 else w.sticky
      counts := if empty then w.counts else (w.counts.add st.cnt).add qr.cnt
      tally := { Tally.empty with
        exps := st.exps
        rowsEmpty := b2n empty
        rowsNan := b2n (ov.any fun x => x.1.isNan) } }
  let o := outs.foldl RunOut.append RunOut.empty
  { o with
    exc := o.exc ||| kexc
    counts := o.counts.add kcnt
    tally := { o.tally with
      blkRead := blocks.length * t.atHeads
      blkSkip := (t.keyBlocks - blocks.length) * t.atHeads } }

/-! ### Backward (R208, R209) -/

/-- p and ds of a visible pair (R208), with flags. -/
def Task.pairGrad (t : Task) (q k : Loaded) (dov vv : List EBlk) (lse dD : Val) : Val × Val × Exc :=
  if lse == .inf true then (.zero, .zero, 0)
  else
    let s := t.score q k
    let x := add32 s.1 lse.negate
    let p := exp2 x.1
    let dp := dot dov vv
    let y := add32 dp.1 dD.negate
    let ds := mul32 p.1 y.1
    (p.1, ds.1, s.2 ||| x.2 ||| p.2 ||| dp.2 ||| y.2 ||| ds.2)

/-- FP32 word of one row of a record. -/
def Task.recWord (t : Task) (r : SeifRec) (row : Nat) : Val := decodeLong fp32 (t.imgNat (r.base + row * r.stride) 4)

/-- dO row i of head u along d: blocks, values, flags, counts. -/
def Task.loadDo (t : Task) (u i : Nat) : Loaded :=
  let d := t.atD
  if t.atNq ≤ i then ⟨List.replicate (d / 32) (eblk (List.replicate 32 .zero)), List.replicate d .zero, 0, .empty⟩
  else
    let row := t.atRow t.atO u i
    let fs := t.seifRow t.atO row d
    let e := reY8A d (fs.map (·.1))
    ⟨e.1, fs.map (·.1), fs.foldl (fun a f => a ||| f.2) 0, { e.2 with rsvd := t.seifRsvd t.atO row d }⟩

/-- V of key k along d, re-encoded. -/
def Task.loadV (t : Task) (sc : Nat → Nat) (k : Nat) : Loaded :=
  let d := t.atD
  if t.nk ≤ k then ⟨List.replicate (d / 32) (eblk (List.replicate 32 .zero)), List.replicate d .zero, 0, .empty⟩
  else
    let fs := (List.range d).map fun c => toF32 (t.valVal sc k c)
    let e := reY8A d (fs.map (·.1))
    ⟨e.1, fs.map (·.1), fs.foldl (fun a f => a ||| f.2) 0, e.2⟩

/-- LSE of query row i of head u. -/
def Task.lseOf (t : Task) (u i : Nat) : Val := if i < t.atNq then t.recWord t.atL (t.atRow t.atL u i) else .inf true

/-- Everything of a pair of blocks and a head: for each of 64 × 64 pairs its visibility, p and ds. A row with LSE −∞
contributes nothing (R209). -/
structure PairBlk where
  q   : List Loaded
  k   : List Loaded
  go  : List Loaded
  v   : List Loaded
  p   : List (List Val)
  ds  : List (List Val)
  vis : List (List Bool)
  exc : Exc
deriving DecidableEq, Repr

/-- Compute a pair of blocks for head u. -/
def Task.pairBlk (t : Task) (sc : Nat → Nat) (u q kb : Nat) : PairBlk :=
  let qs := (List.range 64).map fun r => t.loadQ true u (64 * q + r)
  let gos := (List.range 64).map fun r => t.loadDo u (64 * q + r)
  let ks := (List.range 64).map fun j => t.loadK sc true (64 * kb + j)
  let vs := (List.range 64).map fun j => t.loadV sc (64 * kb + j)
  let vis := (List.range 64).map fun r =>
    let none := t.lseOf u (64 * q + r) == .inf true
    (List.range 64).map fun j => !none && t.visible (64 * q + r) (64 * kb + j)
  let g := (List.range 64).map fun r =>
    let i := 64 * q + r
    let lse := t.lseOf u i
    let dD := if i < t.atNq then t.recWord t.atDrec (t.atRow t.atDrec u i) else Val.zero
    (List.range 64).map fun j =>
      if (vis.getD r []).getD j false then
        match qs[r]?, ks[j]?, gos[r]?, vs[j]? with
        | some a, some b, some c, some e => t.pairGrad a b c.blks e.blks lse dD
        | _, _, _, _ => (Val.zero, Val.zero, (0 : Exc))
      else (Val.zero, Val.zero, (0 : Exc))
  ⟨qs, ks, gos, vs, g.map fun r => r.map (·.1), g.map fun r => r.map fun x => x.2.1, vis,
   g.foldl (fun e r => r.foldl (fun e x => e ||| x.2.2) e) 0⟩

/-- Sum of counts and flags of loaded rows. -/
def loadSum (ls : List Loaded) : Counts × Exc := ls.foldl (fun a l => (a.1.add l.cnt, a.2 ||| l.exc)) (Counts.empty, 0)

/-- Columns of a list of rows, each re-encoded along the rows in two blocks of 32 (R209); `n` real rows. -/
def encCols (n d : Nat) (rows : List (List Val)) : List (List EBlk) × Counts :=
  let cs := (List.range d).map fun c => reY8A n (rows.map fun r => r.getD c .zero)
  (cs.map (·.1), cs.foldl (fun a c => a.add c.2) Counts.empty)

/-- Rows re-encoded along themselves; `n` real elements each. -/
def encRows (n : Nat) (rows : List (List Val)) : List (List EBlk) × Counts :=
  let cs := rows.map fun r => reY8A n r
  (cs.map (·.1), cs.foldl (fun a c => a.add c.2) Counts.empty)

/-- Accumulate along 64 elements in two blocks of 32 (R83 order). -/
def accum (acc : Flagged Val) (a b : List EBlk) (vis : Nat → Bool) : Flagged Val :=
  (List.range 2).foldl (fun x h =>
    accKept x (a.getD h ([], 0)) (b.getD h ([], 0)) fun j => vis (32 * h + j)) acc

/-- Multiply by g and rotate back (R208, R209). -/
def Task.finishGrad (t : Task) (x : Nat) (vs : List Val) : List Val × Exc :=
  let g := mul32 t.atScale cLn2
  let ys := vs.map fun v => mul32 v g.1
  let r := t.rotate true x (ys.map (·.1))
  (r.1, ys.foldl (fun e y => e ||| y.2) (g.2 ||| r.2))

/-- A pair of blocks prepared for the dQ pass of head u: the pair, its encodings of ds along keys and of K along keys,
and what they count and raise. K and V are counted when they are staged, for the first head. -/
structure DqBlk where
  b   : PairBlk
  ds  : List (List EBlk)
  k   : List (List EBlk)
  cnt : Counts
  exc : Exc
deriving DecidableEq, Repr

/-- Prepare a pair of blocks for the dQ pass. -/
def Task.dqBlk (t : Task) (sc : Nat → Nat) (u q kb : Nat) (firstPair : Bool) : DqBlk :=
  let b := t.pairBlk sc u q kb
  let n := min 64 (t.nk - 64 * kb)
  let ds := encRows n (b.ds.take (t.atNq - 64 * q))
  let k := encCols n t.atD (b.k.map fun l => l.vals)
  let ld := loadSum ((if u = 0 then b.k ++ b.v else []) ++ (if firstPair then b.q ++ b.go else []))
  ⟨b, ds.1, k.1, (ds.2.add ld.1).add (if u = 0 then k.2 else Counts.empty), b.exc ||| ld.2⟩

/-- One work item of the dQ pass. -/
def Task.dqItem (t : Task) (sc : Nat → Nat) (skip : Bool) (q : Nat) : RunOut :=
  let d := t.atD
  let pairs := t.itemPairs skip q
  let rows := (List.range 64).filter fun r => decide (64 * q + r < t.atNq)
  let outs := (List.range t.atHeads).map fun u =>
    let pbs := pairs.zipIdx.map fun p => t.dqBlk sc u q p.1.2 (p.2 == 0)
    let rs := rows.map fun r =>
      let acc := (List.range d).map fun c => pbs.foldl (fun a x =>
        accum a (x.ds.getD r []) (x.k.getD c []) fun j => (x.b.vis.getD r []).getD j false) (Val.zero, (0 : Exc))
      let i := 64 * q + r
      let f := if t.lseOf u i == .inf true then (List.replicate d Val.zero, 0)
        else t.finishGrad (t.atQbase + i) (acc.map (·.1))
      let w := t.writeRec t.atG (t.atRow t.atG u i) ((u * t.atNq + i) * d) f.1
      { w with exc := acc.foldl (fun e a => e ||| a.2) (w.exc ||| f.2) }
    let o := rs.foldl RunOut.append RunOut.empty
    { o with
      exc := pbs.foldl (fun e x => e ||| x.exc) o.exc
      counts := pbs.foldl (fun c x => c.add x.cnt) o.counts
      tally := { o.tally with
        blkRead := pairs.length, blkSkip := t.keyBlocks - pairs.length, exps := 64 * rows.length * pairs.length } }
  outs.foldl RunOut.append RunOut.empty

/-- A pair of blocks prepared for the dK and dV pass: p and ds along queries for each key, dO and Q along queries for each
channel. -/
structure DkvBlk where
  b   : PairBlk
  p   : List (List EBlk)
  ds  : List (List EBlk)
  go  : List (List EBlk)
  q   : List (List EBlk)
  cnt : Counts
  exc : Exc
deriving DecidableEq, Repr

/-- Prepare a pair of blocks for the dK and dV pass; `first`: the item's first, whose key block is staged then. -/
def Task.dkvBlk (t : Task) (sc : Nat → Nat) (u q kb : Nat) (first : Bool) : DkvBlk :=
  let b := t.pairBlk sc u q kb
  let n := min 64 (t.atNq - 64 * q)
  let nk := min 64 (t.nk - 64 * kb)
  let p := encCols n nk b.p
  let ds := encCols n nk b.ds
  let go := encCols n t.atD (b.go.map fun l => l.vals)
  let qs := encCols n t.atD (b.q.map fun l => l.vals)
  let ld := loadSum (b.q ++ b.go ++ (if first then b.k ++ b.v else []))
  ⟨b, p.1, ds.1, go.1, qs.1, (((p.2.add ds.2).add go.2).add qs.2).add ld.1, b.exc ||| ld.2⟩

/-- One work item of the dK and dV pass: key block kb. -/
def Task.dkvItem (t : Task) (sc : Nat → Nat) (skip : Bool) (kb : Nat) : RunOut :=
  let d := t.atD
  let pairs := t.itemPairs skip kb
  let pu := pairs.flatMap fun p => (List.range t.atHeads).map fun u => (p.1, u)
  let pbs := pu.zipIdx.map fun x => t.dkvBlk sc x.1.2 x.1.1 kb (x.2 == 0)
  let keys := (List.range 64).filter fun j => decide (64 * kb + j < t.nk)
  let sum (j c : Nat) (w y : DkvBlk → List (List EBlk)) : Flagged Val :=
    pbs.foldl (fun a x => accum a ((w x).getD j []) ((y x).getD c []) fun r => (x.b.vis.getD r []).getD j false)
      (Val.zero, (0 : Exc))
  let outs := keys.map fun j =>
    let k := 64 * kb + j
    let dv := (List.range d).map fun c => sum j c DkvBlk.p DkvBlk.go
    let dk := (List.range d).map fun c => sum j c DkvBlk.ds DkvBlk.q
    let f := t.finishGrad k (dk.map (·.1))
    let wv := t.writeRec t.atDv (t.atKeyRow t.atDv k) (k * d) (dv.map (·.1))
    let wk := t.writeRec t.atG (t.atKeyRow t.atG k) (k * d) f.1
    let w := wk.append wv
    { w with exc := (dv ++ dk).foldl (fun e a => e ||| a.2) (w.exc ||| f.2) }
  let o := outs.foldl RunOut.append RunOut.empty
  { o with
    exc := pbs.foldl (fun e x => e ||| x.exc) o.exc
    counts := pbs.foldl (fun c x => c.add x.cnt) o.counts
    tally := { o.tally with
      blkRead := pairs.length * t.atHeads, blkSkip := (t.queryBlocks - pairs.length) * t.atHeads
      exps := 64 * keys.length * pairs.length * t.atHeads } }

/-- The run of an ATTEND: its work items in order. -/
def attRun (sc : Nat → Nat) (skip : Bool) (t : Task) : RunOut :=
  (t.items.map fun w =>
    if t.atDir = 0 then t.fwdItem sc skip w else if t.atDir = 1 then t.dkvItem sc skip w else t.dqItem sc skip w).foldl
    RunOut.append RunOut.empty

/-! ### Checks (R192) -/

/-- Query tokens of the task's work items, or all of them in the dK and dV pass. -/
def Task.atTokens (t : Task) : List Nat :=
  if t.atDir = 1 then List.range t.atNq
  else (List.range (min (64 * t.atCount) (t.atNq - 64 * t.atFirst))).map (64 * t.atFirst + ·)

/-- Ranges of a query record over the task's tokens and heads. -/
def Task.atRanges (t : Task) (r : SeifRec) (n : Nat) : List (Nat × Nat) :=
  (List.range t.atHeads).flatMap fun u => t.atTokens.flatMap fun i => r.op.rowRange (t.atRow r u i) n

/-- Ranges of a key record over the task's key blocks. -/
def Task.atKeyRanges (t : Task) (r : SeifRec) : List (Nat × Nat) :=
  (List.range (64 * t.atCount)).flatMap fun j => r.op.rowRange (t.atKeyRow r (64 * t.atFirst + j)) t.atD

/-- Operands of an ATTEND named by its descriptor; pages are found through the list. -/
def attOpds (t : Task) : List Opd :=
  let d := t.atD
  [rdOpd (t.atRanges t.atQ d), rdOpd [(t.atList, 32)],
   rdOpd (if t.atRope ∧ t.atRopeTab ≠ 0 then [(t.atRopeTab, 2 * d)] else []),
   rdOpd (if t.atMask 4 then (if t.atDir = 1 then List.range t.queryBlocks else t.items).map fun q => (t.atBitmap + q * t.atBmStride, (2 ^ t.atBucket / 64 + 7) / 8)
     else [])] ++
  (if t.atDir = 0 then
    [wrOpd (t.atRanges t.atO d), wrOpd (if t.atLse then t.atRanges t.atL 1 else [])]
   else
    [rdOpd (t.atRanges t.atO d), rdOpd (t.atRanges t.atL 1), rdOpd (t.atRanges t.atDrec 1)] ++
    (if t.atDir = 1 then [wrOpd (t.atKeyRanges t.atG), wrOpd (t.atKeyRanges t.atDv)] else [wrOpd (t.atRanges t.atG d)]))

/-- Pieces of ranges. -/
def piecesOfRanges (rs : List (Nat × Nat)) : Nat := (rs.map fun r => piecesIn r.1 r.2).sum

/-- Pieces of the outputs; the LSE of one head and query block counts as its 256 bytes (R192). -/
def Task.atPieces (t : Task) : Nat :=
  if t.atDir = 0 then
    piecesOfRanges (t.atRanges t.atO t.atD) +
    (if t.atLse then ((List.range t.atHeads).flatMap fun u => t.items.map fun q =>
      piecesIn (t.atL.base + t.atRow t.atL u (64 * q) * t.atL.stride) 256).sum else 0)
  else if t.atDir = 1 then piecesOfRanges (t.atKeyRanges t.atG) + piecesOfRanges (t.atKeyRanges t.atDv)
  else piecesOfRanges (t.atRanges t.atG t.atD)

/-- The form of a tensor record (R57, R62, R63). -/
def SeifRec.bad (r : SeifRec) : Bool :=
  let a := attrOf r.attr
  r.tops != 0 || a.factor || !attrOk r.attr ||
  (if a.scaled then r.scale == 0 else r.scale != 0)

/-- A finite value above 1. -/
def aboveOne (v : Val) : Bool :=
  match v with
  | .fin _ _ _ => ltVal .one v
  | _ => false

/-- The field checks of an ATTEND (R191, R192). -/
def attBad (t : Task) : Bool :=
  let d := t.atD
  let thw := t.atT * t.atH * t.atW
  let qf := (attrOf t.atQ.attr).fmt
  t.argsLen != 8 || t.atDir == 3 || decide (5 < t.atDc) || decide (1024 < t.atHeads * d) || decide (t.atBucket < 6) ||
  decide (24 < t.atBucket) || t.atCount == 0 || t.wf 9 18 14 != 0 || t.wf 10 18 14 != 0 || t.wf 13 24 8 != 0 ||
  t.wf 15 5 27 != 0 || t.arg 0x7C 4 != 0 || t.arg 0x9B 5 != 0 || t.arg 0xB4 4 != 0 ||
  t.daTops [t.argsDa + 0xA0, t.argsDa + 0xA8, t.argsDa + 0xB8] != 0 ||
  !(qf == 8 || qf == 9 || decide (qf ≤ 2)) || t.atQ.bad || t.atO.bad ||
  (attrOf t.atL.attr).fmt != 0 || t.atL.bad ||
  (t.atDir != 0 && ((attrOf t.atDrec.attr).fmt != 0 || t.atDrec.bad || t.atG.bad)) ||
  (t.atDir == 1 && t.atDvDa != 0 && t.atDv.bad) ||
  t.atH == 0 || t.atW == 0 || decide (2 ^ 24 < thw) || decide (thw < t.atQbase + t.atNq) ||
  (t.atDir != 1 && decide ((t.atNq + 63) / 64 < t.atFirst + t.atCount)) ||
  (t.atRope && 2 * (t.atNp 0 + t.atNp 1 + t.atNp 2) != d) ||
  (t.atRope && t.atRopeTab == 0 && ((List.range 3).any fun a => t.atNp a != 0 && !aboveOne (t.atBase a))) ||
  (t.atMask 4 && t.atBitmap == 0) || ((t.atDir == 1) != (t.atDvDa != 0)) ||
  t.atList % 32 != 0 || decide (duneEnd ≤ t.atList) ||
  tooMany t.atO.attr (if t.atDir = 0 then t.atHeads * t.atNq * d else 0) ||
  decide (t.holdLines < linesFor t.atPieces)

end Sys2Proof.Machine
end

