-- ==== Sys2Proof/Machine/Conv.lean ====
section
/-! DEFINITION. Convolution (11_convolution.md): the CONV descriptor, its layouts and checks, the gathered product on the
arrays, the Bow engine's sums, the frequency-domain phases and fixed-rate compression. -/

namespace Sys2Proof.Machine

/-- A convolution tensor record (Table CONV.3). -/
structure ConvRec where
  base    : Nat
  scale   : Nat
  lo      : Nat
  loScale : Nat
  sa      : Nat
  sb      : Nat
  attr    : Nat
  pad     : Nat
  factor  : Nat
  reserved : Nat
deriving DecidableEq, Repr

/-- Read a convolution tensor record at a block address; `reserved` is 0 when every reserved bit of it is. -/
def Task.convRec (t : Task) (da : Nat) : ConvRec :=
  ⟨t.blkNat da 7, t.blkNat (da + 8) 7, t.blkNat (da + 16) 7, t.blkNat (da + 24) 7, t.blkNat (da + 32) 8,
   t.blkNat (da + 40) 8, t.blkNat (da + 48) 4, t.blkNat (da + 52) 4, t.blkNat (da + 56) 4,
   t.blkNat (da + 60) 4 + t.daTops [da, da + 8, da + 16, da + 24]⟩

/-! ### Fields (Tables CONV.1, CONV.2). Word 9 is laid out as in MATMUL: mmMt, mmNt, mmKt, mmP, mmKloop, mmFirst. -/

def Task.cvRoute (t : Task) : Nat := t.wf 10 0 2
def Task.cvInv (t : Task) : Bool := t.wf 10 2 1 = 1
def Task.cvEpi (t : Task) : Nat := t.wf 10 3 2
def Task.cvCin (t : Task) : Bool := t.wf 10 5 1 = 1
def Task.cvSpill (t : Task) : Bool := t.wf 10 6 1 = 1
def Task.cvRgOut (t : Task) : Bool := t.wf 10 7 1 = 1
def Task.cvRhw (t : Task) : Nat := 2 ^ t.wf 10 8 2
def Task.cvRt (t : Task) : Nat := 2 ^ t.wf 10 10 1
def Task.cvFrcIn (t : Task) : Nat := t.wf 10 11 2
def Task.cvFrcOut (t : Task) : Nat := t.wf 10 13 2
def Task.cvGroups (t : Task) : Nat := t.wf 10 16 16
def Task.cvB (t : Task) : Nat := t.wf 11 0 16
def Task.cvCi (t : Task) : Nat := t.wf 11 16 16
def Task.cvCo (t : Task) : Nat := t.wf 12 0 16
/-- Kernel extent, stride and dilation of axis a (t, h, w). -/
def Task.cvK (t : Task) (a : Nat) : Nat := t.wf 12 (16 + 4 * a) 4 + 1
def Task.cvS (t : Task) (a : Nat) : Nat := t.wf 13 (3 * a) 3 + 1
def Task.cvDil (t : Task) (a : Nat) : Nat := t.wf 13 (9 + 3 * a) 3 + 1
def Task.cvCbwIn (t : Task) : Nat := if t.wf 13 18 1 = 1 then 32 else 16
def Task.cvCbwOut (t : Task) : Nat := if t.wf 13 19 1 = 1 then 32 else 16
def Task.cvF (t : Task) : Nat := 4 ^ t.wf 13 20 3
def Task.cvIn (t : Task) : ConvRec := t.convRec t.argsDa
def Task.cvW (t : Task) : ConvRec := t.convRec (t.argsDa + 0x40)
def Task.cvOut (t : Task) : ConvRec := t.convRec (t.argsDa + 0x80)
/-- Input and output extent of axis a. -/
def Task.cvInExt (t : Task) (a : Nat) : Nat := if a = 0 then t.arg 0xC0 4 else t.arg (0xC2 + 2 * a) 2
def Task.cvOutExt (t : Task) (a : Nat) : Nat := if a = 0 then t.arg 0xC8 4 else t.arg (0xCA + 2 * a) 2
def Task.cvPad (t : Task) (a : Nat) : Nat := t.arg (0xD0 + 2 * a) 2
def Task.cvSpillDa (t : Task) : Nat := t.arg 0xD8 7
def Task.cvCinDa (t : Task) : Nat := t.arg 0xE0 7
def Task.cvPitch (t : Task) : Nat := t.arg 0xE8 4

/-- Regrouping factors of the input and of the output, by axis; 1 where the task does not regroup (R251, R252). -/
def Task.cvRg (t : Task) (a : Nat) : Nat := if t.cvRoute = 1 then (if a = 0 then t.cvRt else t.cvRhw) else 1
def Task.cvRgI (t : Task) (a : Nat) : Nat := if t.cvRgOut then 1 else t.cvRg a
def Task.cvRgO (t : Task) (a : Nat) : Nat := if t.cvRgOut then t.cvRg a else 1

/-- Channels of the product: cin and cout after regrouping, per group, and the effective group width (R247). -/
def Task.cvGw (t : Task) : Nat := t.cvCi * (t.cvRgI 0 * t.cvRgI 1 * t.cvRgI 2) / t.cvGroups
def Task.cvGo (t : Task) : Nat := t.cvCo * (t.cvRgO 0 * t.cvRgO 1 * t.cvRgO 2) / t.cvGroups
def effWidth (g : Nat) : Nat :=
  if g ≤ 1 then 1 else if g ≤ 2 then 2 else if g ≤ 4 then 4 else if g ≤ 8 then 8 else if g ≤ 16 then 16
  else (g + 31) / 32 * 32
def Task.cvGe (t : Task) : Nat := effWidth t.cvGw
def Task.cvTaps (t : Task) : Nat := t.cvK 0 * t.cvK 1 * t.cvK 2
/-- K and the blocks of Kb. -/
def Task.cvKlen (t : Task) : Nat := t.cvTaps * t.cvGe
def Task.cvNb (t : Task) : Nat := (t.cvKlen + 31) / 32
def Task.cvNk (t : Task) : Nat := (32 * t.cvNb + t.mmKt - 1) / t.mmKt

/-- Rows of the product: positions, or whole 4 × 4 blocks of positions when the output is FRC (R248). -/
def Task.cvM (t : Task) : Nat :=
  if t.cvFrcOut = 0 then t.cvB * t.cvOutExt 0 * t.cvOutExt 1 * t.cvOutExt 2
  else t.cvB * t.cvOutExt 0 * ((t.cvOutExt 1 + 3) / 4) * ((t.cvOutExt 2 + 3) / 4) * 16
def Task.cvTm (t : Task) : Nat := (t.cvM + t.mmMt - 1) / t.mmMt
def Task.cvTng (t : Task) : Nat := (t.cvGo + t.mmNt - 1) / t.mmNt
def Task.cvTn (t : Task) : Nat := t.cvGroups * t.cvTng
def Task.cvTiles (t : Task) : List (Nat × Nat) := (List.range t.mmCount).map fun i => tileAt t.cvTm t.cvTn (t.mmFirst + i)

/-- The output position (n, t, h, w) of row m; none where the slot is out of bounds. -/
def Task.cvPos (t : Task) (m : Nat) : Option (Nat × Nat × Nat × Nat) :=
  let T := t.cvOutExt 0
  let H := t.cvOutExt 1
  let W := t.cvOutExt 2
  if t.cvM ≤ m then .none
  else if t.cvFrcOut = 0 then some (m / (T * H * W), m / (H * W) % T, m / W % H, m % W)
  else
    let bh := (H + 3) / 4
    let bw := (W + 3) / 4
    let b := m / 16
    let h := b / bw % bh * 4 + m % 16 / 4
    let w := b % bw * 4 + m % 4
    if h < H ∧ w < W then some (b / (T * bh * bw), b / (bh * bw) % T, h, w) else .none

/-! ### Layouts (R242, R243, R261) -/

/-- Bytes of a position block. -/
def posBytes (a : Attr) (cbw : Nat) : Nat := if fmtBits a.fmt < 8 then fmtBits a.fmt * 4 else cbw * (fmtBits a.fmt / 8)

/-- Address of a position block. -/
def ConvRec.blockDa (r : ConvRec) (pb H W n cb tt h w : Nat) : Nat := r.base + n * r.sb + cb * r.sa + ((tt * H + h) * W + w) * pb

/-- Bytes of an FRC block: 256 at 2:1, 128 at 4:1. -/
def frcBytes (m : Nat) : Nat := if m = 1 then 256 else 128

/-- Address of an FRC block (R261). -/
def ConvRec.frcDa (r : ConvRec) (m H W n cb tt h w : Nat) : Nat :=
  r.base + n * r.sb + cb * r.sa + ((tt * ((H + 3) / 4) + h / 4) * ((W + 3) / 4) + w / 4) * frcBytes m

/-- A signed residue of `w` bits. -/
def signedBits (w v : Nat) : Int := if v < 2 ^ (w - 1) then v else (v : Int) - 2 ^ w

/-- Decode one value of an FRC record (R263, R264). -/
def frcValue (byte : Nat → Byte) (mode p : Nat) : Val :=
  let E := (byte 0).toNat
  let k := signedBits 8 (byte 1).toNat
  let w := if mode = 1 then 7 else 3
  let m := signedBits w (unpackCode w (fun i => byte (2 + i)) p)
  if E = 0xFF then .qnan
  else
    let x := k + m
    .fin (decide (x < 0)) x.natAbs ((E : Int) - 127)

/-- x / 2^(E − 127) to the nearest integer, ties to even (R262). -/
def frcRound (x : Val) (E : Nat) : Int := (toInt 256 .rne (x.scale (127 - (E : Int)))).1

/-- Encode one channel of an FRC block: 16 values, none for a position outside the extent. The bytes that an E of 0xFF
leaves open are free (log entry 14). -/
def frcEncode (mode da : Nat) (vs : List (Option Val)) : List Byte × Bool :=
  let w := if mode = 1 then 7 else 3
  let len := if mode = 1 then 16 else 8
  let Q : Int := 2 ^ (w - 1) - 1
  let xs := vs.filterMap id
  let bad := xs.any fun v => match v with | .fin _ _ _ => false | _ => true
  if bad then ((0xFF : Byte) :: (List.range (len - 1)).map fun i => Config.freeByte (da + 1 + i), true)
  else if xs.all Val.isZero then (List.replicate len 0, false)
  else
    let hi := xs.foldl (fun a v => if ltVal a v then v else a) (xs.headD .zero)
    let lo := xs.foldl (fun a v => if ltVal v a then v else a) (xs.headD .zero)
    let k (E : Nat) : Int :=
      let s := frcRound hi E + frcRound lo E
      if s % 2 = 0 then s / 2 else if (s - 1) / 2 % 2 = 0 then (s - 1) / 2 else (s + 1) / 2
    let E := ((List.range 255).find? fun E => decide (frcRound hi E - frcRound lo E ≤ 2 * Q) && decide ((k E).natAbs ≤ 127)).getD 254
    let ms := vs.map fun v => match v with | some x => intCode w (frcRound x E - k E) | none => 0
    (BitVec.ofNat 8 E :: BitVec.ofNat 8 (intCode 8 (k E)) :: packCodes w ms, false)

/-! ### The gathered input (R245, R247, R251) -/

/-- What element k of row m reads: a pad, a zero channel, or channel c of an input position. -/
inductive Gather where
  | pad
  | zero
  | at_ (n c tt h w : Nat)
deriving DecidableEq, Repr

/-- Element (m, k) of the A operand of a group. -/
def Task.gather (t : Task) (grp m k : Nat) : Gather :=
  match t.cvPos m with
  | .none => .pad
  | some (n, ot, oh, ow) =>
    if t.cvKlen ≤ k then .pad
    else
      let tap := k / t.cvGe
      let c := k % t.cvGe
      if t.cvGw ≤ c then .zero
      else
        let ix (a o i : Nat) : Int := (o * t.cvS a : Nat) - (t.cvPad a : Int) + (i * t.cvDil a : Nat)
        let it := ix 0 ot (tap / (t.cvK 1 * t.cvK 2))
        let ih := ix 1 oh (tap / t.cvK 2 % t.cvK 1)
        let iw := ix 2 ow (tap % t.cvK 2)
        let cc := grp * t.cvGw + c
        let q := cc / t.cvCi
        let ext (a : Nat) : Int := ((t.cvInExt a + t.cvRgI a - 1) / t.cvRgI a : Nat)
        if it < 0 ∨ ih < 0 ∨ iw < 0 ∨ ext 0 ≤ it ∨ ext 1 ≤ ih ∨ ext 2 ≤ iw then .pad
        else
          let tt := it.toNat * t.cvRgI 0 + q / (t.cvRgI 1 * t.cvRgI 2)
          let h := ih.toNat * t.cvRgI 1 + q / t.cvRgI 2 % t.cvRgI 1
          let w := iw.toNat * t.cvRgI 2 + q % t.cvRgI 2
          if t.cvInExt 0 ≤ tt ∨ t.cvInExt 1 ≤ h ∨ t.cvInExt 2 ≤ w then .pad else .at_ n (cc % t.cvCi) tt h w

/-- Code and block scale of channel c of an input position, in one plane. -/
def Task.cvCode (t : Task) (r : ConvRec) (a : Attr) (base scale n c tt h w : Nat) : Nat × Nat :=
  let cbw := t.cvCbwIn
  let pb := posBytes a cbw
  let da := { r with base := base }.blockDa pb (t.cvInExt 1) (t.cvInExt 2) n (c / cbw) tt h w
  let code := if fmtBits a.fmt < 8 then unpackCode (fmtBits a.fmt) (fun i => t.imgByte (da + i)) (c % cbw)
    else t.imgNat (da + c % cbw * (fmtBits a.fmt / 8)) (fmtBits a.fmt / 8)
  (code, if a.scaled then (t.imgByte (scale + (da - base) / pb)).toNat else 127)

/-- The exact value of channel c of an input position, before any factor. -/
def Task.cvValue (t : Task) (n c tt h w : Nat) : Val :=
  let r := t.cvIn
  let a := attrOf r.attr
  if t.cvFrcIn ≠ 0 then
    let da := r.frcDa t.cvFrcIn (t.cvInExt 1) (t.cvInExt 2) n (c / 16) tt h w + c % 16 * (frcBytes t.cvFrcIn / 16)
    frcValue (fun i => t.imgByte (da + i)) t.cvFrcIn (h % 4 * 4 + w % 4)
  else
    let x := t.cvCode r a r.base r.scale n c tt h w
    if isLong a.fmt then decodeLong (longOf a.fmt) x.1 else shortValue a.fmt x.1 x.2

/-- The pad of the input as a value. -/
def Task.cvPadVal (t : Task) : Val :=
  let a := attrOf t.cvIn.attr
  if isLong a.fmt then decodeLong (longOf a.fmt) t.cvIn.pad else shortValue a.fmt t.cvIn.pad 0x7F

/-- The planes of block b of row m for a group (R245, R247), from the image. -/
def Task.cvBlockA (t : Task) (grp m b : Nat) : Planes :=
  let r := t.cvIn
  let a := attrOf r.attr
  let gs := (List.range 32).map fun j => t.gather grp m (32 * b + j)
  if isLong a.fmt || t.cvFrcIn != 0 then
    let vs := gs.map fun g => match g with
      | .pad => t.cvPadVal | .zero => Val.zero | .at_ n c tt h w => t.cvValue n c tt h w
    let real := gs.map fun g => match g with | .at_ _ _ _ _ _ => true | _ => false
    splitBlock real (t.mmP == 3) vs (vs.map fun x => (applyRecip (if a.factor then some (recip r.factor) else .none) x).1)
  else
    let xs := gs.map fun g => match g with
      | .pad => (r.pad, 127) | .zero => (0, 127)
      | .at_ n c tt h w => t.cvCode r a r.base r.scale n c tt h w
    let la := { a with fmt := fmtY8A, blk := r.loScale != 0 }
    let ls := gs.map fun g => match g with
      | .at_ n c tt h w => if t.mmP = 3 then t.cvCode r la r.lo r.loScale n c tt h w else (0, 127)
      | _ => (0, 127)
    let scale (ys : List (Nat × Nat)) : Nat := (((gs.zip ys).find? fun g => match g.1 with
      | .at_ _ _ _ _ _ => true | _ => false).map fun g => g.2.2).getD 127
    ⟨a.fmt, xs.map (·.1), scale xs, ls.map (·.1), scale ls,
     ⟨0, 0, 0, 0, ((gs.zip xs).filter fun g => match g.1 with
       | .at_ _ _ _ _ _ => isRsvd a.fmt g.2.1 | _ => false).length⟩⟩

/-- The weights as an operand of rows of Kb elements as stored (R247), and their block b. -/
def Task.cvWOp (t : Task) : OpRec :=
  let r := t.cvW
  ⟨r.base, r.scale, r.lo, r.loScale, r.sa, r.sa / (fmtBits (attrOf r.attr).fmt * 4), r.attr, 0, r.factor, 0⟩
def Task.cvBlockB (t : Task) (o b : Nat) : Planes :=
  let p := opBlock t t.cvWOp o (32 * t.cvNb) (decide (2 ≤ t.mmP)) b
  { p with cnt := { p.cnt with elems := if p.cnt.elems = 0 then 0 else min 32 (t.cvKlen - 32 * b) } }

/-- The rows of one transfer that fill blocks b0 to b1 − 1 of row m of a group: the position blocks that it gathers from,
each with its scale, and at P = 3 their residual planes. -/
def Task.cvFillA (t : Task) (grp m b0 b1 : Nat) : List Row :=
  let r := t.cvIn
  let a := attrOf r.attr
  let cbw := t.cvCbwIn
  let pb := posBytes a cbw
  ((List.range (32 * (b1 - b0))).flatMap fun j =>
    match t.gather grp m (32 * b0 + j) with
    | .at_ n c tt h w =>
      if t.cvFrcIn ≠ 0 then
        [(⟨r.frcDa t.cvFrcIn (t.cvInExt 1) (t.cvInExt 2) n (c / 16) tt h w, frcBytes t.cvFrcIn, 0, 0⟩ : Row)]
      else
        let off := r.blockDa pb (t.cvInExt 1) (t.cvInExt 2) n (c / cbw) tt h w - r.base
        let sn := b2n a.scaled
        ⟨r.base + off, pb, sn * (r.scale + off / pb), sn⟩ ::
        (if t.mmP = 3 ∧ ¬ isLong a.fmt then
          let ln := if r.loScale = 0 then 0 else 1
          [⟨r.lo + off, pb, ln * (r.loScale + off / pb), ln⟩] else [])
    | _ => []).dedup

/-! ### Output (R248, R252, R261-R265) -/

/-- Output extent of an axis as stored. -/
def Task.cvOutFull (t : Task) (a : Nat) : Nat := t.cvOutExt a * t.cvRgO a

/-- Where column n of a position is written: (n, channel, t, h, w) in the stored output. -/
def Task.cvPlace (t : Task) (p : Nat × Nat × Nat × Nat) (col : Nat) : Nat × Nat × Nat × Nat × Nat :=
  let q := col / t.cvCo
  (p.1, col % t.cvCo, p.2.1 * t.cvRgO 0 + q / (t.cvRgO 1 * t.cvRgO 2),
   p.2.2.1 * t.cvRgO 1 + q / t.cvRgO 2 % t.cvRgO 1, p.2.2.2 * t.cvRgO 2 + q % t.cvRgO 2)

/-- Address of the position block of a stored output place, with elements of the given attribute at a given base. -/
def Task.cvOutDa (t : Task) (base : Nat) (a : Attr) (x : Nat × Nat × Nat × Nat × Nat) : Nat :=
  { t.cvOut with base := base }.blockDa (posBytes a t.cvCbwOut) (t.cvOutFull 1) (t.cvOutFull 2) x.1
    (x.2.1 / t.cvCbwOut) x.2.2.1 x.2.2.2.1 x.2.2.2.2

/-- An epilogue stream's element (m, n) of a CONV (R248): in the output layout with its own base; a stream with
row_stride 0 by its elem_stride. Row is m. -/
def Task.cvLook (t : Task) (s : Stream) (m n : Nat) : Nat × Nat :=
  let a := attrOf s.attr
  if s.rstride = 0 then s.look t 0 n
  else match t.cvPos m with
    | .none => (0, 127)
    | some p =>
      let x := t.cvPlace p n
      let da := t.cvOutDa s.base a x
      let c := x.2.1 % t.cvCbwOut
      (if fmtBits a.fmt < 8 then unpackCode (fmtBits a.fmt) (fun i => t.imgByte (da + i)) c
       else t.imgNat (da + c * (fmtBits a.fmt / 8)) (fmtBits a.fmt / 8),
       if a.scaled then (t.imgByte (s.scale + (da - s.base) / posBytes a t.cvCbwOut)).toNat else 127)

/-- The FP32 C operand of a place, in the output layout (R248). -/
def Task.cvInit (t : Task) (x : Nat × Nat × Nat × Nat × Nat) : Val :=
  if t.cvCin then decodeLong fp32 (t.imgNat (t.cvOutDa t.cvCinDa ⟨0, false, 0, false, false, false, 0⟩ x + x.2.1 % t.cvCbwOut * 4) 4)
  else .zero

/-- A written cell: its place, its FP32 value and its draw. -/
abbrev Cell32 := (Nat × Nat × Nat × Nat × Nat) × Val × Nat

/-- Write cells in the plain layout: position block by position block; channels at or beyond C in the last block are
code 0 (R243). -/
def Task.cvWritePlain (t : Task) (cs : List Cell32) : RunOut :=
  let r := t.cvOut
  let a := attrOf r.attr
  let g := encFactor a r.factor
  let cbw := t.cvCbwOut
  let pb := posBytes a cbw
  let das := (cs.map fun c => t.cvOutDa r.base a c.1).dedup
  (das.map fun da =>
    let mine := cs.filter fun c => t.cvOutDa r.base a c.1 == da
    let cb := ((mine.map fun c => c.1.2.1 / cbw).headD 0) * cbw
    let tailPad := (List.range cbw).filter fun j => decide (t.cvCo ≤ cb + j)
    if a.scaled then
      let els := (List.range cbw).filterMap fun j => (mine.find? fun c => c.1.2.1 % cbw == j).map fun c => (j, c.2)
      let e := encBlock a (els.map fun x => ((applyRecip g x.2.1).1, x.2.2))
      let place (cs : List Nat) : List Nat := (List.range 32).map fun j => (((els.map (·.1)).zip cs).lookup j).getD 0
      let o := encOut a { e with codes := place e.codes, lo := if e.lo.isEmpty then [] else place e.lo } da
        (r.scale + (da - r.base) / pb)
      { o with counts := { o.counts with elems := els.length } }
    else
      let w := fmtBits a.fmt / 8
      let o := (mine.map fun c => encOut a (encRow a g [c.2]) (da + c.1.2.1 % cbw * w) 0).foldl RunOut.append RunOut.empty
      if mine.any fun c => c.1.2.1 + 1 == t.cvCo then
        { o with writes := o.writes ++ tailPad.flatMap fun j => cellsAt (da + j * w) (List.replicate w 0) }
      else o).foldl RunOut.append RunOut.empty

/-- Write cells as whole FRC blocks (R261, R265). -/
def Task.cvWriteFrc (t : Task) (cs : List Cell32) : RunOut :=
  let r := t.cvOut
  let m := t.cvFrcOut
  let rec_ := frcBytes m / 16
  let key (c : Cell32) : Nat := r.frcDa m (t.cvOutFull 1) (t.cvOutFull 2) c.1.1 (c.1.2.1 / 16) c.1.2.2.1 c.1.2.2.2.1 c.1.2.2.2.2
  ((cs.map key).dedup.map fun da =>
    let mine := cs.filter fun c => key c == da
    let chans := (List.range 16).map fun j =>
      let ch := mine.filter fun c => c.1.2.1 % 16 == j
      if ch.isEmpty then (List.replicate rec_ (0 : Byte), false)
      else frcEncode m (da + j * rec_) ((List.range 16).map fun p =>
        (ch.find? fun c => c.1.2.2.2.1 % 4 * 4 + c.1.2.2.2.2 % 4 == p).map fun c => c.2.1)
    { RunOut.empty with
      writes := cellsAt da (chans.flatMap (·.1))
      tally := { Tally.empty with frcBlocks := 1, frcNans := (chans.filter (·.2)).length } }).foldl RunOut.append RunOut.empty

/-- Write cells under R153 steps 5 and 6. -/
def Task.cvWrite (t : Task) (cs : List Cell32) : RunOut := if t.cvFrcOut = 0 then t.cvWritePlain cs else t.cvWriteFrc cs

/-! ### The Bow engine (R253) -/

/-- The exact sum of products of a beat added to the accumulator with one rounding; NaNs and infinities as IEEE sums
them. -/
def bowBeat (acc : Flagged Val) (ps : List (Val × Val)) : Flagged Val :=
  let fins := ps.map fun p => match p.1, p.2 with
    | .fin n1 m1 e1, .fin n2 m2 e2 => (Val.fin (n1 ^^ n2) (m1 * m2) (e1 + e2), (0 : Exc))
    | a, b => mulTo fp32 .rne a b
  let e := fins.foldl (fun x f => x ||| f.2) acc.2
  let inf (n : Bool) : Bool := fins.any fun f => f.1 == .inf n
  if fins.any fun f => f.1.isNan then (.qnan, e)
  else if inf true && inf false then (.qnan, e ||| excInvalid)
  else if inf true || inf false then orExc e (add32 acc.1 (.inf (inf true)))
  else
    let b := eblk (fins.map (·.1))
    let s : Int := (b.1.map fun x => x.getD 0).sum
    orExc e (add32 acc.1 (.fin (decide (s < 0)) s.natAbs b.2))

/-- Weight k of row o as the Bow takes it: decoded, or from the shadow that serves it (R321). -/
def Task.bowWeight (t : Task) (o k : Nat) : Val :=
  let da := t.cvW.base + o * t.cvW.sa + k * 2
  match t.shadowOf da with
  | some h =>
    let e := (da - h.1) / 2
    shortValue fmtY8A (t.imgByte (h.2.2.1 + e)).toNat (t.imgByte (h.2.2.2 + e / 32)).toNat
  | .none => decodeLong (longOf (attrOf t.cvW.attr).fmt) (t.imgNat da 2)

/-- A cell of route 2: beats in increasing (it, ih). -/
def Task.bowCell (t : Task) (init : Val) (m o : Nat) : Flagged Val :=
  let kw := t.cvK 2
  (List.range (t.cvK 0 * t.cvK 1)).foldl (fun acc b =>
    bowBeat acc ((List.range (kw * t.cvGe)).map fun j =>
      let k := b * kw * t.cvGe + j
      let x := match t.gather 0 m k with
        | .pad => t.cvPadVal | .zero => .zero | .at_ n c tt h w => t.cvValue n c tt h w
      (x, t.bowWeight o k))) (init, 0)

/-! ### What a part writes (R248, R153), and the run on the Bow -/

/-- Columns of one part of tile column x: the group, first and end column within the group. -/
def Task.cvParts (t : Task) (x : Nat) : List (Nat × Nat × Nat) :=
  let w := (partShape t.mmMt t.mmNt).2
  let grp := x / t.cvTng
  let c0 := x % t.cvTng * t.mmNt
  ((List.range (t.mmNt / w)).map fun i => (grp, c0 + i * w, min t.cvGo (c0 + (i + 1) * w))).filter fun c => c.2.1 < c.2.2

/-- Written cells of row m: its columns as (column of the product, word after the epilogue) at their places, with draws. -/
def Task.cvCells (t : Task) (m : Nat) (cols : List Nat) (ws : List Nat) : List Cell32 :=
  let p := (t.cvPos m).getD (0, 0, 0, 0)
  (cols.zip ws).map fun c => (t.cvPlace p c.1, decodeLong fp32 c.2,
    t.drawFor (attrOf t.cvOut.attr) (m * (t.cvGroups * t.cvGo) + c.1))

/-- One written row of a CONV after its factors and its epilogue, for columns `cols` of the product. -/
def cvRowOut (W : Nat) (t : Task) (m : Nat) (cols : List Nat) (ws : List Word) : List Cell32 × RunOut :=
  let f := factored (factorsOf t.cvIn.attr t.cvIn.factor t.cvW.attr t.cvW.factor) ws
  let e := if t.cvEpi = 1 then epiRow t.cvLook W t (t.daAt 14) m (cols.headD 0) f.1 else (f.1, RunOut.empty)
  (t.cvCells m cols e.1, { e.2 with exc := e.2.exc ||| f.2 })

/-- The drain of a part (R153): its written rows as (row, words) over the same columns. -/
def cvDrain (W : Nat) (t : Task) (cols : List Nat) (rows : List (Nat × List Word)) : RunOut :=
  let done := rows.map fun r => cvRowOut W t r.1 cols r.2
  (done.foldl (fun o d => o.append d.2) RunOut.empty).append (t.cvWrite (done.flatMap (·.1)))

/-- The run of a CONV on the Bow (R253): every tile, part by part. -/
def convRunBow (W : Nat) (t : Task) : RunOut :=
  let out := (t.cvTiles.flatMap fun x => (t.cvParts x.2).map fun c => (x, c)).foldl (fun o j =>
    let ms := ((List.range t.mmMt).map fun i => j.1.1 * t.mmMt + i).filter fun m => (t.cvPos m).isSome
    let cols := (List.range (j.2.2.2 - j.2.2.1)).map fun i => j.2.1 * t.cvGo + j.2.2.1 + i
    let rows := ms.map fun m =>
      let cells := cols.map fun o => t.bowCell (t.cvInit (t.cvPlace ((t.cvPos m).getD (0, 0, 0, 0)) o)) m o
      ((m, cells.map fun c => f32w c.1), cells.foldl (fun e c => e ||| c.2) (0 : Exc))
    let d := cvDrain W t cols (rows.map (·.1))
    o.append { d with exc := d.exc ||| rows.foldl (fun e r => e ||| r.2) 0 }) RunOut.empty
  { out with tally := { out.tally with bowBeats := t.mmCount * t.mmMt * t.cvK 0 * t.cvK 1 } }

/-! ### The frequency domain (R257-R259) -/

def Task.fftSh (t : Task) : Nat := t.cvF - t.cvK 1 + 1
def Task.fftSw (t : Task) : Nat := t.cvF - t.cvK 2 + 1
def Task.fftNh (t : Task) : Nat := (t.cvOutExt 1 + t.fftSh - 1) / t.fftSh
def Task.fftNw (t : Task) : Nat := (t.cvOutExt 2 + t.fftSw - 1) / t.fftSw
def Task.fftJ (t : Task) : Nat := t.cvB * t.cvOutExt 0 * t.fftNh * t.fftNw
/-- (n, t, th, tw) of transform tile j. -/
def Task.fftTile (t : Task) (j : Nat) : Nat × Nat × Nat × Nat :=
  (j / (t.fftNw * t.fftNh * t.cvOutExt 0), j / (t.fftNw * t.fftNh) % t.cvOutExt 0, j / t.fftNw % t.fftNh, j % t.fftNw)

/-- An input element of the frequency domain in FP32: times the factor of its record, if it carries one (R57). -/
def ConvRec.fftVal (r : ConvRec) (v : Val) : Flagged Val :=
  if (attrOf r.attr).factor then mul32 v (decodeLong fp32 r.factor) else toLong fp32 .rne false 0 v

/-- The forward transform of one channel of a tile, with the flags of its decoding and of its roundings (R80). -/
def Task.fftFwd (t : Task) (j c : Nat) : List (Word × Word) × Exc :=
  let F := t.cvF
  let (n, tt, th, tw) := t.fftTile j
  let xs := (List.range (F * F)).map fun i =>
    let y : Int := (th * t.fftSh + i / F : Nat) - (t.cvPad 1 : Int)
    let x : Int := (tw * t.fftSw + i % F : Nat) - (t.cvPad 2 : Int)
    t.cvIn.fftVal (if y < 0 ∨ x < 0 ∨ (t.cvInExt 1 : Int) ≤ y ∨ (t.cvInExt 2 : Int) ≤ x ∨ t.cvInExt 0 ≤ tt then t.cvPadVal
      else t.cvValue n c tt y.toNat x.toNat)
  let r := transformed false F (xs.map fun x => (x.1, Val.zero))
  (r.1, xs.foldl (fun e x => e ||| x.2) r.2)

/-- The forward phase: spectrum rows of the task's tiles. -/
def convRunFwd (t : Task) : RunOut :=
  let r := t.cvOut
  let a := attrOf r.attr
  let F := t.cvF
  ((List.range t.mmCount).map fun i =>
    let j := t.mmFirst + i
    let spec := (List.range t.cvCi).map fun c => if j < t.fftJ then t.fftFwd j c else ([], 0)
    let o := ((List.range (F * F)).map fun b =>
      let row := b * t.cvPitch + j
      let vs := spec.flatMap fun s => let z := s.1.getD b (0, 0); [f32 z.1, f32 z.2]
      encOut a (encRow a (encFactor a r.factor) (vs.zipIdx.map fun v => (v.1, t.drawFor a (row * (2 * t.cvCi) + v.2))))
        (r.base + row * r.sa) 0).foldl RunOut.append RunOut.empty
    { o with exc := spec.foldl (fun e s => e ||| s.2) o.exc }).foldl RunOut.append RunOut.empty

/-- The inverse phase: every output position inside the extent passes R153 (R259). -/
def convRunInv (W : Nat) (t : Task) : RunOut :=
  let r := t.cvIn
  let a := attrOf r.attr
  let F := t.cvF
  let w := fmtBits a.fmt / 8
  let g := if a.factor then some (decodeLong fp32 r.factor) else none
  let H := t.cvOutExt 1
  let Wd := t.cvOutExt 2
  let done := ((List.range t.mmCount).map (t.mmFirst + ·)).flatMap fun j =>
    if t.fftJ ≤ j then []
    else
      let (n, tt, th, tw) := t.fftTile j
      let planes := (List.range t.cvCo).map fun o =>
        let xs := (List.range (F * F)).map fun b =>
          let da := r.base + (b * t.cvPitch + j) * r.sa
          let rd (e : Nat) : Flagged Val := toLong fp32 .rne false 0 (decodeLong (longOf a.fmt) (t.imgNat (da + e * w) w))
          (rd (2 * o), rd (2 * o + 1))
        let y := transformed true F (xs.map fun x => (x.1.1, x.2.1))
        (y.1, xs.foldl (fun e x => e ||| x.1.2 ||| x.2.2) y.2)
      (List.range (t.fftSh * t.fftSw)).filterMap fun i =>
        let h := th * t.fftSh + i / t.fftSw
        let ww := tw * t.fftSw + i % t.fftSw
        if H ≤ h ∨ Wd ≤ ww then none
        else
          let p := (n, tt, h, ww)
          let m := ((n * t.cvOutExt 0 + tt) * H + h) * Wd + ww
          let cells := planes.zipIdx.map fun z =>
            let v := f32 (z.1.1.getD (i / t.fftSw * F + i % t.fftSw) (0, 0)).1
            let y := add32 (t.cvInit (t.cvPlace p z.2)) v
            match g with
            | some f => let x := mul32 y.1 f; (x.1, y.2 ||| x.2)
            | none => y
          let ws := cells.map fun c => encodeLong fp32 c.1
          let e := if t.cvEpi = 1 then epiRow t.cvLook W t (t.daAt 14) m 0 ws else (ws, RunOut.empty)
          some (e.1.zipIdx.map fun c => (t.cvPlace p c.2, decodeLong fp32 c.1,
              t.drawFor (attrOf t.cvOut.attr) (m * t.cvCo + c.2)),
            { e.2 with exc := planes.foldl (fun x z => x ||| z.2) (cells.foldl (fun x c => x ||| c.2) e.2.exc) })
  (done.foldl (fun o d => o.append d.2) RunOut.empty).append (t.cvWrite (done.flatMap (·.1)))

/-- The run of a CONV off the arrays: on the Bow, or a phase of the frequency domain. -/
def convRun (W : Nat) (t : Task) : RunOut :=
  if t.cvRoute = 3 then (if t.cvInv then convRunInv W t else convRunFwd t) else convRunBow W t

/-! ### Ranges and checks (R246) -/

/-- Merge byte ranges into contiguous runs. -/
def mergeRuns (rs : List (Nat × Nat)) : List (Nat × Nat) :=
  ((rs.mergeSort fun a b => decide (a.1 ≤ b.1)).foldl (fun (acc : List (Nat × Nat)) r =>
    match acc with
    | [] => [r]
    | (b, n) :: rest => if r.1 ≤ b + n then (b, max n (r.1 + r.2 - b)) :: rest else r :: (b, n) :: rest) []).reverse

/-- Element, scale and residual ranges of one input channel block of a position, or its FRC block. -/
def Task.cvInRange (t : Task) (n c tt h w : Nat) : List (Nat × Nat) :=
  let r := t.cvIn
  let a := attrOf r.attr
  let cbw := t.cvCbwIn
  let pb := posBytes a cbw
  if t.cvFrcIn ≠ 0 then [(r.frcDa t.cvFrcIn (t.cvInExt 1) (t.cvInExt 2) n (c / 16) tt h w, frcBytes t.cvFrcIn)]
  else
    let off := r.blockDa pb (t.cvInExt 1) (t.cvInExt 2) n (c / cbw) tt h w - r.base
    [(r.base + off, pb)] ++ (if a.scaled then [(r.scale + off / pb, 1)] else []) ++
    (if t.mmP = 3 ∧ ¬ isLong a.fmt ∧ t.cvRoute < 2 then
      (r.lo + off, pb) :: (if r.loScale = 0 then [] else [(r.loScale + off / pb, 1)]) else [])

/-- Input ranges of a CONV. -/
def Task.cvInRanges (t : Task) : List (Nat × Nat) :=
  if t.cvRoute = 3 then
    if t.cvInv then
      let a := attrOf t.cvIn.attr
      (List.range (t.cvF * t.cvF)).flatMap fun b => (List.range t.mmCount).filterMap fun i =>
        if t.fftJ ≤ t.mmFirst + i then .none
        else some (t.cvIn.base + (b * t.cvPitch + t.mmFirst + i) * t.cvIn.sa, 2 * t.cvCo * (fmtBits a.fmt / 8))
    else
      ((List.range t.mmCount).flatMap fun i =>
        if t.fftJ ≤ t.mmFirst + i then []
        else
          let (n, tt, th, tw) := t.fftTile (t.mmFirst + i)
          (List.range (t.cvF * t.cvF)).flatMap fun k =>
            let y : Int := (th * t.fftSh + k / t.cvF : Nat) - (t.cvPad 1 : Int)
            let x : Int := (tw * t.fftSw + k % t.cvF : Nat) - (t.cvPad 2 : Int)
            if y < 0 ∨ x < 0 ∨ (t.cvInExt 1 : Int) ≤ y ∨ (t.cvInExt 2 : Int) ≤ x ∨ t.cvInExt 0 ≤ tt then []
            else (List.range ((t.cvCi + t.cvCbwIn - 1) / t.cvCbwIn)).flatMap fun cb =>
              t.cvInRange n (cb * t.cvCbwIn) tt y.toNat x.toNat).dedup
  else
    (t.cvTiles.flatMap fun x =>
      ((List.range t.mmMt).map fun i => x.1 * t.mmMt + i).flatMap fun m =>
        if (t.cvPos m).isNone then []
        else (List.range t.cvKlen).flatMap fun k =>
          match t.gather (x.2 / t.cvTng) m k with
          | .at_ n c tt h w => t.cvInRange n c tt h w
          | _ => []).dedup

/-- Output channels whose weights a CONV reads. -/
def Task.cvWChans (t : Task) : List Nat :=
  (t.cvTiles.flatMap fun x => (t.cvParts x.2).flatMap fun c =>
    (List.range (c.2.2 - c.2.1)).map fun i => c.1 * t.cvGo + c.2.1 + i).dedup

/-- The element range and the scale range of each weight row. -/
def Task.cvWRows (t : Task) : List (List (Nat × Nat)) :=
  let r := t.cvW
  let a := attrOf r.attr
  t.cvWChans.map fun o =>
    (r.base + o * r.sa, 32 * t.cvNb * fmtBits a.fmt / 8) ::
      (if a.scaled then [(r.scale + o * r.sa / (fmtBits a.fmt * 4), t.cvNb)] else [])

/-- Weight ranges of a CONV: the rows of its columns, with their residual planes. -/
def Task.cvWRanges (t : Task) : List (Nat × Nat) :=
  let r := t.cvW
  if t.cvRoute = 3 then []
  else t.cvWRows.flatten ++ t.cvWChans.flatMap fun o =>
    if 2 ≤ t.mmP ∧ ¬ isLong (attrOf r.attr).fmt then
      (r.lo + o * r.sa, 32 * t.cvNb) :: (if r.loScale = 0 then [] else [(r.loScale + o * r.sa / 32, t.cvNb)]) else []

/-- The places that a CONV writes, on routes 0 to 2 and in the inverse phase. -/
def Task.cvPlaces (t : Task) : List (Nat × Nat × Nat × Nat × Nat) :=
  if t.cvRoute = 3 then
    ((List.range t.mmCount).flatMap fun i =>
      if t.fftJ ≤ t.mmFirst + i then []
      else
        let (n, tt, th, tw) := t.fftTile (t.mmFirst + i)
        (List.range (t.fftSh * t.fftSw)).flatMap fun k =>
          let h := th * t.fftSh + k / t.fftSw
          let w := tw * t.fftSw + k % t.fftSw
          if t.cvOutExt 1 ≤ h ∨ t.cvOutExt 2 ≤ w then []
          else (List.range t.cvCo).map fun c => t.cvPlace (n, tt, h, w) c)
  else t.cvTiles.flatMap fun x => (List.range t.mmMt).flatMap fun i =>
    match t.cvPos (x.1 * t.mmMt + i) with
    | .none => []
    | some p => (t.cvParts x.2).flatMap fun c => (List.range (c.2.2 - c.2.1)).map fun j =>
        t.cvPlace p (c.1 * t.cvGo + c.2.1 + j)

/-- Output ranges of a CONV, element and scale runs apart. -/
def Task.cvOutRanges (t : Task) : List (Nat × Nat) :=
  let r := t.cvOut
  let a := attrOf r.attr
  let cbw := t.cvCbwOut
  let pb := posBytes a cbw
  if t.cvRoute = 3 ∧ ¬ t.cvInv then
    (List.range (t.cvF * t.cvF)).flatMap fun b => (List.range t.mmCount).map fun i =>
      (r.base + (b * t.cvPitch + t.mmFirst + i) * r.sa, 2 * t.cvCi * (fmtBits a.fmt / 8))
  else if t.cvFrcOut ≠ 0 then
    mergeRuns ((t.cvPlaces.map fun x =>
      (r.frcDa t.cvFrcOut (t.cvOutFull 1) (t.cvOutFull 2) x.1 (x.2.1 / 16) x.2.2.1 x.2.2.2.1 x.2.2.2.2, frcBytes t.cvFrcOut)).dedup)
  else if a.scaled then
    let offs := (t.cvPlaces.map fun x => t.cvOutDa r.base a x - r.base).dedup
    mergeRuns (offs.map fun o => (r.base + o, pb)) ++ mergeRuns (offs.map fun o => (r.scale + o / pb, 1))
  else
    let w := fmtBits a.fmt / 8
    mergeRuns (t.cvPlaces.map fun x =>
      let c := x.2.1 % cbw
      (t.cvOutDa r.base a x + c * w, if x.2.1 + 1 = t.cvCo then (cbw - c) * w else w))

/-- Ranges that an epilogue stream of a CONV touches for written rows and columns of the product (R248). -/
def Task.cvStreamRanges (t : Task) (s : Stream) (rows cols : List Nat) : List (Nat × Nat) :=
  let a := attrOf s.attr
  let w := fmtBits a.fmt / 8
  if s.rstride = 0 then cols.flatMap fun n => s.rowRange 0 n 1
  else mergeRuns (rows.flatMap fun m => cols.flatMap fun n =>
    let x := t.cvPlace ((t.cvPos m).getD (0, 0, 0, 0)) n
    let da := t.cvOutDa s.base a x
    if a.scaled then [(da, posBytes a t.cvCbwOut), (s.scale + (da - s.base) / posBytes a t.cvCbwOut, 1)]
    else [(da + x.2.1 % t.cvCbwOut * w, w)])

/-- Operands of a CONV. -/
def convOpds (t : Task) : List Opd :=
  let ep := if t.cvEpi = 1 then (t.epiStreams (t.daAt 14)).map fun s =>
      let a := attrOf s.attr
      let w := fmtBits a.fmt / 8
      rdOpd (if s.rstride = 0 then s.rowRange 0 0 (t.cvCo * (t.cvRgO 0 * t.cvRgO 1 * t.cvRgO 2))
        else mergeRuns (t.cvPlaces.flatMap fun x =>
          let da := t.cvOutDa s.base a x
          if a.scaled then [(da, posBytes a t.cvCbwOut), (s.scale + (da - s.base) / posBytes a t.cvCbwOut, 1)]
          else [(da + x.2.1 % t.cvCbwOut * w, w)]))
    else []
  [rdOpd t.cvInRanges, rdOpd t.cvWRanges,
   rdOpd (if t.cvCin then mergeRuns (t.cvPlaces.map fun x =>
      (t.cvOutDa t.cvCinDa ⟨0, false, 0, false, false, false, 0⟩ x + x.2.1 % t.cvCbwOut * 4, 4)) else []),
   wrOpd t.cvOutRanges] ++ ep ++
  (if t.cvSpill then [wrOpd [(t.cvSpillDa, 4096 * t.mmSlots)]] else [])

/-- The addresses that a CONV names, as ranges that hold whatever its shape says. -/
def cvNamed (t : Task) : Opd :=
  let opt (a : Nat) : List (Nat × Nat) := if a = 0 then [] else [(a, 1)]
  let rec_ (r : ConvRec) : List (Nat × Nat) := (r.base, 1) :: (opt r.scale ++ opt r.lo ++ opt r.loScale)
  rdOpd (rec_ t.cvIn ++ (if t.cvRoute = 3 then [] else rec_ t.cvW) ++ rec_ t.cvOut ++
    (if t.cvSpill then [(t.cvSpillDa, 1)] else []) ++ (if t.cvCin then [(t.cvCinDa, 1)] else []))

/-- Live slots D of a CONV (Table MAP.5). -/
def Task.cvD (t : Task) : Nat := if t.mmKloop && t.cvNk != 1 then t.mmSlots else t.mmPartSlots

/-- The slot test of R141 for a CONV on the arrays. -/
def cvOvercommit (t : Task) : Bool := decide (t.cvRoute < 2) && decide (8 < t.cvD) && !t.cvSpill

/-- The form of an activation record in channel blocks of `cbw`. -/
def ConvRec.actBad (r : ConvRec) (cbw : Nat) (out frc : Bool) : Bool :=
  let a := attrOf r.attr
  let pb := posBytes a cbw
  r.reserved != 0 || !fmtOk a.fmt || a.fmt == 3 || a.fmt == 4 ||
  (if out then !attrOk r.attr || r.lo != 0 || r.loScale != 0 || r.pad != 0
   else r.attr % 16 + b2n a.factor * 512 + b2n a.blk * 1024 != r.attr || (a.blk && decide (a.fmt < 5)) ||
     decide (2 ^ fmtBits a.fmt ≤ r.pad)) ||
  (if a.factor then !factorOk r.factor else r.factor != 0) || r.base % 32 != 0 ||
  (if a.scaled then r.scale == 0 || cbw != 32 else r.scale != 0) ||
  (if frc then !(a.fmt == 1 || a.fmt == 2) || a.factor || cbw != 16 || r.sa % 32 != 0 || r.sb % 32 != 0
   else r.sa % pb != 0 || r.sa % 32 != 0 || r.sb % pb != 0 || r.sb % 32 != 0)

/-- The form of a weight or spectrum record; as an input only its format, its blk and its factor_en apply (R136). -/
def ConvRec.rowBad (r : ConvRec) (out : Bool) : Bool :=
  let a := attrOf r.attr
  r.reserved != 0 || !fmtOk a.fmt || a.fmt == 3 || a.fmt == 4 || r.sb != 0 || r.base % 32 != 0 || r.sa % 32 != 0 ||
  (if out then !attrOk r.attr else r.attr % 16 + b2n a.factor * 512 + b2n a.blk * 1024 != r.attr) ||
  (if a.factor then !factorOk r.factor else r.factor != 0) || (a.blk && decide (a.fmt < 5)) ||
  (if a.scaled then r.scale == 0 || r.sa % (fmtBits a.fmt * 4) != 0 else r.scale != 0)

/-- The residual planes that P needs (R78). -/
def ConvRec.loBad (r : ConvRec) (need : Bool) : Bool :=
  let a := attrOf r.attr
  if need && !isLong a.fmt then a.fmt != 8 || r.lo == 0 || (a.blk && r.loScale == 0) || r.lo % 32 != 0
  else r.lo != 0 || r.loScale != 0

/-- The shape checks of a CONV, which everything else rests on. -/
def cvShapeBad (t : Task) : Bool :=
  t.argsLen != 8 || t.cvGroups == 0 || t.cvB == 0 || t.cvCi == 0 || t.cvCo == 0 ||
  ((List.range 3).any fun a => t.cvInExt a == 0 || t.cvOutExt a == 0 || decide (32767 < t.cvPad a)) ||
  t.cvCi % t.cvGroups != 0 || t.cvCo % t.cvGroups != 0 || t.wf 10 8 2 == 3 || t.cvFrcIn == 3 || t.cvFrcOut == 3 ||
  decide (2 ≤ t.cvEpi) ||
  (if t.cvRoute = 3 then t.mmCount == 0 || t.wf 13 20 3 < 2 || decide (5 < t.wf 13 20 3) || decide (t.cvF < t.cvK 1) ||
      decide (t.cvF < t.cvK 2) || t.cvPitch == 0
   else t.mmP == 0 || t.mmKt == 0 || decide (4096 < t.mmKt) || t.mmCount == 0 || decide (2 ^ 31 < t.cvM) ||
    decide (2 ^ 24 < t.cvKlen) || decide (2 ^ 32 < t.cvTm * t.cvTn) || decide (t.cvTm * t.cvTn < t.mmFirst + t.mmCount))

/-- The requirements of Table CONV.4. -/
def cvRouteBad (t : Task) : Bool :=
  let i := attrOf t.cvIn.attr
  let w := attrOf t.cvW.attr
  let o := attrOf t.cvOut.attr
  let long (a : Attr) : Bool := isLong a.fmt
  let y8 (a : Attr) : Bool := (a.fmt == 8 || a.fmt == 9) && !a.blk
  let half (a : Attr) : Bool := a.fmt == 1 || a.fmt == 2
  match t.cvRoute with
  | 0 => (i.scaled && t.cvGe % 32 != 0)
  | 1 => t.cvGroups != 1 || !(long i || y8 i) || (t.cvRgOut && (t.cvFrcOut != 0 || o.scaled))
  | 2 => t.cvGroups != 1 || !(half i || y8 i) || !half w || ((List.range 3).any fun a => decide (7 < t.cvK a)) ||
      decide (8 < t.cvGe) || ((List.range 3).any fun a => t.cvDil a != 1) || t.mmP != 1 || t.wf 9 18 2 == 3
  | _ => t.cvGroups != 1 || !long i || t.cvK 0 != 1 || decide (t.cvK 1 * t.cvK 2 < 9) || decide (t.cvF < 2 * t.cvK 1) ||
      decide (t.cvF < 2 * t.cvK 2) || ((List.range 3).any fun a => t.cvS a != 1 || t.cvDil a != 1) || t.mmP != 1 ||
      t.wf 9 16 12 != 0 || t.mmKloop || t.cvFrcIn != 0 || t.cvFrcOut != 0

/-- Commit lines that the run can need (R248, R113). -/
def Task.cvLines (t : Task) : Nat := linesFor (piecesOfRanges t.cvOutRanges)

/-- The field checks of a CONV (R244, R246, R177). -/
def convBad (t : Task) : Bool :=
  let r3 := t.cvRoute == 3
  cvShapeBad t || t.wf 9 31 1 != 0 || t.wf 12 28 4 != 0 || t.wf 13 23 9 != 0 || t.wf 15 24 8 != 0 ||
  t.arg 0xD6 2 != 0 || t.arg 0xEC 20 != 0 || (!r3 && t.cvInv) ||
  t.daTops [t.argsDa + 0xD8, t.argsDa + 0xE0] != 0 || cvRouteBad t ||
  (if r3 && t.cvInv then t.cvIn.rowBad false || decide (2 ^ fmtBits (attrOf t.cvIn.attr).fmt ≤ t.cvIn.pad)
   else t.cvIn.actBad t.cvCbwIn false (t.cvFrcIn != 0)) ||
  (if r3 && !t.cvInv then t.cvOut.rowBad true || (attrOf t.cvOut.attr).scaled || t.cvOut.loBad false || t.cvOut.pad != 0
   else t.cvOut.actBad t.cvCbwOut true (t.cvFrcOut != 0)) ||
  (if r3 then t.cvW != ⟨0, 0, 0, 0, 0, 0, 0, 0, 0, 0⟩ || t.cvPitch % 256 != 0 || decide (t.cvPitch < t.fftJ) ||
      t.cvIn.loBad false
   else t.cvW.rowBad false || t.cvW.pad != 0 ||
      t.cvIn.loBad (t.mmP == 3) || t.cvW.loBad (decide (2 ≤ t.mmP))) ||
  tooMany t.cvOut.attr (if r3 && !t.cvInv then t.cvF * t.cvF * t.mmCount * (2 * t.cvCi)
    else t.cvM * t.cvCo * (t.cvRgO 0 * t.cvRgO 1 * t.cvRgO 2)) ||
  (t.cvSpill && (t.cvSpillDa % 256 != 0 || !oneStore t.cvSpillDa (4096 * t.mmSlots))) ||
  ((t.cvEpi != 0) != (t.daAt 14 != 0)) || (t.cvEpi == 1 && epiBad t (t.daAt 14)) ||
  decide (t.holdLines < t.cvLines)

end Sys2Proof.Machine
end

