-- ==== Sys2Proof/Machine/Kv.lean ====
section
/-! DEFINITION. The key-value cache engine (10_kv_pages.md): frame pools, free-frame rings, page lists, the claim table
and what appends and swaps write at commit. -/

namespace Sys2Proof.Machine

/-! ### Pools and free-frame rings (R215, R219-R222) -/

/-- Register offset of free-frame ring r. -/
def kvReg (r off : Nat) : Nat := 0x02010000 + 0x20 * r + off

/-- Register offset of the frame pool of stack n. -/
def kvPool (n off : Nat) : Nat := 0x02010100 + 16 * n + off

/-- A frame number names a pool frame. -/
def State.isFrame (s : State) (pfn : Nat) : Bool :=
  let n := pfn / 0x100000
  let i := pfn % 0x100000
  let first := s.fld (kvPool n 0) 0 20
  decide (n < 48) && decide (first ≤ i) && decide (i < first + s.fld (kvPool n 4) 0 21)

/-- Scale area of a pool frame. -/
def State.kvScale (s : State) (pfn : Nat) : Nat :=
  let n := pfn / 0x100000
  join (s.reg (kvPool n 8)) (s.reg (kvPool n 12)) + (pfn % 0x100000 - s.fld (kvPool n 0) 0 20) * 0x800

/-- Counts of ring r. -/
def State.kvHead (s : State) (r : Nat) : Word := Tab.get 0 s.kv.head r
def State.kvTail (s : State) (r : Nat) : Word := Tab.get 0 s.kv.tail r
def State.kvCount (s : State) (r : Nat) : Nat := (s.kvTail r - s.kvHead r).toNat

/-- Address of the entry for count x of ring r. -/
def State.kvEntryDa (s : State) (r : Nat) (x : Word) : Nat :=
  join (s.reg (kvReg r 0)) (s.reg (kvReg r 4)) + 4 * (x.toNat % 2 ^ s.fld (kvReg r 8) 0 5)

/-- Set the head of ring r. -/
def State.setKvHead (s : State) (r : Nat) (v : Word) : State :=
  { s with kv := { s.kv with head := Tab.put 0 s.kv.head r v } }

/-- Log an event of the rings and the page mover. -/
def State.emitKv (s : State) (r sev : Nat) (st : Status) (pl : List Word) : State := s.emitUnit 11 r sev evKv st pl

/-- The count of ring r has changed from `old`: falling to the mark from above is an event (R222). -/
def State.kvLow (s : State) (r old : Nat) : State :=
  let mark := s.fld (kvReg r 0x14) 0 26
  if mark < old ∧ s.kvCount r ≤ mark then
    (s.emitKv r 1 .ok [w32 r, w32 (s.kvCount r), w32 mark]).raiseReg 0x02010040 8
  else s

/-- Take a frame (R220): entries that name no pool frame are discarded, counted and logged; `fuel` bounds them. -/
def State.takeFrame (s : State) (r : Nat) : Nat → Option Nat × State
  | 0 => (none, s)
  | fuel + 1 =>
    if s.fld (kvReg r 8) 5 1 = 0 ∨ s.kvCount r = 0 then (none, s)
    else
      let old := s.kvCount r
      let pfn := s.loadNat (s.kvEntryDa r (s.kvHead r)) 4
      let s := ((s.countNarrow (s.kvEntryDa r (s.kvHead r)) 4).setKvHead r (s.kvHead r + 1)).kvLow r old
      if s.isFrame pfn then (some pfn, s)
      else ((s.bump (kvReg r 0x18) 16 16).emitKv r 1 .badArgument [w32 r, w32 pfn]).takeFrame r fuel

/-- Take a frame from ring r, or none when it is empty. -/
def State.kvTake (s : State) (r : Nat) : Option Nat × State := s.takeFrame r (s.kvCount r + 1)

/-- Requests that wait for a frame of ring r are tried again (R239). `ringOf` gives the ring of a list. -/
def State.kvRetry (s : State) (ringOf : Nat → Nat) (r : Nat) : State :=
  { s with kv := { s.kv with swaps := s.kv.swaps.map fun x => if ringOf x.list = r then { x with due := true } else x } }

/-! ### Lists (R216-R218) -/

/-- A list descriptor (Table KV.3). -/
structure ListDesc where
  base : Nat
  host : Nat
  count : Nat
  cap : Nat
  lastFill : Nat
  fmtD : Nat
  resv : Nat
  id : Nat
deriving DecidableEq, Repr

/-- Read a list descriptor. -/
def State.listDesc (s : State) (da : Nat) : ListDesc :=
  ⟨s.loadNat da 8, s.loadNat (da + 8) 8, s.loadNat (da + 0x10) 4, s.loadNat (da + 0x14) 4, s.loadNat (da + 0x18) 2,
   s.loadNat (da + 0x1A) 1, s.loadNat (da + 0x1B) 1, s.loadNat (da + 0x1C) 4⟩

def ListDesc.ring (d : ListDesc) : Nat := d.fmtD / 128
def ListDesc.fmt (d : ListDesc) : Nat := d.fmtD % 16
def ListDesc.dc (d : ListDesc) : Nat := d.fmtD / 16 % 8

/-- The keys of a list. -/
def nKeys (tpp count lastFill : Nat) : Nat := if count = 0 then 0 else (count - 1) * tpp + lastFill

/-- A descriptor is invalid for a task of the given dc (R218). -/
def ListDesc.bad (d : ListDesc) (dc : Nat) : Bool :=
  let tpp := tokensPerPage (headDim dc)
  d.base % 32 != 0 || decide (duneEnd ≤ d.base) || d.cap == 0 || decide (262144 < d.cap) || decide (d.cap < d.count) ||
  (d.host != 0 && (d.host % 4096 != 0 || regionOf d.host != some .host)) ||
  !(d.fmt == 8 || d.fmt == 9) || d.dc != dc || decide (5 < dc) || d.resv != 0 ||
  (if d.count = 0 then d.lastFill != 0 else d.lastFill == 0 || decide (tpp < d.lastFill)) ||
  decide (2 ^ 24 < nKeys tpp d.count d.lastFill) || stackOf d.base != stackOf (d.base + 4 * d.cap - 1)

/-- Entry pg of a list. -/
def State.listEntry (s : State) (d : ListDesc) (pg : Nat) : Word := w32 (s.loadNat (d.base + 4 * pg) 4)

/-- An entry that names a resident pool frame (Table KV.2). -/
def State.residentPfn (s : State) (e : Word) : Option Nat :=
  if bits e 26 6 = 0 ∧ s.isFrame (bits e 0 26) then some (bits e 0 26) else none

/-- Host slot of a host-resident entry. -/
def hostSlot (e : Word) : Option Nat := if bits e 30 2 = 1 then some (bits e 0 30) else none

/-- Host address of a slot of a list. -/
def ListDesc.slotDa (d : ListDesc) (n : Nat) : Nat := d.host + n * 0x11000

/-- The Draa sets an entry of a list. -/
def State.setEntry (s : State) (d : ListDesc) (pg v : Nat) : State := s.write 0 (cellsAt (d.base + 4 * pg) (leBytes 4 v))

/-- The ring of the list at a descriptor address. -/
def State.ringOfList (s : State) (da : Nat) : Nat := (s.listDesc da).ring

/-- Push a frame back (R220): at head − 1; requests that wait for the ring are tried again. -/
def State.kvPush (s : State) (r pfn : Nat) : State :=
  let h := s.kvHead r - 1
  let s := s.write 0 (cellsAt (s.kvEntryDa r h) (leBytes 4 pfn))
  (s.setKvHead r h).kvRetry s.ringOfList r

/-! ### Claims (R223, R224) -/

/-- The claim on a list. -/
def State.claim (s : State) (da : Nat) : Claim := Tab.get Claim.none s.kv.claims da
def State.setClaim (s : State) (da : Nat) (c : Claim) : State :=
  { s with kv := { s.kv with claims := Tab.put Claim.none s.kv.claims da c } }

/-- Kinds of claimants. -/
inductive Claimant where
  | reader | appender | swapper
deriving DecidableEq, Repr

/-- What a task claims as; none: it names no list. -/
def Task.claimant (t : Task) : Option Claimant :=
  if t.kind = kAttend then .some .reader
  else if t.kind = kKvappend then .some (if t.kvOp = 0 then .appender else .swapper)
  else if t.kind = kMatmul ∧ t.mmEpi = 2 then .some .appender
  else .none

/-- Addresses of the list descriptors that a task names, in list order. -/
def State.listsOf (s : State) (t : Task) : List Nat :=
  if t.kind = kAttend then [t.atList]
  else if t.kind = kKvappend then [t.kvList]
  else if t.kind = kMatmul ∧ t.mmEpi = 2 then t.kvaLists.map fun h => s.loadNat (t.kvaTab + 8 * h) 8
  else []

/-- Outcomes of an attempt to claim (Table KV.4). -/
inductive ClaimOutcome where
  | claims | parks | busy
deriving DecidableEq, Repr

/-- Whether nobody holds the claim. -/
def Claim.free (c : Claim) : Bool := c.readers.isEmpty && c.appenders.isEmpty && c.swapper.isNone

/-- The outcome of a task's claim on every list it names. -/
def State.claimOutcome (s : State) (t : Task) : ClaimOutcome :=
  match t.claimant with
  | none => .claims
  | some k =>
    let das := (s.listsOf t).dedup
    let full := decide (4096 < s.kv.claims.length + (das.filter fun d => !(s.kv.claims.any fun e => e.1 == d)).length)
    if k = .swapper then
      if das.any fun d => !(s.claim d).free then .busy else if full then .parks else .claims
    else if das.any fun d => (s.claim d).swapper.isSome then .parks
    else if full then .parks
    else .claims

/-- Drop the swap-in requests of a list whose claim a swapper has won (R240). -/
def State.dropSwaps (s : State) (da : Nat) : State :=
  let n := (s.kv.swaps.filter fun x => x.list == da).length
  let s := { s with kv := { s.kv with swaps := s.kv.swaps.filter fun x => x.list != da } }
  if n = 0 then s else s.bumpBy 0x02010044 16 16 n

/-- Task `id` claims every list that it names (R223, R224). -/
def State.claimAll (s : State) (id : Nat) (t : Task) : State :=
  match t.claimant with
  | none => s
  | some k =>
    let das := (s.listsOf t).dedup
    let s := das.foldl (fun s d =>
      let c := s.claim d
      let c := if c.free then { c with count := (s.listDesc d).count, lastFill := (s.listDesc d).lastFill } else c
      match k with
      | .reader => s.setClaim d { c with readers := c.readers ++ [id] }
      | .appender => s.setClaim d { c with appenders := c.appenders ++ [id] }
      | .swapper => (s.dropSwaps d).setClaim d { c with swapper := some id }) s
    s.setTask id { s.task id with claims := das }

/-- Task `id` releases its claims: a list that nobody claims any more gives its pending frames back (R231, R233). -/
def State.releaseClaims (s : State) (id : Nat) : State :=
  let s := (s.task id).claims.foldl (fun s d =>
    let c := s.claim d
    let c := { c with readers := c.readers.filter (· != id), appenders := c.appenders.filter (· != id),
                      swapper := if c.swapper = some id then none else c.swapper }
    if c.free then
      let s := c.pending.reverse.foldl (fun s p => s.kvPush (s.ringOfList d) p.2) s
      s.setClaim d Claim.none
    else s.setClaim d c) s
  s.setTask id { s.task id with claims := [] }

/-! ### What a claimed run finds and takes (R218, R225, R227, R229, R238) -/

/-- Highest position that an append writes. -/
def Task.appendHigh (t : Task) : Nat :=
  if t.kind = kKvappend then t.kvFirst + t.kvCount - 1
  else t.kvaPos + (t.mmTiles.foldl (fun m x => max m (min t.mmM ((x.1 + 1) * t.mmMt))) 1) - 1

/-- First and last positions that an append writes in its list number i (R227): of an APPEND its range; of a MATMUL those of the
tiles that touch the list's head. -/
def Task.appendSpans (t : Task) (i : Nat) : List (Nat × Nat) :=
  if t.kind = kKvappend then [(t.kvFirst, t.appendHigh)]
  else (t.kvaPlanes.filter fun p => t.kvaLists[i]? == some (p.2 % t.kvaHeads)).map fun p =>
    (t.kvaPos + p.1 * t.mmMt, t.kvaPos + min t.mmM ((p.1 + 1) * t.mmMt) - 1)

/-- The pages that an append writes in its list number i. -/
def Task.appendPages (t : Task) (tpp i : Nat) : List Nat :=
  ((t.appendSpans i).flatMap fun p => (List.range (p.2 / tpp + 1 - p.1 / tpp)).map (p.1 / tpp + ·)).dedup

/-- dc of a task that names lists. -/
def Task.listDc (t : Task) : Nat :=
  if t.kind = kAttend then t.atDc else if t.kind = kKvappend then t.kvDc else t.kvaDc

/-- Pages of the claim entry: in the list, and pending. -/
def Claim.pages (c : Claim) : Nat := c.count + c.pending.length

/-- Take one frame for each page from the claim's page count to `hi`; none: the ring was empty. -/
def State.takePages (s : State) (da : Nat) : Nat → Bool × State
  | 0 => (true, s)
  | n + 1 =>
    match s.kvTake (s.ringOfList da) with
    | (some pfn, s) =>
      let c := s.claim da
      (s.setClaim da { c with pending := c.pending ++ [(c.pages, pfn)] }).takePages da n
    | (none, s) =>
      let r := s.ringOfList da
      (false, (s.bump (kvReg r 0x18) 0 16).emitKv r 2 .poolExhausted [w32 (s.listDesc da).id])

/-- The frame that a page of a claimed list has: its resident entry, or its pending frame. -/
def State.pageFrame (s : State) (da pg : Nat) : Option Nat :=
  let c := s.claim da
  if pg < c.count then s.residentPfn (s.listEntry (s.listDesc da) pg) else c.pending.lookup pg

/-- Prepare an append: its checks, then its frames, then its page map; the status is OK when it may run. -/
def State.prepareAppend (s : State) (id : Nat) (t : Task) : Status × State :=
  let das := s.listsOf t
  let tpp := tokensPerPage (headDim t.listDc)
  let hi := t.appendHigh
  let need (d : Nat) : Nat := hi / tpp + 1 - (s.claim d).pages
  if decide (2 ^ 24 ≤ hi) || das.any (fun d => decide ((s.listDesc d).cap ≤ hi / tpp)) then (.badArgument, s)
  else if das.any fun d => decide (128 < (s.claim d).pending.length + need d) then (.badArgument, s)
  else
    let (ok, s) := das.dedup.foldl (fun (a : Bool × State) d => if a.1 then a.2.takePages d (need d) else a) (true, s)
    if !ok then (.poolExhausted, s)
    else
      let pages := das.zipIdx.flatMap fun x => (t.appendPages tpp x.2).map fun pg => (pageKey x.2 pg, s.pageFrame x.1 pg)
      if pages.any fun p => p.2.isNone then (.badArgument, s)
      else (.ok, s.setTask id { s.task id with pages := pages.map fun p => (p.1, p.2.getD 0) })

/-- Prepare a swap (R225, R237, R238): SWAP_IN takes a frame for each host-resident entry. -/
def State.prepareSwap (s : State) (id : Nat) (t : Task) : Status × State :=
  let d := s.listDesc t.kvList
  let idx := (List.range t.kvCount).map (t.kvFirst + ·)
  if (s.claim t.kvList).count < t.kvFirst + t.kvCount then (.badArgument, s)
  else if d.host = 0 then (.badArgument, s)
  else if t.kvOp = 1 then
    let ps := idx.filterMap fun pg => (s.residentPfn (s.listEntry d pg)).map fun f => (pageKey 0 pg, f)
    (.ok, s.setTask id { s.task id with pages := ps })
  else
    let want := idx.filter fun pg => (hostSlot (s.listEntry d pg)).isSome
    let (got, s) := want.foldl (fun (a : List (Nat × Nat) × State) pg =>
      if a.1.length < (want.filter (· < pg)).length then a
      else match a.2.kvTake d.ring with
        | (some f, s) => (a.1 ++ [(pageKey 0 pg, f)], s)
        | (none, s) => (a.1, s)) ([], s)
    if got.length < want.length then
      let s := (s.bump (kvReg d.ring 0x18) 0 16).emitKv d.ring 2 .poolExhausted [w32 d.id]
      (.poolExhausted, got.reverse.foldl (fun s p => s.kvPush d.ring p.2) s)
    else (.ok, s.setTask id { s.task id with pages := got, frames := got.map (·.2) })

/-- A key count that an ATTEND does not admit (R193): outside its bucket, beyond T × H × W, or short of its key blocks. -/
def Task.keysBad (t : Task) (nk : Nat) : Bool :=
  nk == 0 || decide (2 ^ t.atBucket < nk) || (decide (6 < t.atBucket) && decide (nk ≤ 2 ^ (t.atBucket - 1))) ||
  decide (t.atT * t.atH * t.atW < nk) || (t.atDir == 1 && decide ((nk + 63) / 64 < t.atFirst + t.atCount))

/-- What a run finds when it reads its list descriptors at RUNNING (R193, R218, R102). -/
def State.prepareLists (s : State) (id : Nat) (t : Task) : Status × State :=
  let das := s.listsOf t
  match t.claimant with
  | none => (.ok, s)
  | some k =>
    if das.any fun d => decide (d % 32 ≠ 0) || decide (duneEnd ≤ d) then (.badArgument, s)
    else if das.any fun d => s.readBad d 32 then (.internal, s)
    else if das.any fun d => (s.listDesc d).bad t.listDc then (.badArgument, s)
    else match k with
      | .appender => s.prepareAppend id t
      | .swapper => s.prepareSwap id t
      | .reader =>
        let c := s.claim t.atList
        let nk := nKeys (tokensPerPage t.atD) c.count c.lastFill
        if t.keysBad nk then (.badArgument, s)
        else (.ok, s.setTask id { s.task id with nk := nk, cacheFmt := (s.listDesc t.atList).fmt })

/-- A swap run that ends before its commit gives its frames back (R238). -/
def State.returnFrames (s : State) (id : Nat) : State :=
  let t := s.task id
  let r := s.ringOfList t.kvList
  (t.frames.reverse.foldl (fun s f => s.kvPush r f) s).setTask id { t with frames := [] }

/-! ### Commit (R231, R237, R238) -/

/-- The Draa writes count and last_fill of a descriptor together, and the claim entry follows. -/
def State.writeCounts (s : State) (da count lastFill : Nat) : State :=
  let s := s.write 0 (cellsAt (da + 0x10) (leBytes 4 count) ++ cellsAt (da + 0x18) (leBytes 2 lastFill))
  s.setClaim da { s.claim da with count := count, lastFill := lastFill }

/-- The pages of an append enter one of its lists. -/
def State.commitAppend (s : State) (t : Task) (da : Nat) : State :=
  let d := s.listDesc da
  let tpp := tokensPerPage (headDim t.listDc)
  let hi := t.appendHigh
  let c := s.claim da
  let s := (c.pending.filter fun p => decide (p.1 ≤ hi / tpp)).foldl (fun s p => s.setEntry d p.1 p.2) s
  let s := s.setClaim da { c with pending := c.pending.filter fun p => decide (hi / tpp < p.1) }
  let count := max c.count (hi / tpp + 1)
  let nk := max (nKeys tpp c.count c.lastFill) (hi + 1)
  s.writeCounts da count (nk - (count - 1) * tpp)

/-- What a committing task writes into its lists. -/
def State.commitLists (s : State) (id : Nat) : State :=
  let t := s.task id
  match t.claimant with
  | some .appender => (s.listsOf t).dedup.foldl (fun s d => s.commitAppend t d) s
  | some .swapper =>
    let d := s.listDesc t.kvList
    if t.kvOp = 1 then
      let s := t.pages.foldl (fun s p => s.setEntry d p.1 (0x40000000 + t.kvSlot + (p.1 - t.kvFirst))) s
      t.pages.foldl (fun s p => s.kvPush d.ring p.2) s
    else (t.pages.foldl (fun s p => s.setEntry d p.1 p.2) s).setTask id { t with frames := [] }
  | _ => s

/-- KV_RING_TAIL_WRITE (R221): software has supplied frames; requests that wait for the ring are tried again. -/
def execKvRingTailWrite (r : Nat) (v : Word) (req : Requester) (s : State) : Result :=
  .next (s.onReg req (kvReg r 0x10) v fun s =>
    { s with kv := { s.kv with tail := Tab.put 0 s.kv.tail r v } }.kvRetry s.ringOfList r)

end Sys2Proof.Machine
end

