-- ==== Sys2Proof/Machine/Body.lean ====
section
/-! DEFINITION. COPY, GATHER, FENCE, SIGNAL and COLLECT bodies, and for every kind of descriptor: its blocks, its operands,
its checks, its slot demand and its computation (R108-R115, R366, R367). -/

namespace Sys2Proof.Machine

/-! ### COPY and GATHER (Table TASK.3, R115) -/

def Task.cpSrc (t : Task) : Nat := t.daAt 8
def Task.cpDst (t : Task) : Nat := t.daAt 10
def Task.cpBytes (t : Task) : Nat := t.wf 12 0 20
def Task.cpRows (t : Task) : Nat := t.wf 13 0 16
def Task.cpSrcStride (t : Task) : Nat := (t.word 14).toNat
def Task.cpDstStride (t : Task) : Nat := (t.word 15).toNat

/-- Rows of a COPY at its source, or at its destination. -/
def Task.cpFrom (t : Task) : List (Nat × Nat) := (List.range t.cpRows).map fun r => (t.cpSrc + r * t.cpSrcStride, t.cpBytes)
def Task.cpTo (t : Task) : List (Nat × Nat) := (List.range t.cpRows).map fun r => (t.cpDst + r * t.cpDstStride, t.cpBytes)

/-- The field checks of a COPY (R113, R114). -/
def copyBad (t : Task) : Bool :=
  t.argsLen != 0 || t.wf 9 24 8 != 0 || t.wf 11 24 8 != 0 || t.wf 12 20 12 != 0 || t.wf 13 16 16 != 0 || t.cpBytes == 0 ||
  decide (262144 < t.cpBytes) || t.cpRows == 0 || decide (t.holdLines < linesFor (piecesOfRanges t.cpTo))

/-- The run of a COPY: bytes move unchanged. -/
def copyRun (t : Task) : RunOut :=
  { RunOut.empty with
    writes := (List.range t.cpRows).flatMap fun r => (List.range t.cpBytes).map fun i =>
      (t.cpDst + r * t.cpDstStride + i, t.imgByte (t.cpSrc + r * t.cpSrcStride + i)) }

def Task.gaTable (t : Task) : Nat := t.daAt 8
def Task.gaDst (t : Task) : Nat := t.daAt 10
def Task.gaBytes (t : Task) : Nat := t.wf 12 0 16
def Task.gaCount (t : Task) : Nat := t.wf 12 16 16
def Task.gaLimit (t : Task) : Nat := (t.word 13).toNat
def Task.gaSrc (t : Task) : Nat := t.daAt 14

/-- The field checks of a GATHER (R113, R114). -/
def gatherBad (t : Task) : Bool :=
  t.argsLen != 0 || t.wf 9 24 8 != 0 || t.wf 11 24 8 != 0 || t.wf 15 24 8 != 0 || t.gaBytes == 0 || t.gaBytes % 32 != 0 ||
  decide (4096 < t.gaBytes) || t.gaCount == 0 || decide (t.holdLines < linesFor (piecesIn t.gaDst (t.gaCount * t.gaBytes)))

/-- The source row that entry j of a GATHER selects; none: out of range. -/
def Task.gaRow (t : Task) (j : Nat) : Option Nat :=
  let i := t.imgNat (t.gaTable + 4 * j) 4
  if i < 2 ^ 31 ∧ i < t.gaLimit then .some i else .none

/-- The run of a GATHER: an index out of range writes a row of zeros and is counted. -/
def gatherRun (t : Task) : RunOut :=
  { RunOut.empty with
    writes := (List.range t.gaCount).flatMap fun j => (List.range t.gaBytes).map fun i =>
      (t.gaDst + j * t.gaBytes + i, match t.gaRow j with | some r => t.imgByte (t.gaSrc + r * t.gaBytes + i) | none => 0)
    tally := { Tally.empty with oobRows := ((List.range t.gaCount).filter fun j => (t.gaRow j).isNone).length } }

/-! ### SIGNAL and FENCE -/

def Task.sgCtr (t : Task) : Nat := t.wf 8 0 16
def Task.sgSet (t : Task) : Bool := t.wf 8 16 1 = 1
def Task.sgValue (t : Task) : Word := t.word 9

/-- Words i and later of the body are 0. -/
def Task.restZero (t : Task) (i : Nat) : Bool := (List.range (16 - i)).all fun j => t.word (i + j) == 0

def signalBad (t : Task) : Bool := t.holdLines != 0 || t.wf 8 17 15 != 0 || !t.restZero 10
def fenceBad (t : Task) : Bool := t.holdLines != 0 || !t.restZero 8

/-! ### COLLECT (Table SWEEP.7, R366, R367) -/

def Task.clOp (t : Task) : Nat := t.wf 8 0 3
def Task.clRed (t : Task) : Nat := t.wf 8 3 3
def Task.clGroup (t : Task) : Nat := t.wf 8 8 8
def Task.clRig (t : Task) : Bool := t.wf 8 16 1 = 1
def Task.clSlots (t : Task) : Nat := t.wf 8 17 8 + 1
def Task.clEpoch (t : Task) : Word := t.word 9
def Task.clCount (t : Task) : Nat := t.wf 10 0 28
def Task.clTimeout (t : Task) : Nat := (t.word 11).toNat
def Task.clSrc (t : Task) : Nat := t.daAt 12
def Task.clIn (t : Task) : Nat := t.wf 13 24 4
def Task.clDst (t : Task) : Nat := t.daAt 14
def Task.clOut (t : Task) : Nat := t.wf 15 24 4
def Task.clWork (t : Task) : Nat := t.arg 0 7
def Task.clAttr (t : Task) : Nat := t.arg 8 4

/-- Bytes of a member's contribution. -/
def Task.clSrcBytes (t : Task) : Nat := t.clCount * (fmtBits t.clIn / 8)

/-- Elements of the result: for ALLGATHER one part per member. -/
def Task.clDstBytes (t : Task) (members : Nat) : Nat := t.clCount * (if t.clOp = 3 then members else 1) * (fmtBits t.clOut / 8)

/-- A range lies wholly in the Dune stacks or in crew stores. -/
def inStacks (da n : Nat) : Bool :=
  decide (da + n ≤ duneEnd) || (regionOf da == some .crewStore && regionOf (da + n - 1) == some .crewStore)

/-- The field checks of a COLLECT (R367); the group entry gives the members and whether this module is the root. -/
def collBad (members : Nat) (root : Bool) (t : Task) : Bool :=
  let a := attrOf t.clAttr
  let int := t.clIn == 3
  let al := if t.clOp = 4 then 64 else 32
  let useDst := t.clOp != 1 || root
  t.argsLen != 1 || t.holdLines != 0 || t.wf 8 6 2 != 0 || t.wf 8 25 7 != 0 || t.wf 10 28 4 != 0 || t.wf 13 28 4 != 0 ||
  t.wf 15 28 4 != 0 || t.arg 12 20 != 0 || t.arg 7 1 != 0 || decide (4 < t.clOp) || decide (4 < t.clRed) ||
  decide (3 < t.clIn) || decide (3 < t.clOut) || (decide (3 ≤ t.clRed) && !int) || (int && t.clOut != 3) ||
  (t.clOut == 3 && !int) || ((t.clOp == 2 || t.clOp == 3) && (t.clRed != 0 || t.clRig || t.clOut != t.clIn)) ||
  (t.clOp == 4 && (t.clCount != 16 || t.clRig || t.clOut != t.clIn)) || (!t.clRig && t.wf 8 17 8 != 0) ||
  t.clCount == 0 || t.clTimeout == 0 || t.clSrc % al != 0 || (useDst && t.clDst % al != 0) ||
  !inStacks t.clSrc t.clSrcBytes || (useDst && !inStacks t.clDst (t.clDstBytes members)) ||
  (useDst && t.clSrc != t.clDst && decide (t.clSrc < t.clDst + t.clDstBytes members) &&
    decide (t.clDst < t.clSrc + t.clSrcBytes)) ||
  (useDst && t.clSrc == t.clDst && t.clOp != 0 && t.clOp != 2) ||
  !attrOk t.clAttr || a.blk || a.factor || a.fmt != t.clOut || tooMany t.clAttr (t.clDstBytes members / (fmtBits t.clOut / 8))

def collOpds (members : Nat) (root : Bool) (t : Task) : List Opd :=
  [rdOpd [(t.clSrc, t.clSrcBytes)], wrOpd (if t.clOp = 1 ∧ ¬ root then [] else [(t.clDst, t.clDstBytes members)])] ++
  (if t.clWork = 0 then [] else [wrOpd [(t.clWork, 4 * t.clCount)]])

/-! ### Group entries (Table SWEEP.6) -/

/-- Address of a group entry. -/
def State.grpDa (s : State) (g : Nat) : Nat := join (s.reg 0x02060014) (s.reg 0x02060018) + 64 * g

/-- Words of a group entry. -/
def State.grpWord (s : State) (g i : Nat) : Word := w32 (s.loadNat (s.grpDa g + 4 * i) 4)

def State.grpMembers (s : State) (g : Nat) : Nat := bits (s.grpWord g 0) 0 14
def State.grpRoot (s : State) (g : Nat) : Bool := bits (s.grpWord g 1) 13 1 = 1

/-! ### Every kind -/

/-- The address and length of the next block to read, in the order of R111, given what has been read. -/
def Task.blocksOf (t : Task) : List (Nat × Nat) :=
  let epi (da : Nat) (prog : Bool) : List (Nat × Nat) :=
    (da, 32) :: (if prog then [(t.epiProgDa da, 4 * t.epiNops da)] ++
      (if t.epiNstreams da = 0 then [] else [(da + 32, 32 * t.epiNstreams da)]) else [])
  (if t.argsLen = 0 then [] else [(t.argsDa, 32 * t.argsLen)]) ++
  (if t.kind = kVecprog then [(t.vecProgDa, 4 * t.vecNops)]
   else if t.kind = kMatmul ∧ t.mmEpi ≠ 0 then epi t.mmEpiDa (t.mmEpi == 1)
   else if t.kind = kConv ∧ t.cvEpi = 1 then epi (t.daAt 14) true
   else if t.kind = kAttend ∧ t.atDir = 1 ∧ t.atDvDa ≠ 0 then [(t.atDvDa, 32)]
   else [])

/-- The ranges that a descriptor names. A MATMUL or CONV of a malformed shape names its operands' addresses at least, so that
the presence check meets them (R25). -/
def State.opdsOf (s : State) (t : Task) : List Opd :=
  if t.kind = kMatmul then
    if t.argsLen ≠ 8 then [] else (if mmShapeBad t then [mmNamed t] else []) ++ mmOpds t
  else if t.kind = kConv then
    if t.argsLen ≠ 8 then [] else (if cvShapeBad t then [cvNamed t] else []) ++ convOpds t
  else if t.kind = kVecprog then vecOpds t
  else if t.kind = kAttend then if t.argsLen ≠ 8 then [rdOpd [(t.atList, 32)]] else attOpds t
  else if t.kind = kKvappend then kvOpds t
  else if t.kind = kCopy then [rdOpd t.cpFrom, wrOpd t.cpTo]
  else if t.kind = kGather then
    [rdOpd [(t.gaTable, 4 * t.gaCount)], rdOpd [(t.gaSrc, t.gaLimit * t.gaBytes)], wrOpd [(t.gaDst, t.gaCount * t.gaBytes)]]
  else if t.kind = kReduce then redOpds t
  else if t.kind = kCollect then collOpds (s.grpMembers t.clGroup) (s.grpRoot t.clGroup) t
  else []

/-- The field checks of the kind's body. -/
def State.bodyBad (s : State) (t : Task) : Bool :=
  if t.kind = kMatmul then mmBad t
  else if t.kind = kConv then convBad t
  else if t.kind = kVecprog then vecBad t
  else if t.kind = kAttend then attBad t
  else if t.kind = kKvappend then kvBad t
  else if t.kind = kCopy then copyBad t
  else if t.kind = kGather then gatherBad t
  else if t.kind = kReduce then redBad t
  else if t.kind = kCollect then collBad (s.grpMembers t.clGroup) (s.grpRoot t.clGroup) t
  else if t.kind = kFence then fenceBad t
  else if t.kind = kSignal then signalBad t
  else true

/-- A route-2 CONV, which runs on the erg's Bow (R255). -/
def Task.onBow (t : Task) : Bool := t.kind == kConv && t.cvRoute == 2

/-- Accumulator slots that a task holds while it runs or is suspended. -/
def Task.slots (t : Task) : Nat :=
  if t.kind = kMatmul then min 8 t.mmD else if t.kind = kConv ∧ t.cvRoute < 2 then min 8 t.cvD else 0

/-- The slot test of R141. -/
def Task.overcommit (t : Task) : Bool :=
  (t.kind == kMatmul && mmOvercommit t) || (t.kind == kConv && cvOvercommit t)

/-- The computation of a run off the stroke array, over its operand image. -/
def State.runKind (s : State) (crew : Nat) (t : Task) : RunOut :=
  let W := s.lanes
  if t.kind = kConv then convRun W t
  else if t.kind = kVecprog then vecRun W t
  else if t.kind = kAttend then
    attRun s.kvScale (s.fld (0x01040040 + crew / 48 * 0x100000 + crew % 48 * 0x100) 0 1 == 1) t
  else if t.kind = kKvappend ∧ t.kvOp = 0 then appendRun s.kvScale t
  else if t.kind = kCopy then copyRun t
  else if t.kind = kGather then gatherRun t
  else if t.kind = kReduce then redRun W t
  else RunOut.empty

end Sys2Proof.Machine
end

