-- ==== Sys2Proof/Machine/Life.lean ====
section
/-! DEFINITION. The life of a task (05_tasks_and_stealing.md, Table TASK.4): crew sets and distances, queues, commit lines,
what a task holds while it runs, parking and waking, hand-back, and DONE with its completion record. -/

namespace Sys2Proof.Machine

/-! ### Registers of units -/

/-- Register of crew c, of scull k, of erg d, of ring q. -/
def crewReg (c off : Nat) : Nat := 0x01040000 + c / 48 * 0x100000 + c % 48 * 0x100 + off
def scullReg (k off : Nat) : Nat := 0x01080000 + k / 768 * 0x100000 + k % 768 * 0x100 + off
def ergReg (d off : Nat) : Nat := 0x01000000 + d * 0x100000 + off
def ringReg (q off : Nat) : Nat := 0x00210000 + q * 0x40 + off

/-- Number of a delay line in the stored calibration (R33, R35): of a crew, of a scull, of an erg's Bow. -/
def lineKey (crew : Nat) : Line → Nat
  | .crew => crew
  | .scull k => 1024 + k
  | .bow => 16384 + crew / 48

/-- Identifier of a task: ring and descriptor count. -/
def taskId (q : Nat) (seq : Word) : Nat := q * 0x100000000 + seq.toNat

/-! ### Crew sets (R382) and distances (R123) -/

/-- The partition a crew serves now, if it is a member of an enabled one. -/
def State.crewServes (s : State) (c : Nat) : Option Nat :=
  let p := (s.crew c).serving.getD (s.fld (crewReg c 0x20) 0 3)
  if s.fld (crewReg c 0x20) 3 1 = 1 ∧ s.partEn p then some p else none

/-- Crew c is a good crew of partition p's crew set; a crew that moves under a scheduler command is in none. -/
def State.inSet (s : State) (p c : Nat) : Bool :=
  (s.crew c).state == .good && !(s.crew c).draining && s.crewServes c == some p

/-- Hops between ergs on the 4 × 4 grid, and between crews of an erg. -/
def ergHops (a b : Nat) : Nat := dist (a / 4) (b / 4) + dist (a % 4) (b % 4)
def crewHops (a b : Nat) : Nat := dist (a % 48 / 8) (b % 48 / 8) + dist (a % 8) (b % 8)

/-- Ergs by distance from d, then by index. -/
def ergOrder (d : Nat) : List Nat := (List.range 7).flatMap fun h => (List.range 16).filter fun e => ergHops d e == h

/-- Crews of an erg, by index. -/
def ergCrews (d : Nat) : List Nat := (List.range 48).map (48 * d + ·)

/-- Crews of a crew's erg by hops from it, then by index. -/
def crewOrder (c : Nat) : List Nat :=
  (List.range 13).flatMap fun h => (ergCrews (c / 48)).filter fun e => crewHops c e == h

/-- Descriptors in a crew's queue, parked ones included (R120). -/
def State.queued (s : State) (c : Nat) : Nat := (s.crew c).queue.length + (s.crew c).parked.length

/-- The crew that takes over from a crew of erg d (Table TASK.5): the good crew of the set with the lowest index on that erg,
else on the nearest erg. -/
def State.substitute (s : State) (d p : Nat) (ok : Nat → Bool) : Option Nat :=
  ((ergOrder d).flatMap ergCrews).find? fun c => s.inSet p c && ok c

/-- Whether crew c's erg can run a task: a route-2 CONV needs a good Bow (R255, R256). -/
def State.bowOk (s : State) (t : Task) (c : Nat) : Bool := !t.onBow || (s.erg (c / 48)).bow == .good

/-- The status of a task that no crew of its set can take: a set with good crews lacks only a good Bow (R121, R256). -/
def State.noCrew (s : State) (t : Task) : Status :=
  if t.onBow && ((List.range 768).any (s.inSet t.part)) then .unitAbsent else .crewRetired

/-! ### Commit lines (R125, R386, R387) -/

/-- Lines of an erg that are reserved to LC tasks. -/
def State.lcLines (s : State) (d : Nat) : Nat := min (s.fld (ergReg d 0x1C0) 0 16) 32768

/-- Whether a task of the class could ever hold `n` lines on erg d. -/
def State.fitsErg (s : State) (d : Nat) (lc : Bool) (n : Nat) : Bool := lc || decide (n ≤ 32768 - s.lcLines d)

/-- Reserve `n` lines of erg d, all or none: how many of them come from the LC lines. -/
def State.linesFree (s : State) (d : Nat) (lc : Bool) (n : Nat) : Option Nat :=
  let e := s.erg d
  let a := if lc then min n (s.lcLines d - e.lcUsed) else 0
  if n - a ≤ 32768 - s.lcLines d - e.used then some a else none

/-- The granules' address of a tag's grant (R271). -/
def State.grantDa (s : State) (g : Nat) : Nat := join (s.reg 0x02020000) (s.reg 0x02020004) + g * 0x10000

/-- The tags at P = 2 whose src range an output of the task overlaps: source and scale range, and the grant (R273, R274). -/
def State.p2Tags (s : State) (t : Task) : List (Nat × Nat × Nat × Nat × Nat) :=
  let outs := ((s.opdsOf t).filter (·.out)).flatMap (·.rngs)
  (s.lowp.tags.filter fun e => e.2.p2 &&
    (outs.any fun r => decide (r.1 < e.2.srcBase + e.2.srcLen) && decide (e.2.srcBase < r.1 + r.2))).map
    fun e => (e.2.srcBase, e.2.srcLen, e.2.sclBase, e.2.sclLen, s.grantDa e.2.grant)

/-- The tags whose residuals the task writes: the kinds that produce them (R273). -/
def State.p2Grants (s : State) (t : Task) : List (Nat × Nat × Nat × Nat × Nat) :=
  if t.kind = kMatmul ∨ t.kind = kConv ∨ t.kind = kVecprog then s.p2Tags t else []

/-- Lines that a task reserves: twice its hold_lines when its output overlaps a tag at P = 2, whatever its kind (R274). -/
def State.lineNeed (s : State) (t : Task) : Nat := if (s.p2Tags t).isEmpty then t.holdLines else 2 * t.holdLines

/-! ### Conditions of a take -/

/-- A counter has reached a value (R116). -/
def reached (v w : Word) : Bool := decide ((v - w).toNat < 2 ^ 31)

/-- The start fence is met. -/
def State.fenceMet (s : State) (t : Task) : Bool := t.waitCtr == 0xFFFF || reached (s.ctr t.waitCtr) t.waitVal

/-- Every earlier descriptor of the task's ring is DONE. -/
def State.firstLive (s : State) (id : Nat) (t : Task) : Bool :=
  match t.ring with
  | none => true
  | some q => (s.ring q).live.head? == some id

/-- The task's tag is watched (R269). -/
def State.watched (s : State) (t : Task) : Bool := (Tab.get Tag.none s.lowp.tags t.layerTag).watch

/-- Tensors that a task touches, and whether it writes them (R310). -/
def State.touched (s : State) (t : Task) : List (Nat × Bool) :=
  let os := s.opdsOf t
  (s.tier.tensors.filter fun e => e.2.state != .unregistered).filterMap fun e =>
    let hit (o : Opd) : Bool := o.rngs.any fun r => decide (r.1 < e.2.name + e.2.pages * tierPage) && decide (e.2.name < r.1 + r.2)
    if os.any fun o => o.out && hit o then some (e.1, true)
    else if os.any hit then some (e.1, false)
    else none

/-- Whether a pin cannot be taken in a tensor's state (Table TIER.4). -/
def pinBlocked (st : TensorState) (write mine : Bool) : Bool :=
  match st with
  | .copyIn => write
  | .recompute => !(write && mine)
  | .copyOut => true
  | _ => false

/-- Some pin of the task cannot be taken now. -/
def State.pinsBlocked (s : State) (t : Task) : Bool :=
  (s.touched t).any fun p => pinBlocked (s.tensor p.1).state p.2 (t.recompute == some p.1)

/-- Whether a condition of a take is not met, for a task that a scull of crew c tries (Table TASK.4, R118, R205, R223, R255,
R276, R311, R368, R386). -/
def State.blocks (s : State) (c id : Nat) (t : Task) (why : ParkWhy) : Bool :=
  let e := s.erg (c / 48)
  match why with
  | .counter => !s.fenceMet t
  | .barrier => (t.barrier || t.kind == kFence) && !s.firstLive id t
  | .collective => t.kind == kCollect && decide (64 ≤ s.colls.running.length)
  | .evaluation => s.lowp.busy && s.watched t
  | .seifTest => t.kind == kAttend && (s.crew c).seifTest
  | .context => t.kind == kAttend && decide (2 ≤ (s.crew c).ctxHeld.length)
  | .bow => t.onBow && e.bow == .good && (e.bowTask.isSome || e.bowTest)
  | .lines => (s.linesFree (c / 48) t.lc (s.lineNeed t)).isNone
  | .claim => s.claimOutcome t == .parks
  | .pin => s.pinsBlocked t

/-- Why a task that a scull of crew c tries must park, if it must: the first condition that is not met. -/
def State.parkReason (s : State) (c id : Nat) (t : Task) : Option ParkWhy :=
  [ParkWhy.counter, .barrier, .collective, .evaluation, .seifTest, .context, .bow, .lines, .claim, .pin].find?
    (s.blocks c id t)

/-! ### Queues -/

/-- Enter the tail, or the head, of the home crew's queue. -/
def State.enqueue (s : State) (id : Nat) (head : Bool) : State :=
  let t := s.task id
  let s := s.setTask id { t with state := .queued }
  let k := s.crew t.home
  s.setCrew t.home { k with queue := if head then id :: k.queue else k.queue ++ [id] }

/-- Leave the queue or the parked list of the home crew. -/
def State.dequeue (s : State) (id : Nat) : State :=
  let c := (s.task id).home
  let k := s.crew c
  s.setCrew c { k with queue := k.queue.filter (· != id), parked := k.parked.filter (· != id) }

/-- Move a queued task that a scull of crew c tried to its home crew's parked list and count it; what the erg lacks is
counted there. -/
def State.park (s : State) (c id : Nat) (why : ParkWhy) : State :=
  let d := c / 48
  let s := s.dequeue id
  let t := s.task id
  let s := s.setTask id { t with state := .parked why, parkedAt := c }
  let k := s.crew t.home
  let s := (s.setCrew t.home { k with parked := k.parked ++ [id] }).bump (crewReg t.home 0xC) 0 32
  match why with
  | .lines =>
    let s := s.bump (ergReg d 0x14C) 0 32
    if t.lc then s else s.bump (ergReg d 0x1C4) 16 16
  | .claim => s.bump 0x0201004C 16 16
  | .bow => s.bump (ergReg d 0x19C) 0 32
  | _ => s

/-- Wake one crew's parked tasks whose condition, where they were tried, is met now: the first parked stands first in the
queue (R117, R122). -/
def State.wakeCrew (s : State) (c : Nat) : State :=
  (s.crew c).parked.reverse.foldl (fun s id =>
    match (s.task id).state with
    | .parked why =>
      if s.blocks (s.task id).parkedAt id (s.task id) why then s else (s.dequeue id).enqueue id true
    | _ => s) s

/-- Wake every parked task whose condition is met. -/
def State.rewake (s : State) : State :=
  (s.crews.filter fun e => !e.2.parked.isEmpty).foldl (fun s e => s.wakeCrew e.1) s

/-! ### What a run holds -/

/-- Release commit lines, claims, pins, context and Bow of a task (R103, R223, R310). -/
def State.releaseRun (s : State) (id : Nat) : State :=
  let s := if (s.task id).claimant = some .swapper then s.returnFrames id else s
  let s := s.releaseClaims id
  let t := s.task id
  let d := (t.scull.getD 0) / 768
  let e := s.erg d
  let s := if t.lines = 0 then s
    else s.setErg d { e with lcUsed := e.lcUsed - t.lcLines, used := e.used - (t.lines - t.lcLines) }
  let s := t.pins.foldl (fun s p =>
    let x := s.tensor p.1
    s.updTensor p.1 { x with pinsR := x.pinsR.filter (· != id), pinsW := x.pinsW.filter (· != id) }) s
  let c := (t.scull.getD 0) / 16
  let s := if t.ctx then s.setCrew c { s.crew c with ctxHeld := (s.crew c).ctxHeld.filter (· != id) } else s
  let s := if t.bowHeld then s.setErg d { s.erg d with bowTask := none } else s
  s.setTask id { t with lines := 0, lcLines := 0, pins := [], ctx := false, bowHeld := false }

/-- Leave the scull that runs or keeps the task: its slots are FREE (Table SCULL.3). -/
def State.leaveScull (s : State) (id : Nat) : State :=
  match (s.task id).scull with
  | none => s
  | some k =>
    let u := s.scull k
    s.setScull k { u with task := if u.task = some id then none else u.task, suspended := u.suspended.filter (· != id),
                          bank := u.bank.filter fun b => b.task != id }

/-- A task with everything of its run gone; its seed stays (R72, R129). -/
def Task.fresh (t : Task) : Task :=
  { t with scull := .none, todo := [], flying := [], image := [], held := [], computed := false, exc := 0, sticky := 0,
           counts := .empty, tally := .empty, lo := .none, grants := [], nk := 0, frames := [], pages := [], shadow := [],
           fills := [], nextFill := 0, worked := 0, opened := 0, counted := [],
           chunksOut := false, overrun := false, busyUs := 0, susp := 0 }

/-! ### DONE (Table TASK.4, R411, R412) -/

/-- Raise a ring's vector, at most once in each span of its hold (R412). -/
def State.ringIrq (s : State) (q : Nat) : State :=
  let r := s.ring q
  let hold := s.fld (ringReg q 0x28) 0 16
  let inSpan := decide (hold ≠ 0) && (r.lastIrq.any fun a => decide (s.etc < a + hold))
  if inSpan then s.setRing q { r with deferred := true }
  else (s.setRing q { r with lastIrq := some s.etc }).raise (s.fld (ringReg q 8) 11 8)

/-- Write one completion record (Table HOST.2) at CQ_TAIL. -/
def State.putRecord (s : State) (q : Nat) (ws : List Word) : State :=
  let n := (s.ring q).cqTail
  let sz := s.fld (ringReg q 8) 5 5
  let base := hostBase + s.fld (ringReg q 0xC) 12 20 * 4096 + s.fld (ringReg q 0x10) 0 16 * 0x100000000
  let phase := 1 - n.toNat / 2 ^ sz % 2
  let ws := ws.modifyHead fun w => setBits w 16 1 phase
  let s := s.store (wordCells (base + n.toNat % 2 ^ sz * 32) ws)
  s.setRing q { s.ring q with cqTail := n + 1 }

/-- The words of a task's record; flags appear only with OK (R80). -/
def State.recordOf (s : State) (q : Nat) (t : Task) (st : Status) : List Word :=
  let ok := st == .ok
  [w32 (st.code + (if ok then t.exc.toNat * 0x20000 + t.sticky.toNat * 0x400000 else 0) + t.kind * 0x10000000),
   t.seq, w32 t.key, w32 (q + (t.lastCrew.getD 0x3FF) * 0x200 + min t.runs 4 * 0x80000), w32 s.etc,
   w32 (s.etc / 0x100000000), 0, 0]

/-- A DRAINING ring whose last fetched descriptor is DONE becomes DISABLED (Table HOST.3). -/
def State.drainRing (s : State) (q : Nat) : State :=
  let r := s.ring q
  if r.state = .draining ∧ r.live = [] ∧ r.reads = [] then s.setRing q { r with state := .disabled } else s

/-- Count v of a ring comes before count w. -/
def before (v w : Word) : Bool := v != w && reached w v

/-- The earliest failure before a FENCE of count `seq` (R118). -/
def Ring.fenceFail (r : Ring) (seq : Word) : Option (Word × Status) :=
  (r.failed.filter fun f => before f.1 seq).foldl (fun b f =>
    match b with
    | none => some f
    | some x => if before f.1 x.1 then some f else some x) none

/-- Ring bookkeeping of a descriptor that is DONE. -/
def State.ringDone (s : State) (q id : Nat) (st : Status) : State :=
  let t := s.task id
  let r := s.ring q
  let fence := r.fence == some id
  let s := s.setRing q { r with
    live := r.live.filter (· != id)
    waiting := r.waiting.filter (· != id)
    reserved := r.reserved - 1
    fence := if fence then none else r.fence
    failed := if fence then r.failed.filter fun f => !before f.1 t.seq else if st = .ok then r.failed else r.failed ++ [(t.seq, st)] }
  let s := if t.cmpl || st != .ok then
      let s := s.putRecord q (s.recordOf q t st)
      if t.irq && decide (s.fld (ringReg q 8) 19 1 = 1) then s.ringIrq q else s
    else s
  s.drainRing q

/-- Add to a dependency counter; 0xFFFF names none (R116). -/
def State.addCtr (s : State) (n : Nat) (v : Word) : State := if n = 0xFFFF then s else s.setCtr n (s.ctr n + v)

/-- A scheduler command ends (R395): its status, the SCHED record, the vector. -/
def State.schedEnds (s : State) (op part moved : Nat) (st : Status) : State :=
  let s := { s with sched := { s.sched with busy := false, status := st } }
  (s.emit 0 0 (if st = .ok then 0 else 1) evSched st [w32 op, w32 part, w32 moved]).raiseReg 0x0207009C 8

/-- A moving crew that has drained joins, its panel cache emptied: a lent crew its borrower, a returned one its home (R390,
R393). -/
def State.joinDrained (s : State) : State :=
  let ready (c : Nat) : Bool :=
    (s.crew c).ctxHeld.isEmpty && ((List.range 16).all fun i =>
      let u := s.scull (16 * c + i)
      u.suspended.isEmpty && (match u.task with
        | none => true
        | some id => some (s.task id).part == (if s.sched.op = 1 then some s.sched.part else some (s.fld (crewReg c 0x20) 0 3))))
  let joined := s.sched.crews.filter ready
  if !s.sched.busy || joined.isEmpty then s
  else
    let s := joined.foldl (fun s c => s.setCrew c { s.crew c with
      draining := false, panel := [], serving := if s.sched.op = 1 then some s.sched.part else none }) s
    let left := s.sched.crews.filter fun c => !joined.contains c
    let s := { s with sched := { s.sched with crews := left } }
    if left.isEmpty then
      s.schedEnds s.sched.op s.sched.part s.sched.moved .ok
    else s

/-- A recompute task has ended: another status than OK sends the tensor home (Table TIER.5). -/
def State.recomputeDone (s : State) (i : Nat) (st : Status) : State :=
  let s := if st != .ok && (s.tensor i).state == .recompute then s.sendHome i else s
  s.emitTier (if st = .ok then 0 else 2) st [w32 i]

/-- A done task's counted events enter the open pass of its crew and layer tag, saturating (R80, R127, R267). Those of a task
that has committed enter at the start of an evaluation, if one comes before its DONE (R276). -/
def State.countEvents (s : State) (t : Task) : State :=
  let key := t.lastCrew.getD 0 * 4096 + t.layerTag
  let a := (Tab.get Counts.empty s.lowp.open_ key).add t.counts
  let top := 2 ^ 32 - 1
  let a : Counts := ⟨min a.elems (2 ^ 48 - 1), min a.sat top, min a.zero top, min a.nanz top, min a.rsvd top⟩
  { s with lowp := { s.lowp with open_ := Tab.put Counts.empty s.lowp.open_ key a } }

/-- A descriptor goes to DONE with a status: signal and flags with OK only, then its record; what it held is free and
parked tasks wake. -/
def State.finishTask (s : State) (id : Nat) (st : Status) : State :=
  let s := ((s.dequeue id).releaseRun id).leaveScull id
  let t := s.task id
  let s := if st = .ok then
      (((s.addCtr t.signalCtr (w32 t.signalAdd)).countEvents t).stick 0x308 t.exc.toNat).stick 0x30C t.sticky.toNat
    else s
  let s := s.setTask id { t with state := .done, status := st }
  let s := match t.ring with
    | some q => s.ringDone q id st
    | none => s
  let s := match t.recompute with
    | some i => s.recomputeDone i st
    | none => s
  let s := s.setTask id { (s.task id).fresh with exc := t.exc, sticky := t.sticky }
  s.rewake.joinDrained

/-! ### Validation and delivery (R111, R112, R120, R121) -/

/-- Bytes of a block, through the place where its address leads now. -/
def State.blockBytes (s : State) (da n : Nat) : List Cell :=
  (List.range n).map fun i => (da + i, s.byte (s.redirect none (da + i)))

/-- Check and read the blocks of a descriptor in order: the first failure decides (R111). -/
def State.readBlocks (s : State) (be linkErr : Bool) (t : Task) : Nat → Nat → Status × Task
  | _, 0 => (.ok, t)
  | i, fuel + 1 =>
    match t.blocksOf[i]? with
    | none => (.ok, t)
    | some (da, n) =>
      let o := [rdOpd [(da, n)]]
      let st := if s.opdsAbsent o then Status.unitAbsent else s.opdsCheck be o
      if st != .ok then (st, t)
      else if s.readBad (s.redirect none da) n || (linkErr && regionOf da == some .host) then (.internal, t)
      else s.readBlocks be linkErr { t with blocks := t.blocks ++ (s.blockBytes da n) } (i + 1) fuel

/-- The argument blocks that a descriptor's validation has read: narrow requests (R285) that heat registered pages (R314). -/
def State.countBlocks (s : State) (t : Task) : State :=
  (t.blocksOf.filter fun b => t.blocks.any fun c => c.1 == b.1).foldl
    (fun s b => (s.countNarrow (s.redirect none b.1) b.2).heatRange b.1 b.2) s

/-- The home crew of a descriptor (R121): a crew, or none for 0x3FF and what is treated as 0x3FF. -/
def State.settleHome (s : State) (t : Task) : Status × Option Nat :=
  let p := t.part
  let c := t.homeCrew
  let any := (List.range 768).any (s.inSet p)
  if c = 0x3FF then (if any then .ok else .crewRetired, none)
  else if 768 ≤ c then (.badArgument, none)
  else if s.inSet p c then (.ok, some c)
  else if (s.crew c).state != .good then
    match s.substitute (c / 48) p fun _ => true with
    | some x => (.ok, some x)
    | none => (.crewRetired, none)
  else if s.fld (crewReg c 0x20) 0 3 = p ∨ (s.fld (crewReg c 0x20) 4 3 = p ∧ s.fld (crewReg c 0x20) 7 1 = 1) then
    (if any then .ok else .crewRetired, none)
  else (.badArgument, none)

/-- A BE descriptor that could never reserve its lines (R387). -/
def State.neverFits (s : State) (t : Task) (home : Option Nat) : Bool :=
  match home with
  | some c => !s.fitsErg (c / 48) t.lc t.holdLines
  | none => (List.range 768).all fun c => !(s.inSet t.part c) || !s.fitsErg (c / 48) t.lc t.holdLines

/-- Validate a descriptor (R112): its status, and the descriptor with its blocks and its home. -/
def State.validate (s : State) (t : Task) : Status × Task :=
  let be := !t.lc
  let (st, t) := s.readBlocks be (t.status == .internal) t 0 8
  if st != .ok then (st, t)
  else
    let os := s.opdsOf t
    let (hst, home) := s.settleHome t
    let st := firstFail [
      (s.opdsAbsent os || (t.onBow && !s.hasBow), .unitAbsent),
      (t.headerBad || s.bodyBad t || hst == .badArgument || (hst == .ok && s.neverFits t home), .badArgument)]
    let st := if st == .ok then s.opdsCheck be os else st
    let st := if st == .ok && t.overcommit then Status.accOvercommit else st
    let st := if st == .ok then hst else st
    (st, { t with placed := true, home := home.getD 0x3FF, status := .ok })

/-- The good crew of the set with the fewest queued descriptors, on an erg that fits (R120). -/
def State.leastCrew (s : State) (t : Task) : Option Nat :=
  ((List.range 768).filter fun c => s.inSet t.part c && s.fitsErg (c / 48) t.lc t.holdLines && s.bowOk t c).foldl
    (fun (best : Option Nat) c =>
      match best with
      | none => some c
      | some b => if (s.crew c).queue.length < (s.crew b).queue.length then some c else best) none

/-- The crew a validated descriptor goes to now: its home, one that took over its home or, for a route-2 CONV, has a good
Bow (log entry 75), or the least queued one. -/
def State.deliverTo (s : State) (t : Task) : Option Nat :=
  if t.home = 0x3FF then s.leastCrew t
  else if s.inSet t.part t.home && s.bowOk t t.home then some t.home
  else if (s.crew t.home).state != .good || s.inSet t.part t.home then s.substitute (t.home / 48) t.part (s.bowOk t)
  else s.leastCrew t

/-- Validate fetched descriptors of ring q in ring order, up to a FENCE that is not DONE (R112). -/
def State.judge (s : State) (q : Nat) : List Nat → State
  | [] => s
  | id :: rest =>
    if (s.task id).placed then (if (s.task id).kind = kFence then s else s.judge q rest)
    else
      let (st, t) := s.validate (s.task id)
      let s := s.countBlocks t
      if st != .ok then ((s.setTask id { t with status := .ok }).finishTask id st).judge q rest
      else
        let s := s.setTask id t
        if t.kind = kFence then s else s.judge q rest

/-- Deliver the validated descriptors of a ring, in ring order, until one must wait (R118, R120). -/
def State.deliver (s : State) (q : Nat) : Nat → State
  | 0 => s
  | fuel + 1 =>
    match (s.ring q).waiting with
    | [] => s
    | id :: rest =>
      let t := s.task id
      if !t.placed || (s.ring q).fence.isSome then s
      else match s.deliverTo t with
        | none => (s.finishTask id (s.noCrew t)).deliver q fuel
        | some c =>
          if 256 ≤ s.queued c then s
          else
            let fence := if t.kind = kFence then some id else none
            let s := s.setRing q { s.ring q with waiting := rest, fence := fence }
            ((s.setTask id { t with home := c }).enqueue id false).deliver q fuel

/-- Validate what a ring may validate now, and deliver what may be delivered. -/
def State.pump (s : State) (q fuel : Nat) : State :=
  let s := if (s.ring q).fence.isSome then s else s.judge q (s.ring q).waiting
  s.deliver q fuel

/-- Deliver what waits in every ring. -/
def State.pumpAll (s : State) : State :=
  (s.rings.filter fun e => !e.2.waiting.isEmpty).foldl (fun s e => s.pump e.1 (e.2.waiting.length + 1)) s

/-- A descriptor goes to DONE, and what its end lets through is delivered. -/
def State.doneTask (s : State) (id : Nat) (st : Status) : State := (s.finishTask id st).pumpAll

/-! ### Runs that end before commit (R103, R122, R129, R233, R390) -/

/-- Put a task whose run ended back into a queue, or end it: a fourth run that ends is INTERNAL; a BE task that fits no
longer is BAD_ARGUMENT; a set without a crew that can run it ends it. -/
def State.requeue (s : State) (id : Nat) (preempted : Bool) : State :=
  let t := s.task id
  let t := { t with runs := if preempted then t.runs else t.runs + 1 }
  let s := s.setTask id t
  if !preempted && decide (4 ≤ t.runs) then s.finishTask id .internal
  else
    let home := if s.inSet t.part t.home && s.bowOk t t.home then some t.home
      else s.substitute (t.home / 48) t.part (s.bowOk t)
    match home with
    | none => s.finishTask id (s.noCrew t)
    | some c =>
      if !s.fitsErg (c / 48) t.lc t.holdLines then s.finishTask id .badArgument
      else
        let s := (s.setTask id { t with home := c }).enqueue id true
        s.bump (crewReg c 0x10) 0 16

/-- Hand a task back to its crew: held writes and events are discarded, all it held is free; a self-test that its scull owes
begins (R88). -/
def State.handBack (s : State) (id : Nat) (preempted : Bool) : State :=
  let k := (s.task id).scull
  let s := ((s.releaseRun id).leaveScull id)
  let s := match k with
    | some k =>
      let u := s.scull k
      if u.testDue && u.state == ScullState.good && u.task.isNone then s.setScull k { u with testing := true, testDue := false } else s
    | none => s
  let s := s.setTask id (s.task id).fresh
  let s := if preempted then s.bump (0x02070008 + 16 * (s.task id).part) 0 16 else s
  ((s.requeue id preempted).rewake.joinDrained).pumpAll

/-- A task's run ends before commit: it stops at once and waits for its transfers (R88, R103). A suspended task whose
transfers have ended is handed back at once. -/
def State.endRun (s : State) (id : Nat) (preempted : Bool) : State :=
  let t := s.task id
  let stop := s.setTask id { t with state := .ended preempted, held := [], todo := [], startedAt := s.etc }
  match t.state with
  | .running => stop
  | .suspended _ => if t.flying.isEmpty then s.handBack id preempted else stop
  | _ => s

/-- A run that a status ends: no output visible, no re-run (R102). -/
def State.failRun (s : State) (id : Nat) (st : Status) : State := s.doneTask id st

/-! ### Retirement of sculls and crews (R105, R131, R490) -/

/-- Faults within the window of erg d, of all since the start (Table SCULL.6). -/
def State.recentFaults (s : State) (d : Nat) (ts : List Nat) : List Nat := within (s.reg (ergReg d 0x124)).toNat s.etc ts

/-- The limits of erg d: residue mismatches and uncorrectable errors; 0 is taken as 1. -/
def State.resLimit (s : State) (d : Nat) : Nat := max 1 (s.fld (ergReg d 0x120) 0 8)
def State.ueLimit (s : State) (d : Nat) : Nat := max 1 (s.fld (ergReg d 0x120) 8 8)

/-- Store contents of a range are lost. -/
def State.dropRange (s : State) (lo hi : Nat) : State :=
  { s with
    mem := s.mem.filter fun c => decide (c.1 < lo) || decide (hi ≤ c.1)
    poison := s.poison.filter fun p => decide (p < lo / 8) || decide (hi / 8 ≤ p) }

/-- Retire one scull: it leaves service, the count falls, TILE_RETIRED is logged, its tasks are handed back. -/
def State.retireOne (s : State) (k cause : Nat) : State :=
  let u := s.scull k
  if u.state != .good then s
  else
    let s := s.setScull k { u with state := .retired, cause := cause, testing := false, testDue := false }
    let s := (s.dropRange (scullBase + k * 0x80000) (scullBase + (k + 1) * 0x80000)).bump 0x274 0 14
    let s := s.emitUnit 0 k 2 evRetire .tileRetired [w32 k, w32 cause]
    let s := match u.task with
      | some id => s.endRun id false
      | none => s
    u.suspended.foldl (fun s id => s.endRun id false) s

/-- Move one queued or parked task of a crew that leaves its set (Table TASK.5, R390). -/
def State.moveTask (s : State) (id : Nat) (ok : Nat → Bool) : State :=
  let t := s.task id
  match s.substitute (t.home / 48) t.part fun c => ok c && s.bowOk t c with
  | none => s.finishTask id (s.noCrew t)
  | some c =>
    if !s.fitsErg (c / 48) t.lc t.holdLines then s.finishTask id .badArgument
    else
      let s := (s.dequeue id).setTask id { t with home := c }
      match t.state with
      | .parked _ => s.setCrew c { s.crew c with parked := (s.crew c).parked ++ [id] }
      | _ => s.enqueue id false

/-- Move every queued and parked task of crew c that `which` selects, in order. -/
def State.moveQueue (s : State) (c : Nat) (which : Task → Bool) (ok : Nat → Bool) : State :=
  ((s.crew c).queue ++ (s.crew c).parked).foldl (fun s id => if which (s.task id) then s.moveTask id ok else s) s

/-- Retire a crew and every scull of it. -/
def State.retireCrew (s : State) (c cause : Nat) : State :=
  let k := s.crew c
  if k.state != .good then s
  else
    let s := s.setCrew c { k with state := .retired, cause := cause, seifTest := false }
    let s := s.dropRange (crewBase + c * 0x400000) (crewBase + (c + 1) * 0x400000)
    let s := (List.range 16).foldl (fun s i => s.retireOne (16 * c + i) 6) s
    let s := (s.bump 0x274 14 10).emitUnit 1 c 2 evRetire .crewRetired [w32 (unitId 1 c), w32 cause]
    ((s.moveQueue c (fun _ => true) fun _ => true).rewake.joinDrained).pumpAll

/-- Retire a scull; a crew without a good scull is retired with it. -/
def State.retireScull (s : State) (k cause : Nat) : State :=
  let s := s.retireOne k cause
  if (List.range 16).any fun i => (s.scull (k / 16 * 16 + i)).state == .good then s else s.retireCrew (k / 16) 4

/-- At the limit of uncorrectable errors a scull retires with cause 0x03 (R97). -/
def State.storeLimit (s : State) (k : Nat) : State :=
  if s.ueLimit (k / 768) ≤ (s.recentFaults (k / 768) (s.scull k).ueTimes).length then s.retireScull k 3 else s

/-- Retire an erg's Bow (R256): its task is handed back, route-2 tasks move to an erg with a good Bow. -/
def State.retireBow (s : State) (d cause : Nat) : State :=
  let e := s.erg d
  if e.bow != .good then s
  else
    let s := s.setErg d { e with bow := .retired, bowCause := cause, bowTest := false }
    let s := (s.bump 0x274 24 4).emitUnit 3 d 2 evRetire .internal [w32 (unitId 3 d), w32 cause]
    let s := match e.bowTask with
      | some id => s.endRun id false
      | none => s
    let ok (c : Nat) : Bool := (s.erg (c / 48)).bow == .good
    (((ergCrews d).foldl (fun s c => s.moveQueue c Task.onBow ok) s).rewake).pumpAll

end Sys2Proof.Machine
end

