-- ==== Sys2Proof/Machine/Link.lean ====
section
/-! DEFINITION. Frames on the Sweep ports: message headers (Table SWEEP.2), credits (R356), routing (R361), and the requests
and responses of peer memory (R362-R364). -/

namespace Sys2Proof.Machine

/-- Registers of port p: its die and its index there (R380). -/
def portDie (p : Nat) : Nat := if p < 5 then 0 else if p < 10 then 1 else if p < 14 then 2 else 3
def portReg (p off : Nat) : Nat :=
  let o := portDie p
  let i := p - (if o = 0 then 0 else if o = 1 then 5 else if o = 2 then 10 else 14)
  0x02040000 + o * 0x400000 + i * 0x100 + off

/-- Clocked island of a port: a pair of ports each (Table BEAT.3). -/
def portIsland (p : Nat) : Nat := 16 + p / 2

/-- This module's id. -/
def State.myId (s : State) : Nat := s.fld 0x02060000 0 13

/-- Message types (Table SWEEP.3). -/
def mStart : Nat := 0x01
def mFinal : Nat := 0x02
def mNote : Nat := 0x03
def mAckUp : Nat := 0x04
def mFlagUp : Nat := 0x05
def mFlagDown : Nat := 0x06
def mChunkUp : Nat := 0x10
def mChunkDown : Nat := 0x11
def mRdReq : Nat := 0x20
def mRdRsp : Nat := 0x21
def mWrReq : Nat := 0x22
def mWrAck : Nat := 0x23
def mMgmt : Nat := 0x30

/-- Virtual channel of a type. -/
def vcOf (typ : Nat) : Nat := if typ < 0x10 then 0 else if typ < 0x20 then 1 else if typ < 0x30 then 2 else 3

/-- Receive buffer of a channel in flits (Table SWEEP.4). -/
def vcBuffer : Nat → Nat
  | 0 => 64 | 1 => 1024 | 2 => 768 | _ => 64

/-- The fields of a message to send. -/
structure OutMsg where
  typ    : Nat
  flags  : Nat
  dst    : Nat
  word8  : Nat
  tag    : Nat
  status : Nat
  want   : Nat
  data   : List Byte
deriving DecidableEq, Repr

/-- The header of a message (Table SWEEP.2). -/
def OutMsg.header (m : OutMsg) (src ctr : Nat) : List Byte :=
  leBytes 1 m.typ ++ leBytes 1 m.flags ++ leBytes 2 src ++ leBytes 2 m.dst ++ leBytes 2 m.data.length ++ leBytes 8 m.word8 ++
  leBytes 8 ctr ++ leBytes 4 m.tag ++ leBytes 2 m.status ++ leBytes 2 m.want

/-- Flits of a frame with `n` data bytes (R350). -/
def flitsOf (n : Nat) : Nat := (32 + n + 16 + 243) / 244

/-- A frame with its counter in the header (Table SWEEP.2, offset 0x10). -/
def Sent.withCtr (f : Sent) (ctr : Nat) : Sent :=
  match f with
  | .frame p typ dst h b => .frame p typ dst (h.take 0x10 ++ leBytes 8 ctr ++ h.drop 0x18) b
  | f => f

/-! ### Flits (Table SWEEP.1) -/

/-- A flit: its 8-byte header, its body with zero fill, its CRC. -/
def flitBytes (head : Nat) (body : List Byte) : List Byte :=
  let b := leBytes 8 head ++ body ++ List.replicate (244 - body.length) 0
  b ++ leBytes 4 (crc32 b).toNat

/-- The acknowledgement that a flit of a port carries: the last sequence number received good. -/
def Port.ack (x : Port) : Nat := (x.rxSeq + 4095) % 4096

/-- An idle flit (R349): an acknowledgement, whether it asks for replay, and credits of a channel. -/
def idleFlit (ack : Nat) (nak : Bool) (vc credits : Nat) : List Byte :=
  flitBytes (2 ^ 4 + ack * 2 ^ 20 + b2n nak * 2 ^ 32 + credits * 2 ^ 33 + vc * 2 ^ 41) []

/-- Send an idle flit on port p. -/
def State.sendIdle (s : State) (p ack : Nat) (nak : Bool) (vc credits : Nat) : State :=
  { s with tx := .flit p (idleFlit ack nak vc credits) :: s.tx }

/-- The bodies of a frame (R350): its header, its data and its tag, under the port's key once it has one. -/
def Port.bodies (x : Port) (header data : List Byte) : List Byte :=
  if x.txKey = [] then header ++ data ++ List.replicate 16 0
  else
    let c := Config.gcmSeal x.txKey (leBytes 4 x.kid ++ (header.drop 0x10).take 8) header data
    header ++ c.1 ++ c.2

/-- The flits of a frame, under the sequence numbers that they use. -/
def Port.layout (x : Port) (vc : Nat) (body : List Byte) (seqs : List Nat) : List (Nat × List Byte) :=
  seqs.zipIdx.map fun q =>
    (q.1, flitBytes (vc + b2n (q.2 == 0) * 4 + b2n (q.2 + 1 == seqs.length) * 8 + q.1 % 4096 * 2 ^ 8 + x.ack * 2 ^ 20)
      ((body.drop (244 * q.2)).take 244))

/-- The flits of a frame that leaves. -/
def Port.flitsFor (x : Port) (vc : Nat) (seqs : List Nat) : Sent → List (Nat × List Byte)
  | .frame _ _ _ h b => x.layout vc (x.bodies h b) seqs
  | _ => []

/-- Send waiting frames of port p while their channel has credits (R356) and fewer than 2,048 flits are unacknowledged
(R351): a frame uses credits and sequence numbers as they come, and leaves, laid out in flits, with the next counter of its key
when its last flit does (log entry 85). -/
def State.sendWaiting (s : State) (p : Nat) : Nat → State
  | 0 => s
  | fuel + 1 =>
    let x := s.port p
    let room (v : Nat) : Nat := min (Tab.get 0 x.credits v) (2048 - (x.txSeq - x.txAck))
    match x.waiting.find? fun w => decide (0 < room w.1) with
    | none => s
    | some w =>
      let k := min (room w.1) w.2.1
      let seqs := Tab.get [] x.underway w.1 ++ (List.range k).map (x.txSeq + ·)
      let x := { x with credits := Tab.put 0 x.credits w.1 (Tab.get 0 x.credits w.1 - k), txSeq := x.txSeq + k }
      if k < w.2.1 then
        let ws := x.waiting.map fun y => if y = w then (w.1, w.2.1 - k, w.2.2) else y
        (s.setPort p { x with waiting := ws, underway := Tab.put [] x.underway w.1 seqs }).sendWaiting p fuel
      else if 2 ^ 32 ≤ x.txCtr then s
      else
        let f := w.2.2.withCtr (x.txCtr + 1)
        let fs := x.flitsFor w.1 seqs f
        let x := { x with
          waiting := x.waiting.erase w, txCtr := x.txCtr + 1, underway := Tab.put [] x.underway w.1 []
          unacked := x.unacked ++ fs }
        ({ s with tx := f :: (fs.reverse.map fun (q : Nat × List Byte) => Sent.flit p q.2) ++ s.tx }.setPort p x).sendWaiting p fuel

/-- Send one frame of a module on port p: it waits for its credits. -/
def State.sendFrom (s : State) (p src : Nat) (m : OutMsg) : State :=
  let x := s.port p
  let f := Sent.frame p m.typ m.dst (m.header src 0) m.data
  let x := { x with txBytes := x.txBytes + m.data.length, waiting := x.waiting ++ [(vcOf m.typ, flitsOf m.data.length, f)] }
  (s.setPort p x).sendWaiting p (2 * x.waiting.length)

/-- Send a frame of this module. -/
def State.sendOn (s : State) (p : Nat) (m : OutMsg) : State := s.sendFrom p s.myId m

/-- Send a message to a module: by the port of its route, or discarded as unroutable (R361). -/
def State.route (s : State) (src : Nat) (m : OutMsg) : State :=
  if s.peerAdmitted m.dst then s.sendFrom (s.routeOf m.dst) src m else s.bump 0x0206001C 7 9

/-- Send a message of this module to another. -/
def State.sendMsg (s : State) (m : OutMsg) : State := s.route s.myId m

/-- A collective message: group, rank and epoch in the 8-byte field. -/
def collMsg (typ dst group rank : Nat) (epoch : Word) (tag : Nat) (st : Status) (poison : Bool) (data : List Byte) : OutMsg :=
  ⟨typ, b2n poison, dst, group + rank * 0x100 + epoch.toNat * 0x100000000, tag, st.code, 0, data⟩

/-! ### Peer memory, requester (R362-R364) -/

/-- Module and remote DA of a peer address. -/
def State.peerPlace (s : State) (da : Nat) : Nat × Nat :=
  (s.apertureId ((da - peerBase) / 0x40000000000), (da - peerBase) % 0x40000000000)

/-- Pieces of a range of at most `n` bytes each. -/
def piecesBy (n : Nat) : Nat → Nat → Nat → List (Nat × Nat)
  | 0, _, _ => []
  | fuel + 1, da, len => if len = 0 then [] else (da, min n len) :: piecesBy n fuel (da + min n len) (len - min n len)

/-- The next unused request tag. -/
def State.peerTag (s : State) : Nat := s.peers.foldl (fun m p => max m (p.tag + 1)) 0

/-- Ask for bytes of a peer: one RD_REQ of at most 3,584 bytes. -/
def State.peerRead (s : State) (id da n : Nat) : State :=
  (piecesBy 3584 (n / 3584 + 1) da n).foldl (fun s r =>
    let tag := s.peerTag
    let (dst, rda) := s.peerPlace r.1
    let q : PeerReq := ⟨tag, id, r.1, r.2, false, s.etc⟩
    let s := { s with peers := s.peers ++ [q] }
    s.sendMsg ⟨mRdReq, 0, dst, rda, tag, 0, r.2, []⟩) s

/-- Send written bytes of one line to a peer: a masked write over whole 32-byte pieces. -/
def State.peerWrite (s : State) (id line : Nat) (cs : List Cell) : State :=
  let lo := (cs.foldl (fun m c => min m c.1) (line * 256 + 255)) / 32 * 32
  let hi := (cs.foldl (fun m c => max m c.1) (line * 256)) / 32 * 32 + 32
  let n := hi - lo
  let has (i : Nat) : Bool := cs.any fun c => c.1 == lo + i
  let mask := (List.range (n / 8)).map fun j =>
    BitVec.ofNat 8 ((List.range 8).foldl (fun a b => a + b2n (has (8 * j + b)) * 2 ^ b) 0)
  let bytes := (List.range n).map fun i => ((cs.find? fun c => c.1 == lo + i).map (·.2)).getD 0
  let tag := s.peerTag
  let (dst, rda) := s.peerPlace lo
  let q : PeerReq := ⟨tag, id, lo, n, true, s.etc⟩
  let s := { s with peers := s.peers ++ [q] }
  s.sendMsg ⟨mWrReq, 2, dst, rda, tag, 0, 0, mask ++ bytes⟩

end Sys2Proof.Machine
end

