-- ==== Sys2Proof/Machine/Coll.lean ====
section
/-! DEFINITION. Collectives (R365-R378): group entries, the start of an epoch, contributions, results, acknowledgements, the
decision at the root, notes and guards; and what follows when a port leaves admission (R102, R360). -/

namespace Sys2Proof.Machine

/-! ### Group entries (R365) -/

def State.grpRank (s : State) (g : Nat) : Nat := bits (s.grpWord g 0) 16 14
def State.grpParent (s : State) (g : Nat) : Nat := bits (s.grpWord g 1) 0 13
def State.grpChildren (s : State) (g : Nat) : List Nat :=
  (List.range (bits (s.grpWord g 1) 14 5)).map fun c => s.loadNat (s.grpDa g + 8 + 2 * c) 2 % 8192
def State.grpDie (s : State) (g : Nat) : Nat := bits (s.grpWord g 1) 19 2

/-- A group entry is valid: its valid bit, its ranges, its reserved bits, the root at rank 0. -/
def State.grpOk (s : State) (g : Nat) : Bool :=
  let w0 := s.grpWord g 0
  let w1 := s.grpWord g 1
  let n := bits w1 14 5
  bits w0 31 1 == 1 && bits w0 14 2 == 0 && bits w0 30 1 == 0 && bits w1 21 11 == 0 && bits w0 0 14 != 0 &&
  decide (bits w0 0 14 ≤ 8192) && decide (bits w0 16 14 < bits w0 0 14) && decide (n ≤ 16) &&
  ((bits w1 13 1 == 1) == (bits w0 16 14 == 0)) && !s.readBad (s.grpDa g) 64 &&
  (List.range 16).all fun c => decide (s.loadNat (s.grpDa g + 8 + 2 * c) 2 < (if c < n then 8192 else 65536))

/-! ### Elements -/

/-- Reducing ops: contributions are combined and travel in 4 bytes per element. -/
def Coll.reduces (c : Coll) : Bool := c.op == 0 || c.op == 1 || c.op == 4

/-- Bytes per element on the way. -/
def Coll.size (c : Coll) : Nat := if c.reduces then 4 else fmtBits c.fmt / 8

/-- Elements per chunk of 3,584 bytes. -/
def Coll.per (c : Coll) : Nat := 3584 / c.size

/-- Offsets of the chunks of one member's part. -/
def Coll.chunks (c : Coll) : List Nat := (List.range ((c.count + c.per - 1) / c.per)).map (· * c.per)

/-- Combine two elements: INT32 or FP32 words (R371). -/
def combine (int : Bool) (red : Nat) (a b : Word) : Word :=
  if int then
    match red with
    | 0 => a + b
    | 1 => if a.toInt < b.toInt then b else a
    | 2 => if b.toInt < a.toInt then b else a
    | 3 => a ||| b
    | _ => a &&& b
  else w32 (encodeLong fp32 (redStep red (decodeLong fp32 a.toNat) (decodeLong fp32 b.toNat)).1)

/-- Flags that combining two FP32 elements raises (R52, R80, R371). -/
def combineExc (int : Bool) (red : Nat) (a b : Word) : Exc :=
  if int then 0
  else
    let x := decodeLong fp32 a.toNat
    let y := decodeLong fp32 b.toNat
    (redStep red x y).2 ||| sigNan [x, y]

/-- This module's own elements as they travel. -/
def State.ownWords (s : State) (c : Coll) (src : Nat) : List Word :=
  let w := fmtBits c.fmt / 8
  (List.range c.count).map fun i =>
    let code := s.loadNat (src + i * w) w
    if c.reduces && isLong c.fmt then w32 (encodeLong fp32 (decodeLong (longOf c.fmt) code)) else w32 code

/-- Flags of reading this module's own elements: a signalling NaN is taken as a quiet one (R52). -/
def State.ownExc (s : State) (c : Coll) (src : Nat) : Exc :=
  if c.reduces && isLong c.fmt then
    let w := fmtBits c.fmt / 8
    sigNan ((List.range c.count).map fun i => decodeLong (longOf c.fmt) (s.loadNat (src + i * w) w))
  else 0

/-- Words as bytes on the way, and back. -/
def Coll.bytesOf (c : Coll) (ws : List Word) : List Byte := ws.flatMap fun w => leBytes c.size w.toNat
def Coll.wordsOf (c : Coll) (bs : List Byte) : List Word :=
  (List.range (bs.length / c.size)).map fun i => w32 (leNat c.size (bs.drop (i * c.size)))

/-- The key of a running epoch: its group and its number. -/
def collKey (g : Nat) (e : Word) : Nat := g + 256 * e.toNat

/-- An epoch comes after another (R368): their difference is positive as an INT32. -/
def newer (a b : Word) : Bool := decide (0 < (a - b).toInt)

/-- The running epoch of a key. -/
def State.coll (s : State) (g : Nat) : Coll := Tab.get Coll.none s.colls.running g
def State.setColl (s : State) (g : Nat) (c : Coll) : State :=
  { s with colls := { s.colls with running := Tab.put Coll.none s.colls.running g c } }

/-- The epoch of a key runs on this module. -/
def State.collRuns (s : State) (g : Nat) : Bool := s.colls.running.any fun e => e.1 == g

/-- Register of the Rigger of a die. -/
def riggerReg (die off : Nat) : Nat := 0x02050000 + die * 0x400000 + off

/-- Count a message of an ended epoch. -/
def State.late (s : State) : State := s.bump 0x0206001C 16 16

/-! ### Sending -/

/-- Send to every child. -/
def State.toChildren (s : State) (g : Nat) (m : Nat → OutMsg) : State :=
  (s.coll g).children.foldl (fun s k => s.sendMsg (m k)) s

/-- Send a note toward the root (R375). -/
def State.noteUp (s : State) (g : Nat) (st : Status) : State :=
  let c := s.coll g
  s.sendMsg (collMsg mNote c.parent c.group c.rank c.epoch 0 st false [])

/-! ### The end of an epoch (R369 step 7, R370) -/

/-- Record the last ended epoch of a group. -/
def State.recordEnded (s : State) (g : Nat) (epoch : Word) (st : Status) : State :=
  let e := Tab.get ((0 : Word), Status.ok) s.colls.ended g
  if newer epoch e.1 then { s with colls := { s.colls with ended := Tab.put (0, .ok) s.colls.ended g (epoch, st) } } else s

/-- Cells of the result at dst, converted under out_attr, and the flags of the conversion. -/
def Coll.output (c : Coll) (t : Task) : RunOut :=
  let a := attrOf t.clAttr
  let n := c.count * (if c.op = 3 then c.members else 1)
  let ws := (List.range n).map fun i => Tab.get (0 : Word) c.result i
  if c.op = 1 ∧ ¬ c.root then RunOut.empty
  else if c.reduces && isLong c.fmt then
    encOut a (encRow a .none (ws.zipIdx.map fun x => (decodeLong fp32 x.1.toNat, t.drawFor a x.2))) t.clDst 0
  else { RunOut.empty with writes := cellsAt t.clDst (ws.flatMap fun w => leBytes (fmtBits c.fmt / 8) w.toNat) }

/-- The verdict of an epoch reaches this member: forward it, release the claim, record it, end the COLLECT. -/
def State.endEpoch (s : State) (g : Nat) (st : Status) (forward : Bool) : State :=
  let c := s.coll g
  let s := if forward then s.toChildren g fun k => collMsg mFinal k c.group c.rank c.epoch 0 st false [] else s
  let s := if c.claim = 0 then s
    else { s with rigger := Tab.put 0 s.rigger c.die (Tab.get 0 s.rigger c.die - c.claim) }
  let s := if st = .collTimeout then s.bump 0x02060020 0 16 else if st = .collPoisoned then s.bump 0x02060020 16 16 else s
  let s := s.emitUnit 8 c.die (if st = .ok then 0 else 2) evVerdict st [w32 c.group, c.epoch]
  let t := s.task c.task
  let o := if st = .ok then c.output t else RunOut.empty
  let s := (s.write (w32 t.key) o.writes).recordEnded c.group c.epoch st
  let s := s.setColl g Coll.none
  match t.state with
  | .suspended (.collective _) => (s.setTask c.task { t with exc := c.exc ||| o.exc, sticky := o.sticky }).doneTask c.task st
  | _ => s

/-! ### Acknowledgements and the decision at the root (R369 steps 5 and 6, R374) -/

/-- Everything this member writes has arrived. -/
def Coll.full (c : Coll) : Bool :=
  c.opened && (c.op == 1 || c.written.length == (c.chunks.length * (if c.op = 3 then c.members else 1)))

/-- Send ACK_UP, or at the root decide, once the subtree has written its result. -/
def State.checkAcks (s : State) (g : Nat) : State :=
  let c := s.coll g
  if c.op = 4 ∨ !c.full ∨ c.acks.length < c.children.length then s
  else if c.root then
    if c.phase = 2 then s.endEpoch g (c.note.getD .ok) true else s
  else if c.sentAck then s
  else (s.setColl g { c with sentAck := true }).sendMsg (collMsg mAckUp c.parent c.group c.rank c.epoch 0 .ok false [])

/-- Part r of the result, chunk at `off`: its words enter the result and go down to the children. -/
def State.resultPart (s : State) (g r off : Nat) (poison : Bool) (ws : List Word) : State :=
  let c := s.coll g
  let base := (if c.op = 3 then r * c.count else 0) + off
  let c := { c with
    result := ws.zipIdx.foldl (fun m x => Tab.put 0 m (base + x.2) x.1) c.result
    written := Tab.put false c.written base true }
  (s.setColl g c).toChildren g fun k => collMsg mChunkDown k c.group r c.epoch off .ok (poison || c.poison) (c.bytesOf ws)

/-- The completing arrival at the root: phase 2 begins and the result goes down; a FLAG ends at once (R374, R378). -/
def State.complete (s : State) (g : Nat) : State :=
  let c := s.coll g
  let s := s.setColl g { c with phase := 2, armedAt := s.etc }
  let words (b n : Nat) : List Word := (List.range n).map fun i => Tab.get 0 c.sums (b + i)
  if c.op = 4 then
    let s := s.setColl g { s.coll g with result := c.sums }
    let s := s.toChildren g fun k => collMsg mFlagDown k c.group c.rank c.epoch 0 .ok false (c.bytesOf (words 0 16))
    s.endEpoch g .ok false
  else if c.op = 1 then (s.setColl g { s.coll g with result := c.sums }).checkAcks g
  else
    let parts := if c.op = 3 then List.range c.members else [0]
    let s := parts.foldl (fun s r => c.chunks.foldl (fun s off =>
      s.resultPart g r off false (words ((if c.op = 3 then r * c.count else 0) + off) (min c.per (c.count - off)))) s) s
    s.checkAcks g

/-- Arrivals that complete the collective at the root. -/
def Coll.allHere (c : Coll) : Bool :=
  match c.op with
  | 2 => c.arrivals.length == c.chunks.length
  | 3 => c.arrivals.length == c.chunks.length * c.members
  | _ => c.arrivals.length == c.chunks.length && c.arrivals.all fun e => e.2 == c.children.length + 1

/-- A contribution for the chunk at `off` arrives (R369 step 4, R371): from rank r, in order of arrival. -/
def State.contribute (s : State) (g r off : Nat) (poison : Bool) (ws : List Word) (work : Nat) : State :=
  let c := s.coll g
  let key := (if c.op = 3 then r * c.count else 0) + off
  let n := Tab.get 0 c.arrivals key
  let sums := ws.zipIdx.foldl (fun m x =>
    let i := key + x.2
    Tab.put 0 m i (if n = 0 ∨ !c.reduces then x.1 else combine (c.fmt == 3) c.red (Tab.get 0 m i) x.1)) c.sums
  let exc := if n = 0 ∨ !c.reduces then 0
    else ws.zipIdx.foldl (fun e x => e ||| combineExc (c.fmt == 3) c.red (Tab.get 0 c.sums (key + x.2)) x.1) 0
  let inWork := c.reduces && c.op != 4 && c.claim == 0 && work != 0
  let lost := inWork && decide (0 < n) && s.readBad (work + 4 * key) (4 * ws.length)
  let s := if lost && !c.poison && !c.root then s.noteUp g .collPoisoned else s
  let c := { c with arrivals := Tab.put 0 c.arrivals key (n + 1), sums := sums, exc := c.exc ||| exc, poison := c.poison || poison || lost }
  let s := s.setColl g c
  let out := (List.range ws.length).map fun i => Tab.get 0 sums (key + i)
  let s := if inWork then s.write 0 (wordCells (work + 4 * key) out) else s
  let done := !c.reduces || n + 1 == c.children.length + 1
  if lost && c.root then s.endEpoch g .collPoisoned true
  else if !done then s
  else if c.root then (if c.phase = 1 ∧ c.allHere then s.complete g else s)
  else if c.op = 2 then s
  else
    let s := s.setColl g { c with after_ := true }
    s.sendMsg (collMsg (if c.op = 4 then mFlagUp else mChunkUp) c.parent c.group r c.epoch off .ok c.poison (c.bytesOf out))

/-! ### Opening (R369 steps 1 to 3, R373) -/

/-- Claim Rigger slots, all or none; a refusal is counted and logged, and the member uses its scull (R373). -/
def State.riggerClaim (s : State) (g : Nat) (t : Task) : State :=
  let c := s.coll g
  if !(t.clRig && (c.op == 0 || c.op == 1)) then s
  else
    let used := Tab.get 0 s.rigger c.die
    if 256 < used + t.clSlots then
      (s.bump (riggerReg c.die 4) 16 16).emitUnit 8 c.die 1 evRedFull .redFull [w32 c.group, c.epoch, w32 t.clSlots]
    else
      let s := { s with rigger := Tab.put 0 s.rigger c.die (used + t.clSlots) }
      (s.bump (riggerReg c.die 4) 0 16).setColl g { c with claim := t.clSlots }

/-- Bytes whose value the spec leaves undefined. -/
def State.freeBytes (s : State) (da n : Nat) : State :=
  let s' := s.write 0 ((List.range n).map fun i => (da + i, Config.freeByte (s.fresh + i)))
  { s' with fresh := s.fresh + n }

/-- The epoch is open at this member: claim, forward START, read the own contribution. dst is undefined until FINAL with
OK (R372). -/
def State.openColl (s : State) (g : Nat) (at_ : Nat) : State :=
  let c := s.coll g
  let t := s.task c.task
  let s := s.setColl g { c with
    opened := true
    guardAt := if c.root then .none else some (at_ + 2 * c.timeout + (c.timeout + 499) / 500 + (s.reg 0x02060010).toNat) }
  let s := s.riggerClaim g t
  let s := s.toChildren g fun k => collMsg mStart k c.group c.rank c.epoch 0 .ok false []
  let bad := s.readBad t.clSrc t.clSrcBytes
  let ws := s.ownWords c t.clSrc
  let s := s.setColl g { s.coll g with exc := s.ownExc c t.clSrc }
  let s := if c.op = 1 ∧ ¬ c.root then s else s.freeBytes t.clDst (t.clDstBytes c.members)
  let s := if bad then
      if c.root then s.setColl g { s.coll g with poison := true } else (s.setColl g { s.coll g with poison := true }).noteUp g .collPoisoned
    else s
  let s := if c.op = 2 ∧ ¬ c.root then s
    else c.chunks.foldl (fun s off =>
      if s.collRuns g then s.contribute g c.rank off false ((ws.drop off).take c.per) t.clWork else s) s
  if bad && c.root && s.collRuns g && (s.coll g).phase == 1 then s.endEpoch g .collPoisoned true else s.checkAcks g

/-- A COLLECT enters RUNNING (R365, R368): it runs, completes at once, or waits again for an epoch that its earlier run
opened (R377). -/
def State.beginCollect (s : State) (id : Nat) (t : Task) : State :=
  let g := t.clGroup
  let k := collKey g t.clEpoch
  let e := Tab.get ((0 : Word), Status.ok) s.colls.ended g
  let members := s.grpChildren g ++ (if s.grpRoot g then [] else [s.grpParent g])
  let wait (s : State) : State := s.setTask id { s.task id with state := .suspended (.collective k) }
  if s.collRuns k && (s.coll k).task == id then
    let s := wait s
    if (s.coll k).after_ && !(s.coll k).root then s.noteUp k .collPoisoned
    else if (s.coll k).after_ && (s.coll k).phase == 1 then s.endEpoch k .collPoisoned true
    else s
  else if !s.grpOk g then s.doneTask id .badArgument
  else if t.clEpoch = e.1 then s.doneTask id e.2
  else if !newer t.clEpoch e.1 then s.doneTask id .badArgument
  else if s.collRuns k then s.doneTask id .badArgument
  else if (t.clOp = 0 ∨ t.clOp = 1) ∧ (s.grpRoot g = true ∨ s.grpChildren g ≠ []) ∧ t.clWork = 0 then s.doneTask id .badArgument
  else if members.any fun m => !s.peerAdmitted m then s.doneTask id .peerAbsent
  else
    let c : Coll := { Coll.none with
      group := g, task := id, epoch := t.clEpoch, op := t.clOp, red := t.clRed, fmt := t.clIn, count := t.clCount, timeout := t.clTimeout,
      root := s.grpRoot g, parent := s.grpParent g, children := s.grpChildren g, rank := s.grpRank g,
      members := s.grpMembers g, die := s.grpDie g, phase := 1, armedAt := s.etc }
    let s := (wait s).setColl k c
    if c.root then s.openColl k s.etc
    else match Tab.get none s.colls.held g with
      | some h =>
        if h.1 = t.clEpoch then
          { s with colls := { s.colls with held := Tab.put none s.colls.held g none } }.openColl k h.2
        else s
      | none => s

/-! ### Ports that leave admission (R102, R357, R360, R375) -/

/-- Tasks whose peers left admission end with PEER_ABSENT; collectives over them send a NOTE, or are decided at the root. -/
def State.peersGone (s : State) : State :=
  let lost := s.tasks.filter fun e =>
    match e.2.state with
    | .running => (s.opdsOf e.2).any fun o => o.rngs.any fun r => s.rangePeerBad r.1
    | .suspended _ => (s.opdsOf e.2).any fun o => o.rngs.any fun r => s.rangePeerBad r.1
    | .committed => s.peers.any fun p => p.task == e.1 && !s.peerAdmitted (s.peerPlace p.da).1
    | _ => false
  let s := lost.foldl (fun s e =>
    ({ s with peers := s.peers.filter fun p => p.task != e.1 }).doneTask e.1 .peerAbsent) s
  s.colls.running.foldl (fun s e =>
    let c := e.2
    if !(c.children ++ (if c.root then [] else [c.parent])).any fun m => !s.peerAdmitted m then s
    else if !c.root then s.noteUp e.1 .peerAbsent
    else if c.phase = 1 then s.endEpoch e.1 .peerAbsent true
    else s.setColl e.1 { c with note := some (c.note.getD .peerAbsent) }) s

/-- Log a port event: kind 9, with the state entered and the partner. -/
def State.emitPort (s : State) (p sev code : Nat) (st : Status) (pl : List Word) : State := s.emitUnit 9 p sev code st pl

/-- Code of a port state (Table SWEEP.5). -/
def PortState.code : PortState → Nat
  | .disabled => 0 | .down => 1 | .training => 2 | .attesting => 3 | .admitted => 4 | .quarantined => 5

/-- A port enters a state: the frames in flight are gone, keys and counters of an admission with them. -/
def State.portTo (s : State) (p : Nat) (st : PortState) (qcause : Nat) : State :=
  let x := s.port p
  let was := x.state
  let s := s.setPort p { Port.init with
    state := st, since := s.etc, guardDis := x.guardDis, x4 := x.x4 && st == .attesting, upper := x.upper && st == .attesting,
    peer := x.peer, qcause := qcause, txBytes := x.txBytes, rxBytes := x.rxBytes, nonceUsed := x.nonceUsed }
  if was = .admitted then s.peersGone else s

/-- Quarantine a port for a cause (R360). -/
def State.quarantine (s : State) (p qcause : Nat) (st : Status) : State :=
  let peer := (s.port p).peer
  (s.portTo p .quarantined qcause).emitPort p 2 evQuarantine st [w32 qcause, w32 peer]

/-! ### Messages of an epoch -/

/-- A collective message is looked at only from the parent or a child of its group (R359): those of the running epoch, whose
entry was read when its COLLECT entered RUNNING (R365), else those of a valid entry. -/
def State.fromTree (s : State) (g : Nat) (e : Word) (src : Nat) : Bool :=
  let c := s.coll (collKey g e)
  if s.collRuns (collKey g e) then c.children.contains src || (!c.root && c.parent == src)
  else s.grpOk g && ((s.grpChildren g).contains src || (!s.grpRoot g && s.grpParent g == src))

/-- Run a handler for a message of a group: a source outside the tree breaks protocol; an epoch that has ended, or that does
not run here, makes the message late. -/
def State.onColl (s : State) (p : Nat) (m : Msg) (go : State → Nat → State) : State :=
  if (s.port p).state != .admitted then s
  else if !s.fromTree m.group m.epoch m.src then s.quarantine p 2 .badArgument
  else if s.collRuns (collKey m.group m.epoch) then go s (collKey m.group m.epoch)
  else s.late

/-- A received NOTE or a poison found at the root decides phase 1, and is kept in phase 2 (Table SWEEP.8). -/
def State.rootNote (s : State) (g : Nat) (st : Status) : State :=
  let c := s.coll g
  if c.phase = 1 then s.endEpoch g st true
  else s.setColl g { c with note := some (c.note.getD st) }

/-- A chunk flagged poisoned, or an uncorrectable error in an epoch's sums (R375). -/
def State.collPoison (s : State) (g : Nat) : State :=
  let c := s.coll g
  if c.poison then s
  else
    let s := s.setColl g { c with poison := true }
    if c.root then s.rootNote g .collPoisoned else s.noteUp g .collPoisoned

/-- Status of a received 16-bit code: what a NOTE or FINAL may carry. -/
def statusOfCode (n : Nat) : Status :=
  match n with
  | 0 => .ok | 0x20 => .collTimeout | 0x21 => .collPoisoned | 0x23 => .peerAbsent | 3 => .badArgument | _ => .internal

/-- START (R369 steps 1 and 2): a member that waits for it opens the epoch; else one START per group is held. -/
def execCollStart (p : Nat) (m : Msg) (s : State) : Result :=
  if s.power = .on ∧ (s.port p).state = .admitted then
    let k := collKey m.group m.epoch
    if !s.fromTree m.group m.epoch m.src then .next (s.quarantine p 2 .badArgument)
    else if s.collRuns k then
      if (s.coll k).opened then .next s else .next (s.openColl k s.etc)
    else if newer m.epoch (Tab.get ((0 : Word), Status.ok) s.colls.ended m.group).1 then
      .next { s with colls := { s.colls with held := Tab.put none s.colls.held m.group (some (m.epoch, s.etc)) } }
    else .next s.late
  else .next s

/-- CHUNK_UP (R369 step 4, R371): combine a contribution in order of arrival. -/
def execChunkUp (p : Nat) (m : Msg) (s : State) : Result :=
  .next (s.onColl p m fun s g =>
    let c := s.coll g
    let s := if m.poisoned then s.collPoison g else s
    if s.collRuns g then
      if c.root ∧ c.phase ≠ 1 then s.late
      else s.contribute g m.rank m.tag.toNat m.poisoned (c.wordsOf m.data) (s.task c.task).clWork
    else s)

/-- CHUNK_DOWN (R369 step 5): forward the result chunk and keep it for dst. -/
def execChunkDown (p : Nat) (m : Msg) (s : State) : Result :=
  .next (s.onColl p m fun s g =>
    let s := if m.poisoned then s.collPoison g else s
    if s.collRuns g then (s.resultPart g m.rank m.tag.toNat m.poisoned ((s.coll g).wordsOf m.data)).checkAcks g else s)

/-- ACK_UP (R369 step 6, R374): a child's subtree has written its result. -/
def execAckUp (p : Nat) (m : Msg) (s : State) : Result :=
  .next (s.onColl p m fun s g =>
    let c := s.coll g
    if c.acks.contains m.src then s else (s.setColl g { c with acks := c.acks ++ [m.src] }).checkAcks g)

/-- NOTE (R374, R375): forwarded toward the root; at the root it decides phase 1. -/
def execCollNote (p : Nat) (m : Msg) (s : State) : Result :=
  .next (s.onColl p m fun s g =>
    let st := statusOfCode m.status.toNat
    if (s.coll g).root then s.rootNote g st else s.noteUp g st)

/-- FINAL (R369 step 7, R370): the verdict ends the epoch here; a member whose COLLECT has not started it forwards it,
drops a START held for it and records it. -/
def execCollFinal (p : Nat) (m : Msg) (s : State) : Result :=
  if s.power = .on ∧ (s.port p).state = .admitted then
    let g := m.group
    let st := statusOfCode m.status.toNat
    if !s.fromTree g m.epoch m.src then .next (s.quarantine p 2 .badArgument)
    else if s.collRuns (collKey g m.epoch) then .next (s.endEpoch (collKey g m.epoch) st true)
    else if newer m.epoch (Tab.get ((0 : Word), Status.ok) s.colls.ended g).1 then
      let s := (s.grpChildren g).foldl (fun s k => s.sendMsg (collMsg mFinal k g (s.grpRank g) m.epoch 0 st false [])) s
      let held := match Tab.get none s.colls.held g with
        | some h => if h.1 = m.epoch then Tab.put none s.colls.held g none else s.colls.held
        | none => s.colls.held
      .next ({ s with colls := { s.colls with held := held } }.recordEnded g m.epoch st)
    else .next s.late
  else .next s

/-- FLAG_UP (R378): a contribution of 16 elements, combined in order of arrival. -/
def execFlagUp (p : Nat) (m : Msg) (s : State) : Result :=
  .next (s.onColl p m fun s g =>
    let c := s.coll g
    let s := if m.poisoned then s.collPoison g else s
    if s.collRuns g then
      if c.root ∧ c.phase ≠ 1 then s.late else s.contribute g m.rank 0 m.poisoned (c.wordsOf m.data) 0
    else s)

/-- FLAG_DOWN (R378): the result and the verdict OK in one message, which serves as FINAL. -/
def execFlagDown (p : Nat) (m : Msg) (s : State) : Result :=
  .next (s.onColl p m fun s g =>
    let c := s.coll g
    let s := s.setColl g { c with result := (c.wordsOf m.data).zipIdx.foldl (fun r x => Tab.put 0 r x.2 x.1) [] }
    let s := s.toChildren g fun k => collMsg mFlagDown k c.group c.rank c.epoch 0 .ok false m.data
    s.endEpoch g .ok false)

/-- Keys of the running epochs of a group that meet a condition. -/
def State.epochsOf (s : State) (g : Nat) (f : Coll → Bool) : List Nat :=
  (s.colls.running.filter fun e => e.2.group == g && f e.2).map (·.1)

/-- PHASE_TIMER_EXPIRY (R374): at the root, T microseconds after the phase began, the verdict is COLL_TIMEOUT. -/
def execPhaseTimerExpiry (g : Nat) (s : State) : Result :=
  if s.power ≠ .on then .next s
  else .next ((s.epochsOf g fun c => c.root && c.opened && decide (c.armedAt + c.timeout + 1 ≤ s.etc)).foldl
    (fun s k => s.endEpoch k .collTimeout true) s)

/-- MEMBER_GUARD_EXPIRY (R376): no FINAL came; the COLLECT completes with COLL_TIMEOUT. -/
def execMemberGuardExpiry (g : Nat) (s : State) : Result :=
  if s.power ≠ .on then .next s
  else .next ((s.epochsOf g fun c => c.guardAt.any fun a => decide (a + 1 ≤ s.etc)).foldl
    (fun s k => (s.bump 0x02060024 0 16).endEpoch k .collTimeout false) s)

end Sys2Proof.Machine
end

