-- ==== Sys2Proof/Machine/Dma.lean ====
section
/-! DEFINITION. The scull DMA (R98-R102): how the rows of an operand are packed into transfers, how a transfer is granted and
where it leads (R312), the panel cache (R147), what lands, and the errors that a read finds (R97, R292). -/

namespace Sys2Proof.Machine

/-! ### Rows and transfers (R98) -/

/-- Bytes of element data that one transfer moves at most. -/
def xferMax : Nat := 0x4000

/-- In place of the time of issue: a transfer whose deadline has passed or that has none. -/
def noDeadline : Nat := 2 ^ 64

/-- A transfer of one row that nothing has granted yet. -/
def Xfer.ofRow (k : XferKind) (stage : Nat) (weight panel : Bool) (r : Row) : Xfer :=
  ⟨k, stage, r.da, r.n, 1, 0, r.sda, r.sn, 0, [], weight, panel, 0, none, []⟩

/-- Pieces of a row longer than a transfer; its scale bytes go with the first. -/
def Row.split (r : Row) : List Row :=
  (piecesBy xferMax (r.n / xferMax + 1) r.da r.n).zipIdx.map fun p =>
    if p.2 = 0 then ⟨p.1.1, p.1.2, r.sda, r.sn⟩ else ⟨p.1.1, p.1.2, 0, 0⟩

/-- Whether row r continues a transfer: as long as its rows, at their strides, within 128 rows and 16 KiB. -/
def Xfer.takes (x : Xfer) (r : Row) : Bool :=
  x.len == r.n && x.slen == r.sn && decide (x.rows < 128) && decide ((x.rows + 1) * x.len ≤ xferMax) &&
  decide (x.da < r.da) && (r.sn == 0 || decide (x.sda ≤ r.sda)) &&
  (x.rows == 1 || (x.da + x.rows * x.stride == r.da && (r.sn == 0 || x.sda + x.rows * x.sstride == r.sda)))

/-- Add a row to the transfers planned so far, newest first. -/
def packRow (k : XferKind) (stage : Nat) (weight panel : Bool) (acc : List Xfer) (r : Row) : List Xfer :=
  match acc with
  | x :: rest =>
    if x.takes r then
      { x with
        rows := x.rows + 1
        stride := if x.rows = 1 then r.da - x.da else x.stride
        sstride := if x.rows = 1 then r.sda - x.sda else x.sstride } :: rest
    else Xfer.ofRow k stage weight panel r :: acc
  | [] => [Xfer.ofRow k stage weight panel r]

/-- Transfers for rows, in order. -/
def packRows (k : XferKind) (stage : Nat) (weight panel : Bool) (rs : List Row) : List Xfer :=
  ((rs.flatMap Row.split).foldl (packRow k stage weight panel) []).reverse

/-- Ranges as rows without scale bytes. -/
def rowsOf (rs : List (Nat × Nat)) : List Row := rs.map fun r => ⟨r.1, r.2, 0, 0⟩

/-- Read transfers of a stage for a list of ranges, in order. -/
def packRanges (stage : Nat) (rs : List (Nat × Nat)) : List Xfer := packRows .read stage false false (rowsOf rs)

/-- Ranges of a transfer: its rows, and their scale bytes. -/
def Xfer.ranges (x : Xfer) : List (Nat × Nat) :=
  ((List.range x.rows).map fun i => (x.da + i * x.stride, x.len)) ++
  (if x.slen = 0 then [] else (List.range x.rows).map fun i => (x.sda + i * x.sstride, x.slen))

/-- Whether an address is among a transfer's bytes. -/
def Xfer.covers (x : Xfer) (a : Nat) : Bool := x.ranges.any fun r => decide (r.1 ≤ a) && decide (a < r.1 + r.2)

/-- Runs of consecutive cells, as ranges in order. -/
def runsOf (cs : List Cell) : List (Nat × Nat) :=
  (cs.foldl (fun (acc : List (Nat × Nat)) c =>
    match acc with
    | (a, n) :: rest => if a + n = c.1 then (a, n + 1) :: rest else (c.1, 1) :: acc
    | [] => [(c.1, 1)]) []).reverse

/-- Write transfers of cells: the rows that the conversion named with their scales, and the runs of what is left. -/
def writeXfers (stage : Nat) (segs : List Row) (cs : List Cell) : List Xfer :=
  let own (r : Row) (a : Nat) : Bool :=
    (decide (r.da ≤ a) && decide (a < r.da + r.n)) || (decide (r.sda ≤ a) && decide (a < r.sda + r.sn))
  let left := cs.filter fun c => !(segs.any fun r => own r c.1)
  (packRows .write stage false false (segs ++ rowsOf (runsOf left))).map fun x =>
    { x with data := cs.filter fun c => x.covers c.1 }

/-- The write transfers of a spilled slot, or the reads that bring it back: 4 KiB at `da`. -/
def slotXfer (k : XferKind) (part da : Nat) (ws : List Word) : Xfer :=
  { Xfer.ofRow k part false false ⟨da, 4096, 0, 0⟩ with data := if k = .spill then wordCells da ws else [] }

/-! ### Granting a transfer (R99, R312, R320) -/

/-- Pieces of a range, cut where tier pages end, with the places that they lead to now (R312). -/
def State.placeRange (s : State) (rc : Option Nat) (da n : Nat) : List (Nat × Nat × Nat) :=
  if n = 0 then []
  else (List.range ((da + n - 1) / tierPage + 1 - da / tierPage)).map fun j =>
    let lo := max da ((da / tierPage + j) * tierPage)
    let hi := min (da + n) ((da / tierPage + j + 1) * tierPage)
    (lo, s.redirect rc lo, hi - lo)

/-- The places that a transfer's ranges lead to now. -/
def State.placesNow (s : State) (t : Task) (x : Xfer) : List (Nat × Nat × Nat) :=
  x.ranges.flatMap fun r => s.placeRange t.recompute r.1 r.2

/-- The tensor whose home page a read meets first (R320). -/
def State.homeOf (s : State) (ps : List (Nat × Nat × Nat)) : Option Nat :=
  ps.findSome? fun p => (s.named p.1).bind fun x => if p.1 = p.2.1 && !(s.tensor x.1).inT1 then some x.1 else none

/-- Where a granted transfer's byte at an address leads. -/
def Xfer.to (x : Xfer) (a : Nat) : Nat :=
  ((x.placed.find? fun p => decide (p.1 ≤ a) && decide (a < p.1 + p.2.2)).map fun p => p.2.1 + (a - p.1)).getD a

/-- A transfer as it is granted now. -/
def State.grant (s : State) (t : Task) (x : Xfer) : Xfer :=
  let ps := s.placesNow t x
  let reads := x.kind != .write && x.kind != .spill
  { x with
    placed := ps
    issuedAt := if x.issuedAt = noDeadline then noDeadline else s.etc
    home := if reads then s.homeOf ps else none }

/-- A transfer that reads. -/
def Xfer.isRead (x : Xfer) : Bool := x.kind != .write && x.kind != .spill

/-- A result write that goes to its destination at once: the page copies of a swap (R125). -/
def Task.unheld (t : Task) : Bool := t.kind == kKvappend && t.kvOp != 0

/-- What granting a transfer does beside: its requests heat registered pages (R314); a read of a peer leaves as RD_REQ
frames. Held writes reach their pages at commit. -/
def State.issue (s : State) (id : Nat) (x : Xfer) : State :=
  let s := if x.kind = .write && !(s.task id).unheld then s else x.ranges.foldl (fun s r => s.heatRange r.1 r.2) s
  if x.isRead && regionOf x.da == some .peer then x.ranges.foldl (fun s r => s.peerRead id r.1 r.2) s else s

/-- The tasks of a scull whose transfers may be outstanding: the running one, then the suspended ones. -/
def State.tasksOn (s : State) (k : Nat) : List Nat := (s.scull k).task.toList ++ (s.scull k).suspended

/-- Outstanding transfers of a scull (R99): task and place in its list. -/
def State.outstanding (s : State) (k : Nat) : List (Nat × Nat) :=
  (s.tasksOn k).flatMap fun id => (List.range (s.task id).flying.length).map fun i => (id, i)

/-- Slots whose last write has been issued are free (Table SCULL.3). -/
def State.freeDrained (s : State) (id : Nat) : State :=
  let t := s.task id
  match t.scull with
  | none => s
  | some k =>
    let u := s.scull k
    let busy (p : Nat) : Bool := t.todo.any fun x => x.kind == .write && x.stage == p
    s.setScull k { u with bank := u.bank.filter fun b => b.task != id || b.state != .draining || busy b.part }

/-- Start waiting transfers of a running task while fewer than 6 are outstanding on its scull (R99). -/
def State.startXfers (s : State) (id : Nat) : Nat → State
  | 0 => s
  | fuel + 1 =>
    let t := s.task id
    match t.todo with
    | [] => s
    | x :: rest =>
      if t.state != .running || decide (6 ≤ (s.outstanding (t.scull.getD 0)).length) then s
      else
        let x := s.grant t x
        ((s.setTask id { t with todo := rest, flying := t.flying ++ [x] }).issue id x).startXfers id fuel

/-- Start waiting transfers, and free the slots that this drains. -/
def State.pumpXfers (s : State) (id : Nat) : State := (s.startXfers id 6).freeDrained id

/-- A transfer of scull k has ended: those that wait may start. -/
def State.pumpScull (s : State) (k : Nat) : State :=
  match (s.scull k).task with
  | none => s
  | some id => s.pumpXfers id

/-- Give a run more transfers, before or behind those that wait; each that cannot start at once waits and is counted. -/
def State.giveXfers (s : State) (id : Nat) (front : Bool) (xs : List Xfer) : State :=
  let t := s.task id
  let k := t.scull.getD 0
  let room := 6 - (s.outstanding k).length - t.todo.length
  let s := s.setTask id { t with todo := if front then xs ++ t.todo else t.todo ++ xs }
  let s := if xs.length ≤ room then s else s.bumpBy (scullReg k 0x24) 0 32 (xs.length - room)
  s.pumpXfers id

/-- Give a run more transfers, behind those that wait. -/
def State.addXfers (s : State) (id : Nat) (xs : List Xfer) : State := s.giveXfers id false xs

/-! ### The panel cache (R147) -/

/-- Lines that a partition's panel cache holds in one crew store: 1,024 in each of its ways (R96, SCHED_PART_p_CFG). -/
def State.panelLines (s : State) (c : Nat) : Nat :=
  match s.crewServes c with
  | some p => 1024 * ((List.range 16).filter fun w => natBit (s.fld (0x02070000 + 16 * p) 16 16) w).length
  | none => 0

/-- Lines of 256 bytes that a range touches. -/
def linesIn (da n : Nat) : List Nat :=
  if n = 0 then [] else (List.range ((da + n - 1) / 256 + 1 - da / 256)).map (da / 256 + ·)

/-- A line enters crew c's panel cache, whole, as memory stands; the oldest line leaves when the ways are full. A line that
cannot be read good is not kept (log entry 73). -/
def State.panelFill (s : State) (c line : Nat) (src : Nat → Nat) : State :=
  let k := s.crew c
  if (k.panel.any fun l => l.1 == line) || s.panelLines c = 0 || s.readBad (src (line * 256)) 256 then s
  else
    let l := k.panel ++ [(line, (List.range 256).map fun i => s.byte (src (line * 256 + i)))]
    s.setCrew c { k with panel := l.drop (l.length - s.panelLines c) }

/-- A byte as crew c's panel cache holds it. -/
def State.panelByte (s : State) (c a : Nat) : Option Byte :=
  ((s.crew c).panel.find? fun l => l.1 == a / 256).map fun l => l.2.getD (a % 256) 0

/-- Whether a read of a range is served wholly from crew c's panel cache. -/
def State.panelHit (s : State) (c da n : Nat) : Bool := (linesIn da n).all fun l => (s.crew c).panel.any fun x => x.1 == l

/-! ### What lands -/

/-- The crew whose panel cache serves a transfer; none when it does not pass through it. -/
def Task.panelOf (t : Task) (x : Xfer) : Option Nat := if x.panel then t.scull.map (· / 16) else .none

/-- Whether the data that a read needs from memory is not good: a range that the panel cache serves needs none. -/
def State.landsBad (s : State) (t : Task) (x : Xfer) : Bool :=
  x.placed.any fun p => !(match t.panelOf x with
    | some c => s.panelHit c p.1 p.2.2
    | none => false) && s.readBad p.2.1 p.2.2

/-- The bytes of a read, by the addresses that the descriptor names. -/
def State.landCells (s : State) (t : Task) (x : Xfer) : List Cell :=
  x.ranges.flatMap fun r => (List.range r.2).map fun i =>
    (r.1 + i, match (t.panelOf x).bind fun c => s.panelByte c (r.1 + i) with
      | some b => b
      | none => s.byte (x.to (r.1 + i)))

/-- Bytes of a fill join its stage. -/
def addFill (fs : List (Nat × List Cell)) (stage : Nat) (cs : List Cell) : List (Nat × List Cell) :=
  (stage, cs ++ ((fs.lookup stage).getD [])) :: fs.filter fun f => f.1 != stage

/-- The bytes of a read enter what the run holds: a fill or a pass's read its stage, a load the image, a reload its slot. -/
def Task.take (t : Task) (x : Xfer) (cs : List Cell) : Task :=
  match x.kind with
  | .fill => { t with fills := addFill t.fills x.stage cs }
  | .read => { t with fills := addFill t.fills x.stage cs, image := cs ++ t.image }
  | _ => { t with image := cs ++ t.image }

/-- The words of a slot that a reload brought back. -/
def wordsAt (cs : List Cell) (da : Nat) : List Word :=
  (List.range 1024).map fun i => w32 (leNat 4 ((List.range 4).map fun j => (cs.lookup (da + 4 * i + j)).getD 0))

/-- A reload has landed: the slots of its part that wait for words take the first of them (R91). -/
def State.reloadSlot (s : State) (k id : Nat) (x : Xfer) (cs : List Cell) : State :=
  let u := s.scull k
  match u.bank.find? fun b => b.task == id && b.part == x.stage && b.state == .live && b.words.isEmpty with
  | none => s
  | some b => s.setScull k { u with bank := u.bank.map fun e =>
      if e.task == id && e.part == b.part && e.idx == b.idx then { e with words := wordsAt cs x.da } else e }

/-- A transfer reads the indices of a GATHER (R285). -/
def Task.indices (t : Task) (x : Xfer) : Bool := t.kind == kGather && x.stage == 0 && x.kind == .read

/-- A read has landed: it is counted where it was served, and its bytes enter the run. -/
def State.landRead (s : State) (id : Nat) (x : Xfer) : State :=
  let t := s.task id
  let lines := (x.ranges.flatMap fun (r : Nat × Nat) => linesIn r.1 r.2).dedup
  let s : State := match t.panelOf x with
    | some c => lines.foldl (fun s l =>
        if (s.crew c).panel.any fun e => e.1 == l then s
        else (s.countRead (x.to (l * 256)) 256).panelFill c l fun a => s.redirect t.recompute a) s
    | none => x.placed.foldl (fun s p => if t.indices x then s.countNarrow p.2.1 p.2.2 else s.countRead p.2.1 p.2.2) s
  let cs := s.landCells t x
  match x.kind with
  | .reload => s.reloadSlot (t.scull.getD 0) id x cs
  | _ => s.setTask id (t.take x cs)

/-- Tensors whose pages a granted write reached in T1 become dirty (R312). -/
def State.dirtied (s : State) (x : Xfer) : State :=
  x.placed.foldl (fun s p =>
    match s.named p.1 with
    | some (i, _) => if (s.tensor i).state == .resident then s.updTensor i { s.tensor i with dirty := true } else s
    | none => s) s

/-- A write has landed: in the holding (R125); a swap's copies (R237) and spilled words (R91) where they lead. -/
def State.landWrite (s : State) (id : Nat) (x : Xfer) : State :=
  let t := s.task id
  if x.kind = .spill || t.unheld then
    (s.write (w32 t.key) (x.data.map fun c => (x.to c.1, c.2))).dirtied x
  else s.setTask id { t with held := t.held ++ x.data }

/-! ### Errors that a read finds (R97, R292) -/

/-- SCULL_FAULT_ADDR captures the first error after valid was cleared (R106). -/
def State.captureFault (s : State) (k offset : Nat) : State :=
  if s.fld (scullReg k 0x20) 19 1 = 1 then s else s.setReg (scullReg k 0x20) (w32 (offset % 0x80000 + 0x80000))

/-- An uncorrectable local-store error counts toward the limit (R97). -/
def State.storeUe (s : State) (k offset : Nat) : State :=
  let s := (s.bump (scullReg k 0x18) 16 8).captureFault k offset
  let s := s.emitUnit 0 k 2 evEccUe .internal [w32 k, w32 offset]
  s.setScull k { s.scull k with ueTimes := s.etc :: (s.scull k).ueTimes }

/-- A read without a command-parity error ends the row of them on each channel that it reaches (R297). -/
def State.parityEnds (s : State) (fs : List (Nat × PieceCheck)) (ps : List (Nat × Nat × Nat)) : State :=
  let bad := (fs.filter fun f => f.2 == .parity).map fun f => f.1 / 32
  (s.dunes.filter fun e => !e.2.parity.isEmpty).foldl (fun s e =>
    (e.2.parity.map (·.1)).foldl (fun s c =>
      if ps.any fun p => decide (p.2.1 < duneEnd) && (dunePieces p.2.1 p.2.2).any fun q =>
          stackOf (q * 32) == e.1 && duneChan (q * 32 % 0x1000000000) == c && !bad.contains q
      then s.parityGood e.1 c else s) s) s

/-- What a read finds at one address of a Dune stack or of a local store: a corrected error is repaired and counted, an
uncorrectable one is counted and logged, and its data is not good. -/
def State.foundAt (s : State) (f : Nat × PieceCheck) : State :=
  match regionOf f.1, f.2 with
  | some .dune, c => if s.served f.1 then s.scrubPiece (stackOf f.1) (f.1 % 0x1000000000) c else s
  | some .scullStore, .corrected => s.bump (scullReg (scullOfDa f.1) 0x18) 0 16
  | some .scullStore, .uncorrectable => s.storeUe (scullOfDa f.1) ((f.1 - scullBase) % 0x80000)
  | _, _ => s

/-- The sculls whose store an error was found in retire at their limit (R97). -/
def State.limitStores (s : State) (fs : List (Nat × PieceCheck)) : State :=
  fs.foldl (fun s f => if f.2 = .uncorrectable ∧ regionOf f.1 = some .scullStore then s.storeLimit (scullOfDa f.1) else s) s

/-- The findings of a read that fall within the places it reached. -/
def findingsIn (ps : List (Nat × Nat × Nat)) (fs : List (Nat × PieceCheck)) : List (Nat × PieceCheck) :=
  fs.filter fun f => ps.any fun p => decide (p.2.1 < f.1 + 1) && decide (f.1 < p.2.1 + p.2.2)

/-- A finding that ends the read: an error at its source that cannot be corrected (R102). -/
def fatal (fs : List (Nat × PieceCheck)) : Bool := fs.any fun f => f.2 == .uncorrectable

end Sys2Proof.Machine
end

