-- ==== Sys2Proof/Machine/Array.lean ====
section
/-! DEFINITION. A MATMUL, or a CONV on routes 0 and 1, on the stroke array of its scull (R81-R91, R95, R138-R143, R248): the
order of its tile parts and chunks, the staging buffers, the accumulator slots with their spills, and the drain. -/

namespace Sys2Proof.Machine

/-- The task as it computes: at its tag's P = 2 its P and the lo plane of B replace those of the descriptor (R270). -/
def Task.effective (t : Task) : Task :=
  match t.lo with
  | .none => t
  | .some (e, sc) =>
    let w9 := setBits (t.word 9) 28 2 2
    let b := t.argsDa + 0x40
    { t with words := t.words.set 9 w9,
             blocks := (cellsAt (b + 16) (leBytes 8 e) ++ cellsAt (b + 24) (leBytes 8 sc)) ++ t.blocks }

/-- The task runs on the stroke array. -/
def Task.onArray (t : Task) : Bool := t.kind == kMatmul || (t.kind == kConv && decide (t.cvRoute < 2))

def Task.isMm (t : Task) : Bool := t.kind == kMatmul

/-! ### The order of work (R138-R140, R95) -/

/-- Blocks along the reduction, reduction steps, and the tiles of the task in their order. -/
def Task.arNb (t : Task) : Nat := if t.isMm then t.mmNb else t.cvNb
def Task.arNk (t : Task) : Nat := if t.isMm then t.mmNk else t.cvNk
def Task.arTiles (t : Task) : List (Nat × Nat) := if t.isMm then t.mmTiles else t.cvTiles

/-- Attribute words of the two sides. -/
def Task.arAttr (t : Task) (isA : Bool) : Attr :=
  if t.isMm then attrOf (if isA then t.mmA.attr else t.mmB.attr)
  else if isA then (if t.cvFrcIn = 0 then attrOf t.cvIn.attr else attrOf (t.cvIn.attr % 16)) else attrOf t.cvW.attr

/-- Whether a side has its lo plane in use (Table NUM.9). -/
def Task.arLo (t : Task) (isA : Bool) : Bool := if isA then t.mmP == 3 else decide (2 ≤ t.mmP)

/-- Blocks of a format that a row of a staging buffer holds at P = 1 (R95): 128 bytes of whole blocks. -/
def stagedBlocks (fmt : Nat) : Nat := if isLong fmt then 4 else 128 / (fmtBits fmt * 4)

/-- Blocks of one chunk: what a buffer of either side holds (R95; log entry 74). -/
def Task.arDepth (t : Task) : Nat :=
  if t.mmP = 1 then min (stagedBlocks (t.arAttr true).fmt) (stagedBlocks (t.arAttr false).fmt) else 2

/-- Parts of a tile: rows and columns of parts (Table MAP.4). -/
def Task.arPartRows (t : Task) : Nat := t.mmMt / (partShape t.mmMt t.mmNt).1
def Task.arPartCols (t : Task) : Nat := t.mmNt / (partShape t.mmMt t.mmNt).2

/-- What the sequencer stages at once (R95, R140): blocks b0 to b1 − 1 of one part of one tile in one step; `opens`: the
part's turn in the loop order begins; `final`: the step is the part's last. -/
structure Chunk where
  tileNo : Nat
  tile   : Nat × Nat
  part   : Nat
  b0     : Nat
  b1     : Nat
  opens  : Bool
  final  : Bool
deriving DecidableEq, Repr

/-- Chunks of blocks b0 to b1 − 1, at most `depth` blocks each. -/
def chunksOf (depth b0 b1 : Nat) : List (Nat × Nat) :=
  (List.range ((b1 - b0 + depth - 1) / depth)).map fun i => (b0 + i * depth, min b1 (b0 + (i + 1) * depth))

/-- The turns of a tile in the loop order of Table MAP.5: step and part. -/
def Task.turns (t : Task) : List (Nat × Nat) :=
  let parts := List.range (t.arPartRows * t.arPartCols)
  if t.mmKloop then
    (List.range t.arNk).flatMap fun s => (if s % 2 = 0 then parts else parts.reverse).map fun p => (s, p)
  else parts.flatMap fun p => (List.range t.arNk).map fun s => (s, p)

/-- Every chunk of the task, in order. -/
def Task.chunks (t : Task) : List Chunk :=
  let k := t.mmKt / 32
  t.arTiles.zipIdx.flatMap fun x => t.turns.flatMap fun sp =>
    ((chunksOf t.arDepth (sp.1 * k) (min t.arNb ((sp.1 + 1) * k))).zipIdx).map fun c =>
      ⟨x.2, x.1, sp.2, c.1.1, c.1.2, c.2 == 0, sp.1 + 1 == t.arNk⟩

/-- The number of a chunk's part in the task: tile number × 64 + part. -/
def Chunk.key (c : Chunk) : Nat := c.tileNo * 64 + c.part

/-- The block is the last of the reduction. -/
def Chunk.last (c : Chunk) (t : Task) : Bool := c.b1 == t.arNb

/-! ### Rows and columns of a part -/

/-- Rows of a part: the folded rows of a MATMUL or the rows of a CONV, none where out of bounds (R148). -/
def Task.partRows (t : Task) (c : Chunk) : List (Option Nat) :=
  let pr := (partShape t.mmMt t.mmNt).1
  (List.range pr).map fun i =>
    let m := c.tile.1 * t.mmMt + c.part / t.arPartCols * pr + i
    if (if t.isMm then decide (m < t.mmM) else (t.cvPos m).isSome) then some m else .none

/-- Group of a tile column of a CONV. -/
def Task.tileGroup (t : Task) (c : Chunk) : Nat := c.tile.2 / t.cvTng

/-- Columns of a part: columns of the product, none where out of bounds. -/
def Task.partCols (t : Task) (c : Chunk) : List (Option Nat) :=
  let pc := (partShape t.mmMt t.mmNt).2
  (List.range pc).map fun j =>
    let n := (if t.isMm then c.tile.2 else c.tile.2 % t.cvTng) * t.mmNt + c.part % t.arPartCols * pc + j
    if t.isMm then (if n < t.mmN then some n else .none)
    else if n < t.cvGo then some (t.tileGroup c * t.cvGo + n) else .none

/-- The stored row that a row or column of a part reads (R144, R145, R247). -/
def Task.storedRow (t : Task) (c : Chunk) (isA : Bool) (i : Nat) : Nat :=
  if t.isMm then (if isA then t.mmRow 1 i else t.mmBoff (c.tile.1 * t.mmMt) + i) else i

/-- Rows or columns of one side of a chunk, as stored rows. -/
def Task.sideRows (t : Task) (c : Chunk) (isA : Bool) : List (Option Nat) :=
  (if isA then t.partRows c else t.partCols c).map fun x => x.map (t.storedRow c isA)

/-! ### Staging (R95, R99) -/

/-- The buffers that hold chunk n's A and B, and whether each is filled for it. A and B go to the other buffer of their pair
with each fill; in step-outer order a panel that the chunk before it staged serves again (R140). -/
def Task.bufsOf (t : Task) (cs : List Chunk) : List (Nat × Bool × Nat × Bool) :=
  (cs.foldl (fun (a : List (Nat × Bool × Nat × Bool) × Option Chunk × Nat × Nat) c =>
    let (done, prev, ba, bb) := a
    let same (isA : Bool) : Bool := t.mmKloop && prev.any fun p =>
      p.b0 == c.b0 && p.tileNo == c.tileNo && t.sideRows p isA == t.sideRows c isA
    let na := if same true then ba else 1 - ba
    let nb := if same false then bb else 1 - bb
    (done ++ [(na, !same true, 2 + nb, !same false)], some c, na, nb)) ([], .none, 1, 1)).1

/-- Rows of the transfers that fill one side for a chunk (R98, R148). -/
def Task.fillSide (t : Task) (c : Chunk) (isA : Bool) : List Row :=
  let rows := (t.sideRows c isA).filterMap id
  let lo (r : OpRec) : Bool := t.arLo isA && !isLong (attrOf r.attr).fmt
  if t.isMm then
    let r := if isA then t.mmA else t.mmB
    let two := rows.map fun x => r.fillRows x t.mmK c.b0 c.b1 (lo r)
    (two.filterMap (·[0]?)) ++ two.filterMap (·[1]?)
  else if isA then rows.flatMap fun m => t.cvFillA (t.tileGroup c) m c.b0 c.b1
  else
    let two := rows.map fun x => t.cvWOp.fillRows x (32 * t.cvNb) c.b0 c.b1 (lo t.cvWOp)
    (two.filterMap (·[0]?)) ++ two.filterMap (·[1]?)

/-- Whether the fills of a side pass through the panel cache (pc_a, pc_b, pc_w). -/
def Task.arPanel (t : Task) (isA : Bool) : Bool :=
  if t.isMm then t.wf 13 (if isA then 6 else 7) 1 = 1 else !isA && t.wf 10 15 1 = 1

/-- The fills of chunk n. -/
def Task.fillXfers (t : Task) (n : Nat) : List Xfer :=
  let cs := t.chunks
  match cs[n]?, (t.bufsOf cs)[n]? with
  | some c, some (_, na, _, nb) =>
    (if na then packRows .fill n false (t.arPanel true) (t.fillSide c true) else []) ++
    (if nb then packRows .fill n true (t.arPanel false) (t.fillSide c false) else [])
  | _, _ => []

/-- Queue the fills of the chunks whose buffers are free: chunk n once chunk n − 2 is worked. -/
def State.queueFills (s : State) (id : Nat) : Nat → State
  | 0 => s
  | fuel + 1 =>
    let t := s.task id
    let e := t.effective
    if t.worked + 1 < t.nextFill ∨ e.chunks.length ≤ t.nextFill then s
    else ((s.setTask id { t with nextFill := t.nextFill + 1 }).addXfers id (e.fillXfers t.nextFill)).queueFills id fuel

/-- DA of row r of a staging buffer of scull k: its hi plane, or its lo plane at P ≥ 2. -/
def stageDa (k buf p r : Nat) (lo : Bool) : Nat :=
  scullBase + k * 0x80000 + 0x70000 + buf * 0x4000 +
  (if p = 1 then r * 128 else r * 64 + (if lo then 0x2000 else 0))

/-- Place of an S8 byte in the sidecars: buffer, row and block of the chunk. -/
def sideAt (buf p r j : Nat) (lo : Bool) : Nat := buf * 2048 + r * 16 + (if p = 1 then j else j + (if lo then 8 else 0))

/-- The planes of block b of a stored row, from the raw bytes of its fill. -/
def Task.blockOf (t : Task) (c : Chunk) (isA : Bool) (row b : Nat) : Planes :=
  if t.isMm then
    if isA then opBlock t t.mmA row t.mmK (t.arLo true) b else opBlock t t.mmB row t.mmK (t.arLo false) b
  else if isA then t.cvBlockA (t.tileGroup c) row b else t.cvBlockB row b

/-- The planes of a row of a part at block b: a row out of bounds holds pads. -/
def Task.partBlock (t : Task) (c : Chunk) (isA : Bool) (row : Option Nat) (b : Nat) : Planes :=
  match row with
  | some r => t.blockOf c isA r b
  | .none =>
    if t.isMm then (if isA then padBlock t.mmA.attr t.mmA.pad else padBlock t.mmB.attr t.mmB.pad)
    else if isA then padBlock t.cvIn.attr t.cvIn.pad else padBlock t.cvW.attr 0

/-- Key of a block whose events are counted once (log entry 77): side, group and row, block. -/
def Task.countKey (t : Task) (c : Chunk) (isA : Bool) (row b : Nat) : Bool × Nat × Nat :=
  (isA, (if t.isMm || !isA then row else t.tileGroup c * 2 ^ 32 + row), b)

/-- Convert one side of a chunk into its buffer (R101): element planes into the staging range, S8 bytes into the sidecar, and
the events of blocks that were not converted before. -/
def State.stageSide (s : State) (k id : Nat) (c : Chunk) (isA : Bool) (buf n : Nat) : State :=
  let t := s.task id
  let e := { t.effective with image := (t.fills.lookup n).getD [] }
  let rows := (e.sideRows c isA).zipIdx
  let bs := (List.range (c.b1 - c.b0))
  let all := rows.flatMap fun r => bs.map fun j => (r.2, j, r.1, e.partBlock c isA r.1 (c.b0 + j))
  let cells := all.flatMap fun x =>
    let (r, j, _, p) := x
    cellsAt (stageDa k buf e.mmP r false + j * (fmtBits p.fmt * 4)) (packCodes (fmtBits p.fmt) p.hi) ++
    (if e.mmP = 1 then [] else cellsAt (stageDa k buf e.mmP r true + j * 32) (packCodes 8 p.lo))
  let side := all.foldl (fun (sc : Tab Byte) x =>
    let (r, j, _, p) := x
    let sc := Tab.put 0 sc (sideAt buf e.mmP r j false) (BitVec.ofNat 8 p.sHi)
    if e.mmP = 1 then sc else Tab.put 0 sc (sideAt buf e.mmP r j true) (BitVec.ofNat 8 p.sLo)) (s.scull k).sidecar
  let fresh := all.foldl (fun (a : List (Bool × Nat × Nat) × Counts) x =>
    let (_, j, row, p) := x
    match row with
    | some r =>
      let key := e.countKey c isA r (c.b0 + j)
      if a.1.contains key then a else (key :: a.1, a.2.add p.cnt)
    | .none => a) (t.counted, Counts.empty)
  let s := s.storeLocal cells
  let s := s.setScull k { s.scull k with sidecar := side }
  s.setTask id { t with counted := fresh.1, counts := t.counts.add fresh.2 }

/-! ### The array at work (R81, R83, R85) -/

/-- Block j of row r in a staging buffer, hi and lo, as the array reads it with its scales. -/
def State.stagedBlk (s : State) (k buf p fmt r j : Nat) : Blk × Blk :=
  let side := (s.scull k).sidecar
  let rd (da bits i : Nat) : Nat := unpackCode bits (fun b => s.byte (da + b)) i
  let at_ (lo : Bool) (f : Nat) : Blk :=
    blkAt f ((List.range 32).map fun i => rd (stageDa k buf p r lo + j * (fmtBits f * 4)) (fmtBits f) i)
      (Tab.get 0 side (sideAt buf p r j lo)).toNat
  (at_ false fmt, if p = 1 then blkAt fmtY8A noLo 127 else at_ true fmtY8A)

/-- The format of a side's elements in its buffer: Y8A for the planes of a split. -/
def Task.stagedFmt (t : Task) (isA : Bool) : Nat :=
  if isLong (t.arAttr isA).fmt || (isA && !t.isMm && t.cvFrcIn != 0) then fmtY8A else (t.arAttr isA).fmt

/-- Place of cell (i, j) of a part: slot and word. -/
def Task.cellAt (t : Task) (i j : Nat) : Nat × Nat :=
  (i / 32 * ((partShape t.mmMt t.mmNt).2 / 32) + j / 32, i % 32 * 32 + j % 32)

/-- What a written cell starts from: +0, or its C operand (R83, R153). -/
def Task.cellInit (t : Task) (m n : Nat) : Val :=
  if t.isMm then
    if t.mmCin then decodeLong fp32 (t.imgNat (t.mmCinDa + t.mmRow 3 m * t.mmC.stride + 4 * n) 4) else .zero
  else match t.cvPos m with
    | some p => t.cvInit (t.cvPlace p n)
    | .none => .zero

/-- Slots of a task's part. -/
def State.slotsOf (s : State) (k id part : Nat) : List Slot :=
  (s.scull k).bank.filter fun b => b.task == id && b.part == part

/-- The word of a part's cell. -/
def slotWord (bank : List Slot) (a w : Nat) : Word :=
  ((bank.find? fun b => b.idx == a).map fun b => b.words.getD w 0).getD 0

/-- One chunk in the array: every cell of the part over its blocks (R82). The words by slot, the flags of the written cells
(R150), and whether every verdict passed (R87). -/
def State.workCells (s : State) (k id : Nat) (c : Chunk) (ba bb : Nat) : List (List Word) × Exc × Bool :=
  let t := (s.task id).effective
  let bank := s.slotsOf k id c.key
  let bs := List.range (c.b1 - c.b0)
  let rows := t.partRows c
  let cols := t.partCols c
  let xa := (List.range rows.length).map fun i => bs.map fun j => s.stagedBlk k ba t.mmP (t.stagedFmt true) i j
  let xb := (List.range cols.length).map fun i => bs.map fun j => s.stagedBlk k bb t.mmP (t.stagedFmt false) i j
  let cell (i j : Nat) : Flagged Val × Bool :=
    let (a, w) := t.cellAt i j
    let init := if c.b0 = 0 then (match rows.getD i .none, cols.getD j .none with
        | some m, some n => t.cellInit m n
        | _, _ => .zero) else f32 (slotWord bank a w)
    (accCell t.mmP init (xa.getD i []) (xb.getD j []), cellVerdict t.mmP init (xa.getD i []) (xb.getD j []))
  let pc := (partShape t.mmMt t.mmNt).2 / 32
  let words := (List.range t.mmPartSlots).map fun a => (List.range 1024).map fun w =>
    f32w (cell (a / pc * 32 + w / 32) (a % pc * 32 + w % 32)).1.1
  let inB := (rows.zipIdx.filter fun r => r.1.isSome).flatMap fun r =>
    (cols.zipIdx.filter fun q => q.1.isSome).map fun q => cell r.2 q.2
  (words, inB.foldl (fun e x => e ||| x.1.2) 0, inB.all (·.2))

/-- Beats of one chunk in the array (Table SCULL.2). -/
def Task.chunkBeats (t : Task) (c : Chunk) : Nat :=
  let narrow (isA : Bool) : Bool :=
    !isLong (t.arAttr isA).fmt && decide ((t.arAttr isA).fmt ≠ 8) && decide ((t.arAttr isA).fmt ≠ 9) && t.stagedFmt isA != fmtY8A
  let per := if t.mmP = 1 then (if narrow true && narrow false then 16 else 32) else if t.mmP = 2 then 64 else 96
  t.mmPartSlots * (c.b1 - c.b0) * per

/-! ### Slots (Table SCULL.3) -/

/-- The transfers that a part's turn needs before its chunks are worked: its C operand in its first turn, the streams of its
epilogue in its last (R98, R176). -/
def Task.turnLoads (t : Task) (c : Chunk) : List Xfer :=
  let rows := (t.partRows c).filterMap id
  let cols := (t.partCols c).filterMap id
  let n0 := cols.headD 0
  if rows.isEmpty || cols.isEmpty then []
  else
    let cin := if c.b0 ≠ 0 then [] else if t.isMm then
        (if t.mmCin then rows.map fun m => (t.mmCinDa + t.mmRow 3 m * t.mmC.stride + 4 * n0, 4 * cols.length) else [])
      else if t.cvCin then mergeRuns (rows.flatMap fun m => cols.map fun n =>
        let x := t.cvPlace ((t.cvPos m).getD (0, 0, 0, 0)) n
        (t.cvOutDa t.cvCinDa ⟨0, false, 0, false, false, false, 0⟩ x + x.2.1 % t.cvCbwOut * 4, 4)) else []
    let epi := if !c.final then [] else if t.isMm then
        (if t.mmEpi = 1 then (t.epiStreams t.mmEpiDa).flatMap fun s => rows.flatMap fun m => s.rowRange (t.mmRow 3 m) n0 cols.length
         else [])
      else if t.cvEpi = 1 then (t.epiStreams (t.daAt 14)).flatMap fun s => t.cvStreamRanges s rows cols else []
    packRows .load c.key false false (rowsOf (cin ++ epi))

/-- Address of slot i of a part in the spill region (R142). -/
def Task.spillAt (t : Task) (part i : Nat) : Nat :=
  let pr := (partShape t.mmMt t.mmNt).1 / 32
  let pc := (partShape t.mmMt t.mmNt).2 / 32
  let p := part % 64
  let a := p / t.arPartCols * pr + i / pc
  let b := p % t.arPartCols * pc + i % pc
  (if t.isMm then t.mmSpillDa else t.cvSpillDa) + 4096 * (a * (t.mmNt / 32) + b)

/-- Slots of the bank that hold words. -/
def Scull.inBank (u : Scull) : Nat := (u.bank.filter fun b => b.state != .spilled).length

/-- Spill the least recently used part of the task that is LIVE (R140): its words go to the spill region. -/
def State.spillPart (s : State) (k id part : Nat) : State :=
  let u := s.scull k
  let t := (s.task id).effective
  let mine := s.slotsOf k id part
  let xs := mine.map fun b => slotXfer .spill part (t.spillAt part b.idx) b.words
  let s := s.setScull k { u with bank := u.bank.map fun b =>
    if b.task == id && b.part == part then { b with state := .spilled, words := [] } else b }
  let s := s.setTask id { s.task id with
    tally := { (s.task id).tally with spills := (s.task id).tally.spills + mine.length } }
  s.giveXfers id true xs

/-- A part's turn begins and its slots are LIVE: it is the most recently used, and its loads are asked for. -/
def State.openTurn (s : State) (k id : Nat) (c : Chunk) (xs : List Xfer) : State :=
  let u := s.scull k
  let mine (b : Slot) : Bool := b.task == id && b.part == c.key
  let s := s.setScull k { u with bank := u.bank.filter (!mine ·) ++ (u.bank.filter mine).map fun b => { b with state := .live } }
  let s := s.setTask id { s.task id with opened := (s.task id).worked + 1 }
  s.giveXfers id true (xs ++ (s.task id).effective.turnLoads c)

/-- Give a part its slots (Table SCULL.3): those it holds; spilled ones come back; new ones start at +0. Without room the
least recently used part of the task leaves the bank, or the part waits for slots that drain. -/
def State.openPart (s : State) (k id : Nat) (c : Chunk) : State :=
  let u := s.scull k
  let t := (s.task id).effective
  let mine := s.slotsOf k id c.key
  if mine.any fun b => b.state == .live then s.openTurn k id c []
  else if u.inBank + t.mmPartSlots ≤ 8 then
    if mine.isEmpty then
      let fresh := (List.range t.mmPartSlots).map fun i => (⟨id, c.key, i, .live, List.replicate 1024 0⟩ : Slot)
      (s.setScull k { u with bank := u.bank ++ fresh }).openTurn k id c []
    else s.openTurn k id c (mine.map fun b => slotXfer .reload c.key (t.spillAt c.key b.idx) [])
  else match u.bank.find? fun b => b.task == id && b.state == .live with
    | some b => s.spillPart k id b.part
    | .none => s

/-- The part's words after a chunk. -/
def State.keepWords (s : State) (k id part : Nat) (ws : List (List Word)) (st : SlotState) : State :=
  let u := s.scull k
  s.setScull k { u with bank := u.bank.map fun b =>
    if b.task == id && b.part == part then { b with words := ws.getD b.idx [], state := st } else b }

/-- Residual cells at the grants of the tags that a task produces for (R273). -/
def Task.residualCells (t : Task) (lo : List Cell) : List Cell :=
  lo.flatMap fun c => t.grants.filterMap fun g =>
    let (src, len, scl, slen, da) := g
    if src ≤ c.1 ∧ c.1 < src + len then .some (da + (c.1 - src), c.2)
    else if scl ≤ c.1 ∧ c.1 < scl + slen then .some (da + (len + 0xFFFF) / 0x10000 * 0x10000 + (c.1 - scl), c.2)
    else .none

/-- What a part or a run computed joins the task, and its writes are queued. -/
def State.takeOut (s : State) (id stage : Nat) (o : RunOut) : State :=
  let t := s.task id
  let s := s.setTask id { t with
    exc := t.exc ||| o.exc, sticky := t.sticky ||| o.sticky, counts := t.counts.add o.counts, tally := t.tally.add o.tally }
  s.addXfers id (writeXfers stage o.segs (o.writes ++ t.residualCells o.lo))

/-- The drain of a part whose reduction is verified: epilogue, conversion and result writes (R153). -/
def State.drainPart (s : State) (id : Nat) (c : Chunk) (ws : List (List Word)) : State :=
  let t := (s.task id).effective
  let cols := t.partCols c
  let n := (cols.filter Option.isSome).length
  let rows := (t.partRows c).zipIdx.filterMap fun r => r.1.map fun m =>
    (m, (List.range n).map fun j => let (a, w) := t.cellAt r.2 j; (ws.getD a []).getD w 0)
  let o := if n = 0 then RunOut.empty
    else if t.isMm then mmDrain s.lanes s.kvScale t ((cols.headD .none).getD 0) rows
    else cvDrain s.lanes t (cols.filterMap fun x => x) rows
  s.takeOut id c.key o

/-- A chunk whose fills are in and whose part is LIVE is worked: the sides are staged, the array runs, and after the last
block the part drains. The answer tells whether every verdict passed. -/
def State.workChunk (s : State) (k id n : Nat) (c : Chunk) : Bool × State :=
  let e := (s.task id).effective
  match (e.bufsOf e.chunks)[n]? with
  | .none => (true, s)
  | some (ba, na, bb, nb) =>
    let s := if na then s.stageSide k id c true ba n else s
    let s := if nb then s.stageSide k id c false bb n else s
    let (ws, exc, ok) := s.workCells k id c ba bb
    let s := s.bump64 (scullReg k 8) (e.chunkBeats c)
    let s := s.keepWords k id c.key ws (if c.last e then .draining else .live)
    let t := s.task id
    let s := s.setTask id { t with worked := n + 1, exc := t.exc ||| exc, fills := t.fills.filter fun f => f.1 != n }
    (ok, if c.last e then s.drainPart id c ws else s)

/-- Transfers of the given kinds are waiting or outstanding. -/
def Task.pendingXfers (t : Task) (p : Xfer → Bool) : Bool := t.todo.any p || t.flying.any p

/-- Slot transfers and loads, which a turn waits for; fills of chunk n and before. -/
def Xfer.ofSlot (x : Xfer) : Bool := x.kind == .load || x.kind == .spill || x.kind == .reload
def Xfer.fillsUpTo (n : Nat) (x : Xfer) : Bool := x.kind == .fill && decide (x.stage ≤ n)

/-- Go on with a run on the array until it waits for a transfer: the next part's slots, the next chunk, the end. The answer
tells whether every verdict passed. -/
def State.arrayTurn (s : State) (k id : Nat) : Nat → Bool × State
  | 0 => (true, s)
  | fuel + 1 =>
    let s := s.queueFills id 2
    let t := s.task id
    match t.effective.chunks[t.worked]? with
    | .none => (true, s.setTask id { t with computed := true })
    | some c =>
      if t.pendingXfers Xfer.ofSlot then (true, s)
      else if c.opens ∧ t.opened ≤ t.worked then
        let s' := s.openPart k id c
        if s' = s then (true, s) else s'.arrayTurn k id fuel
      else if t.pendingXfers (Xfer.fillsUpTo t.worked) then (true, s)
      else
        let (ok, s) := s.workChunk k id t.worked c
        if ok then s.arrayTurn k id fuel else (false, s)

/-- Turns that suffice for a task: every chunk, with the spills and loads before it. -/
def Task.turnFuel (t : Task) : Nat := 16 * t.effective.chunks.length + 16

end Sys2Proof.Machine
end

