-- ==== Sys2Proof/Machine/Tasks.lean ====
section
/-! DEFINITION. Tasks on sculls: taking and stealing (R123, R124), the transfers of a run (R98-R102), the computation, commit
(R125-R128), the walker and the page mover (R234-R240), FENCE and SIGNAL (R118, R119). -/

namespace Sys2Proof.Machine

/-! ### Transfers of a run (R98, R99) -/

/-- The reads that a run issues first: a GATHER's indices; the operands of a run off the array; for a run on it only what is no
part of a turn, the table of an append. -/
def State.planReads (s : State) (t : Task) : List Xfer :=
  let t := t.effective
  let os := (s.opdsOf t).filter fun o => !o.out
  if t.kind = kGather then packRanges 0 [(t.gaTable, 4 * t.gaCount)]
  else if t.onArray then if t.kind = kMatmul ∧ t.mmEpi = 2 then packRows .load 0 false false (rowsOf [(t.kvaTab, 8 * t.kvaHeads)]) else []
  else if t.kind = kVecprog then packRows .read 0 false false (t.vecReads 0)
  else if t.kind = kConv then
    os.zipIdx.flatMap fun o => packRows .read 0 (o.2 == 1) (o.2 == 1 && t.arPanel false) (rowsOf o.1.rngs)
  else if t.kind = kKvappend ∧ t.kvOp ≠ 0 then
    let d := s.listDesc t.kvList
    t.pages.flatMap fun p =>
      if t.kvOp = 1 then packRanges 0 [(frameDa p.2, 0x10000), (s.kvScale p.2, 0x800)]
      else match hostSlot (s.listEntry d p.1) with
        | some n => packRanges 0 [(d.slotDa n, 0x10800)]
        | none => []
  else if t.kind = kKvappend then packRanges 0 ((os.drop 1).flatMap (·.rngs))
  else os.flatMap fun o => packRanges 0 o.rngs

/-- Rows that a GATHER reads once its indices are in. -/
def Task.gatherReads (t : Task) : List Xfer :=
  packRanges 1 ((List.range t.gaCount).filterMap fun j => (t.gaRow j).map fun r => (t.gaSrc + r * t.gaBytes, t.gaBytes))

/-! ### The computation (R83, R101, R273) -/

/-- The copies of a swap: to the host slots, or into the frames (R237, R238). -/
def State.swapCells (s : State) (t : Task) : List Cell :=
  let d := s.listDesc t.kvList
  t.pages.flatMap fun p =>
    if t.kvOp = 1 then
      let dst := d.slotDa (t.kvSlot + (p.1 - t.kvFirst))
      ((List.range 0x10000).map fun i => (dst + i, t.imgByte (frameDa p.2 + i))) ++
      ((List.range 0x800).map fun i => (dst + 0x10000 + i, t.imgByte (s.kvScale p.2 + i)))
    else match hostSlot (s.listEntry d p.1) with
      | some n =>
        ((List.range 0x10000).map fun i => (frameDa p.2 + i, t.imgByte (d.slotDa n + i))) ++
        ((List.range 0x800).map fun i => (s.kvScale p.2 + i, t.imgByte (d.slotDa n + 0x10000 + i)))
      | none => []

/-- PERM_TRAP (R169): the task ends with BAD_ARGUMENT and the first trap is captured. -/
def State.permTrap (s : State) (id k row lane : Nat) : State :=
  let t := s.task id
  let s := s.bump (scullReg k 0x48) 16 16
  let s := if s.fld (scullReg k 0x4C) 24 1 = 1 then s
    else (s.setReg (scullReg k 0x4C) (w32 (t.key + 0x1000000))).setReg (scullReg k 0x50) (w32 (row % 2 ^ 25 + lane % 128 * 2 ^ 25))
  s.emitUnit 0 k 1 evCommand .badArgument [w32 t.key, w32 row, w32 lane]

/-- Every operand is in: the run computes, and its result writes begin. -/
def State.computeRun (s : State) (id : Nat) : State :=
  let t := s.task id
  let k := t.scull.getD 0
  let o := s.runKind (k / 16) t.effective
  if o.status != .ok then
    let s := match o.trap with
      | some x => s.permTrap id k x.1 x.2
      | none => s
    s.failRun id o.status
  else
    (s.setTask id { s.task id with computed := true }).takeOut id 0
      (if t.unheld then { o with writes := s.swapCells t, segs := [] } else o)

/-- A residue check fails (R88): the run ends and may not go to the same scull again; count, record, and retirement with cause
0x01 at the limit, else a self-test after the hand-back. -/
def State.residueFail (s : State) (k id slot block : Nat) : State :=
  let s := s.setTask id { s.task id with avoid := some k }
  let key := (s.task id).key
  let s := (s.endRun id false).bump (scullReg k 0x14) 0 16
  let s := s.emitUnit 0 k 2 evResidue .internal [w32 k, w32 key, w32 slot, w32 block]
  let ts := s.etc :: (s.scull k).resTimes
  let s := s.setScull k { s.scull k with resTimes := ts, testDue := true }
  if s.resLimit (k / 768) ≤ (s.recentFaults (k / 768) ts).length then s.retireScull k 1 else s

/-- A run on the array goes on until it waits for a transfer; a verdict that fails ends it (R87, R88). -/
def State.advanceArray (s : State) (id : Nat) : State :=
  let t := s.task id
  let k := t.scull.getD 0
  let (ok, s) := s.arrayTurn k id t.turnFuel
  if ok then s.pumpXfers id
  else match t.effective.chunks[(s.task id).worked]? with
    | some c => s.residueFail k id 0 c.b0
    | none => s

/-- Pages that an ATTEND reads, in order, and those that are not in yet. -/
def State.pagesOf (s : State) (t : Task) : List Nat := t.pagesRead (s.fld (crewReg (t.scull.getD 0 / 16) 0x40) 0 1 == 1)
def State.pagesMissing (s : State) (t : Task) : List Nat := (s.pagesOf t).filter fun pg => (t.frameOf 0 pg).isNone

/-- Pages that the walker may meet (R234): those not in yet, up to 8 ahead of the first whose staging has not ended. -/
def State.pagesAhead (s : State) (t : Task) : List Nat :=
  let left := (s.pagesOf t).dropWhile fun pg => (t.frameOf 0 pg).isSome && !t.pendingXfers fun x => x.stage == 1 + pg
  (left.take 9).filter fun pg => (t.frameOf 0 pg).isNone

/-- Transfers have ended: go on to the next part of the run (R99). An ATTEND waits while the Seif tests itself (R211). -/
def State.advance (s : State) (id : Nat) : State :=
  let t := s.task id
  if t.state != .running || t.computed then s
  else if t.onArray then (if t.pendingXfers fun x => x.kind == .load && x.stage == 0 && t.opened == 0 then s else s.advanceArray id)
  else if !t.todo.isEmpty || !t.flying.isEmpty then s
  else if t.kind = kGather ∧ t.chunksOut = false then
    let s := (s.setTask id { t with chunksOut := true }).addXfers id t.gatherReads
    if (s.task id).flying.isEmpty then s.computeRun id else s
  else if t.kind = kVecprog then
    let n := t.worked + 1
    if n < t.vecStages then
      let s := (s.setTask id { t with worked := n }).addXfers id (packRows .read n false false (t.vecReads n))
      if (s.task id).flying.isEmpty then s.computeRun id else s
    else s.computeRun id
  else if t.kind = kAttend then
    let s := s.setTask id { t with chunksOut := true }
    if (s.pagesMissing t).isEmpty && !(s.crew (t.scull.getD 0 / 16)).seifTest then s.computeRun id else s
  else s.computeRun id

/-! ### Entering RUNNING -/

/-- What a watched tag asks of a task (R270): not watched; it runs, at P = 2 with these lo planes or as it stands; or it
fails the check. -/
def State.watchCheck (s : State) (t : Task) : Option (Option (Nat × Nat)) :=
  let g := Tab.get Tag.none s.lowp.tags t.layerTag
  let conv := decide (t.kind = kConv ∧ t.cvRoute < 2)
  if !g.watch || !(t.kind == kMatmul || t.kind == kConv) then some none
  else if !(t.kind == kMatmul || conv) || t.mmP != 1 then none
  else
    let (fmt, base, scale, lo, loScale, rows) := if conv
      then (attrOf t.cvW.attr, t.cvW.base, t.cvW.scale, t.cvW.lo, t.cvW.loScale, t.cvWRows)
      else (attrOf t.mmB.attr, t.mmB.base, t.mmB.scale, t.mmB.lo, t.mmB.loScale, t.mmRowsB.map fun r => t.mmB.rowRange r t.mmK)
    let within (b n : Nat) (r : Nat × Nat) : Bool := decide (b ≤ r.1) && decide (r.1 + r.2 ≤ b + n)
    let inside := rows.all fun r => (r.take 1).all (within g.srcBase g.srcLen) && (r.drop 1).all (within g.sclBase g.sclLen)
    if isLong fmt.fmt then some (if g.p2 then some (0, 0) else none)
    else if fmt.fmt = 8 ∧ fmt.blk = true ∧ lo = 0 ∧ loScale = 0 ∧ inside = true then
      if g.p2 then
        let da := s.grantDa g.grant
        some (some (da + (base - g.srcBase), da + (g.srcLen + 0xFFFF) / 0x10000 * 0x10000 + (scale - g.sclBase)))
      else some none
    else none

/-- The seed of tasks that start now: the stage that a strobe of group 3 applied (R74, R441). -/
def State.seedNow (s : State) : BitVec 64 := s.staged3.getD 0

/-- Take every resource of a run and start it (Table TASK.4, R125, R205, R223, R255, R310). -/
def State.startRun (s : State) (k id : Nat) : State :=
  let t := s.task id
  let c := k / 16
  let d := k / 768
  let n := s.lineNeed t
  let pins := s.touched t
  if s.claimOutcome t = .busy then s.doneTask id .busy
  else if 32 < pins.length then s.doneTask id .badArgument
  else match s.watchCheck t with
  | none => s.doneTask id .badArgument
  | some lo =>
    let grants := s.p2Grants t
    let s := s.dequeue id
    let a := (s.linesFree d t.lc n).getD 0
    let e := s.erg d
    let s := s.setErg d { e with lcUsed := e.lcUsed + a, used := e.used + (n - a), bowTask := if t.onBow then some id else e.bowTask }
    let s := if t.kind = kAttend then s.setCrew c { s.crew c with ctxHeld := (s.crew c).ctxHeld ++ [id] } else s
    let s := pins.foldl (fun s p =>
      let x := s.tensor p.1
      s.updTensor p.1 (if p.2 then { x with pinsW := x.pinsW ++ [id] } else { x with pinsR := x.pinsR ++ [id] })) s
    let u := s.scull k
    let s : State := { s.setScull k { u with task := some id, dryAt := none } with seeded := s.seeded.filter (· != k) }
    let s := s.setTask id { t with
      state := .running, scull := some k, lastCrew := some c, lines := n, lcLines := a, pins := pins,
      ctx := t.kind == kAttend, bowHeld := t.onBow, seed := some (t.seed.getD s.seedNow), avoid := none, startedAt := s.etc,
      lo := lo, grants := grants }
    let s := s.claimAll id t
    let (st, s) := s.prepareLists id t
    if st != .ok then s.doneTask id st
    else if t.kind = kCollect then
      let s := s.setScull k { s.scull k with task := none, suspended := (s.scull k).suspended ++ [id] }
      s.beginCollect id t
    else (s.addXfers id (s.planReads (s.task id))).advance id

/-- A scull reaches a task of a queue: it parks, or it runs (R122). An LC route-2 CONV pre-empts the BE task that holds the
Bow (R394). -/
def State.tryStart (s : State) (k id : Nat) : State :=
  let t := s.task id
  match s.parkReason (k / 16) id t with
  | some why =>
    let s := if why = .bow ∧ t.lc = true then
        match (s.erg (k / 768)).bowTask with
        | some b => if (s.task b).lc then s else s.endRun b true
        | none => s
      else s
    s.park (k / 16) id why
  | none => if t.kind = kSignal ∨ t.kind = kFence then s else (s.startRun k id).pumpAll

/-- A take of the Cairn engine holds a crew that serves a registered partition (R504): from its grant until the copy ends. -/
def State.cairnHolds (s : State) (c : Nat) : Bool :=
  (s.cairn.phase == .stopping || s.cairn.phase == .copying) && ((s.crewServes c).any fun p => natBit s.cairn.parts p)

/-- A scull that may take a task (R104, R123, R390, R504, R516). -/
def State.mayTake (s : State) (k : Nat) : Bool :=
  let u := s.scull k
  let c := k / 16
  s.power == .on && (s.dev == .running || s.dev == .quiescing) && decide (k < 12288) && u.state == .good && !u.testing && !u.testDue &&
  u.task.isNone && decide (u.suspended.length < 4) && (s.crew c).state == .good && !(s.crew c).draining &&
  (s.crewServes c).isSome && !s.cairnHolds c && !(s.erg (k / 768)).issueStop

/-- The slots of a task fit beside the suspended ones (R122), its lines could fit on the scull's erg (R387), a route-2 CONV
finds a good Bow (R255), and the task does not return to a scull that failed it (R88). -/
def State.fits (s : State) (k : Nat) (t : Task) : Bool :=
  decide (t.slots + ((s.scull k).suspended.map fun i => (s.task i).slots).sum ≤ 8) && s.fitsErg (k / 768) t.lc t.holdLines &&
  s.bowOk t (k / 16) && t.avoid != some k

/-- Task issue on an erg whose issue is limited (R31, R516): how far it is limited is open, so whether this attempt is let
through is free (log entry 81). Answers whether it is, and the state after. -/
def State.mayIssue (s : State) (d : Nat) : Bool × State :=
  if (s.erg d).issueLim then
    let (v, s) := s.draw
    (v.getLsbD 0, s)
  else (true, s)

/-- TASK_TAKE (R123): the head of the scull's own crew's queue runs, parks, or waits for its SIGNAL. -/
def execTaskTake (k : Nat) (s : State) : Result :=
  if s.mayTake k then
    match (s.crew (k / 16)).queue with
    | id :: _ =>
      if s.fits k (s.task id) then
        let (go, s) := s.mayIssue (k / 768)
        .next (if go then s.tryStart k id else s)
      else .next s
    | [] => .next s
  else .next s

/-- The task that a thief may take from crew v's queue: its tail, if the queue is deep enough and its fields allow it. The depth
that min_local and min_cross are held against is that of the QUEUED tasks, without the parked ones (log entry 83). -/
def State.stealFrom (s : State) (k v least : Nat) : Option Nat :=
  let q := (s.crew v).queue
  match q.getLast? with
  | none => none
  | some id =>
    let t := s.task id
    let ok := decide (max 1 least ≤ q.length) && t.kind != kFence && t.kind != kSignal &&
      (t.steal == 0 || (t.steal == 1 && v / 48 == k / 768)) &&
      s.fits k t && some t.part == s.crewServes (k / 16)
    if ok then some id else none

/-- The head of the queue of a scull's own crew runs here. -/
def State.headFits (s : State) (k : Nat) : Bool :=
  match (s.crew (k / 16)).queue with
  | id :: _ => s.fits k (s.task id)
  | [] => false

/-- Victims of a thief in order (R123): the crews of its set on its erg by hops; those on other ergs by distance. -/
def State.nearVictims (s : State) (k : Nat) : List Nat :=
  (crewOrder (k / 16)).filter fun v => v != k / 16 && (match s.crewServes (k / 16) with | some p => s.inSet p v | none => false)
def State.farVictims (s : State) (k : Nat) : List Nat :=
  (((ergOrder (k / 768)).filter (· != k / 768)).flatMap ergCrews).filter fun v =>
    match s.crewServes (k / 16) with | some p => s.inSet p v | none => false

/-- The first victim whose queue is deep enough, and the task that it loses. -/
def State.findSteal (s : State) (k least : Nat) (vs : List Nat) : Option (Nat × Nat) :=
  vs.findSome? fun v => (s.stealFrom k v least).map fun id => (v, id)

/-- A task leaves a victim's queue for a thief. -/
def State.stealTask (s : State) (k v id : Nat) : State :=
  ((((s.bump (crewReg (k / 16) 8) 0 16).bump (crewReg v 8) 16 16)).setScull k { s.scull k with dryAt := none }).tryStart k id

/-- TASK_STEAL (R123, R124): a scull that cannot run the head of its own crew's queue takes from the tail of another's: of
its erg first; of another erg once the search of its own has found nothing for cross_wait. -/
def execTaskSteal (k : Nat) (s : State) : Result :=
  let (go, s) := if s.mayTake k && !s.headFits k then s.mayIssue (k / 768) else (false, s)
  if go then
    let cfg := ergReg (k / 768) 0x140
    match s.findSteal k (s.fld cfg 0 4) (s.nearVictims k) with
    | some (v, id) => .next (s.stealTask k v id)
    | none =>
      let dry := (s.scull k).dryAt.getD s.etc
      let s := s.setScull k { s.scull k with dryAt := some dry }
      if dry + s.fld cfg 8 16 ≤ s.etc then
        match s.findSteal k (s.fld cfg 4 4) (s.farVictims k) with
        | some (v, id) => .next (s.stealTask k v id)
        | none => .next s
      else .next s
  else .next s

/-- The condition a suspended task waits for is met. -/
def State.resumable (s : State) (t : Task) : Bool :=
  match t.state with
  | .suspended (.page list pg) => (s.residentPfn (s.listEntry (s.listDesc list) pg)).isSome
  | .suspended (.recompute i) => (s.tensor i).state != .recompute
  | _ => false

/-- TASK_RESUME (R122): a suspended task goes on, on its scull, when its condition is met. A task that waited for a
recompute issues its transfers again, without a deadline (R322). -/
def execTaskResume (k id : Nat) (s : State) : Result :=
  let t := s.task id
  let u := s.scull k
  if s.power = .on ∧ (s.dev = .running ∨ s.dev = .quiescing) ∧ u.state = .good ∧ u.testing = false ∧ u.testDue = false ∧
      u.task = none ∧ u.suspended.contains id = true ∧ s.resumable t = true ∧ s.cairnHolds (k / 16) = false ∧
      (t.kind == kAttend && (s.crew (k / 16)).seifTest) = false then
    let s := s.setScull k { u with task := some id, suspended := u.suspended.filter (· != id) }
    let s := s.setTask id { t with state := .running, startedAt := s.etc }
    .next ((s.pumpXfers id).advance id)
  else .next s

/-! ### A transfer completes (R99, R102) -/

/-- Count a failed host access (R404). -/
def State.hostErr (s : State) (res : Ending) : State :=
  match res with
  | .timeout => s.bump 0x00200020 0 16
  | .aborted => s.bump 0x00200020 16 8
  | .poisoned => s.bump 0x00200020 24 8
  | .ok => s

/-- Transfer i of a task on scull k ends well: what it moved lands, the next ones start, and the run goes on. -/
def State.xferDone (s : State) (k id i : Nat) (x : Xfer) : State :=
  let s := s.setTask id { s.task id with flying := (s.task id).flying.eraseIdx i }
  let s := if x.isRead then s.landRead id x else s.landWrite id x
  (s.pumpScull k).advance id

/-- Transfer i of a task cannot end well: its reads are counted where they were served, and the run ends with INTERNAL
(R102, R292). -/
def State.xferBad (s : State) (k id i : Nat) (x : Xfer) : State :=
  let s := s.setTask id { s.task id with flying := (s.task id).flying.eraseIdx i }
  let s := if x.isRead then x.placed.foldl (fun s p => s.countRead p.2.1 p.2.2) s else s
  (s.failRun id .internal).pumpScull k

/-- A transfer of a run that has ended is dealt with (R103). -/
def State.xferDropped (s : State) (k id i : Nat) : State :=
  (s.setTask id { s.task id with flying := (s.task id).flying.eraseIdx i }).pumpScull k

/-- A transfer reaches the host window. -/
def Task.hostXfer (t : Task) (x : Xfer) : Bool :=
  (x.isRead || x.kind == .spill || t.unheld) && x.placed.any fun p => regionOf p.2.1 == some .host

/-- SCULL_DMA_COMPLETE (R99, R102, R97, R92): the i-th outstanding transfer of scull k completes or fails. `found` says what
the reads of memory found, by address; `fixed`, the errors that the accumulator bank corrected meanwhile. A transfer to a
peer ends with its response instead; one to the host window waits while the port may not issue requests (R400). -/
def execScullDmaComplete (k i : Nat) (res : Ending) (host : List Cell) (found : List (Nat × PieceCheck)) (fixed : Nat)
    (s : State) : Result :=
  match (s.outstanding k)[i]? with
  | none => .next s
  | some (id, j) =>
    let t := s.task id
    match t.flying[j]? with
    | none => .next s
    | some x =>
      let toHost := t.hostXfer x
      if s.power != .on || (x.isRead && regionOf x.da == some .peer) || (toHost && !s.hostOpen) then .next s
      else
        let fs := if x.isRead then findingsIn (x.placed.filter fun p => !(match t.panelOf x with
          | some c => s.panelHit c p.1 p.2.2
          | none => false)) found else []
        let s := if x.isRead then s.parityEnds fs x.placed else s
        let s := (fs.foldl State.foundAt s).bumpBy (scullReg k 0x1C) 0 16 fixed
        let go (s : State) : State :=
          let s := if toHost then s.seeHost host else s
          if toHost && res != .ok then (s.hostErr res).failRun id .internal
          else if x.isRead && (fatal fs || s.landsBad t x) then s.xferBad k id j x
          else s.xferDone k id j x
        match t.state with
        | .ended _ => .next ((s.xferDropped k id j).limitStores fs)
        | .running => .next ((go s).limitStores fs)
        | .suspended _ => .next ((go s).limitStores fs)
        | _ => .next s

/-! ### Commit (R125-R128) -/

/-- What a committing run adds to the counters of its units (R115, R178, R212, R266). -/
def State.tallyUp (s : State) (k : Nat) (t : Task) : State :=
  let y := t.tally
  let c := k / 16
  let d := k / 768
  let s := (s.bumpBy (crewReg c 0x10) 16 16 y.oobRows).bumpBy (scullReg k 0x48) 0 16 y.permOob
  let s := (s.bump64 (scullReg k 0x40) y.issues).bumpBy (scullReg k 0x10) 0 32 y.spills
  let s := (s.bumpBy (ergReg d 0x194) 0 32 y.frcBlocks).bumpBy (ergReg d 0x198) 0 16 y.frcNans
  let s := (s.bumpBy (crewReg c 0x48) 0 32 y.blkRead).bumpBy (crewReg c 0x4C) 0 32 y.blkSkip
  let s := (s.bump64 (crewReg c 0x50) y.exps).bumpBy (crewReg c 0x58) 0 16 y.rowsEmpty
  let s := (s.bumpBy (crewReg c 0x58) 16 16 y.rowsNan).bump64 (ergReg d 0x188) y.bowBeats
  s.bumpBy (crewReg c 0x5C) 0 16 t.susp

/-- A released line heats its registered page (R285, R314): one wide request when it is whole, one for each piece otherwise. -/
def State.heatLine (s : State) (l : Nat) (cs : List Cell) : State :=
  match s.named (l * 256) with
  | some (i, pg) => s.heatPage i pg (if (piecesOf cs).length = 8 && (piecesOf cs).all (wholePiece cs) then 1 else (piecesOf cs).length)
  | none => s

/-- A release meets a stack that serves nothing: STOPPED or FAILED (R300). -/
def State.meetsStop (s : State) (t : Task) (cells : List Cell) : Bool :=
  cells.any fun c =>
    let a := s.redirect t.recompute c.1
    decide (a < duneEnd) && ((s.dune (stackOf a)).state == .stopped || (s.dune (stackOf a)).state == .failed)

/-- Release held cells to where they lead now: a registered page that is RESIDENT becomes dirty; a peer gets its lines as
write requests (R127, R312, R362). -/
def State.release (s : State) (id : Nat) (cells : List Cell) : State :=
  let t := s.task id
  let peer := cells.filter fun c => regionOf c.1 == some .peer
  let own := cells.filter fun c => regionOf c.1 != some .peer
  let s := t.pins.foldl (fun s p =>
    let x := s.tensor p.1
    if p.2 && x.state == .resident then s.updTensor p.1 { x with dirty := true } else s) s
  let s := (linesOf own).foldl (fun s l => s.heatLine l (own.filter fun c => c.1 / 256 == l)) s
  let s := s.write (w32 t.key) (own.map fun c => (s.redirect t.recompute c.1, c.2))
  (linesOf peer).foldl (fun s l => s.peerWrite id l (peer.filter fun c => c.1 / 256 == l)) s

/-- A task commits: counters, release, lists, and the scull is free for other work. A release that meets a
stop will end the task with INTERNAL (R300); tasks that wait for a recomputed tensor wake (R311). -/
def State.commitTask (s : State) (k id : Nat) : State :=
  let t := s.task id
  let stop := s.meetsStop t t.held
  let s := s.tallyUp k t
  let s := s.release id t.held
  let s := s.commitLists id
  let s := match t.recompute with
    | some i =>
      let x := s.tensor i
      if x.state == TensorState.recompute then s.moveTensor i { x with state := .resident, dirty := false } else s
    | none => s
  let s := s.leaveScull id
  (s.setTask id { s.task id with
    state := .committed, held := [], status := if stop then .internal else (s.task id).status }).rewake

/-- TASK_COMMIT (R122, R127, R128): the last verdict has passed and every output write is held. If the commit buffer fails
during the release, which lines of the output are visible is open, and the task goes to DONE with INTERNAL. -/
def execTaskCommit (k : Nat) (bufferOk : Bool) (s : State) : Result :=
  match (s.scull k).task with
  | none => .next s
  | some id =>
    let t := s.task id
    if s.power = .on ∧ t.state = .running ∧ t.computed = true ∧ t.todo = [] ∧ t.flying = [] then
      if bufferOk then .next ((s.commitTask k id).pumpAll)
      else
        let shown := (linesOf t.held).zipIdx.filter fun l => (Config.freeByte (s.fresh + l.2)) != 0
        let cells := t.held.filter fun c => shown.any fun l => l.1 == c.1 / 256
        let n := (linesOf t.held).length
        let s := s.release id cells
        .next ({ s with fresh := s.fresh + n }.doneTask id .internal)
    else .next s

/-- TASK_DONE (R122, R127): every released write is acknowledged; a release that met a stop ends with INTERNAL (R300). -/
def execTaskDone (id : Nat) (s : State) : Result :=
  let t := s.task id
  if s.power = .on ∧ t.state = .committed ∧ ¬ (s.peers.any fun p => p.task == id && p.write) = true then .next (s.doneTask id t.status)
  else .next s

/-! ### FENCE and SIGNAL -/

/-- The panel caches of a crew set are emptied (R147). -/
def State.emptyPanels (s : State) (p : Nat) : State :=
  (s.crews.filter fun e => !e.2.panel.isEmpty && s.crewServes e.1 == some p).foldl
    (fun s e => s.setCrew e.1 { s.crew e.1 with panel := [] }) s

/-- FENCE_COMPLETE (R118): in its crew's queue or parked there, every earlier descriptor of the ring is DONE and the start fence is met; the status is that of
the earliest failed descriptor since the previous FENCE. The panel caches of the ring's crew set are emptied; what was held
behind the FENCE is validated and delivered. -/
def execFenceComplete (q : Nat) (s : State) : Result :=
  match (s.ring q).fence with
  | none => .next s
  | some id =>
    let t := s.task id
    if s.power = .on ∧ s.firstLive id t = true ∧ s.fenceMet t = true then
      .next ((s.emptyPanels t.part).doneTask id ((((s.ring q).fenceFail t.seq).map (·.2)).getD .ok))
    else .next s

/-- SIGNAL (R119): at its turn in its crew queue, once its fence and barrier are met, the body's add or set is made; then
the header's signal is added at DONE. -/
def execSignal (id : Nat) (s : State) : Result :=
  let t := s.task id
  if s.power = .on ∧ (s.dev = .running ∨ s.dev = .quiescing) ∧ t.state = .queued ∧ t.kind = kSignal ∧
      (s.crew t.home).queue.head? = some id then
    match s.parkReason t.home id t with
    | some why => .next (s.park t.home id why)
    | none =>
      let s := if t.sgCtr = 0xFFFF then s else s.setCtr t.sgCtr (if t.sgSet then t.sgValue else s.ctr t.sgCtr + t.sgValue)
      .next (s.doneTask id .ok)
  else .next s

/-! ### The walker and the page mover (R234-R240) -/

/-- Transfers that stage the key blocks of a page (R214): K rows, V rows, their scales; no key at or beyond n_k is read
(R198). -/
def State.pageXfers (s : State) (t : Task) (pg pfn : Nat) : List Xfer :=
  let d := t.atD
  let tpp := tokensPerPage d
  let f := frameDa pfn
  let sc := s.kvScale pfn
  let skip := s.fld (crewReg (t.scull.getD 0 / 16) 0x40) 0 1 == 1
  ((t.keyBlocksRead skip).filter fun kb => 64 * kb / tpp == pg).flatMap fun kb =>
    let tk := 64 * kb % tpp
    let n := min 64 (t.nk - 64 * kb)
    packRanges (1 + pg) ([(f + tk * d, n * d)] ++ ((List.range d).map fun c => (f + 0x8000 + c * tpp + tk, n)) ++
      [(sc + tk * (d / 32), n * (d / 32)), (sc + 0x400 + tk / 32 * d, (n + 31) / 32 * d)])

/-- An ATTEND meets an entry that no page backs: it ends with BAD_ARGUMENT, logged with list and page (R236). -/
def State.badEntry (s : State) (id pg : Nat) : State :=
  let d := s.listDesc (s.task id).atList
  (s.emitKv d.ring 2 .badArgument [w32 d.id, w32 pg]).failRun id .badArgument

/-- Ask the page mover for a page; requests of several tasks for one page merge (R235). -/
def State.swapRequest (s : State) (id list pg : Nat) : State :=
  if s.kv.swaps.any fun x => x.list == list && x.pg == pg then
    { s with kv := { s.kv with swaps := s.kv.swaps.map fun x =>
      if x.list == list && x.pg == pg && !x.waiters.contains id then { x with waiters := x.waiters ++ [id] } else x } }
  else { s with kv := { s.kv with swaps := s.kv.swaps ++ [⟨list, pg, [id], false, true⟩] } }

/-- The walker meets the entry of one page. -/
def State.walkPage (s : State) (id pg : Nat) : State :=
  let t := s.task id
  if t.state != .running then s
  else
    let d := s.listDesc t.atList
    let e := s.listEntry d pg
    match s.residentPfn e with
    | some pfn => (s.setTask id { t with pages := t.pages ++ [(pageKey 0 pg, pfn)] }).addXfers id (s.pageXfers t pg pfn)
    | none =>
      if (hostSlot e).isSome && d.host != 0 then s.swapRequest id t.atList pg else s.badEntry id pg

/-- WALKER_ENTRY_READ (R234): one narrow read of entries 8g to 8g + 7, for the pages among them that the walker may meet;
pages whose every block is skipped are left out, and a group with none of them is not read. -/
def execWalkerEntryRead (id g : Nat) (s : State) : Result :=
  let t := s.task id
  let pgs := (s.pagesAhead t).filter fun pg => pg / 8 == g
  if s.power = .on ∧ t.state = .running ∧ t.kind = kAttend ∧ t.chunksOut = true ∧ t.computed = false ∧ pgs ≠ [] then
    let da := (s.listDesc t.atList).base + 32 * g
    let s := s.countNarrow da 32
    if s.readBad da 32 then .next (s.failRun id .internal)
    else .next ((pgs.foldl (fun s pg => s.walkPage id pg) s).advance id)
  else .next s

/-- SEIF_PAGE_SUSPEND (R206): the Seif reaches a block whose page is host-resident; the task keeps its context. -/
def execSeifPageSuspend (id : Nat) (s : State) : Result :=
  let t := s.task id
  match t.scull with
  | none => .next s
  | some k =>
    if s.power = .on ∧ t.state = .running ∧ t.kind = kAttend ∧ t.chunksOut = true ∧ t.todo = [] ∧ t.flying = [] then
      match (s.pagesMissing t).head? with
      | some pg =>
        if s.kv.swaps.any fun x => x.list == t.atList && x.pg == pg && x.waiters.contains id then
          let u := s.scull k
          let s := s.setScull k { u with task := none, suspended := u.suspended ++ [id] }
          .next (s.setTask id { t with state := .suspended (.page t.atList pg), susp := t.susp + 1,
                                       busyUs := t.busyUs + (s.etc - t.startedAt) })
        else .next s
      | none => .next s
    else .next s

/-- SWAPIN_SERVE_COMPLETE (R239): the oldest of up to 16 requests in flight takes a frame, its slot is copied, its entry is set
resident and its tasks may go on; an empty ring makes it wait; a CXL error ends the tasks suspended on the page. -/
def execSwapinServeComplete (res : Ending) (host : List Cell) (s : State) : Result :=
  match s.kv.swaps.find? (·.due) with
  | none => .next s
  | some x =>
    if s.power != .on || !s.hostOpen then .next s
    else
      let d := s.listDesc x.list
      let drop (s : State) : State :=
        { s with kv := { s.kv with swaps := s.kv.swaps.filter fun y => !(y.list == x.list && y.pg == x.pg) } }
      match hostSlot (s.listEntry d x.pg) with
      | none => .next (drop s)
      | some n =>
        match s.kvTake d.ring with
        | (none, s) =>
          let s := { s with kv := { s.kv with swaps := s.kv.swaps.map fun (y : SwapReq) =>
            if y.list == x.list && y.pg == x.pg then { y with waiting := true, due := false } else y } }
          let s := s.bump (kvReg d.ring 0x18) 0 16
          .next (if x.waiting then s else s.emitKv d.ring 1 .poolExhausted [w32 d.id])
        | (some pfn, s) =>
          let s := s.seeHost host
          if res != .ok then
            let s := drop ((s.hostErr res).kvPush d.ring pfn)
            let hit := (s.tasks.filter fun e => e.2.state == .suspended (.page x.list x.pg)).map (·.1)
            .next (hit.foldl (fun s id => s.doneTask id .internal) s)
          else
            let da := d.slotDa n
            let s := s.write 0 (((List.range 0x10000).map fun i => (frameDa pfn + i, s.byte (da + i))) ++
              ((List.range 0x800).map fun i => (s.kvScale pfn + i, s.byte (da + 0x10000 + i))))
            let s := drop (s.setEntry d x.pg pfn)
            .next ((s.bump 0x02010048 0 32).emitKv d.ring 0 .ok [w32 d.id, w32 x.pg, w32 pfn])

/-! ### Overruns (R389) -/

/-- BE_OVERRUN (R389): a BE task runs longer than be_limit microseconds, suspended time apart; counted and logged once. -/
def execBeOverrun (k : Nat) (s : State) : Result :=
  match (s.scull k).task with
  | none => .next s
  | some id =>
    let t := s.task id
    let lim := s.fld 0x02070090 16 16
    if s.power = .on ∧ t.state = .running ∧ t.lc = false ∧ t.overrun = false ∧ lim ≠ 0 ∧
        lim < t.busyUs + (s.etc - t.startedAt) then
      let s := s.setTask id { t with overrun := true }
      let s := s.bump (0x02070008 + 16 * t.part) 16 16
      .next (s.emitUnit 0 k 1 evOverrun .ok [w32 t.key, w32 t.part, w32 (k / 16)])
    else .next s

end Sys2Proof.Machine
end

