-- ==== Sys2Proof/Machine/Fault.lean ====
section
/-! DEFINITION. Faults of sculls, Seifs and Bows (R88, R92, R97, R103, R211, R256): what a failed check ends, the limits within
ERG_SCULL_WIN, self-tests, hand-back and its time limit. -/

namespace Sys2Proof.Machine

/-- RESIDUE_MISMATCH (R88): a check inside the array, on the FP32 addition or in the second rounder fails for the running
task, beside those that the array forms itself. -/
def execResidueMismatch (k slot block : Nat) (s : State) : Result :=
  let u := s.scull k
  match u.task with
  | none => .next s
  | some id =>
    if s.power ≠ .on ∨ (s.task id).state ≠ .running ∨ u.state ≠ .good then .next s
    else .next (s.residueFail k id slot block)

/-- ACC_ECC_UE (R92): an uncorrectable error in the accumulator bank. -/
def execAccEccUe (k : Nat) (s : State) : Result :=
  let u := s.scull k
  match u.task with
  | none => .next s
  | some id =>
    let t := s.task id
    if s.power ≠ .on ∨ t.state ≠ .running ∨ u.state ≠ .good then .next s
    else
      let s := (s.setTask id { t with avoid := some k }).endRun id false
      let s := s.bump (scullReg k 0x1C) 16 8
      let s := s.emitUnit 0 k 2 evEccUe .internal [w32 k, w32 t.key]
      .next ((s.setScull k { s.scull k with ueTimes := s.etc :: u.ueTimes, testDue := true }).storeLimit k)

/-- STORE_ECC_UE (R97): in a staging buffer the run ends; in a cache read by a task, of any scull, that task ends with
INTERNAL; found by the scrubber the word is poisoned. -/
def execStoreEccUe (k offset : Nat) (site : StoreUe) (s : State) : Result :=
  let u := s.scull k
  if s.power ≠ .on ∨ u.state ≠ .good then .next s
  else match site, u.task with
    | .scrub, _ => .next ((((s.storeUe k offset).poisonWord (scullBase + k * 0x80000 + offset))).storeLimit k)
    | .staging, some id =>
      if (s.task id).state = .running then .next (((s.storeUe k offset).endRun id false).storeLimit k) else .next s
    | .taskRead id, _ =>
      if (s.task id).state = .running then .next (((s.storeUe k offset).failRun id .internal).storeLimit k) else .next s
    | .staging, none => .next s

/-- A task of scull k whose run has ended, and whether it was pre-empted. -/
def Task.preempted (t : Task) : Option Bool :=
  match t.state with
  | .ended p => .some p
  | _ => .none
def State.endedOn (s : State) (k : Nat) (f : Task → Bool) : Option (Nat × Bool) :=
  (s.tasksOn k).findSome? fun id => if f (s.task id) then (s.task id).preempted.map fun p => (id, p) else none

/-- TASK_HANDBACK (R103): the transfers of a run that ended are dealt with; the task goes back to its crew. -/
def execTaskHandback (k : Nat) (s : State) : Result :=
  match s.endedOn k fun t => t.flying.isEmpty with
  | none => .next s
  | some (id, p) => if s.power = .on then .next (s.handBack id p) else .next s

/-- HANDBACK_TIMEOUT (R103): the transfers were not dealt with in 10 µs; the crew closes the scull's port and the scull
retires. -/
def execHandbackTimeout (k : Nat) (s : State) : Result :=
  match s.endedOn k fun t => !t.flying.isEmpty && decide (t.startedAt + 11 ≤ s.etc) with
  | none => .next s
  | some (id, p) =>
    if s.power = .on then
      let s := { s with peers := s.peers.filter fun q => q.task != id }
      let s := s.setTask id { s.task id with flying := [] }
      .next ((s.retireScull k 5).handBack id p)
    else .next s

/-- SCULL_SELF_TEST_DONE (R88): the quick self-test passes, or the scull retires with cause 0x02. -/
def execScullSelfTestDone (k : Nat) (pass : Bool) (s : State) : Result :=
  let u := s.scull k
  if s.power = .on ∧ u.state = .good ∧ u.testing = true then
    let s := s.setScull k { u with testing := false }
    .next (if pass then s else s.retireScull k 2)
  else .next s

/-- The task that a crew's Seif works for: the first with a context that runs. -/
def State.seifTask (s : State) (c : Nat) : Option Nat := (s.crew c).ctxHeld.find? fun id => (s.task id).state == .running

/-- SEIF_MISMATCH (R211): the ATTEND stops before commit; at the limit the crew retires with cause 0x01, else the Seif tests
itself. -/
def execSeifMismatch (c : Nat) (s : State) : Result :=
  let k := s.crew c
  match s.seifTask c with
  | none => .next s
  | some id =>
    if s.power ≠ .on ∨ k.state ≠ .good then .next s
    else
      let key := (s.task id).key
      let s := (s.endRun id false).bump (crewReg c 0x5C) 16 16
      let s := s.emitUnit 2 c 2 evResidue .internal [w32 c, w32 key]
      let ts := s.etc :: k.seifTimes
      let s := s.setCrew c { s.crew c with seifTimes := ts }
      if s.resLimit (c / 48) ≤ (s.recentFaults (c / 48) ts).length then .next (s.retireCrew c 1)
      else .next (s.setCrew c { s.crew c with seifTest := true })

/-- Running tasks of a crew's sculls. -/
def State.crewTasks (s : State) (c : Nat) : List Nat := (List.range 16).filterMap fun i => (s.scull (16 * c + i)).task

/-- SEIF_SELF_TEST_DONE (R211): waiting ATTEND tasks resume, or the crew retires. -/
def execSeifSelfTestDone (c : Nat) (pass : Bool) (s : State) : Result :=
  let k := s.crew c
  if s.power = .on ∧ k.state = .good ∧ k.seifTest = true then
    let s := s.setCrew c { k with seifTest := false }
    .next (if pass then (s.crewTasks c).foldl State.advance s.rewake else s.retireCrew c 1)
  else .next s

/-- BOW_MISMATCH (R256): the Bow's task stops before commit; at the limit the Bow retires with cause 0x02, else it tests
itself. -/
def execBowMismatch (d : Nat) (s : State) : Result :=
  let e := s.erg d
  match e.bowTask with
  | none => .next s
  | some id =>
    if s.power ≠ .on ∨ e.bow ≠ .good ∨ (s.task id).state ≠ .running then .next s
    else
      let key := (s.task id).key
      let s := (s.endRun id false).bump (ergReg d 0x190) 0 16
      let s := s.emitUnit 3 d 2 evResidue .internal [w32 d, w32 key]
      let ts := s.etc :: e.bowTimes
      let s := s.setErg d { s.erg d with bowTimes := ts }
      if s.resLimit d ≤ (s.recentFaults d ts).length then .next (s.retireBow d 2)
      else .next (s.setErg d { s.erg d with bowTest := true })

/-- BOW_SELF_TEST_DONE (R256): parked route-2 tasks may run again, or the Bow retires with cause 0x01. -/
def execBowSelfTestDone (d : Nat) (pass : Bool) (s : State) : Result :=
  let e := s.erg d
  if s.power = .on ∧ e.bow = .good ∧ e.bowTest = true then
    let s := s.setErg d { e with bowTest := false }
    .next (if pass then s.rewake else s.retireBow d 1)
  else .next s

end Sys2Proof.Machine
end

