-- ==== Sys2Proof/Machine/Background.lean ====
section
/-! DEFINITION. Background work of 23_ras_and_background.md (R484-R487) apart from the Dune's: SRAM scrub, the flash patrol and
wear levelling, telemetry. -/

namespace Sys2Proof.Machine

/-- An uncorrectable error in a crew store found by the scrubber (R485): logged, the word poisoned, counted for its crew; at the
limit the crew retires with cause 0x02. -/
def State.crewUe (s : State) (c offset : Nat) : State :=
  let s := s.emitUnit 1 c 2 evEccUe .internal [w32 (unitId 1 c), w32 offset]
  let s := s.poisonWord (crewBase + c * 0x400000 + offset)
  let ts := s.etc :: (s.crew c).ueTimes
  let s := s.setCrew c { s.crew c with ueTimes := ts }
  if s.ueLimit (c / 48) ≤ (s.recentFaults (c / 48) ts).length then s.retireCrew c 2 else s

/-- SRAM_SCRUB (R484, R485, R97, R375): one word of a store, or of a Rigger slot that an epoch of a group holds. -/
def execSramScrub (site : ScrubSite) (offset : Nat) (found : PieceCheck) (s : State) : Result :=
  if s.background = false then .next s
  else match site, found with
    | _, .clean => .next s
    | _, .parity => .next s
    | .scull k, .corrected =>
      if k < 12288 ∧ (s.scull k).state = .good then .next (s.bump (scullReg k 0x18) 0 16) else .next s
    | .scull k, .uncorrectable =>
      let o := offset % 0x80000
      if k < 12288 ∧ (s.scull k).state = .good then
        .next (((s.storeUe k o).poisonWord (scullBase + k * 0x80000 + o)).storeLimit k)
      else .next s
    | .crew _, .corrected => .next s
    | .crew c, .uncorrectable =>
      if c < 768 ∧ (s.crew c).state = .good then .next (s.crewUe c (offset % 0x400000)) else .next s
    | .rigger die _, .corrected => if die < 4 then .next (s.bump (riggerReg die 8) 0 16) else .next s
    | .rigger die g, .uncorrectable =>
      let ks := s.epochsOf g fun c => c.die == die && c.claim != 0
      if die < 4 ∧ ks ≠ [] then
        let s := (s.bump (riggerReg die 8) 16 16).emitUnit 8 die 2 evEccUe .internal [w32 die, w32 g]
        .next (ks.foldl State.collPoison s)
      else .next s

/-- Poison in the work area of a running epoch, which holds its sums without a Rigger claim, poisons the epoch (R375). -/
def State.workPoison (s : State) : State :=
  ((s.colls.running.filter fun e => let c := e.2
     c.reduces && c.op != 4 && c.claim == 0 && !c.poison && c.arrivals != [] &&
      (s.task c.task).clWork != 0 && s.poisoned (s.task c.task).clWork (4 * c.count)).map (·.1)).foldl State.collPoison s

/-- PATROL_SCRUB_READ (R484, R485, R486): the next line of an ONLINE stack, in every state from READY onward. -/
def execPatrolScrubRead (n : Nat) (pieces : List PieceCheck) (s : State) : Result :=
  if s.background ∧ n < 48 ∧ (s.dune n).state = .online then
    let line := (s.dune n).scrub
    let s := (pieces.zipIdx.take 8).foldl (fun s p => s.scrubPiece n (line * 256 + p.2 * 32) p.1) s
    .next ((s.setDune n { s.dune n with scrub := (line + 1) % 0x10000000 }).workPoison)
  else .next s

/-- Pages of the flash (R25): 16 KiB each. -/
def State.flashPages (s : State) : Nat := s.flashBytes / 16384

/-- FLASH_PATROL (R485): an uncorrectable page is logged and reads poisoned from then on; a page above 60 % of its code's
capacity is rewritten to a fresh block, which changes no byte. -/
def execFlashPatrol (page corrected : Nat) (readable : Bool) (s : State) : Result :=
  let _ := corrected
  if s.background ∧ s.hasFlash = true ∧ s.locked 34 = true ∧ page < s.flashPages ∧ readable = false ∧
      s.nv.badPages.contains page = false then
    let s : State := { s with nv := { s.nv with badPages := page :: s.nv.badPages } }
    .next (s.emitUnit 6 34 2 evEccUe .internal [w32 page, w32 (page / 0x100000000)])
  else .next s

/-- WEAR_LEVELLING (R484): a block whose erase count exceeds the least by 200 moves; no byte that software sees changes. -/
def execWearLevelling (_block _eraseCount _least : Nat) (s : State) : Result := .next s

/-- The value of a sensor that is absent or not sampled (R487). -/
def noSensor : Word := 0x80000000

/-- The last sample of a sensor. -/
def State.sensor (s : State) (n : Nat) : Word := Tab.get noSensor s.pwr.sensors n

/-- A reading in thousandths, as a whole number of its unit. -/
def milli (w : Word) : Nat := (w.toInt / 1000).toNat

/-- A new coolant inlet temperature (Table PWR.2): a notice above 35 °C, an error above 40 °C, as it is crossed. -/
def State.inletCheck (s : State) (old now : Int) : State :=
  let pl := [BitVec.ofInt 32 now]
  if 40000 < now ∧ old ≤ 40000 then s.emitUnit 14 0 2 evThermal .ok pl
  else if 35000 < now ∧ old ≤ 35000 then s.emitUnit 14 0 1 evThermal .ok pl
  else s

/-- TELEMETRY_SAMPLE (R487): readings of numbers 0 to 963; the coolant readings also show in their register. -/
def execTelemetrySample (readings : List (Nat × Word)) (s : State) : Result :=
  if s.background = false then .next s
  else
    let old := (s.sensor 512).toInt
    let tab := (readings.filter fun (r : Nat × Word) => decide (r.1 < 964)).foldl
      (fun (t : Tab Word) (r : Nat × Word) => Tab.put noSensor t r.1 r.2) s.pwr.sensors
    let t := Tab.get noSensor tab 512
    let f := Tab.get noSensor tab 514
    let s : State := { s with pwr := { s.pwr with
      sensors := tab
      inlet := if t = noSensor then s.pwr.inlet else milli t
      flow := if f = noSensor then s.pwr.flow else f.toInt.toNat } }
    .next (if t = noSensor then s else s.inletCheck old t.toInt)

end Sys2Proof.Machine
end

