-- ==== Sys2Proof/Machine/Box.lean ====
section
/-! DEFINITION. Mailboxes (R418-R424, Tables COX.1, COX.2): phases, responses, and what FAULTED and a start do to them. -/

namespace Sys2Proof.Machine

/-- Registers of mailbox m, for m = 0 to 7 (R431). -/
def mbReg (m off : Nat) : Nat := 0x00100000 + m * 0x4000 + off

/-- A response (Table COX.1) as the bytes of its 4 KiB buffer. -/
def responseBytes (tag : Word) (st : Status) (payload : List Byte) : List Byte :=
  leBytes 4 tag.toNat ++ leBytes 2 st.code ++ leBytes 2 0 ++ leBytes 4 payload.length ++ leBytes 4 0 ++ payload

/-- A command ends: response, last_status, then the vector or the board's alert (Table COX.2, R418); a refusal, and a command
that changed something, is logged (R423, R491). -/
def State.endCmd (s : State) (m : Nat) (st : Status) (payload : List Byte) (logged : Bool) : State :=
  let b := s.mb m
  let s := s.setMb m { b with phase := .done, lastStatus := BitVec.ofNat 16 st.code, rsp := responseBytes b.tag st payload,
                              unread := true }
  let s := if m = 8 then { s with tx := .alert 8 :: s.tx }
    else if b.irq then s.raiseReg (mbReg m 0x2008) 8 else s
  if st != .ok then s.emit 1 m 1 evCommand st [w32 b.lastOp.toNat, b.tag]
  else if logged then s.emit 1 m 0 evCommand .ok [w32 b.lastOp.toNat, b.tag]
  else s

/-- The Coxswain begins to serve mailboxes (Table COX.2). -/
def State.serve (s : State) (ms : List Nat) : State :=
  ms.foldl (fun s m => if (s.mb m).phase = .offline then s.setMb m { Mailbox.init with phase := .idle } else s) s

/-- Every running command ends with INTERNAL, written by the ROM handler (R424). -/
def State.failBoxes (s : State) : State :=
  let s := { s with stateMb := none, mbQueue := [] }
  (List.range 9).foldl (fun s m => if (s.mb m).phase = .running then s.endCmd m .internal [] false else s) s

end Sys2Proof.Machine
end

