-- ==== Sys2Proof/Machine/Image.lean ====
section
/-! DEFINITION. Boot images, certificates and fuse burns (22_security.md): the check of R469, the attestation certificate of
R475, the identity index of R473. -/

namespace Sys2Proof.Machine

/-- `n` bytes from an offset, and as a number. -/
def slice (bs : List Byte) (off n : Nat) : List Byte := (bs.drop off).take n
def numAt (bs : List Byte) (off n : Nat) : Nat := leNat n (bs.drop off)
def zeroAt (bs : List Byte) (off n : Nat) : Bool := (slice bs off n).all (· == 0)

/-- Fields of an image (Table SEC.3). -/
def imgSvn (img : List Byte) : Nat := numAt img 8 2
def imgRoot (img : List Byte) : List Byte := slice img 0x20 68
def imgCert (img : List Byte) : List Byte := slice img 0x68 2952
def imgVersion (img : List Byte) : Nat := numAt img 0xC 4

/-- Fields of a certificate (Table SEC.2). -/
def certSubject (c : List Byte) : List Byte := slice c 0x20 68
def certSigned (c : List Byte) : List Byte := slice c 0 0x84
def certSignature (c : List Byte) : List Byte := slice c 0x84 2820

/-- A certificate of a kind, issued and signed by a key. -/
def certOk (c : List Byte) (kind : Nat) (issuer : List Byte) : Bool :=
  c.length == 2952 && decide (numAt c 0 4 = 1) && decide (numAt c 4 1 = kind) && slice c 0x64 32 == shake256 issuer 32 &&
  Config.xmssVerify issuer (certSigned c) (certSignature c)

/-- The root slot that holds a key's hash and is not revoked (R469 check 1). -/
def State.rootSlot (s : State) (key : List Byte) : Option Nat :=
  (List.range 4).find? fun k => s.nv.roots.getD k [] == shake256 key 32 && !s.nv.revoked.contains k

/-- The reserved bytes of an image are 0 (R469 check 5). -/
def imgReservedOk (img : List Byte) : Bool :=
  zeroAt img 0x10 16 && zeroAt img 0x64 4 && zeroAt img 0x16F4 268 && decide (numAt img 0xA 1 < 4) && decide (numAt img 0xB 1 < 16)

/-- The image check (R469). -/
def State.imageOk (s : State) (img : List Byte) : Bool :=
  decide (0x1800 ≤ img.length) && decide (img.length ≤ 0x200000) && decide (numAt img 0 4 = 1) &&
  decide (numAt img 4 4 = img.length) && decide (imgSvn img < 64) &&
  (s.rootSlot (imgRoot img)).isSome && certOk (imgCert img) 1 (imgRoot img) &&
  Config.xmssVerify (certSubject (imgCert img)) (slice img 0 0xBF0 ++ img.drop 0x1800) (slice img 0xBF0 2820) &&
  decide (s.nv.minSvn ≤ imgSvn img) && imgReservedOk img

/-- A failed check is counted and logged (R482); `sub` tells the row of Table SEC.6, counted from 0. -/
def State.secFail (s : State) (st : Status) (sub : Nat) : State :=
  (s.bump 0x250 0 16).emitUnit 13 0 2 evSecFail st [w32 sub]

/-- A signing request refused for exhaustion (Table SEC.7). -/
def State.secRefused (s : State) : State := (s.bump 0x250 16 16).secFail .authFailed 5

/-- The Coxswain burns a fuse word through GLOBAL_G_FUSE (R439, R440, R452): the guard's outcome, then FUSE_BURN with the
purpose and its number. The word's address is internal to the security block and free. -/
def State.burnFuse (s : State) (purpose v : Nat) : State :=
  let (a, s) := s.draw
  let addr := w32 (a.toNat % 4096)
  let s := s.setReg 0x110 (w32 (7 * 0x10000 + s.fld 0x110 26 1 * 0x4000000))
  let s := s.emit 0 0 0 evRegWrite .ok [w32 0x401C, 0, addr]
  s.emitUnit 13 0 0 evFuseBurn .ok [addr, w32 purpose, w32 v]

/-- The identity index that a start takes (R473); `bad`: the store is unreadable. -/
def Nv.identity (v : Nv) (bad : Bool) : Nat :=
  if !bad && decide (16384 * v.floors ≤ v.idIndex + 16384) then v.idIndex else 16384 * v.floors

/-- Certify the attestation key of this boot (R472-R475): one identity signature is spent; with none left the module runs
without attestation. -/
def State.certifyKey (s : State) (bad : Bool) : State :=
  let i := s.nv.identity bad
  let s := if i = s.nv.idIndex then s else s.secFail .internal 9
  if 1048576 ≤ i then s.secFail .authFailed 4
  else
    let s := if i / 16384 < s.nv.floors then s
      else { s with nv := { s.nv with floors := i / 16384 + 1 } }.burnFuse 2 (i / 16384)
    let s := if 1032192 ≤ i then s.emitUnit 13 0 1 evSecFail .ok [w32 (1048576 - i - 1)] else s
    let nv := s.nv
    let body := leBytes 4 1 ++ leBytes 1 3 ++ leBytes 1 nv.lifecycle ++ leBytes 2 (imgSvn nv.runImage) ++ nv.serial ++
      leBytes 4 nv.epoch ++ leBytes 4 i ++ Config.attestationKey nv.epoch ++ shake256 (certSubject nv.idCert) 32
    { s with
      nv := { nv with idIndex := i + 1 }
      sec := { s.sec with attReady := true, attCert := body ++ Config.identitySign i body } }

/-- Sign with the attestation key (R475): none once its 65,536 signatures are spent, or where it was never certified. -/
def State.attSign (s : State) (msg : List Byte) : Option (List Byte × State) :=
  if s.sec.attReady ∧ s.sec.attUsed < 65536 then
    some (Config.xmssSign s.nv.epoch s.sec.attUsed msg, { s with sec := { s.sec with attUsed := s.sec.attUsed + 1 } })
  else none

end Sys2Proof.Machine
end

