-- ==== Sys2Proof/Machine/Lowp.lean ====
section
/-! DEFINITION. Evaluation of the low-precision engine (R267-R278): module sums, the watch table, grants of the residual pool,
status records. Steps 1 to 6 of R275 happen at the start of an evaluation, step 7 at its end (log entry 60). -/

namespace Sys2Proof.Machine

/-- Entry of the watch table (Table LOWP.2). -/
structure Watch where
  watch   : Bool
  prio    : Nat
  pInit   : Bool
  hold    : Nat
  satUp   : Nat
  zeroUp  : Nat
  satDn   : Nat
  zeroDn  : Nat
  srcBase : Nat
  srcLen  : Nat
  sclBase : Nat
  sclLen  : Nat
deriving DecidableEq, Repr

/-- Read the watch-table entry of a tag. -/
def State.watchEntry (s : State) (tag : Nat) : Watch :=
  let da := join (s.reg 0x0202000C) (s.reg 0x02020010) + 64 * tag
  let n (off k : Nat) : Nat := s.loadNat (da + off) k
  ⟨natBit (n 0 4) 0, n 0 4 / 2 % 4, natBit (n 0 4) 3, max 1 (n 0 4 / 256 % 256), n 4 4, n 8 4, n 0xC 4, n 0x10 4,
   n 0x18 7, n 0x20 5, n 0x28 7, n 0x30 5⟩

/-- Two ranges overlap. -/
def overlaps (a n b m : Nat) : Bool := decide (a < b + m) && decide (b < a + n) && decide (n ≠ 0) && decide (m ≠ 0)

/-- A range lies inside one stack. -/
def inStack (da n : Nat) : Bool :=
  decide (da + n ≤ duneEnd) && (decide (n = 0) || decide (stackOf da = stackOf (da + n - 1)))

/-- Base and granules of the residual pool. -/
def State.poolBase (s : State) : Nat := join (s.reg 0x02020000) (s.reg 0x02020004)
def State.poolLen (s : State) : Nat := s.fld 0x02020008 0 21

/-- Every pool of the stacks, as base and length (log entry 60): the residual pool (R271), the frame pools of the KV cache
(R215), the tier pool (R306) and the reference pools of the Wake engines (R338). -/
def State.pools (s : State) : List (Nat × Nat) :=
  (s.poolBase, s.poolLen * 0x10000) ::
  ((List.range 48).map fun k =>
    (k * 0x1000000000 + s.fld (0x02010100 + 16 * k) 0 20 * 0x10000, s.fld (0x02010104 + 16 * k) 0 21 * 0x10000)) ++
  ((List.range 48).map fun k =>
    (k * 0x1000000000 + s.fld (0x02030100 + 4 * k) 0 15 * 0x200000, s.fld (0x02030100 + 4 * k) 15 16 * 0x200000)) ++
  ((List.range 8).map fun w =>
    (join (s.reg (0x03400004 + 0x20000 * w)) (s.reg (0x03400008 + 0x20000 * w)),
      s.fld (0x0340000C + 0x20000 * w) 0 12 * 0x100000))

/-- An entry with watch = 1 is malformed (R269): a range outside one stack, over a pool, or over another watched entry. -/
def watchBad (pools : List (Nat × Nat)) (all : List (Nat × Watch)) (g : Nat) (w : Watch) : Bool :=
  let rs := [(w.srcBase, w.srcLen), (w.sclBase, w.sclLen)]
  !(rs.all fun r => inStack r.1 r.2) ||
  (rs.any fun r => pools.any fun p => overlaps r.1 r.2 p.1 p.2) ||
  (all.any fun e => e.1 != g && rs.any fun r =>
    overlaps r.1 r.2 e.2.srcBase e.2.srcLen || overlaps r.1 r.2 e.2.sclBase e.2.sclLen)

/-- Granules that a tag needs (R271). -/
def Watch.need (w : Watch) : Nat := (w.srcLen + 0xFFFF) / 0x10000 + (w.sclLen + 0xFFFF) / 0x10000
def Tag.need (t : Tag) : Nat := (t.srcLen + 0xFFFF) / 0x10000 + (t.sclLen + 0xFFFF) / 0x10000

/-- Module sums of every tag's counters, saturating (R275 step 1). -/
def sumTags (open_ : Tab Counts) : Tab Counts :=
  let top := 2 ^ 32 - 1
  open_.foldl (fun m e =>
    let a := (Tab.get Counts.empty m (e.1 % 4096)).add e.2
    Tab.put Counts.empty m (e.1 % 4096) ⟨a.elems, min a.sat top, min a.zero top, min a.nanz top, min a.rsvd top⟩) []

/-- A pass is quiet (R275). -/
def Watch.quietPass (w : Watch) (c : Counts) : Bool :=
  decide (0 < c.elems) && decide (c.sat * 0x100000 < w.satDn * c.elems) && decide (c.zero * 0x100000 < w.zeroDn * c.elems)

/-- A tag wants P = 2 by its counts (R275 step 4). -/
def Watch.wants (w : Watch) (c : Counts) : Bool :=
  decide (0 < c.elems) &&
  ((decide (w.satUp ≠ 0) && decide (w.satUp * c.elems ≤ c.sat * 0x100000)) ||
   (decide (w.zeroUp ≠ 0) && decide (w.zeroUp * c.elems ≤ c.zero * 0x100000)))

/-- Steps 2 and 3 for one tag: the new entry, and P = 1 again where its grant returns. -/
def Tag.refresh (t : Tag) (w : Watch) (c : Counts) : Tag :=
  let same := decide (t.srcBase = w.srcBase) && decide (t.srcLen = w.srcLen) && decide (t.sclBase = w.sclBase) &&
    decide (t.sclLen = w.sclLen)
  let q := if !t.p2 then 0 else if c.elems = 0 then t.quiet else if w.quietPass c then t.quiet + 1 else 0
  let back := t.p2 && (!w.watch || !same || decide (w.hold ≤ q))
  { watch := w.watch, prio := w.prio, hold := w.hold, satDn := w.satDn, zeroDn := w.zeroDn,
    srcBase := w.srcBase, srcLen := w.srcLen, sclBase := w.sclBase, sclLen := w.sclLen,
    p2 := t.p2 && !back, grant := if back then 0 else t.grant, quiet := if back then 0 else q,
    denied := false, granted := false, lowered := back, last := c }

/-- The lowest free run of `need` granules in a pool of `len`, given the runs in use. -/
def freeRun (len need : Nat) (used : List (Nat × Nat)) : Option Nat :=
  let starts := (0 :: used.map fun u => u.1 + u.2).mergeSort (· ≤ ·)
  starts.find? fun a => decide (a + need ≤ len) && used.all fun u => !overlaps a need u.1 u.2

/-- Change the low-precision engine's record of a tag. -/
def State.setTag (s : State) (g : Nat) (t : Tag) : State :=
  { s with lowp := { s.lowp with tags := Tab.put Tag.none s.lowp.tags g t } }

/-- The lowest free run of the residual pool that holds a tag's need (R271); none where the pool is not inside one stack. -/
def State.residualRun (s : State) (need : Nat) : Option Nat :=
  if inStack s.poolBase (s.poolLen * 0x10000) then
    freeRun s.poolLen need ((s.lowp.tags.filter (·.2.p2)).map fun e => (e.2.grant, e.2.need))
  else none

/-- A tag takes granule `a` of the residual pool and what follows: its granules are zeroed. -/
def State.takeGranules (s : State) (g : Nat) (t : Tag) (a : Nat) : State :=
  let lo := s.poolBase + a * 0x10000
  ((s.setTag g { t with p2 := true, granted := true, grant := a, quiet := 0 }).dropRange lo (lo + t.need * 0x10000)).bump64
    (duneReg (stackOf lo) 0x6C) (t.need * 0x10000)

/-- Steps 5 and 6 for one tag that wants P = 2: granted at the lowest free run, its granules zeroed, or denied. -/
def State.grantTag (s : State) (g : Nat) : State :=
  let t := Tab.get Tag.none s.lowp.tags g
  (s.residualRun t.need).elim (s.setTag g { t with denied := true }) (s.takeGranules g t)

/-- Words of a tag's status record (Table LOWP.3). -/
def State.tagRecord (s : State) (g : Nat) : List Word :=
  let t := Tab.get Tag.none s.lowp.tags g
  let c := t.last
  [w32 c.elems, w32 (c.elems / 0x100000000), w32 c.sat, w32 c.zero, w32 c.nanz, w32 c.rsvd,
   w32 ((if t.p2 then 2 else 1) + b2n t.denied * 4 + b2n t.granted * 8 + b2n t.lowered * 16 + t.quiet % 256 * 256),
   w32 (if t.p2 then t.grant else 0)]

/-- Step 1 of an evaluation: the module sums are closed and the engine is busy. -/
def State.closeSums (s : State) : State :=
  { s with lowp := { s.lowp with ended := s.lowp.open_, open_ := [], busy := true } }

/-- The watch table as the evaluation reads it, and its malformed entries (R269), which then count as not watched. -/
def State.watchTable (s : State) : List (Nat × Watch) × List (Nat × Watch) :=
  let raw := (List.range 4096).map fun g => (g, s.watchEntry g)
  let on := raw.filter (·.2.watch)
  let pools := s.pools.filter fun p => p.2 != 0
  let bad := on.filter fun e => watchBad pools on e.1 e.2
  (raw.map fun e => if bad.any fun b => b.1 == e.1 then (e.1, { e.2 with watch := false }) else e, bad)

/-- The tags that want P = 2 at this evaluation, the highest priority first. -/
def State.wanting (s : State) (sums : Tab Counts) (table : List (Nat × Watch)) : List Nat :=
  let wantsNow (e : Nat × Watch) : Bool :=
    let t := (Tab.get Tag.none s.lowp.tags e.1)
    let c := Tab.get Counts.empty sums e.1
    e.2.watch && !(t.refresh e.2 c).p2 && (e.2.wants c || (e.2.pInit && !t.watch))
  let want := table.filter wantsNow
  [3, 2, 1, 0].flatMap fun p => (want.filter fun e => e.2.prio == p).map (·.1)

/-- Steps 2 to 4: every tag takes its entry and its sums. -/
def State.refreshTags (s : State) (sums : Tab Counts) (table : List (Nat × Watch)) : State :=
  let tags := table.foldl (fun m e =>
    let t := Tab.get Tag.none s.lowp.tags e.1
    let c := Tab.get Counts.empty sums e.1
    if e.2.watch || t.watch || t.p2 || c != Counts.empty || t.last != Counts.empty then Tab.put Tag.none m e.1 (t.refresh e.2 c)
    else m) []
  { s with lowp := { s.lowp with tags := tags } }

/-- The status records of all tags, where LOWP_CTL asks for them. -/
def State.writeTags (s : State) : State :=
  if s.fld 0x0202001C 9 1 = 1 then
    s.write 0 (wordCells (join (s.reg 0x02020014) (s.reg 0x02020018)) ((List.range 4096).flatMap s.tagRecord))
  else s

/-- The events of tasks that have committed, and are not DONE, count in the pass that ends (R276). -/
def State.countCommitted (s : State) : State :=
  (s.tasks.filter fun e => e.2.state == .committed && e.2.status == .ok).foldl (fun s e =>
    (s.countEvents e.2).setTask e.1 { e.2 with counts := .empty }) s

/-- Steps 1 to 6 of an evaluation (R275). -/
def State.evaluate (s : State) : State :=
  let s := s.countCommitted
  let sums := sumTags s.lowp.open_
  let s := s.closeSums
  let e := s.watchTable
  let s := s.countNarrow (join (s.reg 0x0202000C) (s.reg 0x02020010)) 0x40000
  let s := e.2.foldl (fun s b => s.emitUnit 12 0 1 evLowpEval .badArgument [w32 b.1]) s
  let want := s.wanting sums e.1
  (want.foldl State.grantTag (s.refreshTags sums e.1)).writeTags

/-- LOWP_EVAL_START (R275, R276): software writes 1 to LOWP_EVAL.start. -/
def execLowpEvalStart (req : Requester) (s : State) : Result :=
  .next (s.onReg req 0x02020020 1 fun s =>
    if s.dev ≠ .ready ∧ s.dev ≠ .running then s.logRefused req 0x02020020 .stateInvalid (s.reg 0x02020020) 1
    else if s.lowp.busy then s.logRefused req 0x02020020 .busy (s.reg 0x02020020) 1
    else (s.takeReg req 0x02020020 (s.reg 0x02020020) 1 1).evaluate)

/-- LOWP_EVAL_COMPLETE (R275 step 7, R276): outcome registers, the record, FALLBACK_DENIED, the vector; parked tasks wake. -/
def execLowpEvalComplete (s : State) : Result :=
  if s.power = .on ∧ s.lowp.busy = true then
    let n (f : Tag → Bool) : Nat := (s.lowp.tags.filter fun e => f e.2).length
    let granted := n (·.granted)
    let denied := n (·.denied)
    let lowered := n (·.lowered)
    let s := { s with lowp := { s.lowp with busy := false, last := s.lowp.ended, ended := [] } }
    let s := ((s.setReg 0x02020028 (w32 (granted + denied * 0x2000))).setFld 0x0202002C 0 13 lowered).bump 0x0202002C 16 16
    let s := s.emitUnit 12 0 0 evLowpEval .ok [w32 granted, w32 denied, w32 lowered]
    let s := if denied = 0 then s else s.stick 0x30C 2
    .next (((s.setReg 0x02020020 0).raiseReg 0x0202001C 8).rewake)
  else .next s

end Sys2Proof.Machine
end

