-- ==== Sys2Proof/Machine/Ring.lean ====
section
/-! DEFINITION. Lane rings (R405-R415): doorbells, fetch visits, descriptor reads, LR_CFG and CQ_HEAD writes, held vectors. -/

namespace Sys2Proof.Machine

/-- Offset of ring q's doorbell (R406). -/
def doorbellOff (q : Nat) : Nat := 0x00400000 + q * 0x1000

/-- Slots and records of a ring. -/
def State.ringSlots (s : State) (q : Nat) : Nat := 2 ^ s.fld (ringReg q 8) 0 5
def State.ringRecords (s : State) (q : Nat) : Nat := 2 ^ s.fld (ringReg q 8) 5 5

/-- DA of ring q's descriptor n (R403, R405). -/
def State.descDa (s : State) (q : Nat) (n : Word) : Nat :=
  hostBase + s.fld (ringReg q 0) 12 20 * 4096 + s.fld (ringReg q 4) 0 16 * 0x100000000 + n.toNat % s.ringSlots q * 64

/-- DOORBELL_WRITE (R406): sets TAIL in READY and RUNNING; a value too far ahead is BAD_ARGUMENT. -/
def execDoorbellWrite (q : Nat) (v : Word) (req : Requester) (s : State) : Result :=
  .next (s.onReg req (doorbellOff q) v fun s =>
    let r := s.ring q
    if s.dev ≠ .ready ∧ s.dev ≠ .running then s.logRefused req (doorbellOff q) .stateInvalid r.tail v
    else if s.ringSlots q < (v - r.head).toNat then s.logRefused req (doorbellOff q) .badArgument r.tail v
    else s.setRing q { r with tail := v })

/-- Records that ring q may still reserve (R410). -/
def State.ringRoom (s : State) (q : Nat) : Nat :=
  let r := s.ring q
  s.ringRecords q - ((r.cqTail - r.cqHead).toNat + r.reserved)

/-- Ring q can take a descriptor (R409). -/
def State.canTake (s : State) (q : Nat) : Bool :=
  let r := s.ring q
  r.state == .active && s.partEn (q / 64) && decide (r.tail ≠ r.head) && r.waiting.isEmpty && r.fence.isNone &&
  decide (0 < s.ringRoom q)

/-- Place of ring q in a round (R408): rings of LC partitions first, then by q. -/
def State.roundKey (s : State) (q : Nat) : Nat := b2n (s.partBE (q / 64)) * 512 + q

/-- The ring that the round visits next: the first after the last one visited, else the first of a new round. A round in which no
further ring can take a descriptor is over (`lastRing` is 0). -/
def State.nextRing (s : State) : Option Nat :=
  let qs := (s.rings.map (·.1)).filter s.canTake
  let least (l : List Nat) : Option Nat := l.foldl (fun b q =>
    match b with
    | none => some q
    | some x => if s.roundKey q < s.roundKey x then some q else b) none
  (least (qs.filter fun q => s.lastRing ≤ s.roundKey q)).or (least qs)

/-- Descriptor reads outstanding. -/
def State.readsOut (s : State) : Nat := (s.rings.map fun e => e.2.reads.length).sum

/-- RING_FETCH_VISIT (R408-R410): one read of up to 8 descriptors that never crosses the end of the ring. -/
def execRingFetchVisit (q : Nat) (s : State) : Result :=
  if s.power = .on ∧ s.dev = .running ∧ s.hostOpen = true ∧ s.nextRing = some q ∧ s.readsOut < 32 then
    let r := s.ring q
    let n := min 8 (min (r.tail - r.head).toNat (min (s.ringSlots q - r.head.toNat % s.ringSlots q) (s.ringRoom q)))
    let s := s.setRing q { r with head := r.head + w32 n, reserved := r.reserved + n, reads := r.reads ++ [(r.head, n)] }
    let k := s.roundKey q + 1
    .next { s with lastRing := if (s.rings.map (·.1)).any (fun x => s.canTake x && decide (k ≤ s.roundKey x)) then k else 0 }
  else .next s

/-- The task of a fetched descriptor; `broken`: a block read of it ends in a CXL error. -/
def State.fetched (s : State) (q : Nat) (seq : Word) (broken : Bool) : Task :=
  let da := s.descDa q seq
  { Task.none with
    ring := some q, seq := seq, words := (List.range 16).map fun i => w32 (s.loadNat (da + 4 * i) 4), state := .fetched,
    status := if broken then .internal else .ok, home := 0x3FF, part := q / 64, lc := !s.partBE (q / 64) }

/-- A read of descriptors fails (R411, R414, Table HOST.3): the record of the first, the ring halted or still draining; reads
issued after it are given up with it. -/
def State.readFail (s : State) (q : Nat) (seq : Word) : State :=
  let r := s.ring q
  let st := if r.state = .active then RingState.halted else r.state
  let n := (r.reads.map (·.2)).sum
  let s := s.setRing q { r with state := st, reads := [], reserved := r.reserved - n, failed := r.failed ++ [(seq, .internal)] }
  let s := s.putRecord q [w32 Status.internal.code, seq, 0, w32 (q + 0x3FF * 0x200), w32 s.etc, w32 (s.etc / 0x100000000), 0, 0]
  let code := match st with
    | .disabled => 0 | .active => 1 | .halted => 2 | .draining => 3
  let s := s.emitUnit 15 q 2 evRing .internal [w32 q, seq, w32 code]
  let s := if s.fld (ringReg q 8) 19 1 = 1 then s.ringIrq q else s
  s.drainRing q

/-- DESCRIPTOR_READ_COMPLETE (R112, R414): the oldest read of ring q ends; its descriptors are validated in ring order and
delivered, held behind a FENCE, or ended with their status. -/
def execDescriptorReadComplete (q : Nat) (res : Ending) (bad : List Nat) (host : List Cell) (s : State) : Result :=
  match (s.ring q).reads with
  | [] => .next s
  | (first, n) :: rest =>
    if s.power ≠ .on ∨ (res = .ok ∧ s.hostOpen = false) then .next s
    else if res ≠ .ok then .next ((s.hostErr res).readFail q first)
    else
      let s := s.seeHost host
      let seqs := (List.range n).map fun i => (first + w32 i, bad.contains i)
      let ts := seqs.map fun x => (taskId q x.1, s.fetched q x.1 x.2)
      let s := ts.foldl (fun s t => s.setTask t.1 t.2) s
      let r := s.ring q
      let s := s.setRing q { r with reads := rest, live := r.live ++ ts.map (·.1), waiting := r.waiting ++ ts.map (·.1) }
      .next (s.pump q (n + 1))

/-- A write of LR_CFG (R414, Table HOST.3). -/
def State.writeLrCfg (s : State) (q : Nat) (v : Word) (req : Requester) : State :=
  let off := ringReg q 8
  s.onReg req off v fun s => s.checked req off v fun s =>
    let old := s.reg off
    let new := w32 (v.toNat % 0x100000)
    let r := s.ring q
    let en := bits new 10 1 == 1
    if (r.state ≠ .disabled ∧ bits old 0 10 ≠ bits new 0 10) ∨ (en = true ∧ (r.state = .draining ∨ r.state = .halted)) then
      s.logRefused req off .busy old v
    else
      let s := s.takeReg req off old new new
      match r.state, en with
      | .disabled, true => s.setRing q { r with state := .active }
      | .active, false => (s.setRing q { r with state := .draining }).drainRing q
      | .halted, false => (s.setRing q { r with state := .draining }).drainRing q
      | _, _ => s

/-- RING_ENABLE (R414): LR_CFG written with en = 1. -/
def execRingEnable (q : Nat) (v : Word) (req : Requester) (s : State) : Result :=
  .next (s.writeLrCfg q (setBits v 10 1 1) req)

/-- RING_DISABLE (R414): LR_CFG written with en = 0. -/
def execRingDisable (q : Nat) (v : Word) (req : Requester) (s : State) : Result :=
  .next (s.writeLrCfg q (setBits v 10 1 0) req)

/-- CQ_HEAD_WRITE (R410, R414): records consumed; a value that would pass CQ_TAIL is BAD_ARGUMENT. -/
def execCqHeadWrite (q : Nat) (v : Word) (req : Requester) (s : State) : Result :=
  .next (s.onReg req (ringReg q 0x20) v fun s =>
    let r := s.ring q
    if (r.cqTail - r.cqHead).toNat < (v - r.cqHead).toNat then s.logRefused req (ringReg q 0x20) .badArgument r.cqHead v
    else s.setRing q { r with cqHead := v })

/-- LR_HEAD, LR_CQ_TAIL and the bases take writes only while the ring is DISABLED (R414). -/
def State.writeRingReg (s : State) (q reg : Nat) (v : Word) (req : Requester) : State :=
  let off := ringReg q reg
  s.onReg req off v fun s =>
    let r := s.ring q
    let old := if reg = 0x14 then r.head else if reg = 0x1C then r.cqTail else s.reg off
    if r.state ≠ .disabled then s.logRefused req off .busy old v
    else if reg = 0x14 then (s.setRing q { r with head := v }).logWrite req off old v
    else if reg = 0x1C then (s.setRing q { r with cqTail := v }).logWrite req off old v
    else s.writePlain req off v

/-- RING_IRQ_HOLD_EXPIRY (R412): a raise that fell inside the span is made once, at its end. -/
def execRingIrqHoldExpiry (q : Nat) (s : State) : Result :=
  let r := s.ring q
  if s.power = .on ∧ r.deferred = true ∧ (r.lastIrq.all fun a => decide (a + s.fld (ringReg q 0x28) 0 16 ≤ s.etc)) then
    .next ((s.setRing q { r with deferred := false, lastIrq := some s.etc }).raise (s.fld (ringReg q 8) 11 8))
  else .next s

end Sys2Proof.Machine
end

