-- ==== Sys2Proof/Machine/Wake.lean ====
section
/-! DEFINITION. Wake video engines (15_wake_codec.md): job rings, sessions, frames in both directions, the reference pool's
marks, faults. A codec's own work stands outside the state: its samples and its bytes are operands (log entry 13). -/

namespace Sys2Proof.Machine

/-- Registers of engine w, and of its ring r. -/
def wakeReg (w off : Nat) : Nat := 0x03400000 + w * 0x20000 + off
def wakeRingReg (w r off : Nat) : Nat := wakeReg w (0x20 * r + off)

/-! ### What engine w keeps -/

/-- Session and job of a pipe, head and tail of its ring. -/
def Wake.session (x : Wake) (r : Nat) : Option Session := Tab.get none x.sessions r
def Wake.job (x : Wake) (r : Nat) : Option Job := Tab.get none x.jobs r
def Wake.headOf (x : Wake) (r : Nat) : Word := Tab.get 0 x.head r
def Wake.tailOf (x : Wake) (r : Nat) : Word := Tab.get 0 x.tail r
def Wake.mark (x : Wake) (b : Nat) : Mark := Tab.get .free x.marks b

def Wake.setSession (x : Wake) (r : Nat) (v : Option Session) : Wake := { x with sessions := Tab.put none x.sessions r v }
def Wake.setJob (x : Wake) (r : Nat) (v : Option Job) : Wake := { x with jobs := Tab.put none x.jobs r v }
def Wake.setMark (x : Wake) (b : Nat) (m : Mark) : Wake := { x with marks := Tab.put .free x.marks b m }

/-- Slots of a job ring. -/
def State.wakeSlots (s : State) (w r : Nat) : Nat := 2 ^ s.fld (wakeRingReg w r 0x28) 0 5

/-- DA of the job at count n (R329). -/
def State.jobDa (s : State) (w r : Nat) (n : Word) : Nat :=
  join (s.reg (wakeRingReg w r 0x20)) (s.reg (wakeRingReg w r 0x24)) + n.toNat % s.wakeSlots w r * 64

/-- WAKE_RING_TAIL_WRITE (R329, R345): READY and RUNNING only; a tail too far ahead is BAD_ARGUMENT. -/
def execWakeRingTailWrite (w r : Nat) (v : Word) (req : Requester) (s : State) : Result :=
  let off := wakeRingReg w r 0x30
  .next (s.onReg req off v fun s =>
    let x := s.wake w
    if s.dev ≠ .ready ∧ s.dev ≠ .running then s.logRefused req off .stateInvalid (x.tailOf r) v
    else if s.wakeSlots w r < (v - x.headOf r).toNat then s.logRefused req off .badArgument (x.tailOf r) v
    else s.setWake w { x with tail := Tab.put 0 x.tail r v })

/-! ### Job descriptor (Table WAKE.3) -/

def Job.word (j : Job) (i : Nat) : Word := j.words.getD i 0
def Job.op (j : Job) : Nat := bits (j.word 0) 0 4
def Job.key (j : Job) : Nat := bits (j.word 1) 0 24
def Job.layerTag (j : Job) : Nat := bits (j.word 2) 0 12
def Job.waitCtr (j : Job) : Nat := bits (j.word 3) 0 16
def Job.waitVal (j : Job) : Word := j.word 4
def Job.signalCtr (j : Job) : Nat := bits (j.word 3) 16 16
def Job.signalAdd (j : Job) : Nat := bits (j.word 5) 0 16
def Job.perFrame (j : Job) : Bool := bits (j.word 5) 16 1 == 1
def Job.data (j : Job) : Nat := join (j.word 6) (j.word 7) % 2 ^ 56
def Job.length (j : Job) : Nat := (j.word 8).toNat
def Job.frames (j : Job) : Nat := bits (j.word 9) 0 16
def Job.first (j : Job) : Nat := (j.word 10).toNat
def Job.refMask (j : Job) : Nat := bits (j.word 11) 0 16
def Job.longSlot (j : Job) : Nat := bits (j.word 11) 16 4
def Job.longStore (j : Job) : Bool := bits (j.word 11) 20 1 == 1
def Job.forceKey (j : Job) : Bool := bits (j.word 11) 21 1 == 1

/-- Reserved bits are 0, and the fields that only one op uses are 0 in the others (Table WAKE.3). -/
def Job.fieldsOk (j : Job) (r : Nat) : Bool :=
  decide (bits (j.word 0) 5 27 = 0) && decide (bits (j.word 1) 24 8 = 0) && decide (bits (j.word 2) 12 20 = 0) &&
  decide (bits (j.word 5) 17 15 = 0) && decide (bits (j.word 7) 24 8 = 0) && decide (bits (j.word 9) 16 16 = 0) &&
  decide (bits (j.word 11) 22 10 = 0) && j.word 12 == 0 && j.word 13 == 0 &&
  decide (1 ≤ j.op) && decide (j.op ≤ 3) && (j.op == 2 || j.word 8 == 0) &&
  (if j.op = 2 ∧ r = 1 then decide (1 ≤ j.frames) else decide (j.frames = 0))

/-! ### Session record (Table WAKE.4) -/

/-- `n` bytes of a session record as a number. -/
def Session.at_ (x : Session) (off n : Nat) : Nat := leNat n (x.record.drop off)
def Session.bitsAt (x : Session) (off lo n : Nat) : Nat := x.at_ off 4 / 2 ^ lo % 2 ^ n

def Session.encode (x : Session) : Bool := x.bitsAt 0 0 1 == 1
def Session.codec (x : Session) : Nat := x.bitsAt 0 1 2
def Session.packed (x : Session) : Bool := x.bitsAt 0 3 2 == 1
def Session.scale (x : Session) : Nat := 2 ^ x.bitsAt 0 5 2
def Session.bilinear (x : Session) : Bool := x.bitsAt 0 7 1 == 1
def Session.matrix (x : Session) : Bool := x.bitsAt 0 8 1 == 1
def Session.bufMask (x : Session) : Nat := x.bitsAt 0 16 16
def Session.width (x : Session) : Nat := x.bitsAt 4 0 16
def Session.height (x : Session) : Nat := x.bitsAt 4 16 16
def Session.outW (x : Session) : Nat := x.bitsAt 8 0 16
def Session.outH (x : Session) : Nat := x.bitsAt 8 16 16
def Session.pad (x : Session) : Nat := x.bitsAt 0xC 0 16
def Session.base (x : Session) : Nat := x.at_ 0x10 8 % 2 ^ 56
def Session.attr (x : Session) : Attr := attrOf (x.at_ 0x18 4)
def Session.gain (x : Session) (c : Nat) : Val := decodeLong fp32 (x.at_ (0x20 + 4 * c) 4)
def Session.offset (x : Session) (c : Nat) : Val := decodeLong fp32 (x.at_ (0x38 + 4 * c) 4)
def Session.m (x : Session) (i j : Nat) : Val := decodeLong fp32 (x.at_ (0x50 + 4 * (3 * i + j)) 4)
def Session.gir (x : Session) : Bool := x.bitsAt 0x74 1 1 == 1
def Session.keyInt (x : Session) : Nat := x.bitsAt 0x74 16 16

/-- Bytes of a position block (R334). -/
def Session.pb (x : Session) : Nat := if x.attr.fmt = fmtFp16 then 32 else 16

/-- Range of the region-of-interest table (R342); empty without regions. -/
def Session.roi (x : Session) : Nat × Nat :=
  if x.bitsAt 0x80 16 7 = 0 then (0, 0) else (x.at_ 0x88 8 % 2 ^ 56, 8 * x.bitsAt 0x80 16 7)

/-- Address of position (t, h, w) of the tensor (R334). -/
def Session.blockDa (x : Session) (t h w : Nat) : Nat := x.base + ((t * x.outH + h) * x.outW + w) * x.pb

/-- Range of tensor frame t. -/
def Session.frameRange (x : Session) (t : Nat) : Nat × Nat := (x.blockDa t 0 0, x.outH * x.outW * x.pb)

/-- Extent that a picture fills in the tensor: scaled, or halved for the packed layout. -/
def Session.extent (x : Session) (w h : Nat) : Nat × Nat :=
  let f := if x.packed then 2 else x.scale
  ((w + f - 1) / f, (h + f - 1) / f)

/-- Bits of a record that Table WAKE.4 names, as (offset, lowest bit, width). -/
def sessionUnnamed : List (Nat × Nat × Nat) :=
  [(0x00, 9, 7), (0x0C, 16, 16), (0x14, 24, 8), (0x1C, 0, 32), (0x74, 3, 5), (0x78, 8, 24), (0x80, 23, 9), (0x84, 0, 32),
   (0x8C, 24, 8)]

/-- Every reserved bit of a record is 0. -/
def Session.reservedOk (x : Session) : Bool :=
  (sessionUnnamed.all fun f => decide (x.bitsAt f.1 f.2.1 f.2.2 = 0)) && (x.record.drop 0x90).all (· == 0)

/-- The picture size is one of Table WAKE.1's. -/
def Session.sizeOk (x : Session) : Bool :=
  if x.encode then
    decide (x.codec < 2) && decide (128 ≤ x.width) && decide (x.width ≤ 7680) && decide (128 ≤ x.height) &&
    decide (x.height ≤ 4320) && decide (x.width % 8 = 0) && decide (x.height % 8 = 0)
  else
    decide (16 ≤ x.width) && decide (x.width ≤ 8192) && decide (16 ≤ x.height) &&
    decide (x.height ≤ if x.codec = 0 then 4352 else 4320)

/-- The encoder's own fields lie in their ranges (Table WAKE.4). -/
def Session.encodeOk (x : Session) : Bool :=
  (!x.gir || decide (2 ≤ x.bitsAt 0x74 8 8)) && (x.codec == 0 || decide (x.bitsAt 0x78 0 8 ≤ 51)) &&
  (x.bitsAt 0x74 0 1 == 0 || decide (1 ≤ x.bitsAt 0x80 0 16)) && decide (x.bitsAt 0x80 16 7 ≤ 64)

/-- Bytes of one pool buffer. -/
def State.bufBytes (s : State) (w : Nat) : Nat := s.fld (wakeReg w 0xC) 0 12 * 0x10000

/-- OPEN accepts a record for ring r of engine w (R332, R333). -/
def State.openOk (s : State) (w r : Nat) (x : Session) : Bool :=
  let (ew, eh) := x.extent x.width x.height
  x.reservedOk && decide (x.codec < 3) && decide (x.bitsAt 0 3 2 < 2) && decide (x.bitsAt 0 5 2 < 3) &&
  x.encode == (r == 1) && x.sizeOk && decide (x.base % 32 = 0) &&
  attrOk (x.at_ 0x18 4) && (x.attr.fmt == fmtFp16 || (x.attr.fmt == fmtY8A && !x.attr.blk)) && !x.attr.factor && x.attr.rnd != 5 &&
  !(x.packed && (x.scale != 1 || x.matrix)) && !(x.encode && (x.packed || x.scale != 1)) && (!x.encode || x.encodeOk) &&
  decide (ew ≤ x.outW) && decide (eh ≤ x.outH) &&
  (((s.wake w).session (1 - r)).all fun y => decide (y.bufMask &&& x.bufMask = 0)) &&
  decide (4 * (64 * ((x.width + 63) / 64)) * (64 * ((x.height + 63) / 64)) ≤ s.bufBytes w)

/-! ### Validation and start of a job (R331, R332) -/

/-- A range wholly within one region that a job may name, and apart from every tier name range. -/
def State.jobRangeOk (s : State) (flash : Bool) (da n : Nat) : Bool :=
  (decide (da + n ≤ duneEnd) || (decide (hostBase ≤ da) && decide (da + n ≤ hostEnd)) ||
    (flash && decide (flashBase ≤ da) && decide (da + n ≤ flashBase + s.flashBytes))) &&
  !(s.tier.tensors.any fun e => e.2.state != .unregistered && decide (n ≠ 0) &&
      decide (da < e.2.name + e.2.pages * tierPage) && decide (e.2.name < da + n))

/-- Buffers that a mask names. -/
def buffersOf (mask : Nat) : List Nat := (List.range 16).filter fun b => natBit mask b

/-- The most recently written SHORT buffer of a mask. -/
def Wake.newestShort (x : Wake) (mask : Nat) : Option Nat :=
  ((buffersOf mask).filter fun b => x.mark b == .short).foldl (fun best b =>
    match best with
    | none => some b
    | some a => if Tab.get 0 x.ages a < Tab.get 0 x.ages b then some b else best) none

/-- The frame that an encode job would code next is a key frame (R341, Table WAKE.4). -/
def Session.keyNext (x : Session) (j : Job) : Bool :=
  decide (x.frames = 0) || (decide (j.done = 0) && j.forceKey) ||
  (!x.gir && decide (x.keyInt ≠ 0) && decide (x.sinceKey = x.keyInt))

/-- RUN of an encode job passes the checks of R340. -/
def Wake.refsOk (x : Wake) (ss : Session) (j : Job) : Bool :=
  let n := (buffersOf j.refMask).length
  decide (j.refMask &&& ss.bufMask = j.refMask) && decide (2 ≤ n) &&
  !(j.longStore && (!natBit j.refMask j.longSlot || decide (n < 3))) &&
  (ss.keyNext j || (x.newestShort j.refMask).isSome)

/-- Validation of a fetched job (R332): none when it may run. -/
def State.jobFails (s : State) (w r : Nat) (j : Job) : Option Status :=
  let x := s.wake w
  let n := if j.op = 1 then 256 else j.length
  let rec_ : Session := ⟨s.load j.data 256, 0, 0, none⟩
  let bad :=
    !j.fieldsOk r ||
    (match x.session r with
      | none => decide (j.op ≠ 1)
      | some ss => decide (j.op = 1) || (decide (j.op = 2) && decide (r = 1) &&
          (!((List.range j.frames).all fun k => s.jobRangeOk false (ss.frameRange (j.first + k)).1 (ss.frameRange (j.first + k)).2) ||
            !s.jobRangeOk false ss.roi.1 ss.roi.2)) ||
        (decide (j.op = 2) && decide (r = 0) && !s.jobRangeOk false (ss.frameRange j.first).1 (ss.frameRange j.first).2)) ||
    (decide (j.op ≠ 3) && !s.jobRangeOk (decide (j.op = 2) && decide (r = 0)) j.data n)
  if bad then some .badArgument
  else if j.op = 1 then
    if s.readBad j.data 256 then some .internal else if s.openOk w r rec_ then none else some .badArgument
  else if j.op = 2 ∧ r = 1 then
    if (x.session 1).any fun ss => x.refsOk ss j then none else some .badArgument
  else none

/-- The engine may fetch a job of ring r: it runs, its ring is enabled and holds one, no job of it is in progress. -/
def State.wakeFetches (s : State) (w r : Nat) : Bool :=
  let x := s.wake w
  s.power == .on && s.hasWake && s.locked (26 + w) && x.state != .absent &&
  !x.testing && (x.job r).isNone && decide (x.headOf r ≠ x.tailOf r) && decide (s.fld (wakeRingReg w r 0x28) 5 1 = 1)

/-- The job at the head of a ring, as the engine reads it. -/
def State.fetchJob (s : State) (w r : Nat) : Job :=
  let da := s.jobDa w r ((s.wake w).headOf r)
  ⟨(List.range 16).map fun i => w32 (s.loadNat (da + 4 * i) 4), 0, 0, s.etc, none, false, [], 0, 0⟩

/-- Fetch and start the next job of ring r if its op is in `ops` (R329-R332, R345): a retired engine ends it with UNIT_ABSENT, a
device state other than READY and RUNNING with STATE_INVALID, a failed check with its status, without waiting; else it starts
once its counter has been reached. -/
def State.startJob (s : State) (w r : Nat) (ops : Nat → Bool) (go : State → Job → State) : State :=
  let j := s.fetchJob w r
  if !s.wakeFetches w r || !ops j.op then s
  else
    let fails := if (s.wake w).state = .retired then some Status.unitAbsent
      else if s.dev ≠ .ready ∧ s.dev ≠ .running then some .stateInvalid
      else if s.readBad (s.jobDa w r ((s.wake w).headOf r)) 64 then some .internal else s.jobFails w r j
    match fails with
    | some st => s.setWake w ((s.wake w).setJob r (some { j with ends := some st }))
    | none =>
      if j.waitCtr = 0xFFFF ∨ reached (s.ctr j.waitCtr) j.waitVal = true then
        let j := { j with ran := true }
        go (s.setWake w ((s.wake w).setJob r (some j))) j
      else s

/-- The buffers of a mask become FREE. -/
def Wake.freeMask (x : Wake) (mask : Nat) : Wake := (buffersOf mask).foldl (fun x b => x.setMark b .free) x

/-- End the session of a pipe (R333). -/
def Wake.closeSession (x : Wake) (r : Nat) : Wake :=
  match x.session r with
  | none => x
  | some ss => (x.freeMask ss.bufMask).setSession r none

/-- Nothing of the job of pipe r remains to run; it waits for its words to be written. -/
def State.jobEnds (s : State) (w r : Nat) (st : Status) : State :=
  match (s.wake w).job r with
  | none => s
  | some j => s.setWake w ((s.wake w).setJob r (some { j with ends := some st }))

/-- WAKE_OPEN (R333): the session record is read once and the session opens. -/
def execWakeOpen (w r : Nat) (host : List Cell) (s : State) : Result :=
  .next (if s.wakeFetches w r then
      (s.seeHost host).startJob w r (· == 1) fun s j =>
        (s.setWake w ((s.wake w).setSession r (some ⟨s.load j.data 256, 0, 0, none⟩))).jobEnds w r .ok
    else s)

/-- WAKE_CLOSE (R333): the session's buffers become FREE and its state is discarded. -/
def execWakeClose (w r : Nat) (s : State) : Result :=
  .next (s.startJob w r (· == 3) fun s _ => (s.setWake w ((s.wake w).closeSession r)).jobEnds w r .ok)

/-- Region i of a session's table (R342). -/
def State.regionAt (s : State) (x : Session) (i : Nat) : Interest :=
  let b (k : Nat) := (s.byte (x.roi.1 + 8 * i + k)).toNat
  ⟨b 0, b 1, b 2, b 3, if b 4 < 128 then (b 4 : Int) else (b 4 : Int) - 256⟩

/-- The table of a session's regions, lowest index first. -/
def State.regionsOf (s : State) (x : Session) : List Interest := (List.range (x.roi.2 / 8)).map (s.regionAt x)

/-- The table cannot be read, or an entry breaks R342: an offset beyond -63 to 63, or a byte 5 to 7 that is not 0. -/
def State.regionsEnd (s : State) (x : Session) : Option Status :=
  if x.roi.2 ≠ 0 ∧ s.readBad x.roi.1 x.roi.2 = true then some .internal
  else if (List.range (x.roi.2 / 8)).any fun i =>
    decide (63 < (s.regionAt x i).offset.natAbs) || decide (s.loadNat (x.roi.1 + 8 * i + 5) 3 ≠ 0) then some .badArgument
  else none

/-- The start of a RUN on ring r: an encode job reads its session's regions (R342). -/
def State.beginRun (s : State) (w r : Nat) (j : Job) : State :=
  match if r = 1 then (s.wake w).session 1 else none with
  | none => s
  | some x =>
    match s.regionsEnd x with
    | some st => s.jobEnds w r st
    | none => s.setWake w ((s.wake w).setJob r (some { j with regions := s.regionsOf x }))

/-- WAKE_RUN (R332): a RUN job starts; a reserved op is fetched here too, and fails. -/
def execWakeRun (w r : Nat) (host : List Cell) (s : State) : Result :=
  .next (if s.wakeFetches w r then
    (s.seeHost host).startJob w r (fun op => op != 1 && op != 3) fun s j => s.beginRun w r j else s)

/-! ### Decoded frames (R334, R335) -/

/-- The integer samples of a shown frame. -/
structure Picture where
  depth  : Nat
  width  : Nat
  height : Nat
  luma   : List Nat
  cb     : List Nat
  cr     : List Nat
  free   : Nat
deriving DecidableEq, Repr

/-- A sample of a plane; beyond the picture, which the rule does not reach, a free value. -/
def Picture.sample (p : Picture) (plane W H x y : Nat) : Nat :=
  let l := if plane = 0 then p.luma else if plane = 1 then p.cb else p.cr
  if x < W ∧ y < H then l.getD (y * W + x) 0
  else (Config.freeWord (p.free + (plane * 0x4000 + y) * 0x4000 + x)).toNat % 2 ^ p.depth

/-- A luma sample. -/
def Picture.y (p : Picture) (x y : Nat) : Nat := p.sample 0 p.width p.height x y

/-- Chroma extents. -/
def Picture.cw (p : Picture) : Nat := (p.width + 1) / 2
def Picture.ch (p : Picture) : Nat := (p.height + 1) / 2

/-- The neighbours of a luma coordinate on one axis, with weights in quarters, edges clamped. -/
def taps (x n : Nat) : List (Nat × Nat) :=
  let i := min (x / 2) (n - 1)
  let k := if x % 2 = 0 then i - 1 else min (i + 1) (n - 1)
  [(i, 3), (k, 1)]

/-- A chroma sample at a luma position, in sixteenths (R335 step 1). -/
def Picture.chroma16 (p : Picture) (bil : Bool) (plane x y : Nat) : Nat :=
  if p.width ≤ x ∨ p.height ≤ y then 16 * p.sample plane p.cw p.ch (x + p.cw) (y + p.ch)
  else if bil then
    ((taps y p.ch).map fun v => ((taps x p.cw).map fun u => u.2 * v.2 * p.sample plane p.cw p.ch u.1 v.1).sum).sum
  else 16 * p.sample plane p.cw p.ch (x / 2) (y / 2)

/-- The sample vector at a tensor position, as exact values (R335 steps 1 and 2). -/
def Session.vector (x : Session) (p : Picture) (h w : Nat) : List Val :=
  if x.packed then
    ([p.y (2 * w) (2 * h), p.y (2 * w + 1) (2 * h), p.y (2 * w) (2 * h + 1), p.y (2 * w + 1) (2 * h + 1),
      p.sample 1 p.cw p.ch w h, p.sample 2 p.cw p.ch w h]).map fun n => .fin false n 0
  else
    let f := x.scale
    let at_ : List (Nat × Nat) := (List.range f).flatMap fun j => (List.range f).map fun i => (f * w + i, f * h + j)
    let e : Int := -(2 * (x.bitsAt 0 5 2 : Int))
    [.fin false ((at_.map fun q => p.y q.1 q.2).sum) e,
     .fin false ((at_.map fun q => p.chroma16 x.bilinear 1 q.1 q.2).sum) (e - 4),
     .fin false ((at_.map fun q => p.chroma16 x.bilinear 2 q.1 q.2).sum) (e - 4)]

/-- Exact difference of an exact sample and an integer. -/
def lessInt (v : Val) (n : Nat) : Val :=
  match v with
  | .fin s m e =>
    let (a, b, k) := align s m e true n 0
    .fin (decide (a + b < 0)) (a + b).natAbs k
  | v => v

/-- Row i of the matrix applied to a vector (R335 step 3). -/
def Session.row (x : Session) (i : Nat) (v : List Val) : Flagged Val :=
  let a := mul32 (x.m i 0) (v.getD 0 .zero)
  let b := fma32 (x.m i 1) (v.getD 1 .zero) a.1
  let c := fma32 (x.m i 2) (v.getD 2 .zero) b.1
  (c.1, a.2 ||| b.2 ||| c.2)

/-- The values y_c of a position (R335 steps 3 and 4). -/
def Session.channels (x : Session) (p : Picture) (h w : Nat) : List (Flagged Val) :=
  let v := x.vector p h w
  let vs : List (Flagged Val) :=
    if x.matrix then
      let u := [v.getD 0 .zero, lessInt (v.getD 1 .zero) (2 ^ (p.depth - 1)), lessInt (v.getD 2 .zero) (2 ^ (p.depth - 1))]
      (List.range 3).map fun i => x.row i u
    else v.map fun a => (a, 0)
  vs.zipIdx.map fun q =>
    let y := fma32 (x.gain q.2) q.1.1 (x.offset q.2)
    (y.1, q.1.2 ||| y.2)

/-- Channels in use. -/
def Session.used (x : Session) : Nat := if x.packed then 6 else 3

/-- One position block of a decoded frame: the converted channels, or pad beyond the picture, and code 0 in the channels
not in use (R334, R335 step 5). -/
def Session.position (x : Session) (p : Picture) (t h w : Nat) : RunOut :=
  let (ew, eh) := x.extent p.width p.height
  let cw := x.pb / 2
  let ys := x.channels p h w
  let e := encRow x.attr none (ys.map fun y => (y.1, 0))
  let zeros := List.replicate (16 - x.used) 0
  let da := x.blockDa t h w
  if w < ew ∧ h < eh then
    { encOut x.attr e da 0 with
      writes := cellsAt da (packCodes (8 * cw / 8) (e.codes ++ zeros)), exc := ys.foldl (fun a y => a ||| y.2) e.exc }
  else { RunOut.empty with writes := cellsAt da (packCodes (8 * cw / 8) (List.replicate x.used x.pad ++ zeros)) }

/-- A whole decoded frame. -/
def Session.decodeFrame (x : Session) (p : Picture) (t : Nat) : RunOut :=
  ((List.range x.outH).flatMap fun h => (List.range x.outW).map fun w => (h, w)).foldl
    (fun a q => a.append (x.position p t q.1 q.2)) RunOut.empty

/-- Events of a Wake job's conversions enter its layer tag's counters; no crew made them, so they stand under the index past
the last crew (R335 step 5). -/
def State.countWake (s : State) (tag : Nat) (c : Counts) : State :=
  let key := 768 * 4096 + tag
  { s with lowp := { s.lowp with open_ := Tab.put Counts.empty s.lowp.open_ key ((Tab.get Counts.empty s.lowp.open_ key).add c) } }

/-- A frame's signal, when the job adds one after each frame (R331). -/
def State.frameSignal (s : State) (j : Job) : State :=
  if j.perFrame then (s.addCtr j.signalCtr (w32 j.signalAdd)).rewake else s

/-- The contents of pool buffers that the engine has written: its reconstructions are its own and their bytes free. -/
def State.freePool (s : State) (w : Nat) (bs : List Nat) : State :=
  let base := join (s.reg (wakeReg w 4)) (s.reg (wakeReg w 8))
  bs.foldl (fun s b => s.freeBytes (base + b * s.bufBytes w) (s.bufBytes w)) s

/-- Units that a decode job could not use, and the frames it skipped after them (R343): each unit is counted and logged. -/
def State.badUnits (s : State) (w : Nat) (j : Job) (bad skipped : Nat) : State :=
  let s := (s.bumpBy (wakeReg w 0x68) 0 16 bad).bumpBy (wakeReg w 0x68) 16 16 skipped
  (List.range bad).foldl (fun s k => s.emitUnit 7 w 2 evWake .badArgument [w32 j.key, w32 (j.bad + k + 1), w32 j.skipped]) s

/-- The engine writes buffers: each becomes its most recently written one (R340). -/
def Wake.touch (x : Wake) (bs : List Nat) : Wake :=
  bs.foldl (fun x b => { x with ages := Tab.put 0 x.ages b (x.clock + 1), clock := x.clock + 1 }) x

/-- The decoder's reference set after a unit (R339): the buffers it holds are marked DECODE, those it holds anew are written. -/
def State.holds (s : State) (w : Nat) (x : Session) (held : List Nat) : State :=
  let hs := (buffersOf x.bufMask).filter held.contains
  let anew := hs.filter fun b => (s.wake w).mark b != .decode
  let s := s.freePool w hs
  s.setWake w ((hs.foldl (fun k b => k.setMark b .decode) ((s.wake w).freeMask x.bufMask)).touch anew)

/-- A shown frame is written (R335, R337). A job is no task: R80 gives its flags no record, and the model puts those of a decode
job into GLOBAL_FP_EXC (log entry 83). -/
def State.showFrame (s : State) (w : Nat) (x : Session) (j : Job) (p : Picture) : State :=
  let o := x.decodeFrame p (j.first + j.done)
  let s := (s.write (w32 j.key) o.writes).countWake j.layerTag o.counts
  let s := ((s.stick 0x308 o.exc.toNat).stick 0x30C o.sticky.toNat).bump (wakeReg w 0x60) 0 32
  let k := (s.wake w).setSession 0 (some { x with frames := x.frames + 1 })
  (s.setWake w (k.setJob 0 (some { j with done := j.done + 1, since := s.etc }))).frameSignal j

/-- A decode unit is done (R335, R339, R343): one that needs buffers outside the session's mask, or whose picture is larger than
the session accepts, is bad; a hidden one (no width or height) moves the reference set alone; a shown one is written, unless its
tensor frame lies where a job may not write: then the job ends (log entry 84). -/
def State.decodeDone (s : State) (w : Nat) (x : Session) (j : Job) (p : Picture) (held : List Nat) (bad skipped : Nat) : State :=
  let s := s.badUnits w j bad skipped
  let j := { j with bad := j.bad + bad, skipped := j.skipped + skipped }
  let put (s : State) (j : Job) : State := s.setWake w ((s.wake w).setJob 0 (some j))
  if (held.any fun b => !natBit x.bufMask b) = true ∨ x.width < p.width ∨ x.height < p.height then
    put (s.badUnits w j 1 0) { j with bad := j.bad + 1 }
  else
    let s := put (s.holds w x held) j
    let r := x.frameRange (j.first + j.done)
    if p.width = 0 ∨ p.height = 0 then s
    else if s.jobRangeOk false r.1 r.2 = false then s.jobEnds w 0 .badArgument
    else s.showFrame w x j p

/-! ### Encoded frames (R336, R340-R342) -/

/-- Channel c of a tensor position, decoded and brought to v_c (R336 step 1). -/
def State.encodeValue (s : State) (x : Session) (t h w c : Nat) : Val :=
  let n := x.pb / 16
  let code := s.loadNat (x.blockDa t h w + c * n) n
  (fma32 (x.gain c) (decodeElem x.attr.fmt x.attr.sat none code 127).1 (x.offset c)).1

/-- The luma and chroma values of a position (R336 step 2). -/
def State.encodeVector (s : State) (x : Session) (t h w : Nat) : List Val :=
  let v := (List.range 3).map (s.encodeValue x t h w)
  if x.matrix then
    let half := Val.fin false 512 0
    [(x.row 0 v).1, (add32 (x.row 1 v).1 half).1, (add32 (x.row 2 v).1 half).1]
  else v

/-- An encoder's sample (R336 step 4): the value rounded to an integer and clamped to 10 bits, a NaN 0. -/
def sampleOf (v : Val) : Nat :=
  match v with
  | .nan _ => 0
  | v => min (toInt 32 .rne v).1.toNat 1023

/-- Whether a sample is counted, and whether it is a NaN (R336 step 4). -/
def sampleClamps (v : Val) : Bool × Bool :=
  match v with
  | .nan _ => (true, true)
  | v =>
    let k := (toInt 32 .rne v).1
    (decide (k < 0) || decide (1023 < k), false)

/-- The average of four values, in row-major order (R336 step 3). -/
def averageOf (vs : List Val) : Val :=
  (mul32 (.fin false 1 (-2)) ((vs.drop 1).foldl (fun a v => (add32 a v).1) (vs.getD 0 .zero))).1

/-- The values of plane c of tensor frame t before rounding, row-major (R336 steps 1 to 3). -/
def State.encodePlane (s : State) (x : Session) (t c : Nat) : List Val :=
  let v (h w : Nat) : Val := (s.encodeVector x t h w).getD c .zero
  if c = 0 then (List.range x.height).flatMap fun h => (List.range x.width).map (v h)
  else (List.range (x.height / 2)).flatMap fun h => (List.range (x.width / 2)).map fun w =>
    averageOf [v (2 * h) (2 * w), v (2 * h) (2 * w + 1), v (2 * h + 1) (2 * w), v (2 * h + 1) (2 * w + 1)]

/-! #### How a frame is coded (R341, R342) -/

/-- 64 x 64 blocks of a picture, across and down. -/
def Session.blocks (x : Session) : Nat × Nat := ((x.width + 63) / 64, (x.height + 63) / 64)

/-- Frames from the last key frame to the next frame. -/
def Session.frameNo (x : Session) (j : Job) : Nat := if x.keyNext j then 0 else x.sinceKey

/-- The intra band of the next frame under gradual intra refresh (R341); no block before its end predicts from samples at or
beyond its first unit. -/
def Session.band (x : Session) (j : Job) : Option Band :=
  if x.gir then
    let period := x.bitsAt 0x74 8 8
    let rows := x.bitsAt 0x74 2 1 == 1
    let b := ((if rows then x.blocks.2 else x.blocks.1) + period - 1) / period
    some ⟨rows, x.frameNo j % period * b, b⟩
  else none

/-- The offset of block (bx, by): that of the lowest-indexed region that covers it (R342). -/
def offsetAt (rs : List Interest) (bx by_ : Nat) : Int :=
  ((rs.find? fun r => decide (r.x0 ≤ bx) && decide (bx < r.x1) && decide (r.y0 ≤ by_) && decide (by_ < r.y1)).map (·.offset)).getD 0

/-- A base quantiser with an offset, in the codec's range (R342). -/
def Session.quantOf (x : Session) (base : Nat) (off : Int) : Nat :=
  if x.codec = 0 then min ((base : Int) + off).toNat 255 else min ((base : Int) + off.tdiv 4).toNat 51

/-- The base quantiser of a frame: the record's, or with a target bit rate the encoder's choice, which is free (R342). -/
def Session.baseQuant (x : Session) (free : Nat) : Nat :=
  if x.bitsAt 0x74 0 1 = 0 then x.bitsAt 0x78 0 8
  else (Config.freeWord free).toNat % (if x.codec = 0 then 256 else 52)

/-- The quantisers of a frame's blocks, row-major. -/
def Session.quants (x : Session) (j : Job) (free : Nat) : List Nat :=
  (List.range x.blocks.2).flatMap fun by_ => (List.range x.blocks.1).map fun bx =>
    x.quantOf (x.baseQuant free) (offsetAt j.regions bx by_)

/-- What the codec is given of tensor frame t. -/
def State.codedOf (s : State) (x : Session) (j : Job) (t : Nat) : Coded :=
  let plane (c : Nat) := (s.encodePlane x t c).map sampleOf
  ⟨x.keyNext j, x.band j, x.quants j s.fresh, plane 0, plane 1, plane 2⟩

/-- A position that an encoder reads cannot be read: within the picture's width and height only (R336). -/
def State.frameBad (s : State) (x : Session) (t : Nat) : Bool :=
  (List.range x.height).any fun h => s.readBad (x.blockDa t h 0) (x.width * x.pb)

/-- The least recently written of some buffers. -/
def Wake.oldest (x : Wake) (bs : List Nat) : Option Nat :=
  bs.foldl (fun best b =>
    match best with
    | none => some b
    | some a => if Tab.get 0 x.ages b < Tab.get 0 x.ages a then some b else best) none

/-- Marks after a frame (R340): the buffer its reconstruction goes to, and the engine with its new marks. -/
def Wake.reference (x : Wake) (j : Job) (key : Bool) : Option Nat × Wake :=
  let x := if key then x.freeMask j.refMask else x
  let used := if key then none else x.newestShort j.refMask
  let bs := buffersOf j.refMask
  if j.longStore ∧ j.done = 0 then
    let x := (bs.filter fun b => x.mark b == .long).foldl (fun x b => x.setMark b .free) x
    (some j.longSlot, x.setMark j.longSlot .long)
  else
    match x.oldest (bs.filter fun b => (x.mark b == .free || x.mark b == .short) && used != some b) with
    | some b => (some b, x.setMark b .short)
    | none => (none, x)

/-- A frame is encoded (R336, R340, R342): it is written with its reconstruction and its marks, or its bytes do not fit and
the job ends with everything as it stood before the frame. -/
def State.encodeDone (s : State) (w : Nat) (x : Session) (j : Job) (coded : List Byte) : State :=
  let t := j.first + j.done
  if s.frameBad x t then s.jobEnds w 1 .internal
  else if j.length < j.bytes + coded.length then s.jobEnds w 1 .badArgument
  else
    let cs := ((s.encodePlane x t 0) ++ (s.encodePlane x t 1) ++ (s.encodePlane x t 2)).map sampleClamps
    let key := x.keyNext j
    let c := s.codedOf x j t
    let s := { s with fresh := s.fresh + 1 }
    let s := s.write (w32 j.key) (cellsAt (j.data + j.bytes) coded)
    let s := (s.bumpBy (wakeReg w 0x6C) 0 32 (cs.filter (·.1)).length).stick 0x30C (if cs.any (·.2) then 8 else 0)
    let (b, k) := (s.wake w).reference j key
    let s := (s.bump (wakeReg w 0x64) 0 32).freePool w b.toList
    let k := k.touch b.toList
    let k := k.setSession 1 (some { x with
      frames := x.frames + 1, sinceKey := if key then 1 else x.sinceKey + 1, coded := some c })
    let j' := { j with done := j.done + 1, bytes := j.bytes + coded.length, since := s.etc }
    let s := (s.setWake w (k.setJob 1 (some j'))).frameSignal j
    if j'.done = j.frames then s.jobEnds w 1 .ok else s

/-- A RUN job of pipe r of a good engine that has frames left to run. -/
def State.runningJob (s : State) (w r : Nat) : Option (Session × Job) :=
  let x := s.wake w
  if s.power = .on ∧ s.locked (26 + w) = true ∧ x.state = .good then
    match x.session r, x.job r with
    | some ss, some j => if j.ends = none ∧ j.op = 2 then some (ss, j) else none
    | _, _ => none
  else none

/-- WAKE_FRAME_DONE (R335-R337, R339, R343): one frame of an encode job, or one unit of a decode job, is complete; `bad` units and
`skipped` frames came before it. -/
def execWakeFrameDone (w r depth width height : Nat) (luma cb cr : List Nat) (coded : List Byte) (held : List Nat)
    (bad skipped : Nat) (host : List Cell) (s : State) : Result :=
  match s.runningJob w r with
  | none => .next s
  | some (x, j) =>
    let s := s.seeHost host
    if r = 1 then .next (s.encodeDone w x j coded)
    else
      let p : Picture := ⟨depth, width, height, luma, cb, cr, s.fresh⟩
      let s := { s with fresh := s.fresh + 3 * 0x4000 * 0x4000 }
      .next (s.decodeDone w x j p held bad skipped)

/-! ### The end of a job (R329, R331, R343) -/

/-- Write words 14 and 15, advance HEAD, signal once, raise the vector, log an end that is not OK. -/
def State.endJob (s : State) (w r : Nat) (j : Job) (st : Status) (bytes bad skipped : Nat) : State :=
  let x := s.wake w
  let s := s.write (w32 j.key) (wordCells (s.jobDa w r (x.headOf r) + 56) [w32 bytes, w32 (st.code + j.done * 0x10000)])
  let s := s.setWake w ((({ x with head := Tab.put 0 x.head r (x.headOf r + 1) } : Wake)).setJob r none)
  let s := if st = .ok ∧ j.perFrame = false then s.addCtr j.signalCtr (w32 j.signalAdd) else s
  let s := if st = .ok then s else s.emitUnit 7 w 2 evWake st [w32 j.key, w32 bad, w32 skipped]
  let s := if bits (j.word 0) 4 1 = 1 then s.raise (s.fld (wakeReg w 0x10) 0 8) else s
  s.rewake

/-- A frame that a decode job does not finish: its writes are not held, so the engine has reached some of its 32-byte pieces and
not others (R337). Which ones, and what they hold, is free. -/
def State.cutFrame (s : State) (w r : Nat) : State :=
  match s.runningJob w r with
  | none => s
  | some (x, j) =>
    let f := x.frameRange (j.first + j.done)
    if r = 1 ∨ s.jobRangeOk false f.1 f.2 = false then s
    else (List.range ((f.1 + f.2 + 31) / 32 - f.1 / 32)).foldl (fun s k =>
      let lo := max f.1 (32 * (f.1 / 32 + k))
      let hi := min (f.1 + f.2) (32 * (f.1 / 32 + k) + 32)
      let fr := s.fresh
      let s := { s with fresh := fr + 1 }
      if (Config.freeWord fr).toNat % 2 = 1 then s.freeBytes lo (hi - lo) else s) s

/-- The bytes that a decode job had consumed when it was cut short, which no rule fixes. -/
def State.cutBytes (s : State) (r : Nat) (j : Job) : Nat :=
  if r = 0 ∧ j.ran = true ∧ j.op = 2 then (Config.freeWord s.fresh).toNat % (j.length + 1) else j.bytes

/-- A running job of engine w ends with INTERNAL. -/
def State.abortJob (s : State) (w r : Nat) : State :=
  match (s.wake w).job r with
  | none => s
  | some j =>
    let s := s.cutFrame w r
    let n := s.cutBytes r j
    let s := { s with fresh := s.fresh + 1 }
    s.endJob w r j (j.ends.getD .internal) n j.bad j.skipped

/-- WAKE_JOB_END (R331, R343): words 14 and 15 are written and HEAD advances. `bad` units and `skipped` frames came after the last
frame; `consumed` is what a decode job that ran had read of its bitstream. -/
def execWakeJobEnd (w r bad skipped consumed : Nat) (res : Ending) (s : State) : Result :=
  match (s.wake w).job r with
  | none => .next s
  | some j =>
    if s.power ≠ .on ∨ s.locked (26 + w) = false then .next s
    else
      let bytes := if r = 0 ∧ j.op = 2 then (if j.ran then min consumed j.length else 0) else j.bytes
      match j.ends with
      | some st => .next (s.endJob w r j st bytes j.bad j.skipped)
      | none =>
        let s := s.hostErr res
        if r = 1 then .next (if res = .ok then s else s.endJob w r j .internal bytes 0 0)
        else
          let s := s.badUnits w j bad skipped
          let j := { j with bad := j.bad + bad, skipped := j.skipped + skipped }
          if res ≠ .ok ∨ s.readBad j.data j.length = true then
            .next ((s.cutFrame w 0).endJob w r j .internal bytes j.bad j.skipped)
          else .next (s.endJob w r j (if j.bad ≠ 0 then .badArgument else .ok) bytes j.bad j.skipped)

/-! ### Faults (R344) -/

/-- A check failure or a watchdog: the engine's jobs end with INTERNAL, both sessions close, the self-test runs. -/
def State.wakeFault (s : State) (w : Nat) : State :=
  let s := (s.abortJob w 0).abortJob w 1
  s.setWake w { ((s.wake w).closeSession 0).closeSession 1 with testing := true }

/-- WAKE_FRAME_WATCHDOG (R344): a frame has taken longer than WAKE_FRAME_LIMIT; 0 names none. -/
def execWakeFrameWatchdog (w r : Nat) (s : State) : Result :=
  match s.runningJob w r with
  | none => .next s
  | some (_, j) =>
    let limit := (s.reg (wakeReg w 0x14)).toNat
    .next (if limit ≠ 0 ∧ j.since + limit + 1 ≤ s.etc then s.wakeFault w else s)

/-- WAKE_PARITY_FAIL (R344). -/
def execWakeParityFail (w : Nat) (s : State) : Result :=
  let x := s.wake w
  .next (if s.power = .on ∧ s.hasWake = true ∧ s.locked (26 + w) = true ∧ x.state = .good ∧ x.testing = false
    then s.wakeFault w else s)

/-- Retire engine w (R344): the Wake count falls by one; its jobs complete with UNIT_ABSENT. -/
def State.retireWake (s : State) (w cause : Nat) : State :=
  let x := s.wake w
  if x.state ≠ .good then s
  else
    let x := { (x.closeSession 0).closeSession 1 with state := .retired, cause := cause, testing := false }
    let s := (s.setWake w x).bump 0x274 28 4
    let s := s.emitUnit 7 w 2 evRetire .unitAbsent [w32 (unitId 7 w), w32 cause]
    (s.jobEnds w 0 .unitAbsent).jobEnds w 1 .unitAbsent

/-- WAKE_SELF_TEST_DONE (R344). -/
def execWakeSelfTestDone (w : Nat) (pass : Bool) (s : State) : Result :=
  let x := s.wake w
  if s.power = .on ∧ x.state = .good ∧ x.testing = true then
    .next (if pass then s.setWake w { x with testing := false } else s.retireWake w 1)
  else .next s

end Sys2Proof.Machine
end

