-- ==== Sys2Proof/Machine/View.lean ====
section
/-! DEFINITION. What a register shows (R8, R435, R447): most words stand in `regs`; a field that shows a unit's state is
computed from that unit. `State.view` is the value that a BAR0 read with GLOBAL_SNAP_CTRL.view = 0 returns. -/

namespace Sys2Proof.Machine

/-- Indices (i, j) of an offset in its row of the register map. -/
def RegDef.index (d : RegDef) (off : Nat) : Nat × Nat :=
  let r := off - d.base
  let i := if d.n1 ≤ 1 then 0 else r / d.s1
  let r' := if d.n1 ≤ 1 then r else r % d.s1
  (i, if d.n2 ≤ 1 then 0 else r' / d.s2)

/-- Number of the indices below `n` that a test selects, and the map of 32 of them from `lo` on. -/
def countOf (n : Nat) (p : Nat → Bool) : Nat := ((List.range n).filter p).length
def mapOf (lo : Nat) (p : Nat → Bool) : Nat := (List.range 32).foldl (fun a j => a + b2n (p (lo + j)) * 2 ^ j) 0

/-- Codes of unit states as registers show them. -/
def ScullState.code : ScullState → Nat
  | .good => 0 | .spare => 1 | .fused => 2 | .retired => 3
def UnitState.code : UnitState → Nat
  | .good => 0 | .absent => 2 | .retired => 3
def StackState.code : StackState → Nat
  | .online => 0 | .stopped => 1 | .failed => 2 | .offline => 3
def RingState.code : RingState → Nat
  | .disabled => 0 | .active => 1 | .halted => 2 | .draining => 3
def MbPhase.code : MbPhase → Nat
  | .idle => 0 | .running => 1 | .done => 2 | .offline => 3
def Mark.code : Mark → Nat
  | .free => 0 | .short => 1 | .long => 2 | .decode => 3
def CairnPhase.code : CairnPhase → Nat
  | .idle => 0 | .stopping => 1 | .copying => 2 | .draining => 3
def Variant.code : Variant → Nat
  | .yd1f => 0 | .yd1t => 1 | .yd1e => 2

/-! ### Capabilities (Table CSR.4) -/

def State.scullGood (s : State) (k : Nat) : Bool := decide (k < 12288) && (s.scull k).state == .good
def State.crewGood (s : State) (c : Nat) : Bool := decide (c < 768) && (s.crew c).state == .good
def State.stackCounts (s : State) (n : Nat) : Bool :=
  decide (n < 48) && ((s.dune n).state == .online || (s.dune n).state == .stopped)
def State.bowGood (s : State) (d : Nat) : Bool := decide (d < 16) && (s.erg d).bow == .good
def State.wakeGood (s : State) (w : Nat) : Bool := decide (w < 8) && (s.wake w).state == .good

/-- The identity and capability words. -/
def State.viewCap (s : State) (name : String) (i : Nat) : Nat :=
  match name with
  | "GLOBAL_ID" => 0xD1A0 + s.nv.variant.code * 0x10000 + Config.stepping.toNat * 0x100000
  | "GLOBAL_CAP_UNITS" =>
    mapOf 0 s.wakeGood + mapOf 0 s.bowGood * 0x100 +
      (if s.hasFlash then (if s.nv.variant = .yd1t then 1 else 2) else 0) * 0x1000000
  | "GLOBAL_CAP_COMPUTE" => countOf 12288 s.scullGood + countOf 768 s.crewGood * 0x4000 + s.lanes * 0x1000000
  | "GLOBAL_CAP_COUNTS" => countOf 48 s.stackCounts + countOf 16 s.bowGood * 0x40 + countOf 8 s.wakeGood * 0x800
  | "GLOBAL_CAP_STACK_LO" => mapOf 0 s.stackCounts
  | "GLOBAL_CAP_STACK_HI" => mapOf 32 s.stackCounts
  | "GLOBAL_SCULL_GOODi" => mapOf (32 * i) s.scullGood
  | _ => mapOf (32 * i) s.crewGood

/-! ### Sculls, crews, ergs -/

/-- Key and valid bit of the task that a unit runs. -/
def State.viewTask (s : State) (t : Option Nat) : Nat :=
  match t with
  | some id => (s.task id).key + 0x1000000
  | none => 0

def State.viewScull (s : State) (k : Nat) : Nat :=
  let u := s.scull k
  u.state.code + b2n u.task.isSome * 4 + b2n u.testing * 8 + u.inBank * 0x10 + (s.outstanding k).length * 0x100 +
    u.cause * 0x10000

def State.viewCrew (s : State) (c : Nat) : Nat :=
  (s.crew c).state.code + countOf 16 (fun i => s.scullGood (16 * c + i)) * 0x100 + (s.crew c).cause * 0x10000

def State.viewQueue (s : State) (c : Nat) : Nat :=
  (s.crew c).queue.length + (s.crew c).parked.length * 0x200 +
    ((List.range 16).map fun i => (s.scull (16 * c + i)).suspended.length).sum * 0x40000

def State.viewSeif (s : State) (c : Nat) : Nat :=
  let k := s.crew c
  let is (p : TaskState → Bool) : Nat := b2n (k.ctxHeld.any fun id => p (s.task id).state)
  k.ctxHeld.length + is (fun x => x == .running) * 4 + is (fun x => match x with | .suspended _ => true | _ => false) * 8 +
    b2n k.seifTest * 0x10

def State.viewPart (s : State) (c : Nat) : Nat :=
  s.fld (crewReg c 0x20) 0 8 + (s.crew c).serving.getD (s.fld (crewReg c 0x20) 0 3) * 0x100 + b2n (s.crew c).draining * 0x800

def State.viewBow (s : State) (d : Nat) : Nat :=
  let e := s.erg d
  e.bow.code + b2n e.bowTask.isSome * 4 + b2n e.bowTest * 8 + e.bowCause * 0x100

/-! ### Dies, stacks, engines -/

def State.viewDune (s : State) (n : Nat) : Nat :=
  let k := s.dune n
  k.state.code + k.band * 4 + k.bandMax * 0x20 + (4 - k.spares.length) * 0x100 + k.remap.length * 0x10000

def State.viewSpare (s : State) (n i : Nat) : Nat :=
  match (s.dune n).spares.find? fun p => p.1 == i with
  | some p => 128 + i + p.2 * 0x100 + 0x8000
  | none => 128 + i

/-- Word i of the record that LOWP_TAG_SEL names (R282): a crew's counts, or the module's; 0 before an evaluation has ended. -/
def State.viewTag (s : State) (i : Nat) : Word :=
  if s.fld 0x0202002C 16 16 = 0 then 0 else
  let tag := s.fld 0x02020030 0 12
  let crew := s.fld 0x02020030 12 10
  if crew = 0x3FF then (s.tagRecord tag).getD i 0
  else
    let c := Tab.get Counts.empty s.lowp.last (crew * 4096 + tag)
    [w32 c.elems, w32 (c.elems / 0x100000000), w32 c.sat, w32 c.zero, w32 c.nanz, w32 c.rsvd].getD i 0

def State.viewWake (s : State) (w : Nat) : Nat :=
  let x := s.wake w
  x.state.code + b2n (x.session 0).isSome * 4 + b2n (x.session 1).isSome * 8 + b2n x.testing * 0x10 + x.cause * 0x100

def State.viewPort (s : State) (p : Nat) : Nat :=
  let x := s.port p
  x.state.code + b2n x.x4 * 8 + b2n x.upper * 0x10 + (if x.state = .admitted then x.peer % 0x2000 else 0) * 0x100 +
    x.qcause * 0x1000000

def State.viewSchedPart (s : State) (p : Nat) : Nat :=
  countOf 768 (fun c => (s.crew c).state == .good && s.crewServes c == some p) +
    countOf 768 (fun c => s.fld (crewReg c 0x20) 0 3 == p && (s.crew c).serving.isSome) * 0x400

def State.viewCairn (s : State) : Nat :=
  let c := s.cairn
  c.phase.code + b2n c.lossWait * 4 + c.replay * 8 + b2n c.registered * 0x20 + c.newestT * 0x40 + b2n c.newestV * 0x80 +
    c.status.code * 0x10000

/-! ### GLOBAL, COX and HOST -/

def State.viewPwr (s : State) : Nat :=
  let p := s.pwr
  p.cap + b2n p.limited * 0x8000 + b2n ((List.range 16).any fun d => (s.erg d).issueLim) * 0x10000 +
    b2n (p.limited && p.flowLim == some p.cap) * 0x20000 + b2n (!p.hot.isEmpty) * 0x40000 + b2n (p.limited && p.vinLim == some p.cap) * 0x80000

def State.viewRoot (s : State) : Nat :=
  (List.range 4).foldl (fun a k => a + b2n (s.nv.roots.getD k [] != []) * 2 ^ k + b2n (s.nv.revoked.contains k) * 2 ^ (4 + k)) 0 +
    s.sec.slot * 0x100 + s.nv.minSvn * 0x400 + numAt s.nv.runImage 8 2 % 64 * 0x10000

/-- The guarded registers: committed value of pair r. -/
def guardReset (r : Nat) : Word := if r = 1 then 0x4E20 else if r = 2 then 0x035202A8 else 0
def State.guard (s : State) (r : Nat) : Guard := Tab.get ⟨guardReset r, none⟩ s.guards r
def State.setGuard (s : State) (r : Nat) (g : Guard) : State := { s with guards := Tab.put ⟨guardReset r, none⟩ s.guards r g }

/-- Committed value of pair r as a read returns it: the life-cycle code is the module's, the fuse word reads 0. -/
def State.guardValue (s : State) (r : Nat) : Word :=
  if r = 6 then w32 s.nv.lifecycle else if r = 7 then 0 else (s.guard r).committed

/-- Groups of GLOBAL_APPLY that some block has not applied (R442): seeds wait for the sculls that run an older task. -/
def State.applying (s : State) : Nat := if s.seeded.any fun k => (s.scull k).task.isSome then 8 else 0

/-- Properties of a life-cycle state (Table START.4, Table START.7). -/
def jtagOpen (lc : Nat) : Bool := lc == 0 || lc == 1 || lc == 3 || lc == 4
def jtagAuth (lc : Nat) : Bool := lc == 1 || lc == 3

/-- GLOBAL_LIFECYCLE (R463): the life-cycle state, the entries burnt, and what the state opens. -/
def Nv.lifecycleWord (v : Nv) : Word :=
  w32 (v.lifecycle + v.lcUsed * 0x10 + b2n v.flashKey * 0x800 + b2n (jtagOpen v.lifecycle) * 0x1000 + b2n (jtagAuth v.lifecycle) * 0x2000)

/-- GLOBAL registers whose word is computed. -/
def State.viewGlobal (s : State) (name : String) : Option Word :=
  match name with
  | "GLOBAL_ETC_LO" => some (w32 s.etc)
  | "GLOBAL_ETC_HI" => some (w32 (s.etc / 0x100000000))
  | "GLOBAL_BOOT_EPOCH" => some (w32 s.nv.epoch)
  | "GLOBAL_ISLAND_LOCK0" => some (w32 (mapOf 0 s.locked))
  | "GLOBAL_ISLAND_LOCK1" => some (w32 (mapOf 32 s.locked % 0x100))
  | "GLOBAL_APPLY" => some (w32 s.applying)
  | "GLOBAL_SNAP" => some 0
  | "GLOBAL_GUARD_STAT" =>
    some (setBits (s.reg 0x110) 26 1 (b2n ((List.range 8).any fun r => (s.guard r).pending.isSome)))
  | "GLOBAL_LIFECYCLE" => some s.nv.lifecycleWord
  | "GLOBAL_SEC_ID" => some (w32 (min s.nv.idIndex 0x100000 + s.nv.floors * 0x200000))
  | "GLOBAL_SEC_ATT" => some (w32 (s.sec.attUsed + b2n s.sec.attReady * 0x20000))
  | "GLOBAL_SEC_ROOT" => some (w32 s.viewRoot)
  | "GLOBAL_LOG_STAT" => some (w32 (s.log.ring.length + b2n s.persists * 0x8000))
  | "GLOBAL_LOG_NEXT_LO" => some (w32 s.log.next)
  | "GLOBAL_LOG_NEXT_HI" => some (w32 (s.log.next / 0x100000000))
  | "GLOBAL_PWR_STAT" => some (w32 s.viewPwr)
  | "GLOBAL_PWR_INPUT" => some (w32 (min s.pwr.watts 0xFFFF + min (s.pwr.vin / 10) 0xFFFF * 0x10000))
  | "GLOBAL_THERM_STAT" =>
    some (w32 (min s.pwr.tjMax 0xFF + min s.pwr.inlet 0xFF * 0x100 + min (s.pwr.flow / 10) 0xFFFF * 0x10000))
  | _ => none

def State.viewBox (s : State) (name : String) (m : Nat) : Option Word :=
  match name with
  | "COX_MB_DOORBELL" => some 0
  | "COX_MB_STAT" => some (w32 ((s.mb m).phase.code + (s.mb m).lastStatus.toNat * 0x10000))
  | "COX_STATE" => some (w32 (s.dev.code + s.fault * 0x100 + s.nv.failed * 0x10000))
  | _ => none

def State.viewHost (s : State) (name : String) (q : Nat) : Option Word :=
  let r := s.ring q
  match name with
  | "HOST_STAT" =>
    let h := s.host
    some (w32 (h.width + h.rate * 0x20 + b2n h.flit * 0x100 + b2n h.ideIo * 0x200 + b2n h.ideMem * 0x400))
  | "HOST_IDE" => some (setBits (s.reg 0x00200004) 0 1 (b2n s.ideRequired))
  | "LR_HEAD" => some r.head
  | "LR_TAIL" => some r.tail
  | "LR_CQ_TAIL" => some r.cqTail
  | "LR_CQ_HEAD" => some r.cqHead
  | "LR_STAT" => some (w32 (r.state.code + r.reserved * 4))
  | _ => none

/-- Faults of a list within erg d's window. -/
def State.recent (s : State) (d : Nat) (ts : List Nat) : Nat :=
  (within (s.reg (ergReg d 0x124)).toNat s.etc ts).length

def State.viewErg (s : State) (name : String) (off d j : Nat) : Option Word :=
  let c := 48 * d + j
  let k := 768 * d + j
  match name with
  | "SCULL_STAT" => some (w32 (s.viewScull k))
  | "SCULL_TASK" => some (w32 (s.viewTask (s.scull k).task))
  | "SCULL_RES_ERR" => some (setBits (s.reg off) 16 16 (s.recent d (s.scull k).resTimes))
  | "ERG_BEAT_LO" => some (w32 (s.beatsIn d 0 s.etc))
  | "ERG_BEAT_HI" => some (w32 (s.beatsIn d 0 s.etc / 0x100000000))
  | "ERG_COMMIT_STAT" => some (w32 (32768 - s.lcLines d - (s.erg d).used))
  | "ERG_CTR_i" => some (s.ctr (4096 * d + j))
  | "CREW_STAT" => some (w32 (s.viewCrew c))
  | "CREW_QSTAT" => some (w32 (s.viewQueue c))
  | "SEIF_STAT" => some (w32 (s.viewSeif c))
  | "CREW_PART" => some (w32 (s.viewPart c))
  | "ERG_BOW_STAT" => some (w32 (s.viewBow d))
  | "ERG_BOW_TASK" => some (w32 (s.viewTask (s.erg d).bowTask))
  | "ERG_BOW_ERR" => some (setBits (s.reg off) 16 16 (s.recent d (s.erg d).bowTimes))
  | "ERG_SCHED_STAT" => some (setBits (s.reg off) 0 16 (s.lcLines d - (s.erg d).lcUsed))
  | _ => none

def State.viewDie (s : State) (name : String) (off i j : Nat) : Option Word :=
  match name with
  | "KV_RING_HEAD" => some (s.kvHead i)
  | "KV_RING_TAIL" => some (s.kvTail i)
  | "KV_MOVER_STAT" =>
    some (setBits (setBits (s.reg off) 0 5 (min 16 (s.kv.swaps.filter (·.due)).length)) 5 1 (b2n (s.kv.swaps.any (·.waiting))))
  | "KV_CLAIM_STAT" => some (setBits (s.reg off) 0 13 s.kv.claims.length)
  | "LOWP_STAT" => some (w32 ((s.lowp.tags.filter (·.2.p2)).map fun e => e.2.need).sum)
  | "LOWP_TAG_DATAi" => some (s.viewTag i)
  | "TIER_CMD_STAT" => some (w32 (b2n s.tier.cmd.isSome + s.tier.status.code * 0x10000))
  | "TIER_POOL_STAT" => some (w32 s.freeFrames.length)
  | "SWEEP_PORT_STAT" => some (w32 (s.viewPort ([0, 5, 10, 14].getD i 0 + j)))
  | "SWEEP_PORT_TX" => some (w32 (min ((s.port ([0, 5, 10, 14].getD i 0 + j)).txBytes / 1024) 0xFFFFFFFF))
  | "SWEEP_PORT_RX" => some (w32 (min ((s.port ([0, 5, 10, 14].getD i 0 + j)).rxBytes / 1024) 0xFFFFFFFF))
  | "RIGGER_STAT" =>
    let claims := (s.colls.running.filter fun e => e.2.die == i && decide (0 < e.2.claim)).length
    some (w32 (256 - Tab.get 0 s.rigger i + claims * 0x10000))
  | "SWEEP_COLL_STAT" => some (setBits (s.reg off) 0 7 s.colls.running.length)
  | "SCHED_PART_p_STAT" => some (w32 (s.viewSchedPart i))
  | "SCHED_CMD_STAT" => some (w32 (b2n s.sched.busy + s.sched.status.code * 0x10000))
  | "CAIRN_STAT" => some (w32 s.viewCairn)
  | "CAIRN_NEWEST" => some s.cairn.newestId
  | "CAIRN_WINDOW" => some (w32 s.cairn.window)
  | _ => none

def State.viewStack (s : State) (name : String) (off n i : Nat) : Option Word :=
  let k := s.dune n
  match name with
  | "DUNE_STAT" => some (w32 (s.viewDune n))
  | "DUNE_THERM" => some (setBits (s.reg off) 0 8 k.temp)
  | "DUNE_CH_FAILi" => some (w32 (mapOf (32 * i) k.phyFailed.contains))
  | "DUNE_CH_FAIL4" => some (w32 (mapOf 128 k.phyFailed.contains % 16))
  | "DUNE_SPARE_k" => some (w32 (s.viewSpare n i))
  | "DUNE_WCB_STAT" => some (w32 k.wcb.length)
  | _ => none

def State.viewVideo (s : State) (name : String) (w r : Nat) : Option Word :=
  let x := s.wake w
  match name with
  | "WAKE_STAT" => some (w32 (s.viewWake w))
  | "WAKE_MARKS" => some (w32 ((List.range 16).foldl (fun a b => a + (x.mark b).code * 4 ^ b) 0))
  | "WAKE_RING_HEAD" => some (x.headOf r)
  | "WAKE_RING_TAIL" => some (x.tailOf r)
  | _ => none

/-- Words that stand outside the register tables: the buffers of the mailboxes (Table COX.2), the MSI-X table and its pending bits
(R413), and the doorbells, which read as TAIL (R406). -/
def State.viewArray (s : State) (off : Nat) : Option Word :=
  if 0x100000 ≤ off ∧ off < 0x120000 then
    let b := s.mb ((off - 0x100000) / 0x4000)
    let o := (off - 0x100000) % 0x4000
    let word (f : Nat → Byte) : Option Word := some (w32 (leNat 4 ((List.range 4).map f)))
    if o < 0x1000 then word fun i => Tab.get 0 b.cmd (o + i)
    else if o < 0x2000 then word fun i => b.rsp.getD (o - 0x1000 + i) 0
    else none
  else if 0x208000 ≤ off ∧ off < 0x209000 then
    some (if off % 16 = 12 then w32 (b2n (Tab.get true s.host.vecMask ((off - 0x208000) / 16))) else s.reg off)
  else if 0x209000 ≤ off ∧ off < 0x209020 then
    some (w32 ((List.range 32).foldl (fun a b =>
      a + b2n (Tab.get false s.host.vecPend ((off - 0x209000) * 8 + b)) * 2 ^ b) 0))
  else if 0x400000 ≤ off ∧ off < 0x600000 then
    some (if off % 0x1000 = 0 then (s.ring ((off - 0x400000) / 0x1000)).tail else 0)
  else none

/-- What a live read of an offset returns (R433, R437, R441, R447). -/
def State.view (s : State) (off : Nat) : Word :=
  if 0x4000 ≤ off ∧ off < 0x4020 then s.guardValue ((off - 0x4000) / 4)
  else if 0xC000 ≤ off ∧ off < 0xC020 then ~~~ s.guardValue ((off - 0xC000) / 4)
  else match regDef off with
  | none => (s.viewArray off).getD 0
  | some d =>
    let (i, j) := d.index off
    let name := d.name
    let caps := off < 0x20 ∨ (0x1000 ≤ off ∧ off < 0x2000)
    if s.absentAt off then 0
    else if caps then w32 (s.viewCap name i)
    else
      let shown :=
        if off < 0x00100000 then s.viewGlobal name
        else if off < 0x00200000 then s.viewBox name i
        else if off < 0x00400000 then s.viewHost name i
        else if off < 0x02000000 then s.viewErg name off i j
        else if off < 0x03000000 then s.viewDie name off i j
        else if off < 0x03400000 then s.viewStack name off i j
        else s.viewVideo name i j
      shown.getD (s.reg off)

end Sys2Proof.Machine
end

