-- ==== Sys2Proof/Machine/Cairn.lean ====
section
/-! DEFINITION. The Cairn engine (R500-R511): registration, takes, the stop window, drains, restores and the replay verdict. The
mailbox commands check and answer in Mailbox.lean; what they ask of the engine stands here. -/

namespace Sys2Proof.Machine

/-! ### Registration (R500-R502) -/

/-- Entries of a registration record (Table CAIRN.1). -/
def cairnEntries (p : List Byte) : List (Nat × Nat × Nat) :=
  (List.range (numAt p 2 2)).map fun i => (numAt p (0x20 + 32 * i) 8, numAt p (0x28 + 32 * i) 8, numAt p (0x30 + 32 * i) 8)

/-- A size rounded up to 4 KiB. -/
def roundPage (n : Nat) : Nat := (n + 4095) / 4096 * 4096

/-- Bytes that a target must hold: S of R501. -/
def targetBytes (es : List (Nat × Nat × Nat)) : Nat := 4096 + (es.map fun e => roundPage e.2.1).sum

/-- Entries with their offsets in a target (R501). -/
def withOffsets : Nat → List (Nat × Nat × Nat) → List (Nat × Nat × Nat × Nat)
  | _, [] => []
  | o, (b, n, sh) :: r => (o, b, n, sh) :: withOffsets (o + roundPage n) r

/-- Two ranges of an equal or different length overlap. -/
def overlap (a n b m : Nat) : Bool := decide (a < b + m) && decide (b < a + n) && decide (0 < n) && decide (0 < m)

/-- Every two ranges of a list are disjoint. -/
def disjointAll : List (Nat × Nat) → Bool
  | [] => true
  | (a, n) :: r => (r.all fun x => !overlap a n x.1 x.2) && disjointAll r

/-- Whole aligned ranges of one stack. -/
def oneStack (da n : Nat) : Bool :=
  decide (da % 256 = 0) && decide (n % 256 = 0) && decide (da + n ≤ duneEnd) && decide (stackOf da = stackOf (da + n - min n 1))

/-- A target's range is wholly in the host window, or in the Hamada window below the provisioned extent. -/
def State.targetIn (s : State) (t n : Nat) : Bool :=
  decide (t % 4096 = 0) && ((decide (hostBase ≤ t) && decide (t + n ≤ hostEnd)) ||
    (decide (flashBase ≤ t) && decide (t + n ≤ flashBase + s.flashBytes)))

/-- A target lies in the Hamada window. -/
def inFlash (t : Nat) : Bool := regionOf t == some .flash

/-- The presence check of a registration (R501), by bits [55:0] of each address (R23). -/
def State.cairnAbsent (s : State) (p : List Byte) : Bool :=
  (!s.hasFlash && (inFlash (numAt p 8 8 % 2 ^ 56) || inFlash (numAt p 0x10 8 % 2 ^ 56))) ||
  (cairnEntries p).any fun e => [e.1 % 2 ^ 56, e.2.2 % 2 ^ 56].any fun a =>
    let k := (s.dune (stackOf a)).state
    decide (a < duneEnd) && (k == .offline || k == .failed)

/-- The fields of a registration record are in their ranges (R501). -/
def State.cairnRecordOk (s : State) (p : List Byte) : Bool :=
  let es := cairnEntries p
  let n := numAt p 2 2
  let parts := numAt p 0 1
  let t0 := numAt p 8 8
  let t1 := numAt p 0x10 8
  let size := targetBytes es
  let (b1, p1) := s.nameRegion 1
  decide (p.length = 32 + 32 * n) && decide (1 ≤ n) && decide (n ≤ 120) && zeroAt p 1 1 && zeroAt p 4 4 && zeroAt p 0x18 8 &&
  ((List.range n).all fun i => zeroAt p (0x38 + 32 * i) 8) &&
  decide (parts ≠ 0) && ((List.range 8).all fun k => !natBit parts k || s.partEn k) &&
  (es.all fun e => oneStack e.1 e.2.1 && oneStack e.2.2 e.2.1 && decide (stackOf e.1 = stackOf e.2.2)) &&
  disjointAll (es.flatMap fun e => [(e.1, e.2.1), (e.2.2, e.2.1)]) &&
  ((List.range 48).all fun k => decide (((es.filter fun e => stackOf e.1 == k).map (·.2.1)).sum ≤ 0x200000000)) &&
  decide ((es.map (·.2.1)).sum ≤ 384 * 0x40000000) &&
  s.targetIn t0 size && s.targetIn t1 size && !overlap t0 size t1 size &&
  ([t0, t1].all fun t => !(inFlash t && overlap t size b1 (p1 * tierPage)))

/-- A drain or a loss wait is in progress. -/
def State.cairnBusy (s : State) : Bool := s.cairn.phase != .idle || s.cairn.lossWait

/-- The header of a target is that of a valid checkpoint of the registration (R502). -/
def State.headerOk (s : State) (t : Nat) : Bool :=
  let es := s.cairn.entries
  !s.readBad t 4096 && decide (s.loadNat t 4 = 1) && decide (s.loadNat (t + 4) 4 = 1) && decide (s.loadNat (t + 0xC) 4 = es.length) &&
  es.zipIdx.all fun e => decide (s.loadNat (t + 0x40 + 8 * e.2) 8 = e.1.2.1)

/-- DA of target index t. -/
def Cairn.target (c : Cairn) (t : Nat) : Nat := if t = 0 then c.target0 else c.target1

/-- A registration is accepted: the headers of both targets are read. -/
def State.cairnAccept (s : State) (p : List Byte) (host : List Cell) : State :=
  let s : State := { s.seeHost host with cairn := { s.cairn with
    registered := true, parts := numAt p 0 1, entries := cairnEntries p, target0 := numAt p 8 8, target1 := numAt p 0x10 8,
    replay := 0 } }
  let c := s.cairn
  let v0 := s.headerOk c.target0
  let v1 := s.headerOk c.target1
  let id0 := s.loadNat (c.target0 + 8) 4
  let id1 := s.loadNat (c.target1 + 8) 4
  let t := if v0 && v1 then (if id0 < id1 then 1 else 0) else b2n v1
  { s with cairn := { c with
    newestV := v0 || v1, newestT := t, newestId := if v0 || v1 then w32 (if t = 0 then id0 else id1) else 0 } }

/-! ### Copies between ranges -/

/-- `n` bytes move from one range to another: what the source lists, shifted; the poison of the destination is gone. -/
def State.copyRange (s : State) (src dst n : Nat) : State :=
  let cells := s.mem.filter fun (c : Nat × Byte) => decide (src ≤ c.1) && decide (c.1 < src + n)
  (s.dropRange dst (dst + n)).store (cells.map fun (c : Nat × Byte) => (dst + (c.1 - src), c.2))

/-- A stack serves reads and writes: ONLINE, its island locked (R38, R300). -/
def State.stackServes (s : State) (da : Nat) : Bool := (s.dune (stackOf da)).state == .online && s.locked (stackOf da / 3)

/-- A stack range cannot be read or written whole: its stack is not ONLINE, a channel of it has failed, or it holds poison. -/
def State.stackRangeBad (s : State) (da n : Nat) : Bool :=
  let k := s.dune (stackOf da)
  !s.stackServes da ||
  (s.poison.any fun (p : Nat) => decide (da < p * 8 + 8) && decide (p * 8 < da + n)) ||
  (k.chFailed.any fun (c : Nat) => (List.range (min 16 (n / 256))).any fun i => (da / 256 + i) % 16 == c / 8)

/-- A target can be written: flash that is open, or host memory. -/
def State.targetOpen (s : State) (t : Nat) : Bool := !inFlash t || s.flashOpen

/-- Bytes that a copy reads and writes are counted at their stacks (Table DUNE.5). -/
def State.countCopy (s : State) (src dst n : Nat) : State :=
  let s := if src < duneEnd then s.bump64 (duneReg (stackOf src) 0x64) n else s
  if dst < duneEnd then s.bump64 (duneReg (stackOf dst) 0x6C) n else s

/-! ### Outcomes (R507, Table CAIRN.4) -/

/-- Log an outcome of the engine and raise its vector: opcode of its command, checkpoint id. -/
def State.cairnLog (s : State) (sev : Nat) (st : Status) (pl : List Word) : State :=
  let s := s.emitFw sev evCommand st pl
  if s.fld 0x02090000 24 1 = 1 then s.raise (s.fld 0x02090000 16 8) else s

/-- A checkpoint fails: its target stays invalid, its crews are released, its id is taken again. -/
def State.cairnFail (s : State) : State :=
  let c := s.cairn
  let window := if c.phase = .draining ∨ c.phase = .idle then c.window else s.etc - c.grantedAt
  let s : State := { s with cairn := { c with
    phase := .idle, lossWait := false, lossDone := false, drained := false, status := .internal, window := window, takeId := 0 } }
  ((s.bump 0x02090010 16 16).cairnLog 2 .internal [w32 0x71, c.takeId]).rewake

/-- Step 6: the header with valid = 1 once the drain has ended and the loss is recorded. -/
def State.cairnFinish (s : State) : State :=
  let c := s.cairn
  if !(c.drained && c.lossDone) then s
  else if !s.targetOpen (c.target c.takeTarget) then s.cairnFail
  else
    let head := leBytes 4 1 ++ leBytes 4 1 ++ leBytes 4 c.takeId.toNat ++ leBytes 4 c.entries.length ++ leBytes 4 s.nv.epoch ++
      leBytes 4 0 ++ leBytes 8 c.copyEtc ++ leBytes 4 c.loss.toNat ++ List.replicate 28 0 ++
      (c.entries.flatMap fun e => leBytes 8 e.2.1)
    let s := s.write 0 (cellsAt (c.target c.takeTarget) ((head ++ List.replicate 4096 0).take 4096))
    let s : State := { s with cairn := { c with
      newestV := true, newestT := c.takeTarget, newestId := c.takeId, recorded := c.loss, drained := false, lossDone := false,
      status := .ok, takeId := 0 } }
    (s.bump 0x02090010 0 16).cairnLog 0 .ok [w32 0x71, c.takeId]

/-! ### Takes (R503-R506) -/

/-- The take is granted: its target's header is invalid from now on, and the crews take no task. -/
def State.cairnGrant (s : State) (da ctr : Nat) (v : Word) : State :=
  let c := s.cairn
  let t := if c.newestV then 1 - c.newestT else 0
  let id := if c.newestV then c.newestId + 1 else 1
  let s := s.write 0 (cellsAt (c.target t + 4) (leBytes 4 0))
  { s with cairn := { c with
    phase := .stopping, grantedAt := s.etc, drained := false, bytes := 0, lossWait := true, lossDone := false, lossDa := da,
    ctr := ctr, ctrVal := v, takeId := id, takeTarget := t } }

/-- Step 1 of a take whose target cannot be written ends the checkpoint: the flash program fails (Table CAIRN.4). -/
def State.cairnStarted (s : State) : State :=
  if s.targetOpen (s.cairn.target s.cairn.takeTarget) then s else s.cairnFail

/-- Tasks that run, or whose run ended and waits for its hand-back, on crews that serve a registered partition. -/
def State.cairnRunning (s : State) : List Nat :=
  (s.tasks.filter fun (e : Nat × Task) =>
    (match e.2.state with | .running => true | .ended _ => true | _ => false) &&
    (e.2.scull.any fun k => (s.crewServes (k / 16)).any fun p => natBit s.cairn.parts p)).map (·.1)

/-- CAIRN_DRAIN_US_EXPIRY (R504): drain_us after the grant, tasks still running are pre-empted. -/
def execCairnDrainUsExpiry (s : State) : Result :=
  let c := s.cairn
  if s.power = .on ∧ c.phase = .stopping ∧ c.grantedAt + s.fld 0x02090000 0 16 + 1 ≤ s.etc then
    .next (s.cairnRunning.foldl (fun (s : State) id => if (s.task id).state = .running then s.endRun id true else s) s)
  else .next s

/-- CAIRN_STOP_DRAINED (R504): no task runs on the stopped crews; the copy begins. -/
def execCairnStopDrained (s : State) : Result :=
  if s.power = .on ∧ s.cairn.phase = .stopping ∧ s.cairnRunning = [] then
    .next { s with cairn := { s.cairn with phase := .copying } }
  else .next s

/-- CAIRN_COPY_COMPLETE (R504, R507): every entry is in its shadow; the crews are released and the drain begins. -/
def execCairnCopyComplete (s : State) : Result :=
  let c := s.cairn
  if s.power = .on ∧ c.phase = .copying then
    if c.entries.any fun e => s.stackRangeBad e.1 e.2.1 || !s.stackServes e.2.2 then .next s.cairnFail
    else
      let s := c.entries.foldl (fun (s : State) e => (s.countCopy e.1 e.2.2 e.2.1).copyRange e.1 e.2.2 e.2.1) s
      .next { s with cairn := { s.cairn with phase := .draining, copyEtc := s.etc, window := s.etc - c.grantedAt } }
  else .next s

/-- CAIRN_DRAIN_COMPLETE (R504, R507): the shadows are in the target, or the target failed. -/
def execCairnDrainComplete (ok : Bool) (s : State) : Result :=
  let c := s.cairn
  if s.power = .on ∧ c.phase = .draining then
    if !ok || !s.targetOpen (c.target c.takeTarget) || (c.entries.any fun e => s.stackRangeBad e.2.2 e.2.1) then .next s.cairnFail
    else
      let t := c.target c.takeTarget
      let s := (withOffsets 4096 c.entries).foldl (fun (s : State) e =>
        (s.countCopy e.2.2.2 (t + e.1) e.2.2.1).copyRange e.2.2.2 (t + e.1) e.2.2.1) s
      .next { s with cairn := { s.cairn with phase := .idle, drained := true, bytes := (c.entries.map fun (e : Nat × Nat × Nat) => e.2.1).sum } }.cairnFinish
  else .next s

/-- A counter of a take or restore has reached its value; the id 0xFFFF means none (R116). -/
def State.cairnReached (s : State) (ctr : Nat) (v : Word) : Bool := ctr == 0xFFFF || reached (s.ctr ctr) v

/-- CAIRN_LOSS_READY (R506): the counter has reached its value; the loss is read and kept. -/
def execCairnLossReady (s : State) : Result :=
  let c := s.cairn
  if s.power = .on ∧ c.lossWait = true ∧ s.cairnReached c.ctr c.ctrVal = true then
    if s.readBad c.lossDa 4 then .next s.cairnFail
    else
      let c := { c with loss := w32 (s.loadNat c.lossDa 4), lossWait := false, lossDone := true }
      .next ({ s with cairn := c }.countRead c.lossDa 4).cairnFinish
  else .next s

/-! ### Restores (R508, R509) -/

/-- The copy of a restore from target t ends (R508): the live ranges hold the checkpoint, or an error leaves them undefined. -/
def State.restoreCopy (s : State) (t : Nat) (res : Ending) (host : List Cell) : Status × State :=
  let s := s.seeHost host
  let c := s.cairn
  let da := c.target t
  let bad := res != .ok || s.readBad da (targetBytes c.entries) || (c.entries.any fun e => !s.stackServes e.1)
  let s : State := { s with cairn := { c with restoring := none, status := if bad then .internal else .ok } }
  if bad then (.internal, c.entries.foldl (fun (s : State) e => s.freeBytes e.1 e.2.1) (s.hostErr res))
  else
    let s := (withOffsets 4096 c.entries).foldl (fun (s : State) e =>
      (s.countCopy (da + e.1) e.2.1 e.2.2.1).copyRange (da + e.1) e.2.1 e.2.2.1) s
    (.ok, { s with cairn := { s.cairn with
      newestV := true, newestT := t, newestId := w32 (s.loadNat (da + 8) 4), recorded := w32 (s.loadNat (da + 0x20) 4),
      replay := 1 } })

/-- An FP32 value in units of 2^-149; none: infinite or a NaN. -/
def fp32Units (w : Word) : Option Int :=
  let e := bits w 23 8
  let f := bits w 0 23
  if e = 255 then none
  else
    let m : Nat := if e = 0 then f else (f + 0x800000) * 2 ^ (e - 1)
    some (if bits w 31 1 = 1 then -(m : Int) else m)

/-- The restore is accepted: both values finite and |L - Lr| ≤ tolerance × |Lr|, exactly; a tolerance of 0 means 10^-3. -/
def replayAccepted (tol l lr : Word) : Bool :=
  match fp32Units l, fp32Units lr, fp32Units tol with
  | some a, some b, some t =>
    if t = 0 then decide (1000 * (a - b).natAbs ≤ b.natAbs) else decide ((a - b).natAbs * 2 ^ 149 ≤ t.natAbs * b.natAbs)
  | _, _, _ => false

/-- CAIRN_REPLAY_VERDICT (R509): the replay counter has reached its value; the replayed loss decides. -/
def execCairnReplayVerdict (s : State) : Result :=
  let c := s.cairn
  if s.power = .on ∧ c.replay = 1 ∧ s.cairnReached c.replayCtr c.replayVal = true then
    let l := w32 (s.loadNat c.replayDa 4)
    let ok := !s.readBad c.replayDa 4 && replayAccepted c.tolerance l c.recorded
    let s := { s with cairn := { c with replayed := l, replay := if ok then 2 else 3 } }.countRead c.replayDa 4
    .next (s.cairnLog (if ok then 0 else 2) .ok [w32 0x72, c.newestId, w32 (if ok then 2 else 3)])
  else .next s

end Sys2Proof.Machine
end

