-- ==== Sys2Proof/Machine/LogCmds.lean ====
section
/-! DEFINITION. The event log's own events (R496, R497): persistence to flash, suppression windows that close. -/

namespace Sys2Proof.Machine

/-- Records that the flash log area holds (R496). -/
def logAreaSize : Nat := 2 ^ 26

/-- Every waiting record is in the flash log area (R496); while island 34 is not locked, persistence pauses (Table RAS.4). -/
def State.persistLog (s : State) : State :=
  if s.persists && s.locked 34 then
    { s with log := { s.log with area := (s.log.ring.take s.log.waiting ++ s.log.area).take logAreaSize, waiting := 0 } }
  else s

/-- LOG_PERSIST (R496): records that wait are persisted; a span in which records were lost is reported once it has ended. -/
def execLogPersist (s : State) : Result :=
  if s.power = .on ∧ 0 < s.log.waiting then .next s.reportLoss.persistLog else .next s

/-- SUPPRESSION_WINDOW_CLOSE (R497): 100 ETC microseconds after the record that opened it window i closes. -/
def execSuppressionWindowClose (i : Nat) (s : State) : Result :=
  match s.log.windows[i]? with
  | some w => .next (if s.power = .on ∧ w.openedAt + 100 ≤ s.etc then s.closeWindow i else s)
  | none => .next s

end Sys2Proof.Machine
end

