-- ==== Sys2Proof/Machine/Start.lean ====
section
/-! DEFINITION. Starts (21_start_and_lifecycle.md): how a start begins, its nine steps, its failure and RECOVERY; the loss and
return of power; the entry into FAULTED (R416, R428). -/

namespace Sys2Proof.Machine

/-! ### Power cap in force (R515): wanted here because a start sets the cap back -/

/-- The least of the committed cap, the input limit, the flow limit and 20,000 W, with the lowest code that gives it. -/
def Pwr.settle (p : Pwr) (committed : Nat) : Pwr :=
  let v := min (min committed 20000) (min (p.vinLim.getD 20000) (p.flowLim.getD 20000))
  { p with
    cap := v
    capCode := if committed = v then 0 else if p.vinLim = some v then 1 else if p.flowLim = some v then 2 else 3 }

/-! ### The beginning of a start (R448, R449, R453, R454) -/

/-- Close every suppression window (R497). -/
def State.closeWindows (s : State) : Nat → State
  | 0 => s
  | n + 1 => if s.log.windows.isEmpty then s else (s.closeWindow 0).closeWindows n

/-- Units that the variant does not carry (Table SCOPE.1). -/
def absentErgs (v : Variant) : Tab Erg :=
  if v = .yd1e then (List.range 16).map fun d => (d, { Erg.init with bow := .absent }) else []
def absentWakes (v : Variant) : Tab Wake :=
  if v = .yd1f then [] else (List.range 8).map fun w => (w, { Wake.init with state := .absent })

/-- What a stack keeps across a start: its repair fuses (R296). -/
def keptStacks (d : Tab Stack) : Tab Stack :=
  d.foldl (fun a e => Tab.put Stack.init a e.1 { Stack.init with burnt := e.2.burnt }) []

/-- The condition of R449 that a requested warm start fails, if any. -/
def State.fallback (s : State) (good : Bool) : Nat :=
  if !s.start.held then 1 else if s.start.changed then 2 else if !s.start.lastGood then 3 else if !good then 4 else 0

/-- A start begins (R448, R449, R453, R454): the old boot is sealed on a warm start; every register, counter and unit takes
its reset value; the boot epoch rises, modulo 2^32 (log entry 82), and ETC starts at 0. The wipe of memory is step 8. -/
def State.beginStart (s : State) (kind : StartKind) (cause : Nat) (good : Bool) : State :=
  let fb := if kind = .warm then s.fallback good else 0
  let warm := decide (kind = .warm) && decide (fb = 0)
  let crash := (s.dev.code, s.fault, (List.range 9).map fun m => (s.mb m).lastOp)
  let s := if warm then (s.closeWindows s.log.windows.length).emit 0 0 0 evSeal .ok [] else s
  let start : Start :=
    { Start.init with
      kind := if warm then 1 else if kind = .warm then 2 else 0
      cause := cause
      fallback := fb
      fromState := if warm then crash.1 else 0xFF }
  { State.reset with
    pending := s.pending, fresh := s.fresh, tx := s.tx, start := start
    nv := { s.nv with epoch := (s.nv.epoch + 1) % 2 ^ 32 }
    log := if warm then { s.log with windows := [] } else { Log.init with area := s.log.area }
    crash := if warm then some crash else none
    mem := s.mem, poison := s.poison
    dunes := keptStacks s.dunes, ergs := absentErgs s.nv.variant, wakes := absentWakes s.nv.variant
    pwr := { s.pwr with limited := false, hot := [] }.settle 20000 }

/-! ### Power (R514, R520) -/

/-- Power is lost: what a start would clear is lost at once; fuses, non-volatile store, flash and host memory stay. -/
def State.powerDown (s : State) (p : Power) : State :=
  { State.reset with
    pending := s.pending, fresh := s.fresh, tx := .pwrGood false :: s.tx, power := p, pwrGood := false, timer := false
    start := { Start.init with step := 0, held := false }
    nv := s.nv, log := { Log.init with area := s.log.area }
    mem := s.mem.filter fun c => decide (hostBase ≤ c.1) && decide (c.1 < flashEnd)
    dunes := keptStacks s.dunes, ergs := absentErgs s.nv.variant, wakes := absentWakes s.nv.variant }

/-- Power comes back and a cold start begins. -/
def State.powerUp (s : State) : State :=
  let s := s.beginStart .cold 0 false
  { s with tx := .pwrGood true :: s.tx }

/-- POWER_APPLIED (R448): the input is applied to a module without power, one latched off included (R520). -/
def execPowerApplied (s : State) : Result := .next (if s.power = .on then s else s.powerUp)

/-- INPUT_SWITCH_OFF (R514). -/
def execInputSwitchOff (s : State) : Result := .next (if s.power = .on then s.powerDown .off else s)

/-- POWER_RESTORE (R514): the input has stayed good for 100 ms after a switch-off; not after a thermal one (R520). -/
def execPowerRestore (s : State) : Result := .next (if s.power = .off then s.powerUp else s)

/-- RESET_N (R521): a low pulse of 1 µs or more with power held; its release begins a warm start. -/
def execResetN (lowNs : Nat) (good : Bool) (s : State) : Result :=
  .next (if s.power = .on ∧ 1000 ≤ lowNs then s.beginStart .warm 1 good else s)

/-- START_DELAY_EXPIRY (R448): 100 µs after the commit or the response that announced it the start begins. -/
def execStartDelayExpiry (good : Bool) (s : State) : Result :=
  match s.start.delayed with
  | some (kind, cause, due) =>
    .next (if s.power = .on ∧ s.start.retryAt = false ∧ due ≤ s.etc then s.beginStart kind cause good else s)
  | none => .next s

/-- START_RETRY (R455): 100 ms after a failure. -/
def execStartRetry (s : State) : Result :=
  match s.start.delayed with
  | some (_, _, due) =>
    .next (if s.power = .on ∧ s.start.retryAt = true ∧ due ≤ s.etc then s.beginStart .cold 6 false else s)
  | none => .next s

/-! ### Failure and RECOVERY (R451, R455, R457) -/

/-- Enter RECOVERY: the ROM serves the mailboxes that can be reached. -/
def State.enterRecovery (s : State) : State :=
  let s := { s with start := { s.start with rom := true, step := 0 } }.setDev .recovery 0
  s.serve (if s.host.rate = 0 then [8] else List.range 9)

/-- The start in progress fails. -/
def State.failStart (s : State) (cause : Nat) : State :=
  let n := s.start.step
  let s := { s with nv := { s.nv with failed := min 3 (s.nv.failed + 1), failStep := n } }
  let s := s.emitFw 2 evStartStep .startFailed [w32 n, w32 (s.etc / 1000), w32 cause]
  let s := { s with start := { s.start with step := 0 } }
  if s.nv.failed < 3 then s.delayStart .cold 6 (s.etc + 100000) true
  else s.enterRecovery

/-- A lockstep mismatch, the watchdog or a fatal fault (R416, R424, R428, Table COX.3): a start in progress fails; FAULTED
keeps its first cause; otherwise the device enters FAULTED and the ROM ends every running command. -/
def State.enterFaulted (s : State) (cause : Nat) : State :=
  match s.dev with
  | .starting => if s.start.step = 0 then s else s.failStart cause
  | .recovery | .retired => s
  | .faulted => s.emit 0 1 3 evState .internal [6, 6, w32 cause]
  | _ =>
    let s := { s with fault := cause, start := { s.start with rom := true } }
    (s.setDev .faulted cause).failBoxes

/-- LOCKSTEP_MISMATCH (R416). -/
def execLockstepMismatch (s : State) : Result := .next (if s.power = .on then s.enterFaulted 1 else s)

/-- COX_WATCHDOG_EXPIRY (R416). -/
def execCoxWatchdogExpiry (s : State) : Result := .next (if s.power = .on then s.enterFaulted 2 else s)

/-- ENTROPY_HEALTH_FAIL (R467): during a start the security block's self-test fails; after it the generator stops and the
device enters FAULTED with cause 0x03. -/
def execEntropyHealthFail (s : State) : Result :=
  if s.power ≠ .on then .next s
  else
    let s := s.secFail .internal 8
    if s.dev = .starting then .next (if s.start.step = 0 then s else s.failStart 0)
    else .next ({ s with sec := { s.sec with rngStop := true } }.enterFaulted 3)

/-! ### The steps (Table START.2) -/

/-- A step ends normally: its record, and the next step begins. -/
def State.endStep (s : State) : State :=
  let n := s.start.step
  let s := s.emitFw 0 evStartStep .ok [w32 n, w32 (s.etc / 1000), 0]
  { s with start := { s.start with step := n + 1, at_ := s.etc } }

/-- Step 1: fuses (R452, R483): the peers' life-cycle mask from the module's own state. -/
def State.stepFuse (s : State) (r : StepReport) : State :=
  if r.fuseBad then s.failStart 0
  else
    let lc := s.nv.lifecycle
    let s := s.setFld 0x24C 0 6 (if lc = 2 ∨ lc = 3 then 0xC else 2 ^ lc)
    (if s.start.logOpen then s else s.openBoot).endStep

/-- Step 2: the ROM boots; mailbox 8 is served; a start that began with three failures stops here (R457). -/
def State.stepRom (s : State) (r : StepReport) : State :=
  if r.lockstepBad then s.failStart 1
  else if r.secBad then (s.secFail .internal 8).failStart 0
  else
    let s := s.endStep.serve [8]
    if 3 ≤ s.nv.failed then s.enterRecovery else s

/-- A start in any state but RETIRED that finds no flash key creates one; the flash then reads as zero (R464). -/
def State.makeFlashKey (s : State) : State :=
  if s.nv.lifecycle = 5 ∨ s.nv.flashKey = true ∨ s.nv.variant = .yd1e then s
  else
    { s with
      nv := { s.nv with flashKey := true, badPages := [] }
      sec := { s.sec with draws := s.sec.draws + 1 } }.dropRange flashBase flashEnd

/-- Step 3: the boot image is verified and the firmware runs (R469). -/
def State.stepVerify (s : State) : State :=
  let img := s.nv.bootImage
  if s.imageOk img then
    let s := s.endStep
    { s with
      nv := { s.nv with runImage := img }
      sec := { s.sec with slot := (s.rootSlot (imgRoot img)).getD 0 }
      start := { s.start with rom := false, keyAt := s.etc } }.makeFlashKey
  else (s.secFail .authFailed 0).failStart 0

/-- Step 4: PHY training; with the CXL link up the host's mailboxes are served. -/
def State.stepPhy (s : State) (r : StepReport) : State :=
  let s := r.phyFail.foldl (fun s p => s.setDune p.1 { s.dune p.1 with phyFailed := (s.dune p.1).phyFailed ++ [p.2] }) s
  let s := { s with host := { s.host with width := if r.linkRate = 0 then 0 else r.linkWidth, rate := r.linkRate, flit := r.flit } }
  (if r.linkRate = 0 then s else s.serve (List.range 8)).endStep

/-- Count of GOOD sculls of a crew. -/
def State.goodSculls (s : State) (c : Nat) : Nat :=
  ((List.range 16).filter fun i => (s.scull (16 * c + i)).state == .good).length

/-- A scull that fails the full test at three consecutive cold starts is fused off (R452). -/
def State.noteTest (s : State) (k : Nat) (bad : Bool) : State :=
  let n := if bad then Tab.get 0 s.nv.testFails k + 1 else 0
  if n < 3 then { s with nv := { s.nv with testFails := Tab.put 0 s.nv.testFails k n } }
  else { s with nv := { s.nv with testFails := Tab.put 0 s.nv.testFails k 0, fused := insertSorted k s.nv.fused } }.burnFuse 0 k

/-- Step 5: the outcome of the self-tests (R452, R104, R256, R344). -/
def State.stepTest (s : State) (r : StepReport) : State :=
  let cold := decide (s.start.kind ≠ 1)
  let fused := s.nv.fused
  let spares := s.nv.spareSculls.filter fun k => !fused.contains k
  let bad := r.sculls.filter fun k => !fused.contains k
  let s := fused.foldl (fun s k => s.setScull k { s.scull k with state := .fused }) s
  let s := spares.foldl (fun s k => s.setScull k { s.scull k with state := .spare }) s
  let s := bad.foldl (fun s k => (s.setScull k { s.scull k with state := .good }).retireOne k 2) s
  let s := (spares.filter fun k => !bad.contains k).foldl (fun s k =>
    if s.goodSculls (k / 16) < Tab.get 16 s.nv.goodCount (k / 16) then s.setScull k { s.scull k with state := .good } else s) s
  let s := if cold then
      ((s.nv.testFails.map (·.1)).filter fun k => !bad.contains k).foldl (fun s k => s.noteTest k false)
        (bad.foldl (fun s k => s.noteTest k true) s)
    else s
  let s := r.seifs.foldl (fun s c => s.retireCrew c 1) s
  let s := ((bad ++ fused ++ spares).map (· / 16)).dedup.foldl (fun s c => if s.goodSculls c = 0 then s.retireCrew c 4 else s) s
  let s := r.bows.foldl (fun s d => s.retireBow d 1) s
  let s := r.wakes.foldl (fun s w => s.retireWake w 1) s
  if (List.range 768).any fun c => (s.crew c).state == .good then s.endStep else s.failStart 0

/-- Spares in use when the physical channels of a list are out of use: (spare, logical channel), in order (R297). -/
def spareMap (gone : List Nat) : List (Nat × Nat) :=
  ((List.range 4).filter fun i => !gone.contains (128 + i)).zip (gone.filter fun p => decide (p < 128))

/-- The physical channel of a logical one under a spare map. -/
def physOf (m : List (Nat × Nat)) (l : Nat) : Nat := ((m.find? fun p => p.2 == l).map fun p => 128 + p.1).getD l

/-- Step 6 for one stack (R296-R298): pending row repairs are burnt or stay soft; pending channels take spares, or the stack is
OFFLINE. -/
def State.repairStack (s : State) (r : StepReport) (n : Nat) : State :=
  let k := s.dune n
  let mine : List (Nat × Nat × Nat × Nat) := s.nv.repairs.filter fun e => e.1 == n
  let soft : List (Nat × Nat × Nat × Nat) := mine.filter r.refused.contains
  let hard : List (Nat × Nat × Nat × Nat) := mine.filter fun e => !r.refused.contains e
  let old := (s.nv.chReplaced.filter fun e => e.1 == n).map (·.2)
  let pend := ((s.nv.chRepairs.filter fun e => e.1 == n).map fun e => physOf (spareMap old) e.2) ++ k.phyFailed
  let gone := old ++ (pend.filter fun p => !old.contains p).dedup
  let fits := decide ((gone.filter fun p => decide (p < 128)).length ≤ 4 - (gone.filter fun p => decide (128 ≤ p)).length)
  let nv : Nv := { s.nv with repairs := (s.nv.repairs.filter fun e => e.1 != n) ++ soft }
  let nv : Nv := if fits then
      { nv with chRepairs := nv.chRepairs.filter fun e => e.1 != n
                chReplaced := (nv.chReplaced.filter fun e => e.1 != n) ++ gone.map fun p => (n, p) }
    else nv
  { s with nv := nv }.setDune n
    { k with
      state := if fits then .online else .offline
      remap := soft.map Prod.snd
      burnt := k.burnt ++ hard.map Prod.snd
      phyFailed := gone
      spares := if fits then spareMap gone else spareMap old }

/-- Step 6. -/
def State.stepRemap (s : State) (r : StepReport) : State :=
  let touched := (s.nv.repairs.map (·.1) ++ s.nv.chRepairs.map (·.1) ++ s.nv.chReplaced.map (·.1) ++ r.phyFail.map (·.1) ++
    s.dunes.map (·.1)).dedup
  let s := (touched.filter fun n => decide (n < 48)).foldl (fun s n => s.repairStack r n) s
  if (List.range 48).any fun n => (s.dune n).state == .online then s.endStep else s.failStart 0

/-- Step 7 (R35): a cold start calibrates every delay line from scratch, without added taps; a warm start restores the stored
calibration, and calibrates from scratch the lines that fail the check against their monitor. Each erg's least margin is
measured (Table BEAT.6). -/
def State.stepCal (s : State) (r : StepReport) : State :=
  let fails := r.calFails.map fun x => lineKey x.1 x.2
  let taps := if s.start.kind ≠ 1 then [] else s.nv.taps.filter fun e => !fails.contains e.1
  let s := { s with nv := { s.nv with taps := taps } }
  ((r.margins.zipIdx.take 16).foldl (fun s m => s.setFld (ergReg m.2 0x10C) 0 16 m.1) s).endStep

/-- Step 8: every ONLINE stack and every SRAM is wiped (R453). -/
def State.stepWipe (s : State) : State :=
  let stays (da : Nat) : Bool :=
    if da < duneEnd then (s.dune (stackOf da)).state != .online else decide (da < crewBase)
  { s with mem := s.mem.filter fun c => stays c.1, poison := s.poison.filter fun p => stays (8 * p) }.endStep

/-- The running image's flags act once READY is reached (R470). -/
def State.imageFlags (s : State) : State :=
  let img := s.nv.runImage
  let s := if natBit (numAt img 0xA 1) 0 ∧ s.nv.minSvn < imgSvn img then
      { s with nv := { s.nv with minSvn := imgSvn img } }.burnFuse 3 (imgSvn img)
    else s
  if natBit (numAt img 0xA 1) 1 then
    (List.range 4).foldl (fun s k =>
      if natBit (numAt img 0xB 1) k ∧ k ≠ s.sec.slot ∧ s.nv.revoked.contains k = false then
        { s with nv := { s.nv with revoked := insertSorted k s.nv.revoked } }.burnFuse 4 k
      else s) s
  else s

/-- Step 9: the attestation key is ready; the start reaches READY, or RETIRED (R450, R455, R465). -/
def State.stepReady (s : State) (r : StepReport) : State :=
  let s := (s.certifyKey r.storeBad).endStep
  let s := { s with nv := { s.nv with failed := 0 }, start := { s.start with step := 0, lastGood := true } }
  let word := s.start.kind + s.start.cause * 4 + s.start.fallback * 0x40 + min (s.etc / 1000) 0xFFFF * 0x10000
  let s := s.setReg 0x220 (w32 word)
  if s.nv.lifecycle = 5 then s.setDev .retired 0 else (s.setDev .ready 0).imageFlags

/-- START_STEP_COMPLETE (R450). -/
def execStartStepComplete (r : StepReport) (s : State) : Result :=
  if s.power ≠ .on ∨ s.dev ≠ .starting then .next s
  else match s.start.step with
    | 1 => .next (s.stepFuse r)
    | 2 => .next (s.stepRom r)
    | 3 => .next s.stepVerify
    | 4 => .next (s.stepPhy r)
    | 5 => .next (s.stepTest r)
    | 6 => .next (s.stepRemap r)
    | 7 => .next (s.stepCal r)
    | 8 => .next s.stepWipe
    | 9 => .next (s.stepReady r)
    | _ => .next s

/-- Limit of a step in ms (Table START.2). -/
def stepLimit (cold : Bool) : Nat → Nat
  | 1 => 5 | 2 => 30 | 3 => 100 | 4 => 1000 | 5 => if cold then 4000 else 20 | 6 => 500 | 7 => 200 | 8 => 100 | _ => 1500

/-- START_STEP_TIMEOUT (R451): step 9 waits at most 1,500 ms after the end of step 3. -/
def execStartStepTimeout (s : State) : Result :=
  let n := s.start.step
  let from_ := if n = 9 then s.start.keyAt else s.start.at_
  if s.power = .on ∧ s.dev = .starting ∧ n ≠ 0 ∧ from_ + stepLimit (decide (s.start.kind ≠ 1)) n * 1000 + 1 ≤ s.etc then
    .next (((if n = 9 then s.secFail .authFailed 3 else s)).failStart 0)
  else .next s

end Sys2Proof.Machine
end

