-- ==== Sys2Proof/Machine/Power.lean ====
section
/-! DEFINITION. The power-management controller (25_power_thermal_mechanical.md): limits and the cap in force, core voltages,
thermal actions, thermal switch-off. -/

namespace Sys2Proof.Machine

/-- The cap committed through GLOBAL_G_PWR_CAP (R515). -/
def State.committedCap (s : State) : Nat := (s.guard 1).committed.toNat % 0x8000

/-- New limits: the cap in force is settled; a change of it is logged as CAP and raises GLOBAL_PWR_IRQ (R517). -/
def State.setLimits (s : State) (p : Pwr) : State :=
  let old := s.pwr.cap
  let s := { s with pwr := p.settle s.committedCap }
  if s.pwr.cap = old then s
  else (s.emitUnit 14 0 0 evCap .ok [w32 old, w32 s.pwr.cap, w32 s.pwr.capCode]).raiseReg 0x290 8

/-- A THERMAL record, and the controller's vector (Table PWR.6). -/
def State.thermal (s : State) (sev : Nat) : State := (s.emitUnit 14 0 sev evThermal .ok []).raiseReg 0x290 8

/-- A thermal switch-off begins (R520): a record of severity 3, the log persisted; power goes 2 ms later. -/
def State.switchOff (s : State) : State :=
  if s.pwr.offAt.isSome then s
  else
    let s := (s.thermal 3).persistLog
    { s with pwr := { s.pwr with offAt := some (s.etc + 2000) } }

/-- The multiple of 5 mV at or below. -/
def floor5 (n : Nat) : Nat := n / 5 * 5

/-- The upper bound that the cap in force sets on an erg's voltage (R22, R516): what the controller asks for; once the input
power has reached the cap no higher than the present voltage, and above the cap at least one step of 5 mV lower. -/
def State.capBound (s : State) (p : PowerSample) (d : Nat) : Nat :=
  let mv := (s.erg d).mv
  let ask := p.ask.getD d mv
  if p.watts < s.pwr.cap then ask else if p.watts = s.pwr.cap then min ask mv else min ask (mv - 5)

/-- One erg's part of a control round (R516, R519): its bounds, its voltage, its issue limits. The upper bound is the least of
what the cap allows, vmax, and, at 100 °C, the next lower step; the lower bound governs where they cross. -/
def State.controlErg (s : State) (p : PowerSample) (d : Nat) : State :=
  let e := s.erg d
  let t := p.ergTemp.getD d 0
  let vmax := bits (s.guard 2).committed 16 10
  let vmin := bits (s.guard 2).committed 0 10
  let hi := min vmax (s.capBound p d)
  let hi := if 100 ≤ t then min hi (e.mv - 5) else hi
  let lo := max vmin (p.floor.getD d 0)
  let mv := if hi < lo then lo else if floor5 hi < lo then lo else floor5 hi
  let stop := if 105 ≤ t then true else if t < 100 then false else e.issueStop
  let s := s.setErg d { e with mv := mv, issueLim := decide (hi < lo), issueStop := stop }
  if stop && !e.issueStop then s.thermal 2 else s

/-- POWER_CONTROL_TICK (R513, R516, R517, R519): measurements, the input limit, each erg's voltage and issue, and the thermal
switch-off when any die is at 110 °C. -/
def execPowerControlTick (p : PowerSample) (s : State) : Result :=
  if s.power ≠ .on then .next s
  else
    let temps := p.ergTemp.take 16 ++ p.oasisTemp.take 4
    let q := { s.pwr with
      watts := p.watts, vin := p.vin, limited := p.binds, tjMax := temps.foldl max 0
      vinLim := if p.vin < 48000 then some (420 * p.vin / 1000) else none }
    let s := s.setLimits q
    let s := { s with pwr := { s.pwr with limited := p.binds || decide (s.pwr.cap ≤ p.watts) } }
    let s := (List.range 16).foldl (fun s d => s.controlErg p d) s
    let die (i : Nat) : Nat := if i < 16 then p.ergTemp.getD i 0 else p.oasisTemp.getD (i - 16) 0
    let hot := (List.range 20).filter fun i => decide (100 ≤ die i)
    let newHot := hot.any fun i => !s.pwr.hot.contains i
    let s : State := { s with pwr := { s.pwr with hot := hot } }
    let s : State := if newHot then s.thermal 1 else s
    let off := (temps.any fun (t : Nat) => decide (110 ≤ t)) || ((List.range 48).any fun n => decide (110 ≤ (s.dune n).temp))
    if off then .next s.switchOff
    else .next s

/-- FLOW_LIMIT_EVAL (R518): sensor 514 is sampled; below 30 L/min the flow limit is 666.7 W per L/min. -/
def execFlowLimitEval (flow : Nat) (s : State) : Result :=
  if s.power ≠ .on then .next s
  else
    let p := s.pwr
    .next (s.setLimits { p with
      flow := flow
      flowLim := if flow < 30000 then some (6667 * flow / 10000) else none
      lowFlowAt := if flow < 6000 then some (p.lowFlowAt.getD s.etc) else none })

/-- LOW_FLOW_SWITCH_OFF (R519): flow has stayed below 6 L/min for 1,000,000 µs. -/
def execLowFlowSwitchOff (s : State) : Result :=
  match s.pwr.lowFlowAt with
  | some a => .next (if s.power = .on ∧ a + 1000001 ≤ s.etc then s.switchOff else s)
  | none => .next s

/-- THERMAL_POWER_REMOVE (R520): 2 ms after the switch-off began power is removed; it stays off until it is applied again. -/
def execThermalPowerRemove (s : State) : Result :=
  match s.pwr.offAt with
  | some a => .next (if s.power = .on ∧ a ≤ s.etc then s.powerDown .latched else s)
  | none => .next s

end Sys2Proof.Machine
end

