-- ==== Sys2Proof/Machine/Guard.lean ====
section
/-! DEFINITION. Guarded registers (R437-R440, Tables CSR.2, CSR.5): pending values, mismatches, the checks of R439, and what each
commit does. -/

namespace Sys2Proof.Machine

/-- Offset of guarded register r, and of its twin. -/
def guardOff (r : Nat) : Nat := 0x4000 + 4 * r
def twinOff (r : Nat) : Nat := 0xC000 + 4 * r

/-- The bits that the fields of guarded register r cover. -/
def guardMask (r : Nat) : Word :=
  [1, 0x7FFF, 0x03FF03FF, 0xFFFFFFFF, 0x1FFF, 0x3FFFF, 0xF, 0xFFF].getD r 0

/-- GLOBAL_GUARD_STAT after an outcome. -/
def State.guardShow (s : State) (r : Nat) (st : Status) : State := s.setReg 0x110 (w32 (st.code + r * 0x10000))

/-- A mismatch (R438): counted, shown, and logged with the origin of the access and of the one that armed the value, if any. -/
def State.guardMismatch (s : State) (r : Nat) (o : Nat × Nat) (off : Nat) (tried : Word) : State :=
  let g := s.guard r
  let armed := match g.pending with
    | some (_, req, _) => [w32 (originOf req).1, w32 (originOf req).2]
    | none => []
  let s := ((s.setGuard r { g with pending := none }).bump 0x114 0 16).guardShow r .guardMismatch
  s.emit o.1 o.2 1 evRegWrite .guardMismatch ([w32 off, s.guardValue r, tried] ++ armed)

/-- Whatever another access to the pair finds pending is discarded (R438); `o` is the origin of that access. -/
def State.guardDisturb (s : State) (r : Nat) (o : Nat × Nat) (off : Nat) (tried : Word) : State :=
  if (s.guard r).pending.isSome then s.guardMismatch r o off tried else s

/-- A value write arms the value (R437). -/
def State.guardArm (s : State) (r : Nat) (v : Word) (req : Requester) (o : Nat × Nat) : State :=
  let s := s.guardDisturb r o (guardOff r) v
  s.setGuard r { s.guard r with pending := some (v, req, s.etc) }

/-! ### The checks of R439 -/

/-- Writers of register r (Table CSR.2); before READY only the Coxswain reaches the pairs (R440). -/
def State.guardWriter (s : State) (r : Nat) (req : Requester) : Bool :=
  match req with
  | .coxswain => true
  | .host _ => decide (r < 6) && s.dev != .starting
  | _ => false

/-- States in which register r is legal (Table CSR.2). -/
def guardLegal (r : Nat) (d : DevState) : Bool :=
  match r with
  | 0 => true
  | 1 => d == .ready || d == .running || d == .quiescing || d == .quiesced || d == .faulted
  | 2 => d == .ready || d == .quiesced
  | 6 => d == .ready || d == .quiesced
  | 7 => d == .starting || d == .ready
  | _ => d == .ready || d == .running || d == .quiescing || d == .quiesced

/-- The stack that a repair names is absent, OFFLINE or FAILED. -/
def State.guardAbsent (s : State) (r : Nat) (v : Word) : Bool :=
  let k := s.dune (bits v 0 6)
  (r == 3 || r == 4) && decide (bits v 0 6 < 48) && (k.state == .offline || k.state == .failed)

/-- A field out of its range (Table CSR.5). -/
def guardBad (r : Nat) (v : Word) : Bool :=
  match r with
  | 0 => bits v 0 1 != 1
  | 1 => out v 0 15 6000 20000
  | 2 => decide (bits v 0 10 < 680) || decide (850 < bits v 16 10) || decide (bits v 16 10 ≤ bits v 0 10)
  | 3 => out v 0 6 0 47
  | 4 => out v 0 6 0 47
  | 6 => out v 0 4 0 5
  | _ => false

/-- The status of a matching twin write: the first failed check decides. -/
def State.guardCheck (s : State) (r : Nat) (v : Word) (a b : Requester) : Status :=
  if !(s.guardWriter r a && s.guardWriter r b) then .authFailed
  else if !guardLegal r s.dev then .stateInvalid
  else if s.guardAbsent r v then .unitAbsent
  else if guardBad r v then .badArgument
  else .ok

/-! ### What a commit does (Table CSR.2) -/

/-- Ports whose bits are 1 go to DISABLED until the next start (R357). -/
def State.disablePorts (s : State) (v : Word) : State :=
  (List.range 18).foldl (fun s p =>
    if bits v p 1 = 0 then s
    else
      let was := (s.port p).state
      let s := s.setPort p { s.port p with guardDis := true }
      if was = .disabled then s else (s.portTo p .disabled 0).emitPort p 0 evPortState .ok [0, w32 (s.port p).peer]) s

/-- Burn the next life-cycle fuse entry (R462, R463). -/
def State.burnLifecycle (s : State) (code : Nat) : State :=
  let n := s.nv.lcUsed
  let (a, s) := s.draw
  let s : State := { s with nv := { s.nv with lifecycle := code, lcUsed := n + 1 }, start := { s.start with changed := true } }
  s.emitUnit 13 0 0 evFuseBurn .ok [w32 (a.toNat % 4096), 1, w32 n]

/-- The effect of a commit of `v` to register r. -/
def State.guardEffect (s : State) (r : Nat) (v : Word) : State :=
  match r with
  | 0 => s.delayStart .cold 2 (s.etc + 100) false
  | 1 => s.setLimits s.pwr
  | 3 => s.remapRow (bits v 0 6) (bits v 6 7) (bits v 13 5) (bits v 18 14)
  | 4 =>
    let e := (bits v 0 6, bits v 6 7)
    if s.nv.chRepairs.contains e then s else { s with nv := { s.nv with chRepairs := s.nv.chRepairs ++ [e] } }
  | 5 => s.disablePorts v
  | 6 => s.burnLifecycle (bits v 0 4)
  | 7 =>
    let (a, s) := s.draw
    let (b, s) := s.draw
    s.emitUnit 13 0 0 evFuseBurn .ok [w32 (bits v 0 12), a, b]
  | _ => s

/-- A matching twin write (R439): its outcome is shown, counted when it is not OK, and logged with the origin given. -/
def State.guardCommit (s : State) (r : Nat) (v : Word) (a b : Requester) (o : Nat × Nat) : State :=
  let st := s.guardCheck r v a b
  let old := s.guardValue r
  let new := v &&& guardMask r
  let s := (s.setGuard r { s.guard r with pending := none }).guardShow r st
  if st = .ok then
    let s := (s.setGuard r { s.guard r with committed := new }).emit o.1 o.2 0 evRegWrite .ok [w32 (guardOff r), old, new]
    s.guardEffect r new
  else (s.bump 0x114 16 16).emit o.1 o.2 1 evRegWrite st [w32 (guardOff r), old, new]

/-- A twin write (R437, R438): it commits the pending value whose complement it is; otherwise that value is discarded, and the
twin write, which then meets nothing pending, is a mismatch of its own. -/
def State.guardTwin (s : State) (r : Nat) (v : Word) (req : Requester) : State :=
  match (s.guard r).pending with
  | some (pv, armer, _) =>
    if v = ~~~ pv then s.guardCommit r pv armer req (originOf req)
    else (s.guardMismatch r (originOf req) (twinOff r) v).guardMismatch r (originOf req) (twinOff r) v
  | none => s.guardMismatch r (originOf req) (twinOff r) v

/-- A twin write through BAR0. -/
def State.twinWrite (s : State) (r : Nat) (v : Word) (req : Requester) : State :=
  s.onReg req (twinOff r) v fun s => s.guardTwin r v req

/-! ### The commands -/

/-- GUARD_VALUE_WRITE (R437). -/
def execGuardValueWrite (r : Nat) (v : Word) (req : Requester) (s : State) : Result :=
  .next (if r < 8 then s.onReg req (guardOff r) v fun s => s.guardArm r v req (originOf req) else s)

/-- GUARD_PENDING_TIMEOUT (R438, R46): no twin write within 100 ETC microseconds. -/
def execGuardPendingTimeout (r : Nat) (s : State) : Result :=
  match (s.guard r).pending with
  | some (v, req, at_) =>
    .next (if s.power = .on ∧ at_ + 101 ≤ s.etc then s.guardMismatch r (originOf req) (guardOff r) v else s)
  | none => .next s

/-- GLOBAL_G_RESET (R448): the twin write of the cold reset. -/
def execGlobalGReset (twin : Word) (req : Requester) (s : State) : Result := .next (s.twinWrite 0 twin req)

/-- GLOBAL_G_PWR_CAP (R515). -/
def execGlobalGPwrCap (twin : Word) (req : Requester) (s : State) : Result := .next (s.twinWrite 1 twin req)

/-- GLOBAL_G_VLIMIT (R440). -/
def execGlobalGVlimit (twin : Word) (req : Requester) (s : State) : Result := .next (s.twinWrite 2 twin req)

/-- GLOBAL_G_REMAP_ROW (R440, R294-R296). -/
def execGlobalGRemapRow (twin : Word) (req : Requester) (s : State) : Result := .next (s.twinWrite 3 twin req)

/-- GLOBAL_G_REMAP_CH (R440, R297). -/
def execGlobalGRemapCh (twin : Word) (req : Requester) (s : State) : Result := .next (s.twinWrite 4 twin req)

/-- GLOBAL_G_PORT_DIS (R357, R440). -/
def execGlobalGPortDis (twin : Word) (req : Requester) (s : State) : Result := .next (s.twinWrite 5 twin req)

/-- GLOBAL_G_FUSE (R452, R440). -/
def execGlobalGFuse (twin : Word) (req : Requester) (s : State) : Result := .next (s.twinWrite 7 twin req)

end Sys2Proof.Machine
end

