-- ==== Sys2Proof/Machine/Attest.lean ====
section
/-! DEFINITION. Quotes and certificates that the security block hands out (R475, R476, Table SEC.4). -/

namespace Sys2Proof.Machine

/-- Bytes 0x000 to 0x0BF of a quote (Table SEC.4). -/
def State.quoteBody (s : State) (nonce : List Byte) : List Byte :=
  let words := ([0, 4, 8, 0xC, 0x10, 0x14, 0x224].flatMap fun off => leBytes 4 (s.view off).toNat)
  leBytes 4 1 ++ leBytes 4 s.nv.epoch ++ leBytes 8 s.etc ++ nonce ++ s.nv.serial ++
  leBytes 1 s.nv.lifecycle ++ leBytes 1 s.nv.variant.code ++ leBytes 2 (imgSvn s.nv.runImage) ++ leBytes 4 s.sec.attUsed ++
  shake256 s.nv.runImage 32 ++ Config.romDigest ++ shake256 words 32 ++
  s.log.last ++ leBytes 8 (s.log.next - 1) ++ leBytes 8 0

/-- A quote, if the attestation key can sign it. -/
def State.quote (s : State) (nonce : List Byte) : Option (List Byte × State) :=
  let body := s.quoteBody nonce
  (s.attSign body).map fun x => (body ++ x.1, x.2)

/-- What CERT_READ returns by index (R476); certificate 2 only once the key is certified (Table SEC.6). -/
def State.certOf (s : State) (i : Nat) : List Byte :=
  match i with
  | 0 => imgCert s.nv.runImage
  | 1 => s.nv.idCert
  | 2 => s.sec.attCert
  | _ => imgRoot s.nv.runImage

end Sys2Proof.Machine
end

