-- ==== Sys2Proof/Machine/Island.lean ====
section
/-! DEFINITION. Clocked islands (R36-R38, R489, Table RAS.4), delay lines (R33, R34) and beat windows (R48); the host link
going down (R397). -/

namespace Sys2Proof.Machine

/-! ### The host link (R397, R413) -/

/-- Send every message that is held pending and may leave now (R413). -/
def State.releaseVectors (s : State) : State :=
  if !s.hostOpen then s
  else
    (s.host.vecPend.filter fun e => e.2 && !(Tab.get true s.host.vecMask e.1)).foldl (fun s e =>
      { s with
        host := { s.host with vecPend := Tab.put false s.host.vecPend e.1 false }
        tx := .msix e.1 :: s.tx }) s

/-- A task has a transfer in flight to the host window. -/
def Task.onHost (t : Task) : Bool := t.flying.any t.hostXfer

/-- The link goes down (R397): the device requests in flight end their tasks, and descriptor reads their rings. -/
def State.linkDown (s : State) : State :=
  let s := { s with host := { s.host with width := 0, rate := 0 } }
  let live (t : Task) : Bool := t.state == .running || (match t.state with | .suspended _ => true | _ => false)
  let ids := (s.tasks.filter fun e => live e.2 && e.2.onHost).map (·.1)
  let s := ids.foldl (fun s id => s.failRun id .internal) s
  (s.rings.filter fun e => !e.2.reads.isEmpty).foldl (fun s e => s.readFail e.1 ((e.2.reads.headD (0, 0)).1)) s

/-! ### Loss of lock (R38, R489) -/

/-- The two ports of Sweep island i. -/
def islandPorts (i : Nat) : List Nat := [2 * (i - 16), 2 * (i - 16) + 1]

/-- What the loss of an island does to its unit at once (Table RAS.4). -/
def State.islandDown (s : State) (i : Nat) : State :=
  if 16 ≤ i ∧ i < 25 then
    (islandPorts i).foldl (fun s p =>
      match (s.port p).state with
      | .training | .attesting | .admitted => (s.portTo p .training 0).emitPort p 1 evPortState .internal [2]
      | _ => s) s
  else if i = 25 then s.linkDown
  else if 26 ≤ i ∧ i < 34 then (s.abortJob (i - 26) 0).abortJob (i - 26) 1
  else if i = 35 ∨ i = 36 ∨ i = 39 then s.enterFaulted 3
  else s

/-- ISLAND_LOCK_LOSS (R38): the island's bit clears, INTERNAL is logged with its identifier, its unit suffers. The spec gives
the record no severity: 2 (log entry 18). -/
def execIslandLockLoss (i : Nat) (s : State) : Result :=
  if s.power = .on ∧ i < 40 ∧ s.locked i = true then
    let s := { s with islands := Tab.put 0 s.islands i (s.etc + 1) }
    .next ((s.emitUnit 6 i 2 evLock .internal [w32 i]).islandDown i)
  else .next s

/-- ISLAND_RELOCK (R489). -/
def execIslandRelock (i : Nat) (s : State) : Result :=
  if s.power = .on then .next ({ s with islands := Tab.put 0 s.islands i 0 }.releaseVectors) else .next s

/-- A Dune stack is FAILED and its contents are lost, until the next start (Table RAS.4). -/
def State.failStack (s : State) (n : Nat) : State :=
  let k := s.dune n
  if k.state = .online ∨ k.state = .stopped then (s.setDune n { k with state := .failed, wcb := [], logged := [] }).dropStack n
  else s

/-- ISLAND_RELOCK_TIMEOUT (R489): not relocked within 1,000 µs. -/
def execIslandRelockTimeout (i : Nat) (s : State) : Result :=
  let at_ := Tab.get 0 s.islands i
  if s.power = .on ∧ at_ ≠ 0 ∧ at_ + 1000 ≤ s.etc then
    if i < 16 then .next ([3 * i, 3 * i + 1, 3 * i + 2].foldl State.failStack s)
    else if i < 25 then
      .next ((islandPorts i).foldl (fun s p =>
        if (s.port p).state = .training then (s.portTo p .down 0).emitPort p 1 evPortState .internal [1] else s) s)
    else if 26 ≤ i ∧ i < 34 then .next (s.retireWake (i - 26) 1)
    else if i = 34 then .next { s with flashGone := true }
    else .next s
  else .next s

/-! ### Delay lines and beats -/

/-- DELAY_LINE_RECAL (R33, R34): a visit measures a line's margin, in 0.1 %; below 6 % the line adds a tap, kept with its
calibration (R35), and one that has none left retires what it serves. The spec gives the record neither severity nor status:
1 and OK (log entry 18). -/
def execDelayLineRecal (crew : Nat) (line : Line) (margin : Nat) (tapsLeft : Bool) (s : State) : Result :=
  if s.background ∧ (s.crew crew).state = .good then
    let off := ergReg (crew / 48) 0x10C
    let s := s.setFld off 0 16 (min (s.fld off 0 16) margin)
    if 60 ≤ margin then .next s
    else if tapsLeft then
      let n := lineKey crew line
      let s := { s with nv := { s.nv with taps := Tab.put 0 s.nv.taps n (Tab.get 0 s.nv.taps n + 1) } }
      .next ((s.bump off 16 8).emitUnit 1 crew 1 evDelayTap .ok [w32 crew])
    else match line with
      | .scull k => .next (s.retireScull k 4)
      | .crew => .next (s.retireCrew crew 3)
      | .bow => .next (s.retireBow (crew / 48) 3)
  else .next s

/-- BEAT_RATE_WINDOW_END (R48): a window of 100 µs ends, once; the rate is the monitor's beats of that window over 100 µs, with
the mean core voltage as measured. The quotient is rounded down and held at 0xFFFF (log entry 82). -/
def execBeatRateWindowEnd (d mv : Nat) (s : State) : Result :=
  if s.power = .on ∧ s.timer = true ∧ s.etc % 100 = 0 ∧ (s.erg d).windows < s.etc / 100 then
    let beats := s.beatsIn d (s.etc - 100) 100
    .next ((s.setErg d { s.erg d with windows := s.etc / 100 }).setReg (ergReg d 0x108)
      (w32 (min (beats / 100) 0xFFFF + mv % 1024 * 0x10000)))
  else .next s

end Sys2Proof.Machine
end

