-- ==== Sys2Proof/Machine/HostPort.lean ====
section
/-! DEFINITION. The host port (R397-R402, R413, R480): the link, the CXL.mem window, MSI-X vectors, SPDM and the IDE streams. -/

namespace Sys2Proof.Machine

/-! ### The link and vectors (R397, R413) -/

/-- Set or clear the mask bit of a vector; unmasked, what is pending leaves. -/
def State.maskVector (s : State) (v : Nat) (m : Bool) : State :=
  { s with host := { s.host with vecMask := Tab.put true s.host.vecMask v m } }.releaseVectors

/-- MSIX_VECTOR_UNMASK (R413): a mask bit is cleared, or requests may be issued again: pending messages are sent. -/
def execMsixVectorUnmask (v : Option Nat) (s : State) : Result :=
  if s.power ≠ .on then .next s
  else match v with
    | some n => .next (if n < 256 ∧ s.hostOpen = true then s.maskVector n false else s)
    | none => .next s.releaseVectors

/-- LINK_RETRAIN (R397): a hot reset or link-down ends the device's requests in flight and resets nothing else; the link comes
up with what it trains to, and the Coxswain serves the host's mailboxes over it. -/
def execLinkRetrain (width rate : Nat) (flit : Bool) (s : State) : Result :=
  if s.power ≠ .on ∨ s.locked 25 = false ∨ (s.dev = .starting ∧ s.start.step ≤ 4) then .next s
  else
    let s := s.linkDown
    if rate = 0 then .next s
    else
      let s := { s with host := { s.host with width := width, rate := rate, flit := flit } }
      .next (s.serve (List.range 8)).releaseVectors

/-! ### The window (R400-R402) -/

/-- DA of a window offset whose `n` bytes lie in the window and in the stack range; none: at or beyond the window. -/
def State.windowDa (s : State) (offset n : Nat) : Option Nat :=
  let base := join (s.reg 0x00200010) (w32 (s.fld 0x00200014 0 24))
  if offset + n ≤ s.fld 0x00200018 0 12 * 0x40000000 ∧ base + offset + n ≤ duneEnd then some (base + offset) else none

/-- An access outside the window: counted; the first after a counter snapshot is logged. -/
def State.windowDrop (s : State) (offset : Nat) : State :=
  let s := s.bump 0x0020001C 0 32
  if s.host.dropLogged then s
  else { s with host := { s.host with dropLogged := true } }.emitUnit 15 0 1 evRegWrite .badArgument
    [w32 offset, w32 (offset / 0x100000000)]

/-- Answer a read. -/
def State.answer (s : State) (ok poisoned : Bool) (data : List Byte) : State :=
  { s with tx := .window ok poisoned data :: s.tx }

/-- A window access that the port takes: `io` by CXL.io, which refuses a read outside the window; CXL.mem poisons it. -/
def State.windowAccess (s : State) (io : Bool) (offset : Nat) (data : Option (List Byte)) (len : Nat) : State :=
  match data with
  | some bs =>
    match s.windowDa offset bs.length with
    | some da => s.write 0 (cellsAt da bs)
    | none => s.windowDrop offset
  | none =>
    match s.windowDa offset len with
    | some da =>
      let bad := s.duneReadBad da len
      (s.countRead da len).answer true bad (s.load da len)
    | none => (s.windowDrop offset).answer (!io) (!io) []

/-- BAR2_ACCESS (R401, R402): refused and counted while required streams are missing. -/
def execBar2Access (offset : Nat) (data : Option (List Byte)) (len : Nat) (s : State) : Result :=
  if s.power ≠ .on ∨ s.host.rate = 0 ∨ s.locked 25 = false then .next s
  else if s.ideOpen then .next (s.windowAccess true offset data len)
  else
    let s := s.bump 0x00200004 16 16
    .next (if data.isNone then s.answer false false [] else s)

/-- CXL_MEM_REQUEST (R400, R402): while required streams are missing, reads return poison and writes are discarded. -/
def execCxlMemRequest (offset : Nat) (data : Option (List Byte)) (len : Nat) (s : State) : Result :=
  if s.power ≠ .on ∨ s.host.rate = 0 ∨ s.locked 25 = false then .next s
  else if s.ideOpen then .next (s.windowAccess false offset data len)
  else .next (if data.isNone then s.answer true true [] else s)

/-! ### SPDM and IDE (R399, R400, R480) -/

/-- Measurement blocks 1 to 4 (R480): the values at quote offsets 0x048, 0x068, 0x088 and 0x0A8. -/
def State.measurements (s : State) : List (List Byte) :=
  let q := s.quoteBody (List.replicate 32 0)
  [slice q 0x48 32, slice q 0x68 32, slice q 0x88 32, slice q 0xA8 8]

/-- SPDM_REQUEST (R480): answered over DOE and signed by the attestation key; without one, or without a generator, it fails. -/
def execSpdmRequest (request : List Byte) (s : State) : Result :=
  if s.power ≠ .on ∨ s.host.rate = 0 ∨ s.locked 25 = false then .next s
  else if s.sec.rngStop then .next (s.secFail .authFailed 8)
  else
    let body := Config.spdmAnswer request ([0, 1, 2].map s.certOf) s.measurements
    match s.attSign body with
    | some (sig, s) => .next { s with tx := .spdm (body ++ sig) :: s.tx }
    | none => .next s.secRefused

/-- IDE_KEY_SET (R399): IDE_KM sets a stream's keys in an SPDM session, which needs the attestation key and the generator. -/
def execIdeKeySet (stream : Nat) (s : State) : Result :=
  if s.power ≠ .on ∨ s.host.rate = 0 ∨ s.locked 25 = false ∨ s.sec.attReady = false ∨ s.sec.rngStop = true ∨ 2 ≤ stream then .next s
  else
    let h := if stream = 0 then { s.host with ideIo := true } else { s.host with ideMem := true }
    .next { s with host := h }.releaseVectors

/-- IDE_INTEGRITY_FAIL (R400): the TLP or flit is discarded, AUTH_FAILED is logged and counted, the stream is not established. -/
def execIdeIntegrityFail (stream : Nat) (s : State) : Result :=
  if s.power ≠ .on ∨ 2 ≤ stream then .next s
  else
    let h := if stream = 0 then { s.host with ideIo := false } else { s.host with ideMem := false }
    .next ({ s with host := h }.secFail .authFailed 7)

end Sys2Proof.Machine
end

