-- ==== Sys2Proof/Machine/Mailbox.lean ====
section
/-! DEFINITION. The mailbox commands (19_coxswain_mailbox.md; LC_TRANSITION of 21, the security block's of 22, Cairn's of 24):
how a command reaches its mailbox, the checks in the order of R420, the commands of Table COX.4, and the queue of state
commands (R422). A command's work takes one step, but for the copy of CAIRN_RESTORE. -/

namespace Sys2Proof.Machine

/-! ### Legality and arguments (Table COX.5, Table COX.7) -/

/-- Opcodes that Table COX.4 knows. -/
def opKnown (op : Nat) : Bool :=
  [0x01, 0x02, 0x03, 0x10, 0x11, 0x12, 0x13, 0x20, 0x21, 0x30, 0x31, 0x40, 0x50, 0x51, 0x52, 0x60, 0x61, 0x62, 0x70, 0x71, 0x72,
    0x73].contains op

/-- State commands (R422). -/
def opState (op : Nat) : Bool := [0x10, 0x11, 0x12, 0x13, 0x52, 0x62, 0x71, 0x72].contains op

/-- Commands that change state or configuration, logged when they succeed (R423). -/
def opLogged (op : Nat) : Bool := opState op || [0x21, 0x51, 0x70].contains op

/-- Device states in which a command is legal (Table COX.5): bit of the state's code. -/
def opStates (op : Nat) : Nat :=
  match op with
  | 0x01 => 0xFF | 0x02 => 0xFF | 0x30 => 0xFF | 0x31 => 0xFF | 0x50 => 0xFF
  | 0x03 => 0x5E | 0x40 => 0xDF | 0x10 => 0x12 | 0x11 => 0x0C | 0x12 => 0x10 | 0x13 => 0x53 | 0x20 => 0x5E | 0x21 => 0x5E
  | 0x51 => 0x7E | 0x52 => 0x72 | 0x60 => 0x9E | 0x61 => 0x9E | 0x62 => 0x12 | 0x70 => 0x02 | 0x72 => 0x02 | 0x71 => 0x14
  | 0x73 => 0x1E | _ => 0

/-- Commands marked for the sideband (Table COX.5). -/
def opSideband (op : Nat) : Bool := !([0x10, 0x11, 0x12, 0x70, 0x71, 0x72, 0x73].contains op)

/-- The life-cycle transitions of Table START.5, with the length of the token that each requires. -/
def lcToken (from_ goal : Nat) : Option Nat :=
  if [(0, 1), (1, 2), (2, 3), (3, 2), (2, 4), (3, 4), (4, 1), (4, 5)].contains (from_, goal) then some 2852
  else if from_ = 2 ∧ goal = 5 then some 0
  else none

/-- A take or replay record's loss address (R503). -/
def lossOk (da : Nat) : Bool := decide (da + 4 ≤ duneEnd)

/-- The arguments of a command are in their ranges (R429, R523). -/
def State.opArgs (s : State) (op : Nat) (p : List Byte) : Bool :=
  match op with
  | 0x03 => p.length == 8 && decide (1 ≤ numAt p 4 4) && decide (numAt p 4 4 ≤ 1020) && decide (numAt p 0 4 + numAt p 4 4 ≤ 65536)
  | 0x11 => p.length == 4 && decide (numAt p 0 4 ≤ 1)
  | 0x13 => p.length == 4 && decide (numAt p 0 4 ≤ 1)
  | 0x21 => p.length == 4 && decide (6000 ≤ numAt p 0 4) && decide (numAt p 0 4 ≤ 20000)
  | 0x31 => p.length == 16 && decide (1 ≤ numAt p 8 4) && decide (numAt p 8 4 ≤ 63) && zeroAt p 12 4
  | 0x40 => p.length == 8 && decide (1 ≤ numAt p 4 4) && decide (numAt p 4 4 ≤ 1018) && decide (numAt p 0 4 + numAt p 4 4 ≤ 1024)
  | 0x51 => decide (p.length = 8 + numAt p 4 4) && decide (1 ≤ numAt p 4 4) && decide (numAt p 4 4 ≤ 4064) &&
      decide (numAt p 0 4 % 4 = 0) && decide (numAt p 0 4 + numAt p 4 4 ≤ 0x200000)
  | 0x52 => p.length == 4 && decide (numAt p 0 4 ≤ 0x200000)
  | 0x60 => p.length == 32
  | 0x61 => p.length == 8 && decide (numAt p 0 4 ≤ 3) &&
      (decide (numAt p 4 4 ≤ (s.certOf (numAt p 0 4)).length) || (numAt p 0 4 == 2 && !s.sec.attReady))
  | 0x62 => decide (p.length = 8 + numAt p 2 2) && zeroAt p 1 1 && zeroAt p 4 4 && decide (s.nv.lcUsed < 64) &&
      lcToken s.nv.lifecycle (numAt p 0 1) == some (numAt p 2 2)
  | 0x70 => s.cairnRecordOk p
  | 0x71 => p.length == 16 && zeroAt p 10 2 && s.cairn.registered && lossOk (numAt p 0 8)
  | 0x72 => p.length == 24 && zeroAt p 1 3 && zeroAt p 0x12 2 && decide (numAt p 0 1 ≤ 1) && lossOk (numAt p 8 8) &&
      s.cairn.registered && s.headerOk (s.cairn.target (numAt p 0 1)) && decide (numAt p 4 4 ≤ 0x80000000) &&
      (fp32Units (w32 (numAt p 4 4))).isSome
  | _ => p.isEmpty

/-- The target of a command is absent (R420). -/
def State.opAbsent (s : State) (op : Nat) (p : List Byte) : Bool :=
  if op = 0x70 then s.cairnAbsent p
  else (op == 0x71 || op == 0x72) && s.cairn.registered && !s.hasFlash && (inFlash s.cairn.target0 || inFlash s.cairn.target1)

/-! ### The commands (Table COX.4): status, response payload, state -/

/-- What a command answers. -/
abbrev Reply := Status × List Byte × State

/-- Firmware and interface versions that run now (R417). -/
def State.fwVersion (s : State) : Word := if s.start.rom then Config.romVersion else Config.imageVersion s.nv.runImage
def State.fwInterface (s : State) : Word := if s.start.rom then Config.romInterface else w32 (imgVersion s.nv.runImage)

/-- DEV_INFO. -/
def State.cmdDevInfo (s : State) : Reply :=
  (.ok, leBytes 1 s.nv.variant.code ++ leBytes 1 s.nv.lifecycle ++ leBytes 2 0 ++ leBytes 4 s.nv.epoch ++ leBytes 4 s.fwVersion.toNat ++
    leBytes 4 s.fwInterface.toNat ++ leBytes 4 Config.romVersion.toNat ++ leBytes 4 0 ++ s.nv.serial, s)

/-- DEV_STATUS. -/
def State.cmdDevStatus (s : State) : Reply :=
  (.ok, leBytes 1 s.dev.code ++ leBytes 1 s.fault ++ leBytes 1 s.nv.failed ++ leBytes 1 s.nv.failStep ++ leBytes 4 0 ++
    leBytes 8 s.etc, s)

/-- CAP_READ: each word as a BAR0 read with view 0 returns it. -/
def State.cmdCapRead (s : State) (p : List Byte) : Reply :=
  (.ok, (List.range (numAt p 4 4)).flatMap fun i => leBytes 4 (s.view (4 * (numAt p 0 4 + i))).toNat, s)

/-- DEV_RUN. -/
def State.cmdDevRun (s : State) : Reply := (.ok, [], s.setDev .running 0)

/-- Every queued or parked descriptor that no scull has taken is DONE with STATE_INVALID (R427). -/
def State.abandon (s : State) : State :=
  let ids := s.crews.flatMap fun (e : Nat × Crew) => e.2.queue ++ e.2.parked
  ids.foldl (fun (s : State) id =>
    match (s.task id).state with
    | .queued => s.doneTask id .stateInvalid
    | .parked _ => s.doneTask id .stateInvalid
    | _ => s) s

/-- DEV_QUIESCE (R426, R427). -/
def State.cmdDevQuiesce (s : State) (p : List Byte) : Reply :=
  let ab := decide (numAt p 0 4 = 1)
  if s.dev = .quiescing ∧ ab = false then (.busy, [], s)
  else
    let s := if s.dev = .running then (List.range 48).foldl (fun (s : State) n => s.flushWcb n) (s.setDev .quiescing 0) else s
    (.ok, [], if ab then s.abandon else s)

/-- DEV_CONFIG. -/
def State.cmdDevConfig (s : State) : Reply := (.ok, [], s.setDev .ready 0)

/-- DEV_RESTART (R424, R430): the start begins 100 µs after the response. -/
def State.cmdDevRestart (s : State) (p : List Byte) : Reply :=
  if s.dev = .starting then (.busy, [], s)
  else (.ok, [], s.delayStart (if numAt p 0 4 = 1 then .cold else .warm) 3 (s.etc + 100) false)

/-- PWR_GET. -/
def State.cmdPwrGet (s : State) : Reply :=
  (.ok, leBytes 4 s.pwr.cap ++ leBytes 4 s.pwr.watts ++ (List.range 16).flatMap fun d => leBytes 4 (s.erg d).mv, s)

/-- PWR_CAP_SET: the Coxswain writes the guarded pair; another access between the two writes ends it with GUARD_MISMATCH. -/
def State.cmdPwrCapSet (s : State) (m : Nat) (p : List Byte) (interrupted : Bool) : Reply :=
  let v := w32 (numAt p 0 4)
  let s := s.guardArm 1 v .coxswain (1, m)
  let st := if interrupted then Status.guardMismatch else s.guardCheck 1 v .coxswain .coxswain
  let s := if interrupted then
      (s.guardMismatch 1 (1, m) (guardOff 1) v).guardMismatch 1 (1, m) (twinOff 1) (~~~ v)
    else s.guardCommit 1 v .coxswain .coxswain (1, m)
  (st, leBytes 4 s.pwr.cap, s)

/-- Records that LOG_READ can return (R498): those of the ring, and of the flash log area while it can be read. -/
def State.heldRecords (s : State) : List LogRec :=
  s.log.ring ++ (if s.persists && s.locked 34 then s.log.area else [])

/-- Their numbers, rising. -/
def State.heldNumbers (s : State) : List Nat := (s.heldRecords.map fun (r : LogRec) => r.number).foldl (fun l n => insertSorted n l) []

/-- LOG_INFO. -/
def State.cmdLogInfo (s : State) : Reply :=
  (.ok, leBytes 8 (s.heldNumbers.headD s.log.next) ++ leBytes 8 s.log.next ++ s.log.last, s)

/-- LOG_READ (R498). -/
def State.cmdLogRead (s : State) (p : List Byte) : Reply :=
  let first := numAt p 0 8
  let nums := (s.heldNumbers.filter fun n => decide (first ≤ n)).take (numAt p 8 4)
  let recs := nums.flatMap fun n => ((s.heldRecords.find? fun (r : LogRec) => r.number == n).map fun r => r.bytes ++ r.chain).getD []
  let upTo := nums.foldl (fun a n => max a (n + 1)) s.log.readUpTo
  (.ok, leBytes 8 (nums.headD first) ++ leBytes 4 nums.length ++ leBytes 4 0 ++ recs, { s with log := { s.log with readUpTo := upTo } })

/-- A sensor of a unit that the module lacks (Table RAS.2). -/
def State.sensorAbsent (s : State) (n : Nat) : Bool :=
  decide (964 ≤ n) || (decide (460 ≤ n) && decide (n < 468) && (!s.hasWake || (s.wake (n - 460)).state == .absent)) ||
  (decide (468 ≤ n) && decide (n < 500) && s.nv.variant == .yd1e)

/-- SENSOR_READ (R487). -/
def State.cmdSensorRead (s : State) (p : List Byte) : Reply :=
  (.ok, leBytes 8 s.etc ++ (List.range (numAt p 4 4)).flatMap fun i =>
    let n := numAt p 0 4 + i
    leBytes 4 (if s.sensorAbsent n then noSensor else s.sensor n).toNat, s)

/-- FW_INFO (R417). -/
def State.cmdFwInfo (s : State) : Reply :=
  (.ok, leBytes 4 s.fwVersion.toNat ++ leBytes 4 (if s.nv.staged = [] then 0 else (Config.imageVersion s.nv.staged).toNat) ++
    leBytes 4 Config.romVersion.toNat ++ leBytes 4 s.fwInterface.toNat, s)

/-- FW_STAGE: data enters the staging area. -/
def State.cmdFwStage (s : State) (p : List Byte) : Reply :=
  let o := numAt p 0 4
  let n := numAt p 4 4
  let a := s.nv.staged
  let a := (a ++ List.replicate (o - a.length) 0).take o ++ p.drop 8 ++ a.drop (o + n)
  (.ok, leBytes 4 a.length, { s with nv := { s.nv with staged := a } })

/-- FW_ACTIVATE (R458, R469): a staged image that verifies becomes the boot image; in RECOVERY and FAULTED a cold start follows. -/
def State.cmdFwActivate (s : State) (p : List Byte) : Reply :=
  let img := s.nv.staged.take (numAt p 0 4)
  if !s.imageOk img then (.authFailed, [], s.secFail .authFailed 1)
  else
    let s : State := { s with nv := { s.nv with bootImage := img }, start := { s.start with changed := true } }
    let s : State := if s.dev = .recovery then { s with nv := { s.nv with failed := 0 } } else s
    (.ok, [], if s.dev = .recovery ∨ s.dev = .faulted then s.delayStart .cold 4 (s.etc + 100) false else s)

/-- ATTEST_QUOTE (R475). -/
def State.cmdAttestQuote (s : State) (p : List Byte) : Reply :=
  match s.quote p with
  | some (q, s) => (.ok, q, s)
  | none => (.authFailed, [], s.secRefused)

/-- CERT_READ (R476, R523). -/
def State.cmdCertRead (s : State) (p : List Byte) : Reply :=
  let i := numAt p 0 4
  if i = 2 ∧ s.sec.attReady = false then (.authFailed, [], s)
  else
    let c := s.certOf i
    let part := slice c (numAt p 4 4) 4064
    (.ok, leBytes 4 c.length ++ leBytes 4 part.length ++ part, s)

/-- A vendor token fits the request, this module and this boot, and verifies (R461, R471). -/
def State.tokenOk (s : State) (goal : Nat) (t : List Byte) : Bool :=
  decide (numAt t 0 4 = 1) && decide (numAt t 4 1 = s.nv.lifecycle) && decide (numAt t 5 1 = goal) && zeroAt t 6 2 &&
  slice t 8 16 == s.nv.serial && decide (numAt t 0x18 4 = s.nv.epoch) && zeroAt t 0x1C 4 &&
  Config.xmssVerify (certSubject (imgCert s.nv.runImage)) (t.take 0x20) (t.drop 0x20)

/-- LC_TRANSITION (R460-R463): log and persist, zeroise the flash key, commit, answer, and begin a cold start. -/
def State.cmdLcTransition (s : State) (m : Nat) (p : List Byte) : Reply :=
  let goal := numAt p 0 1
  if numAt p 2 2 ≠ 0 ∧ s.tokenOk goal (p.drop 8) = false then (.authFailed, [], s.secFail .authFailed 2)
  else
    let s := (s.emit 0 0 0 evLifecycle .ok [w32 s.nv.lifecycle, w32 goal]).persistLog
    let s : State := { s with nv := { s.nv with flashKey := false }, log := { s.log with area := [] } }
    let v := w32 goal
    let s := (s.guardArm 6 v .coxswain (1, m)).guardCommit 6 v .coxswain .coxswain (1, m)
    (.ok, [], s.delayStart .cold 5 (s.etc + 100) false)

/-- CAIRN_REGISTER (R501, R502). -/
def State.cmdCairnRegister (s : State) (p : List Byte) (host : List Cell) : Reply :=
  if s.cairnBusy then (.busy, [], s) else (.ok, [], s.cairnAccept p host)

/-- CAIRN_TAKE (R503, R504): the response carries the id and the target. -/
def State.cmdCairnTake (s : State) (p : List Byte) : Reply :=
  if s.cairnBusy ∨ s.cairn.replay = 1 ∨ s.cairn.replay = 3 then (.busy, [], s)
  else
    let s := s.cairnGrant (numAt p 0 8) (numAt p 8 2) (w32 (numAt p 0xC 4))
    (.ok, leBytes 4 s.cairn.takeId.toNat ++ leBytes 1 s.cairn.takeTarget ++ leBytes 3 0, s.cairnStarted)

/-- CAIRN_RESTORE (R508): accepted; the copy begins, and its end answers. -/
def State.beginRestore (s : State) (m : Nat) (p : List Byte) : State :=
  { s with stateMb := some m, cairn := { s.cairn with
    restoring := some (numAt p 0 1), restoreMb := m, tolerance := w32 (numAt p 4 4), replayDa := numAt p 8 8,
    replayCtr := numAt p 0x10 2, replayVal := w32 (numAt p 0x14 4) } }

/-- CAIRN_STATUS (R510). -/
def State.cmdCairnStatus (s : State) : Reply :=
  let c := s.cairn
  (.ok, leBytes 4 s.viewCairn ++ leBytes 4 c.newestId.toNat ++ leBytes 4 c.takeId.toNat ++ leBytes 8 c.bytes ++
    leBytes 4 c.recorded.toNat ++ leBytes 4 c.replayed.toNat, s)

/-! ### Running a command (R419-R424) -/

/-- The work of a command whose checks have passed. -/
def State.work (s : State) (m op : Nat) (p : List Byte) (interrupted : Bool) (host : List Cell) : Reply :=
  match op with
  | 0x01 => s.cmdDevInfo
  | 0x02 => s.cmdDevStatus
  | 0x03 => s.cmdCapRead p
  | 0x10 => s.cmdDevRun
  | 0x11 => s.cmdDevQuiesce p
  | 0x12 => s.cmdDevConfig
  | 0x13 => s.cmdDevRestart p
  | 0x20 => s.cmdPwrGet
  | 0x21 => s.cmdPwrCapSet m p interrupted
  | 0x30 => s.cmdLogInfo
  | 0x31 => s.cmdLogRead p
  | 0x40 => s.cmdSensorRead p
  | 0x50 => s.cmdFwInfo
  | 0x51 => s.cmdFwStage p
  | 0x52 => s.cmdFwActivate p
  | 0x60 => s.cmdAttestQuote p
  | 0x61 => s.cmdCertRead p
  | 0x62 => s.cmdLcTransition m p
  | 0x70 => s.cmdCairnRegister p host
  | 0x71 => s.cmdCairnTake p
  | _ => s.cmdCairnStatus

/-- The first check that a command fails, in the order of R420. -/
def State.opCheck (s : State) (m op : Nat) (p : List Byte) : Status :=
  if s.opAbsent op p then .unitAbsent
  else if !natBit (opStates op) s.dev.code then .stateInvalid
  else if (m == 8 && !opSideband op) || !s.opArgs op p then .badArgument
  else .ok

/-- Run a command of mailbox m to its response; a restore's comes with the end of its copy. -/
def State.runCmd (s : State) (m op : Nat) (p : List Byte) (interrupted : Bool) (host : List Cell) : State :=
  match s.opCheck m op p with
  | .ok =>
    if op = 0x72 then s.beginRestore m p
    else
      let r := s.work m op p interrupted host
      r.2.2.endCmd m r.1 (if r.1 = .ok then r.2.1 else []) (opLogged op)
  | st => s.endCmd m st [] false

/-- Run state commands that wait, in grant order, until one goes on (R422). -/
def State.drainCmds (s : State) : Nat → State
  | 0 => s
  | fuel + 1 =>
    match s.stateMb, s.mbQueue with
    | none, (m, c) :: rest =>
      let s := { s with mbQueue := rest }.runCmd m (s.mb m).lastOp.toNat c.payload false []
      s.drainCmds fuel
    | _, _ => s

/-- The command in mailbox m's buffer (Table COX.1), its opcode and the header's reserved parts. -/
def Mailbox.parsed (b : Mailbox) (m : Nat) (id : BitVec 16) : Nat × MbCmd :=
  let at_ (o n : Nat) : Nat := leNat n ((List.range n).map fun i => Tab.get 0 b.cmd (o + i))
  let len := at_ 8 4
  (at_ 0 2, ⟨m, id, BitVec.ofNat 16 (at_ 2 2), w32 (at_ 4 4), w32 len, w32 (at_ 12 4),
    (List.range (min len 4080)).map fun i => Tab.get 0 b.cmd (16 + i)⟩)

/-- The doorbell of mailbox m is written (Table COX.2). -/
def State.ringMb (s : State) (m : Nat) (id : BitVec 16) (interrupted : Bool) (host : List Cell) : State :=
  let b := s.mb m
  match b.phase with
  | .offline => s
  | .running => if m = 8 then s else s.bump (mbReg m 0x200C) 0 16
  | _ =>
    let (op, c) := b.parsed m id
    let s := s.setMb m { b with
      phase := .running, lastOp := BitVec.ofNat 16 op, tag := c.tag, irq := c.flags.getLsbD 0, unread := false }
    if !opKnown op || decide (2 ≤ c.flags.toNat) || c.reserved != 0 || decide (4080 < c.length.toNat) then
      s.endCmd m .badArgument [] false
    else if opState op then
      let s := { s with mbQueue := s.mbQueue ++ [(m, c)] }
      s.drainCmds s.mbQueue.length
    else s.runCmd m op c.payload interrupted host

/-- The bytes that a sender places in the command buffer. -/
def cmdBytes (op : Nat) (c : MbCmd) : List Byte :=
  (leBytes 2 op ++ leBytes 2 c.flags.toNat ++ leBytes 4 c.tag.toNat ++ leBytes 4 c.length.toNat ++ leBytes 4 c.reserved.toNat ++
    c.payload).take 4096

/-- Write bytes into a command buffer; an OFFLINE mailbox has none. -/
def State.fillMb (s : State) (m o : Nat) (bs : List Byte) : State :=
  let b := s.mb m
  if b.phase = .offline then s
  else s.setMb m { b with cmd := bs.zipIdx.foldl (fun (t : Tab Byte) x => Tab.put 0 t (o + x.2) x.1) b.cmd }

/-- A command with opcode `op` is placed and its doorbell written: by the host through BAR0, by the board through the sideband,
whose island must be locked. -/
def State.submit (s : State) (op : Nat) (c : MbCmd) (interrupted : Bool) (host : List Cell) : State :=
  let go (s : State) : State := (s.fillMb c.m 0 (cmdBytes op c)).ringMb c.m c.id interrupted host
  if c.m = 8 then (if s.power = .on ∧ s.locked 37 = true then go s else s)
  else if c.m < 8 then s.onReg (.host c.id) (mbReg c.m 0x2000) 1 go
  else s

/-! ### The rows -/

/-- DEV_INFO (R429). -/
def execDevInfo (c : MbCmd) (s : State) : Result := .next (s.submit 0x01 c false [])
/-- DEV_STATUS (R429). -/
def execDevStatus (c : MbCmd) (s : State) : Result := .next (s.submit 0x02 c false [])
/-- CAP_READ (R429). -/
def execCapRead (c : MbCmd) (s : State) : Result := .next (s.submit 0x03 c false [])
/-- DEV_RUN (R425). -/
def execDevRun (c : MbCmd) (s : State) : Result := .next (s.submit 0x10 c false [])
/-- DEV_QUIESCE (R427). -/
def execDevQuiesce (c : MbCmd) (s : State) : Result := .next (s.submit 0x11 c false [])
/-- DEV_CONFIG (R425). -/
def execDevConfig (c : MbCmd) (s : State) : Result := .next (s.submit 0x12 c false [])
/-- DEV_RESTART (R424). -/
def execDevRestart (c : MbCmd) (s : State) : Result := .next (s.submit 0x13 c false [])
/-- PWR_GET (R429). -/
def execPwrGet (c : MbCmd) (s : State) : Result := .next (s.submit 0x20 c false [])
/-- PWR_CAP_SET (R429). -/
def execPwrCapSet (c : MbCmd) (interrupted : Bool) (s : State) : Result := .next (s.submit 0x21 c interrupted [])
/-- LOG_INFO (R429). -/
def execLogInfo (c : MbCmd) (s : State) : Result := .next (s.submit 0x30 c false [])
/-- LOG_READ (R498). -/
def execLogRead (c : MbCmd) (s : State) : Result := .next (s.submit 0x31 c false [])
/-- SENSOR_READ (R487). -/
def execSensorRead (c : MbCmd) (s : State) : Result := .next (s.submit 0x40 c false [])
/-- FW_INFO (R417). -/
def execFwInfo (c : MbCmd) (s : State) : Result := .next (s.submit 0x50 c false [])
/-- FW_STAGE (R429). -/
def execFwStage (c : MbCmd) (s : State) : Result := .next (s.submit 0x51 c false [])
/-- FW_ACTIVATE (R458). -/
def execFwActivate (c : MbCmd) (s : State) : Result := .next (s.submit 0x52 c false [])
/-- ATTEST_QUOTE (R475). -/
def execAttestQuote (c : MbCmd) (s : State) : Result := .next (s.submit 0x60 c false [])
/-- CERT_READ (R476). -/
def execCertRead (c : MbCmd) (s : State) : Result := .next (s.submit 0x61 c false [])
/-- LC_TRANSITION (R462). -/
def execLcTransition (c : MbCmd) (s : State) : Result := .next (s.submit 0x62 c false [])
/-- CAIRN_REGISTER (R501). -/
def execCairnRegister (c : MbCmd) (host : List Cell) (s : State) : Result := .next (s.submit 0x70 c false host)
/-- CAIRN_TAKE (R504). -/
def execCairnTake (c : MbCmd) (s : State) : Result := .next (s.submit 0x71 c false [])
/-- CAIRN_RESTORE (R508). -/
def execCairnRestore (c : MbCmd) (s : State) : Result := .next (s.submit 0x72 c false [])
/-- CAIRN_STATUS (R510). -/
def execCairnStatus (c : MbCmd) (s : State) : Result := .next (s.submit 0x73 c false [])

/-- A command whose opcode the running firmware does not know (R420): BAD_ARGUMENT. -/
def execUnknownOpcode (c : MbCmd) (opcode : BitVec 16) (s : State) : Result :=
  .next (if opKnown opcode.toNat then s else s.submit opcode.toNat c false [])

/-- CAIRN_RESTORE_COPY_COMPLETE (R508): the response is written, and state commands that wait have their turn. -/
def execCairnRestoreCopyComplete (res : Ending) (host : List Cell) (s : State) : Result :=
  match s.cairn.restoring with
  | none => .next s
  | some t =>
    if s.power ≠ .on then .next s
    else
      let m := s.cairn.restoreMb
      let (st, s) : Status × State := s.restoreCopy t res host
      if s.stateMb = some m ∧ (s.mb m).phase = .running then
        let s := { s with stateMb := none }.endCmd m st [] (decide (st = Status.ok))
        .next (s.drainCmds s.mbQueue.length)
      else .next s

/-- The conditions of R426 hold: descriptors, Wake jobs, tier moves, evaluations, Cairn drains, write-combining buffers. -/
def State.settled (s : State) : Bool :=
  (s.rings.all fun (e : Nat × Ring) => e.2.live.isEmpty && e.2.reads.isEmpty) && (s.wakes.all fun (e : Nat × Wake) => e.2.jobs.isEmpty) &&
  (s.tier.tensors.all fun (e : Nat × Tensor) => e.2.state != .copyIn && e.2.state != .copyOut && e.2.state != .recompute) &&
  !s.lowp.busy && s.cairn.phase == .idle && (s.dunes.all fun (e : Nat × Stack) => e.2.wcb.isEmpty)

/-- QUIESCE_COMPLETE (R426). -/
def execQuiesceComplete (s : State) : Result :=
  .next (if s.power = .on ∧ s.dev = .quiescing ∧ s.settled = true then s.setDev .quiesced 0 else s)

end Sys2Proof.Machine
end

