-- ==== Sys2Proof/Machine/Migrate.lean ====
section
/-! DEFINITION. The ends of tensor moves (Table TIER.5) and missed deadlines with their three paths (R320-R322). -/

namespace Sys2Proof.Machine

/-- The home of a tensor lies in the host window. -/
def Tensor.homeInHost (t : Tensor) : Bool := regionOf t.name == some .host

/-- COPY_IN_COMPLETE (Table TIER.5): the last home page is in its frame, or a home read failed. -/
def execCopyInComplete (i : Nat) (ok : Bool) (host : List Cell) (s : State) : Result :=
  let t := s.tensor i
  if s.power ≠ .on ∨ t.state ≠ .copyIn ∨ (ok = true ∧ t.homeInHost = true ∧ s.hostOpen = false) then .next s
  else
    let s := s.seeHost host
    if ok && !s.readBad t.name (t.pages * tierPage) then
      let s := s.write 0 (s.tensorCells i false)
      let s := s.moveTensor i { s.tensor i with state := .resident, dirty := false, moves := t.moves + 1 }
      .next (s.bump 0x02030074 0 16).moveEnded.rewake
    else .next ((s.sendHome i).emitTier 2 .internal [w32 i]).moveEnded.rewake

/-- COPY_OUT_COMPLETE (Table TIER.5): the last write of the T2 home is acknowledged, or a CXL error ended it. -/
def execCopyOutComplete (i : Nat) (ok : Bool) (s : State) : Result :=
  let t := s.tensor i
  if s.power ≠ .on ∨ t.state ≠ .copyOut ∨ s.tier.cmd = some (2, i) ∨ (ok = true ∧ s.hostOpen = false) then .next s
  else if ok then
    let s := (s.countMove i).write 0 (s.tensorCells i true)
    .next (((s.sendHome i).bump 0x02030078 0 16).lowFrames).moveEnded.rewake
  else .next ((s.moveTensor i { t with state := .resident }).emitTier 2 .internal [w32 i]).moveEnded.rewake

/-! ### The end of a tier command -/

/-- Tensors that FLUSH writes back. -/
def State.dirtyTensors (s : State) : List Nat :=
  (s.tier.tensors.filter fun e => e.2.state == .resident && e.2.dirty).map (·.1)

/-- TIER_CMD_COMPLETE (R323): the write-backs or the flash write of the command in progress have ended. A write-back cannot
be acknowledged while the CXL port is closed. -/
def execTierCmdComplete (ok : Bool) (s : State) : Result :=
  if s.power ≠ .on then .next s
  else match s.tier.cmd with
  | some (2, i) =>
    if (s.tensor i).state ≠ .copyOut then .next s
    else if ok && !s.hostOpen then .next s
    else if ok then .next (((((s.countMove i).write 0 (s.tensorCells i true)).dropTensor i).endTierCmd .ok).lowFrames).rewake
    else .next (((s.updTensor i { s.tensor i with state := .resident }).emitTier 2 .internal [w32 2, w32 i]).endTierCmd
      .internal).rewake
  | some (3, i) =>
    if ok && s.flashOpen then .next ((s.write 0 s.tier.loading).endTierCmd .ok)
    else .next ((s.emitTier 2 .internal [w32 3, w32 i]).endTierCmd .internal)
  | some (4, _) =>
    if ok && !s.hostOpen && !s.dirtyTensors.isEmpty then .next s
    else if ok then
      .next ((s.dirtyTensors.foldl (fun s i =>
        ((s.countMove i).write 0 (s.tensorCells i true)).updTensor i { s.tensor i with dirty := false }) s).endTierCmd .ok)
    else .next ((s.emitTier 2 .internal [w32 4]).endTierCmd .internal)
  | _ => .next s

/-! ### Deadlines (R320) -/

/-- Base and row stride of the B operand or of the weights, and bytes of its elements if it is held in a long format. -/
def Task.weightRows (t : Task) : Option (Nat × Nat × Nat) :=
  let (base, stride, attr) := if t.kind = kMatmul then (t.mmB.base, t.mmB.stride, t.mmB.attr)
    else (t.cvW.base, t.cvW.sa, t.cvW.attr)
  if (t.kind = kMatmul ∨ t.kind = kConv) ∧ isLong (attrOf attr).fmt = true then .some (base, stride, fmtBits (attrOf attr).fmt / 8)
  else .none

/-- Where a shadow serves one home range (R321): the range, and the addresses of its elements and scales. -/
def Tensor.shadowRange (x : Tensor) (rows : Nat × Nat × Nat) (r : Nat × Nat) : Nat × Nat × Nat × Nat :=
  let (base, stride, w) := rows
  let row := if stride = 0 then 0 else (r.1 - base) / stride
  let e := (r.1 - base - row * stride) / w
  (r.1, r.1 + r.2, x.shBase + row * x.shStride + e, x.shScale + row * x.shScaleStride + e / 32)

/-- Path 1 (R321): the fill is issued again, wholly from the shadow, for the same chunk. -/
def State.missShadow (s : State) (id x : Nat) (f : Xfer) (t : Tensor) (rows : Nat × Nat × Nat) : State :=
  let k := s.task id
  let hs := f.ranges.map (t.shadowRange rows)
  let w := rows.2.2
  let xs := packRows f.kind f.stage true false (hs.map fun h => ⟨h.2.2.1, (h.2.1 - h.1) / w, h.2.2.2, ((h.2.1 - h.1) / w + 31) / 32⟩)
  let s := s.setTask id { k with flying := k.flying.eraseIdx x, shadow := hs ++ k.shadow }
  (s.bump 0x0203007C 0 16).giveXfers id true xs

/-- Identifier of the recompute task of tensor i. -/
def recomputeId (i : Nat) : Nat := 512 * 0x100000000 + i

/-- Validate and deliver the recompute descriptor of tensor i (R322): for the partition of the task that missed. -/
def State.submitRecompute (s : State) (i : Nat) (miss : Task) : State :=
  let da := (s.tensor i).recomp
  let id := recomputeId i
  let t : Task := { Task.none with
    words := (List.range 16).map fun j => w32 (s.loadNat (da + 4 * j) 4), state := .fetched, home := 0x3FF,
    part := miss.part, lc := miss.lc, recompute := some i }
  let (st, t) := s.validate t
  let st := if st == .ok && (t.kind == kFence || s.readBad da 64) then Status.badArgument else st
  let s := s.setTask id { t with status := .ok }
  if st != .ok then s.finishTask id st
  else match s.deliverTo t with
    | none => s.finishTask id (s.noCrew t)
    | some c => (s.setTask id { t with home := c }).enqueue id false

/-- Path 2 (R322): take the tensor's frames, submit its descriptor and suspend the task that missed. -/
def State.missRecompute (s : State) (k id x i : Nat) (f : Xfer) (frames : List Nat) : State :=
  let t := s.task id
  let s := s.moveTensor i { s.tensor i with state := .recompute, frames := frames }
  let u := s.scull k
  let s := s.setScull k { u with task := none, suspended := u.suspended ++ [id] }
  let s := s.setTask id { t with
    state := .suspended (.recompute i), flying := t.flying.eraseIdx x, todo := { f with issuedAt := noDeadline } :: t.todo,
    busyUs := t.busyUs + (s.etc - t.startedAt) }
  (((s.bump 0x0203007C 16 16).submitRecompute i t).pumpAll).lowFrames

/-- DEADLINE_EXPIRY (R320): outstanding transfer x of the scull, which read a page at home when it was granted, has not
received its last byte by its deadline; the miss is logged and the first path that applies is taken. -/
def execDeadlineExpiry (k x : Nat) (s : State) : Result :=
  match (s.outstanding k)[x]? with
  | none => .next s
  | some (id, j) =>
    let t := s.task id
    match t.flying[j]?, t.flying[j]?.bind (·.home) with
    | some f, some i =>
      let r := s.tensor i
      let dl := (s.reg (0x02030040 + 4 * r.dlClass)).toNat
      if s.power = .on ∧ t.state = .running ∧ f.issuedAt ≠ noDeadline ∧ dl ≠ 0 ∧ f.issuedAt + dl + 1 ≤ s.etc then
        let s := s.emitUnit 10 0 1 evDeadline .deadlineMiss [w32 i, w32 t.key]
        match (if f.weight && r.shBase != 0 then t.weightRows else none) with
        | some rows => .next (s.missShadow id j f r rows)
        | none =>
          let s' := if r.recomp ≠ 0 ∧ r.state = .atHome then s.makeRoom r.pages 0 [] s.tier.tensors.length else s
          match (if r.recomp ≠ 0 ∧ r.state = .atHome then s'.takeFrames r.pages else none) with
          | some frames => .next (s'.missRecompute k id j i f frames)
          | none =>
            let s := s'.setTask id { t with flying := t.flying.set j { f with issuedAt := noDeadline } }
            .next (s.bump 0x02030080 0 32)
      else .next s
    | _, _ => .next s

end Sys2Proof.Machine
end

