-- ==== Sys2Proof/Machine/Sched.lean ====
section
/-! DEFINITION. Loans of crews between partitions (R390-R395): RECLAIM, RETURN and the drain limit. -/

namespace Sys2Proof.Machine

/-- Home partition of a crew. -/
def State.crewHome (s : State) (c : Nat) : Nat := s.fld (crewReg c 0x20) 0 3

/-- A RECLAIM of partition p moves this crew (R390): good, loanable to p, serving its home. -/
def State.reclaimable (s : State) (p c : Nat) : Bool :=
  s.fld (crewReg c 0x20) 7 1 == 1 && s.fld (crewReg c 0x20) 4 3 == p && s.crewHome c != p && s.inSet (s.crewHome c) c

/-- Crews that a command would move. -/
def State.movers (s : State) (op p : Nat) : List Nat :=
  (List.range 768).filter fun c => if op = 1 then s.reclaimable p c else (s.crew c).serving == some p && s.inSet p c

/-- A RECLAIM of these crews leaves an enabled BE partition without a good crew (R395). -/
def State.emptiesPart (s : State) (cs : List Nat) : Bool :=
  (List.range 8).any fun b => s.partEn b && s.partBE b && (cs.any fun c => s.crewHome c == b) &&
    !((List.range 768).any fun c => s.inSet b c && !cs.contains c)

/-- Pre-empt the running tasks of a moving crew's home (R390 step 3). -/
def State.preemptRunning (s : State) (c : Nat) : State :=
  (List.range 16).foldl (fun s i =>
    match (s.scull (16 * c + i)).task with
    | some id => if (s.task id).part = s.crewHome c then s.endRun id true else s
    | none => s) s

/-- Pre-empt the suspended tasks of a moving crew; a COLLECT moves as a queued task does (R377, R390 step 2). -/
def State.preemptSuspended (s : State) (c : Nat) : State :=
  (List.range 16).foldl (fun s i =>
    (s.scull (16 * c + i)).suspended.foldl (fun s id =>
      let t := s.task id
      if t.kind = kCollect then
        match s.substitute (c / 48) t.part fun _ => true with
        | some x => (s.leaveScull id).setTask id { t with home := x, scull := none }
        | none => s
      else s.endRun id true) s) s

/-- BE tasks that a Seif context of the crew holds (R390 step 2). -/
def State.preemptContexts (s : State) (c : Nat) : State :=
  (s.crew c).ctxHeld.foldl (fun s id => s.endRun id true) s

/-- The commands of SCHED_CMD: the checks of R395, in order of device state, a command in progress, and its arguments; then the
move. A command that is refused with BAD_ARGUMENT ends at once. -/
def State.schedCmd (s : State) (op p : Nat) (req : Requester) : State :=
  let off := 0x02070094
  let v := w32 (op + p * 4)
  s.onReg req off v fun s =>
    let old := s.reg off
    if s.dev ≠ .ready ∧ s.dev ≠ .running then s.logRefused req off .stateInvalid old v
    else if s.sched.busy then s.logRefused req off .busy old v
    else
      let cs := s.movers op p
      if (op ≠ 1 ∧ op ≠ 2) ∨ s.partEn p = false ∨ s.partBE p = true ∨ cs = [] ∨ (op = 1 ∧ s.emptiesPart cs = true) then
        s.schedEnds op p 0 .badArgument
      else
        let s := s.takeReg req off old v v
        let s : State := { s with sched := ⟨op, p, s.etc, cs, cs.length, true, .ok⟩ }
        let s := cs.foldl (fun s c => s.setCrew c { s.crew c with draining := true }) s
        let s := cs.foldl (fun s c => s.moveQueue c (fun t => t.part == (if op = 1 then s.crewHome c else p)) fun _ => true) s
        let s := if op = 1 then cs.foldl (fun s c => (s.preemptSuspended c).preemptContexts c) s else s
        let s := if op = 1 ∧ s.fld 0x02070090 0 16 = 0 then cs.foldl State.preemptRunning s else s
        s.rewake.joinDrained.pumpAll

/-- RECLAIM (R390, R395). -/
def execReclaim (p : Nat) (req : Requester) (s : State) : Result := .next (s.schedCmd 1 p req)

/-- RETURN (R393, R395). -/
def execSchedReturn (p : Nat) (req : Requester) (s : State) : Result := .next (s.schedCmd 2 p req)

/-- DRAIN_LIMIT_EXPIRY (R390): drain_limit microseconds after the grant the BE tasks still running are pre-empted. -/
def execDrainLimitExpiry (s : State) : Result :=
  if s.power = .on ∧ s.sched.busy = true ∧ s.sched.op = 1 ∧ s.sched.at_ + s.fld 0x02070090 0 16 + 1 ≤ s.etc then
    .next (s.sched.crews.foldl State.preemptRunning s)
  else .next s

end Sys2Proof.Machine
end

