-- ==== Sys2Proof/Machine/SweepPort.lean ====
section
/-! DEFINITION. Sweep ports (R347-R361): their states (Table SWEEP.5), admission and rekeying (R477-R479), flits and frames. -/

namespace Sys2Proof.Machine

/-! ### MGMT messages (R477, Table SEC.5) -/

/-- An MGMT body. -/
def mgmtBody (sub : Nat) (content : List Byte) : List Byte :=
  leBytes 1 sub ++ leBytes 1 0 ++ leBytes 2 content.length ++ content

/-- Send an MGMT body to the partner of a port. -/
def State.sendMgmt (s : State) (p : Nat) (body : List Byte) : State :=
  s.sendOn p ⟨mMgmt, 0, (s.port p).peer, 0, 0, 0, 0, body⟩

/-- CERT bodies of this module. -/
def State.myCerts (s : State) : List (List Byte) := [0, 1, 2].map fun i => mgmtBody 1 (leBytes 1 i ++ s.certOf i)

/-- A port that a failed check quarantines (R358, Table SEC.6). -/
def State.admitFail (s : State) (p : Nat) : State := (s.secFail .authFailed 6).quarantine p 1 .authFailed

/-- An id check fails. -/
def State.idFail (s : State) (p : Nat) : State := s.quarantine p 6 .badArgument

/-- The module is the initiator of a port's admission (R478). -/
def State.initiates (s : State) (p : Nat) : Bool := decide (s.myId < (s.port p).peer)

/-- A check of the partner's id (R358). -/
def State.idOk (s : State) (p id : Nat) : Bool :=
  let c := s.reg (portReg p 0)
  decide (id ≠ s.myId) && (bits c 3 1 == 1 || bits c 6 13 == id)

/-! ### States (Table SWEEP.5) -/

/-- A port goes to TRAINING. -/
def State.train (s : State) (p : Nat) : State := (s.portTo p .training 0).emitPort p 0 evPortState .ok [2, w32 (s.port p).peer]

/-- A port goes DOWN, logged. -/
def State.portDown (s : State) (p : Nat) : State := (s.portTo p .down 0).emitPort p 1 evPortState .internal [1, w32 (s.port p).peer]

/-- Lanes have trained: the link is up with every credit of the partner's buffers, and admission begins with the certificates
(R477, R478). -/
def State.attest (s : State) (p : Nat) (x4 upper : Bool) : State :=
  let full : Tab Nat := [(0, 64), (1, 1024), (2, 768), (3, 64)]
  let s := s.portTo p .attesting 0
  let at_ : Tab Nat := if s.etc = 0 then [] else [(0, s.etc), (1, s.etc), (2, s.etc), (3, s.etc)]
  let s := s.setPort p { s.port p with
    x4 := x4, upper := upper, peer := s.fld (portReg p 0) 6 13, credits := full, granted := full, creditAt := at_ }
  if s.sec.attReady = false ∨ s.sec.rngStop = true then s.admitFail p
  else s.myCerts.foldl (fun s b => s.sendMgmt p b) s

/-- A write of SWEEP_PORT_CTRL (R357, R360, Table SWEEP.10): readmit reads 0. -/
def State.writePortCtrl (s : State) (p : Nat) (v : Word) (req : Requester) : State :=
  let off := portReg p 0
  s.onReg req off v fun s => s.checked req off v fun s =>
    let old := s.reg off
    let new := setBits (w32 (v.toNat % 0x80000)) 2 1 0
    let s := s.takeReg req off old new new
    let x := s.port p
    if bits v 0 1 = 0 then
      if x.state = .disabled then s
      else (s.portTo p .disabled 0).emitPort p 0 evPortState .ok [0, w32 x.peer]
    else if x.state = .disabled ∧ x.guardDis = false then s.train p
    else if x.state = .quarantined ∧ bits v 2 1 = 1 then s.train p
    else s

/-- PORT_ENABLE (R357): SWEEP_PORT_CTRL written with en = 1. -/
def execPortEnable (p : Nat) (v : Word) (req : Requester) (s : State) : Result := .next (s.writePortCtrl p (setBits v 0 1 1) req)

/-- PORT_DISABLE (R357): SWEEP_PORT_CTRL written with en = 0. -/
def execPortDisable (p : Nat) (v : Word) (req : Requester) (s : State) : Result := .next (s.writePortCtrl p (setBits v 0 1 0) req)

/-- READMIT (R360): SWEEP_PORT_CTRL written with readmit = 1. -/
def execReadmit (p : Nat) (v : Word) (req : Requester) (s : State) : Result := .next (s.writePortCtrl p (setBits v 2 1 1) req)

/-- TRAINING_DONE (R348): all eight lanes, or one half with allow_x4; otherwise the port does not come up. -/
def execTrainingDone (p : Nat) (lanes : BitVec 8) (s : State) : Result :=
  if s.power = .on ∧ (s.port p).state = .training ∧ s.locked (portIsland p) = true then
    let lo := decide (lanes.toNat % 16 = 15)
    let hi := decide (lanes.toNat / 16 = 15)
    if lo && hi then .next (s.attest p false false)
    else if (lo || hi) && s.fld (portReg p 0) 1 1 == 1 then .next (s.attest p true hi)
    else .next (s.portDown p)
  else .next s

/-- TRAINING_TIMEOUT (R357): 20,000 µs in TRAINING. -/
def execTrainingTimeout (p : Nat) (s : State) : Result :=
  let x := s.port p
  .next (if s.power = .on ∧ x.state = .training ∧ x.since + 20001 ≤ s.etc then s.portDown p else s)

/-- DOWN_RETRY_EXPIRY (R357): 1,000,000 µs in DOWN. -/
def execDownRetryExpiry (p : Nat) (s : State) : Result :=
  let x := s.port p
  .next (if s.power = .on ∧ x.state = .down ∧ x.since + 1000001 ≤ s.etc then s.train p else s)

/-- ATTEST_TIMEOUT (R357): 50,000 µs in ATTESTING. -/
def execAttestTimeout (p : Nat) (s : State) : Result :=
  let x := s.port p
  .next (if s.power = .on ∧ x.state = .attesting ∧ x.since + 50001 ≤ s.etc then s.portDown p else s)

/-! ### Admission (R478) -/

/-- Run a handler of an admission message: in ATTESTING; such a message while ADMITTED breaks protocol (R359). -/
def State.onAdmission (s : State) (p : Nat) (go : State → State) : Result :=
  if s.power ≠ .on then .next s
  else match (s.port p).state with
    | .attesting => .next (go s)
    | .admitted => .next (s.quarantine p 2 .badArgument)
    | _ => .next s

/-- A certificate of the partner. -/
def Port.cert (x : Port) (i : Nat) : List Byte := ((x.certs.find? fun c => c.1 == i).map (·.2)).getD []

/-- The partner's chain reaches a valid root slot (R478): the slot that holds the running image's root key, the one root key that
the module has. -/
def State.chainOk (s : State) (x : Port) : Bool :=
  let root := imgRoot s.nv.runImage
  (s.rootSlot root).isSome && certOk (x.cert 0) 1 root && certOk (x.cert 1) 2 (certSubject (x.cert 0)) &&
  certOk (x.cert 2) 3 (certSubject (x.cert 1)) && slice (x.cert 1) 8 16 == slice (x.cert 2) 8 16

/-- The next use of the random-bit generator: its number. -/
def State.random (s : State) : Nat × State := (s.sec.draws, { s with sec := { s.sec with draws := s.sec.draws + 1 } })

/-- H (R478): every MGMT body up to here, the initiator's first. -/
def State.transcriptHash (s : State) (p : Nat) : List Byte :=
  let x := s.port p
  let theirs := x.certs.map fun c => mgmtBody 1 (leBytes 1 c.1 ++ c.2)
  let certs := if s.initiates p then s.myCerts ++ theirs else theirs ++ s.myCerts
  shake256 ((certs ++ x.transcript).flatten) 32

/-- Step 3 of R478: H is formed and SIGN sent; an attestation key without a signature left fails the admission. -/
def State.sendSign (s : State) (p : Nat) : State :=
  let h := s.transcriptHash p
  match s.attSign h with
  | some (sig, s) =>
    (s.setPort p { s.port p with digest := h }).sendMgmt p (mgmtBody 4 (sig ++ leBytes 2 s.myId ++ leBytes 1 p))
  | none => s.secRefused.quarantine p 1 .authFailed

/-- CERT: with the third certificate the chain is checked; the initiator then sends KEM_EK. -/
def execMgmtCert (p src index : Nat) (cert : List Byte) (s : State) : Result :=
  s.onAdmission p fun s =>
    let x := s.port p
    if 3 ≤ index ∨ (x.certs.any fun c => c.1 == index) = true then s.admitFail p
    else
      let x := { x with certs := x.certs ++ [(index, cert)], peer := src }
      let s := s.setPort p x
      if x.certs.length < 3 then s
      else if !s.chainOk x then s.admitFail p
      else if src = s.myId then s.idFail p
      else if s.initiates p then
        let (n, s) := s.random
        let body := mgmtBody 2 (Config.kemKey n ++ Config.nonce n)
        (s.setPort p { s.port p with nonceUsed := n, ekSent := true, transcript := [body] }).sendMgmt p body
      else s

/-- KEM_EK: the responder encapsulates, answers with KEM_CT, and signs. -/
def execMgmtKemEk (p : Nat) (ek nonce : List Byte) (s : State) : Result :=
  s.onAdmission p fun s =>
    let x := s.port p
    if x.certs.length < 3 ∨ s.initiates p = true ∨ x.transcript ≠ [] then s.admitFail p
    else
      let (n, s) := s.random
      let (ct, ss) := Config.kemEncaps n ek
      let body := mgmtBody 3 (ct ++ Config.nonce n)
      let s := s.setPort p { s.port p with secret := ss, transcript := [mgmtBody 2 (ek ++ nonce), body] }
      (s.sendMgmt p body).sendSign p

/-- KEM_CT: the initiator decapsulates and signs. -/
def execMgmtKemCt (p : Nat) (ct nonce : List Byte) (s : State) : Result :=
  s.onAdmission p fun s =>
    let x := s.port p
    if x.ekSent = false ∨ x.secret ≠ [] then s.admitFail p
    else
      let x := { x with secret := Config.kemDecaps x.nonceUsed ct, transcript := x.transcript ++ [mgmtBody 3 (ct ++ nonce)] }
      (s.setPort p x).sendSign p

/-- Keys of a key identifier (R478 step 4): this module's transmit and receive keys. -/
def State.deriveKeys (s : State) (p : Nat) (ss h : List Byte) (kid : Nat) : List Byte × List Byte :=
  let x := s.port p
  let init := s.initiates p
  let a := if init then s.myId else x.peer
  let b := if init then x.peer else s.myId
  let okm := shake256 (ss ++ h ++ leBytes 2 a ++ leBytes 2 b ++ leBytes 4 kid) 64
  if init then (okm.take 32, okm.drop 32) else (okm.drop 32, okm.take 32)

/-- Policy on the partner (R478): its life-cycle code and security version, from its attestation certificate. -/
def State.policyOk (s : State) (x : Port) : Bool :=
  let c := x.cert 2
  let w := s.reg 0x24C
  natBit (bits w 0 6) (numAt c 5 1) && decide (bits w 6 6 ≤ numAt c 6 2)

/-- SIGN: the partner's signature, policy and id are checked; the keys are derived and FINISH is the first frame under them. -/
def execMgmtSign (p : Nat) (sig : List Byte) (sender senderPort : Nat) (s : State) : Result :=
  s.onAdmission p fun s =>
    let x := s.port p
    let _ := senderPort
    if x.digest = [] ∨ x.finSent = true then s.admitFail p
    else if !(Config.xmssVerify (certSubject (x.cert 2)) x.digest sig && s.policyOk x) then s.admitFail p
    else if sender ≠ x.peer ∨ s.idOk p sender = false then s.idFail p
    else
      let (tx, rx) := s.deriveKeys p x.secret x.digest 1
      let s := s.setPort p { x with kid := 1, txKey := tx, rxKey := rx, txCtr := 0, rxCtr := 0, finSent := true }
      s.sendMgmt p (mgmtBody 5 (shake256 x.digest 32))

/-- FINISH: a good tag and the right hash admit the partner. -/
def execMgmtFinish (p : Nat) (hash : List Byte) (tagGood : Bool) (s : State) : Result :=
  s.onAdmission p fun s =>
    let x := s.port p
    if x.finSent && tagGood && hash == shake256 x.digest 32 then
      let s := s.setPort p { x with state := .admitted, since := s.etc, rxCtr := 1, ekSent := false, tagFails := 0, statAt := s.etc }
      s.emitPort p 0 evPortState .ok [4, w32 x.peer]
    else s.admitFail p

/-! ### Rekeying (R479) -/

/-- Run a handler of a message that an ADMITTED partner may send. -/
def State.onAdmitted (s : State) (p : Nat) (go : State → State) : Result :=
  .next (if s.power = .on ∧ (s.port p).state = .admitted then go s else s)

/-- Begin a rekey: REKEY_EK from a fresh key pair; without a generator the rekey fails. -/
def State.sendRekey (s : State) (p : Nat) : State :=
  if s.sec.rngStop then s.quarantine p 5 .authFailed
  else
    let (n, s) := s.random
    let body := mgmtBody 6 (Config.kemKey n ++ Config.nonce n)
    (s.setPort p { s.port p with nonceUsed := n, ekSent := true, rekeyAt := some s.etc, transcript := [body] }).sendMgmt p body

/-- The new keys stand: REKEY_DONE is the last frame under the old one. -/
def State.switchKeys (s : State) (p : Nat) (ss : List Byte) (bodies : List (List Byte)) : State :=
  let h := shake256 ((s.port p).digest ++ bodies.flatten) 32
  let kid := (s.port p).kid + 1
  let (tx, rx) := s.deriveKeys p ss h kid
  let s := s.sendMgmt p (mgmtBody 8 [])
  s.setPort p { s.port p with
    digest := h, kid := kid, txKey := tx, txCtr := 0, newRx := rx, ekSent := false, transcript := [], secret := ss }

/-- REKEY_START (R352): after 2^31 frames on a key the sender starts a rekey. -/
def execRekeyStart (p : Nat) (s : State) : Result :=
  s.onAdmitted p fun s => if 2 ^ 31 ≤ (s.port p).txCtr ∧ (s.port p).rekeyAt = none then s.sendRekey p else s

/-- REKEY_EK: where both sides sent one, the initiator's stands; otherwise it is answered with REKEY_CT. -/
def execMgmtRekeyEk (p : Nat) (ek nonce : List Byte) (s : State) : Result :=
  s.onAdmitted p fun s =>
    if (s.port p).ekSent && s.initiates p then s
    else if s.sec.rngStop then s.quarantine p 5 .authFailed
    else
      let (n, s) := s.random
      let (ct, ss) := Config.kemEncaps n ek
      let body := mgmtBody 7 (ct ++ Config.nonce n)
      let s := (s.setPort p { s.port p with rekeyAt := some ((s.port p).rekeyAt.getD s.etc) }).sendMgmt p body
      s.switchKeys p ss [mgmtBody 6 (ek ++ nonce), body]

/-- REKEY_CT: the answer to this module's REKEY_EK. -/
def execMgmtRekeyCt (p : Nat) (ct nonce : List Byte) (s : State) : Result :=
  s.onAdmitted p fun s =>
    let x := s.port p
    if x.ekSent then s.switchKeys p (Config.kemDecaps x.nonceUsed ct) (x.transcript ++ [mgmtBody 7 (ct ++ nonce)]) else s

/-- REKEY_DONE: the partner's frames after it are under the new key. -/
def execMgmtRekeyDone (p : Nat) (s : State) : Result :=
  s.onAdmitted p fun s =>
    let x := s.port p
    if x.newRx = [] then s else s.setPort p { x with rxKey := x.newRx, rxCtr := 0, newRx := [], rekeyAt := none }

/-- REKEY_TIMEOUT (R479): not finished within 50,000 µs. -/
def execRekeyTimeout (p : Nat) (s : State) : Result :=
  s.onAdmitted p fun s =>
    match (s.port p).rekeyAt with
    | some a => if a + 50001 ≤ s.etc then s.quarantine p 5 .authFailed else s
    | none => s

/-! ### Quotes and telemetry between peers (R475, R477) -/

/-- QUOTE_REQ: answered with a quote; refused once the attestation key is spent (Table SEC.6). -/
def execMgmtQuoteReq (p : Nat) (nonce : List Byte) (s : State) : Result :=
  s.onAdmitted p fun s =>
    match s.quote nonce with
    | some (q, s) => s.sendMgmt p (mgmtBody 10 q)
    | none => s.secRefused

/-- QUOTE: this module asks for none, and a quote that arrives changes nothing. -/
def execMgmtQuote (_p : Nat) (_quote : List Byte) (s : State) : Result := .next s

/-- LINKSTAT: informational only. -/
def execMgmtLinkstat (_p : Nat) (_retry _err : Word) (s : State) : Result := .next s

/-- LINKSTAT_SEND: every 1,000,000 µs while admitted. -/
def execLinkstatSend (p : Nat) (s : State) : Result :=
  s.onAdmitted p fun s =>
    if (s.port p).statAt + 1000000 ≤ s.etc then
      let body := mgmtBody 0x10 (leBytes 4 (s.reg (portReg p 8)).toNat ++ leBytes 4 (s.reg (portReg p 0xC)).toNat)
      (s.setPort p { s.port p with statAt := s.etc }).sendMgmt p body
    else s

/-! ### Flits (R349, R351, R356) -/

/-- Ask for replay from the first flit that is missing. -/
def State.nak (s : State) (p : Nat) : State :=
  let x := s.port p
  ((s.sendIdle p x.ack true 0 0).setPort p { x with lost := true }).bump (portReg p 8) 0 16

/-- The acknowledgement of a flit, and its nak: a replay; the 8th in a row retrains the port. -/
def State.onAck (s : State) (p ack : Nat) (nak : Bool) : State :=
  let x := s.port p
  let d := (ack + 1 + 4096 - x.txAck % 4096) % 4096
  let x := if d ≠ 0 ∧ x.txAck + d ≤ x.txSeq then { x with
    txAck := x.txAck + d, replays := 0, unacked := x.unacked.filter fun q => decide (x.txAck + d ≤ q.1) } else x
  let s := s.setPort p x
  if nak = false ∨ x.txAck = x.txSeq then s.sendWaiting p (2 * x.waiting.length)
  else if 8 ≤ x.replays + 1 then
    let s := s.bump (portReg p 8) 16 16
    (s.portTo p .training 0).emitPort p 1 evPortState .internal [2, w32 x.peer]
  else { s with tx := (x.unacked.reverse.map fun (q : Nat × List Byte) => Sent.flit p q.2) ++ s.tx }.setPort p { x with replays := x.replays + 1 }

/-- Credits that a flit returns. -/
def State.onCredits (s : State) (p vc n : Nat) : State :=
  if n = 0 then s
  else
    let x := s.port p
    let x := { x with credits := Tab.put 0 x.credits vc (Tab.get 0 x.credits vc + n), creditAt := Tab.put 0 x.creditAt vc s.etc }
    (s.setPort p x).sendWaiting p (2 * x.waiting.length)

/-- A sequenced flit in its turn: it uses a credit that this module granted, and extends its channel's frame; its body stands in
the receive buffer. -/
def State.takeFlit (s : State) (p vc : Nat) (sof eof : Bool) (body : List Byte) : State :=
  let x := s.port p
  let n := if sof then 1 else Tab.get 0 x.inFrame vc + 1
  if Tab.get 0 x.granted vc = 0 ∨ 15 < n then s.quarantine p 2 .badArgument
  else s.setPort p { x with
    granted := Tab.put 0 x.granted vc (Tab.get 0 x.granted vc - 1), rxSeq := x.rxSeq + 1, lost := false
    firstSeq := if sof then Tab.put 0 x.firstSeq vc x.rxSeq else x.firstSeq
    inFrame := Tab.put 0 x.inFrame vc (if eof then 0 else n)
    rxBuf := Tab.put [] x.rxBuf vc (Tab.get [] x.rxBuf vc ++ [body]) }

/-- FLIT_RECEIVE (R349, R351, R356, R359). A flit with a bad CRC, or out of sequence, is discarded; those that follow are
discarded until the replay. -/
def execFlitReceive (p : Nat) (flit : List Byte) (s : State) : Result :=
  let x := s.port p
  if s.power ≠ .on ∨ (x.state ≠ .attesting ∧ x.state ≠ .admitted) then .next s
  else if crc32 (flit.take 252) ≠ BitVec.ofNat 32 (numAt flit 252 4) then .next (if x.lost then s else s.nak p)
  else
    let h := numAt flit 0 8
    let f (lo n : Nat) : Nat := h / 2 ^ lo % 2 ^ n
    if f 5 3 ≠ 0 ∨ f 43 21 ≠ 0 then .next (s.quarantine p 2 .badArgument)
    else
      let idle := f 4 1 == 1
      let behind := (x.rxSeq + 4096 - f 8 12) % 4096
      if !idle && behind != 0 then .next (if x.lost || decide (behind < 2048) then s else s.nak p)
      else
        let s := if idle then s else s.takeFlit p (f 0 2) (f 2 1 == 1) (f 3 1 == 1) ((flit.drop 8).take 244)
        if (s.port p).state ≠ x.state then .next s
        else
          let s := s.onCredits p (f 41 2) (f 33 8)
          .next (s.onAck p (f 20 12) (f 32 1 == 1))

/-! ### Frames (R350, R352, R359, R361) -/

/-- Types that Table SWEEP.3 lists. -/
def typeOk (t : Nat) : Bool :=
  (decide (1 ≤ t) && decide (t ≤ 6)) || t == 0x10 || t == 0x11 || (decide (0x20 ≤ t) && decide (t ≤ 0x23)) || t == 0x30

/-- A frame whose form breaks protocol: a reserved type or field, or a length that does not fit. -/
def frameBroken (f : Frame) : Bool :=
  let h := f.header
  let t := numAt h 0 1
  !typeOk t || decide (4 ≤ numAt h 1 1) || decide (0x2000 ≤ numAt h 2 2) || decide (0x2000 ≤ numAt h 4 2) ||
  (decide (0x20 ≤ t) && decide (t < 0x30) && numAt h 0xF 1 != 0) || (decide (t < 0x20) && numAt h 0xB 1 != 0) ||
  decide (15 < f.flits) || decide (3584 < numAt h 6 2) || numAt h 6 2 != f.body.length ||
  decide (244 * f.flits < 48 + numAt h 6 2) || !f.padded

/-- The buffer of a frame is free again, and its credits go back to the partner (R356), in an idle flit (log entry 85). -/
def State.freeBuffer (s : State) (p vc n : Nat) : State :=
  let x := s.port p
  let g := min (vcBuffer vc) (Tab.get 0 x.granted vc + n)
  (s.sendIdle p x.ack false vc (g - Tab.get 0 x.granted vc)).setPort p { x with
    granted := Tab.put 0 x.granted vc g, rxBuf := Tab.put [] x.rxBuf vc ((Tab.get [] x.rxBuf vc).drop n) }

/-- A tag failure (R352): discarded, counted, asked for again from the frame's first flit; at the limit the port is quarantined. -/
def State.tagFail (s : State) (p vc : Nat) : State :=
  let s := (s.secFail .authFailed 7).bump (portReg p 0xC) 0 16
  let s := s.sendIdle p ((Tab.get 0 (s.port p).firstSeq vc + 4095) % 4096) true 0 0
  let s := s.bump (portReg p 8) 0 16
  let n := (s.port p).tagFails + 1
  let s := s.setPort p { s.port p with tagFails := n }
  if max 1 (s.fld 0x02060008 16 8) ≤ n then s.quarantine p 4 .authFailed else s

/-- FRAME_RECEIVE (R352, R359, R361, R477): the frame's tag, then its counter and form; a frame for another module goes on; what a
message for this module does is its own command. -/
def execFrameReceive (p : Nat) (f : Frame) (s : State) : Result :=
  let x := s.port p
  let h := f.header
  let vc := vcOf (numAt h 0 1)
  if s.power ≠ .on then .next s
  else match x.state with
  | .attesting =>
    let s := s.freeBuffer p vc f.flits
    if numAt h 0 1 = mMgmt ∧ x.finSent = false ∧ f.tag.all (· == 0) then
      .next (s.setPort p { s.port p with rxBytes := x.rxBytes + f.body.length })
    else .next s
  | .admitted =>
    let s := s.freeBuffer p vc f.flits
    let iv := leBytes 4 (if x.newRx = [] then x.kid else x.kid - 1) ++ leBytes 8 (numAt h 0x10 8)
    match Config.gcmOpen x.rxKey iv h f.body f.tag with
      | none => .next (s.tagFail p vc)
      | some data =>
        let s := s.setPort p { s.port p with rxCtr := x.rxCtr + 1, rxBytes := x.rxBytes + data.length }
        if numAt h 0x10 8 ≠ x.rxCtr + 1 ∨ frameBroken f then .next (s.quarantine p 2 .badArgument)
        else if numAt h 4 2 ≠ s.myId ∧ numAt h 0 1 ≠ mMgmt then
          .next (s.route (numAt h 2 2)
            ⟨numAt h 0 1, numAt h 1 1, numAt h 4 2, numAt h 8 8, numAt h 0x18 4, numAt h 0x1C 2, numAt h 0x1E 2, data⟩)
        else .next s
  | _ => .next s

/-- CREDIT_STARVATION (R356): a frame waits, no credit is in hand, and none has come for SWEEP_CFG.credit_to. -/
def execCreditStarvation (p vc : Nat) (s : State) : Result :=
  s.onAdmitted p fun s =>
    let x := s.port p
    let span := s.fld 0x02060008 0 16
    if span ≠ 0 ∧ (x.waiting.any fun w => w.1 == vc) = true ∧ Tab.get 0 x.credits vc = 0 ∧
        Tab.get 0 x.creditAt vc + span + 1 ≤ s.etc then s.quarantine p 3 .internal
    else s

end Sys2Proof.Machine
end

