-- ==== Sys2Proof/Machine/Reg.lean ====
section
/-! DEFINITION. Register accesses (20_register_behaviour.md): a write by its offset, bit aliases, strobes and snapshots, reads. -/

namespace Sys2Proof.Machine

/-! ### Strobes and snapshots (R441, R445) -/

/-- Copy the shadows of the strobed groups into their pending stage; sculls that run a task reach their boundary at its end. -/
def State.strobe (s : State) (mask : Word) : State :=
  let s : State := if bits mask 3 1 = 1 then
      { s with
        staged3 := some (s.reg 0x304 ++ s.reg 0x300)
        seeded := (s.sculls.filter fun (e : Nat × Scull) => e.2.task.isSome).map (·.1) }
    else s
  if bits mask 5 1 = 1 then { s with staged5 := some (s.reg 0x02060004) } else s

/-- A write of GLOBAL_APPLY. -/
def State.writeApply (s : State) (mask : Word) (req : Requester) : State :=
  s.onReg req 0x100 mask fun s => (s.logWrite req 0x100 (s.view 0x100) mask).strobe mask

/-- GLOBAL_APPLY (R441). -/
def execGlobalApply (mask : Word) (req : Requester) (s : State) : Result := .next (s.writeApply mask req)

/-- Snapshot group of an offset (Table CSR.1). -/
def snapGroup (off : Nat) : Nat :=
  if off < 0x01000000 then 16
  else if off < 0x02000000 then (off - 0x01000000) / 0x100000
  else if off < 0x03000000 then 16 + (off - 0x02000000) / 0x400000
  else if off < 0x03400000 then (off - 0x03000000) / 0x30000
  else if off < 0x03600000 then 16 + (off - 0x03400000) / 0x40000
  else 19

/-- The counter fields of a register. -/
def RegDef.counters (d : RegDef) : Word :=
  w32 (d.fields.foldl (fun a f => if f.counter then a + (2 ^ f.width - 1) * 2 ^ f.lo else a) 0)

/-- Offsets at which a counter may differ from 0: the registers that have changed, ETC, the ports' data counters, the ergs'
beat monitors. -/
def State.counterOffs (s : State) : List Nat :=
  [0x200, 0x204] ++ (s.regs.map (·.1)) ++ ((List.range 18).flatMap fun p => [portReg p 0x10, portReg p 0x14]) ++
  (List.range 16).flatMap fun d => [ergReg d 0x100, ergReg d 0x104]

/-- Capture the counters of the groups of a mask into their holding registers. -/
def State.capture (s : State) (mask : Word) : State :=
  let sel (off : Nat) : Bool := decide (snapGroup off < 20) && bits mask (snapGroup off) 1 == 1
  let kept := s.holding.filter fun (e : Nat × Word) => !sel e.1
  let hold := (s.counterOffs.filter sel).foldl (fun (t : Tab Word) off =>
    match regDef off with
    | some d => Tab.put 0 t off (s.view off &&& d.counters)
    | none => t) kept
  { s with holding := hold, host := { s.host with dropLogged := s.host.dropLogged && bits mask 16 1 == 0 } }

/-- A write of GLOBAL_SNAP; it is not logged (R491). -/
def State.writeSnap (s : State) (mask : Word) (req : Requester) : State := s.onReg req 0x104 mask fun s => s.capture mask

/-- GLOBAL_SNAP (R445). -/
def execGlobalSnap (mask : Word) (req : Requester) (s : State) : Result := .next (s.writeSnap mask req)

/-! ### Bit aliases (R443, R444) -/

/-- The guarded pair at an offset. -/
def guardAt (off : Nat) : Option Nat :=
  if 0x4000 ≤ off ∧ off < 0x4020 then some ((off - 0x4000) / 4)
  else if 0xC000 ≤ off ∧ off < 0xC020 then some ((off - 0xC000) / 4)
  else none

/-- The access code of a bit of a register. -/
def RegDef.bitAcc (d : RegDef) (b : Nat) : Option Acc :=
  (d.fields.find? fun f => decide (f.lo ≤ b) && decide (b < f.lo + f.width)).map RegField.acc

/-- A word with bit b set to a value. -/
def setBit (w : Word) (b : Nat) (v : Bool) : Word := setBits w b 1 (b2n v)

/-- A write of one bit through its alias: the register's other fields keep their values. -/
def State.aliasWrite (s : State) (off b : Nat) (v : Word) (req : Requester) : State :=
  s.onReg req off v fun s =>
    let on := bits v 0 1 == 1
    match guardAt off with
    | some r => s.guardDisturb r (originOf req) off v
    | none =>
      match regDef off with
      | none => s.unmapped
      | some d =>
        let rest := s.reg off &&& ~~~ d.clearable
        if off = 0x100 then (if on then s.writeApply (setBit 0 b true) req else s)
        else if off = 0x104 then (if on && decide (b < 20) then s.writeSnap (setBit 0 b true) req else s)
        else match d.bitAcc b with
        | some .rw => s.writePlain req off (setBit rest b on)
        | some .rs => s.writePlain req off (setBit rest b on)
        | some .w1c => if on then s.writePlain req off (setBit rest b true) else s
        | _ => s

/-- BIT_ALIAS_WRITE (R444): the word at 0x0380_0000 + (X >> 2) × 0x80 + b × 4. -/
def execBitAliasWrite (off b : Nat) (v : Word) (req : Requester) (s : State) : Result :=
  .next (if off < 0x40000 ∧ off % 4 = 0 ∧ b < 32 then s.aliasWrite off b v req else s)

/-! ### W1C (R16) -/

/-- W1C_CLEAR (R16): flags written 1 clear; one set at the same instant stays set, since each has its step. -/
def execW1cClear (off : Nat) (v : Word) (req : Requester) (s : State) : Result :=
  match regDef off with
  | some d => .next (if d.clearable = 0 then s else s.onReg req off v fun s => s.writePlain req off v)
  | none => .next s

/-! ### A write by its offset (R432-R434) -/

/-- The state that an outcome answers. -/
def State.orNext (s : State) : Result → State
  | .next t => t
  | _ => s

/-- Commands of TIER_CMD (Table TIER.6). -/
def State.writeTierCmd (s : State) (v : Word) (req : Requester) : State :=
  let i := bits v 4 20
  match bits v 0 4 with
  | 1 => s.orNext (execTierRegister i req s)
  | 2 => s.orNext (execTierUnregister i req s)
  | 3 => s.orNext (execTierLoad i req [] s)
  | 4 => s.tierFlush req i
  | 5 => s.orNext (execTierPromote i req s)
  | 6 => s.orNext (execTierEvict i req s)
  | op => s.tierReserved req op i

/-- A word of the MSI-X table (R413): entry v's word 3 holds its mask bit. -/
def State.writeMsix (s : State) (off : Nat) (v : Word) (req : Requester) : State :=
  s.onReg req off v fun s =>
    let n := (off - 0x208000) / 16
    if off % 16 = 12 then
      let old : Word := w32 (b2n (Tab.get true s.host.vecMask n))
      let new : Word := w32 (bits v 0 1)
      (s.maskVector n (bits v 0 1 == 1)).logWrite req off old new
    else (s.setReg off v).logWrite req off (s.reg off) v

/-- Base and size of a Wake job ring take no write while the ring holds jobs (R346). -/
def State.writeWakeRing (s : State) (off : Nat) (v : Word) (req : Requester) : State :=
  s.onReg req off v fun s =>
    let x := s.wake ((off - 0x03400000) / 0x20000)
    let r := (off - 0x03400000) % 0x20000 / 0x20 - 1
    s.checked req off v fun s =>
      if x.headOf r ≠ x.tailOf r then s.logRefused req off .busy (s.reg off) v else s.writePlain req off v

/-- Port of a SWEEP_PORT_CTRL offset. -/
def portAt (off : Nat) : Option Nat := (List.range 18).find? fun p => portReg p 0 == off

/-- A whole aligned word is written to a register outside the mailboxes and the alias window. -/
def State.writeWord (s : State) (off : Nat) (v : Word) (req : Requester) : State :=
  let plain : State := s.onReg req off v fun s => s.writePlain req off v
  if off = 0x100 then s.writeApply v req
  else if off = 0x104 then s.writeSnap v req
  else if 0x4000 ≤ off ∧ off < 0x4020 then s.onReg req off v fun s => s.guardArm ((off - 0x4000) / 4) v req (originOf req)
  else if 0xC000 ≤ off ∧ off < 0xC020 then s.twinWrite ((off - 0xC000) / 4) v req
  else if 0x204000 ≤ off ∧ off < 0x208000 then s
  else if 0x208000 ≤ off ∧ off < 0x209000 then s.writeMsix off v req
  else if 0x209000 ≤ off ∧ off < 0x20A000 then s
  else if 0x210000 ≤ off ∧ off < 0x218000 then
    let q := (off - 0x210000) / 0x40
    match off % 0x40 with
    | 0x08 => s.writeLrCfg q v req
    | 0x20 => s.orNext (execCqHeadWrite q v req s)
    | 0x18 => plain
    | 0x24 => plain
    | 0x28 => plain
    | r => if r < 0x28 then s.writeRingReg q r v req else plain
  else if 0x400000 ≤ off ∧ off < 0x600000 then
    if off % 0x1000 = 0 then s.orNext (execDoorbellWrite ((off - 0x400000) / 0x1000) v req s) else s
  else match regName off with
    | "KV_RING_TAIL" => s.orNext (execKvRingTailWrite ((off - kvReg 0 0x10) / 0x20) v req s)
    | "WAKE_RING_TAIL" =>
      s.orNext (execWakeRingTailWrite ((off - 0x03400000) / 0x20000) ((off - 0x03400000) % 0x20000 / 0x20 - 1) v req s)
    | "TIER_CMD" => s.writeTierCmd v req
    | "TIER_LOW" => s.onReg req off v fun s => s.checked req off v fun s => (s.writePlain req off v).lowFrames
    | "TIER_DECAY" => s.onReg req off v fun s => s.checked req off v fun s => (s.settleHeat.writePlain req off v).restartDecay
    | "SCHED_CMD" =>
      s.schedCmd (bits v 0 2) (bits v 2 3) req
    | "LOWP_EVAL" => if bits v 0 1 = 1 then s.orNext (execLowpEvalStart req s) else s.onReg req off v fun s => s
    | "DUNE_WCB_CTRL" =>
      if bits v 0 1 = 1 then s.wcbFlush ((off - 0x03000000) / 0x10000) req [] else s.onReg req off v fun s => s
    | "SWEEP_PORT_CTRL" =>
      match portAt off with
      | some p => s.writePortCtrl p v req
      | none => plain
    | "WAKE_RING_BASE_LO" => s.writeWakeRing off v req
    | "WAKE_RING_BASE_HI" => s.writeWakeRing off v req
    | "WAKE_RING_CFG" => s.writeWakeRing off v req
    | _ => plain

/-- The bytes of a write that its byte enables select, with their places. -/
def enabledBytes (v : Word) (be : BitVec 4) : List (Nat × Byte) :=
  ((List.range 4).filter fun i => be.getLsbD i).map fun i => (i, BitVec.ofNat 8 (bits v (8 * i) 8))

/-- The requester ID that comes with an access. -/
def idOf : Requester → BitVec 16
  | .host id => id
  | _ => 0

/-- A write to mailbox m's 16 KiB (R433, Table COX.2): the command buffer takes any bytes, the response buffer none. -/
def State.writeMailbox (s : State) (m o : Nat) (v : Word) (be : BitVec 4) (req : Requester) : State :=
  let off := mbReg m o
  s.onReg req off v fun s =>
    if o < 0x1000 then (enabledBytes v be).foldl (fun (s : State) x => s.fillMb m (o + x.1) [x.2]) s
    else if be ≠ 0xF ∨ o % 4 ≠ 0 then s.unmapped
    else if o < 0x2000 then s
    else if o = 0x2000 then (if bits v 0 1 = 1 then s.ringMb m (idOf req) false [] else s)
    else s.writePlain req off v

/-- REGISTER_WRITE (R434): any write in BAR0. -/
def execRegisterWrite (off : Nat) (v : Word) (be : BitVec 4) (req : Requester) (s : State) : Result :=
  .next (
    if 0x04000000 ≤ off then s
    else if 0x100000 ≤ off ∧ off < 0x120000 then s.writeMailbox ((off - 0x100000) / 0x4000) ((off - 0x100000) % 0x4000) v be req
    else if be ≠ 0xF ∨ off % 4 ≠ 0 then s.onReg req off v State.unmapped
    else if 0x03800000 ≤ off then
      s.aliasWrite ((off - 0x03800000) / 0x80 * 4) ((off - 0x03800000) % 0x80 / 4) v req
    else s.writeWord off v req)

/-- REGISTER_ACCESS_TIMEOUT (R436): the target of an access does not answer; a read returns 0xFFFF_FFFF, a write is discarded. -/
def execRegisterAccessTimeout (off : Nat) (write : Option Word) (req : Requester) (s : State) : Result :=
  .next (s.reach req fun s =>
    if s.absentAt off || s.answers off then s else s.regTimeout req off (write.getD 0))

/-! ### Reads (R433, R436, R438, R446) -/

/-- The word that a BAR0 read returns, with GLOBAL_SNAP_CTRL.view as it stands. -/
def State.readWord (s : State) (off : Nat) : Word :=
  match regDef off with
  | some d =>
    if s.fld 0x108 0 1 = 1 then (s.view off &&& ~~~ d.counters) ||| Tab.get 0 s.holding off else s.view off
  | none => s.view off

/-- A BAR0 read of a word and what it leaves behind: a pending guarded value is discarded, a silent target is counted. No row of
the table is a read; log entry 41. -/
def State.readReg (s : State) (off : Nat) (req : Requester) : Word × State :=
  if s.absentAt off then (0, s)
  else if !s.answers off then (0xFFFFFFFF, s.regTimeout req off 0)
  else
    let s := match guardAt off with
      | some r => s.guardDisturb r (originOf req) off 0
      | none => s
    (s.readWord off, s)

end Sys2Proof.Machine
end

