-- ==== Sys2Proof/Machine/SweepMsg.lean ====
section
/-! DEFINITION. Peer memory on the wire (R362-R364): requests of other modules under the exposure table, and the responses to
this module's own requests. -/

namespace Sys2Proof.Machine

/-! ### Serving (R363) -/

/-- Register of exposure entry e. -/
def expReg (e off : Nat) : Nat := 0x02060100 + 16 * e + off

/-- Whether exposure entry e permits a module the range. -/
def State.exposes (s : State) (e src da n : Nat) (write : Bool) : Bool :=
  let c := s.reg (expReg e 8)
  let lo := s.fld (expReg e 0) 0 21 * 0x200000
  let hi := lo + s.fld (expReg e 4) 0 22 * 0x200000
  bits c 16 1 == 1 && (bits c 13 1 == 1 || bits c 0 13 == src) && bits c (if write then 15 else 14) 1 == 1 &&
  decide (lo ≤ da) && decide (da + n ≤ hi) && decide (da + n ≤ duneEnd)

/-- Some one entry permits the whole range. -/
def State.permitted (s : State) (src da n : Nat) (write : Bool) : Bool :=
  (List.range 16).any fun e => s.exposes e src da n write

/-- A request that no entry permits is refused, counted at its port and logged. -/
def State.refusePeer (s : State) (p typ : Nat) (m : Msg) : State :=
  let s := (s.bump (portReg p 0xC) 16 16).emit 4 (p + m.src * 32) 1 evVerdict .badArgument []
  s.sendMsg ⟨typ, 0, m.src, m.da, m.tag.toNat, Status.badArgument.code, 0, []⟩

/-- Run a handler of a peer's request while its port is ADMITTED. -/
def State.fromPeer (s : State) (p : Nat) (go : State → State) : Result :=
  .next (if s.power = .on ∧ (s.port p).state = .admitted then go s else s)

/-- RD_REQ: up to 3,584 bytes of a stack range; bad data goes out flagged poisoned. -/
def execRdReq (p : Nat) (m : Msg) (s : State) : Result :=
  s.fromPeer p fun s =>
    if m.bytes = 0 ∨ 3584 < m.bytes then s.quarantine p 2 .badArgument
    else if s.permitted m.src m.da m.bytes false then
      let bad := s.duneReadBad m.da m.bytes
      (s.countRead m.da m.bytes).sendMsg ⟨mRdRsp, b2n bad, m.src, m.da, m.tag.toNat, 0, 0, s.load m.da m.bytes⟩
    else s.refusePeer p mRdRsp m

/-- The cells that a WR_REQ writes: all its data, or the bytes whose mask bit is 1. -/
def msgWrites (m : Msg) : List Cell :=
  if m.masked then
    let n := m.data.length / 9 * 8
    ((m.data.drop (n / 8)).zipIdx.filter fun x => (m.data.getD (x.2 / 8) 0).getLsbD (x.2 % 8)).map fun x => (m.da + x.2, x.1)
  else cellsAt m.da m.data

/-- Bytes of memory that a WR_REQ spans. -/
def msgSpan (m : Msg) : Nat := if m.masked then m.data.length / 9 * 8 else m.data.length

/-- A masked write's length is n/8 + n, n a multiple of 32 and at most 3,168. -/
def msgBroken (m : Msg) : Bool := m.masked && (m.data.length % 36 != 0 || decide (3564 < m.data.length))

/-- WR_REQ: the bytes reach memory; data carried poisoned stays poisoned; a WR_ACK answers. -/
def execWrReq (p : Nat) (m : Msg) (s : State) : Result :=
  s.fromPeer p fun s =>
    if msgBroken m then s.quarantine p 2 .badArgument
    else if s.permitted m.src m.da (msgSpan m) true then
      let cs : List Cell := msgWrites m
      let s : State := s.write 0 cs
      let s := if m.poisoned then (piecesOf cs).foldl (fun s x => s.poisonPiece (x * 32)) s else s
      s.sendMsg ⟨mWrAck, 0, m.src, m.da, m.tag.toNat, 0, 0, []⟩
    else s.refusePeer p mWrAck m

/-! ### Responses (R363, R364) -/

/-- The request that a response answers: its tag, its kind, and the module it went to. -/
def State.asked (s : State) (m : Msg) (write : Bool) : Option PeerReq :=
  s.peers.find? fun q => q.tag == m.tag.toNat && q.write == write && (s.peerPlace q.da).1 == m.src

/-- Forget a request. -/
def State.dropPeer (s : State) (tag : Nat) : State := { s with peers := s.peers.filter fun q => q.tag != tag }

/-- Reads of a task's transfer that still await their response. -/
def State.readsLeft (s : State) (id : Nat) (x : Xfer) : Bool :=
  s.peers.any fun q => q.task == id && !q.write && (x.ranges.any fun r => decide (r.1 ≤ q.da) && decide (q.da < r.1 + r.2))

/-- Transfers from peers with no request left have ended, and others may start. -/
def State.settleReads (s : State) (id : Nat) : State :=
  let t := s.task id
  (s.setTask id { t with flying := t.flying.filter fun x =>
    !(x.isRead && regionOf x.da == some .peer) || s.readsLeft id x }).pumpScull (t.scull.getD 0)

/-- Bytes from a peer enter what the transfers that asked for them serve. -/
def Task.takePeer (t : Task) (cs : List Cell) : Task :=
  (t.flying.filter fun x => x.isRead && regionOf x.da == some .peer).foldl
    (fun t x => t.take x (cs.filter fun c => x.covers c.1)) t

/-- RD_RSP: the bytes enter the task's operands; poisoned data ends it with INTERNAL, a refusal with BAD_ARGUMENT, logged. -/
def execRdRsp (p : Nat) (m : Msg) (s : State) : Result :=
  s.fromPeer p fun s =>
    match s.asked m false with
    | none => s
    | some q =>
      let s := s.dropPeer q.tag
      let t := s.task q.task
      let s := if m.status.toNat = 0 then s else s.emit 4 (p + m.src * 32) 2 evVerdict .badArgument []
      match t.state with
      | .running =>
        if m.status.toNat ≠ 0 then s.failRun q.task .badArgument
        else if m.poisoned ∨ m.data.length ≠ q.len then s.failRun q.task .internal
        else
          ((s.setTask q.task (t.takePeer (cellsAt q.da m.data))).settleReads q.task).advance q.task
      | .suspended _ =>
        if m.status.toNat ≠ 0 then s.failRun q.task .badArgument
        else if m.poisoned ∨ m.data.length ≠ q.len then s.failRun q.task .internal
        else (s.setTask q.task (t.takePeer (cellsAt q.da m.data))).settleReads q.task
      | .ended _ => s.settleReads q.task
      | _ => s

/-- WR_ACK: a released line has arrived; a refusal ends the task with BAD_ARGUMENT, logged. -/
def execWrAck (p : Nat) (m : Msg) (s : State) : Result :=
  s.fromPeer p fun s =>
    match s.asked m true with
    | none => s
    | some q =>
      let s := s.dropPeer q.tag
      if m.status.toNat = 0 then s
      else
        let s := s.emit 4 (p + m.src * 32) 2 evVerdict .badArgument []
        if (s.task q.task).state = .committed then s.doneTask q.task .badArgument else s

/-- PEER_TIMEOUT (R364): no response within SWEEP_PEER_TO; the task ends with PEER_ABSENT. -/
def execPeerTimeout (tag : Nat) (s : State) : Result :=
  match s.peers.find? fun q => q.tag == tag with
  | none => .next s
  | some q =>
    let span := (s.reg 0x0206000C).toNat
    if s.power = .on ∧ span ≠ 0 ∧ q.at_ + span + 1 ≤ s.etc then
      let s := { s with peers := s.peers.filter fun x => x.task != q.task }
      match (s.task q.task).state with
      | .running => .next (s.failRun q.task .peerAbsent)
      | .suspended _ => .next (s.failRun q.task .peerAbsent)
      | .committed => .next (s.doneTask q.task .peerAbsent)
      | .ended _ => .next (s.settleReads q.task)
      | _ => .next s
    else .next s

end Sys2Proof.Machine
end

