-- ==== Sys2Proof/Machine/Dispatch.lean ====
section
/-! DEFINITION. The meaning of each command, one arm per constructor. -/

namespace Sys2Proof.Machine

/-- The effect of a command on everything but the queue. -/
def exec (i : Instr) (s : State) : Host.Outcome State Fault Refusal :=
  match i with
  | .powerApplied => Sys2Proof.Machine.execPowerApplied s
  | .resetN lowNs retainedGood => Sys2Proof.Machine.execResetN lowNs retainedGood s
  | .inputSwitchOff => Sys2Proof.Machine.execInputSwitchOff s
  | .powerRestore => Sys2Proof.Machine.execPowerRestore s
  | .startDelayExpiry retainedGood => Sys2Proof.Machine.execStartDelayExpiry retainedGood s
  | .startStepComplete r => Sys2Proof.Machine.execStartStepComplete r s
  | .startStepTimeout => Sys2Proof.Machine.execStartStepTimeout s
  | .startRetry => Sys2Proof.Machine.execStartRetry s
  | .lockstepMismatch => Sys2Proof.Machine.execLockstepMismatch s
  | .coxWatchdogExpiry => Sys2Proof.Machine.execCoxWatchdogExpiry s
  | .entropyHealthFail => Sys2Proof.Machine.execEntropyHealthFail s
  | .islandLockLoss k => Sys2Proof.Machine.execIslandLockLoss k s
  | .islandRelock k => Sys2Proof.Machine.execIslandRelock k s
  | .islandRelockTimeout k => Sys2Proof.Machine.execIslandRelockTimeout k s
  | .delayLineRecal crew line margin tapsLeft => Sys2Proof.Machine.execDelayLineRecal crew line margin tapsLeft s
  | .beatRateWindowEnd erg mv => Sys2Proof.Machine.execBeatRateWindowEnd erg mv s
  | .doorbellWrite q v req => Sys2Proof.Machine.execDoorbellWrite q v req s
  | .ringFetchVisit q => Sys2Proof.Machine.execRingFetchVisit q s
  | .descriptorReadComplete q res bad host => Sys2Proof.Machine.execDescriptorReadComplete q res bad host s
  | .taskTake k => Sys2Proof.Machine.execTaskTake k s
  | .taskSteal k => Sys2Proof.Machine.execTaskSteal k s
  | .taskResume k t => Sys2Proof.Machine.execTaskResume k t s
  | .scullDmaComplete k x res host found fixed => Sys2Proof.Machine.execScullDmaComplete k x res host found fixed s
  | .taskCommit k bufferOk => Sys2Proof.Machine.execTaskCommit k bufferOk s
  | .taskDone t => Sys2Proof.Machine.execTaskDone t s
  | .residueMismatch k slot block => Sys2Proof.Machine.execResidueMismatch k slot block s
  | .accEccUe k => Sys2Proof.Machine.execAccEccUe k s
  | .storeEccUe k offset site => Sys2Proof.Machine.execStoreEccUe k offset site s
  | .taskHandback k => Sys2Proof.Machine.execTaskHandback k s
  | .handbackTimeout k => Sys2Proof.Machine.execHandbackTimeout k s
  | .scullSelfTestDone k pass => Sys2Proof.Machine.execScullSelfTestDone k pass s
  | .seifMismatch c => Sys2Proof.Machine.execSeifMismatch c s
  | .seifSelfTestDone c pass => Sys2Proof.Machine.execSeifSelfTestDone c pass s
  | .bowMismatch d => Sys2Proof.Machine.execBowMismatch d s
  | .bowSelfTestDone d pass => Sys2Proof.Machine.execBowSelfTestDone d pass s
  | .fenceComplete q => Sys2Proof.Machine.execFenceComplete q s
  | .signal t => Sys2Proof.Machine.execSignal t s
  | .walkerEntryRead t g => Sys2Proof.Machine.execWalkerEntryRead t g s
  | .seifPageSuspend t => Sys2Proof.Machine.execSeifPageSuspend t s
  | .swapinServeComplete res host => Sys2Proof.Machine.execSwapinServeComplete res host s
  | .kvRingTailWrite r v req => Sys2Proof.Machine.execKvRingTailWrite r v req s
  | .lowpEvalStart req => Sys2Proof.Machine.execLowpEvalStart req s
  | .lowpEvalComplete => Sys2Proof.Machine.execLowpEvalComplete s
  | .wcbEntryTimeout n line found => Sys2Proof.Machine.execWcbEntryTimeout n line found s
  | .wcbFlush n req found => Sys2Proof.Machine.execWcbFlush n req found s
  | .patrolScrubRead n pieces => Sys2Proof.Machine.execPatrolScrubRead n pieces s
  | .bandEvaluation n temp => Sys2Proof.Machine.execBandEvaluation n temp s
  | .stackPowerRemove n => Sys2Proof.Machine.execStackPowerRemove n s
  | .sramScrub site offset found => Sys2Proof.Machine.execSramScrub site offset found s
  | .dunePhyCal n lchan ok => Sys2Proof.Machine.execDunePhyCal n lchan ok s
  | .flashPatrol page corrected readable => Sys2Proof.Machine.execFlashPatrol page corrected readable s
  | .wearLevelling block eraseCount least => Sys2Proof.Machine.execWearLevelling block eraseCount least s
  | .telemetrySample readings => Sys2Proof.Machine.execTelemetrySample readings s
  | .tierRegister index req => Sys2Proof.Machine.execTierRegister index req s
  | .tierUnregister index req => Sys2Proof.Machine.execTierUnregister index req s
  | .tierLoad index req host => Sys2Proof.Machine.execTierLoad index req host s
  | .tierFlush req => Sys2Proof.Machine.execTierFlush req s
  | .tierPromote index req => Sys2Proof.Machine.execTierPromote index req s
  | .tierEvict index req => Sys2Proof.Machine.execTierEvict index req s
  | .copyInComplete index ok host => Sys2Proof.Machine.execCopyInComplete index ok host s
  | .copyOutComplete index ok => Sys2Proof.Machine.execCopyOutComplete index ok s
  | .heatDecay => Sys2Proof.Machine.execHeatDecay s
  | .deadlineExpiry k x => Sys2Proof.Machine.execDeadlineExpiry k x s
  | .wakeRingTailWrite w r v req => Sys2Proof.Machine.execWakeRingTailWrite w r v req s
  | .wakeOpen w r host => Sys2Proof.Machine.execWakeOpen w r host s
  | .wakeRun w r host => Sys2Proof.Machine.execWakeRun w r host s
  | .wakeClose w r => Sys2Proof.Machine.execWakeClose w r s
  | .wakeFrameDone w r depth width height luma cb cr coded held bad skipped host => Sys2Proof.Machine.execWakeFrameDone w r depth width height luma cb cr coded held bad skipped host s
  | .wakeJobEnd w r bad skipped consumed res => Sys2Proof.Machine.execWakeJobEnd w r bad skipped consumed res s
  | .wakeFrameWatchdog w r => Sys2Proof.Machine.execWakeFrameWatchdog w r s
  | .wakeParityFail w => Sys2Proof.Machine.execWakeParityFail w s
  | .wakeSelfTestDone w pass => Sys2Proof.Machine.execWakeSelfTestDone w pass s
  | .portEnable p v req => Sys2Proof.Machine.execPortEnable p v req s
  | .portDisable p v req => Sys2Proof.Machine.execPortDisable p v req s
  | .readmit p v req => Sys2Proof.Machine.execReadmit p v req s
  | .trainingDone p lanes => Sys2Proof.Machine.execTrainingDone p lanes s
  | .trainingTimeout p => Sys2Proof.Machine.execTrainingTimeout p s
  | .downRetryExpiry p => Sys2Proof.Machine.execDownRetryExpiry p s
  | .attestTimeout p => Sys2Proof.Machine.execAttestTimeout p s
  | .flitReceive p flit => Sys2Proof.Machine.execFlitReceive p flit s
  | .frameReceive p f => Sys2Proof.Machine.execFrameReceive p f s
  | .creditStarvation p vc => Sys2Proof.Machine.execCreditStarvation p vc s
  | .rekeyStart p => Sys2Proof.Machine.execRekeyStart p s
  | .rekeyTimeout p => Sys2Proof.Machine.execRekeyTimeout p s
  | .mgmtCert p src index cert => Sys2Proof.Machine.execMgmtCert p src index cert s
  | .mgmtKemEk p ek nonce => Sys2Proof.Machine.execMgmtKemEk p ek nonce s
  | .mgmtKemCt p ct nonce => Sys2Proof.Machine.execMgmtKemCt p ct nonce s
  | .mgmtSign p sig sender senderPort => Sys2Proof.Machine.execMgmtSign p sig sender senderPort s
  | .mgmtFinish p hash tagGood => Sys2Proof.Machine.execMgmtFinish p hash tagGood s
  | .mgmtRekeyEk p ek nonce => Sys2Proof.Machine.execMgmtRekeyEk p ek nonce s
  | .mgmtRekeyCt p ct nonce => Sys2Proof.Machine.execMgmtRekeyCt p ct nonce s
  | .mgmtRekeyDone p => Sys2Proof.Machine.execMgmtRekeyDone p s
  | .mgmtQuoteReq p nonce => Sys2Proof.Machine.execMgmtQuoteReq p nonce s
  | .mgmtQuote p quote => Sys2Proof.Machine.execMgmtQuote p quote s
  | .mgmtLinkstat p retry err => Sys2Proof.Machine.execMgmtLinkstat p retry err s
  | .linkstatSend p => Sys2Proof.Machine.execLinkstatSend p s
  | .rdReq p m => Sys2Proof.Machine.execRdReq p m s
  | .rdRsp p m => Sys2Proof.Machine.execRdRsp p m s
  | .wrReq p m => Sys2Proof.Machine.execWrReq p m s
  | .wrAck p m => Sys2Proof.Machine.execWrAck p m s
  | .peerTimeout tag => Sys2Proof.Machine.execPeerTimeout tag s
  | .collStart p m => Sys2Proof.Machine.execCollStart p m s
  | .chunkUp p m => Sys2Proof.Machine.execChunkUp p m s
  | .chunkDown p m => Sys2Proof.Machine.execChunkDown p m s
  | .ackUp p m => Sys2Proof.Machine.execAckUp p m s
  | .collNote p m => Sys2Proof.Machine.execCollNote p m s
  | .collFinal p m => Sys2Proof.Machine.execCollFinal p m s
  | .flagUp p m => Sys2Proof.Machine.execFlagUp p m s
  | .flagDown p m => Sys2Proof.Machine.execFlagDown p m s
  | .phaseTimerExpiry g => Sys2Proof.Machine.execPhaseTimerExpiry g s
  | .memberGuardExpiry g => Sys2Proof.Machine.execMemberGuardExpiry g s
  | .reclaim part req => Sys2Proof.Machine.execReclaim part req s
  | .schedReturn part req => Sys2Proof.Machine.execSchedReturn part req s
  | .drainLimitExpiry => Sys2Proof.Machine.execDrainLimitExpiry s
  | .beOverrun k => Sys2Proof.Machine.execBeOverrun k s
  | .ringEnable q v req => Sys2Proof.Machine.execRingEnable q v req s
  | .ringDisable q v req => Sys2Proof.Machine.execRingDisable q v req s
  | .cqHeadWrite q v req => Sys2Proof.Machine.execCqHeadWrite q v req s
  | .ringIrqHoldExpiry q => Sys2Proof.Machine.execRingIrqHoldExpiry q s
  | .msixVectorUnmask v => Sys2Proof.Machine.execMsixVectorUnmask v s
  | .linkRetrain width rate flit => Sys2Proof.Machine.execLinkRetrain width rate flit s
  | .bar2Access offset data len => Sys2Proof.Machine.execBar2Access offset data len s
  | .cxlMemRequest offset data len => Sys2Proof.Machine.execCxlMemRequest offset data len s
  | .spdmRequest request => Sys2Proof.Machine.execSpdmRequest request s
  | .ideKeySet stream => Sys2Proof.Machine.execIdeKeySet stream s
  | .ideIntegrityFail stream => Sys2Proof.Machine.execIdeIntegrityFail stream s
  | .devInfo c => Sys2Proof.Machine.execDevInfo c s
  | .devStatus c => Sys2Proof.Machine.execDevStatus c s
  | .capRead c => Sys2Proof.Machine.execCapRead c s
  | .devRun c => Sys2Proof.Machine.execDevRun c s
  | .devQuiesce c => Sys2Proof.Machine.execDevQuiesce c s
  | .quiesceComplete => Sys2Proof.Machine.execQuiesceComplete s
  | .devConfig c => Sys2Proof.Machine.execDevConfig c s
  | .devRestart c => Sys2Proof.Machine.execDevRestart c s
  | .pwrGet c => Sys2Proof.Machine.execPwrGet c s
  | .pwrCapSet c interrupted => Sys2Proof.Machine.execPwrCapSet c interrupted s
  | .logInfo c => Sys2Proof.Machine.execLogInfo c s
  | .logRead c => Sys2Proof.Machine.execLogRead c s
  | .sensorRead c => Sys2Proof.Machine.execSensorRead c s
  | .fwInfo c => Sys2Proof.Machine.execFwInfo c s
  | .fwStage c => Sys2Proof.Machine.execFwStage c s
  | .fwActivate c => Sys2Proof.Machine.execFwActivate c s
  | .attestQuote c => Sys2Proof.Machine.execAttestQuote c s
  | .certRead c => Sys2Proof.Machine.execCertRead c s
  | .lcTransition c => Sys2Proof.Machine.execLcTransition c s
  | .cairnRegister c host => Sys2Proof.Machine.execCairnRegister c host s
  | .cairnTake c => Sys2Proof.Machine.execCairnTake c s
  | .cairnRestore c => Sys2Proof.Machine.execCairnRestore c s
  | .cairnStatus c => Sys2Proof.Machine.execCairnStatus c s
  | .cairnDrainUsExpiry => Sys2Proof.Machine.execCairnDrainUsExpiry s
  | .cairnStopDrained => Sys2Proof.Machine.execCairnStopDrained s
  | .cairnCopyComplete => Sys2Proof.Machine.execCairnCopyComplete s
  | .cairnDrainComplete ok => Sys2Proof.Machine.execCairnDrainComplete ok s
  | .cairnLossReady => Sys2Proof.Machine.execCairnLossReady s
  | .cairnReplayVerdict => Sys2Proof.Machine.execCairnReplayVerdict s
  | .guardValueWrite reg v req => Sys2Proof.Machine.execGuardValueWrite reg v req s
  | .guardPendingTimeout reg => Sys2Proof.Machine.execGuardPendingTimeout reg s
  | .globalGReset twin req => Sys2Proof.Machine.execGlobalGReset twin req s
  | .globalGPwrCap twin req => Sys2Proof.Machine.execGlobalGPwrCap twin req s
  | .globalGVlimit twin req => Sys2Proof.Machine.execGlobalGVlimit twin req s
  | .globalGRemapRow twin req => Sys2Proof.Machine.execGlobalGRemapRow twin req s
  | .globalGRemapCh twin req => Sys2Proof.Machine.execGlobalGRemapCh twin req s
  | .globalGPortDis twin req => Sys2Proof.Machine.execGlobalGPortDis twin req s
  | .globalGFuse twin req => Sys2Proof.Machine.execGlobalGFuse twin req s
  | .globalApply mask req => Sys2Proof.Machine.execGlobalApply mask req s
  | .globalSnap mask req => Sys2Proof.Machine.execGlobalSnap mask req s
  | .bitAliasWrite offset bit v req => Sys2Proof.Machine.execBitAliasWrite offset bit v req s
  | .w1cClear offset v req => Sys2Proof.Machine.execW1cClear offset v req s
  | .registerWrite offset v be req => Sys2Proof.Machine.execRegisterWrite offset v be req s
  | .registerAccessTimeout offset write req => Sys2Proof.Machine.execRegisterAccessTimeout offset write req s
  | .powerControlTick p => Sys2Proof.Machine.execPowerControlTick p s
  | .flowLimitEval flow => Sys2Proof.Machine.execFlowLimitEval flow s
  | .lowFlowSwitchOff => Sys2Proof.Machine.execLowFlowSwitchOff s
  | .thermalPowerRemove => Sys2Proof.Machine.execThermalPowerRemove s
  | .logPersist => Sys2Proof.Machine.execLogPersist s
  | .suppressionWindowClose k => Sys2Proof.Machine.execSuppressionWindowClose k s
  | .unknownOpcode c opcode => Sys2Proof.Machine.execUnknownOpcode c opcode s
  | .tierCmdComplete ok => Sys2Proof.Machine.execTierCmdComplete ok s
  | .cairnRestoreCopyComplete res host => Sys2Proof.Machine.execCairnRestoreCopyComplete res host s

end Sys2Proof.Machine
end

