-- ==== Sys2Proof/Machine/Expire.lean ====
section
/-! DEFINITION. Timeouts that ETC brings (R46): one armed at A with T expires at the increment to A + T + 1, so that ETC never
passes that value with the timeout still open. While ETC stands there the timeout and the event that it guards against may
come in either order (R40). -/

namespace Sys2Proof.Machine

/-- Run an expiry for each number of a list; one that is not due changes nothing. -/
def State.expireEach (s : State) (f : Nat → State → Result) (is : List Nat) : State :=
  is.foldl (fun s i => s.orNext (f i s)) s

/-- Timeouts of starts, islands, guarded pairs, power and Cairn (R451, R489, R438, R519, R504). -/
def State.expireModule (s : State) : State :=
  let s := s.orNext (execStartStepTimeout s)
  let s := s.expireEach execIslandRelockTimeout (s.islands.map (·.1))
  let s := s.expireEach execGuardPendingTimeout (List.range 8)
  let s := s.orNext (execLowFlowSwitchOff s)
  s.orNext (execCairnDrainUsExpiry s)

/-- Timeouts of tasks and memory (R103, R320, R288, R300, R390). -/
def State.expireTasks (s : State) : State :=
  let s := s.expireEach execHandbackTimeout (s.sculls.map (·.1))
  let s := (s.sculls.map (·.1)).foldl (fun s k =>
    s.expireEach (execDeadlineExpiry k) (List.range (s.outstanding k).length).reverse) s
  let s := (s.dunes.map fun e => (e.1, e.2.wcb.map (·.line))).foldl (fun s e =>
    e.2.foldl (fun s l => if (s.dune e.1).wcb.any fun x => x.line == l && decide (x.at_ + 9 ≤ s.etc)
      then s.orNext (execWcbEntryTimeout e.1 l [] s) else s) s) s
  let s := s.expireEach execStackPowerRemove (s.dunes.map (·.1))
  s.orNext (execDrainLimitExpiry s)

/-- Timeouts of ports, peers, collectives and Wake engines (R357, R356, R479, R364, R374, R376, R345). -/
def State.expireLinks (s : State) : State :=
  let ports := s.ports.map (·.1)
  let s := s.expireEach execTrainingTimeout ports
  let s := s.expireEach execAttestTimeout ports
  let s := s.expireEach execRekeyTimeout ports
  let s := ports.foldl (fun s p => s.expireEach (execCreditStarvation p) (List.range 4)) s
  let s := s.expireEach execDownRetryExpiry ports
  let s := s.expireEach execPeerTimeout (s.peers.map (·.tag))
  let groups := (s.colls.running.map fun e => e.2.group).dedup
  let s := s.expireEach execPhaseTimerExpiry groups
  let s := s.expireEach execMemberGuardExpiry groups
  (s.wakes.map (·.1)).foldl (fun s w => s.expireEach (execWakeFrameWatchdog w) [0, 1]) s

/-- Every timeout that is due expires before ETC goes on. -/
def State.expireDue (s : State) : State := s.expireModule.expireTasks.expireLinks

end Sys2Proof.Machine
end

