-- ==== Sys2Proof/Machine/Tick.lean ====
section
/-! DEFINITION. What one increment of ETC does by itself (R43, R46, R522): timeouts that are due, the counter, and the count of
limited time. -/

namespace Sys2Proof.Machine

/-- ETC is incremented, and the time that the cap binds is counted. -/
def State.count (s : State) : State :=
  let s : State := { s with etc := (s.etc + 1) % 2 ^ 64 }
  if s.pwr.limited then s.bump 0x288 0 32 else s

/-- ETC runs: the module is on and the timer released. -/
def State.runs (s : State) : Bool := s.power == .on && s.timer

/-- One ETC microsecond passes, unless ETC stands still; what is due expires first (R46). -/
def State.tick (s : State) : State :=
  if s.runs then (if s.expireDue.runs then s.expireDue.count else s.expireDue) else s

end Sys2Proof.Machine
end

