-- ==== Sys2Proof/Safety.lean ====
section
/-! DEFINITION. What a safe step and a well-formed state are, and what it means that a step changes only some parts of the
state, in the terms the statements use. -/

namespace Sys2Proof.Safety

open Sys2Proof.Machine

/-- A step is safe when it answers a next state. -/
def stepSafe (s : State) : Prop := ∃ t, step s = .next t

/-- The memory is in its canonical form, the poison list is rising and without repeats. -/
def memOk (s : State) : Prop := Tab.wf (0 : Byte) s.mem = true ∧ s.poison.Pairwise (· < ·)

/-- A table of registers holds its keys strictly rising and lists no register that has its reset value. -/
def regsOk (t : Tab Word) : Prop := t.Pairwise (fun a b => a.1 < b.1) ∧ ∀ e ∈ t, e.2 ≠ resetAt e.1

/-- Every table of the state is in its canonical form, so that equal contents are equal data. -/
structure canonical (s : State) : Prop where
  mem : memOk s
  regs : regsOk s.regs
  ctrs : Tab.wf (0 : Word) s.ctrs = true
  guards : s.guards.Pairwise (fun a b => a.1 < b.1) ∧ ∀ e ∈ s.guards, e.2 ≠ ⟨guardReset e.1, none⟩
  sculls : Tab.wf Scull.init s.sculls = true
  crews : Tab.wf Crew.init s.crews = true
  ergs : Tab.wf Erg.init s.ergs = true
  tasks : Tab.wf Task.none s.tasks = true
  rings : Tab.wf Ring.init s.rings = true
  mbs : Tab.wf Mailbox.init s.mbs = true
  dunes : Tab.wf Stack.init s.dunes = true
  wakes : Tab.wf Wake.init s.wakes = true
  ports : Tab.wf Port.init s.ports = true

/-- What no command takes back: the variant and the serial number stay; the minimum security version, the floor of the
identity index and the number of used life-cycle entries never fall; a revoked slot and a fused unit stay so; a free value
once drawn is not drawn again. -/
structure fused (s t : State) : Prop where
  variant : t.nv.variant = s.nv.variant
  serial : t.nv.serial = s.nv.serial
  minSvn : s.nv.minSvn ≤ t.nv.minSvn
  floors : s.nv.floors ≤ t.nv.floors
  lcUsed : s.nv.lcUsed ≤ t.nv.lcUsed
  revoked : ∀ k ∈ s.nv.revoked, k ∈ t.nv.revoked
  units : ∀ k ∈ s.nv.fused, k ∈ t.nv.fused
  fresh : s.fresh ≤ t.fresh

/-- The parts of the state that a frame names. `lossCounts` are the two registers that count lost and suppressed log records
(0x264, 0x278); `regs` are all other registers. Of the non-volatile store, `ident` is the variant and the serial number,
`life` the life-cycle state and its used entries, `reserved` the end of the reserved record numbers, `nv` the rest. `logOpen`
says that a boot's first records are written; `vecPend` are the pending interrupt vectors of the host port. -/
inductive Part
  | queue | fresh | sent | power | pwrGood | etc | timer | dev | fault | start | logOpen | ident | life | reserved | nv | sec
  | log | crash | lossCounts | regs | staged5 | staged3 | seeded | holding | guards | mem | poison | sculls | crews | ergs
  | ctrs | tasks | rings | lastRing | mbs | stateMb | mbQueue | dunes | tier | kv | lowp | wakes | ports | rigger | colls
  | peers | sched | host | vecPend | islands | flashGone | pwr | cairn
deriving DecidableEq, Repr

/-- A part of the state is the same before and after. -/
def Part.same (s t : State) : Part → Prop
  | .queue => t.pending = s.pending
  | .fresh => t.fresh = s.fresh
  | .sent => t.tx = s.tx
  | .power => t.power = s.power
  | .pwrGood => t.pwrGood = s.pwrGood
  | .etc => t.etc = s.etc
  | .timer => t.timer = s.timer
  | .dev => t.dev = s.dev
  | .fault => t.fault = s.fault
  | .start => { t.start with logOpen := true } = { s.start with logOpen := true }
  | .logOpen => t.start.logOpen = s.start.logOpen
  | .ident => t.nv.variant = s.nv.variant ∧ t.nv.serial = s.nv.serial
  | .life => t.nv.lifecycle = s.nv.lifecycle ∧ t.nv.lcUsed = s.nv.lcUsed
  | .reserved => t.nv.reserved = s.nv.reserved
  | .nv =>
    { t.nv with variant := .yd1f, serial := [], lifecycle := 0, lcUsed := 0, reserved := 0 } =
    { s.nv with variant := .yd1f, serial := [], lifecycle := 0, lcUsed := 0, reserved := 0 }
  | .sec => t.sec = s.sec
  | .log => t.log = s.log
  | .crash => t.crash = s.crash
  | .lossCounts => t.reg 0x264 = s.reg 0x264 ∧ t.reg 0x278 = s.reg 0x278
  | .regs => ∀ off, off ≠ 0x264 → off ≠ 0x278 → t.reg off = s.reg off
  | .staged5 => t.staged5 = s.staged5
  | .staged3 => t.staged3 = s.staged3
  | .seeded => t.seeded = s.seeded
  | .holding => t.holding = s.holding
  | .guards => t.guards = s.guards
  | .mem => t.mem = s.mem
  | .poison => t.poison = s.poison
  | .sculls => t.sculls = s.sculls
  | .crews => t.crews = s.crews
  | .ergs => t.ergs = s.ergs
  | .ctrs => t.ctrs = s.ctrs
  | .tasks => t.tasks = s.tasks
  | .rings => t.rings = s.rings
  | .lastRing => t.lastRing = s.lastRing
  | .mbs => t.mbs = s.mbs
  | .stateMb => t.stateMb = s.stateMb
  | .mbQueue => t.mbQueue = s.mbQueue
  | .dunes => t.dunes = s.dunes
  | .tier => t.tier = s.tier
  | .kv => t.kv = s.kv
  | .lowp => t.lowp = s.lowp
  | .wakes => t.wakes = s.wakes
  | .ports => t.ports = s.ports
  | .rigger => t.rigger = s.rigger
  | .colls => t.colls = s.colls
  | .peers => t.peers = s.peers
  | .sched => t.sched = s.sched
  | .host => { t.host with vecPend := [] } = { s.host with vecPend := [] }
  | .vecPend => t.host.vecPend = s.host.vecPend
  | .islands => t.islands = s.islands
  | .flashGone => t.flashGone = s.flashGone
  | .pwr => t.pwr = s.pwr
  | .cairn => t.cairn = s.cairn

/-- Every part of the state but the listed ones is unchanged. -/
def changesOnly (ps : List Part) (s t : State) : Prop := ∀ p, p ∉ ps → Part.same s t p

/-- These parts and those that a logged event changes: the log with its reservation and loss counts, and the vectors. -/
def logged (ps : List Part) : List Part := [.log, .logOpen, .reserved, .lossCounts, .sent, .vecPend] ++ ps

/-- Every part of the state. -/
def allParts : List Part :=
  ([.queue, .fresh, .sent, .power, .pwrGood, .etc, .timer, .dev, .fault, .start, .logOpen, .ident, .life,
    .reserved, .nv, .sec, .log, .crash, .lossCounts, .regs, .staged5, .staged3, .seeded, .holding, .guards, .mem] : List Part) ++
  ([.poison, .sculls, .crews, .ergs, .ctrs, .tasks, .rings, .lastRing, .mbs, .stateMb, .mbQueue, .dunes, .tier,
    .kv, .lowp, .wakes, .ports, .rigger, .colls, .peers, .sched, .host, .vecPend, .islands, .flashGone, .pwr,
    .cairn] : List Part)

/-- Every part but the listed ones. -/
def allBut (ps : List Part) : List Part := allParts.filter fun p => !ps.contains p

/-- An event is in the log (R491, R494, R497): as the newest record of the ring, or counted by the window that suppresses
it. -/
def recorded (t : State) (cls ident sev code : Nat) (st : Status) (pl : List Word) : Prop :=
  (∃ r, t.log.ring.head? = some r ∧ r.number + 1 = t.log.next ∧ r.etc = t.etc ∧ r.epoch = t.nv.epoch ∧ r.cls = cls ∧
    r.ident = ident ∧ r.severity = sev ∧ r.code = code ∧ r.status = st ∧ r.payload = (pl ++ List.replicate 6 0).take 6) ∨
  (neverSuppressed sev code = false ∧ ∃ w ∈ t.log.windows, w.hits cls ident code st = true ∧ 0 < w.count)

/-- A start has just begun (R448, R453, R454, R456): step 1 runs, ETC is 0, every register and unit is as a start leaves it;
of the old state the memory, the repair fuses, the non-volatile store with its epoch one higher, and the log's flash area
stay. Kind 0 is cold, 1 warm, 2 a warm start that fell back to cold. -/
structure begun (s t : State) (kind cause fb : Nat) : Prop where
  power : t.power = .on ∧ t.pwrGood = true ∧ t.timer = true ∧ t.etc = 0
  dev : t.dev = .starting ∧ t.fault = 0
  start : t.start.step = 1 ∧ t.start.kind = kind ∧ t.start.cause = cause ∧ t.start.fallback = fb ∧ t.start.delayed = none
  rom : t.start.rom = true ∧ t.start.logOpen = false ∧ t.start.lastGood = false
  epoch : t.nv.epoch = (s.nv.epoch + 1) % 2 ^ 32
  nv : { t.nv with epoch := s.nv.epoch, reserved := s.nv.reserved } = s.nv
  area : t.log.area = s.log.area ∧ t.log.windows = []
  mem : t.mem = s.mem ∧ t.poison = s.poison
  regs : ∀ off, t.reg off = resetAt off
  guards : t.guards = [] ∧ t.staged5 = none ∧ t.staged3 = none ∧ t.holding = []
  units : ∀ k, t.scull k = .init ∧ t.crew k = .init ∧ t.ring k = .init ∧ t.mb k = .init ∧ t.port k = .init ∧ t.ctr k = 0 ∧
    t.task k = .none ∧ t.tensor k = .none
  absent : ∀ k, (t.erg k).bow = (if s.nv.variant = .yd1e ∧ k < 16 then .absent else .good) ∧
    (t.wake k).state = (if s.nv.variant ≠ .yd1f ∧ k < 8 then .absent else .good)
  fuses : ∀ n, (t.dune n) = { Stack.init with burnt := (s.dune n).burnt }
  engines : t.tier = .init ∧ t.kv = .init ∧ t.lowp = .init ∧ t.colls = ⟨[], [], []⟩ ∧ t.peers = [] ∧ t.cairn = .init
  host : t.host = .init ∧ t.sched = .init ∧ t.sec = .init ∧ t.islands = []
  kept : t.pending = s.pending ∧ t.fresh = s.fresh

end Sys2Proof.Safety
end

