-- ==== Sys2Proof/Certificates/Slice0/Obligations.lean ====
section
/-! DEFINITION. The statements for the provers. Each docstring names the rules of the spec a statement formalises, or the log
entry of a choice of the model. -/

open Sys2Proof Sys2Proof.Machine Sys2Proof.Safety

/-- A cold start begins when power is applied, when it returns 100 ms after a switch-off, and 100 ms after a failed start
(R448, R453, R454, R455, R514, R521): the module shows PWR_GOOD, the registers and units are as a start leaves them, and no record of
the old boot stays in the ring. Power that is on, off or latched already is not applied, restored or retried again (log
entry 5). -/
def Sys2Proof.Safety.ColdStartBegins : Prop :=
  (∀ (s : State), canonical s → s.power ≠ .on → ∃ t, exec .powerApplied s = .next t ∧ begun s t 0 0 0 ∧ t.crash = none ∧
    t.log.ring = [] ∧ t.tx = .pwrGood true :: s.tx) ∧
  (∀ (s : State), canonical s → s.power = .off → ∃ t, exec .powerRestore s = .next t ∧ begun s t 0 0 0 ∧ t.crash = none ∧
    t.log.ring = [] ∧ t.tx = .pwrGood true :: s.tx) ∧
  (∀ (s : State) k c due, canonical s → s.power = .on → s.start.delayed = some (k, c, due) → s.start.retryAt = true → due ≤ s.etc →
    ∃ t, exec .startRetry s = .next t ∧ begun s t 0 6 0 ∧ t.crash = none ∧ t.log.ring = [] ∧ t.tx = s.tx) ∧
  (∀ (s : State), s.power = .on → exec .powerApplied s = .next s) ∧
  (∀ (s : State), s.power ≠ .off → exec .powerRestore s = .next s) ∧
  (∀ (s : State), (∀ k c due, s.start.delayed = some (k, c, due) → s.power = .on → s.start.retryAt = true → s.etc < due) →
    exec .startRetry s = .next s)

/-- A warm start begins at the end of a pulse of RESET_N (R521) and at a requested delayed start's time (R448); the first
of R449's four conditions that fails makes it a cold one and is kept as the fallback code. A warm start keeps the state it
left, its fault code and the last opcodes for CRASH, seals the log of its boot, and closes every suppression window (R454, R495,
R497). A delayed cold start is cold. -/
def Sys2Proof.Safety.WarmStartBegins : Prop :=
  (∀ (s : State) ns good, canonical s → s.power = .on → 1000 ≤ ns → ∃ t, exec (.resetN ns good) s = .next t ∧
    begun s t (if s.fallback good = 0 then 1 else 2) 1 (s.fallback good) ∧
    (s.fallback good = 0 → t.crash = some (s.dev.code, s.fault, (List.range 9).map fun m => (s.mb m).lastOp)) ∧
    (s.fallback good ≠ 0 → t.crash = none ∧ t.log.ring = []) ∧
    (s.fallback good = 0 → s.start.logOpen = true →
      ∃ r, t.log.ring.head? = some r ∧ r.code = evSeal ∧ r.cls = 0 ∧ r.ident = 0 ∧ r.severity = 0 ∧ r.etc = s.etc ∧
        r.epoch = s.nv.epoch)) ∧
  (∀ (s : State) good c due, canonical s → s.power = .on → s.start.delayed = some (.warm, c, due) → s.start.retryAt = false → due ≤ s.etc →
    ∃ t, exec (.startDelayExpiry good) s = .next t ∧ begun s t (if s.fallback good = 0 then 1 else 2) c (s.fallback good)) ∧
  (∀ (s : State) good c due, canonical s → s.power = .on → s.start.delayed = some (.cold, c, due) → s.start.retryAt = false → due ≤ s.etc →
    ∃ t, exec (.startDelayExpiry good) s = .next t ∧ begun s t 0 c 0 ∧ t.tx = s.tx) ∧
  (∀ (s : State) good, s.start.held = true → s.start.changed = false → s.start.lastGood = true → (s.fallback good = 0 ↔ good = true)) ∧
  (∀ (s : State) good, s.start.held = false → s.fallback good = 1) ∧
  (∀ (s : State) good, s.start.held = true → s.start.changed = true → s.fallback good = 2) ∧
  (∀ (s : State) good, s.start.held = true → s.start.changed = false → s.start.lastGood = false → s.fallback good = 3) ∧
  (∀ (s : State) ns good, s.power ≠ .on ∨ ns < 1000 → exec (.resetN ns good) s = .next s) ∧
  (∀ (s : State) good, (∀ k c due, s.start.delayed = some (k, c, due) → s.power = .on → s.start.retryAt = false → s.etc < due) →
    exec (.startDelayExpiry good) s = .next s)

/-- Power is lost (R514, R520): PWR_GOOD falls and nothing but what power does not hold is left: fuses, the
non-volatile store, the stacks' repair fuses, the flash's log area, and the memory of the flash and the host. -/
structure Sys2Proof.Safety.unpowered (p : Power) (s t : State) : Prop where
  power : t.power = p ∧ t.pwrGood = false ∧ t.timer = false ∧ t.tx = .pwrGood false :: s.tx
  nv : t.nv = s.nv
  area : t.log = { Log.init with area := s.log.area } ∧ t.crash = none
  held : t.start.held = false ∧ t.start.step = 0 ∧ t.start.delayed = none
  memIn : ∀ a, hostBase ≤ a → a < flashEnd → t.byte a = s.byte a
  memOut : ∀ a, a < hostBase ∨ flashEnd ≤ a → t.byte a = 0
  regs : ∀ off, t.reg off = resetAt off
  guards : t.guards = []
  units : ∀ k, t.scull k = .init ∧ t.crew k = .init ∧ t.ring k = .init ∧ t.mb k = .init ∧ t.port k = .init ∧ t.ctr k = 0 ∧
    t.task k = .none ∧ t.tensor k = .none
  fuses : ∀ n, (t.dune n) = { Stack.init with burnt := (s.dune n).burnt }
  kept : t.pending = s.pending ∧ t.fresh = s.fresh

/-- The input switches off (R514), and 2 ms after a thermal switch-off began its power is removed and latched off (R520). -/
def Sys2Proof.Safety.PowerLost : Prop :=
  (∀ (s : State), canonical s → s.power = .on → ∃ t, exec .inputSwitchOff s = .next t ∧ unpowered .off s t) ∧
  (∀ (s : State) a, canonical s → s.power = .on → s.pwr.offAt = some a → a ≤ s.etc →
    ∃ t, exec .thermalPowerRemove s = .next t ∧ unpowered .latched s t) ∧
  (∀ (s : State), s.power ≠ .on → exec .inputSwitchOff s = .next s) ∧
  (∀ (s : State), (∀ a, s.pwr.offAt = some a → s.power = .on → s.etc < a) → exec .thermalPowerRemove s = .next s)

/-- Step n of the start has ended normally (R450, Table START.2): the next step begins now, and START_STEP is recorded. -/
structure Sys2Proof.Safety.stepped (n : Nat) (s t : State) : Prop where
  step : t.start.step = n + 1 ∧ t.start.at_ = s.etc
  dev : t.dev = s.dev
  log : t.start.logOpen = true

/-- Step n of the start has failed with a cause (R455, R457): the failures are counted to 3 and the step kept; below 3 the
start is retried 100 ms later as a cold one, at 3 the device enters RECOVERY with the ROM. -/
structure Sys2Proof.Safety.failedAt (n cause : Nat) (s t : State) : Prop where
  count : t.nv.failed = min 3 (s.nv.failed + 1) ∧ t.nv.failStep = n
  ended : t.start.step = 0
  retry : t.nv.failed < 3 → t.dev = s.dev ∧ t.start.retryAt = true ∧ t.start.delayed = some (.cold, 6, s.etc + 100000) ∧
    recorded t 0 (b2n s.start.rom) 2 evStartStep .startFailed [w32 n, w32 (s.etc / 1000), w32 cause]
  recovery : t.nv.failed = 3 → t.dev = .recovery ∧ t.start.rom = true ∧ t.start.delayed = s.start.delayed ∧
    recorded t 0 1 2 evState .startFailed [w32 s.dev.code, w32 5, 0] ∧ ((s.mb 8).phase = .offline → (t.mb 8).phase = .idle)
  nv : { t.nv with failed := s.nv.failed, failStep := s.nv.failStep, reserved := s.nv.reserved } = s.nv

/-- A start is in step n. -/
def Sys2Proof.Safety.inStep (n : Nat) (s : State) : Prop :=
  canonical s ∧
  s.power = .on ∧ s.dev = .starting ∧ s.start.step = n ∧ s.start.delayed = none

/-- Steps 1 to 4 of a start (R450, R452, R457, R464, R469, R483, Tables START.2, COX.2): a fuse word that cannot be read, a lockstep or
entropy test or an image that fails ends the start; otherwise step 1 sets the peers' life-cycle mask, step 2 serves mailbox 8
(and goes to RECOVERY after three failures), step 3 runs the verified image and makes a missing flash key, whose flash then
reads as zero, and step 4 takes over the link and serves the host's mailboxes with it. -/
def Obligations.StartStepsOneToFour : Prop :=
  (∀ (s : State) (r : StepReport), inStep 1 s → ∃ t, exec (.startStepComplete r) s = .next t ∧
    (r.fuseBad = true → failedAt 1 0 s t ∧ changesOnly (logged [.dev, .start, .nv, .mbs]) s t) ∧
    (r.fuseBad = false → stepped 1 s t ∧ recorded t 0 (b2n s.start.rom) 0 evStartStep .ok [w32 1, w32 (s.etc / 1000), 0] ∧
      t.fld 0x24C 0 6 = (if s.nv.lifecycle = 2 ∨ s.nv.lifecycle = 3 then 0xC else 2 ^ s.nv.lifecycle % 64) ∧
      (∀ off, off ≠ 0x24C → off ≠ 0x264 → off ≠ 0x278 → t.reg off = s.reg off) ∧ changesOnly (logged [.start, .regs]) s t)) ∧
  (∀ (s : State) (r : StepReport), inStep 2 s → ∃ t, exec (.startStepComplete r) s = .next t ∧
    (r.lockstepBad = true → failedAt 2 1 s t) ∧
    (r.lockstepBad = false → r.secBad = true → failedAt 2 0 s t) ∧
    (r.lockstepBad = false → r.secBad = false → s.nv.failed < 3 → stepped 2 s t ∧
      recorded t 0 (b2n s.start.rom) 0 evStartStep .ok [w32 2, w32 (s.etc / 1000), 0] ∧
      ((s.mb 8).phase = .offline → t.mb 8 = { Mailbox.init with phase := .idle }) ∧ (∀ m, m ≠ 8 → t.mb m = s.mb m) ∧
      changesOnly (logged [.start, .mbs]) s t) ∧
    (r.lockstepBad = false → r.secBad = false → 3 ≤ s.nv.failed → t.dev = .recovery ∧ t.start.step = 0 ∧ t.start.rom = true)) ∧
  (∀ (s : State) (r : StepReport), inStep 3 s → ∃ t, exec (.startStepComplete r) s = .next t ∧
    (s.imageOk s.nv.bootImage = false → failedAt 3 0 s t) ∧
    (s.imageOk s.nv.bootImage = true → stepped 3 s t ∧ t.nv.runImage = s.nv.bootImage ∧ t.start.rom = false ∧
      t.start.keyAt = s.etc ∧ (s.nv.flashKey = true → t.mem = s.mem ∧ t.poison = s.poison) ∧
      (s.nv.flashKey = false → s.nv.lifecycle ≠ 5 → s.nv.variant ≠ .yd1e → t.nv.flashKey = true ∧
        (∀ a, flashBase ≤ a → a < flashEnd → t.byte a = 0) ∧ ∀ a, a < flashBase ∨ flashEnd ≤ a → t.byte a = s.byte a) ∧
      changesOnly (logged [.start, .nv, .sec, .mem, .poison]) s t)) ∧
  (∀ (s : State) (r : StepReport), inStep 4 s → r.phyFail = [] → ∃ t, exec (.startStepComplete r) s = .next t ∧ stepped 4 s t ∧
    t.host.rate = r.linkRate ∧ t.host.flit = r.flit ∧ t.host.width = (if r.linkRate = 0 then 0 else r.linkWidth) ∧
    (r.linkRate = 0 → ∀ m, t.mb m = s.mb m) ∧
    (r.linkRate ≠ 0 → ∀ m, m < 8 → (s.mb m).phase = .offline → (t.mb m).phase = .idle) ∧
    recorded t 0 (b2n s.start.rom) 0 evStartStep .ok [w32 4, w32 (s.etc / 1000), 0] ∧
    changesOnly (logged [.start, .host, .mbs]) s t) ∧
  (∀ (s : State) (r : StepReport) (n p : Nat), inStep 4 s → canonical s → r.phyFail = [(n, p)] →
    ∃ t, exec (.startStepComplete r) s = .next t ∧ stepped 4 s t ∧
      t.dune n = { s.dune n with phyFailed := (s.dune n).phyFailed ++ [p] } ∧ (∀ j, j ≠ n → t.dune j = s.dune j) ∧
      changesOnly (logged [.start, .host, .mbs, .dunes]) s t)

/-- Steps 5 to 9 of a start (R450, R452, R453, R455, R465, R473, Table START.2): with every test passed and nothing fused, spare or
counted, step 5 changes nothing but the step; fused sculls show FUSED; without a pending repair step 6 leaves every stack as it is, and without an ONLINE stack the start
fails; step 7 shows each erg's least margin and keeps the stored taps of the lines that pass the check of a warm start, and of no others (R35); step 8 wipes every SRAM and every ONLINE stack, byte for byte, and nothing else;
step 9 clears the failures, shows the start in GLOBAL_BOOT and the life cycle, and the device is READY, or RETIRED in that
life-cycle state. -/
def Obligations.StartStepsFiveToNine : Prop :=
  (∀ (s : State) (r : StepReport), inStep 5 s → r.sculls = [] → r.seifs = [] → r.bows = [] → r.wakes = [] → s.nv.fused = [] →
    s.nv.spareSculls = [] → s.nv.testFails = [] → (∃ c, c < 768 ∧ (s.crew c).state = .good) →
    ∃ t, exec (.startStepComplete r) s = .next t ∧ stepped 5 s t ∧
      recorded t 0 (b2n s.start.rom) 0 evStartStep .ok [w32 5, w32 (s.etc / 1000), 0] ∧ changesOnly (logged [.start]) s t) ∧
  (∀ (s : State) (r : StepReport), inStep 5 s → r.sculls = [] → r.seifs = [] → r.bows = [] → r.wakes = [] → s.nv.fused = [] →
    s.nv.spareSculls = [] → s.nv.testFails = [] → (∀ c, c < 768 → (s.crew c).state ≠ .good) →
    ∃ t, exec (.startStepComplete r) s = .next t ∧ failedAt 5 0 s t) ∧
  (∀ (s : State) (r : StepReport) (k : Nat), inStep 5 s → r.sculls = [] → r.seifs = [] → r.bows = [] → r.wakes = [] →
    s.nv.fused = [k] → s.nv.spareSculls = [] → s.nv.testFails = [] → k < 12288 → k % 16 ≠ 0 → (s.scull (k / 16 * 16)).state = .good →
    (∃ c, c < 768 ∧ (s.crew c).state = .good) →
    ∃ t, exec (.startStepComplete r) s = .next t ∧ stepped 5 s t ∧ (t.scull k).state = .fused ∧
      (∀ j, j ≠ k → t.scull j = s.scull j) ∧ changesOnly (logged [.start, .sculls]) s t) ∧
  (∀ (s : State) (r : StepReport), inStep 6 s → s.nv.repairs = [] → s.nv.chRepairs = [] → s.nv.chReplaced = [] → r.phyFail = [] →
    s.dunes = [] → ∃ t, exec (.startStepComplete r) s = .next t ∧ stepped 6 s t ∧ changesOnly (logged [.start]) s t) ∧
  (∀ (s : State) (r : StepReport) (n lchan bank row : Nat), inStep 6 s → n < 48 → s.nv.repairs = [(n, lchan, bank, row)] →
    s.nv.chRepairs = [] → s.nv.chReplaced = [] → r.phyFail = [] → s.dunes = [] →
    ∃ t, exec (.startStepComplete r) s = .next t ∧ stepped 6 s t ∧
      ((n, lchan, bank, row) ∉ r.refused → (t.dune n).burnt = [(lchan, bank, row)] ∧ (t.dune n).remap = [] ∧ t.nv.repairs = []) ∧
      ((n, lchan, bank, row) ∈ r.refused → (t.dune n).burnt = [] ∧ (t.dune n).remap = [(lchan, bank, row)] ∧
        t.nv.repairs = [(n, lchan, bank, row)]) ∧
      (∀ j, j ≠ n → t.dune j = s.dune j) ∧ changesOnly (logged [.start, .nv, .dunes]) s t) ∧
  (∀ (s : State) (r : StepReport), inStep 7 s → ∃ t, exec (.startStepComplete r) s = .next t ∧ stepped 7 s t ∧
    (s.start.kind ≠ 1 → t.nv.taps = []) ∧
    (s.start.kind = 1 → t.nv.taps = s.nv.taps.filter fun e => !(r.calFails.any fun x => lineKey x.1 x.2 == e.1)) ∧
    { t.nv with taps := s.nv.taps, reserved := s.nv.reserved } = s.nv ∧
    (∀ d m, d < 16 → r.margins[d]? = some m → t.fld (ergReg d 0x10C) 0 16 = m % 2 ^ 16) ∧
    (∀ off, off ∉ (List.range 16).map (ergReg · 0x10C) → off ≠ 0x264 → off ≠ 0x278 → t.reg off = s.reg off) ∧
    changesOnly (logged [.start, .nv, .regs]) s t) ∧
  (∀ (s : State) (r : StepReport), inStep 8 s → ∃ t, exec (.startStepComplete r) s = .next t ∧ stepped 8 s t ∧
    (∀ a, a < duneEnd → (s.dune (stackOf a)).state = .online → t.byte a = 0) ∧
    (∀ a, a < duneEnd → (s.dune (stackOf a)).state ≠ .online → t.byte a = s.byte a) ∧
    (∀ a, duneEnd ≤ a → a < crewBase → t.byte a = s.byte a) ∧ (∀ a, crewBase ≤ a → t.byte a = 0) ∧
    changesOnly (logged [.start, .mem, .poison]) s t) ∧
  (∀ (s : State) (r : StepReport), inStep 9 s → s.nv.lifecycle ≠ 5 → numAt s.nv.runImage 0xA 1 = 0 →
    ∃ t, exec (.startStepComplete r) s = .next t ∧ t.dev = .ready ∧ t.start.step = 0 ∧ t.start.lastGood = true ∧ t.nv.failed = 0 ∧
      (s.nv.identity r.storeBad < 1048576 → t.nv.idIndex = s.nv.identity r.storeBad + 1 ∧ t.sec.attReady = true) ∧
      (1048576 ≤ s.nv.identity r.storeBad → t.nv.idIndex = s.nv.idIndex ∧ t.sec.attReady = s.sec.attReady) ∧
      t.fld 0x220 0 2 = s.start.kind % 4 ∧ bits (t.view 0x224) 0 4 = s.nv.lifecycle % 16 ∧
      recorded t 0 (b2n s.start.rom) 0 evState .ok [w32 0, w32 1, 0]) ∧
  (∀ (s : State) (r : StepReport), inStep 9 s → s.nv.lifecycle = 5 →
    ∃ t, exec (.startStepComplete r) s = .next t ∧ t.dev = .retired ∧ t.start.step = 0 ∧ t.nv.failed = 0)

/-- START_STEP_TIMEOUT (R451, Tables START.2, SEC.6): a step still running past its limit fails with the step; step 9 is limited to 1,500 ms
after the end of step 3 and counts an authentication failure; within the limit nothing happens. -/
def Sys2Proof.Safety.StartStepLimit : Prop :=
  (∀ (s : State) (n : Nat), inStep n s → 1 ≤ n → n ≤ 8 → s.start.at_ + stepLimit (decide (s.start.kind ≠ 1)) n * 1000 < s.etc →
    ∃ t, exec .startStepTimeout s = .next t ∧ failedAt n 0 s t ∧ changesOnly (logged [.dev, .start, .nv, .mbs]) s t) ∧
  (∀ (s : State), inStep 9 s → s.start.keyAt + 1500000 < s.etc → ∃ t, exec .startStepTimeout s = .next t ∧ failedAt 9 0 s t ∧
    t.fld 0x250 0 16 = min (s.fld 0x250 0 16 + 1) 0xFFFF ∧ changesOnly (logged [.dev, .start, .nv, .mbs, .regs]) s t) ∧
  (∀ (s : State) (n : Nat), inStep n s → n ≤ 8 → s.etc ≤ s.start.at_ + stepLimit (decide (s.start.kind ≠ 1)) n * 1000 →
    exec .startStepTimeout s = .next s) ∧
  (∀ (s : State), s.power ≠ .on ∨ s.dev ≠ .starting → exec .startStepTimeout s = .next s)

/-- A fault of the Coxswain: a lockstep mismatch (cause 1) and the watchdog (cause 2) (R416, R424, R428, Table COX.3). A running
device enters FAULTED with the cause, the ROM takes over, and every running mailbox command is answered with INTERNAL; a start fails;
FAULTED keeps its first cause; RECOVERY and RETIRED stay. -/
def Sys2Proof.Safety.CoxswainFaults : Prop :=
  ∀ c cause, (c, cause) ∈ [(Instr.lockstepMismatch, 1), (Instr.coxWatchdogExpiry, 2)] →
    (∀ (s : State), canonical s → s.power = .on → s.dev ∈ [DevState.ready, .running, .quiescing, .quiesced] →
      ∃ t, exec c s = .next t ∧ t.dev = .faulted ∧ t.fault = cause ∧ t.start.rom = true ∧ t.stateMb = none ∧ t.mbQueue = [] ∧
        (∀ m, m < 9 → (s.mb m).phase = .running → (t.mb m).phase = .done ∧ (t.mb m).lastStatus = 0xFF#16 ∧ (t.mb m).unread = true ∧
          (t.mb m).rsp = responseBytes (s.mb m).tag .internal []) ∧
        (∀ m, (s.mb m).phase ≠ .running → t.mb m = s.mb m) ∧
        changesOnly (logged [.dev, .fault, .start, .mbs, .stateMb, .mbQueue]) s t) ∧
    (∀ (s : State), s.power = .on → s.dev = .faulted → ∃ t, exec c s = .next t ∧ t.dev = .faulted ∧ t.fault = s.fault ∧
      recorded t 0 1 3 evState .internal [w32 6, w32 6, w32 cause] ∧ changesOnly (logged []) s t) ∧
    (∀ (s : State) (n : Nat), inStep n s → n ≠ 0 → ∃ t, exec c s = .next t ∧ failedAt n cause s t) ∧
    (∀ (s : State), s.power ≠ .on ∨ s.dev = .recovery ∨ s.dev = .retired ∨ s.dev = .starting ∧ s.start.step = 0 → exec c s = .next s)

/-- A failed health test of the entropy source (R467, Tables SEC.6, COX.3) is counted and recorded; after a start the generator
stops and the device enters FAULTED with cause 3; during a start the start fails. -/
def Sys2Proof.Safety.EntropyFault : Prop :=
  (∀ (s : State), canonical s → s.power = .on → s.dev ∈ [DevState.ready, .running, .quiescing, .quiesced] →
    ∃ t, exec .entropyHealthFail s = .next t ∧ t.dev = .faulted ∧ t.fault = 3 ∧ t.sec = { s.sec with rngStop := true } ∧
      t.start.rom = true ∧ t.fld 0x250 0 16 = min (s.fld 0x250 0 16 + 1) 0xFFFF ∧
      (∀ off, off ≠ 0x250 → off ≠ 0x264 → off ≠ 0x278 → t.reg off = s.reg off) ∧
      changesOnly (logged [.dev, .fault, .start, .sec, .regs, .mbs, .stateMb, .mbQueue]) s t) ∧
  (∀ (s : State) (n : Nat), inStep n s → n ≠ 0 → ∃ t, exec .entropyHealthFail s = .next t ∧ failedAt n 0 s t ∧ t.sec = s.sec) ∧
  (∀ (s : State), canonical s → s.power = .on → s.dev ∈ [DevState.recovery, .retired] → ∃ t, exec .entropyHealthFail s = .next t ∧ t.dev = s.dev ∧
    t.sec.rngStop = true ∧ recorded t 3 (unitId 13 0) 2 evSecFail .internal [w32 8] ∧ changesOnly (logged [.sec, .regs]) s t) ∧
  (∀ (s : State), canonical s → s.power = .on → s.dev = .faulted → ∃ t, exec .entropyHealthFail s = .next t ∧ t.dev = .faulted ∧
    t.fault = s.fault ∧ t.sec.rngStop = true ∧ recorded t 0 1 3 evState .internal [w32 6, w32 6, w32 3] ∧
    changesOnly (logged [.sec, .regs]) s t) ∧
  (∀ (s : State), s.power ≠ .on → exec .entropyHealthFail s = .next s)

/-- A scull has retired for a cause (R105, R490, Table TASK.8): its state and cause, its store lost, the count of GLOBAL_RAS_RETIRE
one higher, RETIRE recorded; no other scull changes. -/
structure Sys2Proof.Safety.scullRetired (k cause : Nat) (s t : State) : Prop where
  unit : (t.scull k).state = .retired ∧ (t.scull k).cause = cause ∧ (t.scull k).testing = false
  others : ∀ j, j ≠ k → t.scull j = s.scull j
  storeLost : ∀ a, scullBase + k * 0x80000 ≤ a → a < scullBase + (k + 1) * 0x80000 → t.byte a = 0
  storeKept : ∀ a, a < scullBase + k * 0x80000 ∨ scullBase + (k + 1) * 0x80000 ≤ a → t.byte a = s.byte a
  count : t.fld 0x274 0 14 = min (s.fld 0x274 0 14 + 1) 0x3FFF
  log : recorded t 3 (unitId 0 k) 2 evRetire .tileRetired [w32 k, w32 cause]

/-- A scull is at work on nothing and its crew has another good scull, so that its retirement ends there. -/
def Sys2Proof.Safety.spareable (k : Nat) (s : State) : Prop :=
  (s.scull k).state = .good ∧ (s.scull k).task = none ∧ (s.scull k).suspended = [] ∧
    ∃ i, i < 16 ∧ k / 16 * 16 + i ≠ k ∧ (s.scull (k / 16 * 16 + i)).state = .good

/-- Nothing waits: no task is parked, no ring has descriptors to deliver, no scheduler command moves crews. -/
def Sys2Proof.Safety.settled (s : State) : Prop :=
  (∀ e ∈ s.crews, e.2.parked = []) ∧ (∀ e ∈ s.rings, e.2.waiting = []) ∧ s.sched.busy = false

/-- A crew has retired for a cause (R131, R490, Table TASK.8): its good sculls retire with cause 6, its store is lost, the count
is one higher, RETIRE is recorded; no other crew changes. -/
structure Sys2Proof.Safety.crewRetired (c cause : Nat) (s t : State) : Prop where
  unit : (t.crew c).state = .retired ∧ (t.crew c).cause = cause ∧ (t.crew c).seifTest = false
  others : ∀ j, j ≠ c → t.crew j = s.crew j
  sculls : ∀ i, i < 16 → (s.scull (16 * c + i)).state = .good →
    (t.scull (16 * c + i)).state = .retired ∧ (t.scull (16 * c + i)).cause = 6
  rest : ∀ k, k / 16 ≠ c → t.scull k = s.scull k
  storeLost : ∀ a, crewBase + c * 0x400000 ≤ a → a < crewBase + (c + 1) * 0x400000 → t.byte a = 0
  count : t.fld 0x274 14 10 = min (s.fld 0x274 14 10 + 1) 0x3FF
  log : recorded t 3 (unitId 1 c) 2 evRetire .crewRetired [w32 (unitId 1 c), w32 cause]

/-- An erg's Bow has retired for a cause (R256, R490, Table CONV.7). -/
structure Sys2Proof.Safety.bowRetired (d cause : Nat) (s t : State) : Prop where
  unit : (t.erg d).bow = .retired ∧ (t.erg d).bowCause = cause ∧ (t.erg d).bowTest = false
  others : ∀ j, j ≠ d → t.erg j = s.erg j
  count : t.fld 0x274 24 4 = min (s.fld 0x274 24 4 + 1) 0xF
  log : recorded t 3 (unitId 3 d) 2 evRetire .internal [w32 (unitId 3 d), w32 cause]

/-- A good crew with nothing queued or running, in a settled machine. -/
def Sys2Proof.Safety.crewIdle (c : Nat) (s : State) : Prop :=
  settled s ∧ (s.crew c).state = .good ∧ (s.crew c).queue = [] ∧ (s.crew c).parked = [] ∧
    ∀ i, i < 16 → (s.scull (16 * c + i)).task = none ∧ (s.scull (16 * c + i)).suspended = []

/-- A good Bow without a task, on an erg with nothing queued, in a settled machine. -/
def Sys2Proof.Safety.bowIdle (d : Nat) (s : State) : Prop :=
  settled s ∧ (s.erg d).bow = .good ∧ (s.erg d).bowTask = none ∧ ∀ c, c ∈ ergCrews d → (s.crew c).queue = [] ∧ (s.crew c).parked = []

/-- Nothing runs: no task is in the table and no collective epoch is open. -/
def Sys2Proof.Safety.noTasks (s : State) : Prop := s.tasks = [] ∧ s.colls.running = []

/-- ISLAND_LOCK_LOSS (R38, R489, Table RAS.4): the island's time of loss is kept, LOCK is recorded with INTERNAL, and its unit
suffers: a Sweep island's ports go to TRAINING, the host port's link goes down, a Wake engine's jobs end, the Coxswain's and the
security block's islands fault the device; for a die's core island, the flash's and the power controller's nothing more. -/
def Sys2Proof.Safety.IslandLoss : Prop :=
  (∀ (s : State) (i : Nat), canonical s → Tab.wf 0 s.islands = true → s.power = .on → i < 40 → s.locked i = true →
    ∃ t, exec (.islandLockLoss i) s = .next t ∧ Tab.get 0 t.islands i = s.etc + 1 ∧ t.locked i = false ∧
      (∀ j, j ≠ i → Tab.get 0 t.islands j = Tab.get 0 s.islands j) ∧
      (i < 16 ∨ i = 34 ∨ i = 37 ∨ i = 38 → recorded t 3 (unitId 6 i) 2 evLock .internal [w32 i] ∧ changesOnly (logged [.islands]) s t) ∧
      (16 ≤ i → i < 25 → noTasks s → (∀ p, p ∈ islandPorts i →
          ((s.port p).state ∈ [PortState.training, .attesting, .admitted] → (t.port p).state = .training ∧ (t.port p).since = s.etc ∧
            (t.port p).txKey = [] ∧ (t.port p).peer = (s.port p).peer) ∧
          ((s.port p).state ∉ [PortState.training, .attesting, .admitted] → t.port p = s.port p)) ∧
        (∀ p, p ∉ islandPorts i → t.port p = s.port p) ∧ changesOnly (logged [.islands, .ports]) s t) ∧
      (i = 25 → t.host.width = 0 ∧ t.host.rate = 0 ∧ (s.tasks = [] → s.rings = [] → changesOnly (logged [.islands, .host]) s t)) ∧
      (26 ≤ i → i < 34 → (s.wake (i - 26)).job 0 = none → (s.wake (i - 26)).job 1 = none → changesOnly (logged [.islands]) s t) ∧
      (i = 35 ∨ i = 36 ∨ i = 39 → s.dev ∈ [DevState.ready, .running, .quiescing, .quiesced] → t.dev = .faulted ∧ t.fault = 3)) ∧
  (∀ (s : State) (i : Nat), s.power ≠ .on ∨ 40 ≤ i ∨ s.locked i = false → exec (.islandLockLoss i) s = .next s)

/-- ISLAND_RELOCK and its time limit of 1,000 µs (R489, Table RAS.4): an island that locks again is no longer listed, and messages held
for the host port may leave; one that does not fails its unit: three Dune stacks FAILED with their contents lost, the ports
DOWN, the Wake engine retired, the flash taken as absent. -/
def Sys2Proof.Safety.IslandRecovery : Prop :=
  (∀ (s : State) (i : Nat), Tab.wf 0 s.islands = true → s.power = .on → ∃ t, exec (.islandRelock i) s = .next t ∧
    Tab.get 0 t.islands i = 0 ∧ t.locked i = true ∧ (∀ j, j ≠ i → Tab.get 0 t.islands j = Tab.get 0 s.islands j) ∧
    changesOnly [.sent, .vecPend, .islands] s t ∧ (i ≠ 25 → s.locked 25 = false → t.tx = s.tx)) ∧
  (∀ (s : State) (i : Nat), canonical s → s.power = .on → Tab.get 0 s.islands i ≠ 0 → Tab.get 0 s.islands i + 1000 ≤ s.etc →
    ∃ t, exec (.islandRelockTimeout i) s = .next t ∧
      (i < 16 → (∀ n, n / 3 = i → ((s.dune n).state = .online ∨ (s.dune n).state = .stopped → (t.dune n).state = .failed ∧
            ∀ a, stackOf a = n → t.byte a = 0) ∧
          ((s.dune n).state ≠ .online → (s.dune n).state ≠ .stopped → t.dune n = s.dune n)) ∧
        (∀ n, n / 3 ≠ i → t.dune n = s.dune n) ∧ (∀ a, stackOf a / 3 ≠ i → t.byte a = s.byte a) ∧
        changesOnly [.dunes, .mem, .poison] s t) ∧
      (16 ≤ i → i < 25 → (∀ p, p ∈ islandPorts i → ((s.port p).state = .training → (t.port p).state = .down ∧
            (t.port p).since = s.etc) ∧ ((s.port p).state ≠ .training → t.port p = s.port p)) ∧
        (∀ p, p ∉ islandPorts i → t.port p = s.port p) ∧ changesOnly (logged [.ports]) s t) ∧
      (26 ≤ i → i < 34 → (s.wake (i - 26)).state = .good → (s.wake (i - 26)).job 0 = none → (s.wake (i - 26)).job 1 = none →
        (t.wake (i - 26)).state = .retired ∧ (t.wake (i - 26)).cause = 1 ∧ (∀ j, j ≠ i - 26 → t.wake j = s.wake j) ∧
        changesOnly (logged [.regs, .wakes]) s t) ∧
      (i = 34 → t = { s with flashGone := true }) ∧
      (i = 25 ∨ 35 ≤ i → t = s)) ∧
  (∀ (s : State) (i : Nat), s.power ≠ .on ∨ Tab.get 0 s.islands i = 0 ∨ s.etc < Tab.get 0 s.islands i + 1000 →
    exec (.islandRelockTimeout i) s = .next s)

/-- DELAY_LINE_RECAL (R33, R34) and BEAT_RATE_WINDOW_END (R48): a visit keeps the least margin of the erg; below 6 % the
line takes a tap, kept with its calibration, counted and recorded (severity and status: log entry 18), or what it serves retires; a window of 100 µs, once, shows the
rate in whole beats per µs of the erg's monitor over that window with the mean voltage (rounding: log entry 82). -/
def Obligations.DelayLinesAndBeats : Prop :=
  (∀ (s : State) (c : Nat) (l : Line) (m : Nat) (taps : Bool), canonical s → s.background = true → (s.crew c).state = .good → 60 ≤ m →
    ∃ t, exec (.delayLineRecal c l m taps) s = .next t ∧
      t.fld (ergReg (c / 48) 0x10C) 0 16 = min (s.fld (ergReg (c / 48) 0x10C) 0 16) m ∧
      t.fld (ergReg (c / 48) 0x10C) 16 8 = s.fld (ergReg (c / 48) 0x10C) 16 8 ∧
      (∀ off, off ≠ ergReg (c / 48) 0x10C → t.reg off = s.reg off) ∧ changesOnly [.regs, .lossCounts] s t) ∧
  (∀ (s : State) (c : Nat) (l : Line) (m : Nat), canonical s → Tab.wf 0 s.nv.taps = true → s.background = true → (s.crew c).state = .good → m < 60 →
    ∃ t, exec (.delayLineRecal c l m true) s = .next t ∧
      t.fld (ergReg (c / 48) 0x10C) 0 16 = min (s.fld (ergReg (c / 48) 0x10C) 0 16) m ∧
      t.fld (ergReg (c / 48) 0x10C) 16 8 = min (s.fld (ergReg (c / 48) 0x10C) 16 8 + 1) 0xFF ∧
      recorded t 3 (unitId 1 c) 1 evDelayTap .ok [w32 c] ∧
      Tab.get 0 t.nv.taps (lineKey c l) = Tab.get 0 s.nv.taps (lineKey c l) + 1 ∧
      { t.nv with taps := s.nv.taps, reserved := s.nv.reserved } = s.nv ∧
      (∀ off, off ≠ ergReg (c / 48) 0x10C → off ≠ 0x264 → off ≠ 0x278 → t.reg off = s.reg off) ∧ changesOnly (logged [.nv, .regs]) s t) ∧
  (∀ (s : State) (k m : Nat), canonical s → s.background = true → (s.crew (k / 16)).state = .good → m < 60 → spareable k s →
    ∃ t, exec (.delayLineRecal (k / 16) (.scull k) m false) s = .next t ∧ scullRetired k 4 s t ∧
      changesOnly (logged [.regs, .mem, .poison, .sculls]) s t) ∧
  (∀ (s : State) (c m : Nat), canonical s → s.background = true → m < 60 → crewIdle c s →
    ∃ t, exec (.delayLineRecal c .crew m false) s = .next t ∧ crewRetired c 3 s t ∧
      changesOnly (logged [.regs, .mem, .poison, .sculls, .crews]) s t) ∧
  (∀ (s : State) (c m : Nat), canonical s → s.background = true → (s.crew c).state = .good → m < 60 → bowIdle (c / 48) s →
    ∃ t, exec (.delayLineRecal c .bow m false) s = .next t ∧ bowRetired (c / 48) 3 s t ∧
      changesOnly (logged [.regs, .ergs]) s t) ∧
  (∀ (s : State) (c : Nat) (l : Line) (m : Nat) (taps : Bool), s.background = false ∨ (s.crew c).state ≠ .good →
    exec (.delayLineRecal c l m taps) s = .next s) ∧
  (∀ (s : State) (d mv : Nat), canonical s → s.power = .on → s.timer = true → s.etc % 100 = 0 → (s.erg d).windows < s.etc / 100 →
    ∃ t, exec (.beatRateWindowEnd d mv) s = .next t ∧
      t.fld (ergReg d 0x108) 0 16 = min (s.beatsIn d (s.etc - 100) 100 / 100) 0xFFFF ∧ t.fld (ergReg d 0x108) 16 10 = mv % 1024 ∧
      t.erg d = { s.erg d with windows := s.etc / 100 } ∧ (∀ j, j ≠ d → t.erg j = s.erg j) ∧
      (∀ off, off ≠ ergReg d 0x108 → t.reg off = s.reg off) ∧ changesOnly [.regs, .lossCounts, .ergs] s t) ∧
  (∀ (s : State) (d mv : Nat), s.power ≠ .on ∨ s.timer = false ∨ s.etc % 100 ≠ 0 ∨ s.etc / 100 ≤ (s.erg d).windows →
    exec (.beatRateWindowEnd d mv) s = .next s)

/-- A run has been stopped before its commit (R88, R103): nothing it held back stays, and it waits for its transfers. -/
def Sys2Proof.Safety.stopped (id : Nat) (avoid : Option Nat) (s t : State) : Prop :=
  t.task id = { s.task id with state := .ended false, held := [], todo := [], startedAt := s.etc, avoid := avoid } ∧
    ∀ j, j ≠ id → t.task j = s.task j

/-- A good scull runs a task. -/
def Sys2Proof.Safety.runs (k id : Nat) (s : State) : Prop :=
  canonical s ∧ s.power = .on ∧ (s.scull k).state = .good ∧ (s.scull k).task = some id ∧ (s.task id).state = .running

/-- Mismatches of scull k in the window once one more is counted (R88, R107); uncorrectable errors likewise. -/
def Sys2Proof.Safety.mismatches (s : State) (k : Nat) : Nat := (s.recentFaults (k / 768) (s.etc :: (s.scull k).resTimes)).length
def Sys2Proof.Safety.memErrors (s : State) (k : Nat) : Nat := (s.recentFaults (k / 768) (s.etc :: (s.scull k).ueTimes)).length

/-- RESIDUE_MISMATCH and ACC_ECC_UE (R88, R92, R105, Table SCULL.6): the running task is stopped and does not go to this scull again, the scull's counter rises, the
event is recorded with the task; below the limit of the erg's window the scull owes its self-test, at the limit it retires. A
command to a scull that runs nothing changes nothing. -/
def Sys2Proof.Safety.ScullMismatch : Prop :=
  (∀ (s : State) (k id slot block : Nat), runs k id s → mismatches s k < s.resLimit (k / 768) →
    ∃ t, exec (.residueMismatch k slot block) s = .next t ∧ stopped id (some k) s t ∧
      t.fld (scullReg k 0x14) 0 16 = min (s.fld (scullReg k 0x14) 0 16 + 1) 0xFFFF ∧
      t.scull k = { s.scull k with resTimes := s.etc :: (s.scull k).resTimes, testDue := true } ∧
      recorded t 3 (unitId 0 k) 2 evResidue .internal [w32 k, w32 (s.task id).key, w32 slot, w32 block] ∧
      (∀ j, j ≠ k → t.scull j = s.scull j) ∧ (∀ off, off ≠ scullReg k 0x14 → off ≠ 0x264 → off ≠ 0x278 → t.reg off = s.reg off) ∧
      changesOnly (logged [.regs, .sculls, .tasks]) s t) ∧
  (∀ (s : State) (k id slot block : Nat), runs k id s → s.resLimit (k / 768) ≤ mismatches s k → (s.scull k).suspended = [] →
    (∃ i, i < 16 ∧ k / 16 * 16 + i ≠ k ∧ (s.scull (k / 16 * 16 + i)).state = .good) →
    ∃ t, exec (.residueMismatch k slot block) s = .next t ∧ stopped id (some k) s t ∧
      t.fld (scullReg k 0x14) 0 16 = min (s.fld (scullReg k 0x14) 0 16 + 1) 0xFFFF ∧
      scullRetired k 1 s t ∧ changesOnly (logged [.regs, .sculls, .tasks, .mem, .poison]) s t) ∧
  (∀ (s : State) (k id : Nat), runs k id s → memErrors s k < s.ueLimit (k / 768) →
    ∃ t, exec (.accEccUe k) s = .next t ∧ stopped id (some k) s t ∧
      t.fld (scullReg k 0x1C) 16 8 = min (s.fld (scullReg k 0x1C) 16 8 + 1) 0xFF ∧
      t.scull k = { s.scull k with ueTimes := s.etc :: (s.scull k).ueTimes, testDue := true } ∧
      recorded t 3 (unitId 0 k) 2 evEccUe .internal [w32 k, w32 (s.task id).key] ∧
      (∀ j, j ≠ k → t.scull j = s.scull j) ∧ (∀ off, off ≠ scullReg k 0x1C → off ≠ 0x264 → off ≠ 0x278 → t.reg off = s.reg off) ∧
      changesOnly (logged [.regs, .sculls, .tasks]) s t) ∧
  (∀ (s : State) (k id : Nat), runs k id s → s.ueLimit (k / 768) ≤ memErrors s k → (s.scull k).suspended = [] →
    (∃ i, i < 16 ∧ k / 16 * 16 + i ≠ k ∧ (s.scull (k / 16 * 16 + i)).state = .good) →
    ∃ t, exec (.accEccUe k) s = .next t ∧ stopped id (some k) s t ∧
      t.fld (scullReg k 0x1C) 16 8 = min (s.fld (scullReg k 0x1C) 16 8 + 1) 0xFF ∧
      scullRetired k 3 s t ∧ changesOnly (logged [.regs, .sculls, .tasks, .mem, .poison]) s t) ∧
  (∀ (s : State) (k slot block : Nat), (s.scull k).task = none ∨ s.power ≠ .on ∨ (s.scull k).state ≠ .good →
    exec (.residueMismatch k slot block) s = .next s ∧ exec (.accEccUe k) s = .next s)

/-- STORE_ECC_UE (R97, R106): the error is counted, recorded and its offset captured unless one is held; in a staging buffer it stops
the run, in a cache that a task reads, on whichever scull, it ends that task with INTERNAL; found by the scrubber it marks the 64-bit word poisoned. -/
def Sys2Proof.Safety.StoreError : Prop :=
  (∀ (s : State) (k off : Nat), canonical s → s.power = .on → (s.scull k).state = .good → memErrors s k < s.ueLimit (k / 768) →
    ∃ t, exec (.storeEccUe k off .scrub) s = .next t ∧
      (scullBase + k * 0x80000 + off) / 8 ∈ t.poison ∧ (∀ w, w ≠ (scullBase + k * 0x80000 + off) / 8 → (w ∈ t.poison ↔ w ∈ s.poison)) ∧
      t.fld (scullReg k 0x18) 16 8 = min (s.fld (scullReg k 0x18) 16 8 + 1) 0xFF ∧
      (s.fld (scullReg k 0x20) 19 1 = 1 → t.reg (scullReg k 0x20) = s.reg (scullReg k 0x20)) ∧
      (s.fld (scullReg k 0x20) 19 1 = 0 → t.reg (scullReg k 0x20) = w32 (off % 0x80000 + 0x80000)) ∧
      t.scull k = { s.scull k with ueTimes := s.etc :: (s.scull k).ueTimes } ∧
      (∀ j, j ≠ k → t.scull j = s.scull j) ∧ recorded t 3 (unitId 0 k) 2 evEccUe .internal [w32 k, w32 off] ∧
      changesOnly (logged [.regs, .sculls, .poison]) s t) ∧
  (∀ (s : State) (k id off : Nat), runs k id s → memErrors s k < s.ueLimit (k / 768) →
    ∃ t, exec (.storeEccUe k off .staging) s = .next t ∧ stopped id (s.task id).avoid s t ∧
      t.fld (scullReg k 0x18) 16 8 = min (s.fld (scullReg k 0x18) 16 8 + 1) 0xFF ∧
      t.scull k = { s.scull k with ueTimes := s.etc :: (s.scull k).ueTimes } ∧
      recorded t 3 (unitId 0 k) 2 evEccUe .internal [w32 k, w32 off] ∧ changesOnly (logged [.regs, .sculls, .tasks]) s t) ∧
  (∀ (s : State) (k r id off : Nat), runs r id s → (s.task id).scull = some r → settled s → (s.scull k).state = .good →
    memErrors s k < s.ueLimit (k / 768) →
    ∃ t, exec (.storeEccUe k off (.taskRead id)) s = .next t ∧ (t.task id).state = .done ∧ (t.task id).status = .internal ∧
      (t.scull r).task = none ∧ (t.scull k).state = .good ∧
      t.fld (scullReg k 0x18) 16 8 = min (s.fld (scullReg k 0x18) 16 8 + 1) 0xFF) ∧
  (∀ (s : State) (k off : Nat) (site : StoreUe), s.power ≠ .on ∨ (s.scull k).state ≠ .good →
    exec (.storeEccUe k off site) s = .next s) ∧
  (∀ (s : State) (k id off : Nat), ((s.scull k).task = none → exec (.storeEccUe k off .staging) s = .next s) ∧
    ((s.task id).state ≠ .running → exec (.storeEccUe k off (.taskRead id)) s = .next s))

/-- The task of scull k that has ended and whose transfers are dealt with, or are not dealt with 10 µs after it ended (R103); with
whether it was pre-empted. -/
def Sys2Proof.Safety.handable (s : State) (k : Nat) : Option (Nat × Bool) := s.endedOn k fun t => t.flying.isEmpty
def Sys2Proof.Safety.stuck (s : State) (k : Nat) : Option (Nat × Bool) :=
  s.endedOn k fun t => !t.flying.isEmpty && decide (t.startedAt + 11 ≤ s.etc)

/-- TASK_HANDBACK (R88, R103, R122, Table TASK.4): a stopped run whose transfers are dealt with leaves its scull and goes to the head of its home crew's queue
with one run more, and a self-test that the scull owes begins; HANDBACK_TIMEOUT (R103): after 10 µs the scull retires with cause 5 and the task is handed back. Before, nothing changes. -/
def Obligations.HandBack : Prop :=
  (∀ (s : State) (k id : Nat) (p : Bool), s.power = .on → handable s k = some (id, p) →
    exec (.taskHandback k) s = .next (s.handBack id p)) ∧
  (∀ (s : State) (k id : Nat), canonical s → settled s → s.power = .on → (s.scull k).task = some id → (s.task id).state = .ended false →
    (s.task id).flying = [] → (s.task id).scull = some k → (s.task id).runs < 3 → (s.task id).claims = [] →
    s.inSet (s.task id).part (s.task id).home = true → s.bowOk (s.task id) (s.task id).home = true →
    s.fitsErg ((s.task id).home / 48) (s.task id).lc (s.task id).holdLines = true →
    ∃ t, exec (.taskHandback k) s = .next t ∧ (t.task id).state = .queued ∧ (t.task id).runs = (s.task id).runs + 1 ∧
      (t.task id).scull = none ∧ (t.task id).lines = 0 ∧ (t.task id).held = [] ∧ (t.task id).avoid = (s.task id).avoid ∧
      (t.task id).seed = (s.task id).seed ∧ (t.scull k).task = none ∧ (∀ b, b ∈ (t.scull k).bank ↔ b ∈ (s.scull k).bank ∧ b.task ≠ id) ∧
      ((s.scull k).testDue = true → (s.scull k).state = .good → (t.scull k).testing = true ∧ (t.scull k).testDue = false) ∧
      ((s.scull k).testDue = false → (t.scull k).testing = (s.scull k).testing) ∧
      (t.crew (s.task id).home).queue = id :: (s.crew (s.task id).home).queue ∧
      (∀ j, j ≠ id → t.task j = s.task j) ∧ (∀ j, j ≠ k → t.scull j = s.scull j) ∧ t.rings = s.rings ∧
      ((s.task id).pins = [] → (s.task id).frames = [] → t.mem = s.mem)) ∧
  (∀ (s : State) (k id : Nat), canonical s → settled s → s.power = .on → (s.scull k).task = some id → (s.task id).state = .ended false →
    (s.task id).flying = [] → (s.task id).scull = some k → (s.task id).runs = 3 → (s.task id).claims = [] →
    ∃ t, exec (.taskHandback k) s = .next t ∧ (t.task id).state = .done ∧ (t.task id).status = .internal ∧ (t.scull k).task = none) ∧
  (∀ (s : State) (k : Nat), s.power ≠ .on ∨ handable s k = none → exec (.taskHandback k) s = .next s) ∧
  (∀ (s : State) (k : Nat), (s.scull k).task = none → (s.scull k).suspended = [] →
    exec (.taskHandback k) s = .next s ∧ exec (.handbackTimeout k) s = .next s) ∧
  (∀ (s : State) (k id : Nat) (p : Bool), s.power = .on → stuck s k = some (id, p) → exec (.handbackTimeout k) s =
    .next ((({ s with peers := s.peers.filter fun q => q.task != id }.setTask id { s.task id with flying := [] }).retireScull k 5).handBack id p)) ∧
  (∀ (s : State) (k id : Nat), canonical s → settled s → s.power = .on → (s.scull k).task = some id → (s.task id).state = .ended false →
    (s.task id).flying ≠ [] → (s.task id).scull = some k → (s.task id).startedAt + 11 ≤ s.etc → (s.task id).claims = [] →
    (s.scull k).state = .good → (s.scull k).suspended = [] →
    (∃ i, i < 16 ∧ k / 16 * 16 + i ≠ k ∧ (s.scull (k / 16 * 16 + i)).state = .good) →
    ∃ t, exec (.handbackTimeout k) s = .next t ∧ (t.scull k).state = .retired ∧ (t.scull k).cause = 5 ∧ (t.scull k).task = none ∧
      (t.task id).state ≠ .ended false ∧ (∀ q, q ∈ t.peers ↔ q ∈ s.peers ∧ q.task ≠ id) ∧
      (∀ j, j ≠ k → t.scull j = s.scull j)) ∧
  (∀ (s : State) (k : Nat), s.power ≠ .on ∨ stuck s k = none → exec (.handbackTimeout k) s = .next s)

/-- The self-tests of a scull, a Seif and a Bow (R88, R211, R256): one that passes leaves its unit in service, one that fails retires
it: a scull with cause 2, a crew with cause 1 for its Seif, a Bow with cause 1. A unit that tests nothing is left alone. -/
def Sys2Proof.Safety.SelfTests : Prop :=
  (∀ (s : State) (k : Nat), canonical s → s.power = .on → (s.scull k).state = .good → (s.scull k).testing = true →
    ∃ t, exec (.scullSelfTestDone k true) s = .next t ∧ t.scull k = { s.scull k with testing := false } ∧
      (∀ j, j ≠ k → t.scull j = s.scull j) ∧ changesOnly [.sculls] s t) ∧
  (∀ (s : State) (k : Nat), canonical s → s.power = .on → (s.scull k).testing = true → spareable k s →
    ∃ t, exec (.scullSelfTestDone k false) s = .next t ∧ scullRetired k 2 s t ∧ changesOnly (logged [.regs, .mem, .poison, .sculls]) s t) ∧
  (∀ (s : State) (c : Nat), s.power = .on → (s.crew c).state = .good → (s.crew c).seifTest = true →
    exec (.seifSelfTestDone c true) s =
      .next ((s.crewTasks c).foldl State.advance (s.setCrew c { s.crew c with seifTest := false }).rewake)) ∧
  (∀ (s : State) (c : Nat), canonical s → settled s → s.power = .on → (s.crew c).state = .good → (s.crew c).seifTest = true → s.crewTasks c = [] →
    ∃ t, exec (.seifSelfTestDone c true) s = .next t ∧ t.crew c = { s.crew c with seifTest := false } ∧
      (∀ j, j ≠ c → t.crew j = s.crew j) ∧ changesOnly [.crews] s t) ∧
  (∀ (s : State) (c : Nat), canonical s → s.power = .on → (s.crew c).seifTest = true → crewIdle c s →
    ∃ t, exec (.seifSelfTestDone c false) s = .next t ∧ crewRetired c 1 s t ∧
      changesOnly (logged [.regs, .mem, .poison, .sculls, .crews]) s t) ∧
  (∀ (s : State) (d : Nat), s.power = .on → (s.erg d).bow = .good → (s.erg d).bowTest = true →
    exec (.bowSelfTestDone d true) s = .next (s.setErg d { s.erg d with bowTest := false }).rewake) ∧
  (∀ (s : State) (d : Nat), canonical s → settled s → s.power = .on → (s.erg d).bow = .good → (s.erg d).bowTest = true →
    ∃ t, exec (.bowSelfTestDone d true) s = .next t ∧ t.erg d = { s.erg d with bowTest := false } ∧
      (∀ j, j ≠ d → t.erg j = s.erg j) ∧ changesOnly [.ergs] s t) ∧
  (∀ (s : State) (d : Nat), canonical s → s.power = .on → (s.erg d).bowTest = true → bowIdle d s →
    ∃ t, exec (.bowSelfTestDone d false) s = .next t ∧ bowRetired d 1 s t ∧ changesOnly (logged [.regs, .ergs]) s t) ∧
  (∀ (s : State) (n : Nat) (pass : Bool), ((s.scull n).testing = false → exec (.scullSelfTestDone n pass) s = .next s) ∧
    ((s.crew n).seifTest = false → exec (.seifSelfTestDone n pass) s = .next s) ∧
    ((s.erg n).bowTest = false → exec (.bowSelfTestDone n pass) s = .next s))

/-- SEIF_MISMATCH and BOW_MISMATCH (R211, R256): the ATTEND or the Bow's task is stopped before commit, the unit's counter rises, the event is
recorded; below the limit the unit tests itself, at the limit it retires. -/
def Sys2Proof.Safety.SeifAndBowMismatch : Prop :=
  (∀ (s : State) (c id : Nat), canonical s → s.power = .on → (s.crew c).state = .good → s.seifTask c = some id →
    (s.recentFaults (c / 48) (s.etc :: (s.crew c).seifTimes)).length < s.resLimit (c / 48) →
    ∃ t, exec (.seifMismatch c) s = .next t ∧ stopped id (s.task id).avoid s t ∧
      t.fld (crewReg c 0x5C) 16 16 = min (s.fld (crewReg c 0x5C) 16 16 + 1) 0xFFFF ∧
      t.crew c = { s.crew c with seifTimes := s.etc :: (s.crew c).seifTimes, seifTest := true } ∧
      recorded t 3 (unitId 2 c) 2 evResidue .internal [w32 c, w32 (s.task id).key] ∧
      (∀ j, j ≠ c → t.crew j = s.crew j) ∧ changesOnly (logged [.regs, .crews, .tasks]) s t) ∧
  (∀ (s : State) (c id : Nat), canonical s → s.power = .on → (s.crew c).state = .good → s.seifTask c = some id →
    s.resLimit (c / 48) ≤ (s.recentFaults (c / 48) (s.etc :: (s.crew c).seifTimes)).length → settled s → (s.crew c).queue = [] →
    (s.crew c).parked = [] →
    (∀ i, i < 16 → (s.scull (16 * c + i)).suspended = [] ∧ (s.scull (16 * c + i)).task ∈ [none, some id]) →
    ∃ t, exec (.seifMismatch c) s = .next t ∧ (t.task id).state = .ended false ∧ crewRetired c 1 s t) ∧
  (∀ (s : State) (d id : Nat), canonical s → s.power = .on → (s.erg d).bow = .good → (s.erg d).bowTask = some id →
    (s.task id).state = .running → (s.recentFaults d (s.etc :: (s.erg d).bowTimes)).length < s.resLimit d →
    ∃ t, exec (.bowMismatch d) s = .next t ∧ stopped id (s.task id).avoid s t ∧
      t.fld (ergReg d 0x190) 0 16 = min (s.fld (ergReg d 0x190) 0 16 + 1) 0xFFFF ∧
      t.erg d = { s.erg d with bowTimes := s.etc :: (s.erg d).bowTimes, bowTest := true } ∧
      recorded t 3 (unitId 3 d) 2 evResidue .internal [w32 d, w32 (s.task id).key] ∧
      (∀ j, j ≠ d → t.erg j = s.erg j) ∧ changesOnly (logged [.regs, .ergs, .tasks]) s t) ∧
  (∀ (s : State) (d id : Nat), canonical s → s.power = .on → (s.erg d).bow = .good → (s.erg d).bowTask = some id →
    (s.task id).state = .running → s.resLimit d ≤ (s.recentFaults d (s.etc :: (s.erg d).bowTimes)).length → settled s →
    (∀ c, c ∈ ergCrews d → (s.crew c).queue = [] ∧ (s.crew c).parked = []) →
    ∃ t, exec (.bowMismatch d) s = .next t ∧ (t.task id).state = .ended false ∧ (t.erg d).bow = .retired ∧ (t.erg d).bowCause = 2) ∧
  (∀ (s : State) (c d : Nat), (s.seifTask c = none → exec (.seifMismatch c) s = .next s) ∧
    ((s.erg d).bowTask = none → exec (.bowMismatch d) s = .next s))

/-- The value that cells written in order leave at an address that held b. -/
def Sys2Proof.Safety.lastAt (cs : List Cell) (a : Nat) (b : Byte) : Byte := cs.foldl (fun b c => if c.1 = a then c.2 else b) b

/-- A task runs on scull k from now (R122, R123, R125, Table TASK.4). -/
structure Sys2Proof.Safety.started (k id : Nat) (s t : State) : Prop where
  task : (t.task id).state = .running ∧ (t.task id).scull = some k ∧ (t.task id).lastCrew = some (k / 16) ∧ (t.task id).startedAt = s.etc
  scull : (t.scull k).task = some id ∧ ∀ j, j ≠ k → t.scull j = s.scull j
  queue : (t.crew (s.task id).home).queue = (s.crew (s.task id).home).queue.filter (· != id)
  lines : (t.erg (k / 768)).lcUsed + (t.erg (k / 768)).used =
    (s.erg (k / 768)).lcUsed + (s.erg (k / 768)).used + s.lineNeed (s.task id)
  others : ∀ j, j ≠ id → t.task j = s.task j

/-- A task that crew c tried was parked (R117, R122, Table TASK.4): it leaves its home crew's queue for the end of the parked list, and the crew counts it. -/
structure Sys2Proof.Safety.parkedFor (c id : Nat) (why : ParkWhy) (s t : State) : Prop where
  task : t.task id = { s.task id with state := .parked why, parkedAt := c } ∧ ∀ j, j ≠ id → t.task j = s.task j
  queue : (t.crew (s.task id).home).queue = (s.crew (s.task id).home).queue.filter (· != id)
  list : (t.crew (s.task id).home).parked = (s.crew (s.task id).home).parked.filter (· != id) ++ [id]
  others : ∀ j, j ≠ (s.task id).home → t.crew j = s.crew j

/-- A task that is ready to run on scull k: its fence and resources allow it, it does not run on the array, it names no key-value list, no registered tensor and no
watched tag, and it has operands to read. -/
def Sys2Proof.Safety.ready (k id : Nat) (s : State) : Prop :=
  s.parkReason (k / 16) id (s.task id) = none ∧ (s.task id).kind ∉ [kFence, kSignal, kCollect, kAttend, kKvappend] ∧
    (s.task id).onArray = false ∧
    (s.task id).claimant = none ∧ s.tier.tensors = [] ∧ s.lowp.tags = [] ∧ s.planReads (s.task id) ≠ [] ∧
    (∀ x, x ∈ s.planReads (s.task id) → regionOf x.da ≠ some .peer) ∧
    (s.task id).todo = [] ∧ (s.task id).flying = [] ∧ (s.task id).lo = none ∧ (s.task id).computed = false

/-- The issue of new tasks on scull k's erg is not limited (R31, R516). -/
def Sys2Proof.Safety.unlimited (k : Nat) (s : State) : Prop := (s.erg (k / 768)).issueLim = false

/-- TASK_TAKE (R104, R122, R123): a scull that may take a task takes the head of its crew's queue: it runs, or parks for the first
reason of Table TASK.4; a SIGNAL or a FENCE at the head waits for its own event; a scull that may not take, or finds nothing that fits, takes nothing.
While issue is limited (R31) an attempt takes what it would take, or nothing: which is open (log entry 81). -/
def Sys2Proof.Safety.TaskTake : Prop :=
  (∀ (s : State) (k id : Nat) (rest : List Nat), s.mayTake k = true → unlimited k s → (s.crew (k / 16)).queue = id :: rest →
    s.fits k (s.task id) = true → s.parkReason (k / 16) id (s.task id) = none → (s.task id).kind ∉ [kSignal, kFence] →
    exec (.taskTake k) s = .next (s.startRun k id).pumpAll) ∧
  (∀ (s : State) (k id : Nat) (rest : List Nat), canonical s → settled s → s.mayTake k = true → unlimited k s →
    (s.crew (k / 16)).queue = id :: rest →
    s.fits k (s.task id) = true → ready k id s → ∃ t, exec (.taskTake k) s = .next t ∧ started k id s t) ∧
  (∀ (s : State) (k id : Nat) (rest : List Nat) (why : ParkWhy), canonical s → s.mayTake k = true → unlimited k s →
    (s.crew (k / 16)).queue = id :: rest →
    s.fits k (s.task id) = true → s.parkReason (k / 16) id (s.task id) = some why → why ≠ .bow ∨ (s.task id).lc = false →
    ∃ t, exec (.taskTake k) s = .next t ∧ parkedFor (k / 16) id why s t ∧ changesOnly [.regs, .lossCounts, .crews, .tasks] s t) ∧
  (∀ (s : State) (k id b : Nat) (rest : List Nat), canonical s → s.mayTake k = true → unlimited k s →
    (s.crew (k / 16)).queue = id :: rest → s.fits k (s.task id) = true → s.parkReason (k / 16) id (s.task id) = some .bow →
    (s.task id).lc = true → (s.erg (k / 768)).bowTask = some b → b ≠ id → (s.task b).state = .running → (s.task b).lc = false →
    ∃ t, exec (.taskTake k) s = .next t ∧ (t.task b).state = .ended true ∧ (t.task id).state = .parked .bow) ∧
  (∀ (s : State) (k id : Nat) (rest : List Nat), s.mayTake k = true → unlimited k s → (s.crew (k / 16)).queue = id :: rest →
    s.parkReason (k / 16) id (s.task id) = none → (s.task id).kind ∈ [kSignal, kFence] → exec (.taskTake k) s = .next s) ∧
  (∀ (s : State) (k : Nat), s.mayTake k = false ∨ s.headFits k = false → exec (.taskTake k) s = .next s) ∧
  (∀ (s : State) (k id : Nat) (rest : List Nat), s.mayTake k = true → (s.erg (k / 768)).issueLim = true →
    (s.crew (k / 16)).queue = id :: rest → s.fits k (s.task id) = true →
    exec (.taskTake k) s = .next { s with fresh := s.fresh + 1 } ∨
      exec (.taskTake k) s = .next ({ s with fresh := s.fresh + 1 }.tryStart k id))

/-- TASK_STEAL (R123, R124): a scull that cannot run the head of its own crew's queue takes from the first victim of its erg that has a task for it, and from one of another
erg once its own erg has had none for cross_wait; the thief's and the victim's crews count it. A scull with a head that it can run steals nothing. -/
def Sys2Proof.Safety.TaskSteal : Prop :=
  (∀ (s : State) (k v id : Nat), s.mayTake k = true → s.headFits k = false → unlimited k s →
    s.findSteal k (s.fld (ergReg (k / 768) 0x140) 0 4) (s.nearVictims k) = some (v, id) →
    exec (.taskSteal k) s = .next (s.stealTask k v id)) ∧
  (∀ (s : State) (k v id : Nat), canonical s → settled s → s.mayTake k = true → s.headFits k = false → unlimited k s →
    s.findSteal k (s.fld (ergReg (k / 768) 0x140) 0 4) (s.nearVictims k) = some (v, id) → ready k id s →
    ∃ t, exec (.taskSteal k) s = .next t ∧ started k id s t ∧ (t.scull k).dryAt = none ∧
      t.fld (crewReg (k / 16) 8) 0 16 = min (s.fld (crewReg (k / 16) 8) 0 16 + 1) 0xFFFF ∧
      t.fld (crewReg v 8) 16 16 = min (s.fld (crewReg v 8) 16 16 + 1) 0xFFFF) ∧
  (∀ (s u : State) (k : Nat), s.mayTake k = true → s.headFits k = false → unlimited k s →
    s.findSteal k (s.fld (ergReg (k / 768) 0x140) 0 4) (s.nearVictims k) = none →
    u = s.setScull k { s.scull k with dryAt := some ((s.scull k).dryAt.getD s.etc) } →
    (s.etc < (s.scull k).dryAt.getD s.etc + s.fld (ergReg (k / 768) 0x140) 8 16 → exec (.taskSteal k) s = .next u) ∧
    ((s.scull k).dryAt.getD s.etc + s.fld (ergReg (k / 768) 0x140) 8 16 ≤ s.etc →
      (u.findSteal k (s.fld (ergReg (k / 768) 0x140) 4 4) (u.farVictims k) = none → exec (.taskSteal k) s = .next u) ∧
      (∀ v id, u.findSteal k (s.fld (ergReg (k / 768) 0x140) 4 4) (u.farVictims k) = some (v, id) →
        exec (.taskSteal k) s = .next (u.stealTask k v id)))) ∧
  (∀ (s : State) (k : Nat), s.mayTake k = false ∨ s.headFits k = true → exec (.taskSteal k) s = .next s)

/-- A suspended task of scull k may go on (R122, R206, R211, R322, R504). -/
def Sys2Proof.Safety.mayResume (k id : Nat) (s : State) : Prop :=
  s.power = .on ∧ (s.dev = .running ∨ s.dev = .quiescing) ∧ (s.scull k).state = .good ∧ (s.scull k).testing = false ∧
    (s.scull k).testDue = false ∧ (s.scull k).task = none ∧ id ∈ (s.scull k).suspended ∧ s.resumable (s.task id) = true ∧
    s.cairnHolds (k / 16) = false ∧ ((s.task id).kind = kAttend → (s.crew (k / 16)).seifTest = false)

/-- TASK_RESUME (R122, R322): a suspended task whose condition is met goes on, on its scull, with the transfers it still has to issue. -/
def Sys2Proof.Safety.TaskResume : Prop :=
  (∀ (s u : State) (k id : Nat), mayResume k id s →
    u = (s.setScull k { s.scull k with task := some id, suspended := (s.scull k).suspended.filter (· != id) }).setTask id
      { s.task id with state := .running, startedAt := s.etc } →
    exec (.taskResume k id) s = .next ((u.pumpXfers id).advance id)) ∧
  (∀ (s : State) (k id : Nat), canonical s → mayResume k id s → (s.task id).scull = some k → (s.task id).onArray = false →
    (∀ b, b ∈ (s.scull k).bank → b.task ≠ id) → (s.task id).todo = [] → (s.task id).flying ≠ [] →
    ∃ t, exec (.taskResume k id) s = .next t ∧ t.task id = { s.task id with state := .running, startedAt := s.etc } ∧
      t.scull k = { s.scull k with task := some id, suspended := (s.scull k).suspended.filter (· != id) } ∧
      (∀ j, j ≠ id → t.task j = s.task j) ∧ (∀ j, j ≠ k → t.scull j = s.scull j) ∧ changesOnly [.sculls, .tasks] s t) ∧
  (∀ (s : State) (k id : Nat), id ∉ (s.scull k).suspended ∨ s.resumable (s.task id) = false ∨ (s.scull k).task ≠ none →
    exec (.taskResume k id) s = .next s)

/-- What the reads of transfer x find, that concerns it; nothing of what the panel cache serves (R147). -/
def Sys2Proof.Safety.findings (s : State) (id : Nat) (x : Xfer) (found : List (Nat × PieceCheck)) : List (Nat × PieceCheck) :=
  if x.isRead then findingsIn (x.placed.filter fun p => !(match (s.task id).panelOf x with
    | some c => s.panelHit c p.1 p.2.2
    | none => false)) found else []

/-- The state once these findings are counted and logged, with the bank's corrected errors (R92, R97, R292, R297). -/
def Sys2Proof.Safety.counted (s : State) (k : Nat) (x : Xfer) (fs : List (Nat × PieceCheck)) (fixed : Nat) : State :=
  (fs.foldl State.foundAt (if x.isRead then s.parityEnds fs x.placed else s)).bumpBy (scullReg k 0x1C) 0 16 fixed

/-- Transfer i of scull k is x, the j-th of task id, and it ends here: it does not read a peer, and the host port serves it (R400). -/
def Sys2Proof.Safety.ending (k i id j : Nat) (x : Xfer) (s : State) : Prop :=
  s.power = .on ∧ (s.outstanding k)[i]? = some (id, j) ∧ (s.task id).flying[j]? = some x ∧
    (x.isRead = true → regionOf x.da ≠ some .peer) ∧ ((s.task id).hostXfer x = true → s.hostOpen = true)

/-- SCULL_DMA_COMPLETE (R99, R102, R103, R404): a transfer of the module's own memory that finds no error lands, the next ones start and the run goes on; one that finds an error
that cannot be corrected, or data that is not good, ends its task with INTERNAL; a transfer of a stopped run is only dealt with; a failed host access is
counted and ends the task with INTERNAL. -/
def Sys2Proof.Safety.DmaComplete : Prop :=
  (∀ (s : State) (k i id j n : Nat) (x : Xfer) (fs found : List (Nat × PieceCheck)) (host : List Cell) (res : Ending),
    ending k i id j x s → (s.task id).state = .running ∨ (∃ w, (s.task id).state = .suspended w) → (s.task id).hostXfer x = false →
    fs = findings s id x found →
    (x.isRead = false ∨ (fatal fs = false ∧ (counted s k x fs n).landsBad (s.task id) x = false) →
      exec (.scullDmaComplete k i res host found n) s = .next (((counted s k x fs n).xferDone k id j x).limitStores fs)) ∧
    (x.isRead = true → fatal fs = true ∨ (counted s k x fs n).landsBad (s.task id) x = true →
      exec (.scullDmaComplete k i res host found n) s = .next (((counted s k x fs n).xferBad k id j x).limitStores fs))) ∧
  (∀ (s : State) (k i id j n : Nat) (x : Xfer) (fs found : List (Nat × PieceCheck)) (host : List Cell) (res : Ending) (p : Bool),
    ending k i id j x s → (s.task id).state = .ended p → fs = findings s id x found →
    exec (.scullDmaComplete k i res host found n) s = .next (((counted s k x fs n).xferDropped k id j).limitStores fs)) ∧
  (∀ (s : State) (k id i : Nat) (x : Xfer) (host : List Cell), canonical s → s.power = .on → (s.scull k).task = some id →
    (s.task id).scull = some k → (s.task id).onArray = false → (s.task id).state = .running → (s.task id).flying[i]? = some x →
    x.kind = .load → x.rows = 1 → x.slen = 0 → x.panel = false → x.placed = [(x.da, x.da, x.len)] →
    regionOf x.da = some .dune ∨ regionOf x.da = some .crewStore →
    s.readBad x.da x.len = false → (s.task id).todo = [] → 2 ≤ (s.task id).flying.length →
    ∃ t, exec (.scullDmaComplete k i .ok host [] 0) s = .next t ∧ (t.task id).flying = (s.task id).flying.eraseIdx i ∧
      (t.task id).image = ((List.range x.len).map fun j => (x.da + j, s.byte (x.da + j))) ++ (s.task id).image ∧
      (t.task id).state = .running ∧ (∀ j, j ≠ id → t.task j = s.task j) ∧ (∀ j, j ≠ k → t.scull j = s.scull j) ∧
      changesOnly [.tasks, .sculls, .dunes, .regs, .lossCounts] s t) ∧
  (∀ (s : State) (k id i : Nat) (x : Xfer) (host : List Cell), canonical s → settled s → s.power = .on → (s.scull k).task = some id →
    (s.task id).state = .running → (s.task id).flying[i]? = some x → regionOf x.da = some .host → (s.task id).hostXfer x = true →
    s.hostOpen = true → (s.task id).claims = [] → (s.task id).scull = some k → s.tier.tensors = [] →
    ∃ t, exec (.scullDmaComplete k i .timeout host [] 0) s = .next t ∧ (t.task id).state = .done ∧ (t.task id).status = .internal ∧
      (t.scull k).task = none ∧ t.fld 0x00200020 0 16 = min (s.fld 0x00200020 0 16 + 1) 0xFFFF) ∧
  (∀ (s : State) (k i n : Nat) (res : Ending) (host : List Cell) (found : List (Nat × PieceCheck)),
    s.power ≠ .on ∨ (s.outstanding k)[i]? = none → exec (.scullDmaComplete k i res host found n) s = .next s)

/-- A running task of scull k has computed and has no transfer left: it may commit (R127). -/
def Sys2Proof.Safety.finished (k id : Nat) (s : State) : Prop :=
  s.power = .on ∧ (s.scull k).task = some id ∧ (s.task id).state = .running ∧ (s.task id).computed = true ∧
    (s.task id).todo = [] ∧ (s.task id).flying = []

/-- TASK_COMMIT (R122, R127, R300): once the run has computed and every write is held, the held lines become visible together, the scull is
free and the task is COMMITTED; no other byte changes; a release that meets a stopped stack will end with INTERNAL. If the commit buffer fails some of the held lines are visible and the task ends with INTERNAL. Before,
nothing changes. -/
def Sys2Proof.Safety.TaskCommit : Prop :=
  (∀ (s : State) (k id : Nat), finished k id s → exec (.taskCommit k true) s = .next (s.commitTask k id).pumpAll) ∧
  (∀ (s : State) (k id : Nat), finished k id s → ∃ cells n, (∀ c, c ∈ cells → c ∈ (s.task id).held) ∧
    exec (.taskCommit k false) s = .next ({ s.release id cells with fresh := (s.release id cells).fresh + n }.doneTask id .internal)) ∧
  (∀ (s : State) (k id : Nat), canonical s → settled s → finished k id s → (s.task id).scull = some k →
    (s.task id).pins = [] → (s.task id).claimant = none → (s.task id).recompute = none → s.tier.tensors = [] →
    (∀ c, c ∈ (s.task id).held → c.1 < duneEnd ∧ s.served c.1 = true) →
    ∃ t, exec (.taskCommit k true) s = .next t ∧ (t.task id).state = .committed ∧ (t.task id).held = [] ∧ (t.task id).status = (s.task id).status ∧
      (t.scull k).task = none ∧ (∀ b, b ∈ (t.scull k).bank ↔ b ∈ (s.scull k).bank ∧ b.task ≠ id) ∧
      (∀ a, t.byte a = lastAt (s.task id).held a (s.byte a)) ∧
      (∀ j, j ≠ id → t.task j = s.task j) ∧ (∀ j, j ≠ k → t.scull j = s.scull j) ∧ t.ctrs = s.ctrs ∧ t.rings = s.rings) ∧
  (∀ (s : State) (k id : Nat), canonical s → settled s → finished k id s → (s.task id).scull = some k → (s.task id).pins = [] →
    (s.task id).claimant = none → (s.task id).recompute = none → s.tier.tensors = [] →
    (∃ c, c ∈ (s.task id).held ∧ c.1 < duneEnd ∧ (s.dune (stackOf c.1)).state = .stopped) →
    ∃ t, exec (.taskCommit k true) s = .next t ∧ (t.task id).state = .committed ∧ (t.task id).status = .internal) ∧
  (∀ (s : State) (k id : Nat), canonical s → settled s → finished k id s → (s.task id).scull = some k → (s.task id).claims = [] →
    (s.task id).held = [] → (s.task id).pins = [] →
    ∃ t, exec (.taskCommit k false) s = .next t ∧ (t.task id).state = .done ∧ (t.task id).status = .internal ∧ (t.scull k).task = none) ∧
  (∀ (s : State) (k : Nat) (ok : Bool), (s.scull k).task = none → exec (.taskCommit k ok) s = .next s) ∧
  (∀ (s : State) (k id : Nat) (ok : Bool), (s.scull k).task = some id → (s.task id).state ≠ .running ∨ (s.task id).computed = false ∨
    (s.task id).todo ≠ [] ∨ (s.task id).flying ≠ [] → exec (.taskCommit k ok) s = .next s)

/-- Where ring q writes its next completion record (R411, Table HOST.2). -/
def Sys2Proof.Safety.cqSlot (s : State) (q : Nat) : Nat :=
  hostBase + s.fld (ringReg q 0xC) 12 20 * 4096 + s.fld (ringReg q 0x10) 0 16 * 0x100000000 +
    (s.ring q).cqTail.toNat % 2 ^ s.fld (ringReg q 8) 5 5 * 32

/-- A descriptor of ring q is DONE with a status (R118, R411, Tables TASK.4, HOST.2): it leaves the ring's live list; with cmpl, or any status
but OK, one record of 32 bytes is written and CQ_TAIL advances. -/
structure Sys2Proof.Safety.doneOn (q id : Nat) (st : Status) (s t : State) : Prop where
  task : (t.task id).state = .done ∧ (t.task id).status = st ∧ (t.task id).scull = none
  others : ∀ j, j ≠ id → t.task j = s.task j
  live : (t.ring q).live = (s.ring q).live.filter (· != id) ∧ ∀ j, j ≠ q → t.ring j = s.ring j
  record : (s.task id).cmpl = true ∨ st ≠ .ok → (t.ring q).cqTail = (s.ring q).cqTail + 1 ∧
    leNat 2 (t.load (cqSlot s q) 2) = st.code ∧ leNat 4 (t.load (cqSlot s q + 4) 4) = (s.task id).seq.toNat
  silent : (s.task id).cmpl = false → st = .ok → (t.ring q).cqTail = (s.ring q).cqTail
  mem : (s.task id).pins = [] → (s.task id).frames = [] → ∀ a, a < cqSlot s q ∨ cqSlot s q + 32 ≤ a → t.byte a = s.byte a

/-- The FENCE of a ring may complete (R118): every earlier descriptor of the ring is DONE and its start fence is met. -/
def Sys2Proof.Safety.fenceOpen (q id : Nat) (s : State) : Prop :=
  s.power = .on ∧ (s.ring q).fence = some id ∧ s.firstLive id (s.task id) = true ∧ s.fenceMet (s.task id) = true

/-- The status that a FENCE ends with (R118): that of the earliest failed descriptor since the previous FENCE, or OK. -/
def Sys2Proof.Safety.fenceStatus (q id : Nat) (s : State) : Status := (((s.ring q).fenceFail (s.task id).seq).map (·.2)).getD .ok

/-- A SIGNAL stands at the head of its crew's queue (R119). -/
def Sys2Proof.Safety.signalTurn (id : Nat) (s : State) : Prop :=
  s.power = .on ∧ (s.dev = .running ∨ s.dev = .quiescing) ∧ (s.task id).state = .queued ∧ (s.task id).kind = kSignal ∧
    (s.crew (s.task id).home).queue.head? = some id

/-- TASK_DONE, FENCE_COMPLETE and SIGNAL (R116, R118, R119, R122, R127, R147, R300): a committed task without unacknowledged writes is DONE and, with OK, adds its signal;
a FENCE whose earlier descriptors are done ends with the status of the earliest failure since the last FENCE, and the panel caches of its crew set are empty; a SIGNAL at the head
of its queue adds or sets its counter, then its header's signal. -/
def Sys2Proof.Safety.TaskEnds : Prop :=
  (∀ (s : State) (id : Nat), s.power = .on → (s.task id).state = .committed → (∀ p, p ∈ s.peers → p.task = id → p.write = false) →
    exec (.taskDone id) s = .next (s.doneTask id (s.task id).status)) ∧
  (∀ (s : State) (id q : Nat), canonical s → settled s → s.power = .on → (s.task id).state = .committed →
    (∀ p, p ∈ s.peers → p.task = id → p.write = false) → (s.task id).claims = [] → (s.task id).recompute = none →
    (s.task id).ring = some q → (s.task id).signalCtr < 0xFFFF →
    ∃ t, exec (.taskDone id) s = .next t ∧ doneOn q id (s.task id).status s t ∧
      ((s.task id).status = .ok → t.ctr (s.task id).signalCtr = s.ctr (s.task id).signalCtr + w32 (s.task id).signalAdd) ∧
      ((s.task id).status ≠ .ok → t.ctr (s.task id).signalCtr = s.ctr (s.task id).signalCtr) ∧
      (∀ n, n ≠ (s.task id).signalCtr → t.ctr n = s.ctr n)) ∧
  (∀ (s : State) (id : Nat), s.power ≠ .on ∨ (s.task id).state ≠ .committed ∨ (∃ p, p ∈ s.peers ∧ p.task = id ∧ p.write = true) →
    exec (.taskDone id) s = .next s) ∧
  (∀ (s : State) (q id : Nat), fenceOpen q id s →
    exec (.fenceComplete q) s = .next ((s.emptyPanels (s.task id).part).doneTask id (fenceStatus q id s))) ∧
  (∀ (s : State) (q id : Nat), canonical s → settled s → fenceOpen q id s → (s.task id).claims = [] → (s.task id).recompute = none →
    (s.task id).ring = some q → (s.task id).pins = [] → (s.task id).scull = none →
    ∃ t, exec (.fenceComplete q) s = .next t ∧ doneOn q id (fenceStatus q id s) s t ∧
      (t.ring q).fence = none ∧ (t.ring q).failed = (s.ring q).failed.filter (fun f => !before f.1 (s.task id).seq) ∧
      (∀ c, s.crewServes c = some (s.task id).part → (t.crew c).panel = []) ∧
      (∀ c, s.crewServes c ≠ some (s.task id).part → (t.crew c).panel = (s.crew c).panel)) ∧
  (∀ (s : State) (q : Nat), s.power ≠ .on ∨ (s.ring q).fence = none ∨
    (∃ id, (s.ring q).fence = some id ∧ (s.firstLive id (s.task id) = false ∨ s.fenceMet (s.task id) = false)) →
    exec (.fenceComplete q) s = .next s) ∧
  (∀ (s u : State) (id : Nat), signalTurn id s → s.parkReason (s.task id).home id (s.task id) = none →
    u = (if (s.task id).sgCtr = 0xFFFF then s else s.setCtr (s.task id).sgCtr
      (if (s.task id).sgSet then (s.task id).sgValue else s.ctr (s.task id).sgCtr + (s.task id).sgValue)) →
    exec (.signal id) s = .next (u.doneTask id .ok)) ∧
  (∀ (s : State) (id q : Nat), canonical s → settled s → signalTurn id s → s.parkReason (s.task id).home id (s.task id) = none →
    (s.task id).sgCtr < 0xFFFF → (s.task id).signalCtr = 0xFFFF → (s.task id).claims = [] → (s.task id).recompute = none →
    (s.task id).ring = some q → (s.task id).scull = none →
    ∃ t, exec (.signal id) s = .next t ∧ doneOn q id .ok s t ∧
      t.ctr (s.task id).sgCtr = (if (s.task id).sgSet then (s.task id).sgValue else s.ctr (s.task id).sgCtr + (s.task id).sgValue) ∧
      (∀ n, n ≠ (s.task id).sgCtr → t.ctr n = s.ctr n)) ∧
  (∀ (s : State) (id : Nat) (why : ParkWhy), canonical s → signalTurn id s →
    s.parkReason (s.task id).home id (s.task id) = some why →
    ∃ t, exec (.signal id) s = .next t ∧ parkedFor (s.task id).home id why s t ∧ t.ctrs = s.ctrs) ∧
  (∀ (s : State) (id : Nat), s.power ≠ .on ∨ (s.task id).state ≠ .queued ∨ (s.task id).kind ≠ kSignal → exec (.signal id) s = .next s)

/-- A write by a requester reaches the register at an offset (R7, R400, R436): power is on, the unit is there and its target answers;
a request of the host needs the link and the required IDE streams. -/
def Sys2Proof.Safety.reaches (s : State) (req : Requester) (off : Nat) : Prop :=
  s.power = .on ∧ s.absentAt off = false ∧ s.answers off = true ∧
    ∀ id, req = .host id → s.host.rate ≠ 0 ∧ s.locked 25 = true ∧ s.ideOpen = true

/-- A write was refused (R14, R491): the record names its origin, the register, what it holds and what was tried; nothing else
changes. -/
def Sys2Proof.Safety.refusedWrite (req : Requester) (off : Nat) (st : Status) (held tried : Word) (s t : State) : Prop :=
  recorded t (originOf req).1 (originOf req).2 1 evRegWrite st [w32 off, held, tried] ∧ changesOnly (logged []) s t

/-- A task's descriptor is DONE with a status that is not OK, off its scull. -/
def Sys2Proof.Safety.failedWith (id : Nat) (st : Status) (t : State) : Prop :=
  (t.task id).state = .done ∧ (t.task id).status = st ∧ (t.task id).scull = none

/-- An ATTEND runs and its walker reads its list. -/
def Sys2Proof.Safety.walking (id : Nat) (s : State) : Prop :=
  s.power = .on ∧ (s.task id).state = .running ∧ (s.task id).kind = kAttend ∧ (s.task id).chunksOut = true ∧
    (s.task id).computed = false

/-- The pages of group g that the walker may meet now (R234): not in yet, up to 8 ahead of the page that the Seif is at. -/
def Sys2Proof.Safety.groupPages (s : State) (id g : Nat) : List Nat := (s.pagesAhead (s.task id)).filter (· / 8 == g)

/-- Address of group g of the list that an ATTEND reads. -/
def Sys2Proof.Safety.groupDa (s : State) (id g : Nat) : Nat := (s.listDesc (s.task id).atList).base + 32 * g

/-- WALKER_ENTRY_READ (R218, R234, R235, R236): a page of the group whose entry is resident gets its frame and the transfers of its key
blocks; one that is host-resident is asked of the page mover, once for each page; an entry that no page backs ends the task with
BAD_ARGUMENT, entries that cannot be read with INTERNAL. -/
def Sys2Proof.Safety.WalkerReads : Prop :=
  (∀ (s : State) (id g : Nat), walking id s → groupPages s id g ≠ [] →
    (s.readBad (groupDa s id g) 32 = false → exec (.walkerEntryRead id g) s =
      .next (((groupPages s id g).foldl (fun u pg => u.walkPage id pg) (s.countNarrow (groupDa s id g) 32)).advance id)) ∧
    (s.readBad (groupDa s id g) 32 = true → exec (.walkerEntryRead id g) s =
      .next ((s.countNarrow (groupDa s id g) 32).failRun id .internal))) ∧
  (∀ (s : State) (id g pg pfn : Nat), canonical s → walking id s → s.readBad (groupDa s id g) 32 = false →
    groupPages s id g = [pg] → s.tier.tensors = [] →
    s.residentPfn (s.listEntry (s.listDesc (s.task id).atList) pg) = some pfn → s.pageXfers (s.task id) pg pfn ≠ [] →
    (∀ x, x ∈ s.pageXfers (s.task id) pg pfn → regionOf x.da = some .dune) →
    ∃ t, exec (.walkerEntryRead id g) s = .next t ∧ (t.task id).pages = (s.task id).pages ++ [(pageKey 0 pg, pfn)] ∧
      (t.task id).state = .running ∧ (t.task id).flying.length + (t.task id).todo.length =
        (s.task id).flying.length + (s.task id).todo.length + (s.pageXfers (s.task id) pg pfn).length ∧
      (∀ j, j ≠ id → t.task j = s.task j) ∧ changesOnly [.tasks, .sculls, .regs, .lossCounts] s t) ∧
  (∀ (s : State) (id g pg : Nat), canonical s → walking id s → s.readBad (groupDa s id g) 32 = false →
    groupPages s id g = [pg] →
    (hostSlot (s.listEntry (s.listDesc (s.task id).atList) pg)).isSome = true → (s.listDesc (s.task id).atList).host ≠ 0 →
    ∃ t, exec (.walkerEntryRead id g) s = .next t ∧
      ((∀ x, x ∈ s.kv.swaps → x.list ≠ (s.task id).atList ∨ x.pg ≠ pg) →
        t.kv = { s.kv with swaps := s.kv.swaps ++ [⟨(s.task id).atList, pg, [id], false, true⟩] }) ∧
      (∀ x, s.kv.swaps = [x] → x.list = (s.task id).atList → x.pg = pg → id ∉ x.waiters →
        t.kv = { s.kv with swaps := [{ x with waiters := x.waiters ++ [id] }] }) ∧
      (∀ j, t.task j = s.task j) ∧ changesOnly [.kv, .tasks, .regs, .lossCounts] s t) ∧
  (∀ (s : State) (id g pg : Nat), canonical s → settled s → walking id s →
    s.readBad (groupDa s id g) 32 = false → groupPages s id g = [pg] →
    s.residentPfn (s.listEntry (s.listDesc (s.task id).atList) pg) = none →
    hostSlot (s.listEntry (s.listDesc (s.task id).atList) pg) = none ∨ (s.listDesc (s.task id).atList).host = 0 →
    ∃ t, exec (.walkerEntryRead id g) s = .next t ∧ failedWith id .badArgument t) ∧
  (∀ (s : State) (id g : Nat), canonical s → settled s → walking id s → groupPages s id g ≠ [] → s.readBad (groupDa s id g) 32 = true →
    ∃ t, exec (.walkerEntryRead id g) s = .next t ∧ failedWith id .internal t) ∧
  (∀ (s : State) (id g : Nat), ¬ walking id s ∨ groupPages s id g = [] → exec (.walkerEntryRead id g) s = .next s) ∧
  (∀ (s : State) (id : Nat) (pg : Nat), pg ∈ s.pagesAhead (s.task id) → pg ∈ s.pagesOf (s.task id) ∧ ((s.task id).frameOf 0 pg).isNone = true) ∧
  (∀ (s : State) (t : Task), (s.pagesAhead t).length ≤ 9)

/-- SEIF_PAGE_SUSPEND (R206): an ATTEND that reaches a block whose page the mover still brings gives up its scull and keeps its
context, its lines and its claim; the suspension is counted for the crew's counter at commit. -/
def Sys2Proof.Safety.SeifSuspends : Prop :=
  (∀ (s : State) (id k pg : Nat), canonical s → s.power = .on → (s.task id).scull = some k → (s.task id).state = .running →
    (s.task id).kind = kAttend → (s.task id).chunksOut = true → (s.task id).todo = [] → (s.task id).flying = [] →
    (s.pagesMissing (s.task id)).head? = some pg → (∃ x, x ∈ s.kv.swaps ∧ x.list = (s.task id).atList ∧ x.pg = pg ∧ id ∈ x.waiters) →
    ∃ t, exec (.seifPageSuspend id) s = .next t ∧
      t.task id = { s.task id with
        state := .suspended (.page (s.task id).atList pg), susp := (s.task id).susp + 1,
        busyUs := (s.task id).busyUs + (s.etc - (s.task id).startedAt) } ∧
      t.scull k = { s.scull k with task := none, suspended := (s.scull k).suspended ++ [id] } ∧
      (∀ j, j ≠ id → t.task j = s.task j) ∧ (∀ j, j ≠ k → t.scull j = s.scull j) ∧ changesOnly [.tasks, .sculls] s t) ∧
  (∀ (s : State) (id : Nat), (s.task id).scull = none ∨ (s.task id).state ≠ .running ∨ (s.task id).kind ≠ kAttend ∨
    (s.task id).todo ≠ [] ∨ (s.task id).flying ≠ [] ∨ s.pagesMissing (s.task id) = [] ∨ s.kv.swaps = [] → exec (.seifPageSuspend id) s = .next s)

/-- The oldest swap-in request that may be tried, its host slot, and the frame that its list's ring gives. -/
structure Sys2Proof.Safety.serving (s : State) (x : SwapReq) (d : ListDesc) (n pfn : Nat) : Prop where
  canon : canonical s ∧ Tab.wf 0 s.kv.head = true
  open_ : s.power = .on ∧ s.hostOpen = true
  req : s.kv.swaps.find? (·.due) = some x
  list : d = s.listDesc x.list
  slot : hostSlot (s.listEntry d x.pg) = some n
  ring : s.fld (kvReg d.ring 8) 5 1 = 1 ∧ s.kvCount d.ring ≠ 0
  frame : pfn = s.loadNat (s.kvEntryDa d.ring (s.kvHead d.ring)) 4 ∧ s.isFrame pfn = true

/-- SWAPIN_SERVE_COMPLETE (R220, R239): the frame leaves its ring, page and scales come from the host slot, the entry names the frame, the request
is gone, the swap-in is counted and recorded; an empty ring makes the request wait and is counted; a page that is no longer
host-resident is not brought; a CXL error ends the tasks suspended on the page with INTERNAL. -/
def Sys2Proof.Safety.SwapInServed : Prop :=
  (∀ (s : State) (x : SwapReq) (d : ListDesc) (n pfn : Nat) (host : List Cell), serving s x d n pfn →
    ∃ t, exec (.swapinServeComplete .ok host) s = .next t ∧
      t.kv.swaps = s.kv.swaps.filter (fun y => !(y.list == x.list && y.pg == x.pg)) ∧ t.kvHead d.ring = s.kvHead d.ring + 1 ∧
      t.fld 0x02010048 0 32 = min (s.fld 0x02010048 0 32 + 1) 0xFFFFFFFF ∧
      recorded t 3 (unitId 11 d.ring) 0 evKv .ok [w32 d.id, w32 x.pg, w32 pfn] ∧
      (∀ a, a < hostBase ∨ hostEnd ≤ a → a < frameDa pfn ∨ frameDa pfn + 0x10000 ≤ a → a < s.kvScale pfn ∨ s.kvScale pfn + 0x800 ≤ a →
        a < d.base + 4 * x.pg ∨ d.base + 4 * x.pg + 4 ≤ a → t.byte a = s.byte a) ∧
      changesOnly (logged [.kv, .mem, .poison, .dunes, .regs]) s t) ∧
  (∀ (s : State) (x : SwapReq) (d : ListDesc) (n pfn : Nat) (res : Ending) (host : List Cell), serving s x d n pfn → settled s → res ≠ .ok →
    ∃ t, exec (.swapinServeComplete res host) s = .next t ∧
      (∀ y, y ∈ t.kv.swaps → y.list ≠ x.list ∨ y.pg ≠ x.pg) ∧
      (∀ id, (s.task id).state = .suspended (.page x.list x.pg) → failedWith id .internal t)) ∧
  (∀ (s : State) (x : SwapReq) (d : ListDesc) (n : Nat) (res : Ending) (host : List Cell), canonical s → s.power = .on → s.hostOpen = true →
    s.kv.swaps.find? (·.due) = some x → d = s.listDesc x.list → hostSlot (s.listEntry d x.pg) = some n →
    s.fld (kvReg d.ring 8) 5 1 = 0 ∨ s.kvCount d.ring = 0 →
    ∃ t, exec (.swapinServeComplete res host) s = .next t ∧
      t.kv = { s.kv with swaps := s.kv.swaps.map (fun y => if y.list == x.list && y.pg == x.pg then { y with waiting := true, due := false } else y) } ∧
      t.fld (kvReg d.ring 0x18) 0 16 = min (s.fld (kvReg d.ring 0x18) 0 16 + 1) 0xFFFF ∧
      (x.waiting = false → recorded t 3 (unitId 11 d.ring) 1 evKv .poolExhausted [w32 d.id]) ∧
      changesOnly (logged [.kv, .regs]) s t) ∧
  (∀ (s : State) (x : SwapReq) (res : Ending) (host : List Cell), s.power = .on → s.hostOpen = true → s.kv.swaps.find? (·.due) = some x →
    hostSlot (s.listEntry (s.listDesc x.list) x.pg) = none →
    ∃ t, exec (.swapinServeComplete res host) s = .next t ∧
      t.kv = { s.kv with swaps := s.kv.swaps.filter fun y => !(y.list == x.list && y.pg == x.pg) } ∧ changesOnly [.kv] s t) ∧
  (∀ (s : State) (res : Ending) (host : List Cell), s.kv.swaps.find? (·.due) = none ∨ s.power ≠ .on ∨ s.hostOpen = false →
    exec (.swapinServeComplete res host) s = .next s)

/-- KV_RING_TAIL_WRITE (R221, R239): the tail is what software writes, and the requests that wait for this ring may be tried again; nothing
else changes. -/
def Sys2Proof.Safety.KvRingTail : Prop :=
  ∀ (s : State) (r : Nat) (v : Word) (req : Requester), Tab.wf 0 s.kv.tail = true → reaches s req (kvReg r 0x10) →
    ∃ t, exec (.kvRingTailWrite r v req) s = .next t ∧ t.kvTail r = v ∧ (∀ j, j ≠ r → t.kvTail j = s.kvTail j) ∧
      t.kv.head = s.kv.head ∧ t.kv.claims = s.kv.claims ∧
      t.kv.swaps = s.kv.swaps.map (fun x => if s.ringOfList x.list = r then { x with due := true } else x) ∧ changesOnly [.kv] s t

/-- The scull's transfer x, when it was granted, led to a home page of tensor i, and its deadline has passed (R46, R320). -/
structure Sys2Proof.Safety.late (s : State) (k x id i : Nat) (f : Xfer) : Prop where
  canon : canonical s
  task : s.power = .on ∧ (s.scull k).task = some id ∧ (s.task id).state = .running
  xfer : (s.task id).flying[x]? = some f ∧ f.home = some i ∧ f.issuedAt ≠ noDeadline
  due : (s.reg (0x02030040 + 4 * (s.tensor i).dlClass)).toNat ≠ 0 ∧
    f.issuedAt + (s.reg (0x02030040 + 4 * (s.tensor i).dlClass)).toNat + 1 ≤ s.etc

/-- No shadow serves transfer f of a task: it is no weight fill, the tensor has no shadow, or its weights are not in a long format. -/
def Sys2Proof.Safety.unshadowed (s : State) (id i : Nat) (f : Xfer) : Prop :=
  f.weight = false ∨ (s.tensor i).shBase = 0 ∨ (s.task id).weightRows = none

/-- DEADLINE_EXPIRY (R320, R321, R322): the miss is recorded and the first path that applies is taken and counted: a weight fill is issued again from the tensor's shadow;
the tensor is recomputed into frames and the task suspended; else the fill waits without a deadline. -/
def Sys2Proof.Safety.DeadlinePaths : Prop :=
  (∀ (s : State) (k x id i : Nat) (f : Xfer) (rows : Nat × Nat × Nat), late s k x id i f → f.weight = true →
    (s.tensor i).shBase ≠ 0 → (s.task id).weightRows = some rows →
    ∃ t, exec (.deadlineExpiry k x) s = .next t ∧ (t.task id).state = .running ∧
      (t.task id).shadow = f.ranges.map ((s.tensor i).shadowRange rows) ++ (s.task id).shadow ∧
      t.fld 0x0203007C 0 16 = min (s.fld 0x0203007C 0 16 + 1) 0xFFFF ∧ (∀ j, j ≠ id → t.task j = s.task j)) ∧
  (∀ (s : State) (k x id i : Nat) (f : Xfer), late s k x id i f → settled s → unshadowed s id i f → (s.tensor i).recomp ≠ 0 →
    (s.tensor i).state = .atHome → (s.tensor i).pages ≤ s.freeFrames.length → id ≠ recomputeId i →
    ∃ t, exec (.deadlineExpiry k x) s = .next t ∧ (t.task id).state = .suspended (.recompute i) ∧
      (t.task id).flying = (s.task id).flying.eraseIdx x ∧ (t.task id).todo = { f with issuedAt := noDeadline } :: (s.task id).todo ∧
      (t.scull k).task = none ∧ (t.scull k).suspended = (s.scull k).suspended ++ [id] ∧
      t.fld 0x0203007C 16 16 = min (s.fld 0x0203007C 16 16 + 1) 0xFFFF) ∧
  (∀ (s : State) (k x id i : Nat) (f : Xfer), late s k x id i f → unshadowed s id i f → (s.tensor i).recomp = 0 ∨ (s.tensor i).state ≠ .atHome →
    ∃ t, exec (.deadlineExpiry k x) s = .next t ∧
      t.task id = { s.task id with flying := (s.task id).flying.set x { f with issuedAt := noDeadline } } ∧
      (∀ j, j ≠ id → t.task j = s.task j) ∧ t.fld 0x02030080 0 32 = min (s.fld 0x02030080 0 32 + 1) 0xFFFFFFFF ∧
      recorded t 3 (unitId 10 0) 1 evDeadline .deadlineMiss [w32 i, w32 (s.task id).key] ∧
      (∀ off, off ≠ 0x02030080 → off ≠ 0x264 → off ≠ 0x278 → t.reg off = s.reg off) ∧ changesOnly (logged [.regs, .tasks]) s t) ∧
  (∀ (s : State) (k x : Nat), (s.outstanding k)[x]? = none → exec (.deadlineExpiry k x) s = .next s) ∧
  (∀ (s : State) (k x id j : Nat) (f : Xfer), (s.outstanding k)[x]? = some (id, j) → (s.task id).flying[j]? = some f →
    s.power ≠ .on ∨ (s.task id).state ≠ .running ∨ f.issuedAt = noDeadline ∨ f.home = none → exec (.deadlineExpiry k x) s = .next s)

/-- LOWP_EVAL_START (R275, R276): in READY and RUNNING an evaluation that is not running begins: the events of committed tasks join the open pass, its sums are closed and a new pass
opens empty; otherwise the write is refused with STATE_INVALID or BUSY. -/
def Sys2Proof.Safety.EvaluationStarts : Prop :=
  (∀ (s : State) (req : Requester), canonical s → reaches s req 0x02020020 → s.dev = .ready ∨ s.dev = .running → s.lowp.busy = false →
    ∃ t, exec (.lowpEvalStart req) s = .next t ∧ t.lowp.busy = true ∧ t.lowp.ended = s.countCommitted.lowp.open_ ∧ t.lowp.open_ = [] ∧
      t.lowp.last = s.lowp.last ∧ t.reg 0x02020020 = 1 ∧ t.crews = s.crews ∧
      (∀ id, (s.task id).state = .committed → (s.task id).status = .ok → t.task id = { s.task id with counts := .empty }) ∧
      (∀ id, (s.task id).state ≠ .committed ∨ (s.task id).status ≠ .ok → t.task id = s.task id)) ∧
  (∀ (s : State) (id : Nat) (c : Task), s.tasks = [(id, c)] → c.state = .committed → c.status = .ok →
    s.countCommitted.lowp.open_ = (s.countEvents c).lowp.open_) ∧
  (∀ s : State, (∀ e, e ∈ s.tasks → e.2.state ≠ .committed) → s.countCommitted = s) ∧
  (∀ (s : State) (req : Requester), reaches s req 0x02020020 → s.dev ≠ .ready → s.dev ≠ .running →
    ∃ t, exec (.lowpEvalStart req) s = .next t ∧ refusedWrite req 0x02020020 .stateInvalid (s.reg 0x02020020) 1 s t) ∧
  (∀ (s : State) (req : Requester), reaches s req 0x02020020 → s.dev = .ready ∨ s.dev = .running → s.lowp.busy = true →
    ∃ t, exec (.lowpEvalStart req) s = .next t ∧ refusedWrite req 0x02020020 .busy (s.reg 0x02020020) 1 s t)

/-- LOWP_EVAL_COMPLETE (R275, R276, Table LOWP.3): the numbers of tags granted, denied and lowered are shown and recorded, the evaluations are counted,
LOWP_EVAL.start reads 0, the closed sums can be read, and a denied tag sets FALLBACK_DENIED. -/
def Sys2Proof.Safety.EvaluationEnds : Prop :=
  (∀ (s : State) (g d l : Nat), canonical s → s.power = .on → s.lowp.busy = true →
    g = (s.lowp.tags.filter fun e => e.2.granted).length → d = (s.lowp.tags.filter fun e => e.2.denied).length →
    l = (s.lowp.tags.filter fun e => e.2.lowered).length →
    ∃ t, exec .lowpEvalComplete s = .next t ∧ t.lowp = { s.lowp with busy := false, last := s.lowp.ended, ended := [] } ∧
      t.reg 0x02020028 = w32 (g + d * 0x2000) ∧ t.fld 0x0202002C 0 13 = l % 0x2000 ∧
      t.fld 0x0202002C 16 16 = min (s.fld 0x0202002C 16 16 + 1) 0xFFFF ∧ t.reg 0x02020020 = 0 ∧
      t.reg 0x30C = (if d = 0 then s.reg 0x30C else s.reg 0x30C ||| 2) ∧
      recorded t 3 (unitId 12 0) 0 evLowpEval .ok [w32 g, w32 d, w32 l] ∧
      (∀ off, off ∉ [0x02020020, 0x02020028, 0x0202002C, 0x30C, 0x264, 0x278] → t.reg off = s.reg off) ∧
      (settled s → t.crews = s.crews ∧ t.tasks = s.tasks) ∧ changesOnly (logged [.regs, .lowp, .crews, .tasks]) s t) ∧
  (∀ (s : State), s.power ≠ .on ∨ s.lowp.busy = false → exec .lowpEvalComplete s = .next s)

/-- BE_OVERRUN (R389): a BE task that runs longer than be_limit microseconds, suspended time apart, is counted for its partition
and recorded, once for each run; it goes on. -/
def Sys2Proof.Safety.BeOverrun : Prop :=
  (∀ (s : State) (k id : Nat), canonical s → s.power = .on → (s.scull k).task = some id → (s.task id).state = .running →
    (s.task id).lc = false → (s.task id).overrun = false → s.fld 0x02070090 16 16 ≠ 0 →
    s.fld 0x02070090 16 16 < (s.task id).busyUs + (s.etc - (s.task id).startedAt) →
    ∃ t, exec (.beOverrun k) s = .next t ∧ t.task id = { s.task id with overrun := true } ∧ (∀ j, j ≠ id → t.task j = s.task j) ∧
      t.fld (0x02070008 + 16 * (s.task id).part) 16 16 = min (s.fld (0x02070008 + 16 * (s.task id).part) 16 16 + 1) 0xFFFF ∧
      recorded t 3 (unitId 0 k) 1 evOverrun .ok [w32 (s.task id).key, w32 (s.task id).part, w32 (k / 16)] ∧
      (∀ off, off ≠ 0x02070008 + 16 * (s.task id).part → off ≠ 0x264 → off ≠ 0x278 → t.reg off = s.reg off) ∧
      changesOnly (logged [.regs, .tasks]) s t) ∧
  (∀ (s : State) (k id : Nat), (s.scull k).task = some id → s.power ≠ .on ∨ (s.task id).state ≠ .running ∨ (s.task id).lc = true ∨
    (s.task id).overrun = true ∨ s.fld 0x02070090 16 16 = 0 ∨
    (s.task id).busyUs + (s.etc - (s.task id).startedAt) ≤ s.fld 0x02070090 16 16 → exec (.beOverrun k) s = .next s)

/-- The requester, the register and the word of a command that is a write of one register. -/
def Sys2Proof.Safety.busRow : Instr → Option (Requester × Nat × Word)
  | .doorbellWrite q v req => some (req, doorbellOff q, v)
  | .ringEnable q v req => some (req, ringReg q 8, setBits v 10 1 1)
  | .ringDisable q v req => some (req, ringReg q 8, setBits v 10 1 0)
  | .cqHeadWrite q v req => some (req, ringReg q 0x20, v)
  | .kvRingTailWrite r v req => some (req, kvReg r 0x10, v)
  | .lowpEvalStart req => some (req, 0x02020020, 1)
  | .wcbFlush n req _ => some (req, duneReg n 0x5C, 1)
  | .tierRegister i req => some (req, 0x02030060, w32 (1 + i * 16))
  | .tierUnregister i req => some (req, 0x02030060, w32 (2 + i * 16))
  | .tierLoad i req _ => some (req, 0x02030060, w32 (3 + i * 16))
  | .tierFlush req => some (req, 0x02030060, 4)
  | .tierPromote i req => some (req, 0x02030060, w32 (5 + i * 16))
  | .tierEvict i req => some (req, 0x02030060, w32 (6 + i * 16))
  | .wakeRingTailWrite w r v req => some (req, wakeRingReg w r 0x30, v)
  | .portEnable p v req => some (req, portReg p 0, setBits v 0 1 1)
  | .portDisable p v req => some (req, portReg p 0, setBits v 0 1 0)
  | .readmit p v req => some (req, portReg p 0, setBits v 2 1 1)
  | .reclaim p req => some (req, 0x02070094, w32 (1 + p * 4))
  | .schedReturn p req => some (req, 0x02070094, w32 (2 + p * 4))
  | .globalGReset v req => some (req, twinOff 0, v)
  | .globalGPwrCap v req => some (req, twinOff 1, v)
  | .globalGVlimit v req => some (req, twinOff 2, v)
  | .globalGRemapRow v req => some (req, twinOff 3, v)
  | .globalGRemapCh v req => some (req, twinOff 4, v)
  | .globalGPortDis v req => some (req, twinOff 5, v)
  | .globalGFuse v req => some (req, twinOff 7, v)
  | .globalApply m req => some (req, 0x100, m)
  | .globalSnap m req => some (req, 0x104, m)
  | _ => none

/-- A write that does not reach its register (R7, R400, R404, R436): without power or link, and to an absent unit, nothing happens; a
write of the host without its required IDE streams is counted; a target that does not answer is counted and logged with
INTERNAL and the offset. -/
def Sys2Proof.Safety.WritesThatDoNotReach : Prop :=
  ∀ (s : State) (c : Instr) (req : Requester) (off : Nat) (v : Word), canonical s → busRow c = some (req, off, v) →
    (s.power ≠ .on → exec c s = .next s) ∧
    (∀ id, req = .host id → s.host.rate = 0 ∨ s.locked 25 = false → exec c s = .next s) ∧
    (∀ id, req = .host id → s.power = .on → s.host.rate ≠ 0 → s.locked 25 = true → s.ideOpen = false →
      ∃ t, exec c s = .next t ∧ t.fld 0x00200004 16 16 = min (s.fld 0x00200004 16 16 + 1) 0xFFFF ∧
        (∀ r, r ≠ 0x00200004 → t.reg r = s.reg r) ∧ changesOnly [.regs] s t) ∧
    (s.power = .on → (∀ id, req = .host id → s.host.rate ≠ 0 ∧ s.locked 25 = true ∧ s.ideOpen = true) →
      (s.absentAt off = true → exec c s = .next s) ∧
      (s.absentAt off = false → s.answers off = false → ∃ t, exec c s = .next t ∧
        t.fld 0x118 0 16 = min (s.fld 0x118 0 16 + 1) 0xFFFF ∧
        recorded t (originOf req).1 (originOf req).2 1 evRegWrite .internal [w32 off, 0, v] ∧
        (∀ r, r ≠ 0x118 → r ≠ 0x264 → r ≠ 0x278 → t.reg r = s.reg r) ∧ changesOnly (logged [.regs]) s t))

/-- DOORBELL_WRITE (R406, R408) and CQ_HEAD_WRITE (R410, R414): the ring's TAIL, or its CQ_HEAD, is what software writes and nothing
else changes; a TAIL more than the ring's slots ahead of HEAD, or a CQ_HEAD that would pass CQ_TAIL, is refused with
BAD_ARGUMENT, a doorbell outside READY and RUNNING with STATE_INVALID. -/
def Sys2Proof.Safety.RingPointers : Prop :=
  (∀ (s : State) (q : Nat) (v : Word) (req : Requester), canonical s → reaches s req (doorbellOff q) → s.dev = .ready ∨ s.dev = .running →
    (v - (s.ring q).head).toNat ≤ s.ringSlots q →
    ∃ t, exec (.doorbellWrite q v req) s = .next t ∧ t.ring q = { s.ring q with tail := v } ∧
      (∀ j, j ≠ q → t.ring j = s.ring j) ∧ changesOnly [.rings] s t) ∧
  (∀ (s : State) (q : Nat) (v : Word) (req : Requester), reaches s req (doorbellOff q) → s.dev ≠ .ready → s.dev ≠ .running →
    ∃ t, exec (.doorbellWrite q v req) s = .next t ∧ refusedWrite req (doorbellOff q) .stateInvalid (s.ring q).tail v s t) ∧
  (∀ (s : State) (q : Nat) (v : Word) (req : Requester), reaches s req (doorbellOff q) → s.dev = .ready ∨ s.dev = .running →
    s.ringSlots q < (v - (s.ring q).head).toNat →
    ∃ t, exec (.doorbellWrite q v req) s = .next t ∧ refusedWrite req (doorbellOff q) .badArgument (s.ring q).tail v s t) ∧
  (∀ (s : State) (q : Nat) (v : Word) (req : Requester), canonical s → reaches s req (ringReg q 0x20) →
    (v - (s.ring q).cqHead).toNat ≤ ((s.ring q).cqTail - (s.ring q).cqHead).toNat →
    ∃ t, exec (.cqHeadWrite q v req) s = .next t ∧ t.ring q = { s.ring q with cqHead := v } ∧
      (∀ j, j ≠ q → t.ring j = s.ring j) ∧ changesOnly [.rings] s t) ∧
  (∀ (s : State) (q : Nat) (v : Word) (req : Requester), reaches s req (ringReg q 0x20) →
    ((s.ring q).cqTail - (s.ring q).cqHead).toNat < (v - (s.ring q).cqHead).toNat →
    ∃ t, exec (.cqHeadWrite q v req) s = .next t ∧ refusedWrite req (ringReg q 0x20) .badArgument (s.ring q).cqHead v s t)

/-- A vector is raised (R413): sent at once, or pending while it is masked or the port may not send; a pending one is not raised
again. -/
structure Sys2Proof.Safety.raised (v : Nat) (s t : State) : Prop where
  again : Tab.get false s.host.vecPend v = true → t.tx = s.tx ∧ t.host.vecPend = s.host.vecPend
  held : Tab.get false s.host.vecPend v = false → Tab.get true s.host.vecMask v = true ∨ s.hostOpen = false →
    t.tx = s.tx ∧ Tab.get false t.host.vecPend v = true ∧ ∀ j, j ≠ v → Tab.get false t.host.vecPend j = Tab.get false s.host.vecPend j
  sent : Tab.get false s.host.vecPend v = false → Tab.get true s.host.vecMask v = false → s.hostOpen = true →
    t.tx = .msix v :: s.tx ∧ t.host.vecPend = s.host.vecPend

/-- RING_ENABLE, RING_DISABLE (R414, Table HOST.3) and RING_IRQ_HOLD_EXPIRY (R412): en = 1 makes a DISABLED ring ACTIVE; en = 0 makes an ACTIVE or HALTED one DRAINING,
and DISABLED at once when nothing of it is left; a size that changes while the ring is not DISABLED, or en = 1 on a HALTED or
DRAINING ring, is refused with BUSY; the raise that fell into a hold is made once, at its end. -/
def Sys2Proof.Safety.RingStates : Prop :=
  (∀ (s : State) (q : Nat) (v : Word) (req : Requester), canonical s → q < 512 → reaches s req (ringReg q 8) →
    4 ≤ bits v 0 5 → bits v 0 5 ≤ 16 → 4 ≤ bits v 5 5 → bits v 5 5 ≤ 16 → (s.ring q).state = .disabled →
    ∃ t, exec (.ringEnable q v req) s = .next t ∧ t.ring q = { s.ring q with state := .active } ∧
      t.reg (ringReg q 8) = w32 ((setBits v 10 1 1).toNat % 0x100000) ∧ (∀ j, j ≠ q → t.ring j = s.ring j) ∧
      (∀ r, r ≠ ringReg q 8 → r ≠ 0x264 → r ≠ 0x278 → t.reg r = s.reg r) ∧ changesOnly (logged [.regs, .rings]) s t) ∧
  (∀ (s : State) (q : Nat) (v : Word) (req : Requester), canonical s → q < 512 → reaches s req (ringReg q 8) →
    4 ≤ bits v 0 5 → bits v 0 5 ≤ 16 → 4 ≤ bits v 5 5 → bits v 5 5 ≤ 16 → (s.ring q).state = .halted ∨ (s.ring q).state = .draining →
    ∃ t, exec (.ringEnable q v req) s = .next t ∧
      refusedWrite req (ringReg q 8) .busy (s.reg (ringReg q 8)) (setBits v 10 1 1) s t) ∧
  (∀ (s : State) (q : Nat) (v : Word) (req : Requester), canonical s → q < 512 → reaches s req (ringReg q 8) →
    bits v 0 10 = s.fld (ringReg q 8) 0 10 → 4 ≤ bits v 0 5 → bits v 0 5 ≤ 16 → 4 ≤ bits v 5 5 → bits v 5 5 ≤ 16 →
    (s.ring q).state = .active ∨ (s.ring q).state = .halted →
    ∃ t, exec (.ringDisable q v req) s = .next t ∧
      t.ring q = { s.ring q with
        state := if (s.ring q).live = [] ∧ (s.ring q).reads = [] then .disabled else .draining } ∧
      t.fld (ringReg q 8) 10 1 = 0 ∧ (∀ j, j ≠ q → t.ring j = s.ring j) ∧ changesOnly (logged [.regs, .rings]) s t) ∧
  (∀ (s : State) (q : Nat) (v : Word) (req : Requester), canonical s → q < 512 → reaches s req (ringReg q 8) →
    bits v 0 5 < 4 ∨ 16 < bits v 0 5 ∨ bits v 5 5 < 4 ∨ 16 < bits v 5 5 →
    ∃ t, exec (.ringEnable q v req) s = .next t ∧ t.fld 0x118 16 16 = min (s.fld 0x118 16 16 + 1) 0xFFFF ∧
      recorded t (originOf req).1 (originOf req).2 1 evRegWrite .badArgument [w32 (ringReg q 8), s.reg (ringReg q 8), setBits v 10 1 1] ∧
      (∀ r, r ≠ 0x118 → r ≠ 0x264 → r ≠ 0x278 → t.reg r = s.reg r) ∧ changesOnly (logged [.regs]) s t) ∧
  (∀ (s : State) (q : Nat), canonical s → s.power = .on → (s.ring q).deferred = true →
    (∀ a, (s.ring q).lastIrq = some a → a + s.fld (ringReg q 0x28) 0 16 ≤ s.etc) →
    ∃ t, exec (.ringIrqHoldExpiry q) s = .next t ∧ t.ring q = { s.ring q with deferred := false, lastIrq := some s.etc } ∧
      (∀ j, j ≠ q → t.ring j = s.ring j) ∧ raised (s.fld (ringReg q 8) 11 8) s t ∧ changesOnly [.rings, .sent, .vecPend] s t) ∧
  (∀ (s : State) (q : Nat), s.power ≠ .on ∨ (s.ring q).deferred = false ∨
    (∃ a, (s.ring q).lastIrq = some a ∧ s.etc < a + s.fld (ringReg q 0x28) 0 16) → exec (.ringIrqHoldExpiry q) s = .next s)

/-- How many descriptors one visit to ring q reads (R408, R410): at most 8, not past TAIL, the ring's end or the records it may reserve. -/
def Sys2Proof.Safety.visitCount (s : State) (q : Nat) : Nat :=
  min 8 (min ((s.ring q).tail - (s.ring q).head).toNat
    (min (s.ringSlots q - (s.ring q).head.toNat % s.ringSlots q) (s.ringRoom q)))

/-- RING_FETCH_VISIT (R408, R409, R410): in RUNNING the ring whose turn it is has one read issued: HEAD passes what is read, and as many
completion records are reserved; a ring that has no turn, and any ring outside RUNNING, is left alone. -/
def Sys2Proof.Safety.RingVisit : Prop :=
  (∀ (s : State) (q : Nat), canonical s → s.power = .on → s.dev = .running → s.hostOpen = true → s.nextRing = some q → s.readsOut < 32 →
    ∃ t, exec (.ringFetchVisit q) s = .next t ∧ 0 < visitCount s q ∧
      t.ring q = { s.ring q with
        head := (s.ring q).head + w32 (visitCount s q), reserved := (s.ring q).reserved + visitCount s q,
        reads := (s.ring q).reads ++ [((s.ring q).head, visitCount s q)] } ∧
      (∀ j, j ≠ q → t.ring j = s.ring j) ∧ (t.lastRing = 0 ∨ t.lastRing = s.roundKey q + 1) ∧ changesOnly [.rings, .lastRing] s t) ∧
  (∀ (s : State) (q : Nat), s.power ≠ .on ∨ s.dev ≠ .running ∨ s.hostOpen = false ∨ 32 ≤ s.readsOut ∨ s.nextRing ≠ some q →
    exec (.ringFetchVisit q) s = .next s)

/-- Ring q has the n descriptors of its oldest read, from `first` on, as they stand fetched: in the state their validation starts from. -/
def Sys2Proof.Safety.fetchedFrom (s : State) (q : Nat) (first : Word) (n : Nat) (rest : List (Word × Nat)) (bad : List Nat) (host : List Cell) : State :=
  let u := s.seeHost host
  let ts := (List.range n).map fun i => (taskId q (first + w32 i), u.fetched q (first + w32 i) (bad.contains i))
  let u := ts.foldl (fun u t => u.setTask t.1 t.2) u
  u.setRing q { u.ring q with
    reads := rest, live := (u.ring q).live ++ ts.map (·.1), waiting := (u.ring q).waiting ++ ts.map (·.1) }

/-- DESCRIPTOR_READ_COMPLETE (R111, R112, R118, R120, R404, R411, R414): a descriptor behind a FENCE stays FETCHED; one that passes its checks, a FENCE too, enters its crew's
queue, one that fails is DONE with the first failed check's status and its record; a read that fails is counted, halts an
ACTIVE ring with an INTERNAL record for its first descriptor, and is recorded. -/
def Sys2Proof.Safety.DescriptorReads : Prop :=
  (∀ (s : State) (q n : Nat) (first : Word) (rest : List (Word × Nat)) (bad : List Nat) (host : List Cell), s.power = .on →
    s.hostOpen = true → (s.ring q).reads = (first, n) :: rest →
    exec (.descriptorReadComplete q .ok bad host) s = .next ((fetchedFrom s q first n rest bad host).pump q (n + 1))) ∧
  (∀ (s : State) (q : Nat) (seq : Word) (rest : List (Word × Nat)) (bad : List Nat) (host : List Cell), canonical s → s.power = .on →
    s.hostOpen = true → (s.ring q).reads = (seq, 1) :: rest → (s.ring q).fence.isSome = true →
    ∃ t, exec (.descriptorReadComplete q .ok bad host) s = .next t ∧
      (t.task (taskId q seq)).state = .fetched ∧ (t.task (taskId q seq)).seq = seq ∧ (t.task (taskId q seq)).ring = some q ∧
      (t.task (taskId q seq)).words = (List.range 16).map (fun i => w32 ((s.seeHost host).loadNat (s.descDa q seq + 4 * i) 4)) ∧
      t.ring q = { s.ring q with
        reads := rest, live := (s.ring q).live ++ [taskId q seq], waiting := (s.ring q).waiting ++ [taskId q seq] } ∧
      (∀ j, j ≠ taskId q seq → t.task j = s.task j) ∧ (∀ j, j ≠ q → t.ring j = s.ring j) ∧
      (∀ a, a < hostBase ∨ hostEnd ≤ a → t.byte a = s.byte a) ∧ changesOnly [.rings, .tasks, .mem] s t) ∧
  (∀ (s : State) (q c : Nat) (seq : Word) (rest : List (Word × Nat)) (bad : List Nat) (host : List Cell) (u v : State) (x : Task),
    canonical s → s.power = .on → s.hostOpen = true → (s.ring q).reads = (seq, 1) :: rest → (s.ring q).fence = none →
    (s.ring q).waiting = [] → u = fetchedFrom s q seq 1 rest bad host → u.validate (u.task (taskId q seq)) = (.ok, x) →
    v = (u.countBlocks x).setTask (taskId q seq) x → v.deliverTo x = some c → v.queued c < 256 →
    ∃ t, exec (.descriptorReadComplete q .ok bad host) s = .next t ∧
      t.task (taskId q seq) = { x with home := c, state := .queued } ∧ (t.crew c).queue = (s.crew c).queue ++ [taskId q seq] ∧
      (t.ring q).waiting = [] ∧ (t.ring q).live = (s.ring q).live ++ [taskId q seq] ∧
      (t.ring q).fence = (if x.kind = kFence then some (taskId q seq) else none) ∧ (∀ j, j ≠ taskId q seq → t.task j = s.task j) ∧
      (∀ j, j ≠ c → t.crew j = s.crew j) ∧
      changesOnly (logged [.fresh, .regs, .mem, .poison, .rings, .tasks, .crews, .dunes, .tier]) s t) ∧
  (∀ (s : State) (q : Nat) (seq : Word) (rest : List (Word × Nat)) (bad : List Nat) (host : List Cell) (u : State) (x : Task) (st : Status),
    canonical s → settled s → s.power = .on → s.hostOpen = true → (s.ring q).reads = (seq, 1) :: rest → (s.ring q).fence = none →
    u = fetchedFrom s q seq 1 rest bad host → u.validate (u.task (taskId q seq)) = (st, x) → st ≠ .ok →
    ∃ t, exec (.descriptorReadComplete q .ok bad host) s = .next t ∧ failedWith (taskId q seq) st t ∧
      (t.ring q).cqTail = (s.ring q).cqTail + 1 ∧ leNat 2 (t.load (cqSlot u q) 2) = st.code ∧
      leNat 4 (t.load (cqSlot u q + 4) 4) = seq.toNat ∧ taskId q seq ∉ (t.ring q).live ∧
      (∀ j, j ≠ taskId q seq → t.task j = s.task j) ∧ t.ctrs = s.ctrs) ∧
  (∀ (s : State) (q n : Nat) (seq : Word) (rest : List (Word × Nat)) (bad : List Nat) (host : List Cell), canonical s → s.power = .on →
    (s.ring q).reads = (seq, n) :: rest → (s.ring q).state = .active →
    ∃ t, exec (.descriptorReadComplete q .timeout bad host) s = .next t ∧ (t.ring q).state = .halted ∧ (t.ring q).reads = [] ∧ (t.ring q).failed = (s.ring q).failed ++ [(seq, .internal)] ∧
      (t.ring q).cqTail = (s.ring q).cqTail + 1 ∧ leNat 2 (t.load (cqSlot s q) 2) = 0xFF ∧
      leNat 4 (t.load (cqSlot s q + 4) 4) = seq.toNat ∧ (∀ a, a < cqSlot s q ∨ cqSlot s q + 32 ≤ a → t.byte a = s.byte a) ∧
      recorded t 3 (unitId 15 q) 2 evRing .internal [w32 q, seq, 2] ∧
      t.fld 0x00200020 0 16 = min (s.fld 0x00200020 0 16 + 1) 0xFFFF ∧ (∀ j, j ≠ q → t.ring j = s.ring j) ∧
      changesOnly (logged [.regs, .rings, .mem]) s t) ∧
  (∀ (s : State) (q : Nat) (res : Ending) (bad : List Nat) (host : List Cell), (s.ring q).reads = [] ∨ s.power ≠ .on ∨
    (res = .ok ∧ s.hostOpen = false) → exec (.descriptorReadComplete q res bad host) s = .next s)

/-- What writing an entry of the combining buffer to the channels leaves of the poison marks (R288, R290, R292), when its reads find the pieces `ue`
uncorrectable: a piece written whole is good; one written in part is poisoned whole if it was poisoned or is found so, and keeps its marks if not; other words are as before. -/
structure Sys2Proof.Safety.written (e : WcbEntry) (ue : List Nat) (s t : State) : Prop where
  mem : t.mem = s.mem
  whole : ∀ p, p ∈ piecesOf e.bytes → wholePiece e.bytes p = true → ∀ w, w / 4 = p → w ∉ t.poison
  part : ∀ p, p ∈ piecesOf e.bytes → wholePiece e.bytes p = false → s.poisoned (p * 32) 32 = true ∨ p ∈ ue → ∀ w, w / 4 = p → w ∈ t.poison
  good : ∀ p, p ∈ piecesOf e.bytes → wholePiece e.bytes p = false → s.poisoned (p * 32) 32 = false → p ∉ ue → ∀ w, w / 4 = p → w ∉ t.poison
  rest : ∀ w, w / 4 ∉ piecesOf e.bytes → (w ∈ t.poison ↔ w ∈ s.poison)

/-- The pieces that the reads for an entry find uncorrectable: those that it masks in part and that are served. -/
def Sys2Proof.Safety.foundBad (s : State) (e : WcbEntry) (found : List (Nat × PieceCheck)) : List Nat :=
  (found.filter fun f => e.parts.contains (f.1 / 32) && s.served f.1 && f.2 == .uncorrectable).map fun f => f.1 / 32

/-- WCB_ENTRY_TIMEOUT and WCB_FLUSH (R46, R287, R288, R289, R290): an entry 8 µs old, or the oldest of 448, or by software every entry of the stack, is written to the
channels and leaves the buffer, whatever its reads find; the value that each address reads as does not change. -/
def Sys2Proof.Safety.WriteCombining : Prop :=
  (∀ (s : State) (n line : Nat) (e : WcbEntry) (found : List (Nat × PieceCheck)), canonical s →
    (s.dune n).wcb.find? (fun x => x.line == line && (s.dune n).entryDue s.etc x) = some e →
    ∃ t, exec (.wcbEntryTimeout n line found) s = .next t ∧ t.mem = s.mem ∧
      (t.dune n).wcb = (s.dune n).wcb.filter (fun x => x.line != line) ∧
      ((∀ b, b ∈ e.bytes → stackOf b.1 = n) → ∀ j, j ≠ n → t.dune j = s.dune j) ∧
      changesOnly (logged [.dunes, .poison, .regs, .nv]) s t) ∧
  (∀ (s : State) (n line : Nat) (e : WcbEntry) (found : List (Nat × PieceCheck)), canonical s →
    (s.dune n).wcb.find? (fun x => x.line == line && (s.dune n).entryDue s.etc x) = some e →
    (∀ b, b ∈ e.bytes → stackOf b.1 = n) → (∀ x, x ∈ found → x.2 = .uncorrectable) →
    ∃ t, exec (.wcbEntryTimeout n line found) s = .next t ∧ written e (foundBad s e found) s t ∧
      ((∀ p, p ∈ piecesOf e.bytes → s.poisoned (p * 32) 32 = false) → foundBad s e found = [] → changesOnly [.dunes, .poison] s t) ∧
      changesOnly (logged [.dunes, .poison, .regs]) s t) ∧
  (∀ (s : State) (n line : Nat) (found : List (Nat × PieceCheck)),
    (∀ e, e ∈ (s.dune n).wcb → e.line ≠ line ∨ (s.dune n).entryDue s.etc e = false) → exec (.wcbEntryTimeout n line found) s = .next s) ∧
  (∀ (k : Stack) (now : Nat) (e : WcbEntry), k.entryDue now e = true ↔ e.at_ + 9 ≤ now ∨ (448 ≤ k.wcb.length ∧ k.wcb.head? = some e)) ∧
  (∀ (s : State) (n : Nat) (req : Requester) (found : List (Nat × PieceCheck)), canonical s → reaches s req (duneReg n 0x5C) →
    ∃ t, exec (.wcbFlush n req found) s = .next t ∧ (t.dune n).wcb = [] ∧ t.mem = s.mem ∧
      ((∀ e, e ∈ (s.dune n).wcb → ∀ b, b ∈ e.bytes → stackOf b.1 = n) → ∀ j, j ≠ n → t.dune j = s.dune j) ∧
      changesOnly (logged [.dunes, .poison, .regs, .nv]) s t)

/-- A stack whose band evaluation counts: the background runs and the stack is ONLINE or stopped. -/
def Sys2Proof.Safety.banded (n : Nat) (s : State) : Prop :=
  canonical s ∧ s.background = true ∧ n < 48 ∧ ((s.dune n).state = .online ∨ (s.dune n).state = .stopped)

/-- BAND_EVALUATION (R299, R300): the band follows the hottest die, rising at each threshold and falling 3 °C below it; a change is recorded with
both bands and the temperature; band 5 stops the stack with its buffer written out and counts the stop, band 3 or below resumes
it; STACK_POWER_REMOVE (R300): after more than 100 ms at band 5 the stack is FAILED and its contents are lost. -/
def Sys2Proof.Safety.StackTemperature : Prop :=
  (∀ (s : State) (n temp : Nat), banded n s → nextBand (s.dune n).band temp = (s.dune n).band →
    ∃ t, exec (.bandEvaluation n temp) s = .next t ∧
      t.dune n = { s.dune n with bandMax := max (s.dune n).bandMax (s.dune n).band, temp := temp } ∧
      (∀ j, j ≠ n → t.dune j = s.dune j) ∧ changesOnly [.dunes] s t) ∧
  (∀ (s : State) (n temp b : Nat), banded n s → nextBand (s.dune n).band temp = b → b ≠ (s.dune n).band → b ≠ 5 →
    ∃ t, exec (.bandEvaluation n temp) s = .next t ∧
      t.dune n = { s.dune n with
        band := b, bandMax := max (s.dune n).bandMax b, temp := temp, band5At := none,
        state := if b ≤ 3 then .online else (s.dune n).state } ∧
      recorded t 3 (unitId 4 n) 1 evBand .ok [w32 (s.dune n).band, w32 b, w32 temp] ∧
      (∀ j, j ≠ n → t.dune j = s.dune j) ∧ changesOnly (logged [.dunes]) s t) ∧
  (∀ (s : State) (n temp : Nat), banded n s → (s.dune n).band < 5 → 100 ≤ temp →
    ∃ t, exec (.bandEvaluation n temp) s = .next t ∧ (t.dune n).state = .stopped ∧ (t.dune n).band = 5 ∧ (t.dune n).band5At = some s.etc ∧
      (t.dune n).temp = temp ∧ (t.dune n).wcb = [] ∧ t.mem = s.mem ∧ changesOnly (logged [.dunes, .poison, .regs]) s t) ∧
  (∀ (s : State) (n temp : Nat), banded n s → (s.dune n).band < 5 → 100 ≤ temp → (s.dune n).wcb = [] →
    ∃ t, exec (.bandEvaluation n temp) s = .next t ∧
      t.dune n = { s.dune n with
        band := 5, bandMax := max (s.dune n).bandMax 5, temp := temp, band5At := some s.etc, state := .stopped } ∧
      recorded t 3 (unitId 4 n) 2 evBand .ok [w32 (s.dune n).band, w32 5, w32 temp] ∧
      t.fld (duneReg n 0x4) 16 16 = min (s.fld (duneReg n 0x4) 16 16 + 1) 0xFFFF ∧
      (∀ j, j ≠ n → t.dune j = s.dune j) ∧ changesOnly (logged [.dunes, .regs]) s t) ∧
  (∀ (s : State) (n temp : Nat), s.background = false ∨ 48 ≤ n ∨ (s.dune n).state = .failed ∨ (s.dune n).state = .offline →
    exec (.bandEvaluation n temp) s = .next s) ∧
  (∀ (b t : Nat), b ≤ 5 → (∀ u, u ≤ 5 → bandLow u ≤ t → u ≤ nextBand b t) ∧
    (t < bandLow (b + 1) ∨ b = 5 → bandLow b < t + 3 → nextBand b t = b) ∧ (0 < b → t + 3 ≤ bandLow b → nextBand b t < b)) ∧
  (∀ (s : State) (n a : Nat), canonical s → s.power = .on → n < 48 → (s.dune n).state = .stopped → (s.dune n).band = 5 →
    (s.dune n).band5At = some a → a + 100000 < s.etc →
    ∃ t, exec (.stackPowerRemove n) s = .next t ∧ (t.dune n).state = .failed ∧ (t.dune n).wcb = [] ∧
      (∀ x, stackOf x = n → t.byte x = 0) ∧ (∀ x, stackOf x ≠ n → t.byte x = s.byte x) ∧ (∀ j, j ≠ n → t.dune j = s.dune j) ∧
      recorded t 3 (unitId 4 n) 2 evBand .internal [5, 5, w32 (s.dune n).temp] ∧ changesOnly (logged [.dunes, .mem, .poison]) s t) ∧
  (∀ (s : State) (n : Nat), s.power ≠ .on ∨ (s.dune n).state ≠ .stopped ∨ (s.dune n).band ≠ 5 ∨ (s.dune n).band5At = none ∨
    (∃ a, (s.dune n).band5At = some a ∧ s.etc ≤ a + 100000) → exec (.stackPowerRemove n) s = .next s)

/-- An ONLINE stack whose next patrol line is good so far, with all its channels. -/
def Sys2Proof.Safety.patrolled (n : Nat) (s : State) : Prop :=
  canonical s ∧ s.background = true ∧ n < 48 ∧ (s.dune n).state = .online ∧ (s.dune n).chFailed = [] ∧ s.colls.running = [] ∧
    (s.dune n).scrub < 0x10000000 ∧ s.poisoned (n * 0x1000000000 + (s.dune n).scrub * 256) 256 = false

/-- PATROL_SCRUB_READ (R292, R293, R294, R297, R485) and DUNE_PHY_CAL (R297): a clean line only moves the patrol on; the third command-parity error of a channel in a row fails it; a corrected piece is counted, and
with remapping enabled at a threshold of 1 its row is remapped, kept for the next start and recorded; an uncorrectable piece is poisoned, counted, captured and recorded; a
channel that fails its calibration fails, is kept for the next start, and is recorded. -/
def Obligations.DuneReads : Prop :=
  (∀ (s : State) (n : Nat) (ps : List PieceCheck), patrolled n s → (s.dune n).parity = [] → (∀ p, p ∈ ps → p = .clean) →
    ∃ t, exec (.patrolScrubRead n ps) s = .next t ∧ t.dune n = { s.dune n with scrub := ((s.dune n).scrub + 1) % 0x10000000 } ∧
      (∀ j, j ≠ n → t.dune j = s.dune j) ∧ changesOnly [.dunes] s t) ∧
  (∀ (s : State) (n o : Nat), patrolled n s → o = (s.dune n).scrub * 256 → (s.dune n).parity = [] →
    ∃ t, exec (.patrolScrubRead n [.parity]) s = .next t ∧
      t.dune n = { s.dune n with parity := [(duneChan o, 1)], scrub := ((s.dune n).scrub + 1) % 0x10000000 } ∧
      (∀ j, j ≠ n → t.dune j = s.dune j) ∧ changesOnly [.dunes] s t) ∧
  (∀ (s : State) (n o : Nat), patrolled n s → o = (s.dune n).scrub * 256 → (s.dune n).parity = [(duneChan o, 2)] →
    ∃ t, exec (.patrolScrubRead n [.parity]) s = .next t ∧ (t.dune n).chFailed = [duneChan o] ∧
      t.nv.chRepairs = s.nv.chRepairs ++ [(n, duneChan o)] ∧
      recorded t 3 (unitId 5 (n * 256 + duneChan o)) 2 evChannel .internal [w32 (n * 256 + duneChan o)] ∧
      (∀ j, j ≠ n → t.dune j = s.dune j) ∧ changesOnly (logged [.dunes, .nv]) s t) ∧
  (∀ (s : State) (n o : Nat), patrolled n s → o = (s.dune n).scrub * 256 → s.fld (duneReg n 0xC) 4 1 = 1 → s.fld (duneReg n 0xC) 0 4 ≤ 1 →
    (s.dune n).remap = [] → (s.dune n).burnt = [] →
    ∃ t, exec (.patrolScrubRead n [.corrected]) s = .next t ∧ (t.dune n).remap = [(duneChan o, duneBank o, duneRow o)] ∧
      t.nv.repairs = s.nv.repairs ++ [(n, duneChan o, duneBank o, duneRow o)] ∧
      t.fld (duneReg n 0x1C) 0 32 = min (s.fld (duneReg n 0x1C) 0 32 + 1) 0xFFFFFFFF ∧
      t.fld (duneReg n 0x2C) 0 16 = min (s.fld (duneReg n 0x2C) 0 16 + 1) 0xFFFF ∧
      recorded t 3 (unitId 5 (n * 256 + duneChan o)) 1 evRemap .ok [w32 (duneChan o), w32 (duneBank o), w32 (duneRow o)] ∧
      t.mem = s.mem ∧ t.poison = s.poison ∧ (∀ j, j ≠ n → t.dune j = s.dune j) ∧ changesOnly (logged [.dunes, .regs, .nv]) s t) ∧
  (∀ (s : State) (n o : Nat), patrolled n s → o = (s.dune n).scrub * 256 → (s.dune n).ueTimes = [] → 2 ≤ s.fld (duneReg n 0x18) 0 8 →
    (s.dune n).logged = [] → s.fld (duneReg n 0x28) 31 1 = 0 →
    ∃ t, exec (.patrolScrubRead n [.uncorrectable]) s = .next t ∧
      (∀ w, w ∈ t.poison ↔ w ∈ s.poison ∨ w / 4 = (n * 0x1000000000 + o) / 32) ∧ t.mem = s.mem ∧
      t.fld (duneReg n 0x20) 0 16 = min (s.fld (duneReg n 0x20) 0 16 + 1) 0xFFFF ∧ t.reg (duneReg n 0x24) = w32 (o / 32 * 32) ∧
      t.fld (duneReg n 0x28) 31 1 = 1 ∧ (t.dune n).ueTimes = [(duneChan o, s.etc)] ∧ (t.dune n).chFailed = [] ∧
      recorded t 3 (unitId 4 n) 2 evDuneUe .internal
        [w32 ((n * 0x1000000000 + o) / 32 * 32), w32 ((n * 0x1000000000 + o) / 32 * 32 / 0x100000000)] ∧
      (∀ j, j ≠ n → t.dune j = s.dune j) ∧ changesOnly (logged [.dunes, .regs, .poison]) s t) ∧
  (∀ (s : State) (n : Nat) (ps : List PieceCheck), s.background = false ∨ 48 ≤ n ∨ (s.dune n).state ≠ .online →
    exec (.patrolScrubRead n ps) s = .next s) ∧
  (∀ (s : State) (n c : Nat), canonical s → s.background = true → n < 48 → c < 128 → (s.dune n).state = .online → c ∉ (s.dune n).chFailed →
    ∃ t, exec (.dunePhyCal n c false) s = .next t ∧
      t.dune n = { s.dune n with
        chFailed := (s.dune n).chFailed ++ [c], phyFailed := (s.dune n).phyFailed ++ [(s.dune n).phys c] } ∧
      t.nv.chRepairs = s.nv.chRepairs ++ [(n, c)] ∧ recorded t 3 (unitId 5 (n * 256 + c)) 2 evChannel .internal [w32 (n * 256 + c)] ∧
      (∀ a, stackOf a = n → duneChan (a % 0x1000000000) = c → t.served a = false) ∧
      (∀ j, j ≠ n → t.dune j = s.dune j) ∧ changesOnly (logged [.dunes, .nv]) s t) ∧
  (∀ (s : State) (n c : Nat) (ok : Bool), ok = true ∨ s.background = false ∨ 48 ≤ n ∨ 128 ≤ c ∨ (s.dune n).state ≠ .online ∨
    c ∈ (s.dune n).chFailed → exec (.dunePhyCal n c ok) s = .next s)

/-- SRAM_SCRUB (R97, R106, R375, R485): a clean word changes nothing; a corrected one is counted for its scull or its Rigger; an uncorrectable one is
poisoned and recorded, in a scull's store also counted and captured; in a Rigger it is counted, recorded, and poisons the epochs
that hold the slot. -/
def Sys2Proof.Safety.SramScrub : Prop :=
  (∀ (s : State) (site : ScrubSite) (o : Nat) (f : PieceCheck), s.background = false ∨ f = .clean → exec (.sramScrub site o f) s = .next s) ∧
  (∀ (s : State) (k o : Nat), canonical s → s.background = true → k < 12288 → (s.scull k).state = .good →
    ∃ t, exec (.sramScrub (.scull k) o .corrected) s = .next t ∧
      t.fld (scullReg k 0x18) 0 16 = min (s.fld (scullReg k 0x18) 0 16 + 1) 0xFFFF ∧
      (∀ r, r ≠ scullReg k 0x18 → t.reg r = s.reg r) ∧ changesOnly [.regs, .lossCounts] s t) ∧
  (∀ (s : State) (k o : Nat), canonical s → s.background = true → k < 12288 → (s.scull k).state = .good →
    memErrors s k < s.ueLimit (k / 768) →
    ∃ t, exec (.sramScrub (.scull k) o .uncorrectable) s = .next t ∧
      (∀ w, w ∈ t.poison ↔ w ∈ s.poison ∨ w = (scullBase + k * 0x80000 + o % 0x80000) / 8) ∧
      t.fld (scullReg k 0x18) 16 8 = min (s.fld (scullReg k 0x18) 16 8 + 1) 0xFF ∧
      recorded t 3 (unitId 0 k) 2 evEccUe .internal [w32 k, w32 (o % 0x80000)] ∧ (t.scull k).state = .good ∧
      changesOnly (logged [.regs, .sculls, .poison]) s t) ∧
  (∀ (s : State) (c o : Nat), canonical s → s.background = true → c < 768 → (s.crew c).state = .good →
    (s.recentFaults (c / 48) (s.etc :: (s.crew c).ueTimes)).length < s.ueLimit (c / 48) →
    ∃ t, exec (.sramScrub (.crew c) o .uncorrectable) s = .next t ∧
      (∀ w, w ∈ t.poison ↔ w ∈ s.poison ∨ w = (crewBase + c * 0x400000 + o % 0x400000) / 8) ∧
      recorded t 3 (unitId 1 c) 2 evEccUe .internal [w32 (unitId 1 c), w32 (o % 0x400000)] ∧
      t.crew c = { s.crew c with ueTimes := s.etc :: (s.crew c).ueTimes } ∧ (∀ j, j ≠ c → t.crew j = s.crew j) ∧
      changesOnly (logged [.crews, .poison]) s t) ∧
  (∀ (s : State) (c o : Nat), exec (.sramScrub (.crew c) o .corrected) s = .next s) ∧
  (∀ (s : State) (d g o : Nat), canonical s → s.background = true → d < 4 →
    ∃ t, exec (.sramScrub (.rigger d g) o .corrected) s = .next t ∧
      t.fld (riggerReg d 8) 0 16 = min (s.fld (riggerReg d 8) 0 16 + 1) 0xFFFF ∧
      (∀ r, r ≠ riggerReg d 8 → t.reg r = s.reg r) ∧ changesOnly [.regs] s t) ∧
  (∀ (s : State) (d g o k : Nat) (c : Coll), canonical s → s.background = true → d < 4 → s.colls.running = [(k, c)] → c.group = g →
    c.die = d → c.claim ≠ 0 → c.poison = false → c.root = true → c.phase = 2 →
    ∃ t, exec (.sramScrub (.rigger d g) o .uncorrectable) s = .next t ∧
      t.fld (riggerReg d 8) 16 16 = min (s.fld (riggerReg d 8) 16 16 + 1) 0xFFFF ∧
      recorded t 3 (unitId 8 d) 2 evEccUe .internal [w32 d, w32 g] ∧
      t.coll k = { c with poison := true, note := some (c.note.getD .collPoisoned) } ∧ changesOnly (logged [.regs, .colls]) s t)

/-- FLASH_PATROL (R485), WEAR_LEVELLING (R484) and TELEMETRY_SAMPLE (R487): an uncorrectable flash page is recorded and reads bad from then on;
wear levelling changes nothing that software sees; a sample is what its sensor shows; the coolant inlet's crossing of 35 and 40 °C
is recorded. -/
def Sys2Proof.Safety.FlashAndSensors : Prop :=
  (∀ (s : State) (page c : Nat), canonical s → s.background = true → s.hasFlash = true → s.locked 34 = true → page < s.flashPages →
    page ∉ s.nv.badPages →
    ∃ t, exec (.flashPatrol page c false) s = .next t ∧ t.nv.badPages = page :: s.nv.badPages ∧
      (∀ a n, flashBase + page * 16384 ≤ a → a < flashBase + page * 16384 + 16384 → 0 < n → t.readBad a n = true) ∧
      recorded t 3 (unitId 6 34) 2 evEccUe .internal [w32 page, w32 (page / 0x100000000)] ∧ changesOnly (logged [.nv]) s t) ∧
  (∀ (s : State) (page c : Nat) (ok : Bool), ok = true ∨ s.background = false ∨ s.hasFlash = false ∨ page ∈ s.nv.badPages →
    exec (.flashPatrol page c ok) s = .next s) ∧
  (∀ (s : State) (b e l : Nat), exec (.wearLevelling b e l) s = .next s) ∧
  (∀ (s : State) (n : Nat) (v : Word), Tab.wf noSensor s.pwr.sensors = true → s.background = true → n < 964 → n ≠ 512 →
    s.sensor 512 = noSensor →
    ∃ t, exec (.telemetrySample [(n, v)]) s = .next t ∧ t.sensor n = v ∧ (∀ j, j ≠ n → t.sensor j = s.sensor j) ∧
      (n = 514 → v ≠ noSensor → t.pwr.flow = v.toInt.toNat) ∧ t.pwr.inlet = s.pwr.inlet ∧ changesOnly [.pwr] s t) ∧
  (∀ (s : State) (v : Word), Tab.wf noSensor s.pwr.sensors = true → s.background = true → v ≠ noSensor →
    ∃ t, exec (.telemetrySample [(512, v)]) s = .next t ∧ t.sensor 512 = v ∧ t.pwr.inlet = milli v ∧
      (40000 < v.toInt → (s.sensor 512).toInt ≤ 40000 → recorded t 3 (unitId 14 0) 2 evThermal .ok [v]) ∧
      (35000 < v.toInt → v.toInt ≤ 40000 → (s.sensor 512).toInt ≤ 35000 → recorded t 3 (unitId 14 0) 1 evThermal .ok [v]) ∧
      (v.toInt ≤ 35000 ∨ 40000 < (s.sensor 512).toInt → t.log = s.log) ∧ changesOnly (logged [.pwr]) s t) ∧
  (∀ (s : State) (rs : List (Nat × Word)), s.background = false → exec (.telemetrySample rs) s = .next s)

/-- The op and index of a command of TIER_CMD (Table TIER.6). -/
def Sys2Proof.Safety.tierOp : Instr → Option (Nat × Nat × Requester)
  | .tierRegister i req => some (1, i, req)
  | .tierUnregister i req => some (2, i, req)
  | .tierLoad i req _ => some (3, i, req)
  | .tierFlush req => some (4, 0, req)
  | .tierPromote i req => some (5, i, req)
  | .tierEvict i req => some (6, i, req)
  | _ => none

/-- The tier engine takes a command: TIER_CMD is reached, the state is READY or RUNNING, and no command is in progress. -/
def Sys2Proof.Safety.tierReady (s : State) (req : Requester) : Prop :=
  canonical s ∧ Tab.wf Tensor.none s.tier.tensors = true ∧ reaches s req 0x02030060 ∧ (s.dev = .ready ∨ s.dev = .running) ∧ s.tier.cmd = none

/-- A tier command has ended with a status and moved nothing: its register holds it, the status is shown, no tensor and no byte changed. -/
def Sys2Proof.Safety.tierEnded (op i : Nat) (st : Status) (s t : State) : Prop :=
  t.tier = { s.tier with status := st, loading := [] } ∧ t.reg 0x02030060 = w32 (op + i * 16) ∧ changesOnly (logged [.regs, .tier]) s t

/-- A command of the tier engine may run in the device state (R323, R324): FLUSH also while QUIESCING. -/
def Sys2Proof.Safety.tierLegal (s : State) (op : Nat) : Prop :=
  s.dev = .ready ∨ s.dev = .running ∨ (s.dev = .quiescing ∧ op = 4)

/-- TIER_CMD refuses (R14, R309, R323, R324), in R14's order: a REGISTER or LOAD of a home in flash that is not there with UNIT_ABSENT; outside
READY and RUNNING, and for FLUSH also QUIESCING, with STATE_INVALID; while a command is in progress the
write is discarded, counted and logged with BUSY. A reserved op is BAD_ARGUMENT only after all of these. -/
def Sys2Proof.Safety.TierCommandRefused : Prop :=
  (∀ (s : State) (c : Instr) (op i : Nat) (req : Requester), canonical s → tierOp c = some (op, i, req) → reaches s req 0x02030060 →
    (s.tierAbsent op i = true → ¬ tierLegal s op ∨ s.tier.cmd.isSome = true →
      ∃ t, exec c s = .next t ∧ refusedWrite req 0x02030060 .unitAbsent (s.reg 0x02030060) (w32 (op + i * 16)) s t) ∧
    (s.tierAbsent op i = false → ¬ tierLegal s op →
      ∃ t, exec c s = .next t ∧ refusedWrite req 0x02030060 .stateInvalid (s.reg 0x02030060) (w32 (op + i * 16)) s t) ∧
    (s.tierAbsent op i = false → tierLegal s op → s.tier.cmd.isSome = true →
      ∃ t, exec c s = .next t ∧ t.fld 0x118 16 16 = min (s.fld 0x118 16 16 + 1) 0xFFFF ∧ t.tier = s.tier ∧
        recorded t (originOf req).1 (originOf req).2 1 evRegWrite .busy [w32 0x02030060, s.reg 0x02030060, w32 (op + i * 16)] ∧
        (∀ r, r ≠ 0x118 → r ≠ 0x264 → r ≠ 0x278 → t.reg r = s.reg r) ∧ changesOnly (logged [.regs]) s t)) ∧
  (∀ (s : State) (v : Word) (req : Requester), canonical s → reaches s req 0x02030060 → bits v 0 4 = 0 ∨ 7 ≤ bits v 0 4 →
    ((s.dev ≠ .ready → s.dev ≠ .running →
      refusedWrite req 0x02030060 .stateInvalid (s.reg 0x02030060) (w32 (bits v 0 4 + bits v 4 20 * 16)) s (s.writeTierCmd v req)) ∧
    (s.dev = .ready ∨ s.dev = .running → s.tier.cmd = none →
      (s.writeTierCmd v req).tier = { s.tier with status := .badArgument, loading := [] })))

/-- TIER REGISTER and UNREGISTER (R309, R323, Tables TIER.2, TIER.3): a tensor that passes every check is AT_HOME with heat 0, and only its registry and page-table
entries are written; the first failed check is the command's status, UNIT_ABSENT for a home in flash that is not there; an unpinned tensor at
home or clean leaves the registry, a dirty one is copied out first, once fewer than 8 moves run (R318), a pinned or moving one is BUSY, an
empty index BAD_ARGUMENT. -/
def Sys2Proof.Safety.TierRegistry : Prop :=
  (∀ (s : State) (i : Nat) (req : Requester) (x : Tensor), tierReady s req → s.tierAbsent 1 i = false → s.registerCheck i = .ok →
    x = tensorOf (s.load (s.regEntryDa i) 64) → x.prefT1 = false →
    ∃ t, exec (.tierRegister i req) s = .next t ∧ t.tensor i = x ∧ (∀ j, j ≠ i → t.tensor j = s.tensor j) ∧ t.tier.status = .ok ∧
      t.tier.cmd = none ∧
      (∀ a, a < s.regEntryDa i + 0x38 ∨ s.regEntryDa i + 0x40 ≤ a →
        (∀ pg, pg < x.pages → a < s.pteDa (x.name + pg * tierPage) ∨ s.pteDa (x.name + pg * tierPage) + 8 ≤ a) → t.byte a = s.byte a) ∧
      changesOnly (logged [.regs, .mem, .poison, .dunes, .tier]) s t) ∧
  (∀ (s : State) (i : Nat) (req : Requester) (st : Status), tierReady s req → s.tierAbsent 1 i = false → s.registerCheck i = st → st ≠ .ok →
    ∃ t, exec (.tierRegister i req) s = .next t ∧ tierEnded 1 i st s t) ∧
  (∀ (s : State) (i : Nat) (req : Requester), tierReady s req → s.tierAbsent 1 i = true →
    ∃ t, exec (.tierRegister i req) s = .next t ∧ tierEnded 1 i .unitAbsent s t) ∧
  (∀ (s : State) (i : Nat) (req : Requester), tierReady s req → (s.tensor i).unpinned = true →
    (s.tensor i).state = .atHome ∨ ((s.tensor i).state = .resident ∧ (s.tensor i).dirty = false) →
    ∃ t, exec (.tierUnregister i req) s = .next t ∧ t.tensor i = .none ∧ (∀ j, j ≠ i → t.tensor j = s.tensor j) ∧
      t.tier.status = .ok ∧ t.tier.cmd = none ∧ changesOnly (logged [.regs, .mem, .poison, .dunes, .tier]) s t) ∧
  (∀ (s : State) (i : Nat) (req : Requester), tierReady s req → (s.tensor i).unpinned = true → (s.tensor i).state = .resident →
    (s.tensor i).dirty = true →
    ∃ t, exec (.tierUnregister i req) s = .next t ∧ t.tier.cmd = some (2, i) ∧ (∀ j, j ≠ i → t.tensor j = s.tensor j) ∧
      (s.moves < 8 → t.tensor i = { s.tensor i with state := .copyOut }) ∧ (8 ≤ s.moves → t.tensor i = s.tensor i)) ∧
  (∀ (s : State) (i : Nat) (req : Requester), tierReady s req → (s.tensor i).unpinned = true → (s.tensor i).state = .copyOut →
    ∃ t, exec (.tierUnregister i req) s = .next t ∧ t.tier = { s.tier with cmd := some (2, i) } ∧ changesOnly (logged [.regs, .tier]) s t) ∧
  (∀ (s : State) (i : Nat) (req : Requester), tierReady s req → (s.tensor i).state = .unregistered →
    ∃ t, exec (.tierUnregister i req) s = .next t ∧ tierEnded 2 i .badArgument s t) ∧
  (∀ (s : State) (i : Nat) (req : Requester), tierReady s req → (s.tensor i).state ≠ .unregistered →
    (s.tensor i).unpinned = false ∨ (s.tensor i).state = .copyIn ∨ (s.tensor i).state = .recompute →
    ∃ t, exec (.tierUnregister i req) s = .next t ∧ tierEnded 2 i .busy s t)

/-- Where LOAD reads from (TIER_CMD_SRC). -/
def Sys2Proof.Safety.loadSrc (s : State) : Nat := join (s.reg 0x02030064) (s.reg 0x02030068)

/-- TIER LOAD, FLUSH, PROMOTE and EVICT (R304, R316, R317, R319, R323): LOAD of a tensor at home in flash takes the source's bytes; FLUSH is in progress until
its write-backs end; PROMOTE of a tensor at home gives it the lowest free frames and starts its copy; EVICT drops a clean
copy, starts a dirty one's write-back, or waits for it to start while 8 moves run (R318), and defers on a pin or a move, counting each. -/
def Obligations.TierMoves : Prop :=
  (∀ (s : State) (i : Nat) (req : Requester), tierReady s req → s.hasFlash = true → (s.tensor i).state = .atHome → (s.tensor i).unpinned = true →
    s.nameIn 1 (s.tensor i).name 1 = true → loadSrc s + (s.tensor i).size ≤ duneEnd →
    (∀ e, e ∈ s.tier.tensors → e.2.state = .unregistered ∨ loadSrc s + (s.tensor i).size ≤ e.2.name ∨
      e.2.name + e.2.pages * tierPage ≤ loadSrc s) →
    ∃ t, exec (.tierLoad i req []) s = .next t ∧ t.tier.cmd = some (3, i) ∧
      t.tier.loading = cellsAt (s.tensor i).name (s.load (loadSrc s) (s.tensor i).size) ∧ (∀ j, t.tensor j = s.tensor j) ∧
      t.mem = s.mem ∧ changesOnly (logged [.regs, .mem, .dunes, .tier]) s t) ∧
  (∀ (s : State) (i : Nat) (req : Requester) (host : List Cell), tierReady s req → (s.tensor i).state ≠ .atHome →
    s.tierAbsent 3 i = false →
    ∃ t, exec (.tierLoad i req host) s = .next t ∧ tierEnded 3 i .badArgument s t) ∧
  (∀ (s : State) (i : Nat) (req : Requester) (host : List Cell), tierReady s req → s.hasFlash = false →
    (s.tensor i).state = .unregistered ∨ s.nameIn 1 (s.tensor i).name 1 = true →
    ∃ t, exec (.tierLoad i req host) s = .next t ∧ tierEnded 3 i .unitAbsent s t) ∧
  (∀ (s : State) (req : Requester), tierReady s req →
    ∃ t, exec (.tierFlush req) s = .next t ∧ t.tier = { s.tier with cmd := some (4, 0) } ∧ t.reg 0x02030060 = 4 ∧
      changesOnly (logged [.regs, .tier]) s t) ∧
  (∀ (s : State) (i : Nat) (req : Requester), tierReady s req → (s.tensor i).state = .atHome → s.moves < 8 →
    (s.tensor i).pages ≤ s.freeFrames.length →
    ∃ t, exec (.tierPromote i req) s = .next t ∧
      t.tensor i = { s.settleHeat.tensor i with state := .copyIn, frames := s.freeFrames.take (s.tensor i).pages } ∧ t.tier.status = .ok ∧
      t.tier.cmd = none) ∧
  (∀ (s : State) (i : Nat) (req : Requester), tierReady s req → (s.tensor i).state ≠ .atHome →
    ∃ t, exec (.tierPromote i req) s = .next t ∧ tierEnded 5 i .badArgument s t) ∧
  (∀ (s : State) (i : Nat) (req : Requester), tierReady s req → (s.tensor i).state = .resident → (s.tensor i).unpinned = true →
    (s.tensor i).dirty = false ∨ s.moves < 8 →
    ∃ t, exec (.tierEvict i req) s = .next t ∧ t.tier.status = .ok ∧ t.tier.cmd = none ∧ (∀ j, j ≠ i → t.tensor j = s.tensor j) ∧
      ((s.tensor i).dirty = true → t.tensor i = { s.tensor i with state := .copyOut }) ∧
      ((s.tensor i).dirty = false → t.tensor i = { s.tensor i with state := .atHome, frames := [], dirty := false } ∧
        t.fld 0x02030078 0 16 = min (s.fld 0x02030078 0 16 + 1) 0xFFFF)) ∧
  (∀ (s : State) (i : Nat) (req : Requester), tierReady s req → (s.tensor i).state = .resident → (s.tensor i).unpinned = true →
    (s.tensor i).dirty = true → 8 ≤ s.moves →
    ∃ t, exec (.tierEvict i req) s = .next t ∧ t.tier = { s.tier with cmd := some (6, i) } ∧ changesOnly (logged [.regs, .tier]) s t) ∧
  (∀ (s : State) (i : Nat) (req : Requester), tierReady s req →
    ((s.tensor i).state = .unregistered → ∃ t, exec (.tierEvict i req) s = .next t ∧ tierEnded 6 i .badArgument s t) ∧
    ((s.tensor i).state = .atHome → ∃ t, exec (.tierEvict i req) s = .next t ∧ tierEnded 6 i .ok s t)) ∧
  (∀ (s : State) (i : Nat) (req : Requester), tierReady s req →
    ((s.tensor i).state = .resident ∧ (s.tensor i).unpinned = false) ∨ (s.tensor i).state = .copyIn ∨ (s.tensor i).state = .copyOut ∨
      (s.tensor i).state = .recompute →
    ∃ t, exec (.tierEvict i req) s = .next t ∧ tierEnded 6 i .evictDeferred s t ∧
      t.fld 0x02030078 16 16 = min (s.fld 0x02030078 16 16 + 1) 0xFFFF)

/-- No command of the tier engine waits for a move. -/
def Sys2Proof.Safety.noneWaits (s : State) : Prop := ∀ i, s.tier.cmd ≠ some (2, i) ∧ s.tier.cmd ≠ some (6, i)

/-- A copy in of tensor i that was started can end well: power is on, a home in the host is reached, and it can be read. -/
def Sys2Proof.Safety.copiedIn (s : State) (i : Nat) (host : List Cell) : Prop :=
  s.power = .on ∧ (s.tensor i).state = .copyIn ∧ ((s.tensor i).homeInHost = true → s.hostOpen = true) ∧
    (s.seeHost host).readBad (s.tensor i).name ((s.tensor i).pages * tierPage) = false

/-- COPY_IN_COMPLETE and COPY_OUT_COMPLETE (R317, R318, Table TIER.5): a copy in leaves the tensor RESIDENT and clean with its home's bytes, whole
pages of them, in its frames, counted; a copy out sends it home, counted; a copy that fails leaves it where it was, recorded with INTERNAL;
then a command that waited for a move goes on, and what is parked may wake. -/
def Sys2Proof.Safety.TensorCopies : Prop :=
  (∀ (s : State) (i : Nat) (host : List Cell), copiedIn s i host →
    exec (.copyInComplete i true host) s = .next (((((s.seeHost host).write 0 ((s.seeHost host).tensorCells i false)).moveTensor i
      { s.tensor i with state := .resident, dirty := false, moves := (s.tensor i).moves + 1 }).bump 0x02030074 0 16).moveEnded.rewake)) ∧
  (∀ (s : State) (i f : Nat) (host : List Cell), canonical s → settled s → noneWaits s → Tab.wf Tensor.none s.tier.tensors = true →
    copiedIn s i host →
    ∃ t, exec (.copyInComplete i true host) s = .next t ∧
      t.tensor i = { s.tensor i with state := .resident, dirty := false, moves := (s.tensor i).moves + 1 } ∧
      (∀ j, j ≠ i → t.tensor j = s.tensor j) ∧ t.fld 0x02030074 0 16 = min (s.fld 0x02030074 0 16 + 1) 0xFFFF ∧
      ((s.tensor i).frames = [f] → (s.tensor i).pages = 1 →
        (∀ k, k < tierPage → f * tierPage + k < duneEnd ∧ s.served (f * tierPage + k) = true) →
        (s.regEntryDa i + 0x40 ≤ f * tierPage ∨ (f + 1) * tierPage ≤ s.regEntryDa i + 0x38) →
        (s.pteDa (s.tensor i).name + 8 ≤ f * tierPage ∨ (f + 1) * tierPage ≤ s.pteDa (s.tensor i).name) →
        ∀ k, k < tierPage → t.byte (f * tierPage + k) = (s.seeHost host).byte ((s.tensor i).name + k)) ∧
      changesOnly (logged [.regs, .mem, .poison, .dunes, .tier]) s t) ∧
  (∀ (s : State) (i : Nat) (host : List Cell), s.power = .on → (s.tensor i).state = .copyIn →
    exec (.copyInComplete i false host) s = .next ((((s.seeHost host).sendHome i).emitTier 2 .internal [w32 i]).moveEnded.rewake)) ∧
  (∀ (s : State) (i : Nat) (host : List Cell), canonical s → settled s → noneWaits s → Tab.wf Tensor.none s.tier.tensors = true → s.power = .on →
    (s.tensor i).state = .copyIn →
    ∃ t, exec (.copyInComplete i false host) s = .next t ∧
      t.tensor i = { s.tensor i with state := .atHome, frames := [], dirty := false } ∧ (∀ j, j ≠ i → t.tensor j = s.tensor j) ∧
      recorded t 3 (unitId 10 0) 2 evTier .internal [w32 i] ∧ changesOnly (logged [.regs, .mem, .poison, .dunes, .tier]) s t) ∧
  (∀ (s : State) (i : Nat), s.power = .on → (s.tensor i).state = .copyOut → s.tier.cmd ≠ some (2, i) →
    (s.hostOpen = true → exec (.copyOutComplete i true) s = .next
      (((((((s.countMove i).write 0 (s.tensorCells i true)).sendHome i).bump 0x02030078 0 16).lowFrames).moveEnded).rewake)) ∧
    exec (.copyOutComplete i false) s = .next
      ((((s.moveTensor i { s.tensor i with state := .resident }).emitTier 2 .internal [w32 i]).moveEnded).rewake)) ∧
  (∀ (s : State) (i : Nat), canonical s → settled s → noneWaits s → Tab.wf Tensor.none s.tier.tensors = true → s.power = .on →
    (s.tensor i).state = .copyOut → s.hostOpen = true →
    ∃ t, exec (.copyOutComplete i true) s = .next t ∧
      (t.tensor i).state = .atHome ∧ (t.tensor i).frames = [] ∧ (t.tensor i).dirty = false ∧
      (s.fld 0x02030034 0 21 = 0 → t.tensor i = { s.tensor i with state := .atHome, frames := [], dirty := false } ∧
        t.fld 0x02030078 0 16 = min (s.fld 0x02030078 0 16 + 1) 0xFFFF ∧ ∀ j, j ≠ i → t.tensor j = s.tensor j)) ∧
  (∀ (s : State) (i : Nat), canonical s → settled s → noneWaits s → Tab.wf Tensor.none s.tier.tensors = true → s.power = .on →
    (s.tensor i).state = .copyOut →
    ∃ t, exec (.copyOutComplete i false) s = .next t ∧ t.tensor i = { s.tensor i with state := .resident } ∧
      (∀ j, j ≠ i → t.tensor j = s.tensor j) ∧ recorded t 3 (unitId 10 0) 2 evTier .internal [w32 i]) ∧
  (∀ (s : State) (i : Nat) (ok : Bool) (host : List Cell), s.power ≠ .on ∨ (s.tensor i).state ≠ .copyIn →
    exec (.copyInComplete i ok host) s = .next s) ∧
  (∀ (s : State) (i : Nat) (ok : Bool), s.power ≠ .on ∨ (s.tensor i).state ≠ .copyOut ∨ s.tier.cmd = some (2, i) →
    exec (.copyOutComplete i ok) s = .next s)

/-- TIER_CMD_COMPLETE (R323, Table TIER.6) and HEAT_DECAY (R314): UNREGISTER's write-back empties the index, LOAD's bytes stand at the tensor's home, FLUSH leaves no dirty copy, each with
status OK; a failed write ends the command with INTERNAL, recorded, and the tensor as it was; for every TIER_DECAY microseconds that have passed
every heat is halved once, rounded down. -/
def Sys2Proof.Safety.TierCommandEnds : Prop :=
  (∀ (s : State) (i : Nat), s.power = .on → s.tier.cmd = some (2, i) → (s.tensor i).state = .copyOut → s.hostOpen = true →
    exec (.tierCmdComplete true) s = .next
      ((((((s.countMove i).write 0 (s.tensorCells i true)).dropTensor i).endTierCmd .ok).lowFrames).rewake)) ∧
  (∀ (s : State) (i : Nat), canonical s → settled s → Tab.wf Tensor.none s.tier.tensors = true → s.power = .on → s.tier.cmd = some (2, i) →
    (s.tensor i).state = .copyOut → s.hostOpen = true →
    ∃ t, exec (.tierCmdComplete true) s = .next t ∧ t.tensor i = .none ∧ t.tier.cmd = none ∧ t.tier.status = .ok) ∧
  (∀ (s : State) (i : Nat), canonical s → settled s → Tab.wf Tensor.none s.tier.tensors = true → s.power = .on → s.tier.cmd = some (2, i) →
    (s.tensor i).state = .copyOut →
    ∃ t, exec (.tierCmdComplete false) s = .next t ∧ t.tensor i = { s.tensor i with state := .resident } ∧
      (∀ j, j ≠ i → t.tensor j = s.tensor j) ∧ t.tier.cmd = none ∧ t.tier.status = .internal ∧
      recorded t 3 (unitId 10 0) 2 evTier .internal [2, w32 i]) ∧
  (∀ (s : State) (i : Nat), canonical s → s.power = .on → s.tier.cmd = some (3, i) → s.flashOpen = true →
    (∀ c, c ∈ s.tier.loading → flashBase ≤ c.1 ∧ c.1 < flashEnd) →
    ∃ t, exec (.tierCmdComplete true) s = .next t ∧ (∀ a, t.byte a = lastAt s.tier.loading a (s.byte a)) ∧
      t.tier = { s.tier with cmd := none, status := .ok, loading := [] } ∧ changesOnly [.mem, .tier] s t) ∧
  (∀ (s : State) (i : Nat) (ok : Bool), s.power = .on → s.tier.cmd = some (3, i) → ok = false ∨ s.flashOpen = false →
    ∃ t, exec (.tierCmdComplete ok) s = .next t ∧ t.tier = { s.tier with cmd := none, status := .internal, loading := [] } ∧
      recorded t 3 (unitId 10 0) 2 evTier .internal [3, w32 i] ∧ changesOnly (logged [.tier]) s t) ∧
  (∀ (s : State) (i : Nat), canonical s → Tab.wf Tensor.none s.tier.tensors = true → s.power = .on → s.tier.cmd = some (4, i) →
    s.hostOpen = true →
    ∃ t, exec (.tierCmdComplete true) s = .next t ∧ t.tier.cmd = none ∧ t.tier.status = .ok ∧
      ∀ j, t.tensor j = { s.tensor j with dirty := if (s.tensor j).state = .resident then false else (s.tensor j).dirty }) ∧
  (∀ (s : State) (ok : Bool), s.power ≠ .on ∨ s.tier.cmd = none → exec (.tierCmdComplete ok) s = .next s) ∧
  (∀ (s : State) (n k : Nat), canonical s → Tab.wf Tensor.none s.tier.tensors = true → (∀ e, e ∈ s.tier.tensors → Tab.wf 0 e.2.heat = true) →
    n = (s.reg 0x02030030).toNat → s.power = .on → n ≠ 0 → k = (s.etc - s.tier.decayAt) / n → 1 ≤ k →
    ∃ t, exec .heatDecay s = .next t ∧ t.tier.decayAt = s.tier.decayAt + k * n ∧
      (∀ i pg, Tab.get 0 (t.tensor i).heat pg = Tab.get 0 (s.tensor i).heat pg / 2 ^ min k 16) ∧
      (∀ i, (t.tensor i).state = (s.tensor i).state ∧ (t.tensor i).frames = (s.tensor i).frames)) ∧
  (∀ (s : State), s.power ≠ .on ∨ s.reg 0x02030030 = 0 ∨ s.etc < s.tier.decayAt + (s.reg 0x02030030).toNat →
    exec .heatDecay s = .next s)

/-- WAKE_RING_TAIL_WRITE (R329, R345): in READY and RUNNING the tail of the job ring is what software writes; a tail more than the ring's slots ahead
of its head is refused with BAD_ARGUMENT, another device state with STATE_INVALID. -/
def Sys2Proof.Safety.WakeTail : Prop :=
  (∀ (s : State) (w r : Nat) (v : Word) (req : Requester), canonical s → Tab.wf 0 (s.wake w).tail = true → reaches s req (wakeRingReg w r 0x30) →
    s.dev = .ready ∨ s.dev = .running → (v - (s.wake w).headOf r).toNat ≤ s.wakeSlots w r →
    ∃ t, exec (.wakeRingTailWrite w r v req) s = .next t ∧ (t.wake w).tailOf r = v ∧
      (∀ j, j ≠ r → (t.wake w).tailOf j = (s.wake w).tailOf j) ∧ { t.wake w with tail := (s.wake w).tail } = s.wake w ∧
      (∀ j, j ≠ w → t.wake j = s.wake j) ∧ changesOnly [.wakes] s t) ∧
  (∀ (s : State) (w r : Nat) (v : Word) (req : Requester), reaches s req (wakeRingReg w r 0x30) → s.dev = .ready ∨ s.dev = .running →
    s.wakeSlots w r < (v - (s.wake w).headOf r).toNat →
    ∃ t, exec (.wakeRingTailWrite w r v req) s = .next t ∧
      refusedWrite req (wakeRingReg w r 0x30) .badArgument ((s.wake w).tailOf r) v s t) ∧
  (∀ (s : State) (w r : Nat) (v : Word) (req : Requester), reaches s req (wakeRingReg w r 0x30) → s.dev ≠ .ready → s.dev ≠ .running →
    ∃ t, exec (.wakeRingTailWrite w r v req) s = .next t ∧
      refusedWrite req (wakeRingReg w r 0x30) .stateInvalid ((s.wake w).tailOf r) v s t)

/-- A job of an op is at the head of ring r of a good engine, passes its checks, and its counter has been reached; u is the state with the
host memory that the job's reads saw. -/
structure Sys2Proof.Safety.jobReady (w r : Nat) (j : Job) (s u : State) : Prop where
  canon : canonical s ∧ Tab.wf none (s.wake w).jobs = true ∧ Tab.wf none (s.wake w).sessions = true
  fetch : s.wakeFetches w r = true ∧ (s.wake w).state = .good ∧ (s.dev = .ready ∨ s.dev = .running) ∧ j = u.fetchJob w r
  read : u.readBad (u.jobDa w r ((s.wake w).headOf r)) 64 = false
  checks : u.jobFails w r j = none
  counter : j.waitCtr = 0xFFFF ∨ reached (s.ctr j.waitCtr) j.waitVal = true

/-- The host memory that a job's reads saw is the only memory that changes. -/
def Sys2Proof.Safety.hostSeen (s t : State) : Prop := ∀ a, a < hostBase ∨ hostEnd ≤ a → t.byte a = s.byte a

/-- WAKE_OPEN, WAKE_RUN and WAKE_CLOSE (R329, R331, R332, R333, R342, R345): the job at the head of the ring is fetched: OPEN makes a session of its record, RUN is in
progress, an encode job with the regions of its session's table as they stood at its start, CLOSE ends the session and frees its buffers; a
job that fails a check ends with its status, a job outside READY and RUNNING with STATE_INVALID, a job on a retired
engine with UNIT_ABSENT; one whose counter is not reached waits. -/
def Sys2Proof.Safety.WakeJobs : Prop :=
  (∀ (s : State) (w r : Nat) (host : List Cell) (j : Job), jobReady w r j s (s.seeHost host) → j.op = 1 →
    ∃ t, exec (.wakeOpen w r host) s = .next t ∧ (t.wake w).session r = some ⟨(s.seeHost host).load j.data 256, 0, 0, none⟩ ∧
      (t.wake w).job r = some { j with ran := true, ends := some .ok } ∧ (t.wake w).marks = (s.wake w).marks ∧
      (∀ i, i ≠ r → (t.wake w).session i = (s.wake w).session i) ∧ (∀ v, v ≠ w → t.wake v = s.wake v) ∧ hostSeen s t ∧
      changesOnly [.wakes, .mem] s t) ∧
  (∀ (s u : State) (w r : Nat) (host : List Cell) (j k : Job), u = s.seeHost host → jobReady w r j s u → j.op = 2 →
    (r ≠ 1 ∧ k = { j with ran := true }) ∨
    (∃ x, r = 1 ∧ (s.wake w).session 1 = some x ∧ u.regionsEnd x = none ∧ k = { j with ran := true, regions := u.regionsOf x }) ∨
    (∃ x st, r = 1 ∧ (s.wake w).session 1 = some x ∧ u.regionsEnd x = some st ∧ k = { j with ran := true, ends := some st }) →
    ∃ t, exec (.wakeRun w r host) s = .next t ∧ (t.wake w).job r = some k ∧ (t.wake w).sessions = (s.wake w).sessions ∧
      (t.wake w).marks = (s.wake w).marks ∧ (∀ v, v ≠ w → t.wake v = s.wake v) ∧ hostSeen s t ∧ changesOnly [.wakes, .mem] s t) ∧
  (∀ (s : State) (w r : Nat) (j : Job), jobReady w r j s s → j.op = 3 → Tab.wf .free (s.wake w).marks = true →
    ∃ t, exec (.wakeClose w r) s = .next t ∧ (t.wake w).session r = none ∧
      (t.wake w).job r = some { j with ran := true, ends := some .ok } ∧
      (∀ x b, (s.wake w).session r = some x → b < 16 → natBit x.bufMask b = true → (t.wake w).mark b = .free) ∧
      (∀ x b, (s.wake w).session r = some x → natBit x.bufMask b = false → (t.wake w).mark b = (s.wake w).mark b) ∧
      (∀ i, i ≠ r → (t.wake w).session i = (s.wake w).session i) ∧ (∀ v, v ≠ w → t.wake v = s.wake v) ∧ changesOnly [.wakes] s t) ∧
  (∀ (s u : State) (w r : Nat) (host : List Cell) (j : Job) (st : Status), canonical s → s.wakeFetches w r = true →
    (s.wake w).state = .good → u = s.seeHost host → j = u.fetchJob w r → j.op ≠ 3 →
    (s.dev ≠ .ready ∧ s.dev ≠ .running ∧ st = .stateInvalid) ∨
    ((s.dev = .ready ∨ s.dev = .running) ∧ u.readBad (u.jobDa w r ((s.wake w).headOf r)) 64 = false ∧ u.jobFails w r j = some st) ∨
    ((s.dev = .ready ∨ s.dev = .running) ∧ u.readBad (u.jobDa w r ((s.wake w).headOf r)) 64 = true ∧ st = .internal) →
    ∃ t, exec (if j.op = 1 then .wakeOpen w r host else .wakeRun w r host) s = .next t ∧
      (t.wake w).job r = some { j with ends := some st } ∧ (t.wake w).sessions = (s.wake w).sessions ∧
      (∀ v, v ≠ w → t.wake v = s.wake v) ∧ hostSeen s t ∧ changesOnly [.wakes, .mem] s t) ∧
  (∀ (s : State) (w r : Nat) (j : Job) (st : Status), canonical s → s.wakeFetches w r = true → j = s.fetchJob w r → j.op = 3 →
    ((s.wake w).state = .retired ∧ st = .unitAbsent) ∨
    ((s.wake w).state ≠ .retired ∧ s.dev ≠ .ready ∧ s.dev ≠ .running ∧ st = .stateInvalid) →
    ∃ t, exec (.wakeClose w r) s = .next t ∧ (t.wake w).job r = some { j with ends := some st } ∧
      (t.wake w).sessions = (s.wake w).sessions ∧ changesOnly [.wakes] s t) ∧
  (∀ (s : State) (w r : Nat) (host : List Cell), s.wakeFetches w r = false →
    exec (.wakeOpen w r host) s = .next s ∧ exec (.wakeRun w r host) s = .next s ∧ exec (.wakeClose w r) s = .next s)

/-- A unit that a decode job could not use (R339, R343): it needs a buffer outside the session's mask, or is larger than the record's size. -/
def Sys2Proof.Safety.unitBad (x : Session) (width height : Nat) (held : List Nat) : Prop :=
  (∃ b ∈ held, natBit x.bufMask b = false) ∨ x.width < width ∨ x.height < height

/-- WAKE_FRAME_DONE (R331, R335, R336, R337, R339, R340, R341, R342, R343): a decoded frame writes its tensor blocks and nothing else but what its host memory holds,
and is counted for its session, its job and the engine; a hidden one moves the marks alone: the buffers held are DECODE, the session's others FREE; a
unit that needs more, and every bad unit before it, is counted; an encoded frame is coded from its planes with its band and
quantisers, advances the job by its bytes, and the last frame ends the job; one whose bytes
do not fit ends the job with BAD_ARGUMENT, one that cannot be read with INTERNAL, and leaves all else as it stood before the frame. -/
def Obligations.WakeFrames : Prop :=
  (∀ (s u : State) (w depth width height : Nat) (luma cb cr : List Nat) (coded : List Byte) (host : List Cell) (x : Session) (j : Job) (p : Picture),
    canonical s → s.runningJob w 0 = some (x, j) → 0 < width → width ≤ x.width → 0 < height → height ≤ x.height → u = s.seeHost host →
    s.jobRangeOk false (x.frameRange (j.first + j.done)).1 (x.frameRange (j.first + j.done)).2 = true →
    p = ⟨depth, width, height, luma, cb, cr, s.fresh⟩ →
    (∀ c, c ∈ (x.decodeFrame p (j.first + j.done)).writes → c.1 < duneEnd ∧ s.served c.1 = true) →
    ∃ t, exec (.wakeFrameDone w 0 depth width height luma cb cr coded [] 0 0 host) s = .next t ∧
      (∀ a, t.byte a = lastAt (x.decodeFrame p (j.first + j.done)).writes a (u.byte a)) ∧
      (t.wake w).session 0 = some { x with frames := x.frames + 1 } ∧
      (t.wake w).job 0 = some { j with done := j.done + 1, since := s.etc } ∧
      t.fld (wakeReg w 0x60) 0 32 = min (s.fld (wakeReg w 0x60) 0 32 + 1) 0xFFFFFFFF ∧
      (j.perFrame = false → t.ctrs = s.ctrs) ∧
      (j.perFrame = true → j.signalCtr < 0xFFFF → t.ctr j.signalCtr = s.ctr j.signalCtr + w32 j.signalAdd) ∧
      (∀ v, v ≠ w → t.wake v = s.wake v)) ∧
  (∀ (s : State) (w depth width height bad skipped : Nat) (luma cb cr held : List Nat) (coded : List Byte) (host : List Cell)
    (x : Session) (j : Job), canonical s → s.runningJob w 0 = some (x, j) → Tab.wf .free (s.wake w).marks = true →
    ∃ t, exec (.wakeFrameDone w 0 depth width height luma cb cr coded held bad skipped host) s = .next t ∧
      (∀ v, v ≠ w → t.wake v = s.wake v) ∧
      t.fld (wakeReg w 0x68) 16 16 = min (s.fld (wakeReg w 0x68) 16 16 + skipped) 0xFFFF ∧
      (unitBad x width height held → (t.wake w).session 0 = some x ∧ (t.wake w).marks = (s.wake w).marks ∧
        (t.wake w).job 0 = some { j with bad := j.bad + bad + 1, skipped := j.skipped + skipped } ∧
        t.fld (wakeReg w 0x68) 0 16 = min (s.fld (wakeReg w 0x68) 0 16 + bad + 1) 0xFFFF) ∧
      (¬ unitBad x width height held → t.fld (wakeReg w 0x68) 0 16 = min (s.fld (wakeReg w 0x68) 0 16 + bad) 0xFFFF ∧
        (∀ b, b < 16 → natBit x.bufMask b = true → (t.wake w).mark b = if b ∈ held then .decode else .free) ∧
        (width = 0 ∨ height = 0 → (t.wake w).session 0 = some x ∧
          (t.wake w).job 0 = some { j with bad := j.bad + bad, skipped := j.skipped + skipped }))) ∧
  (∀ (s u : State) (w depth width height bad skipped : Nat) (luma cb cr : List Nat) (coded : List Byte) (held : List Nat) (host : List Cell)
    (x : Session) (j : Job), canonical s → s.runningJob w 1 = some (x, j) → u = s.seeHost host →
    u.frameBad x (j.first + j.done) = false → j.bytes + coded.length ≤ j.length →
    ∃ t, exec (.wakeFrameDone w 1 depth width height luma cb cr coded held bad skipped host) s = .next t ∧
      (t.wake w).job 1 = some { j with
        done := j.done + 1, bytes := j.bytes + coded.length, since := s.etc,
        ends := if j.done + 1 = j.frames then some .ok else none } ∧
      (t.wake w).session 1 = some { x with
        frames := x.frames + 1, sinceKey := if x.keyNext j then 1 else x.sinceKey + 1
        coded := some ⟨x.keyNext j, x.band j, x.quants j s.fresh, (u.encodePlane x (j.first + j.done) 0).map sampleOf,
          (u.encodePlane x (j.first + j.done) 1).map sampleOf, (u.encodePlane x (j.first + j.done) 2).map sampleOf⟩ } ∧
      t.fld (wakeReg w 0x64) 0 32 = min (s.fld (wakeReg w 0x64) 0 32 + 1) 0xFFFFFFFF ∧ (∀ v, v ≠ w → t.wake v = s.wake v)) ∧
  (∀ (s : State) (w depth width height bad skipped : Nat) (luma cb cr : List Nat) (coded : List Byte) (held : List Nat) (host : List Cell)
    (x : Session) (j : Job), canonical s → s.runningJob w 1 = some (x, j) →
    (s.seeHost host).frameBad x (j.first + j.done) = true ∨ j.length < j.bytes + coded.length →
    ∃ t, exec (.wakeFrameDone w 1 depth width height luma cb cr coded held bad skipped host) s = .next t ∧
      (t.wake w).job 1 = some { j with
        ends := some (if (s.seeHost host).frameBad x (j.first + j.done) then .internal else .badArgument) } ∧
      (t.wake w).sessions = (s.wake w).sessions ∧
      (t.wake w).marks = (s.wake w).marks ∧ hostSeen s t ∧ changesOnly [.wakes, .mem] s t) ∧
  (∀ (s : State) (w r depth width height bad skipped : Nat) (luma cb cr : List Nat) (coded : List Byte) (held : List Nat) (host : List Cell),
    s.runningJob w r = none → exec (.wakeFrameDone w r depth width height luma cb cr coded held bad skipped host) s = .next s)

/-- A range that writes reach: host memory, or Dune memory that is served. -/
def Sys2Proof.Safety.writable (s : State) (da n : Nat) : Prop :=
  (hostBase ≤ da ∧ da + n ≤ hostEnd) ∨ (da + n ≤ duneEnd ∧ ∀ k, k < n → s.served (da + k) = true)

/-- Job r of engine w is over (R329, R331): its status, frames done and bytes stand in words 14 and 15 of its descriptor, HEAD is one further and
the pipe is free; outside those words only the range of a frame that was cut short changes (R337). -/
structure Sys2Proof.Safety.jobOver (w r : Nat) (j : Job) (st : Status) (bytes : Nat) (frame : Nat × Nat) (s t : State) : Prop where
  engine : (t.wake w).headOf r = (s.wake w).headOf r + 1 ∧ (t.wake w).job r = none ∧ (t.wake w).sessions = (s.wake w).sessions
  others : ∀ v, v ≠ w → t.wake v = s.wake v
  words : writable s (s.jobDa w r ((s.wake w).headOf r) + 56) 8 → st.code + j.done * 0x10000 < 2 ^ 32 → bytes < 2 ^ 32 →
    t.loadNat (s.jobDa w r ((s.wake w).headOf r) + 56) 4 = bytes ∧
    t.loadNat (s.jobDa w r ((s.wake w).headOf r) + 60) 4 = st.code + j.done * 0x10000
  mem : ∀ a, a < s.jobDa w r ((s.wake w).headOf r) + 56 ∨ s.jobDa w r ((s.wake w).headOf r) + 64 ≤ a →
    a < frame.1 ∨ frame.1 + frame.2 ≤ a → t.byte a = s.byte a

/-- Engine w keeps its tables in their canonical form. -/
def Sys2Proof.Safety.engineOk (w : Nat) (s : State) : Prop :=
  canonical s ∧ Tab.wf none (s.wake w).jobs = true ∧ Tab.wf none (s.wake w).sessions = true ∧ Tab.wf 0 (s.wake w).head = true

/-- The range of the tensor frame that a job of pipe 0 would write next. -/
def Sys2Proof.Safety.nextFrame (s : State) (w : Nat) (j : Job) : Nat × Nat :=
  (((s.wake w).session 0).map fun x => x.frameRange (j.first + j.done)).getD (0, 0)

/-- WAKE_JOB_END (R329, R331, R337, R343): a job that has ended gets its words with its status; a decode job that was still running ends with OK, with BAD_ARGUMENT
when units were bad, with INTERNAL when its data could not be read, its bad units and skipped frames counted; the signal is added
with OK, and once, unless each frame added it; another status is recorded. -/
def Sys2Proof.Safety.WakeJobEnds : Prop :=
  (∀ (s : State) (w r bad skipped consumed bytes : Nat) (res : Ending) (j : Job) (st : Status), engineOk w s → settled s → s.power = .on →
    s.locked (26 + w) = true → (s.wake w).job r = some j → j.ends = some st →
    bytes = (if r = 0 ∧ j.op = 2 then (if j.ran then min consumed j.length else 0) else j.bytes) →
    ∃ t, exec (.wakeJobEnd w r bad skipped consumed res) s = .next t ∧ jobOver w r j st bytes (0, 0) s t ∧
      (st = .ok → j.perFrame = false → j.signalCtr < 0xFFFF → t.ctr j.signalCtr = s.ctr j.signalCtr + w32 j.signalAdd) ∧
      (st ≠ .ok ∨ j.perFrame = true → t.ctrs = s.ctrs) ∧
      (st ≠ .ok → recorded t 3 (unitId 7 w) 2 evWake st [w32 j.key, w32 j.bad, w32 j.skipped])) ∧
  (∀ (s : State) (w bad skipped consumed : Nat) (j : Job) (st : Status), engineOk w s → settled s → s.power = .on → s.locked (26 + w) = true →
    (s.wake w).job 0 = some j → j.op = 2 → j.ran = true → j.ends = none → s.readBad j.data j.length = false →
    st = (if j.bad + bad = 0 then .ok else .badArgument) →
    ∃ t, exec (.wakeJobEnd w 0 bad skipped consumed .ok) s = .next t ∧ jobOver w 0 j st (min consumed j.length) (0, 0) s t ∧
      t.fld (wakeReg w 0x68) 16 16 = min (s.fld (wakeReg w 0x68) 16 16 + skipped) 0xFFFF ∧
      t.fld (wakeReg w 0x68) 0 16 = min (s.fld (wakeReg w 0x68) 0 16 + bad) 0xFFFF ∧
      (st = .ok → j.perFrame = false → j.signalCtr < 0xFFFF → t.ctr j.signalCtr = s.ctr j.signalCtr + w32 j.signalAdd) ∧
      (st ≠ .ok → t.ctrs = s.ctrs ∧ recorded t 3 (unitId 7 w) 2 evWake st [w32 j.key, w32 (j.bad + bad), w32 (j.skipped + skipped)])) ∧
  (∀ (s : State) (w bad skipped consumed : Nat) (res : Ending) (j : Job), engineOk w s → settled s → s.power = .on →
    s.locked (26 + w) = true → (s.wake w).job 0 = some j → j.op = 2 → j.ran = true → j.ends = none →
    res ≠ .ok ∨ s.readBad j.data j.length = true →
    ∃ t, exec (.wakeJobEnd w 0 bad skipped consumed res) s = .next t ∧
      jobOver w 0 j .internal (min consumed j.length) (nextFrame s w j) s t ∧ t.ctrs = s.ctrs ∧
      recorded t 3 (unitId 7 w) 2 evWake .internal [w32 j.key, w32 (j.bad + bad), w32 (j.skipped + skipped)]) ∧
  (∀ (s : State) (w r bad skipped consumed : Nat) (res : Ending), (s.wake w).job r = none ∨ s.power ≠ .on ∨ s.locked (26 + w) = false →
    exec (.wakeJobEnd w r bad skipped consumed res) s = .next s)

/-- Engine w has failed (R344): no job and no session is left, and its self-test runs. -/
structure Sys2Proof.Safety.engineFailed (w : Nat) (s t : State) : Prop where
  jobs : (t.wake w).job 0 = none ∧ (t.wake w).job 1 = none
  sessions : (t.wake w).session 0 = none ∧ (t.wake w).session 1 = none
  unit : (t.wake w).testing = true ∧ (t.wake w).state = (s.wake w).state
  heads : ∀ r, r < 2 → (t.wake w).headOf r = (if (s.wake w).job r = none then (s.wake w).headOf r else (s.wake w).headOf r + 1)
  others : ∀ v, v ≠ w → t.wake v = s.wake v
  signals : (∀ r j, (s.wake w).job r = some j → j.ends ≠ some .ok) → t.ctrs = s.ctrs

/-- WAKE_PARITY_FAIL, WAKE_FRAME_WATCHDOG and WAKE_SELF_TEST_DONE (R344): a check failure, or a frame longer than its limit, ends the engine's jobs with INTERNAL, closes its
sessions and starts the self-test; one that passes leaves the engine in service, one that fails retires it with cause 1, counted
and recorded with UNIT_ABSENT. -/
def Sys2Proof.Safety.WakeFaults : Prop :=
  (∀ (s : State) (w : Nat), engineOk w s → settled s → s.power = .on → s.hasWake = true → s.locked (26 + w) = true →
    (s.wake w).state = .good → (s.wake w).testing = false → ∃ t, exec (.wakeParityFail w) s = .next t ∧ engineFailed w s t) ∧
  (∀ (s : State) (w : Nat), s.power ≠ .on ∨ s.hasWake = false ∨ s.locked (26 + w) = false ∨ (s.wake w).state ≠ .good ∨
    (s.wake w).testing = true → exec (.wakeParityFail w) s = .next s) ∧
  (∀ (s : State) (w r : Nat) (x : Session) (j : Job), engineOk w s → settled s → s.runningJob w r = some (x, j) →
    s.reg (wakeReg w 0x14) ≠ 0 → j.since + (s.reg (wakeReg w 0x14)).toNat + 1 ≤ s.etc →
    ∃ t, exec (.wakeFrameWatchdog w r) s = .next t ∧ engineFailed w s t) ∧
  (∀ (s : State) (w r : Nat), s.runningJob w r = none ∨ s.reg (wakeReg w 0x14) = 0 ∨
    (∃ x j, s.runningJob w r = some (x, j) ∧ s.etc < j.since + (s.reg (wakeReg w 0x14)).toNat + 1) →
    exec (.wakeFrameWatchdog w r) s = .next s) ∧
  (∀ (s : State) (w : Nat), canonical s → s.power = .on → (s.wake w).state = .good → (s.wake w).testing = true →
    ∃ t, exec (.wakeSelfTestDone w true) s = .next t ∧ t.wake w = { s.wake w with testing := false } ∧
      (∀ v, v ≠ w → t.wake v = s.wake v) ∧ changesOnly [.wakes] s t) ∧
  (∀ (s : State) (w : Nat), canonical s → s.power = .on → (s.wake w).state = .good → (s.wake w).testing = true →
    ∃ t, exec (.wakeSelfTestDone w false) s = .next t ∧ (t.wake w).state = .retired ∧ (t.wake w).cause = 1 ∧ (t.wake w).testing = false ∧
      t.fld 0x274 28 4 = min (s.fld 0x274 28 4 + 1) 0xF ∧ recorded t 3 (unitId 7 w) 2 evRetire .unitAbsent [w32 (unitId 7 w), 1] ∧
      (∀ v, v ≠ w → t.wake v = s.wake v) ∧ changesOnly (logged [.wakes, .regs]) s t) ∧
  (∀ (s : State) (w : Nat) (pass : Bool), s.power ≠ .on ∨ (s.wake w).state ≠ .good ∨ (s.wake w).testing = false →
    exec (.wakeSelfTestDone w pass) s = .next s)

/-- Port p has entered a state (Table SWEEP.5): its keys and the frames of its old state are gone, its partner and its guard stay. -/
structure Sys2Proof.Safety.entered (p : Nat) (st : PortState) (qcause : Nat) (s t : State) : Prop where
  state : (t.port p).state = st ∧ (t.port p).since = s.etc ∧ (t.port p).qcause = qcause
  keys : (t.port p).txKey = [] ∧ (t.port p).rxKey = [] ∧ (t.port p).newRx = [] ∧ (t.port p).kid = 0
  frames : (t.port p).waiting = [] ∧ (t.port p).credits = [] ∧ (t.port p).certs = [] ∧ (t.port p).unacked = [] ∧ (t.port p).rxBuf = []
  kept : (t.port p).peer = (s.port p).peer ∧ (t.port p).guardDis = (s.port p).guardDis

/-- Port p is quarantined for a cause with a status (R358, R359, R360), recorded with its partner; where no task runs, no other port and nothing else changes. -/
structure Sys2Proof.Safety.quarantined (p qcause : Nat) (st : Status) (s t : State) : Prop where
  port : entered p .quarantined qcause s t
  log : recorded t 3 (unitId 9 p) 2 evQuarantine st [w32 qcause, w32 (s.port p).peer]
  alone : noTasks s → (∀ j, j ≠ p → t.port j = s.port j) ∧ changesOnly (logged [.ports]) s t

/-- A port went to a state by itself, recorded with the state's code and the partner; no other port changed. -/
def Sys2Proof.Safety.moved (p : Nat) (st : PortState) (sev : Nat) (res : Status) (s t : State) : Prop :=
  entered p st 0 s t ∧ recorded t 3 (unitId 9 p) sev evPortState res [w32 st.code, w32 (s.port p).peer] ∧
    ∀ j, j ≠ p → t.port j = s.port j

/-- PORT_ENABLE, PORT_DISABLE and READMIT (R357, R360, Table SWEEP.10): the control register takes the write, readmit reads 0; en = 1 trains a DISABLED port that
GLOBAL_G_PORT_DIS has not disabled, readmit = 1 a QUARANTINED one; en = 0 disables; other ports are left as they are, and a reserved
routing code is refused with BAD_ARGUMENT. -/
def Sys2Proof.Safety.PortControl : Prop :=
  (∀ (s : State) (p : Nat) (v : Word) (req : Requester), canonical s → p < 18 → reaches s req (portReg p 0) → bits v 4 2 ≠ 3 →
    ∃ t, exec (.portEnable p v req) s = .next t ∧ t.reg (portReg p 0) = setBits (w32 ((setBits v 0 1 1).toNat % 0x80000)) 2 1 0 ∧
      (∀ off, off ≠ portReg p 0 → off ≠ 0x264 → off ≠ 0x278 → t.reg off = s.reg off) ∧
      ((s.port p).state = .disabled → (s.port p).guardDis = false → moved p .training 0 .ok s t ∧ changesOnly (logged [.regs, .ports]) s t) ∧
      ((s.port p).state = .quarantined → bits v 2 1 = 1 → moved p .training 0 .ok s t ∧ changesOnly (logged [.regs, .ports]) s t) ∧
      ((s.port p).state = .quarantined → bits v 2 1 = 0 → t.ports = s.ports) ∧
      ((s.port p).state = .disabled → (s.port p).guardDis = true → t.ports = s.ports) ∧
      ((s.port p).state ∈ [PortState.down, .training, .attesting, .admitted] → t.ports = s.ports)) ∧
  (∀ (s : State) (p : Nat) (v : Word) (req : Requester), canonical s → p < 18 → reaches s req (portReg p 0) → bits v 4 2 ≠ 3 →
    ∃ t, exec (.portDisable p v req) s = .next t ∧ t.fld (portReg p 0) 0 1 = 0 ∧ t.fld (portReg p 0) 2 1 = 0 ∧
      ((s.port p).state = .disabled → t.ports = s.ports) ∧
      ((s.port p).state ≠ .disabled → entered p .disabled 0 s t ∧
        recorded t 3 (unitId 9 p) 0 evPortState .ok [0, w32 (s.port p).peer] ∧
        (noTasks s → (∀ j, j ≠ p → t.port j = s.port j) ∧ changesOnly (logged [.regs, .ports]) s t))) ∧
  (∀ (s : State) (p : Nat) (v : Word) (req : Requester), canonical s → p < 18 → reaches s req (portReg p 0) → bits v 4 2 ≠ 3 → bits v 0 1 = 1 →
    ∃ t, exec (.readmit p v req) s = .next t ∧ t.fld (portReg p 0) 2 1 = 0 ∧
      ((s.port p).state = .quarantined → moved p .training 0 .ok s t ∧ changesOnly (logged [.regs, .ports]) s t) ∧
      ((s.port p).state ∈ [PortState.down, .training, .attesting, .admitted] → t.ports = s.ports)) ∧
  (∀ (s : State) (p : Nat) (v : Word) (req : Requester), canonical s → p < 18 → reaches s req (portReg p 0) → bits v 4 2 = 3 →
    ∃ t, exec (.portEnable p v req) s = .next t ∧ t.fld 0x118 16 16 = min (s.fld 0x118 16 16 + 1) 0xFFFF ∧
      recorded t (originOf req).1 (originOf req).2 1 evRegWrite .badArgument [w32 (portReg p 0), s.reg (portReg p 0), setBits v 0 1 1] ∧
      (∀ off, off ≠ 0x118 → off ≠ 0x264 → off ≠ 0x278 → t.reg off = s.reg off) ∧ changesOnly (logged [.regs]) s t)

/-- TRAINING_DONE (R348, R477) and the limits of the states TRAINING, DOWN and ATTESTING (R357): with all eight lanes, or one half where allow_x4 is set, the port attests
the partner that its register names; otherwise, or without its attestation key, it does not come up; TRAINING and ATTESTING that
outlast their limits end in DOWN with INTERNAL, and DOWN trains again. -/
def Sys2Proof.Safety.PortTraining : Prop :=
  (∀ (s : State) (p : Nat) (lanes : BitVec 8), canonical s → s.power = .on → (s.port p).state = .training → s.locked (portIsland p) = true →
    s.sec.attReady = true → s.sec.rngStop = false →
    lanes = 0xFF ∨ ((lanes.toNat % 16 = 15 ∨ lanes.toNat / 16 = 15) ∧ s.fld (portReg p 0) 1 1 = 1) →
    ∃ t, exec (.trainingDone p lanes) s = .next t ∧ (t.port p).state = .attesting ∧ (t.port p).since = s.etc ∧
      (t.port p).peer = s.fld (portReg p 0) 6 13 ∧ (t.port p).x4 = decide (lanes ≠ 0xFF) ∧
      (t.port p).upper = decide (lanes ≠ 0xFF ∧ lanes.toNat / 16 = 15) ∧ (t.port p).kid = 0 ∧
      (∀ j, j ≠ p → t.port j = s.port j) ∧ changesOnly [.sent, .ports] s t) ∧
  (∀ (s : State) (p : Nat), canonical s → s.power = .on → (s.port p).state = .training → s.locked (portIsland p) = true →
    s.sec.attReady = false ∨ s.sec.rngStop = true →
    ∃ t, exec (.trainingDone p 0xFF) s = .next t ∧ (t.port p).state = .quarantined ∧ (t.port p).qcause = 1 ∧
      t.fld 0x250 0 16 = min (s.fld 0x250 0 16 + 1) 0xFFFF ∧ (∀ j, j ≠ p → t.port j = s.port j) ∧
      recorded t 3 (unitId 9 p) 2 evQuarantine .authFailed [1, w32 (s.fld (portReg p 0) 6 13)] ∧ changesOnly (logged [.regs, .ports]) s t) ∧
  (∀ (s : State) (p : Nat) (lanes : BitVec 8), canonical s → s.power = .on → (s.port p).state = .training → s.locked (portIsland p) = true →
    (lanes.toNat % 16 ≠ 15 ∧ lanes.toNat / 16 ≠ 15) ∨ (lanes ≠ 0xFF ∧ s.fld (portReg p 0) 1 1 = 0) →
    ∃ t, exec (.trainingDone p lanes) s = .next t ∧ moved p .down 1 .internal s t ∧ changesOnly (logged [.ports]) s t) ∧
  (∀ (s : State) (p : Nat) (lanes : BitVec 8), s.power ≠ .on ∨ (s.port p).state ≠ .training ∨ s.locked (portIsland p) = false →
    exec (.trainingDone p lanes) s = .next s) ∧
  (∀ (s : State) (p : Nat), canonical s → s.power = .on → (s.port p).state = .training → (s.port p).since + 20001 ≤ s.etc →
    ∃ t, exec (.trainingTimeout p) s = .next t ∧ moved p .down 1 .internal s t ∧ changesOnly (logged [.ports]) s t) ∧
  (∀ (s : State) (p : Nat), s.power ≠ .on ∨ (s.port p).state ≠ .training ∨ s.etc < (s.port p).since + 20001 →
    exec (.trainingTimeout p) s = .next s) ∧
  (∀ (s : State) (p : Nat), canonical s → s.power = .on → (s.port p).state = .down → (s.port p).since + 1000001 ≤ s.etc →
    ∃ t, exec (.downRetryExpiry p) s = .next t ∧ moved p .training 0 .ok s t ∧ changesOnly (logged [.ports]) s t) ∧
  (∀ (s : State) (p : Nat), s.power ≠ .on ∨ (s.port p).state ≠ .down ∨ s.etc < (s.port p).since + 1000001 →
    exec (.downRetryExpiry p) s = .next s) ∧
  (∀ (s : State) (p : Nat), canonical s → s.power = .on → (s.port p).state = .attesting → (s.port p).since + 50001 ≤ s.etc →
    ∃ t, exec (.attestTimeout p) s = .next t ∧ moved p .down 1 .internal s t ∧ changesOnly (logged [.ports]) s t) ∧
  (∀ (s : State) (p : Nat), s.power ≠ .on ∨ (s.port p).state ≠ .attesting ∨ s.etc < (s.port p).since + 50001 →
    exec (.attestTimeout p) s = .next s)

/-- Bits [lo + n - 1 : lo] of a flit's header (Table SWEEP.1). -/
def Sys2Proof.Safety.flitBits (flit : List Byte) (lo n : Nat) : Nat := numAt flit 0 8 / 2 ^ lo % 2 ^ n

/-- Port p is up and a flit arrives whose CRC is good and whose reserved bits are 0. -/
def Sys2Proof.Safety.flitGood (s : State) (p : Nat) (flit : List Byte) : Prop :=
  canonical s ∧ s.power = .on ∧ ((s.port p).state = .attesting ∨ (s.port p).state = .admitted) ∧
    crc32 (flit.take 252) = BitVec.ofNat 32 (numAt flit 252 4) ∧ flitBits flit 5 3 = 0 ∧ flitBits flit 43 21 = 0

/-- A flit is asked for again (R349, R351): an idle flit acknowledges the last good one with nak set, and the replay is counted. -/
def Sys2Proof.Safety.nakSent (p : Nat) (s t : State) : Prop :=
  t.tx = .flit p (idleFlit (s.port p).ack true 0 0) :: s.tx ∧ t.port p = { s.port p with lost := true } ∧
    t.fld (portReg p 8) 0 16 = min (s.fld (portReg p 8) 0 16 + 1) 0xFFFF ∧ (∀ j, j ≠ p → t.port j = s.port j) ∧
    changesOnly [.sent, .ports, .regs, .lossCounts] s t

/-- FLIT_RECEIVE (R349, R351, R356, R359): a bad CRC or a gap is asked for again once; a flit in its turn uses a credit that this module granted and stands in its channel's
buffer; an idle flit returns credits and acknowledges; a nak has every unacknowledged flit sent again in order, and the 8th in a row trains the port again; a flit without a credit or with a reserved
bit quarantines the port with BAD_ARGUMENT. -/
def Sys2Proof.Safety.FlitReceive : Prop :=
  (∀ (s : State) (p : Nat) (flit : List Byte), canonical s → s.power = .on → (s.port p).state = .attesting ∨ (s.port p).state = .admitted →
    crc32 (flit.take 252) ≠ BitVec.ofNat 32 (numAt flit 252 4) →
    ((s.port p).lost = true → exec (.flitReceive p flit) s = .next s) ∧
    ((s.port p).lost = false → ∃ t, exec (.flitReceive p flit) s = .next t ∧ nakSent p s t)) ∧
  (∀ (s : State) (p : Nat) (flit : List Byte), flitGood s p flit → flitBits flit 4 1 = 0 →
    2048 ≤ ((s.port p).rxSeq + 4096 - flitBits flit 8 12) % 4096 → (s.port p).lost = false →
    ∃ t, exec (.flitReceive p flit) s = .next t ∧ nakSent p s t) ∧
  (∀ (s : State) (p : Nat) (flit : List Byte), flitGood s p flit → flitBits flit 4 1 = 0 →
    ((s.port p).rxSeq + 4096 - flitBits flit 8 12) % 4096 ≠ 0 →
    ((s.port p).rxSeq + 4096 - flitBits flit 8 12) % 4096 < 2048 ∨ (s.port p).lost = true → exec (.flitReceive p flit) s = .next s) ∧
  (∀ (s : State) (p vc : Nat) (flit : List Byte), flitGood s p flit → flitBits flit 4 1 = 0 → vc = flitBits flit 0 2 →
    ((s.port p).rxSeq + 4096 - flitBits flit 8 12) % 4096 = 0 → 0 < Tab.get 0 (s.port p).granted vc → Tab.wf 0 (s.port p).granted = true →
    (flitBits flit 2 1 = 1 ∨ Tab.get 0 (s.port p).inFrame vc < 15) → flitBits flit 32 1 = 0 →
    ∃ t, exec (.flitReceive p flit) s = .next t ∧ (t.port p).rxSeq = (s.port p).rxSeq + 1 ∧ (t.port p).lost = false ∧
      Tab.get 0 (t.port p).granted vc = Tab.get 0 (s.port p).granted vc - 1 ∧ (t.port p).state = (s.port p).state ∧
      (Tab.wf [] (s.port p).rxBuf = true →
        Tab.get [] (t.port p).rxBuf vc = Tab.get [] (s.port p).rxBuf vc ++ [(flit.drop 8).take 244]) ∧
      (∀ j, j ≠ p → t.port j = s.port j) ∧ changesOnly [.sent, .ports] s t) ∧
  (∀ (s : State) (p vc : Nat) (flit : List Byte), flitGood s p flit → flitBits flit 4 1 = 0 → vc = flitBits flit 0 2 →
    ((s.port p).rxSeq + 4096 - flitBits flit 8 12) % 4096 = 0 → Tab.get 0 (s.port p).granted vc = 0 →
    ∃ t, exec (.flitReceive p flit) s = .next t ∧ quarantined p 2 .badArgument s t) ∧
  (∀ (s : State) (p vc : Nat) (flit : List Byte), flitGood s p flit → flitBits flit 4 1 = 1 → vc = flitBits flit 41 2 → flitBits flit 32 1 = 0 →
    (s.port p).waiting = [] →
    ∃ t, exec (.flitReceive p flit) s = .next t ∧ (t.port p).rxSeq = (s.port p).rxSeq ∧ t.tx = s.tx ∧
      (0 < flitBits flit 33 8 → Tab.get 0 (t.port p).credits vc = Tab.get 0 (s.port p).credits vc + flitBits flit 33 8) ∧
      (flitBits flit 33 8 = 0 → (t.port p).credits = (s.port p).credits) ∧ (∀ j, j ≠ p → t.port j = s.port j) ∧
      changesOnly [.ports] s t) ∧
  (∀ (s : State) (p : Nat) (flit : List Byte), flitGood s p flit → flitBits flit 4 1 = 1 → flitBits flit 33 8 = 0 → flitBits flit 32 1 = 1 →
    (flitBits flit 20 12 + 1) % 4096 = (s.port p).txAck % 4096 → (s.port p).txAck ≠ (s.port p).txSeq →
    ∃ t, exec (.flitReceive p flit) s = .next t ∧
      ((s.port p).replays < 7 → t.tx = ((s.port p).unacked.reverse.map fun q => Sent.flit p q.2) ++ s.tx ∧
        t.port p = { s.port p with replays := (s.port p).replays + 1 } ∧ (∀ j, j ≠ p → t.port j = s.port j) ∧
        changesOnly [.sent, .ports] s t) ∧
      (7 ≤ (s.port p).replays → entered p .training 0 s t ∧ t.fld (portReg p 8) 16 16 = min (s.fld (portReg p 8) 16 16 + 1) 0xFFFF ∧
        recorded t 3 (unitId 9 p) 1 evPortState .internal [2, w32 (s.port p).peer])) ∧
  (∀ (s : State) (p : Nat) (flit : List Byte), canonical s → s.power = .on → (s.port p).state = .attesting ∨ (s.port p).state = .admitted →
    crc32 (flit.take 252) = BitVec.ofNat 32 (numAt flit 252 4) → flitBits flit 5 3 ≠ 0 ∨ flitBits flit 43 21 ≠ 0 →
    ∃ t, exec (.flitReceive p flit) s = .next t ∧ quarantined p 2 .badArgument s t) ∧
  (∀ (s : State) (p : Nat) (flit : List Byte), s.power ≠ .on ∨ ((s.port p).state ≠ .attesting ∧ (s.port p).state ≠ .admitted) →
    exec (.flitReceive p flit) s = .next s)

/-- The frame's IV (R352): the key it is under and its counter. -/
def Sys2Proof.Safety.ivOf (x : Port) (f : Frame) : List Byte :=
  leBytes 4 (if x.newRx = [] then x.kid else x.kid - 1) ++ leBytes 8 (numAt f.header 0x10 8)

/-- The frame's buffer is freed and its credits go back (R356) in an idle flit. -/
def Sys2Proof.Safety.creditsSent (s : State) (p : Nat) (f : Frame) : Sent :=
  .flit p (idleFlit (s.port p).ack false (vcOf (numAt f.header 0 1))
    (min (vcBuffer (vcOf (numAt f.header 0 1))) (Tab.get 0 (s.port p).granted (vcOf (numAt f.header 0 1)) + f.flits) -
      Tab.get 0 (s.port p).granted (vcOf (numAt f.header 0 1))))

/-- FRAME_RECEIVE (R352, R356, R359, R361): a frame of an admitted partner frees its buffer, and its credits go back in an idle flit; with a good tag and the next counter it counts, and one for another module goes on or
is counted as unroutable; a tag that fails is counted, asked for again, and at the limit quarantines the port with AUTH_FAILED; a wrong counter or form
quarantines it with BAD_ARGUMENT. -/
def Sys2Proof.Safety.FrameReceive : Prop :=
  (∀ (s : State) (p : Nat) (f : Frame) (data : List Byte), canonical s → s.power = .on → (s.port p).state = .admitted →
    Config.gcmOpen (s.port p).rxKey (ivOf (s.port p) f) f.header f.body f.tag = some data → numAt f.header 0x10 8 = (s.port p).rxCtr + 1 →
    frameBroken f = false → numAt f.header 4 2 = s.myId ∨ numAt f.header 0 1 = mMgmt →
    ∃ t, exec (.frameReceive p f) s = .next t ∧ (t.port p).rxCtr = (s.port p).rxCtr + 1 ∧
      (t.port p).rxBytes = (s.port p).rxBytes + data.length ∧ (t.port p).state = .admitted ∧ (t.port p).tagFails = (s.port p).tagFails ∧
      (Tab.wf 0 (s.port p).granted = true → ∀ vc, vc = vcOf (numAt f.header 0 1) →
        Tab.get 0 (t.port p).granted vc = min (vcBuffer vc) (Tab.get 0 (s.port p).granted vc + f.flits)) ∧
      t.tx = creditsSent s p f :: s.tx ∧ (∀ j, j ≠ p → t.port j = s.port j) ∧ changesOnly [.sent, .ports] s t) ∧
  (∀ (s : State) (p : Nat) (f : Frame) (data : List Byte), canonical s → s.power = .on → (s.port p).state = .admitted →
    Config.gcmOpen (s.port p).rxKey (ivOf (s.port p) f) f.header f.body f.tag = some data → numAt f.header 0x10 8 = (s.port p).rxCtr + 1 →
    frameBroken f = false → numAt f.header 4 2 ≠ s.myId → numAt f.header 0 1 ≠ mMgmt → s.peerAdmitted (numAt f.header 4 2) = false →
    ∃ t, exec (.frameReceive p f) s = .next t ∧ t.fld 0x0206001C 7 9 = min (s.fld 0x0206001C 7 9 + 1) 0x1FF ∧
      (t.port p).rxCtr = (s.port p).rxCtr + 1 ∧ t.tx = creditsSent s p f :: s.tx ∧ (∀ j, j ≠ p → t.port j = s.port j) ∧
      changesOnly [.sent, .ports, .regs] s t) ∧
  (∀ (s : State) (p : Nat) (f : Frame), canonical s → s.power = .on → (s.port p).state = .admitted →
    Config.gcmOpen (s.port p).rxKey (ivOf (s.port p) f) f.header f.body f.tag = none →
    ∃ t, exec (.frameReceive p f) s = .next t ∧ t.fld (portReg p 0xC) 0 16 = min (s.fld (portReg p 0xC) 0 16 + 1) 0xFFFF ∧
      t.fld (portReg p 8) 0 16 = min (s.fld (portReg p 8) 0 16 + 1) 0xFFFF ∧ t.fld 0x250 0 16 = min (s.fld 0x250 0 16 + 1) 0xFFFF ∧
      ((s.port p).tagFails + 1 < max 1 (s.fld 0x02060008 16 8) → (t.port p).state = .admitted ∧
        (t.port p).tagFails = (s.port p).tagFails + 1 ∧ (t.port p).rxCtr = (s.port p).rxCtr ∧
        (∀ j, j ≠ p → t.port j = s.port j) ∧ changesOnly (logged [.sent, .ports, .regs]) s t) ∧
      (max 1 (s.fld 0x02060008 16 8) ≤ (s.port p).tagFails + 1 → (t.port p).state = .quarantined ∧ (t.port p).qcause = 4 ∧
        recorded t 3 (unitId 9 p) 2 evQuarantine .authFailed [4, w32 (s.port p).peer])) ∧
  (∀ (s : State) (p : Nat) (f : Frame) (data : List Byte), canonical s → s.power = .on → (s.port p).state = .admitted →
    Config.gcmOpen (s.port p).rxKey (ivOf (s.port p) f) f.header f.body f.tag = some data →
    numAt f.header 0x10 8 ≠ (s.port p).rxCtr + 1 ∨ frameBroken f = true →
    ∃ t, exec (.frameReceive p f) s = .next t ∧ (t.port p).state = .quarantined ∧ (t.port p).qcause = 2 ∧
      recorded t 3 (unitId 9 p) 2 evQuarantine .badArgument [2, w32 (s.port p).peer]) ∧
  (∀ (s : State) (p : Nat) (f : Frame), s.power ≠ .on ∨ ((s.port p).state ≠ .attesting ∧ (s.port p).state ≠ .admitted) →
    exec (.frameReceive p f) s = .next s)

/-- Port p attests its partner. -/
def Sys2Proof.Safety.attesting (p : Nat) (s : State) : Prop := canonical s ∧ s.power = .on ∧ (s.port p).state = .attesting

/-- An admission fails (R358, R478): AUTH_FAILED is counted and the port quarantined with cause 1. -/
def Sys2Proof.Safety.notAdmitted (p : Nat) (s t : State) : Prop :=
  entered p .quarantined 1 s t ∧ t.fld 0x250 0 16 = min (s.fld 0x250 0 16 + 1) 0xFFFF ∧
    recorded t 3 (unitId 9 p) 2 evQuarantine .authFailed [1, w32 (s.port p).peer] ∧ ∀ j, j ≠ p → t.port j = s.port j

/-- The CERT bodies of the partner, as they entered the transcript. -/
def Sys2Proof.Safety.theirCerts (x : Port) : List (List Byte) := x.certs.map fun c => mgmtBody 1 (leBytes 1 c.1 ++ c.2)

/-- The messages of admission (R358, R478): the partner's three certificates, in any order, must chain to the image's root; then the side with the lower id sends
KEM_EK, the other answers and signs; each signs the hash of every body so far, the initiator's first; a good signature, policy
and id give the keys, and the partner's FINISH admits it. A check that fails quarantines the port: with AUTH_FAILED, or with
BAD_ARGUMENT for an id. -/
def Obligations.Admission : Prop :=
  (∀ (s : State) (p src i : Nat) (cert : List Byte), attesting p s → i < 3 → (∀ c, c ∈ (s.port p).certs → c.1 ≠ i) → (s.port p).certs.length < 2 →
    ∃ t, exec (.mgmtCert p src i cert) s = .next t ∧
      t.port p = { s.port p with certs := (s.port p).certs ++ [(i, cert)], peer := src } ∧ (∀ j, j ≠ p → t.port j = s.port j) ∧
      changesOnly [.ports] s t) ∧
  (∀ (s : State) (p src i : Nat) (cert : List Byte), attesting p s → 3 ≤ i ∨ (∃ c, c ∈ (s.port p).certs ∧ c.1 = i) →
    ∃ t, exec (.mgmtCert p src i cert) s = .next t ∧ notAdmitted p s t) ∧
  (∀ (s : State) (p src i : Nat) (cert : List Byte) (x : Port), attesting p s → i < 3 → (∀ c, c ∈ (s.port p).certs → c.1 ≠ i) →
    x = { s.port p with certs := (s.port p).certs ++ [(i, cert)], peer := src } → (s.port p).certs.length = 2 →
    ∃ t, exec (.mgmtCert p src i cert) s = .next t ∧
      (s.chainOk x = false → (t.port p).state = .quarantined ∧ (t.port p).qcause = 1) ∧
      (s.chainOk x = true → src = s.myId → (t.port p).state = .quarantined ∧ (t.port p).qcause = 6) ∧
      (s.chainOk x = true → src < s.myId → t.port p = x) ∧
      (s.chainOk x = true → s.myId < src → (t.port p).ekSent = true ∧ (t.port p).nonceUsed = s.sec.draws ∧
        t.sec.draws = s.sec.draws + 1 ∧ (t.port p).transcript = [mgmtBody 2 (Config.kemKey s.sec.draws ++ Config.nonce s.sec.draws)] ∧
        (t.port p).certs = x.certs ∧ (t.port p).state = .attesting) ∧
      (∀ j, j ≠ p → t.port j = s.port j)) ∧
  (∀ (s : State) (p : Nat) (ek nonce : List Byte), attesting p s → 3 ≤ (s.port p).certs.length → s.initiates p = false →
    (s.port p).transcript = [] → s.sec.attReady = true → s.sec.attUsed < 65536 →
    ∃ t, exec (.mgmtKemEk p ek nonce) s = .next t ∧ (t.port p).secret = (Config.kemEncaps s.sec.draws ek).2 ∧
      (t.port p).transcript = [mgmtBody 2 (ek ++ nonce), mgmtBody 3 ((Config.kemEncaps s.sec.draws ek).1 ++ Config.nonce s.sec.draws)] ∧
      (t.port p).digest = shake256 (theirCerts (s.port p) ++ s.myCerts ++ (t.port p).transcript).flatten 32 ∧
      t.sec = { s.sec with draws := s.sec.draws + 1, attUsed := s.sec.attUsed + 1 } ∧ (t.port p).state = .attesting ∧
      (∀ j, j ≠ p → t.port j = s.port j) ∧ changesOnly [.sent, .sec, .ports] s t) ∧
  (∀ (s : State) (p : Nat) (ek nonce : List Byte), attesting p s →
    (s.port p).certs.length < 3 ∨ s.initiates p = true ∨ (s.port p).transcript ≠ [] →
    ∃ t, exec (.mgmtKemEk p ek nonce) s = .next t ∧ notAdmitted p s t) ∧
  (∀ (s : State) (p : Nat) (ct nonce : List Byte), attesting p s → (s.port p).ekSent = true → (s.port p).secret = [] → s.initiates p = true →
    s.sec.attReady = true → s.sec.attUsed < 65536 →
    ∃ t, exec (.mgmtKemCt p ct nonce) s = .next t ∧ (t.port p).secret = Config.kemDecaps (s.port p).nonceUsed ct ∧
      (t.port p).transcript = (s.port p).transcript ++ [mgmtBody 3 (ct ++ nonce)] ∧
      (t.port p).digest = shake256 (s.myCerts ++ theirCerts (s.port p) ++ (t.port p).transcript).flatten 32 ∧
      t.sec = { s.sec with attUsed := s.sec.attUsed + 1 } ∧ (t.port p).state = .attesting ∧ (∀ j, j ≠ p → t.port j = s.port j) ∧
      changesOnly [.sent, .sec, .ports] s t) ∧
  (∀ (s : State) (p : Nat) (ct nonce : List Byte), attesting p s → (s.port p).ekSent = false ∨ (s.port p).secret ≠ [] →
    ∃ t, exec (.mgmtKemCt p ct nonce) s = .next t ∧ notAdmitted p s t) ∧
  (∀ (s : State) (p sender sp : Nat) (sig : List Byte), attesting p s → (s.port p).digest ≠ [] → (s.port p).finSent = false →
    Config.xmssVerify (certSubject ((s.port p).cert 2)) (s.port p).digest sig = true → s.policyOk (s.port p) = true →
    ∃ t, exec (.mgmtSign p sig sender sp) s = .next t ∧
      (sender = (s.port p).peer → s.idOk p sender = true → (t.port p).kid = 1 ∧ (t.port p).finSent = true ∧
        (t.port p).txKey = (s.deriveKeys p (s.port p).secret (s.port p).digest 1).1 ∧
        (t.port p).rxKey = (s.deriveKeys p (s.port p).secret (s.port p).digest 1).2 ∧ (t.port p).state = .attesting ∧
        changesOnly [.sent, .ports] s t) ∧
      (sender ≠ (s.port p).peer ∨ s.idOk p sender = false → entered p .quarantined 6 s t ∧
        recorded t 3 (unitId 9 p) 2 evQuarantine .badArgument [6, w32 (s.port p).peer] ∧ changesOnly (logged [.ports]) s t) ∧
      (∀ j, j ≠ p → t.port j = s.port j)) ∧
  (∀ (s : State) (p sender sp : Nat) (sig : List Byte), attesting p s → (s.port p).digest = [] ∨ (s.port p).finSent = true ∨
    Config.xmssVerify (certSubject ((s.port p).cert 2)) (s.port p).digest sig = false ∨ s.policyOk (s.port p) = false →
    ∃ t, exec (.mgmtSign p sig sender sp) s = .next t ∧ notAdmitted p s t) ∧
  (∀ (s : State) (p : Nat), attesting p s → (s.port p).finSent = true →
    ∃ t, exec (.mgmtFinish p (shake256 (s.port p).digest 32) true) s = .next t ∧ (t.port p).state = .admitted ∧ (t.port p).since = s.etc ∧
      (t.port p).rxCtr = 1 ∧ (t.port p).txKey = (s.port p).txKey ∧ (t.port p).rxKey = (s.port p).rxKey ∧
      recorded t 3 (unitId 9 p) 0 evPortState .ok [4, w32 (s.port p).peer] ∧ (∀ j, j ≠ p → t.port j = s.port j) ∧
      changesOnly (logged [.ports]) s t) ∧
  (∀ (s : State) (p : Nat) (h : List Byte) (good : Bool), attesting p s →
    (s.port p).finSent = false ∨ good = false ∨ h ≠ shake256 (s.port p).digest 32 →
    ∃ t, exec (.mgmtFinish p h good) s = .next t ∧ notAdmitted p s t) ∧
  (∀ (s : State) (c : Instr) (p : Nat), canonical s →
    (∃ a b d, c = .mgmtCert p a b d) ∨ (∃ a b, c = .mgmtKemEk p a b) ∨ (∃ a b, c = .mgmtKemCt p a b) ∨
      (∃ a b d, c = .mgmtSign p a b d) ∨ (∃ a b, c = .mgmtFinish p a b) →
    (s.power = .on → (s.port p).state = .admitted → ∃ t, exec c s = .next t ∧ quarantined p 2 .badArgument s t) ∧
    (s.power ≠ .on ∨ ((s.port p).state ≠ .attesting ∧ (s.port p).state ≠ .admitted) → exec c s = .next s))

/-- Port p is admitted. -/
def Sys2Proof.Safety.admitted (p : Nat) (s : State) : Prop := canonical s ∧ s.power = .on ∧ (s.port p).state = .admitted

/-- The new keys of port p stand (R479): the next key identifier, keys derived from the new secret and the chained hash; the old receive key
stays until the partner's REKEY_DONE. -/
structure Sys2Proof.Safety.keysSwitched (p : Nat) (ss : List Byte) (bodies : List (List Byte)) (s t : State) : Prop where
  digest : (t.port p).digest = shake256 ((s.port p).digest ++ bodies.flatten) 32
  kid : (t.port p).kid = (s.port p).kid + 1 ∧ (t.port p).txCtr = 0
  keys : (t.port p).txKey = (s.deriveKeys p ss (t.port p).digest ((s.port p).kid + 1)).1 ∧
    (t.port p).newRx = (s.deriveKeys p ss (t.port p).digest ((s.port p).kid + 1)).2 ∧ (t.port p).rxKey = (s.port p).rxKey
  state : (t.port p).state = .admitted ∧ (t.port p).ekSent = false
  others : ∀ j, j ≠ p → t.port j = s.port j

/-- Rekeying (R352, R358, R479) and CREDIT_STARVATION (R356): after 2^31 frames on a key the sender asks with REKEY_EK; the partner answers and both switch; where both asked, the
initiator's request stands; a rekey that takes longer than 50 ms, or finds no generator, quarantines the port with cause 5, a
frame that waits for a credit longer than SWEEP_CFG.credit_to with cause 3 and INTERNAL. -/
def Sys2Proof.Safety.Rekeying : Prop :=
  (∀ (s : State) (p : Nat), admitted p s → 2 ^ 31 ≤ (s.port p).txCtr → (s.port p).rekeyAt = none → s.sec.rngStop = false →
    ∃ t, exec (.rekeyStart p) s = .next t ∧ (t.port p).ekSent = true ∧ (t.port p).nonceUsed = s.sec.draws ∧
      (t.port p).rekeyAt = some s.etc ∧ t.sec = { s.sec with draws := s.sec.draws + 1 } ∧
      (t.port p).transcript = [mgmtBody 6 (Config.kemKey s.sec.draws ++ Config.nonce s.sec.draws)] ∧ (t.port p).state = .admitted ∧
      (∀ j, j ≠ p → t.port j = s.port j) ∧ changesOnly [.sent, .sec, .ports] s t) ∧
  (∀ (s : State) (p : Nat), admitted p s → 2 ^ 31 ≤ (s.port p).txCtr → (s.port p).rekeyAt = none → s.sec.rngStop = true →
    ∃ t, exec (.rekeyStart p) s = .next t ∧ quarantined p 5 .authFailed s t) ∧
  (∀ (s : State) (p : Nat), ¬ admitted p s ∨ (s.port p).txCtr < 2 ^ 31 ∨ (s.port p).rekeyAt ≠ none → canonical s →
    exec (.rekeyStart p) s = .next s) ∧
  (∀ (s : State) (p : Nat) (ek nonce : List Byte), admitted p s → (s.port p).ekSent = false ∨ s.initiates p = false → s.sec.rngStop = false →
    ∃ t, exec (.mgmtRekeyEk p ek nonce) s = .next t ∧
      keysSwitched p (Config.kemEncaps s.sec.draws ek).2
        [mgmtBody 6 (ek ++ nonce), mgmtBody 7 ((Config.kemEncaps s.sec.draws ek).1 ++ Config.nonce s.sec.draws)] s t ∧
      t.sec = { s.sec with draws := s.sec.draws + 1 } ∧ changesOnly [.sent, .sec, .ports] s t) ∧
  (∀ (s : State) (p : Nat) (ek nonce : List Byte), admitted p s → (s.port p).ekSent = true → s.initiates p = true →
    exec (.mgmtRekeyEk p ek nonce) s = .next s) ∧
  (∀ (s : State) (p : Nat) (ek nonce : List Byte), admitted p s → (s.port p).ekSent = false ∨ s.initiates p = false → s.sec.rngStop = true →
    ∃ t, exec (.mgmtRekeyEk p ek nonce) s = .next t ∧ quarantined p 5 .authFailed s t) ∧
  (∀ (s : State) (p : Nat) (ct nonce : List Byte), admitted p s → (s.port p).ekSent = true →
    ∃ t, exec (.mgmtRekeyCt p ct nonce) s = .next t ∧ keysSwitched p (Config.kemDecaps (s.port p).nonceUsed ct)
      ((s.port p).transcript ++ [mgmtBody 7 (ct ++ nonce)]) s t ∧ changesOnly [.sent, .ports] s t) ∧
  (∀ (s : State) (p : Nat) (ct nonce : List Byte), (s.port p).ekSent = false ∨ s.power ≠ .on ∨ (s.port p).state ≠ .admitted →
    exec (.mgmtRekeyCt p ct nonce) s = .next s) ∧
  (∀ (s : State) (p : Nat), admitted p s → (s.port p).newRx ≠ [] →
    ∃ t, exec (.mgmtRekeyDone p) s = .next t ∧
      t.port p = { s.port p with rxKey := (s.port p).newRx, rxCtr := 0, newRx := [], rekeyAt := none } ∧
      (∀ j, j ≠ p → t.port j = s.port j) ∧ changesOnly [.ports] s t) ∧
  (∀ (s : State) (p : Nat), (s.port p).newRx = [] ∨ s.power ≠ .on ∨ (s.port p).state ≠ .admitted → exec (.mgmtRekeyDone p) s = .next s) ∧
  (∀ (s : State) (p a : Nat), admitted p s → (s.port p).rekeyAt = some a → a + 50001 ≤ s.etc →
    ∃ t, exec (.rekeyTimeout p) s = .next t ∧ quarantined p 5 .authFailed s t) ∧
  (∀ (s : State) (p : Nat), s.power ≠ .on ∨ (s.port p).state ≠ .admitted ∨ (s.port p).rekeyAt = none ∨
    (∃ a, (s.port p).rekeyAt = some a ∧ s.etc < a + 50001) → exec (.rekeyTimeout p) s = .next s) ∧
  (∀ (s : State) (p vc : Nat), admitted p s → s.fld 0x02060008 0 16 ≠ 0 → (∃ w, w ∈ (s.port p).waiting ∧ w.1 = vc) →
    Tab.get 0 (s.port p).credits vc = 0 → Tab.get 0 (s.port p).creditAt vc + s.fld 0x02060008 0 16 + 1 ≤ s.etc →
    ∃ t, exec (.creditStarvation p vc) s = .next t ∧ quarantined p 3 .internal s t) ∧
  (∀ (s : State) (p vc : Nat), s.power ≠ .on ∨ (s.port p).state ≠ .admitted ∨ s.fld 0x02060008 0 16 = 0 ∨
    (∀ w, w ∈ (s.port p).waiting → w.1 ≠ vc) ∨ Tab.get 0 (s.port p).credits vc ≠ 0 ∨
    s.etc < Tab.get 0 (s.port p).creditAt vc + s.fld 0x02060008 0 16 + 1 → exec (.creditStarvation p vc) s = .next s)

/-- Quotes and link telemetry between peers (R475, R477): a QUOTE_REQ costs a signature and is answered, or refused, counted and logged with AUTH_FAILED when none is left; QUOTE and LINKSTAT
that arrive change nothing; LINKSTAT is sent every 1,000,000 µs. -/
def Sys2Proof.Safety.PeerManagement : Prop :=
  (∀ (s : State) (p : Nat) (nonce : List Byte), admitted p s → s.sec.attReady = true → s.sec.attUsed < 65536 →
    ∃ t, exec (.mgmtQuoteReq p nonce) s = .next t ∧ t.sec = { s.sec with attUsed := s.sec.attUsed + 1 } ∧ (t.port p).state = .admitted ∧
      (t.port p).txBytes = (s.port p).txBytes +
        (mgmtBody 10 (s.quoteBody nonce ++ Config.xmssSign s.nv.epoch s.sec.attUsed (s.quoteBody nonce))).length ∧
      (∀ j, j ≠ p → t.port j = s.port j) ∧ changesOnly [.sent, .sec, .ports] s t) ∧
  (∀ (s : State) (p : Nat) (nonce : List Byte), admitted p s → s.sec.attReady = false ∨ 65536 ≤ s.sec.attUsed →
    ∃ t, exec (.mgmtQuoteReq p nonce) s = .next t ∧ t.fld 0x250 0 16 = min (s.fld 0x250 0 16 + 1) 0xFFFF ∧
      t.fld 0x250 16 16 = min (s.fld 0x250 16 16 + 1) 0xFFFF ∧ recorded t 3 (unitId 13 0) 2 evSecFail .authFailed [5] ∧
      (∀ off, off ≠ 0x250 → off ≠ 0x264 → off ≠ 0x278 → t.reg off = s.reg off) ∧ changesOnly (logged [.regs]) s t) ∧
  (∀ (s : State) (p : Nat) (nonce : List Byte), s.power ≠ .on ∨ (s.port p).state ≠ .admitted → exec (.mgmtQuoteReq p nonce) s = .next s) ∧
  (∀ (s : State) (p : Nat) (q : List Byte) (a b : Word), exec (.mgmtQuote p q) s = .next s ∧ exec (.mgmtLinkstat p a b) s = .next s) ∧
  (∀ (s : State) (p : Nat), admitted p s → (s.port p).statAt + 1000000 ≤ s.etc →
    ∃ t, exec (.linkstatSend p) s = .next t ∧ (t.port p).statAt = s.etc ∧ (t.port p).txBytes = (s.port p).txBytes + 12 ∧
      (t.port p).state = .admitted ∧ (∀ j, j ≠ p → t.port j = s.port j) ∧ changesOnly [.sent, .ports] s t) ∧
  (∀ (s : State) (p : Nat), s.power ≠ .on ∨ (s.port p).state ≠ .admitted ∨ s.etc < (s.port p).statAt + 1000000 →
    exec (.linkstatSend p) s = .next s)

/-- A message of this module can leave at once (R351, R356, R361): its destination is admitted, nothing waits on the port, every flit has a
credit and a place in the replay window, and the key has a counter left. -/
structure Sys2Proof.Safety.canLeave (s : State) (m : OutMsg) : Prop where
  way : s.peerAdmitted m.dst = true
  idle : (s.port (s.routeOf m.dst)).waiting = []
  credits : flitsOf m.data.length ≤ Tab.get 0 (s.port (s.routeOf m.dst)).credits (vcOf m.typ)
  window : (s.port (s.routeOf m.dst)).txSeq - (s.port (s.routeOf m.dst)).txAck + flitsOf m.data.length ≤ 2048
  key : (s.port (s.routeOf m.dst)).txCtr < 2 ^ 32
  canon : Tab.wf 0 (s.port (s.routeOf m.dst)).credits = true

/-- A message has left as the newest output: a frame with the next counter of its key, which used a credit for each flit, and under it its
flits in order, laid out and numbered (R349, R350, R352, R356, Tables SWEEP.1, SWEEP.2). A message without a way is counted as unroutable. -/
structure Sys2Proof.Safety.leaves (m : OutMsg) (s t : State) : Prop where
  frame : canLeave s m → t.tx.head? = some (Sent.frame (s.routeOf m.dst) m.typ m.dst
    (m.header s.myId ((s.port (s.routeOf m.dst)).txCtr + 1)) m.data)
  flits : ∀ (p : Nat) (x : Port), canLeave s m → p = s.routeOf m.dst → x = s.port p → Tab.get [] x.underway (vcOf m.typ) = [] →
    t.tx.tail.take (flitsOf m.data.length) = (x.layout (vcOf m.typ) (x.bodies (m.header s.myId (x.txCtr + 1)) m.data)
      ((List.range (flitsOf m.data.length)).map (x.txSeq + ·))).reverse.map fun q => Sent.flit p q.2
  credit : canLeave s m → Tab.get 0 (t.port (s.routeOf m.dst)).credits (vcOf m.typ) + flitsOf m.data.length =
    Tab.get 0 (s.port (s.routeOf m.dst)).credits (vcOf m.typ)
  lost : s.peerAdmitted m.dst = false → t.fld 0x0206001C 7 9 = min (s.fld 0x0206001C 7 9 + 1) 0x1FF ∧ t.ports = s.ports
  others : ∀ j, j ≠ s.routeOf m.dst → t.port j = s.port j

/-- RD_REQ and WR_REQ (R359, R362, R363, R364): a range that one exposure entry permits the requester is served from the stacks, the answer
carries its tag and, for a read, its bytes; a write changes the bytes it names and no other; anything else is answered BAD_ARGUMENT, counted at the port and
logged; a length that breaks protocol quarantines the port; a port that is not ADMITTED discards it. -/
def Sys2Proof.Safety.PeerRequests : Prop :=
  (∀ (s : State) (p : Nat) (m : Msg), admitted p s → 0 < m.bytes → m.bytes ≤ 3584 → s.permitted m.src m.da m.bytes false = true →
    ∃ t, exec (.rdReq p m) s = .next t ∧
      leaves ⟨mRdRsp, b2n (s.duneReadBad m.da m.bytes), m.src, m.da, m.tag.toNat, 0, 0, s.load m.da m.bytes⟩ s t ∧
      changesOnly [.regs, .sent, .ports] s t) ∧
  (∀ (s : State) (p : Nat) (m : Msg), admitted p s → 0 < m.bytes → m.bytes ≤ 3584 → s.permitted m.src m.da m.bytes false = false →
    ∃ t, exec (.rdReq p m) s = .next t ∧ leaves ⟨mRdRsp, 0, m.src, m.da, m.tag.toNat, Status.badArgument.code, 0, []⟩ s t ∧
      t.fld (portReg p 0xC) 16 16 = min (s.fld (portReg p 0xC) 16 16 + 1) 0xFFFF ∧
      recorded t 4 (p + m.src * 32) 1 evVerdict .badArgument [] ∧ changesOnly (logged [.regs, .ports]) s t) ∧
  (∀ (s : State) (p : Nat) (m : Msg), admitted p s → m.bytes = 0 ∨ 3584 < m.bytes →
    ∃ t, exec (.rdReq p m) s = .next t ∧ quarantined p 2 .badArgument s t) ∧
  (∀ (s : State) (p : Nat) (m : Msg), admitted p s → m.masked = false → s.permitted m.src m.da m.data.length true = true →
    (∀ a, m.da ≤ a → a < m.da + m.data.length → s.served a = true) →
    ∃ t, exec (.wrReq p m) s = .next t ∧ t.load m.da m.data.length = m.data ∧
      (∀ a, a < m.da ∨ m.da + m.data.length ≤ a → t.byte a = s.byte a) ∧
      (m.poisoned = true → ∀ w, m.da / 32 * 4 ≤ w → w * 8 < m.da + m.data.length → 0 < m.data.length → w ∈ t.poison) ∧
      changesOnly (logged [.mem, .poison, .dunes, .regs, .ports]) s t) ∧
  (∀ (s : State) (p n : Nat) (m : Msg), admitted p s → m.masked = true → m.data.length = n / 8 + n → n % 32 = 0 → n ≤ 3168 →
    s.permitted m.src m.da n true = true → (∀ a, m.da ≤ a → a < m.da + n → s.served a = true) →
    ∃ t, exec (.wrReq p m) s = .next t ∧
      (∀ i, i < n → t.byte (m.da + i) = if (m.data.getD (i / 8) 0).getLsbD (i % 8) then m.data.getD (n / 8 + i) 0 else s.byte (m.da + i)) ∧
      (∀ a, a < m.da ∨ m.da + n ≤ a → t.byte a = s.byte a) ∧ changesOnly (logged [.mem, .poison, .dunes, .regs, .ports]) s t) ∧
  (∀ (s : State) (p : Nat) (m : Msg), admitted p s → msgBroken m = false → s.permitted m.src m.da (msgSpan m) true = false →
    ∃ t, exec (.wrReq p m) s = .next t ∧ leaves ⟨mWrAck, 0, m.src, m.da, m.tag.toNat, Status.badArgument.code, 0, []⟩ s t ∧
      t.fld (portReg p 0xC) 16 16 = min (s.fld (portReg p 0xC) 16 16 + 1) 0xFFFF ∧
      recorded t 4 (p + m.src * 32) 1 evVerdict .badArgument [] ∧ changesOnly (logged [.regs, .ports]) s t) ∧
  (∀ (s : State) (p : Nat) (m : Msg), admitted p s → m.masked = true → m.data.length % 36 ≠ 0 ∨ 3564 < m.data.length →
    ∃ t, exec (.wrReq p m) s = .next t ∧ quarantined p 2 .badArgument s t) ∧
  (∀ (s : State) (p : Nat) (m : Msg), s.power ≠ .on ∨ (s.port p).state ≠ .admitted →
    exec (.rdReq p m) s = .next s ∧ exec (.wrReq p m) s = .next s)

/-- A request of this module waits for an answer that carries its tag, its kind and the module it went to. -/
def Sys2Proof.Safety.awaits (p : Nat) (m : Msg) (write : Bool) (q : PeerReq) (s : State) : Prop :=
  admitted p s ∧ s.asked m write = some q

/-- A task that holds no claim and no pin, in a settled machine. -/
def Sys2Proof.Safety.plainTask (id : Nat) (s : State) : Prop :=
  settled s ∧ (s.task id).claims = [] ∧ (s.task id).claimant = none ∧ (s.task id).pins = [] ∧ (s.task id).recompute = none

/-- Task id ended with a status. -/
def Sys2Proof.Safety.endedWith (id : Nat) (st : Status) (t : State) : Prop := (t.task id).state = .done ∧ (t.task id).status = st

/-- RD_RSP, WR_ACK and PEER_TIMEOUT (R102, R363, R364): an answer to no request changes nothing; good data enter the task's operands; poisoned data end the task with INTERNAL, a
refusal ends it with BAD_ARGUMENT, logged, and no answer within SWEEP_PEER_TO with PEER_ABSENT; for a run that has ended the answer only frees
its transfer (R103). -/
def Sys2Proof.Safety.PeerAnswers : Prop :=
  (∀ (s : State) (p : Nat) (m : Msg) (write : Bool), s.power ≠ .on ∨ (s.port p).state ≠ .admitted ∨ s.asked m write = none →
    (write = false → exec (.rdRsp p m) s = .next s) ∧ (write = true → exec (.wrAck p m) s = .next s)) ∧
  (∀ (s u v : State) (p : Nat) (m : Msg) (q : PeerReq), awaits p m false q s → m.status = 0 → u = s.dropPeer q.tag →
    v = u.setTask q.task ((s.task q.task).takePeer (cellsAt q.da m.data)) →
    (m.poisoned = false → m.data.length = q.len → (s.task q.task).state = .running →
      exec (.rdRsp p m) s = .next ((v.settleReads q.task).advance q.task)) ∧
    (∀ w, m.poisoned = false → m.data.length = q.len → (s.task q.task).state = .suspended w →
      exec (.rdRsp p m) s = .next (v.settleReads q.task)) ∧
    (∀ h, (s.task q.task).state = .ended h → exec (.rdRsp p m) s = .next (u.settleReads q.task))) ∧
  (∀ (s : State) (p : Nat) (m : Msg) (q : PeerReq) (x : Xfer), awaits p m false q s → m.status = 0 → m.poisoned = false → m.data.length = q.len →
    (∃ w, (s.task q.task).state = .suspended w) → (s.scull ((s.task q.task).scull.getD 0)).task = none →
    (s.task q.task).flying = [x] → x.kind = .load → regionOf x.da = some .peer → (∀ a, q.da ≤ a → a < q.da + q.len → x.covers a = true) →
    ∃ t, exec (.rdRsp p m) s = .next t ∧ t.peers = s.peers.filter (fun y => y.tag != q.tag) ∧
      t.task q.task = { s.task q.task with
        image := cellsAt q.da m.data ++ (s.task q.task).image
        flying := if (s.dropPeer q.tag).readsLeft q.task x then [x] else [] } ∧
      (∀ j, j ≠ q.task → t.task j = s.task j) ∧ changesOnly [.tasks, .peers] s t) ∧
  (∀ (s : State) (p : Nat) (m : Msg) (q : PeerReq), awaits p m false q s → plainTask q.task s →
    (s.task q.task).state = .running ∨ (∃ w, (s.task q.task).state = .suspended w) →
    ∃ t, exec (.rdRsp p m) s = .next t ∧
      (m.status ≠ 0 → endedWith q.task .badArgument t ∧ recorded t 4 (p + m.src * 32) 2 evVerdict .badArgument []) ∧
      (m.status = 0 → m.poisoned = true ∨ m.data.length ≠ q.len → endedWith q.task .internal t) ∧
      (m.status ≠ 0 ∨ m.poisoned = true ∨ m.data.length ≠ q.len → t.peers = s.peers.filter (fun x => x.tag != q.tag))) ∧
  (∀ (s : State) (p : Nat) (m : Msg) (q : PeerReq), awaits p m true q s → m.status = 0 →
    exec (.wrAck p m) s = .next { s with peers := s.peers.filter (fun x => x.tag != q.tag) }) ∧
  (∀ (s : State) (p : Nat) (m : Msg) (q : PeerReq), awaits p m true q s → plainTask q.task s → m.status ≠ 0 → (s.task q.task).state = .committed →
    ∃ t, exec (.wrAck p m) s = .next t ∧ endedWith q.task .badArgument t ∧ recorded t 4 (p + m.src * 32) 2 evVerdict .badArgument [] ∧
      t.peers = s.peers.filter (fun x => x.tag != q.tag)) ∧
  (∀ (s : State) (tag : Nat) (q : PeerReq), canonical s → plainTask q.task s → s.peers.find? (fun x => x.tag == tag) = some q → s.power = .on →
    s.reg 0x0206000C ≠ 0 → q.at_ + (s.reg 0x0206000C).toNat + 1 ≤ s.etc →
    (s.task q.task).state ∈ [TaskState.running, .committed] ∨ (∃ w, (s.task q.task).state = .suspended w) →
    ∃ t, exec (.peerTimeout tag) s = .next t ∧ endedWith q.task .peerAbsent t ∧ t.peers = s.peers.filter (fun x => x.task != q.task)) ∧
  (∀ (s : State) (tag : Nat) (q : PeerReq), s.peers.find? (fun x => x.tag == tag) = some q → s.power = .on →
    s.reg 0x0206000C ≠ 0 → q.at_ + (s.reg 0x0206000C).toNat + 1 ≤ s.etc → (∃ h, (s.task q.task).state = .ended h) →
    exec (.peerTimeout tag) s = .next ({ s with peers := s.peers.filter fun x => x.task != q.task }.settleReads q.task)) ∧
  (∀ (s : State) (tag : Nat), s.power ≠ .on ∨ s.reg 0x0206000C = 0 ∨
    (∀ q, q ∈ s.peers → q.tag = tag → s.etc < q.at_ + (s.reg 0x0206000C).toNat + 1) → exec (.peerTimeout tag) s = .next s)

/-- Message m of a collective came over an ADMITTED port from the parent or a child of the running epoch k, whose engine state is c. -/
structure Sys2Proof.Safety.inEpoch (p : Nat) (m : Msg) (k : Nat) (c : Coll) (s : State) : Prop where
  port : admitted p s
  tables : Tab.wf Coll.none s.colls.running = true ∧ Tab.wf ((0 : Word), Status.ok) s.colls.ended = true ∧ Tab.wf 0 s.rigger = true
  key : k = collKey m.group m.epoch ∧ c = s.coll k
  runs : s.collRuns k = true
  tree : s.fromTree m.group m.epoch m.src = true
  sane : Tab.wf 0 c.arrivals = true ∧ Tab.wf 0 c.sums = true ∧ Tab.wf 0 c.result = true ∧ Tab.wf false c.written = true

/-- A message of the epoch that c holds. -/
def Sys2Proof.Safety.fromHere (c : Coll) (typ dst rank : Nat) (tag : Nat) (st : Status) (data : List Byte) : OutMsg :=
  collMsg typ dst c.group rank c.epoch tag st false data

/-- Only what the epoch of key k holds has changed. -/
def Sys2Proof.Safety.onlyColl (k : Nat) (s t : State) : Prop := (∀ j, j ≠ k → t.coll j = s.coll j) ∧ changesOnly [.colls] s t

/-- The epoch that c holds is over at this member (R369 step 7, R370, R372, R373, R374): it runs no more, its verdict is the group's last ended one, its slots are
free, the COLLECT that waits for it ends with the verdict, an only child gets FINAL where it is due; a verdict but OK writes no
result, OK without conversion writes the result at dst. -/
structure Sys2Proof.Safety.epochOver (k : Nat) (c : Coll) (st : Status) (final : Bool) (s t : State) : Prop where
  gone : t.collRuns k = false ∧ ∀ j, j ≠ k → t.coll j = s.coll j
  ended : newer c.epoch (Tab.get ((0 : Word), Status.ok) s.colls.ended c.group).1 = true →
    Tab.get ((0 : Word), Status.ok) t.colls.ended c.group = (c.epoch, st)
  slots : Tab.get 0 t.rigger c.die = Tab.get 0 s.rigger c.die - c.claim
  counts : t.fld 0x02060020 0 16 = (if st = .collTimeout then min (s.fld 0x02060020 0 16 + 1) 0xFFFF else s.fld 0x02060020 0 16) ∧
    t.fld 0x02060020 16 16 = (if st = .collPoisoned then min (s.fld 0x02060020 16 16 + 1) 0xFFFF else s.fld 0x02060020 16 16)
  task : plainTask c.task s → (∃ w, (s.task c.task).state = .suspended (.collective w)) → endedWith c.task st t
  log : plainTask c.task s → st ≠ .ok → recorded t 3 (unitId 8 c.die) 2 evVerdict st [w32 c.group, c.epoch]
  down : ∀ x, c.children = [x] → final = true → canLeave s (fromHere c mFinal x c.rank 0 st []) →
    ∃ q r n, t.tx = q ++ Sent.frame (s.routeOf x) mFinal x ((fromHere c mFinal x c.rank 0 st []).header s.myId n) [] :: (r ++ s.tx)
  silent : st ≠ .ok → plainTask c.task s → (s.task c.task).ring = none → t.mem = s.mem
  out : st = .ok → c.op = 2 ∨ (c.op = 3 ∧ c.members ≠ 0) ∨ (c.fmt = 3 ∧ (c.op ≠ 1 ∨ c.root = true)) → plainTask c.task s → (s.task c.task).ring = none →
    (∀ a, a < duneEnd → s.served a = true) → (s.task c.task).clDst + c.count * c.members * 4 + c.count * 4 ≤ duneEnd →
    t.load (s.task c.task).clDst (fmtBits c.fmt / 8 * (c.count * if c.op = 3 then c.members else 1)) =
      (List.range (c.count * if c.op = 3 then c.members else 1)).flatMap fun i => leBytes (fmtBits c.fmt / 8) (Tab.get (0 : Word) c.result i).toNat

/-- START and a contribution of another member (R368, R369, R370, R371, R376): START opens the epoch at a member whose COLLECT waits for it,
whose guard it arms; a leaf sends up its own elements; with no COLLECT the START is held, or late. FINAL with no COLLECT is recorded. A message that does not
come from the tree quarantines its port; one for an epoch that does not run here is counted late. -/
def Obligations.CollectiveMembers : Prop :=
  (∀ (s : State) (p k : Nat) (m : Msg) (c : Coll), inEpoch p m k c s → c.opened = false → c.root = false →
    ∃ t, exec (.collStart p m) s = .next t ∧ t.collRuns k = true ∧ (t.coll k).opened = true ∧
      (t.coll k).guardAt = some (s.etc + 2 * c.timeout + (c.timeout + 499) / 500 + (s.reg 0x02060010).toNat) ∧
      (t.coll k).task = c.task ∧ (t.coll k).epoch = c.epoch ∧ (∀ j, j ≠ k → t.coll j = s.coll j) ∧
      changesOnly (logged [.fresh, .regs, .mem, .poison, .dunes, .ports, .rigger, .colls]) s t) ∧
  (∀ (s : State) (p k : Nat) (m : Msg) (c : Coll), inEpoch p m k c s → c.opened = false → c.root = false → c.children = [] → c.op = 0 →
    c.arrivals = [] → c.sums = [] → c.written = [] → c.poison = false → 0 < c.count → c.count ≤ 896 → (s.task c.task).clRig = false →
    (s.task c.task).clWork = 0 → c.claim = 0 → s.readBad (s.task c.task).clSrc (s.task c.task).clSrcBytes = false →
    ∃ t, exec (.collStart p m) s = .next t ∧
      leaves (fromHere c mChunkUp c.parent c.rank 0 .ok (c.bytesOf (s.ownWords c (s.task c.task).clSrc))) s t) ∧
  (∀ (s : State) (p k : Nat) (m : Msg) (c : Coll), inEpoch p m k c s → c.opened = true → exec (.collStart p m) s = .next s) ∧
  (∀ (s : State) (p : Nat) (m : Msg), admitted p s → s.fromTree m.group m.epoch m.src = true → s.collRuns (collKey m.group m.epoch) = false →
    newer m.epoch (Tab.get ((0 : Word), Status.ok) s.colls.ended m.group).1 = true →
    (∃ t, exec (.collStart p m) s = .next t ∧ Tab.get none t.colls.held m.group = some (m.epoch, s.etc) ∧ t.colls.running = s.colls.running ∧
      t.colls.ended = s.colls.ended ∧ changesOnly [.colls] s t) ∧
    (Tab.wf ((0 : Word), Status.ok) s.colls.ended = true → Tab.wf none s.colls.held = true → s.grpChildren m.group = [] →
      ∃ t, exec (.collFinal p m) s = .next t ∧
        Tab.get ((0 : Word), Status.ok) t.colls.ended m.group = (m.epoch, statusOfCode m.status.toNat) ∧
        (∀ h, Tab.get none s.colls.held m.group = some h → h.1 = m.epoch → Tab.get none t.colls.held m.group = none) ∧
        (∀ h, Tab.get none s.colls.held m.group = some h → h.1 ≠ m.epoch → t.colls.held = s.colls.held) ∧
        t.colls.running = s.colls.running ∧ changesOnly [.colls] s t)) ∧
  (∀ (s : State) (p x : Nat) (m : Msg), admitted p s → s.fromTree m.group m.epoch m.src = true → s.collRuns (collKey m.group m.epoch) = false →
    newer m.epoch (Tab.get ((0 : Word), Status.ok) s.colls.ended m.group).1 = true → s.grpChildren m.group = [x] →
    ∃ t, exec (.collFinal p m) s = .next t ∧
      leaves (collMsg mFinal x m.group (s.grpRank m.group) m.epoch 0 (statusOfCode m.status.toNat) false []) s t) ∧
  (∀ (s : State) (p : Nat) (m : Msg) (c : Instr), admitted p s → s.fromTree m.group m.epoch m.src = false →
    c ∈ [Instr.collStart p m, .chunkUp p m, .chunkDown p m, .ackUp p m, .collNote p m, .collFinal p m, .flagUp p m, .flagDown p m] →
    ∃ t, exec c s = .next t ∧ quarantined p 2 .badArgument s t) ∧
  (∀ (s : State) (p : Nat) (m : Msg) (c : Instr), admitted p s → s.fromTree m.group m.epoch m.src = true →
    s.collRuns (collKey m.group m.epoch) = false →
    c ∈ [Instr.chunkUp p m, .chunkDown p m, .ackUp p m, .collNote p m, .flagUp p m, .flagDown p m] ∨
      (newer m.epoch (Tab.get ((0 : Word), Status.ok) s.colls.ended m.group).1 = false ∧ c ∈ [Instr.collStart p m, .collFinal p m]) →
    ∃ t, exec c s = .next t ∧ t.fld 0x0206001C 16 16 = min (s.fld 0x0206001C 16 16 + 1) 0xFFFF ∧
      (∀ off, off ≠ 0x0206001C → t.reg off = s.reg off) ∧ changesOnly [.regs] s t) ∧
  (∀ (s : State) (p : Nat) (m : Msg) (c : Instr), (s.port p).state ≠ .admitted →
    c ∈ [Instr.collStart p m, .chunkUp p m, .chunkDown p m, .ackUp p m, .collNote p m, .collFinal p m, .flagUp p m, .flagDown p m] →
    exec c s = .next s)

/-- Contributions and results (R52, R80, R369 steps 4 and 5, R371, R374, R375, R378): a contribution combines with the sums in the order of arrival, the first standing as it is, with the flags of every
combination kept for the record; the last makes an interior
member send the sums up; the result goes to the children and is kept for dst, and a leaf that has all of it acknowledges; a chunk
that arrives at the root in phase 2 is late; a poisoned one decides phase 1 at the root, and is noted toward it elsewhere. -/
def Obligations.CollectiveData : Prop :=
  (∀ (s : State) (p k n off w : Nat) (m : Msg) (c : Coll) (e : Instr), inEpoch p m k c s → m.poisoned = false → c.root = false ∨ c.phase = 1 →
    (e = .chunkUp p m ∧ c.op ≤ 1 ∧ (c.claim ≠ 0 ∨ (s.task c.task).clWork = 0) ∧ off = m.tag.toNat) ∨ (e = .flagUp p m ∧ c.op = 4 ∧ off = 0) →
    n = Tab.get 0 c.arrivals off → n < c.children.length → w = m.data.length / 4 →
    ∃ t, exec e s = .next t ∧ t.coll k = { c with arrivals := Tab.put 0 c.arrivals off (n + 1), sums := (t.coll k).sums, exc := (t.coll k).exc } ∧
      (n = 0 ∨ c.fmt = 3 → (t.coll k).exc = c.exc) ∧
      (0 < n → w = 1 → (t.coll k).exc = c.exc |||
        combineExc (c.fmt == 3) c.red (Tab.get 0 c.sums off) (w32 (leNat 4 m.data))) ∧
      (∀ i, i < w → Tab.get 0 (t.coll k).sums (off + i) =
        if n = 0 then w32 (leNat 4 (m.data.drop (i * 4)))
        else combine (c.fmt == 3) c.red (Tab.get 0 c.sums (off + i)) (w32 (leNat 4 (m.data.drop (i * 4))))) ∧
      (∀ j, j < off ∨ off + w ≤ j → Tab.get 0 (t.coll k).sums j = Tab.get 0 c.sums j) ∧ onlyColl k s t) ∧
  (∀ (s : State) (p k n off w : Nat) (m : Msg) (c : Coll) (e : Instr) (typ : Nat), inEpoch p m k c s → m.poisoned = false → c.root = false → c.poison = false →
    (e = .chunkUp p m ∧ c.op ≤ 1 ∧ (c.claim ≠ 0 ∨ (s.task c.task).clWork = 0) ∧ off = m.tag.toNat ∧ typ = mChunkUp) ∨
      (e = .flagUp p m ∧ c.op = 4 ∧ off = 0 ∧ typ = mFlagUp) →
    n = Tab.get 0 c.arrivals off → n = c.children.length → w = m.data.length / 4 →
    ∃ t, exec e s = .next t ∧ (t.coll k).after_ = true ∧ Tab.get 0 (t.coll k).arrivals off = n + 1 ∧
      leaves (fromHere c typ c.parent m.rank off .ok ((List.range w).flatMap fun i => leBytes 4 (Tab.get (0 : Word) (t.coll k).sums (off + i)).toNat)) s t ∧
      (∀ j, j ≠ k → t.coll j = s.coll j) ∧ changesOnly [.colls, .sent, .ports, .regs] s t) ∧
  (∀ (s : State) (p k : Nat) (m : Msg) (c : Coll) (e : Instr), inEpoch p m k c s → m.poisoned = false → c.root = true → c.phase ≠ 1 →
    e ∈ [Instr.chunkUp p m, .flagUp p m] →
    ∃ t, exec e s = .next t ∧ t.fld 0x0206001C 16 16 = min (s.fld 0x0206001C 16 16 + 1) 0xFFFF ∧
      (∀ off, off ≠ 0x0206001C → t.reg off = s.reg off) ∧ changesOnly [.regs] s t) ∧
  (∀ (s : State) (p k : Nat) (m : Msg) (c : Coll) (e : Instr), inEpoch p m k c s → m.poisoned = true → c.poison = false → c.root = true → c.phase = 1 →
    e ∈ [Instr.chunkUp p m, .flagUp p m] → ∃ t, exec e s = .next t ∧ epochOver k c .collPoisoned true s t) ∧
  (∀ (s : State) (p k : Nat) (m : Msg) (c : Coll), inEpoch p m k c s → m.poisoned = true → c.poison = false → c.root = false → c.op = 0 →
    c.claim ≠ 0 → Tab.get 0 c.arrivals m.tag.toNat < c.children.length →
    ∃ t, exec (.chunkUp p m) s = .next t ∧ (t.coll k).poison = true ∧ leaves (fromHere c mNote c.parent c.rank 0 .collPoisoned []) s t ∧
      changesOnly [.colls, .sent, .ports, .regs] s t) ∧
  (∀ (s : State) (p k : Nat) (m : Msg) (c : Coll), inEpoch p m k c s → m.poisoned = false → c.op = 0 ∨ c.op = 2 → c.root = false → c.children = [] →
    c.opened = true →
    ∃ t, exec (.chunkDown p m) s = .next t ∧
      (∀ i, i < m.data.length / c.size →
        Tab.get 0 (t.coll k).result (m.tag.toNat + i) = w32 (leNat c.size (m.data.drop (i * c.size)))) ∧
      (∀ j, j < m.tag.toNat ∨ m.tag.toNat + m.data.length / c.size ≤ j → Tab.get 0 (t.coll k).result j = Tab.get 0 c.result j) ∧
      (t.coll k).written = Tab.put false c.written m.tag.toNat true ∧ (∀ j, j ≠ k → t.coll j = s.coll j) ∧
      ((t.coll k).written.length ≠ c.chunks.length → onlyColl k s t ∧ (t.coll k).sentAck = c.sentAck) ∧
      ((t.coll k).written.length = c.chunks.length → c.sentAck = false → c.acks = [] →
        leaves (fromHere c mAckUp c.parent c.rank 0 .ok []) s t ∧ (t.coll k).sentAck = true)) ∧
  (∀ (s : State) (p k x : Nat) (m : Msg) (c : Coll), inEpoch p m k c s → m.poisoned = false → c.op = 0 ∨ c.op = 2 → c.children = [x] → c.acks = [] →
    c.poison = false →
    ∃ t, exec (.chunkDown p m) s = .next t ∧ leaves (fromHere c mChunkDown x m.rank m.tag.toNat .ok (c.bytesOf (c.wordsOf m.data))) s t ∧
      changesOnly [.colls, .sent, .ports, .regs] s t)

/-- The verdict of an epoch (R369 steps 6 and 7, R374, R375, R376, R378, Table SWEEP.8): the last acknowledgement makes an interior member acknowledge and the root decide OK, or the first note of phase 2; a NOTE
goes toward the root, where it decides phase 1; FINAL or FLAG_DOWN ends the epoch; the root's timer and the member's guard end it with
COLL_TIMEOUT. -/
def Obligations.CollectiveVerdict : Prop :=
  (∀ (s : State) (p k : Nat) (m : Msg) (c : Coll), inEpoch p m k c s → m.src ∉ c.acks → c.op ≠ 4 →
    c.full = false ∨ c.acks.length + 1 < c.children.length ∨ (c.root = false ∧ c.sentAck = true) ∨ (c.root = true ∧ c.phase ≠ 2) →
    ∃ t, exec (.ackUp p m) s = .next t ∧ t.coll k = { c with acks := c.acks ++ [m.src] } ∧ onlyColl k s t) ∧
  (∀ (s : State) (p k : Nat) (m : Msg) (c : Coll), inEpoch p m k c s → m.src ∉ c.acks → c.op ≠ 4 → c.full = true →
    c.children.length ≤ c.acks.length + 1 → c.root = false → c.sentAck = false →
    ∃ t, exec (.ackUp p m) s = .next t ∧ t.coll k = { c with acks := c.acks ++ [m.src], sentAck := true } ∧
      leaves (fromHere c mAckUp c.parent c.rank 0 .ok []) s t ∧ changesOnly [.colls, .sent, .ports, .regs] s t) ∧
  (∀ (s : State) (p k : Nat) (m : Msg) (c : Coll), inEpoch p m k c s → m.src ∉ c.acks → c.op ≠ 4 → c.full = true →
    c.children.length ≤ c.acks.length + 1 → c.root = true → c.phase = 2 →
    ∃ t, exec (.ackUp p m) s = .next t ∧ epochOver k c (c.note.getD .ok) true s t) ∧
  (∀ (s : State) (p k : Nat) (m : Msg) (c : Coll), inEpoch p m k c s → m.src ∈ c.acks → exec (.ackUp p m) s = .next s) ∧
  (∀ (s : State) (p k : Nat) (m : Msg) (c : Coll), inEpoch p m k c s →
    ∃ t, exec (.collNote p m) s = .next t ∧
      (c.root = false → leaves (fromHere c mNote c.parent c.rank 0 (statusOfCode m.status.toNat) []) s t ∧ changesOnly [.sent, .ports, .regs] s t) ∧
      (c.root = true → c.phase = 1 → epochOver k c (statusOfCode m.status.toNat) true s t) ∧
      (c.root = true → c.phase ≠ 1 → t.coll k = { c with note := some (c.note.getD (statusOfCode m.status.toNat)) } ∧ onlyColl k s t)) ∧
  (∀ (s : State) (p k : Nat) (m : Msg) (c : Coll), inEpoch p m k c s →
    ∃ t, exec (.collFinal p m) s = .next t ∧ epochOver k c (statusOfCode m.status.toNat) true s t) ∧
  (∀ (s : State) (p k : Nat) (m : Msg) (c : Coll), inEpoch p m k c s → c.children = [] →
    ∃ t, exec (.flagDown p m) s = .next t ∧ epochOver k
      { c with result := (c.wordsOf m.data).zipIdx.foldl (fun r x => Tab.put 0 r x.2 x.1) [] } .ok false s t) ∧
  (∀ (s : State) (g k : Nat) (c : Coll), canonical s → s.power = .on →
    Tab.wf Coll.none s.colls.running = true ∧ Tab.wf ((0 : Word), Status.ok) s.colls.ended = true ∧ Tab.wf 0 s.rigger = true →
    s.colls.running = [(k, c)] → c.group = g →
    (c.root = true → c.opened = true → c.armedAt + c.timeout + 1 ≤ s.etc →
      ∃ t, exec (.phaseTimerExpiry g) s = .next t ∧ epochOver k c .collTimeout true s t) ∧
    (c.root = false ∨ c.opened = false ∨ s.etc < c.armedAt + c.timeout + 1 → exec (.phaseTimerExpiry g) s = .next s) ∧
    (∀ a, c.guardAt = some a → a + 1 ≤ s.etc →
      ∃ t, exec (.memberGuardExpiry g) s = .next t ∧ epochOver k c .collTimeout false s t ∧
        t.fld 0x02060024 0 16 = min (s.fld 0x02060024 0 16 + 1) 0xFFFF) ∧
    (c.guardAt = none ∨ (∃ a, c.guardAt = some a ∧ s.etc < a + 1) → exec (.memberGuardExpiry g) s = .next s)) ∧
  (∀ (s : State) (g : Nat), s.power ≠ .on ∨ (∀ e, e ∈ s.colls.running → e.2.group ≠ g) →
    exec (.phaseTimerExpiry g) s = .next s ∧ exec (.memberGuardExpiry g) s = .next s)

/-- SCHED_CMD with an op and a partition takes effect: it is reached, in READY or RUNNING, and no command runs. -/
def Sys2Proof.Safety.schedReady (req : Requester) (s : State) : Prop :=
  canonical s ∧ settled s ∧ reaches s req 0x02070094 ∧ (s.dev = .ready ∨ s.dev = .running)

/-- A RECLAIM or RETURN of partition p by op 1 or 2 is legal and moves the crews cs (R390, R393, R395). -/
def Sys2Proof.Safety.mayMove (op p : Nat) (cs : List Nat) (s : State) : Prop :=
  p < 8 ∧ s.partEn p = true ∧ s.partBE p = false ∧ cs = s.movers op p ∧ cs ≠ [] ∧ (op = 1 → s.emptiesPart cs = false)

/-- Crew c holds no work but what its sculls run: nothing queued, parked or suspended, no Seif context. -/
def Sys2Proof.Safety.onlyRuns (c : Nat) (s : State) : Prop :=
  (s.crew c).queue = [] ∧ (s.crew c).parked = [] ∧ (s.crew c).ctxHeld = [] ∧ ∀ i, i < 16 → (s.scull (16 * c + i)).suspended = []

/-- RECLAIM, RETURN and the drain limit (R103, R390, R391, R393, R395): crews without work join at once, their panel caches emptied, with OK and the SCHED record; a crew that runs a BE
task drains and its task goes on until the drain limit, which pre-empts it; a queued task of a moving crew goes to a good crew of
its partition; an illegal command changes nothing but the status, one in another state or while one runs is refused. -/
def Obligations.Loans : Prop :=
  (∀ (s : State) (op p : Nat) (req : Requester) (cs : List Nat) (e : Instr), schedReady req s → mayMove op p cs s →
    (op = 1 ∧ e = .reclaim p req) ∨ (op = 2 ∧ e = .schedReturn p req) →
    (∀ c, c ∈ cs → onlyRuns c s ∧ ∀ i, i < 16 → (s.scull (16 * c + i)).task = none) →
    ∃ t, exec e s = .next t ∧ t.sched.busy = false ∧ t.sched.status = .ok ∧ t.reg 0x02070094 = w32 (op + p * 4) ∧
      (∀ c, c ∈ cs → t.crew c = { s.crew c with draining := false, panel := [], serving := if op = 1 then some p else none }) ∧
      (∀ c, c ∉ cs → t.crew c = s.crew c) ∧ recorded t 0 0 0 evSched .ok [w32 op, w32 p, w32 cs.length] ∧
      (∀ off, off ≠ 0x02070094 → off ≠ 0x264 → off ≠ 0x278 → t.reg off = s.reg off) ∧ changesOnly (logged [.regs, .crews, .sched]) s t) ∧
  (∀ (s : State) (p d i id : Nat) (req : Requester) (cs : List Nat), schedReady req s → mayMove 1 p cs s → (∀ c, c ∈ cs → onlyRuns c s) →
    s.fld 0x02070090 0 16 ≠ 0 → d ∈ cs → i < 16 → (s.scull (16 * d + i)).task = some id → (s.task id).part ≠ p →
    ∃ t, exec (.reclaim p req) s = .next t ∧ t.sched.busy = true ∧ t.sched.at_ = s.etc ∧ t.sched.op = 1 ∧ d ∈ t.sched.crews ∧
      (t.crew d).draining = true ∧ (t.crew d).serving = (s.crew d).serving ∧ changesOnly (logged [.regs, .crews, .sched]) s t) ∧
  (∀ (s : State) (p c id : Nat) (req : Requester), schedReady req s → mayMove 1 p [c] s → (s.crew c).queue = [id] → (s.crew c).parked = [] →
    (s.crew c).ctxHeld = [] → (∀ i, i < 16 → (s.scull (16 * c + i)).task = none ∧ (s.scull (16 * c + i)).suspended = []) →
    (s.task id).state = .queued → (s.task id).home = c → (s.task id).part = s.crewHome c → (s.task id).holdLines = 0 →
    s.partBE (s.crewHome c) = true → s.crewHome c < 8 →
    ∃ t, exec (.reclaim p req) s = .next t ∧ (t.crew c).queue = [] ∧ (t.crew c).serving = some p ∧
      ∃ x, x ≠ c ∧ s.inSet (s.crewHome c) x = true ∧ (t.crew x).queue = (s.crew x).queue ++ [id] ∧ t.task id = { s.task id with home := x }) ∧
  (∀ (s : State) (op p : Nat) (req : Requester) (e : Instr), schedReady req s → (op = 1 ∧ e = .reclaim p req) ∨ (op = 2 ∧ e = .schedReturn p req) →
    s.partEn p = false ∨ s.partBE p = true ∨ s.movers op p = [] ∨ (op = 1 ∧ s.emptiesPart (s.movers 1 p) = true) →
    ∃ t, exec e s = .next t ∧ t.sched = { s.sched with busy := false, status := .badArgument } ∧
      recorded t 0 0 1 evSched .badArgument [w32 op, w32 p, 0] ∧ changesOnly (logged [.sched]) s t) ∧
  (∀ (s : State) (op p : Nat) (req : Requester) (e : Instr), reaches s req 0x02070094 → (op = 1 ∧ e = .reclaim p req) ∨ (op = 2 ∧ e = .schedReturn p req) →
    (s.dev ≠ .ready → s.dev ≠ .running → ∃ t, exec e s = .next t ∧ refusedWrite req 0x02070094 .stateInvalid (s.reg 0x02070094) (w32 (op + p * 4)) s t) ∧
    (s.dev = .ready ∨ s.dev = .running → s.sched.busy = true →
      ∃ t, exec e s = .next t ∧ refusedWrite req 0x02070094 .busy (s.reg 0x02070094) (w32 (op + p * 4)) s t)) ∧
  (∀ s : State, canonical s → s.power = .on → s.sched.busy = true → s.sched.op = 1 → s.sched.at_ + s.fld 0x02070090 0 16 + 1 ≤ s.etc →
    (∀ c i id w, c ∈ s.sched.crews → i < 16 → (s.scull (16 * c + i)).task = some id → (s.task id).state ≠ .suspended w) →
    ∃ t, exec .drainLimitExpiry s = .next t ∧
      (∀ c i id, c ∈ s.sched.crews → i < 16 → (s.scull (16 * c + i)).task = some id → (s.task id).part = s.crewHome c →
        (s.task id).state = .running →
        (t.task id).state = .ended true ∧ (t.task id).held = [] ∧ (t.task id).todo = [] ∧ (t.task id).flying = (s.task id).flying ∧
        (t.task id).runs = (s.task id).runs) ∧
      (∀ j, (∀ c i, c ∈ s.sched.crews → i < 16 → (s.scull (16 * c + i)).task ≠ some j) ∨ (s.task j).state ≠ .running →
        t.task j = s.task j) ∧ changesOnly [.tasks] s t) ∧
  (∀ s : State, s.power ≠ .on ∨ s.sched.busy = false ∨ s.sched.op ≠ 1 ∨ s.etc < s.sched.at_ + s.fld 0x02070090 0 16 + 1 →
    exec .drainLimitExpiry s = .next s)

/-- The vectors that may leave have left (R413): pending and, by `mask`, not masked; each is sent once and is pending no more. -/
def Sys2Proof.Safety.released (mask : Nat → Bool) (s t : State) : Prop :=
  (∀ j, Tab.get false t.host.vecPend j = (Tab.get false s.host.vecPend j && mask j)) ∧
    ∃ q, t.tx = q ++ s.tx ∧ ∀ o, o ∈ q ↔ ∃ j, o = Sent.msix j ∧ Tab.get false s.host.vecPend j = true ∧ mask j = false

/-- A task that runs or is suspended: its transfers may be in flight. -/
def Sys2Proof.Safety.alive (t : Task) : Prop := t.state = .running ∨ ∃ w, t.state = .suspended w

/-- MSIX_VECTOR_UNMASK and LINK_RETRAIN (R397, R413, Table COX.2): a vector unmasked, or requests issued again, send what is pending; a
link that comes up takes its width and rate and the host's mailboxes serve; a link that goes down ends the device's requests in flight with INTERNAL,
halts the rings whose descriptors were being read, and resets nothing else. -/
def Sys2Proof.Safety.HostLink : Prop :=
  (∀ (s : State) (n : Nat), s.power = .on → s.hostOpen = true → n < 256 → Tab.wf false s.host.vecPend = true → Tab.wf true s.host.vecMask = true →
    ∃ t, exec (.msixVectorUnmask (some n)) s = .next t ∧ (∀ j, Tab.get true t.host.vecMask j = if j = n then false else Tab.get true s.host.vecMask j) ∧
      released (fun j => if j = n then false else Tab.get true s.host.vecMask j) s t ∧ t.host.ideIo = s.host.ideIo ∧
      t.host.ideMem = s.host.ideMem ∧ t.host.rate = s.host.rate ∧ changesOnly [.sent, .host, .vecPend] s t) ∧
  (∀ s : State, s.power = .on → s.hostOpen = true → Tab.wf false s.host.vecPend = true →
    ∃ t, exec (.msixVectorUnmask none) s = .next t ∧ released (fun j => Tab.get true s.host.vecMask j) s t ∧ changesOnly [.sent, .vecPend] s t) ∧
  (∀ (s : State) (v : Option Nat), s.power ≠ .on ∨ s.hostOpen = false ∨ (∃ n, v = some n ∧ 256 ≤ n) → exec (.msixVectorUnmask v) s = .next s) ∧
  (∀ (s : State) (width rate : Nat) (flit : Bool), s.power = .on → s.locked 25 = true → s.dev ≠ .starting ∨ 4 < s.start.step →
    exec (.linkRetrain width rate flit) s = .next (if rate = 0 then s.linkDown else
      (({ s.linkDown with host := { s.linkDown.host with width := width, rate := rate, flit := flit } }).serve (List.range 8)).releaseVectors)) ∧
  (∀ (s : State) (width rate : Nat) (flit : Bool), canonical s → noTasks s → (∀ e, e ∈ s.rings → e.2.reads = []) → s.power = .on →
    s.locked 25 = true → s.dev ≠ .starting ∨ 4 < s.start.step → Tab.wf false s.host.vecPend = true →
    ∃ t, exec (.linkRetrain width rate flit) s = .next t ∧ t.host.rate = rate ∧ t.host.ideIo = s.host.ideIo ∧ t.host.ideMem = s.host.ideMem ∧
      t.host.vecMask = s.host.vecMask ∧
      (rate = 0 → t.host.width = 0 ∧ changesOnly [.host] s t) ∧
      (rate ≠ 0 → t.host.width = width ∧ t.host.flit = flit ∧
        (∀ m, m < 8 → (s.mb m).phase = .offline → t.mb m = { Mailbox.init with phase := .idle }) ∧
        (∀ m, 8 ≤ m ∨ (s.mb m).phase ≠ .offline → t.mb m = s.mb m) ∧
        (s.ideOpen = true → released (fun j => Tab.get true s.host.vecMask j) s t) ∧ changesOnly [.host, .mbs, .sent, .vecPend] s t)) ∧
  (∀ (s : State) (id width rate : Nat) (flit : Bool), canonical s → plainTask id s → (∀ e, e ∈ s.rings → e.2.reads = []) → s.power = .on →
    s.locked 25 = true → s.dev ≠ .starting ∨ 4 < s.start.step → alive (s.task id) → (s.task id).onHost = true →
    (∀ j, j ≠ id → alive (s.task j) → (s.task j).onHost = false) →
    ∃ t, exec (.linkRetrain width rate flit) s = .next t ∧ endedWith id .internal t ∧ ∀ j, j ≠ id → t.task j = s.task j) ∧
  (∀ (s : State) (q n width rate : Nat) (seq : Word) (flit : Bool) (rs : List (Word × Nat)), canonical s → noTasks s → s.power = .on →
    s.locked 25 = true → s.dev ≠ .starting ∨ 4 < s.start.step → (∀ e, e ∈ s.rings → e.1 ≠ q → e.2.reads = []) → (s.ring q).reads = (seq, n) :: rs →
    (s.ring q).state = .active →
    ∃ t, exec (.linkRetrain width rate flit) s = .next t ∧ (t.ring q).state = .halted ∧ (t.ring q).reads = [] ∧
      (t.ring q).cqTail = (s.ring q).cqTail + 1 ∧ (∀ j, j ≠ q → t.ring j = s.ring j) ∧
      recorded t 3 (unitId 15 q) 2 evRing .internal [w32 q, seq, 2]) ∧
  (∀ (s : State) (width rate : Nat) (flit : Bool), s.power ≠ .on ∨ s.locked 25 = false ∨ (s.dev = .starting ∧ s.start.step ≤ 4) →
    exec (.linkRetrain width rate flit) s = .next s)

/-- The host port is up. -/
def Sys2Proof.Safety.hostUp (s : State) : Prop := canonical s ∧ s.power = .on ∧ s.host.rate ≠ 0 ∧ s.locked 25 = true

/-- A window offset with `n` bytes names DA `da` (R401): inside the window and inside the stack range. -/
def Sys2Proof.Safety.inWindow (s : State) (offset n da : Nat) : Prop :=
  da = (s.reg 0x00200010).toNat + s.fld 0x00200014 0 24 * 0x100000000 + offset ∧ offset + n ≤ s.fld 0x00200018 0 12 * 0x40000000 ∧ da + n ≤ duneEnd

/-- The window of BAR2 and CXL.mem (R400, R401, R402): a read answers with the bytes and their poison, a write changes them and no other; outside the window a write
is discarded, a CXL.io read is refused and a CXL.mem read poisoned, counted, and the first is logged; while required streams are
missing CXL.io is refused and counted, CXL.mem reads are poisoned and its writes discarded. -/
def Obligations.HostWindow : Prop :=
  (∀ (s : State) (offset len da : Nat) (e : Instr), hostUp s → s.ideOpen = true → inWindow s offset len da →
    e ∈ [Instr.bar2Access offset none len, .cxlMemRequest offset none len] →
    ∃ t, exec e s = .next t ∧ t.tx = .window true (s.duneReadBad da len) (s.load da len) :: s.tx ∧ changesOnly [.sent, .regs] s t) ∧
  (∀ (s : State) (offset len da : Nat) (bs : List Byte) (e : Instr), hostUp s → s.ideOpen = true → inWindow s offset bs.length da →
    e ∈ [Instr.bar2Access offset (some bs) len, .cxlMemRequest offset (some bs) len] → (∀ a, da ≤ a → a < da + bs.length → s.served a = true) →
    ∃ t, exec e s = .next t ∧ t.load da bs.length = bs ∧ (∀ a, a < da ∨ da + bs.length ≤ a → t.byte a = s.byte a) ∧
      changesOnly (logged [.mem, .poison, .dunes, .regs]) s t) ∧
  (∀ (s : State) (offset len n : Nat) (data : Option (List Byte)) (e : Instr), hostUp s → s.ideOpen = true →
    n = (data.map List.length).getD len → (∀ da, ¬ inWindow s offset n da) →
    e ∈ [Instr.bar2Access offset data len, .cxlMemRequest offset data len] →
    ∃ t, exec e s = .next t ∧ t.fld 0x0020001C 0 32 = min (s.fld 0x0020001C 0 32 + 1) 0xFFFFFFFF ∧ t.host.dropLogged = true ∧
      (data = none → e = .bar2Access offset data len → t.tx.head? = some (.window false false [])) ∧
      (data = none → e = .cxlMemRequest offset data len → t.tx.head? = some (.window true true [])) ∧
      (s.host.dropLogged = false →
        recorded t 3 (unitId 15 0) 1 evRegWrite .badArgument [w32 offset, w32 (offset / 0x100000000)] ∧ changesOnly (logged [.host, .regs]) s t) ∧
      (s.host.dropLogged = true → changesOnly [.sent, .regs] s t) ∧ (s.host.dropLogged = true → data ≠ none → t.tx = s.tx)) ∧
  (∀ (s : State) (offset len : Nat) (data : Option (List Byte)), hostUp s → s.ideOpen = false →
    (∃ t, exec (.bar2Access offset data len) s = .next t ∧ t.fld 0x00200004 16 16 = min (s.fld 0x00200004 16 16 + 1) 0xFFFF ∧
      t.tx = (if data = none then [.window false false []] else []) ++ s.tx ∧
      (∀ off, off ≠ 0x00200004 → t.reg off = s.reg off) ∧ changesOnly [.sent, .regs] s t) ∧
    (data = none → ∃ t, exec (.cxlMemRequest offset data len) s = .next t ∧ t.tx = .window true true [] :: s.tx ∧ changesOnly [.sent] s t) ∧
    (data ≠ none → exec (.cxlMemRequest offset data len) s = .next s)) ∧
  (∀ (s : State) (offset len : Nat) (data : Option (List Byte)), s.power ≠ .on ∨ s.host.rate = 0 ∨ s.locked 25 = false →
    exec (.bar2Access offset data len) s = .next s ∧ exec (.cxlMemRequest offset data len) s = .next s)

/-- A check of the security block failed (Table SEC.6): counted in SEC_STAT, recorded with AUTH_FAILED and its row. -/
def Sys2Proof.Safety.secFailed (row : Nat) (s t : State) : Prop :=
  t.fld 0x250 0 16 = min (s.fld 0x250 0 16 + 1) 0xFFFF ∧ recorded t 3 (unitId 13 0) 2 evSecFail .authFailed [w32 row] ∧
    ∀ off, off ≠ 0x250 → off ≠ 0x264 → off ≠ 0x278 → t.reg off = s.reg off

/-- SPDM_REQUEST, IDE_KEY_SET and IDE_INTEGRITY_FAIL (R399, R400, R480, Table SEC.6): an SPDM request is answered and signed at the cost of one signature, or fails, counted and logged; keys
establish their stream and let pending vectors go; an integrity failure takes the stream back, counted and logged. -/
def Sys2Proof.Safety.HostSecurity : Prop :=
  (∀ (s : State) (request : List Byte) (body : List Byte), hostUp s → s.sec.rngStop = false → s.sec.attReady = true → s.sec.attUsed < 65536 →
    body = Config.spdmAnswer request [s.certOf 0, s.certOf 1, s.certOf 2] s.measurements →
    ∃ t, exec (.spdmRequest request) s = .next t ∧ t.tx = .spdm (body ++ Config.xmssSign s.nv.epoch s.sec.attUsed body) :: s.tx ∧
      t.sec = { s.sec with attUsed := s.sec.attUsed + 1 } ∧ changesOnly [.sent, .sec] s t) ∧
  (∀ (s : State) (request : List Byte), hostUp s → s.sec.rngStop = true →
    ∃ t, exec (.spdmRequest request) s = .next t ∧ secFailed 8 s t ∧ t.fld 0x250 16 16 = s.fld 0x250 16 16 ∧ changesOnly (logged [.regs]) s t) ∧
  (∀ (s : State) (request : List Byte), hostUp s → s.sec.rngStop = false → s.sec.attReady = false ∨ 65536 ≤ s.sec.attUsed →
    ∃ t, exec (.spdmRequest request) s = .next t ∧ secFailed 5 s t ∧ t.fld 0x250 16 16 = min (s.fld 0x250 16 16 + 1) 0xFFFF ∧
      changesOnly (logged [.regs]) s t) ∧
  (∀ (s : State) (stream : Nat), hostUp s → s.sec.attReady = true → s.sec.rngStop = false → stream < 2 →
    ∃ t, exec (.ideKeySet stream) s = .next t ∧ t.host.ideIo = (decide (stream = 0) || s.host.ideIo) ∧
      t.host.ideMem = (decide (stream = 1) || s.host.ideMem) ∧ t.host.rate = s.host.rate ∧ t.host.vecMask = s.host.vecMask ∧
      (t.hostOpen = true → Tab.wf false s.host.vecPend = true → released (fun j => Tab.get true s.host.vecMask j) s t) ∧
      (t.hostOpen = false → t.tx = s.tx ∧ t.host.vecPend = s.host.vecPend) ∧ changesOnly [.sent, .host, .vecPend] s t) ∧
  (∀ (s : State) (stream : Nat), canonical s → s.power = .on → stream < 2 →
    ∃ t, exec (.ideIntegrityFail stream) s = .next t ∧ t.host.ideIo = (decide (stream ≠ 0) && s.host.ideIo) ∧
      t.host.ideMem = (decide (stream ≠ 1) && s.host.ideMem) ∧ secFailed 7 s t ∧ t.fld 0x250 16 16 = s.fld 0x250 16 16 ∧
      t.host.rate = s.host.rate ∧ changesOnly (logged [.regs, .host]) s t) ∧
  (∀ (s : State) (request : List Byte) (stream : Nat), s.power ≠ .on ∨ s.host.rate = 0 ∨ s.locked 25 = false →
    exec (.spdmRequest request) s = .next s ∧ exec (.ideKeySet stream) s = .next s) ∧
  (∀ (s : State) (stream : Nat), s.sec.attReady = false ∨ s.sec.rngStop = true ∨ 2 ≤ stream → exec (.ideKeySet stream) s = .next s) ∧
  (∀ (s : State) (stream : Nat), s.power ≠ .on ∨ 2 ≤ stream → exec (.ideIntegrityFail stream) s = .next s)

/-- The mailbox command that a row sends: its opcode (Table COX.4). -/
def Sys2Proof.Safety.mailRow : Instr → Option (Nat × MbCmd)
  | .devInfo c => some (0x01, c)
  | .devStatus c => some (0x02, c)
  | .capRead c => some (0x03, c)
  | .devRun c => some (0x10, c)
  | .devQuiesce c => some (0x11, c)
  | .devConfig c => some (0x12, c)
  | .devRestart c => some (0x13, c)
  | .pwrGet c => some (0x20, c)
  | .pwrCapSet c _ => some (0x21, c)
  | .logInfo c => some (0x30, c)
  | .logRead c => some (0x31, c)
  | .sensorRead c => some (0x40, c)
  | .fwInfo c => some (0x50, c)
  | .fwStage c => some (0x51, c)
  | .fwActivate c => some (0x52, c)
  | .attestQuote c => some (0x60, c)
  | .certRead c => some (0x61, c)
  | .lcTransition c => some (0x62, c)
  | .cairnRegister c _ => some (0x70, c)
  | .cairnTake c => some (0x71, c)
  | .cairnRestore c => some (0x72, c)
  | .cairnStatus c => some (0x73, c)
  | _ => none

/-- A doorbell of mailbox c.m reaches it: from the host through BAR0, from the board over the sideband (R418). -/
structure Sys2Proof.Safety.rings (c : MbCmd) (s : State) : Prop where
  canon : canonical s ∧ Tab.wf 0 (s.mb c.m).cmd = true
  way : (c.m < 8 ∧ reaches s (.host c.id) (mbReg c.m 0x2000)) ∨ (c.m = 8 ∧ s.power = .on ∧ s.locked 37 = true)

/-- The header of a command is legal and states its payload's length (Table COX.1). -/
def Sys2Proof.Safety.wellFormed (c : MbCmd) : Prop :=
  c.flags.toNat < 2 ∧ c.reserved = 0 ∧ c.length.toNat = c.payload.length ∧ c.payload.length ≤ 4080

/-- A well-formed command is placed in a mailbox that serves and is free; of a state command, no other runs or waits (R422). -/
structure Sys2Proof.Safety.sends (op : Nat) (c : MbCmd) (s : State) : Prop where
  rings : rings c s
  box : (s.mb c.m).phase = .idle ∨ (s.mb c.m).phase = .done
  form : wellFormed c
  free : opState op = true → s.stateMb = none ∧ s.mbQueue = []

/-- A command was answered (R418, R419, R423, Tables COX.1, COX.2): its mailbox is DONE with the status and the response; the board is alerted; a refusal, and the
success of a command that changes state, is recorded with the mailbox as origin. -/
structure Sys2Proof.Safety.answered (op : Nat) (c : MbCmd) (st : Status) (data : List Byte) (s t : State) : Prop where
  box : (t.mb c.m).phase = .done ∧ (t.mb c.m).lastStatus = BitVec.ofNat 16 st.code ∧ (t.mb c.m).unread = true
  response : (t.mb c.m).rsp = leBytes 4 c.tag.toNat ++ leBytes 2 st.code ++ [0, 0] ++ leBytes 4 data.length ++ [0, 0, 0, 0] ++ data
  others : ∀ j, j ≠ c.m → t.mb j = s.mb j
  log : st ≠ .ok ∨ opLogged op = true → recorded t 1 c.m (if st = .ok then 0 else 1) evCommand st [w32 op, c.tag]
  alert : c.m = 8 → t.tx.count (.alert 8) = s.tx.count (.alert 8) + 1

/-- How a mailbox refuses (R418, R419, R420, R421, R422, Table COX.5): the target, then the state, then the arguments decide; an unknown opcode or a malformed header is BAD_ARGUMENT; the
doorbell of a running mailbox is counted; a state command waits its turn behind another; a mailbox that is OFFLINE or out of
reach takes nothing. -/
def Obligations.MailboxRefusals : Prop :=
  (∀ (s : State) (e : Instr) (op : Nat) (c : MbCmd), mailRow e = some (op, c) → sends op c s →
    (s.opAbsent op c.payload = true → ∃ t, exec e s = .next t ∧ answered op c .unitAbsent [] s t ∧ changesOnly (logged [.mbs]) s t) ∧
    (s.opAbsent op c.payload = false → natBit (opStates op) s.dev.code = false →
      ∃ t, exec e s = .next t ∧ answered op c .stateInvalid [] s t ∧ changesOnly (logged [.mbs]) s t) ∧
    (s.opAbsent op c.payload = false → natBit (opStates op) s.dev.code = true → (c.m = 8 ∧ opSideband op = false) ∨ s.opArgs op c.payload = false →
      ∃ t, exec e s = .next t ∧ answered op c .badArgument [] s t ∧ changesOnly (logged [.mbs]) s t)) ∧
  (∀ (s : State) (e : Instr) (op : Nat) (c : MbCmd), mailRow e = some (op, c) → rings c s → (s.mb c.m).phase = .idle ∨ (s.mb c.m).phase = .done →
    2 ≤ c.flags.toNat ∨ c.reserved ≠ 0 ∨ 4080 < c.length.toNat →
    ∃ t, exec e s = .next t ∧ answered op c .badArgument [] s t ∧ changesOnly (logged [.mbs]) s t) ∧
  (∀ (s : State) (c : MbCmd) (opcode : BitVec 16), opKnown opcode.toNat = false → rings c s → (s.mb c.m).phase = .idle ∨ (s.mb c.m).phase = .done →
    ∃ t, exec (.unknownOpcode c opcode) s = .next t ∧ answered opcode.toNat c .badArgument [] s t ∧ changesOnly (logged [.mbs]) s t) ∧
  (∀ (s : State) (c : MbCmd) (opcode : BitVec 16), opKnown opcode.toNat = true → exec (.unknownOpcode c opcode) s = .next s) ∧
  (∀ (s : State) (e : Instr) (op : Nat) (c : MbCmd), mailRow e = some (op, c) → rings c s → (s.mb c.m).phase = .running →
    ∃ t, exec e s = .next t ∧ t.mb c.m = { s.mb c.m with cmd := (t.mb c.m).cmd } ∧ (∀ j, j ≠ c.m → t.mb j = s.mb j) ∧
      (c.m < 8 → t.fld (mbReg c.m 0x200C) 0 16 = min (s.fld (mbReg c.m 0x200C) 0 16 + 1) 0xFFFF) ∧
      (∀ off, off ≠ mbReg c.m 0x200C → t.reg off = s.reg off) ∧ changesOnly [.mbs, .regs] s t) ∧
  (∀ (s : State) (e : Instr) (op : Nat) (c : MbCmd), mailRow e = some (op, c) → rings c s → (s.mb c.m).phase = .offline → exec e s = .next s) ∧
  (∀ (s : State) (e : Instr) (op : Nat) (c : MbCmd), mailRow e = some (op, c) → rings c s → (s.mb c.m).phase = .idle ∨ (s.mb c.m).phase = .done →
    wellFormed c → opState op = true → s.stateMb ≠ none →
    ∃ t, exec e s = .next t ∧ t.mbQueue = s.mbQueue ++ [(c.m, c)] ∧ (t.mb c.m).phase = .running ∧ (t.mb c.m).lastOp = BitVec.ofNat 16 op ∧
      (t.mb c.m).tag = c.tag ∧ (∀ j, j ≠ c.m → t.mb j = s.mb j) ∧ changesOnly [.mbs, .mbQueue] s t) ∧
  (∀ (s : State) (e : Instr) (op : Nat) (c : MbCmd), mailRow e = some (op, c) →
    s.power ≠ .on ∨ 9 ≤ c.m ∨ (c.m = 8 ∧ s.locked 37 = false) ∨ (c.m < 8 ∧ (s.host.rate = 0 ∨ s.locked 25 = false)) → exec e s = .next s)

/-- A command that changes nothing was answered OK: the vector is raised where its flags and the register ask for it (Table COX.2). -/
structure Sys2Proof.Safety.told (op : Nat) (c : MbCmd) (data : List Byte) (s t : State) : Prop where
  reply : answered op c .ok data s t
  vector : c.m < 8 → c.flags = 1 → s.fld (mbReg c.m 0x2008) 8 1 = 1 → raised (s.fld (mbReg c.m 0x2008) 0 8) s t
  still : c.m < 8 → c.flags = 0 ∨ s.fld (mbReg c.m 0x2008) 8 1 = 0 → t.tx = s.tx ∧ t.host.vecPend = s.host.vecPend

/-- A well-formed command passes every check of R420. -/
def Sys2Proof.Safety.passes (op : Nat) (c : MbCmd) (s : State) : Prop := sends op c s ∧ s.opCheck c.m op c.payload = .ok

/-- The commands that only report (R417, R429, R475, R476, R487, R498, R510, R523, Table COX.7): the response holds the fields of the table, and the device stays as it is; LOG_READ marks what it returned,
a quote costs a signature, a certificate that does not exist yet and a key that is spent answer AUTH_FAILED. -/
def Obligations.MailboxReports : Prop :=
  (∀ (s : State) (c : MbCmd), passes 0x01 c s → ∃ t, exec (.devInfo c) s = .next t ∧ changesOnly [.mbs, .sent, .vecPend] s t ∧ told 0x01 c
    (leBytes 1 s.nv.variant.code ++ leBytes 1 s.nv.lifecycle ++ [0, 0] ++ leBytes 4 s.nv.epoch ++
      leBytes 4 (if s.start.rom then Config.romVersion else Config.imageVersion s.nv.runImage).toNat ++
      leBytes 4 (if s.start.rom then Config.romInterface else w32 (imgVersion s.nv.runImage)).toNat ++ leBytes 4 Config.romVersion.toNat ++
      [0, 0, 0, 0] ++ s.nv.serial) s t) ∧
  (∀ (s : State) (c : MbCmd), passes 0x02 c s → ∃ t, exec (.devStatus c) s = .next t ∧ changesOnly [.mbs, .sent, .vecPend] s t ∧ told 0x02 c
    (leBytes 1 s.dev.code ++ leBytes 1 s.fault ++ leBytes 1 s.nv.failed ++ leBytes 1 s.nv.failStep ++ [0, 0, 0, 0] ++ leBytes 8 s.etc) s t) ∧
  (∀ (s : State) (c : MbCmd), passes 0x03 c s → ∃ t, exec (.capRead c) s = .next t ∧ changesOnly [.mbs, .sent, .vecPend] s t ∧ told 0x03 c
    ((List.range (numAt c.payload 4 4)).flatMap fun i => leBytes 4 (s.view (4 * (numAt c.payload 0 4 + i))).toNat) s t) ∧
  (∀ (s : State) (c : MbCmd), passes 0x20 c s → ∃ t, exec (.pwrGet c) s = .next t ∧ changesOnly [.mbs, .sent, .vecPend] s t ∧ told 0x20 c
    (leBytes 4 s.pwr.cap ++ leBytes 4 s.pwr.watts ++ (List.range 16).flatMap fun d => leBytes 4 (s.erg d).mv) s t) ∧
  (∀ (s : State) (c : MbCmd), passes 0x30 c s → ∃ t, exec (.logInfo c) s = .next t ∧ changesOnly [.mbs, .sent, .vecPend] s t ∧ told 0x30 c
    (leBytes 8 (s.heldNumbers.headD s.log.next) ++ leBytes 8 s.log.next ++ s.log.last) s t) ∧
  (∀ (s : State) (c : MbCmd) (r : LogRec), passes 0x31 c s → numAt c.payload 8 4 = 1 →
    s.heldRecords.find? (fun x => x.number == numAt c.payload 0 8) = some r →
    ∃ t, exec (.logRead c) s = .next t ∧ t.log = { s.log with readUpTo := max s.log.readUpTo (r.number + 1) } ∧
      changesOnly [.log, .mbs, .sent, .vecPend] s t ∧
      told 0x31 c (leBytes 8 r.number ++ leBytes 4 1 ++ [0, 0, 0, 0] ++ (r.bytes ++ r.chain)) s t) ∧
  (∀ (s : State) (c : MbCmd), passes 0x31 c s → (∀ r, r ∈ s.heldRecords → r.number < numAt c.payload 0 8) →
    ∃ t, exec (.logRead c) s = .next t ∧ changesOnly [.mbs, .sent, .vecPend] s t ∧
      told 0x31 c (leBytes 8 (numAt c.payload 0 8) ++ leBytes 4 0 ++ [0, 0, 0, 0]) s t) ∧
  (∀ (s : State) (c : MbCmd), passes 0x40 c s → ∃ t, exec (.sensorRead c) s = .next t ∧ changesOnly [.mbs, .sent, .vecPend] s t ∧ told 0x40 c
    (leBytes 8 s.etc ++ (List.range (numAt c.payload 4 4)).flatMap fun i => leBytes 4
      (if s.sensorAbsent (numAt c.payload 0 4 + i) then (0x80000000 : Word) else s.sensor (numAt c.payload 0 4 + i)).toNat) s t) ∧
  (∀ (s : State) (c : MbCmd), passes 0x50 c s → ∃ t, exec (.fwInfo c) s = .next t ∧ changesOnly [.mbs, .sent, .vecPend] s t ∧ told 0x50 c
    (leBytes 4 (if s.start.rom then Config.romVersion else Config.imageVersion s.nv.runImage).toNat ++
      leBytes 4 (if s.nv.staged = [] then 0 else (Config.imageVersion s.nv.staged).toNat) ++ leBytes 4 Config.romVersion.toNat ++
      leBytes 4 (if s.start.rom then Config.romInterface else w32 (imgVersion s.nv.runImage)).toNat) s t) ∧
  (∀ (s : State) (c : MbCmd), passes 0x60 c s → s.sec.attReady = true → s.sec.attUsed < 65536 →
    ∃ t, exec (.attestQuote c) s = .next t ∧ t.sec = { s.sec with attUsed := s.sec.attUsed + 1 } ∧ changesOnly [.sec, .mbs, .sent, .vecPend] s t ∧
      told 0x60 c (s.quoteBody c.payload ++ Config.xmssSign s.nv.epoch s.sec.attUsed (s.quoteBody c.payload)) s t) ∧
  (∀ (s : State) (c : MbCmd), passes 0x60 c s → s.sec.attReady = false ∨ 65536 ≤ s.sec.attUsed →
    ∃ t, exec (.attestQuote c) s = .next t ∧ answered 0x60 c .authFailed [] s t ∧
      t.fld 0x250 0 16 = min (s.fld 0x250 0 16 + 1) 0xFFFF ∧ t.fld 0x250 16 16 = min (s.fld 0x250 16 16 + 1) 0xFFFF ∧
      changesOnly (logged [.mbs, .regs]) s t) ∧
  (∀ (s : State) (c : MbCmd) (cert : List Byte), passes 0x61 c s → cert = s.certOf (numAt c.payload 0 4) →
    numAt c.payload 0 4 ≠ 2 ∨ s.sec.attReady = true →
    ∃ t, exec (.certRead c) s = .next t ∧ changesOnly [.mbs, .sent, .vecPend] s t ∧ told 0x61 c
      (leBytes 4 cert.length ++ leBytes 4 (min 4064 (cert.length - numAt c.payload 4 4)) ++ (cert.drop (numAt c.payload 4 4)).take 4064) s t) ∧
  (∀ (s : State) (c : MbCmd), passes 0x61 c s → numAt c.payload 0 4 = 2 → s.sec.attReady = false →
    ∃ t, exec (.certRead c) s = .next t ∧ answered 0x61 c .authFailed [] s t ∧ changesOnly (logged [.mbs]) s t) ∧
  (∀ (s : State) (c : MbCmd), passes 0x73 c s → ∃ t, exec (.cairnStatus c) s = .next t ∧ changesOnly [.mbs, .sent, .vecPend] s t ∧ told 0x73 c
    (leBytes 4 s.viewCairn ++ leBytes 4 s.cairn.newestId.toNat ++ leBytes 4 s.cairn.takeId.toNat ++ leBytes 8 s.cairn.bytes ++
      leBytes 4 s.cairn.recorded.toNat ++ leBytes 4 s.cairn.replayed.toNat) s t)

/-- The device's commands of state (R425, R426, R427, R430, R449, Table COX.3): DEV_RUN, DEV_QUIESCE and DEV_CONFIG change it; DEV_QUIESCE writes out the combining buffers and with abandon
ends what no scull has taken with STATE_INVALID; QUIESCED follows once nothing is in progress; DEV_RESTART begins a start 100 µs later. -/
def Obligations.DeviceStates : Prop :=
  (∀ (s : State) (c : MbCmd), passes 0x10 c s → ∃ t, exec (.devRun c) s = .next t ∧ t.dev = .running ∧ answered 0x10 c .ok [] s t ∧
    changesOnly (logged [.dev, .mbs]) s t) ∧
  (∀ (s : State) (c : MbCmd), passes 0x12 c s → ∃ t, exec (.devConfig c) s = .next t ∧ t.dev = .ready ∧ answered 0x12 c .ok [] s t ∧
    changesOnly (logged [.dev, .mbs]) s t) ∧
  (∀ (s : State) (c : MbCmd), passes 0x11 c s → s.dev = .running → numAt c.payload 0 4 = 0 →
    (∀ n e, n < 48 → e ∈ (s.dune n).wcb → ∀ b, b ∈ e.bytes → stackOf b.1 = n) →
    ∃ t, exec (.devQuiesce c) s = .next t ∧ t.dev = .quiescing ∧ answered 0x11 c .ok [] s t ∧ (∀ n, n < 48 → (t.dune n).wcb = []) ∧
      changesOnly (logged [.dev, .mbs, .dunes, .poison, .regs]) s t) ∧
  (∀ (s : State) (c : MbCmd), passes 0x11 c s → s.dev = .quiescing → numAt c.payload 0 4 = 0 →
    ∃ t, exec (.devQuiesce c) s = .next t ∧ answered 0x11 c .busy [] s t ∧ changesOnly (logged [.mbs]) s t) ∧
  (∀ (s : State) (c : MbCmd) (d id : Nat), passes 0x11 c s → s.dev = .quiescing → numAt c.payload 0 4 = 1 → plainTask id s →
    (s.crew d).queue = [id] → (∀ j, j ≠ d → (s.crew j).queue = []) → (s.task id).state = .queued → (s.task id).home = d → (s.task id).scull = none →
    ∃ t, exec (.devQuiesce c) s = .next t ∧ t.dev = .quiescing ∧ answered 0x11 c .ok [] s t ∧ endedWith id .stateInvalid t ∧
      (t.crew d).queue = [] ∧ ∀ j, j ≠ id → t.task j = s.task j) ∧
  (∀ s : State, s.power = .on → s.dev = .quiescing → (∀ e, e ∈ s.rings → e.2.live = [] ∧ e.2.reads = []) → (∀ e, e ∈ s.wakes → e.2.jobs = []) →
    (∀ e, e ∈ s.tier.tensors → e.2.state ∉ [TensorState.copyIn, .copyOut, .recompute]) → s.lowp.busy = false → s.cairn.phase = .idle →
    (∀ e, e ∈ s.dunes → e.2.wcb = []) →
    ∃ t, exec .quiesceComplete s = .next t ∧ t.dev = .quiesced ∧ recorded t 0 (b2n s.start.rom) 0 evState .ok [3, 4, 0] ∧
      changesOnly (logged [.dev]) s t) ∧
  (∀ s : State, s.power ≠ .on ∨ s.dev ≠ .quiescing ∨ (∃ e, e ∈ s.rings ∧ (e.2.live ≠ [] ∨ e.2.reads ≠ [])) ∨ (∃ e, e ∈ s.wakes ∧ e.2.jobs ≠ []) ∨
    (∃ e, e ∈ s.tier.tensors ∧ e.2.state ∈ [TensorState.copyIn, .copyOut, .recompute]) ∨ s.lowp.busy = true ∨ s.cairn.phase ≠ .idle ∨
    (∃ e, e ∈ s.dunes ∧ e.2.wcb ≠ []) → exec .quiesceComplete s = .next s) ∧
  (∀ (s : State) (c : MbCmd), passes 0x13 c s → s.dev ≠ .starting → s.start.delayed = none →
    ∃ t, exec (.devRestart c) s = .next t ∧ answered 0x13 c .ok [] s t ∧
      t.start.delayed = some (if numAt c.payload 0 4 = 1 then .cold else .warm, 3, s.etc + 100) ∧ changesOnly (logged [.start, .mbs]) s t) ∧
  (∀ (s : State) (c : MbCmd), passes 0x13 c s → s.dev = .starting →
    ∃ t, exec (.devRestart c) s = .next t ∧ answered 0x13 c .busy [] s t ∧ changesOnly (logged [.mbs]) s t)

/-- The commands that write the module's stores (R429, R438, R458, R460, R461, R462, R463, R469, R515): the power cap goes through its guarded pair and is settled; staged data enter the staging area; a staged
image that verifies becomes the boot image; a life-cycle transition destroys the flash key and its log, burns the next entry and begins a
cold start; a token or image that does not verify changes nothing but the count. -/
def Obligations.MailboxStores : Prop :=
  (∀ (s : State) (c : MbCmd) (v : Nat), passes 0x21 c s → v = numAt c.payload 0 4 →
    ∃ t, exec (.pwrCapSet c false) s = .next t ∧ t.guard 1 = ⟨w32 v, none⟩ ∧
      t.pwr.cap = min v (min (s.pwr.vinLim.getD 20000) (s.pwr.flowLim.getD 20000)) ∧ answered 0x21 c .ok (leBytes 4 t.pwr.cap) s t ∧
      changesOnly (logged [.mbs, .guards, .regs, .pwr]) s t) ∧
  (∀ (s : State) (c : MbCmd), passes 0x21 c s → (s.guard 1).pending = none →
    ∃ t, exec (.pwrCapSet c true) s = .next t ∧ t.guard 1 = s.guard 1 ∧ answered 0x21 c .guardMismatch [] s t ∧
      t.fld 0x114 0 16 = min (s.fld 0x114 0 16 + 2) 0xFFFF ∧ changesOnly (logged [.mbs, .guards, .regs]) s t) ∧
  (∀ (s : State) (c : MbCmd) (o n : Nat), passes 0x51 c s → o = numAt c.payload 0 4 → n = numAt c.payload 4 4 →
    ∃ t, exec (.fwStage c) s = .next t ∧ t.nv.staged.length = max s.nv.staged.length (o + n) ∧
      (∀ i, i < n → t.nv.staged.getD (o + i) 0 = c.payload.getD (8 + i) 0) ∧
      (∀ i, i < o ∨ o + n ≤ i → t.nv.staged.getD i 0 = s.nv.staged.getD i 0) ∧
      answered 0x51 c .ok (leBytes 4 t.nv.staged.length) s t ∧
      { t.nv with staged := [], reserved := 0 } = { s.nv with staged := [], reserved := 0 } ∧ changesOnly (logged [.mbs, .nv]) s t) ∧
  (∀ (s : State) (c : MbCmd) (img : List Byte), passes 0x52 c s → img = s.nv.staged.take (numAt c.payload 0 4) → s.imageOk img = true →
    s.start.delayed = none →
    ∃ t, exec (.fwActivate c) s = .next t ∧ t.nv.bootImage = img ∧ t.start.changed = true ∧ answered 0x52 c .ok [] s t ∧
      (s.dev = .recovery ∨ s.dev = .faulted → t.start.delayed = some (.cold, 4, s.etc + 100)) ∧
      (s.dev ≠ .recovery → s.dev ≠ .faulted → t.start.delayed = none) ∧ (s.dev = .recovery → t.nv.failed = 0) ∧
      t.nv.runImage = s.nv.runImage ∧ changesOnly (logged [.mbs, .nv, .start]) s t) ∧
  (∀ (s : State) (c : MbCmd) (img : List Byte), passes 0x52 c s → img = s.nv.staged.take (numAt c.payload 0 4) → s.imageOk img = false →
    ∃ t, exec (.fwActivate c) s = .next t ∧ answered 0x52 c .authFailed [] s t ∧ t.fld 0x250 0 16 = min (s.fld 0x250 0 16 + 1) 0xFFFF ∧
      changesOnly (logged [.mbs, .regs]) s t) ∧
  (∀ (s : State) (c : MbCmd) (goal : Nat), passes 0x62 c s → goal = numAt c.payload 0 1 →
    numAt c.payload 2 2 = 0 ∨ s.tokenOk goal (c.payload.drop 8) = true → s.start.delayed = none →
    ∃ t, exec (.lcTransition c) s = .next t ∧ t.nv.lifecycle = goal ∧ t.nv.lcUsed = s.nv.lcUsed + 1 ∧ t.nv.flashKey = false ∧ t.log.area = [] ∧
      t.start.delayed = some (.cold, 5, s.etc + 100) ∧ t.start.changed = true ∧ answered 0x62 c .ok [] s t ∧
      changesOnly (logged [.mbs, .nv, .life, .start, .guards, .regs, .fresh]) s t) ∧
  (∀ (s : State) (c : MbCmd), passes 0x62 c s → numAt c.payload 2 2 ≠ 0 → s.tokenOk (numAt c.payload 0 1) (c.payload.drop 8) = false →
    ∃ t, exec (.lcTransition c) s = .next t ∧ answered 0x62 c .authFailed [] s t ∧ t.fld 0x250 0 16 = min (s.fld 0x250 0 16 + 1) 0xFFFF ∧
      changesOnly (logged [.mbs, .regs]) s t)

/-- Cairn's commands (R501, R502, R503, R504, R508): a registration is kept and finds the newest valid checkpoint of its targets; a take is granted the next id and the
other target, whose header is invalid from then on, and fails at once where its target cannot be written (R38); a restore is accepted and answers when its copy ends; a registration or take
while one is in progress, and a take while a replay is undecided or rejected, answer BUSY. -/
def Obligations.CairnCommands : Prop :=
  (∀ (s : State) (c : MbCmd) (host : List Cell), passes 0x70 c s → s.cairn.phase = .idle → s.cairn.lossWait = false →
    ∃ t, exec (.cairnRegister c host) s = .next t ∧ answered 0x70 c .ok [] s t ∧ t.cairn.registered = true ∧ t.cairn.parts = numAt c.payload 0 1 ∧
      t.cairn.entries = cairnEntries c.payload ∧ t.cairn.target0 = numAt c.payload 8 8 ∧ t.cairn.target1 = numAt c.payload 0x10 8 ∧
      t.cairn.replay = 0 ∧ t.cairn.newestV = (t.headerOk t.cairn.target0 || t.headerOk t.cairn.target1) ∧
      (t.cairn.newestV = false → t.cairn.newestId = 0) ∧
      (t.cairn.newestV = true → t.headerOk (t.cairn.target t.cairn.newestT) = true ∧
        t.cairn.newestId = w32 (t.loadNat (t.cairn.target t.cairn.newestT + 8) 4)) ∧
      (t.headerOk t.cairn.target0 = true → t.headerOk t.cairn.target1 = true → t.loadNat (t.cairn.target0 + 8) 4 ≤ t.cairn.newestId.toNat ∧
        t.loadNat (t.cairn.target1 + 8) 4 ≤ t.cairn.newestId.toNat) ∧ changesOnly (logged [.mbs, .cairn, .mem]) s t) ∧
  (∀ (s : State) (c : MbCmd) (host : List Cell), s.cairn.phase ≠ .idle ∨ s.cairn.lossWait = true →
    (passes 0x70 c s → ∃ t, exec (.cairnRegister c host) s = .next t ∧ answered 0x70 c .busy [] s t ∧ changesOnly (logged [.mbs]) s t) ∧
    (passes 0x71 c s → ∃ t, exec (.cairnTake c) s = .next t ∧ answered 0x71 c .busy [] s t ∧ changesOnly (logged [.mbs]) s t)) ∧
  (∀ (s : State) (c : MbCmd), passes 0x71 c s → s.cairn.replay = 1 ∨ s.cairn.replay = 3 →
    ∃ t, exec (.cairnTake c) s = .next t ∧ answered 0x71 c .busy [] s t ∧ changesOnly (logged [.mbs]) s t) ∧
  (∀ (s : State) (c : MbCmd) (g a : Nat) (id : Word), passes 0x71 c s → s.cairn.phase = .idle → s.cairn.lossWait = false → s.cairn.replay ≠ 1 →
    s.cairn.replay ≠ 3 → g = (if s.cairn.newestV then 1 - s.cairn.newestT else 0) → id = (if s.cairn.newestV then s.cairn.newestId + 1 else 1) →
    a = s.cairn.target g → a % 4096 = 0 → regionOf a = some .host ∨ regionOf a = some .flash → s.targetOpen a = true →
    ∃ t, exec (.cairnTake c) s = .next t ∧ answered 0x71 c .ok (leBytes 4 id.toNat ++ leBytes 1 g ++ [0, 0, 0]) s t ∧
      t.cairn.phase = .stopping ∧ t.cairn.grantedAt = s.etc ∧ t.cairn.takeId = id ∧ t.cairn.takeTarget = g ∧ t.cairn.lossWait = true ∧
      t.cairn.lossDa = numAt c.payload 0 8 ∧ t.cairn.ctr = numAt c.payload 8 2 ∧ t.cairn.ctrVal = w32 (numAt c.payload 0xC 4) ∧
      t.loadNat (a + 4) 4 = 0 ∧ (∀ x, x < a + 4 ∨ a + 8 ≤ x → t.byte x = s.byte x) ∧ t.cairn.newestId = s.cairn.newestId ∧
      t.cairn.entries = s.cairn.entries ∧ changesOnly (logged [.mbs, .cairn, .mem]) s t) ∧
  (∀ (s : State) (c : MbCmd), passes 0x71 c s → s.cairn.phase = .idle → s.cairn.lossWait = false → s.cairn.replay ≠ 1 → s.cairn.replay ≠ 3 →
    s.targetOpen (s.cairn.target (if s.cairn.newestV then 1 - s.cairn.newestT else 0)) = false →
    ∃ t, exec (.cairnTake c) s = .next t ∧ t.cairn.phase = .idle ∧ t.cairn.status = .internal ∧ t.cairn.lossWait = false ∧
      t.cairn.newestId = s.cairn.newestId ∧ t.fld 0x02090010 16 16 = min (s.fld 0x02090010 16 16 + 1) 0xFFFF) ∧
  (∀ (s : State) (c : MbCmd), passes 0x72 c s →
    ∃ t, exec (.cairnRestore c) s = .next t ∧ (t.mb c.m).phase = .running ∧ t.stateMb = some c.m ∧
      t.cairn = { s.cairn with
        restoring := some (numAt c.payload 0 1), restoreMb := c.m, tolerance := w32 (numAt c.payload 4 4), replayDa := numAt c.payload 8 8,
        replayCtr := numAt c.payload 0x10 2, replayVal := w32 (numAt c.payload 0x14 4) } ∧
      (∀ j, j ≠ c.m → t.mb j = s.mb j) ∧ changesOnly [.mbs, .stateMb, .cairn] s t)

/-- A crew that a registered take or its checkpoint concerns runs task id (R503, R504). -/
def Sys2Proof.Safety.takeRuns (id : Nat) (s : State) : Prop :=
  ∃ k p, (s.task id).scull = some k ∧ s.crewServes (k / 16) = some p ∧ natBit s.cairn.parts p = true

/-- The registered ranges of Cairn keep R501: live ranges and shadows are disjoint and lie in the stacks, at most 120 of them; the take's target lies in the host or
Hamada window, on a 4 KiB boundary. -/
structure Sys2Proof.Safety.cairnSane (target : Nat) (s : State) : Prop where
  apart : disjointAll (s.cairn.entries.flatMap fun e => [(e.1, e.2.1), (e.2.2, e.2.1)]) = true
  inside : ∀ e, e ∈ s.cairn.entries → e.1 + e.2.1 ≤ duneEnd ∧ e.2.2 + e.2.1 ≤ duneEnd
  few : s.cairn.entries.length ≤ 120
  target : target % 4096 = 0 ∧ ((hostBase ≤ target ∧ target + targetBytes s.cairn.entries ≤ hostEnd) ∨
    (flashBase ≤ target ∧ target + targetBytes s.cairn.entries ≤ flashEnd))

/-- A checkpoint failed (R507): the newest valid one stays, its id is taken again, the failure is counted and recorded, memory is as it was. -/
structure Sys2Proof.Safety.takeFailed (s t : State) : Prop where
  phase : t.cairn.phase = .idle ∧ t.cairn.lossWait = false ∧ t.cairn.lossDone = false ∧ t.cairn.drained = false
  shown : t.cairn.status = .internal ∧ t.cairn.takeId = 0
  newest : t.cairn.newestV = s.cairn.newestV ∧ t.cairn.newestT = s.cairn.newestT ∧ t.cairn.newestId = s.cairn.newestId
  count : t.fld 0x02090010 16 16 = min (s.fld 0x02090010 16 16 + 1) 0xFFFF
  log : recorded t 0 (b2n s.start.rom) 2 evCommand .internal [0x71, s.cairn.takeId]
  only : changesOnly (logged [.regs, .cairn]) s t

/-- A checkpoint is complete (R502, R505, R507): its header is valid with its id, it is the newest, counted and recorded. -/
structure Sys2Proof.Safety.takeDone (s t : State) : Prop where
  newest : t.cairn.newestV = true ∧ t.cairn.newestT = s.cairn.takeTarget ∧ t.cairn.newestId = s.cairn.takeId ∧ t.cairn.status = .ok
  header : t.loadNat (s.cairn.target s.cairn.takeTarget) 4 = 1 ∧ t.loadNat (s.cairn.target s.cairn.takeTarget + 4) 4 = 1 ∧
    t.loadNat (s.cairn.target s.cairn.takeTarget + 8) 4 = s.cairn.takeId.toNat ∧
    t.loadNat (s.cairn.target s.cairn.takeTarget + 0xC) 4 = s.cairn.entries.length
  count : t.fld 0x02090010 0 16 = min (s.fld 0x02090010 0 16 + 1) 0xFFFF
  log : recorded t 0 (b2n s.start.rom) 0 evCommand .ok [0x71, s.cairn.takeId]

/-- The take (R503, R504, R505, R506, R507): drain_us after the grant running tasks are pre-empted; with none left the copy begins; its end has every live range in its shadow and no other byte changed,
and measures the window; the drain's end has the shadows in the target; the loss is read once its counter is reached; the
later of the two makes the checkpoint valid; an unreadable range, an unlocked stack, a target that cannot be written (R38) or an unreadable loss fails it. -/
def Sys2Proof.Safety.CairnTakes : Prop :=
  (∀ s : State, canonical s → s.power = .on → s.cairn.phase = .stopping → s.cairn.grantedAt + s.fld 0x02090000 0 16 + 1 ≤ s.etc →
    ∃ t, exec .cairnDrainUsExpiry s = .next t ∧
      (∀ id, (s.task id).state = .running → takeRuns id s →
        t.task id = { s.task id with state := .ended true, held := [], todo := [], startedAt := s.etc }) ∧
      (∀ id, (s.task id).state ≠ .running ∨ ¬ takeRuns id s → t.task id = s.task id) ∧ changesOnly [.tasks] s t) ∧
  (∀ s : State, s.power ≠ .on ∨ s.cairn.phase ≠ .stopping ∨ s.etc < s.cairn.grantedAt + s.fld 0x02090000 0 16 + 1 →
    exec .cairnDrainUsExpiry s = .next s) ∧
  (∀ s : State, canonical s → s.power = .on → s.cairn.phase = .stopping →
    (∀ id, (s.task id).state = .running ∨ (∃ b, (s.task id).state = .ended b) → ¬ takeRuns id s) →
    exec .cairnStopDrained s = .next { s with cairn := { s.cairn with phase := .copying } }) ∧
  (∀ (s : State) (id : Nat), s.power ≠ .on ∨ s.cairn.phase ≠ .stopping ∨
    (canonical s ∧ ((s.task id).state = .running ∨ ∃ b, (s.task id).state = .ended b) ∧ takeRuns id s) →
    exec .cairnStopDrained s = .next s) ∧
  (∀ s : State, canonical s → s.power = .on → s.cairn.phase = .copying → cairnSane hostBase s →
    (∀ e, e ∈ s.cairn.entries → s.stackRangeBad e.1 e.2.1 = false ∧ s.stackServes e.2.2 = true) →
    ∃ t, exec .cairnCopyComplete s = .next t ∧
      t.cairn = { s.cairn with phase := .draining, copyEtc := s.etc, window := s.etc - s.cairn.grantedAt } ∧
      (∀ e, e ∈ s.cairn.entries → ∀ i, i < e.2.1 → t.byte (e.2.2 + i) = s.byte (e.1 + i)) ∧
      (∀ a, (∀ e, e ∈ s.cairn.entries → a < e.2.2 ∨ e.2.2 + e.2.1 ≤ a) → t.byte a = s.byte a) ∧
      changesOnly [.cairn, .mem, .poison, .regs] s t) ∧
  (∀ s : State, canonical s → settled s → s.power = .on →
    (s.cairn.phase = .copying → (∃ e, e ∈ s.cairn.entries ∧ (s.stackRangeBad e.1 e.2.1 = true ∨ s.stackServes e.2.2 = false)) →
      ∃ t, exec .cairnCopyComplete s = .next t ∧ takeFailed s t ∧ t.cairn.window = s.etc - s.cairn.grantedAt) ∧
    (∀ ok, s.cairn.phase = .draining → ok = false ∨ s.targetOpen (s.cairn.target s.cairn.takeTarget) = false ∨ (∃ e, e ∈ s.cairn.entries ∧ s.stackRangeBad e.2.2 e.2.1 = true) →
      ∃ t, exec (.cairnDrainComplete ok) s = .next t ∧ takeFailed s t ∧ t.cairn.window = s.cairn.window) ∧
    (s.cairn.lossWait = true → s.cairn.ctr = 0xFFFF ∨ reached (s.ctr s.cairn.ctr) s.cairn.ctrVal = true →
      s.readBad s.cairn.lossDa 4 = true ∨ (s.cairn.drained = true ∧ s.targetOpen (s.cairn.target s.cairn.takeTarget) = false) →
      ∃ t, exec .cairnLossReady s = .next t ∧ takeFailed s t)) ∧
  (∀ (s : State) (g : Nat), canonical s → s.power = .on → s.cairn.phase = .draining → g = s.cairn.target s.cairn.takeTarget → s.targetOpen g = true → cairnSane g s →
    (∀ e, e ∈ s.cairn.entries → s.stackRangeBad e.2.2 e.2.1 = false) →
    ∃ t, exec (.cairnDrainComplete true) s = .next t ∧ t.cairn.phase = .idle ∧ t.cairn.bytes = (s.cairn.entries.map fun e => e.2.1).sum ∧
      (∀ o b n sh, (o, b, n, sh) ∈ withOffsets 4096 s.cairn.entries → ∀ i, i < n → t.byte (g + o + i) = s.byte (sh + i)) ∧
      (∀ a, a < g ∨ g + targetBytes s.cairn.entries ≤ a → t.byte a = s.byte a) ∧ t.cairn.lossWait = s.cairn.lossWait ∧
      (s.cairn.lossDone = false → t.cairn.drained = true ∧ t.cairn.newestV = s.cairn.newestV ∧ changesOnly [.cairn, .mem, .poison, .regs] s t) ∧
      (s.cairn.lossDone = true → takeDone s t ∧ changesOnly (logged [.cairn, .mem, .poison, .regs]) s t)) ∧
  (∀ s : State, canonical s → s.power = .on → s.cairn.lossWait = true → s.cairn.ctr = 0xFFFF ∨ reached (s.ctr s.cairn.ctr) s.cairn.ctrVal = true →
    s.readBad s.cairn.lossDa 4 = false → cairnSane (s.cairn.target s.cairn.takeTarget) s →
    (s.cairn.drained = true → s.targetOpen (s.cairn.target s.cairn.takeTarget) = true) →
    ∃ t, exec .cairnLossReady s = .next t ∧ t.cairn.loss = w32 (s.loadNat s.cairn.lossDa 4) ∧ t.cairn.lossWait = false ∧
      (s.cairn.drained = false → t.cairn.lossDone = true ∧ t.mem = s.mem ∧ changesOnly [.cairn, .regs] s t) ∧
      (s.cairn.drained = true → takeDone s t ∧ t.cairn.recorded = w32 (s.loadNat s.cairn.lossDa 4) ∧
        changesOnly (logged [.cairn, .mem, .regs]) s t)) ∧
  (∀ (s : State) (ok : Bool), s.power ≠ .on ∨ s.cairn.phase ≠ .copying → exec .cairnCopyComplete s = .next s ∧
    (s.power ≠ .on ∨ s.cairn.phase ≠ .draining → exec (.cairnDrainComplete ok) s = .next s)) ∧
  (∀ s : State, s.power ≠ .on ∨ s.cairn.lossWait = false ∨ (s.cairn.ctr ≠ 0xFFFF ∧ reached (s.ctr s.cairn.ctr) s.cairn.ctrVal = false) →
    exec .cairnLossReady s = .next s)

/-- A restore's copy has ended with a status (R508): the command that waited for it is answered and recorded. -/
structure Sys2Proof.Safety.restoreAnswered (m : Nat) (st : Status) (s t : State) : Prop where
  box : (t.mb m).phase = .done ∧ (t.mb m).lastStatus = BitVec.ofNat 16 st.code ∧ t.stateMb = none ∧ ∀ j, j ≠ m → t.mb j = s.mb j
  shown : t.cairn.restoring = none ∧ t.cairn.status = st
  log : recorded t 1 m (if st = .ok then 0 else 1) evCommand st [w32 (s.mb m).lastOp.toNat, (s.mb m).tag]

/-- A restore and its replay (R508, R509): the copy brings every live range from the checkpoint, which is then the newest, and awaits its replay, or fails with INTERNAL; once the replay's counter is
reached the replayed loss is compared exactly with the recorded one, |L - Lr| ≤ tolerance × |Lr|, a tolerance of 0 meaning 10^-3. -/
def Sys2Proof.Safety.CairnRestores : Prop :=
  (∀ (s : State) (g da m : Nat) (host : List Cell), canonical s → s.power = .on → s.cairn.restoring = some g → da = s.cairn.target g → cairnSane da s →
    s.cairn.restoreMb = m → s.stateMb = some m → (s.mb m).phase = .running → s.mbQueue = [] → s.readBad da (targetBytes s.cairn.entries) = false →
    (∀ e, e ∈ s.cairn.entries → s.stackServes e.1 = true) →
    ∃ t, exec (.cairnRestoreCopyComplete .ok host) s = .next t ∧ restoreAnswered m .ok s t ∧
      (∀ o b n sh, (o, b, n, sh) ∈ withOffsets 4096 s.cairn.entries → ∀ i, i < n → t.byte (b + i) = (s.seeHost host).byte (da + o + i)) ∧
      (∀ a, (∀ e, e ∈ s.cairn.entries → a < e.1 ∨ e.1 + e.2.1 ≤ a) → t.byte a = (s.seeHost host).byte a) ∧
      t.cairn.newestV = true ∧ t.cairn.newestT = g ∧ t.cairn.newestId = w32 ((s.seeHost host).loadNat (da + 8) 4) ∧
      t.cairn.recorded = w32 ((s.seeHost host).loadNat (da + 0x20) 4) ∧ t.cairn.replay = 1 ∧
      changesOnly (logged [.mem, .poison, .regs, .cairn, .mbs, .stateMb]) s t) ∧
  (∀ (s : State) (g m : Nat) (res : Ending) (host : List Cell), canonical s → s.power = .on → s.cairn.restoring = some g → s.cairn.restoreMb = m →
    s.stateMb = some m → (s.mb m).phase = .running → s.mbQueue = [] →
    res ≠ .ok ∨ (∃ e, e ∈ s.cairn.entries ∧ s.stackServes e.1 = false) →
    ∃ t, exec (.cairnRestoreCopyComplete res host) s = .next t ∧ restoreAnswered m .internal s t ∧ t.cairn.newestV = s.cairn.newestV ∧
      t.cairn.replay = s.cairn.replay) ∧
  (∀ (s : State) (res : Ending) (host : List Cell), s.power ≠ .on ∨ s.cairn.restoring = none →
    exec (.cairnRestoreCopyComplete res host) s = .next s) ∧
  (∀ (s : State) (l : Word) (v : Nat), canonical s → s.power = .on → s.cairn.replay = 1 →
    s.cairn.replayCtr = 0xFFFF ∨ reached (s.ctr s.cairn.replayCtr) s.cairn.replayVal = true → l = w32 (s.loadNat s.cairn.replayDa 4) →
    (v = 3 ∧ (s.readBad s.cairn.replayDa 4 = true ∨ fp32Units l = none ∨ fp32Units s.cairn.recorded = none)) ∨
      (∃ a b u, fp32Units l = some a ∧ fp32Units s.cairn.recorded = some b ∧ fp32Units s.cairn.tolerance = some u ∧
        s.readBad s.cairn.replayDa 4 = false ∧
        v = if (u = 0 ∧ 1000 * (a - b).natAbs ≤ b.natAbs) ∨ (u ≠ 0 ∧ (a - b).natAbs * 2 ^ 149 ≤ u.natAbs * b.natAbs) then 2 else 3) →
    ∃ t, exec .cairnReplayVerdict s = .next t ∧ t.cairn = { s.cairn with replayed := l, replay := v } ∧
      recorded t 0 (b2n s.start.rom) (if v = 2 then 0 else 2) evCommand .ok [0x72, s.cairn.newestId, w32 v] ∧
      changesOnly (logged [.regs, .cairn]) s t) ∧
  (∀ s : State, s.power ≠ .on ∨ s.cairn.replay ≠ 1 ∨ (s.cairn.replayCtr ≠ 0xFFFF ∧ reached (s.ctr s.cairn.replayCtr) s.cairn.replayVal = false) →
    exec .cairnReplayVerdict s = .next s)

/-- A pending value was discarded `n` times (R438): counted, GUARD_MISMATCH shown for the pair, recorded with the origin of the access, what the pair holds, what was tried, and the
origin that armed the value; committed values stay. -/
structure Sys2Proof.Safety.mismatched (r n : Nat) (o : Nat × Nat) (off : Nat) (tried : Word) (armed : List Word) (s t : State) : Prop where
  count : t.fld 0x114 0 16 = min (s.fld 0x114 0 16 + n) 0xFFFF
  shown : t.reg 0x110 = w32 (6 + r * 0x10000)
  log : recorded t o.1 o.2 1 evRegWrite .guardMismatch ([w32 off, s.guardValue r, tried] ++ armed)
  values : ∀ j, (t.guard j).committed = (s.guard j).committed
  others : ∀ j, j ≠ r → t.guard j = s.guard j
  regs : ∀ off, off ∉ [0x110, 0x114, 0x264, 0x278] → t.reg off = s.reg off
  only : changesOnly (logged [.guards, .regs]) s t

/-- The twin write that a row of the table is: the pair, the word, the requester. -/
def Sys2Proof.Safety.guardRow : Instr → Option (Nat × Word × Requester)
  | .globalGReset v req => some (0, v, req)
  | .globalGPwrCap v req => some (1, v, req)
  | .globalGVlimit v req => some (2, v, req)
  | .globalGRemapRow v req => some (3, v, req)
  | .globalGRemapCh v req => some (4, v, req)
  | .globalGPortDis v req => some (5, v, req)
  | .globalGFuse v req => some (7, v, req)
  | _ => none

/-- GUARD_VALUE_WRITE, GUARD_PENDING_TIMEOUT and a twin write that does not commit (R437, R438): a value write arms its value and commits nothing; another access, 100 µs, or a twin write that is not
the complement discards it; a twin write that finds nothing pending is a mismatch of its own. -/
def Sys2Proof.Safety.GuardMismatches : Prop :=
  (∀ (s : State) (r : Nat) (v : Word) (req : Requester), canonical s → r < 8 → reaches s req (guardOff r) → (s.guard r).pending = none →
    ∃ t, exec (.guardValueWrite r v req) s = .next t ∧ t.guard r = { s.guard r with pending := some (v, req, s.etc) } ∧
      (∀ j, j ≠ r → t.guard j = s.guard j) ∧ changesOnly [.guards] s t) ∧
  (∀ (s : State) (r a : Nat) (v w : Word) (req armer : Requester), canonical s → r < 8 → reaches s req (guardOff r) →
    (s.guard r).pending = some (w, armer, a) →
    ∃ t, exec (.guardValueWrite r v req) s = .next t ∧ (t.guard r).pending = some (v, req, s.etc) ∧
      mismatched r 1 (originOf req) (guardOff r) v [w32 (originOf armer).1, w32 (originOf armer).2] s t) ∧
  (∀ (s : State) (r a : Nat) (w : Word) (armer : Requester), canonical s → s.power = .on → (s.guard r).pending = some (w, armer, a) → a + 101 ≤ s.etc →
    ∃ t, exec (.guardPendingTimeout r) s = .next t ∧ (t.guard r).pending = none ∧
      mismatched r 1 (originOf armer) (guardOff r) w [w32 (originOf armer).1, w32 (originOf armer).2] s t) ∧
  (∀ (s : State) (r : Nat), s.power ≠ .on ∨ (s.guard r).pending = none ∨ (∃ w q a, (s.guard r).pending = some (w, q, a) ∧ s.etc < a + 101) →
    exec (.guardPendingTimeout r) s = .next s) ∧
  (∀ (s : State) (e : Instr) (r : Nat) (v : Word) (req : Requester), guardRow e = some (r, v, req) → canonical s → reaches s req (twinOff r) →
    ((s.guard r).pending = none → ∃ t, exec e s = .next t ∧ (t.guard r).pending = none ∧ mismatched r 1 (originOf req) (twinOff r) v [] s t) ∧
    (∀ w q a, (s.guard r).pending = some (w, q, a) → v ≠ ~~~ w →
      ∃ t, exec e s = .next t ∧ (t.guard r).pending = none ∧ mismatched r 2 (originOf req) (twinOff r) v [] s t)) ∧
  (∀ (s : State) (r : Nat) (v : Word) (req : Requester), 8 ≤ r → exec (.guardValueWrite r v req) s = .next s)

/-- A requester may write a guarded register (R439, R440, Table CSR.2): the Coxswain always, the host the first six from READY on. -/
def Sys2Proof.Safety.mayWrite (r : Nat) (req : Requester) (s : State) : Prop :=
  req = .coxswain ∨ ∃ id, req = .host id ∧ r < 6 ∧ s.dev ≠ .starting

/-- A row of the table is a matching twin write of pair r, whose pending value is `pv`, armed by `armer`. -/
structure Sys2Proof.Safety.matching (e : Instr) (r : Nat) (pv : Word) (armer req : Requester) (s : State) : Prop where
  canon : canonical s
  row : guardRow e = some (r, ~~~ pv, req)
  reach : reaches s req (twinOff r)
  pending : ∃ a, (s.guard r).pending = some (pv, armer, a)

/-- Every check of R439 passes. -/
def Sys2Proof.Safety.lawful (r : Nat) (pv : Word) (armer req : Requester) (s : State) : Prop :=
  mayWrite r armer s ∧ mayWrite r req s ∧ guardLegal r s.dev = true ∧ s.guardAbsent r pv = false ∧ guardBad r pv = false

/-- The pair has committed (R437, R439): it holds the value within its fields, nothing is pending, OK is shown. -/
structure Sys2Proof.Safety.committed (r : Nat) (pv : Word) (s t : State) : Prop where
  value : t.guard r = ⟨pv &&& guardMask r, none⟩
  others : ∀ j, j ≠ r → t.guard j = s.guard j
  shown : t.reg 0x110 = w32 (r * 0x10000)

/-- The checks of a twin write, in their order, and what each pair's commit does (R294, R295, R296, R297, R357, R437, R439, R440, R448, R515): the first check that fails decides and nothing changes; the reset
begins a cold start 100 µs later, the power cap is settled, the voltage limits stand, a row is remapped or refused, a channel is marked for the next start, ports are
disabled, a fuse word is burnt. -/
def Obligations.GuardCommits : Prop :=
  (∀ (s : State) (e : Instr) (r : Nat) (pv : Word) (armer req : Requester) (st : Status), matching e r pv armer req s →
    (st = .authFailed ∧ ¬ (mayWrite r armer s ∧ mayWrite r req s)) ∨
      (mayWrite r armer s ∧ mayWrite r req s ∧ ((st = .stateInvalid ∧ guardLegal r s.dev = false) ∨ (guardLegal r s.dev = true ∧
        ((st = .unitAbsent ∧ s.guardAbsent r pv = true) ∨ (s.guardAbsent r pv = false ∧ st = .badArgument ∧ guardBad r pv = true))))) →
    ∃ t, exec e s = .next t ∧ t.guard r = { s.guard r with pending := none } ∧ (∀ j, j ≠ r → t.guard j = s.guard j) ∧
      t.reg 0x110 = w32 (st.code + r * 0x10000) ∧ t.fld 0x114 16 16 = min (s.fld 0x114 16 16 + 1) 0xFFFF ∧
      recorded t (originOf req).1 (originOf req).2 1 evRegWrite st [w32 (guardOff r), s.guardValue r, pv &&& guardMask r] ∧
      (∀ off, off ∉ [0x110, 0x114, 0x264, 0x278] → t.reg off = s.reg off) ∧ changesOnly (logged [.guards, .regs]) s t) ∧
  (∀ (s : State) (e : Instr) (pv : Word) (armer req : Requester), matching e 0 pv armer req s → lawful 0 pv armer req s → s.start.delayed = none →
    ∃ t, exec e s = .next t ∧ committed 0 pv s t ∧ t.start.delayed = some (.cold, 2, s.etc + 100) ∧
      changesOnly (logged [.guards, .regs, .start]) s t) ∧
  (∀ (s : State) (e : Instr) (pv : Word) (armer req : Requester), matching e 1 pv armer req s → lawful 1 pv armer req s →
    ∃ t, exec e s = .next t ∧ committed 1 pv s t ∧ t.pwr.cap = min (bits pv 0 15) (min (s.pwr.vinLim.getD 20000) (s.pwr.flowLim.getD 20000)) ∧
      changesOnly (logged [.guards, .regs, .pwr]) s t) ∧
  (∀ (s : State) (e : Instr) (pv : Word) (armer req : Requester), matching e 2 pv armer req s → lawful 2 pv armer req s →
    ∃ t, exec e s = .next t ∧ committed 2 pv s t ∧
      recorded t (originOf req).1 (originOf req).2 0 evRegWrite .ok [w32 (guardOff 2), s.guardValue 2, pv &&& guardMask 2] ∧
      changesOnly (logged [.guards, .regs]) s t) ∧
  (∀ (s : State) (e : Instr) (pv : Word) (armer req : Requester) (n c b w : Nat), matching e 3 pv armer req s → lawful 3 pv armer req s →
    n = bits pv 0 6 → c = bits pv 6 7 → b = bits pv 13 5 → w = bits pv 18 14 → (c, b, w) ∉ (s.dune n).remap →
    ∃ t, exec e s = .next t ∧ committed 3 pv s t ∧ (∀ j, j ≠ n → t.dune j = s.dune j) ∧
      ((s.dune n).remap.length < 1024 → (((s.dune n).remap ++ (s.dune n).burnt).filter fun x => x.1 == c && x.2.1 == b).length < 32 →
        t.dune n = { s.dune n with remap := (s.dune n).remap ++ [(c, b, w)] } ∧ t.nv.repairs = s.nv.repairs ++ [(n, c, b, w)] ∧
        t.fld (duneReg n 0x2C) 0 16 = min (s.fld (duneReg n 0x2C) 0 16 + 1) 0xFFFF ∧
        recorded t 3 (unitId 5 (n * 256 + c)) 1 evRemap .ok [w32 c, w32 b, w32 w]) ∧
      (1024 ≤ (s.dune n).remap.length → t.dune n = s.dune n ∧ t.nv.repairs = s.nv.repairs ∧
        t.fld (duneReg n 0x2C) 16 8 = min (s.fld (duneReg n 0x2C) 16 8 + 1) 0xFF ∧
        recorded t 3 (unitId 5 (n * 256 + c)) 1 evRemapRefused .ok [w32 c, w32 b, w32 w]) ∧
      changesOnly (logged [.guards, .regs, .dunes, .nv]) s t) ∧
  (∀ (s : State) (e : Instr) (pv : Word) (armer req : Requester), matching e 4 pv armer req s → lawful 4 pv armer req s →
    ∃ t, exec e s = .next t ∧ committed 4 pv s t ∧ (bits pv 0 6, bits pv 6 7) ∈ t.nv.chRepairs ∧
      (∀ x, x ∈ t.nv.chRepairs ↔ x ∈ s.nv.chRepairs ∨ x = (bits pv 0 6, bits pv 6 7)) ∧ changesOnly (logged [.guards, .regs, .nv]) s t) ∧
  (∀ (s : State) (e : Instr) (pv : Word) (armer req : Requester), matching e 5 pv armer req s → lawful 5 pv armer req s → noTasks s →
    ∃ t, exec e s = .next t ∧ committed 5 pv s t ∧
      (∀ p, p < 18 → bits pv p 1 = 1 → (t.port p).state = .disabled ∧ (t.port p).guardDis = true ∧ (t.port p).peer = (s.port p).peer) ∧
      (∀ p, 18 ≤ p ∨ bits pv p 1 = 0 → t.port p = s.port p) ∧ changesOnly (logged [.guards, .regs, .ports]) s t) ∧
  (∀ (s : State) (e : Instr) (pv : Word) (armer req : Requester), matching e 7 pv armer req s → lawful 7 pv armer req s →
    ∃ t, exec e s = .next t ∧ committed 7 pv s t ∧ t.fresh = s.fresh + 2 ∧
      recorded t 3 (unitId 13 0) 0 evFuseBurn .ok [w32 (bits pv 0 12), Config.freeWord s.fresh, Config.freeWord (s.fresh + 1)] ∧
      changesOnly (logged [.guards, .regs, .fresh]) s t)

/-- GLOBAL_APPLY and GLOBAL_SNAP (R74, R441, R442, R445): a strobe of group 3 stages the seed, which sculls that run a task apply at their task's end, of group 5 the
port configuration; a snapshot captures the counters of its groups, and no others, into their holding registers. -/
def Sys2Proof.Safety.StrobesAndSnapshots : Prop :=
  (∀ (s : State) (mask : Word) (req : Requester), reaches s req 0x100 →
    ∃ t, exec (.globalApply mask req) s = .next t ∧
      t.staged3 = (if bits mask 3 1 = 1 then some (s.reg 0x304 ++ s.reg 0x300) else s.staged3) ∧
      t.staged5 = (if bits mask 5 1 = 1 then some (s.reg 0x02060004) else s.staged5) ∧
      (bits mask 3 1 = 1 → canonical s → ∀ k, k ∈ t.seeded ↔ (s.scull k).task ≠ none) ∧ (bits mask 3 1 = 0 → t.seeded = s.seeded) ∧
      (mask ≠ s.view 0x100 → recorded t (originOf req).1 (originOf req).2 0 evRegWrite .ok [w32 0x100, s.view 0x100, mask]) ∧
      changesOnly (logged [.staged3, .staged5, .seeded]) s t) ∧
  (∀ (s : State) (mask : Word) (req : Requester), Tab.wf 0 s.holding = true → reaches s req 0x104 →
    ∃ t, exec (.globalSnap mask req) s = .next t ∧
      (∀ off d, off ∈ s.counterOffs → snapGroup off < 20 → bits mask (snapGroup off) 1 = 1 → regDef off = some d →
        Tab.get 0 t.holding off = s.view off &&& d.counters) ∧
      (∀ off, 20 ≤ snapGroup off ∨ bits mask (snapGroup off) 1 = 0 → Tab.get 0 t.holding off = Tab.get 0 s.holding off) ∧
      t.host = { s.host with dropLogged := s.host.dropLogged && decide (bits mask 16 1 = 0) } ∧ changesOnly [.holding, .host] s t)

/-- An offset holds a register that takes a plain write: defined, aligned, and none whose write is a command. -/
structure Sys2Proof.Safety.plainReg (off : Nat) (d : RegDef) : Prop where
  row : regDef off = some d
  word : off % 4 = 0 ∧ off < 0x03800000 ∧ off ∉ [0x100, 0x104, 0x264, 0x278]
  apart : ¬ (0x4000 ≤ off ∧ off < 0x4020) ∧ ¬ (0xC000 ≤ off ∧ off < 0xC020) ∧ ¬ (0x100000 ≤ off ∧ off < 0x120000) ∧
    ¬ (0x204000 ≤ off ∧ off < 0x20A000) ∧ ¬ (0x210000 ≤ off ∧ off < 0x218000) ∧ ¬ (0x400000 ≤ off ∧ off < 0x600000)
  name : regName off ∉ ["KV_RING_TAIL", "WAKE_RING_TAIL", "TIER_CMD", "SCHED_CMD", "LOWP_EVAL", "DUNE_WCB_CTRL", "SWEEP_PORT_CTRL",
    "WAKE_RING_BASE_LO", "WAKE_RING_BASE_HI", "WAKE_RING_CFG", "TIER_LOW", "TIER_DECAY"]

/-- A plain write is accepted (R14, R304, R434): what it names is there, the state allows it, every field is in its range. -/
def Sys2Proof.Safety.accepts (off : Nat) (d : RegDef) (v : Word) (s : State) : Prop :=
  s.namesFlash off v = false ∧ (d.ready = false ∨ s.dev = .ready) ∧ s.rangeBad off (d.after (s.reg off) v) = false

/-- REGISTER_WRITE and W1C_CLEAR (R8, R9, R14, R16, R304, R432, R433, R434, R491): an accepted write changes the writable fields of its register, clears the flags written 1, and is recorded if a field
changed; what is absent, illegal in the state or out of range refuses it; a part of a word, or an offset without a register, is
discarded and counted. A write of TIER_DECAY also restarts its span (log entry 80), one of TIER_LOW runs the evictor (R316). -/
def Sys2Proof.Safety.RegisterWrites : Prop :=
  (∀ (s : State) (off : Nat) (v : Word) (req : Requester) (d : RegDef) (e : Instr), canonical s → plainReg off d → reaches s req off →
    e = .registerWrite off v 0xF req ∨ (e = .w1cClear off v req ∧ d.clearable ≠ 0) →
    (accepts off d v s → ∃ t, exec e s = .next t ∧ t.reg off = d.after (s.reg off) v ∧
      t.reg off &&& d.clearable = s.reg off &&& ~~~ v &&& d.clearable ∧ t.reg off &&& d.writable = v &&& d.writable ∧
      t.reg off &&& ~~~ d.writable &&& ~~~ d.clearable = s.reg off &&& ~~~ d.writable &&& ~~~ d.clearable ∧
      (s.reg off &&& d.writable ≠ v &&& d.writable → recorded t (originOf req).1 (originOf req).2 0 evRegWrite .ok
        [w32 off, s.reg off, (s.reg off &&& ~~~ d.writable) ||| (v &&& d.writable)]) ∧
      (s.reg off &&& d.writable = v &&& d.writable → changesOnly [.regs] s t) ∧
      (∀ r, r ≠ off → r ≠ 0x264 → r ≠ 0x278 → t.reg r = s.reg r) ∧ changesOnly (logged [.regs]) s t) ∧
    (s.namesFlash off v = true → ∃ t, exec e s = .next t ∧ refusedWrite req off .unitAbsent (s.reg off) v s t) ∧
    (s.namesFlash off v = false → d.ready = true → s.dev ≠ .ready →
      ∃ t, exec e s = .next t ∧ refusedWrite req off .stateInvalid (s.reg off) v s t) ∧
    (s.namesFlash off v = false → d.ready = false ∨ s.dev = .ready → s.rangeBad off (d.after (s.reg off) v) = true → off ≠ 0x118 →
      ∃ t, exec e s = .next t ∧ t.fld 0x118 16 16 = min (s.fld 0x118 16 16 + 1) 0xFFFF ∧
        recorded t (originOf req).1 (originOf req).2 1 evRegWrite .badArgument [w32 off, s.reg off, v] ∧
        (∀ r, r ∉ [0x118, 0x264, 0x278] → t.reg r = s.reg r) ∧ changesOnly (logged [.regs]) s t)) ∧
  (∀ (s : State) (off : Nat) (v : Word) (be : BitVec 4) (req : Requester), reaches s req off → off < 0x04000000 →
    ¬ (0x100000 ≤ off ∧ off < 0x120000) → be ≠ 0xF ∨ off % 4 ≠ 0 ∨ (0x20 ≤ off ∧ off < 0x100 ∧ regDef off = none) →
    ∃ t, exec (.registerWrite off v be req) s = .next t ∧ t.fld 0x118 16 16 = min (s.fld 0x118 16 16 + 1) 0xFFFF ∧
      (∀ r, r ≠ 0x118 → t.reg r = s.reg r) ∧ changesOnly [.regs] s t) ∧
  (∀ (s : State) (off : Nat) (v : Word) (req : Requester) (d : RegDef), canonical s → off = 0x02030030 ∨ off = 0x02030034 → regDef off = some d →
    reaches s req off → accepts off d v s → ∃ t, exec (.registerWrite off v 0xF req) s = .next t ∧ t.reg off = d.after (s.reg off) v ∧
      (off = 0x02030030 → t.tier.decayAt = s.etc)) ∧
  (∀ (s : State) (off : Nat) (v : Word) (be : BitVec 4) (req : Requester), 0x04000000 ≤ off → exec (.registerWrite off v be req) s = .next s) ∧
  (∀ (s : State) (off : Nat) (v : Word) (req : Requester), (∀ d, regDef off = some d → d.clearable = 0) → exec (.w1cClear off v req) s = .next s) ∧
  (∀ (s : State) (v : Word) (req : Requester), exec (.registerWrite 0x100 v 0xF req) s = exec (.globalApply v req) s ∧
    exec (.registerWrite 0x104 v 0xF req) s = exec (.globalSnap v req) s ∧
    (∀ r, r < 8 → exec (.registerWrite (guardOff r) v 0xF req) s = exec (.guardValueWrite r v req) s) ∧
    (∀ e r, guardRow e = some (r, v, req) → exec (.registerWrite (twinOff r) v 0xF req) s = exec e s) ∧
    (∀ q, q < 512 → exec (.registerWrite (doorbellOff q) v 0xF req) s = exec (.doorbellWrite q v req) s ∧
      exec (.registerWrite (ringReg q 0x20) v 0xF req) s = exec (.cqHeadWrite q v req) s) ∧
    (∀ p, p < 18 → (bits v 0 1 = 1 → exec (.registerWrite (portReg p 0) v 0xF req) s = exec (.portEnable p v req) s) ∧
      (bits v 0 1 = 0 → exec (.registerWrite (portReg p 0) v 0xF req) s = exec (.portDisable p v req) s)) ∧
    (bits v 0 2 = 1 → exec (.registerWrite 0x02070094 v 0xF req) s = exec (.reclaim (bits v 2 3) req) s) ∧
    (bits v 0 2 = 2 → exec (.registerWrite 0x02070094 v 0xF req) s = exec (.schedReturn (bits v 2 3) req) s))

/-- BIT_ALIAS_WRITE and REGISTER_ACCESS_TIMEOUT (R10, R436, R438, R443, R444): an alias writes one bit of its register and keeps every other field; of a flag it clears only that one;
on a guarded pair it discards what is pending; the alias window reaches it; an access that no target answers is counted and
recorded with INTERNAL. -/
def Sys2Proof.Safety.AliasesAndTimeouts : Prop :=
  (∀ (s : State) (off b : Nat) (v : Word) (req : Requester) (d : RegDef) (on : Bool), canonical s → plainReg off d → off < 0x40000 → b < 32 →
    reaches s req off → on = decide (bits v 0 1 = 1) →
    (d.bitAcc b = some .rw ∨ d.bitAcc b = some .rs → accepts off d (setBit (s.reg off &&& ~~~ d.clearable) b on) s →
      ∃ t, exec (.bitAliasWrite off b v req) s = .next t ∧ t.reg off = setBit (s.reg off) b on ∧
        (∀ r, r ≠ off → r ≠ 0x264 → r ≠ 0x278 → t.reg r = s.reg r) ∧ changesOnly (logged [.regs]) s t) ∧
    (d.bitAcc b = some .w1c → accepts off d (setBit (s.reg off &&& ~~~ d.clearable) b true) s → on = true →
      ∃ t, exec (.bitAliasWrite off b v req) s = .next t ∧ t.reg off = setBit (s.reg off) b false ∧
        (∀ r, r ≠ off → t.reg r = s.reg r) ∧ changesOnly [.regs] s t) ∧
    ((d.bitAcc b = some .w1c ∧ on = false) ∨ d.bitAcc b = some .ro ∨ d.bitAcc b = none → exec (.bitAliasWrite off b v req) s = .next s)) ∧
  (∀ (s : State) (off b r a : Nat) (v w : Word) (req armer : Requester), canonical s → guardAt off = some r → b < 32 → off % 4 = 0 → reaches s req off →
    ((s.guard r).pending = some (w, armer, a) → ∃ t, exec (.bitAliasWrite off b v req) s = .next t ∧ (t.guard r).pending = none ∧
      mismatched r 1 (originOf req) off v [w32 (originOf armer).1, w32 (originOf armer).2] s t) ∧
    ((s.guard r).pending = none → exec (.bitAliasWrite off b v req) s = .next s)) ∧
  (∀ (s : State) (off b : Nat) (v : Word) (req : Requester), off < 0x40000 → off % 4 = 0 → b < 32 →
    exec (.registerWrite (0x03800000 + off / 4 * 0x80 + b * 4) v 0xF req) s = exec (.bitAliasWrite off b v req) s) ∧
  (∀ (s : State) (b : Nat) (v : Word) (req : Requester), b < 32 → bits v 0 1 = 1 →
    exec (.bitAliasWrite 0x100 b v req) s = exec (.globalApply (setBit 0 b true) req) s ∧
    (b < 20 → exec (.bitAliasWrite 0x104 b v req) s = exec (.globalSnap (setBit 0 b true) req) s)) ∧
  (∀ (s : State) (off b : Nat) (v : Word) (req : Requester), 0x40000 ≤ off ∨ off % 4 ≠ 0 ∨ 32 ≤ b → exec (.bitAliasWrite off b v req) s = .next s) ∧
  (∀ (s : State) (off : Nat) (w : Option Word) (req : Requester), s.power = .on →
    (∀ id, req = .host id → s.host.rate ≠ 0 ∧ s.locked 25 = true ∧ s.ideOpen = true) → s.absentAt off = false → s.answers off = false →
    ∃ t, exec (.registerAccessTimeout off w req) s = .next t ∧ t.fld 0x118 0 16 = min (s.fld 0x118 0 16 + 1) 0xFFFF ∧
      recorded t (originOf req).1 (originOf req).2 1 evRegWrite .internal [w32 off, 0, w.getD 0] ∧
      (∀ r, r ≠ 0x118 → r ≠ 0x264 → r ≠ 0x278 → t.reg r = s.reg r) ∧ changesOnly (logged [.regs]) s t) ∧
  (∀ (s : State) (off : Nat) (w : Option Word) (req : Requester), s.power ≠ .on ∨ (reaches s req off) ∨
    (s.absentAt off = true ∧ ∀ id, req = .host id → s.ideOpen = true) → exec (.registerAccessTimeout off w req) s = .next s)

/-- The cap in force after limits have changed (R515, R517, R518). -/
def Sys2Proof.Safety.capOf (s : State) (vin flow : Option Nat) : Nat :=
  min (min (s.guard 1).committed.toNat 20000) (min (vin.getD 20000) (flow.getD 20000))

/-- A thermal switch-off began (R520): power goes 2,000 µs later, a THERMAL record of severity 3 stands. -/
def Sys2Proof.Safety.switchingOff (s t : State) : Prop := t.pwr.offAt = some (s.etc + 2000) ∧ recorded t 3 (unitId 14 0) 3 evThermal .ok []

/-- The hottest of 20 dies in a sample: erg d as d, Oasis die o as 16 + o. -/
def Sys2Proof.Safety.dieTemp (p : PowerSample) (i : Nat) : Nat := if i < 16 then p.ergTemp.getD i 0 else p.oasisTemp.getD (i - 16) 0

/-- POWER_CONTROL_TICK, FLOW_LIMIT_EVAL and LOW_FLOW_SWITCH_OFF (R31, R513, R515, R516, R517, R518, R519, R520): measurements are kept, the input limit and the flow limit settle the cap in force, whose change is recorded; each
erg's voltage is the highest step within its bounds, or the lower bound where they cross, and no higher than before once the input power
has reached the cap; a die at 105 °C stops issue until it is below 100 °C, one at 110 °C, or a flow
below 6 L/min for a second, begins the switch-off. -/
def Obligations.PowerControl : Prop :=
  (∀ (s : State) (p : PowerSample) (v : Option Nat), canonical s → s.power = .on → p.ergTemp.length = 16 → p.oasisTemp.length = 4 →
    (s.guard 1).committed.toNat < 0x8000 → v = (if p.vin < 48000 then some (420 * p.vin / 1000) else none) →
    ∃ t, exec (.powerControlTick p) s = .next t ∧ t.pwr.watts = p.watts ∧ t.pwr.vin = p.vin ∧ t.pwr.limited = (p.binds || decide (t.pwr.cap ≤ p.watts)) ∧ t.pwr.vinLim = v ∧
      t.pwr.cap = capOf s v s.pwr.flowLim ∧ (∀ i, i ∈ t.pwr.hot ↔ i < 20 ∧ 100 ≤ dieTemp p i) ∧
      ((∃ i, i < 20 ∧ 110 ≤ dieTemp p i) ∨ (∃ n, n < 48 ∧ 110 ≤ (s.dune n).temp) → s.pwr.offAt = none → switchingOff s t) ∧
      ((∀ i, i < 20 → dieTemp p i < 110) → (∀ n, n < 48 → (s.dune n).temp < 110) → t.pwr.offAt = s.pwr.offAt) ∧
      ((∀ i, i < 20 → dieTemp p i < 100) → (∀ n, n < 48 → (s.dune n).temp < 110) →
        (t.pwr.cap = s.pwr.cap → changesOnly [.pwr, .ergs] s t) ∧
        (t.pwr.cap ≠ s.pwr.cap → recorded t 3 (unitId 14 0) 0 evCap .ok [w32 s.pwr.cap, w32 t.pwr.cap, w32 t.pwr.capCode])) ∧
      changesOnly (logged [.pwr, .ergs]) s t) ∧
  (∀ (s : State) (p : PowerSample) (d mv ask cap hi lo : Nat), canonical s → s.power = .on → d < 16 →
    (s.guard 1).committed.toNat < 0x8000 → mv = (s.erg d).mv → ask = p.ask.getD d mv →
    cap = capOf s (if p.vin < 48000 then some (420 * p.vin / 1000) else none) s.pwr.flowLim →
    lo = max (bits (s.guard 2).committed 0 10) (p.floor.getD d 0) →
    hi = min (min (bits (s.guard 2).committed 16 10)
        (if p.watts < cap then ask else if p.watts = cap then min ask mv else min ask (mv - 5)))
      (if 100 ≤ p.ergTemp.getD d 0 then mv - 5 else 0x3FF) →
    ∃ t, exec (.powerControlTick p) s = .next t ∧
      t.erg d = { s.erg d with mv := (t.erg d).mv, issueLim := decide (hi < lo), issueStop := (t.erg d).issueStop } ∧
      (hi / 5 * 5 < lo → (t.erg d).mv = lo) ∧ (lo ≤ hi / 5 * 5 → (t.erg d).mv = hi / 5 * 5) ∧
      (105 ≤ p.ergTemp.getD d 0 → (t.erg d).issueStop = true) ∧ (p.ergTemp.getD d 0 < 100 → (t.erg d).issueStop = false) ∧
      (100 ≤ p.ergTemp.getD d 0 → p.ergTemp.getD d 0 < 105 → (t.erg d).issueStop = (s.erg d).issueStop) ∧ (∀ j, 16 ≤ j → t.erg j = s.erg j)) ∧
  (∀ (s : State) (flow : Nat) (f : Option Nat), canonical s → s.power = .on → (s.guard 1).committed.toNat < 0x8000 →
    f = (if flow < 30000 then some (6667 * flow / 10000) else none) →
    ∃ t, exec (.flowLimitEval flow) s = .next t ∧ t.pwr.flow = flow ∧ t.pwr.flowLim = f ∧ t.pwr.cap = capOf s s.pwr.vinLim f ∧
      t.pwr.lowFlowAt = (if flow < 6000 then some (s.pwr.lowFlowAt.getD s.etc) else none) ∧ t.pwr.offAt = s.pwr.offAt ∧
      (t.pwr.cap = s.pwr.cap → changesOnly [.pwr] s t) ∧
      (t.pwr.cap ≠ s.pwr.cap → recorded t 3 (unitId 14 0) 0 evCap .ok [w32 s.pwr.cap, w32 t.pwr.cap, w32 t.pwr.capCode]) ∧
      changesOnly (logged [.pwr]) s t) ∧
  (∀ (s : State) (a : Nat), s.power = .on → s.pwr.lowFlowAt = some a → a + 1000001 ≤ s.etc → s.pwr.offAt = none →
    ∃ t, exec .lowFlowSwitchOff s = .next t ∧ switchingOff s t ∧ changesOnly (logged [.pwr]) s t) ∧
  (∀ s : State, s.power ≠ .on ∨ s.pwr.lowFlowAt = none ∨ s.pwr.offAt ≠ none ∨ (∃ a, s.pwr.lowFlowAt = some a ∧ s.etc < a + 1000001) →
    exec .lowFlowSwitchOff s = .next s) ∧
  (∀ (s : State) (p : PowerSample) (flow : Nat), s.power ≠ .on → exec (.powerControlTick p) s = .next s ∧ exec (.flowLimitEval flow) s = .next s)

/-- LOG_PERSIST and SUPPRESSION_WINDOW_CLOSE (R496, R497): the records that wait are in the flash area and wait no more; a span in which records were lost is reported once it has ended; without flash, its key or its
island nothing is persisted; a window closes 100 µs after its record, with a SUPPRESSED record of what it counted, if it counted any. -/
def Obligations.LogUpkeep : Prop :=
  (∀ s : State, s.power = .on → 0 < s.log.waiting → s.log.lostFirst = none → s.hasFlash = true → s.nv.flashKey = true → s.locked 34 = true →
    ∃ t, exec .logPersist s = .next t ∧ t.log = { s.log with area := t.log.area, waiting := 0 } ∧
      t.log.area = (s.log.ring.take s.log.waiting ++ s.log.area).take (2 ^ 26) ∧ changesOnly [.log] s t) ∧
  (∀ s : State, s.power = .on → 0 < s.log.waiting → s.log.lostFirst = none → s.hasFlash = false ∨ s.nv.flashKey = false ∨ s.locked 34 = false →
    exec .logPersist s = .next s) ∧
  (∀ (s : State) (n : Nat), s.power = .on → 0 < s.log.waiting → s.log.lostFirst = some n → s.log.lostAt + 1000 ≤ s.etc → s.log.ring.length < 16384 →
    ∃ t, exec .logPersist s = .next t ∧ t.log.lostFirst = none ∧ t.log.lostCount = 0 ∧ t.log.next = s.log.next + 1 ∧
      recorded t 0 0 2 evLogLoss .ok [w32 s.log.lostCount, w32 n, w32 (n / 0x100000000)] ∧ changesOnly (logged []) s t) ∧
  (∀ s : State, s.power ≠ .on ∨ s.log.waiting = 0 → exec .logPersist s = .next s) ∧
  (∀ (s : State) (i : Nat) (w : Window), s.power = .on → s.log.windows[i]? = some w → w.openedAt + 100 ≤ s.etc → s.start.logOpen = true →
    ∃ t, exec (.suppressionWindowClose i) s = .next t ∧ t.log.windows = s.log.windows.eraseIdx i ∧
      (w.count = 0 → t.log = { s.log with windows := s.log.windows.eraseIdx i } ∧ changesOnly [.log] s t) ∧
      (0 < w.count → recorded t 0 0 w.severity evSuppressed w.status [w32 w.code, w32 w.cls, w32 w.ident, w32 w.count]) ∧
      changesOnly (logged []) s t) ∧
  (∀ (s : State) (i : Nat), s.power ≠ .on ∨ s.log.windows[i]? = none ∨ (∃ w, s.log.windows[i]? = some w ∧ s.etc < w.openedAt + 100) →
    exec (.suppressionWindowClose i) s = .next s)

/-- The parts of the state that each command may change; every other part stays as it was. -/
def Sys2Proof.Safety.footprint : Instr → List Part
  | .powerApplied | .resetN _ _ | .powerRestore | .startDelayExpiry _ | .startRetry =>
    allBut [.queue, .fresh, .ident, .life, .mem, .poison]
  | .inputSwitchOff | .thermalPowerRemove =>
    allBut [.queue, .fresh, .ident, .life, .reserved, .nv]
  | .startStepComplete _ =>
    logged [.fresh, .dev, .start, .nv, .sec, .regs, .mem, .poison, .sculls, .crews, .ergs, .ctrs, .tasks, .rings, .mbs,
    .dunes, .tier, .kv, .lowp, .wakes, .sched, .host]
  | .startStepTimeout =>
    logged [.dev, .start, .nv, .regs, .mbs]
  | .lockstepMismatch | .coxWatchdogExpiry =>
    logged [.dev, .fault, .start, .nv, .mbs, .stateMb, .mbQueue]
  | .entropyHealthFail =>
    logged [.dev, .fault, .start, .nv, .sec, .regs, .mbs, .stateMb, .mbQueue]
  | .islandLockLoss _ =>
    allBut [.queue, .power, .pwrGood, .etc, .timer, .ident, .life, .sec, .crash, .staged5, .staged3, .seeded, .holding,
    .guards, .lastRing, .flashGone, .pwr, .cairn]
  | .islandRelock _ =>
    [.sent, .vecPend, .islands]
  | .islandRelockTimeout _ =>
    logged [.fresh, .regs, .mem, .poison, .sculls, .crews, .ergs, .ctrs, .tasks, .rings, .dunes, .tier, .kv, .lowp,
    .wakes, .ports, .rigger, .colls, .peers, .sched, .flashGone]
  | .delayLineRecal _ _ _ _ =>
    logged [.fresh, .nv, .regs, .mem, .poison, .sculls, .crews, .ergs, .ctrs, .tasks, .rings, .dunes, .tier, .kv, .lowp,
    .sched]
  | .beatRateWindowEnd _ _ =>
    [.lossCounts, .regs, .ergs]
  | .doorbellWrite _ _ _ | .ringEnable _ _ _ | .ringDisable _ _ _ | .cqHeadWrite _ _ _ =>
    logged [.regs, .rings]
  | .ringFetchVisit _ =>
    [.rings, .lastRing]
  | .descriptorReadComplete _ _ _ _ | .taskDone _ | .residueMismatch _ _ _ | .accEccUe _ | .storeEccUe _ _ _
  | .taskHandback _ | .scullSelfTestDone _ _ | .seifMismatch _ | .bowMismatch _ | .bowSelfTestDone _ _
  | .fenceComplete _ | .signal _ | .swapinServeComplete _ _ | .reclaim _ _ | .schedReturn _ _ | .drainLimitExpiry
  | .cairnDrainUsExpiry =>
    logged [.fresh, .regs, .mem, .poison, .sculls, .crews, .ergs, .ctrs, .tasks, .rings, .dunes, .tier, .kv, .lowp,
    .sched]
  | .taskTake _ | .taskSteal _ =>
    logged [.fresh, .regs, .seeded, .mem, .poison, .sculls, .crews, .ergs, .ctrs, .tasks, .rings, .dunes, .tier, .kv,
    .lowp, .ports, .rigger, .colls, .peers, .sched]
  | .taskResume _ _ | .taskCommit _ _ | .seifSelfTestDone _ _ | .walkerEntryRead _ _ | .deadlineExpiry _ _ | .rdRsp _ _
  | .peerTimeout _ =>
    logged [.fresh, .regs, .mem, .poison, .sculls, .crews, .ergs, .ctrs, .tasks, .rings, .dunes, .tier, .kv, .lowp,
    .ports, .peers, .sched]
  | .scullDmaComplete _ _ _ _ _ _ =>
    logged [.fresh, .nv, .regs, .mem, .poison, .sculls, .crews, .ergs, .ctrs, .tasks, .rings, .dunes, .tier, .kv, .lowp,
    .ports, .peers, .sched]
  | .handbackTimeout _ | .wrAck _ _ =>
    logged [.fresh, .regs, .mem, .poison, .sculls, .crews, .ergs, .ctrs, .tasks, .rings, .dunes, .tier, .kv, .lowp,
    .peers, .sched]
  | .seifPageSuspend _ =>
    [.sculls, .tasks]
  | .kvRingTailWrite _ _ _ =>
    logged [.regs, .kv]
  | .lowpEvalStart _ =>
    logged [.regs, .mem, .poison, .tasks, .dunes, .lowp]
  | .lowpEvalComplete =>
    logged [.regs, .crews, .tasks, .lowp]
  | .wcbEntryTimeout _ _ _ | .wcbFlush _ _ _ =>
    logged [.nv, .regs, .poison, .dunes]
  | .patrolScrubRead _ _ =>
    logged [.fresh, .nv, .regs, .mem, .poison, .sculls, .crews, .ergs, .ctrs, .tasks, .rings, .dunes, .tier, .kv, .lowp,
    .ports, .rigger, .colls, .sched]
  | .bandEvaluation _ _ =>
    logged [.regs, .poison, .dunes]
  | .stackPowerRemove _ =>
    logged [.mem, .poison, .dunes]
  | .sramScrub _ _ _ | .phaseTimerExpiry _ | .memberGuardExpiry _ =>
    logged [.fresh, .regs, .mem, .poison, .sculls, .crews, .ergs, .ctrs, .tasks, .rings, .dunes, .tier, .kv, .lowp,
    .ports, .rigger, .colls, .sched]
  | .dunePhyCal _ _ _ =>
    logged [.nv, .dunes]
  | .flashPatrol _ _ _ =>
    logged [.nv]
  | .wearLevelling _ _ _ | .mgmtQuote _ _ | .mgmtLinkstat _ _ _ =>
    []
  | .telemetrySample _ | .flowLimitEval _ | .lowFlowSwitchOff =>
    logged [.pwr]
  | .tierRegister _ _ | .tierPromote _ _ =>
    logged [.fresh, .regs, .mem, .poison, .dunes, .tier]
  | .tierUnregister _ _ | .tierEvict _ _ | .heatDecay =>
    logged [.regs, .mem, .poison, .dunes, .tier]
  | .tierLoad _ _ _ =>
    logged [.regs, .mem, .tier]
  | .tierFlush _ =>
    logged [.regs, .tier]
  | .copyInComplete _ _ _ =>
    logged [.regs, .mem, .poison, .crews, .tasks, .dunes, .tier]
  | .copyOutComplete _ _ | .tierCmdComplete _ =>
    logged [.fresh, .regs, .mem, .poison, .crews, .tasks, .dunes, .tier]
  | .wakeRingTailWrite _ _ _ _ | .wakeSelfTestDone _ _ =>
    logged [.regs, .wakes]
  | .wakeOpen _ _ _ | .wakeRun _ _ _ =>
    [.mem, .wakes]
  | .wakeClose _ _ =>
    [.wakes]
  | .wakeFrameDone _ _ _ _ _ _ _ _ _ _ _ _ _ =>
    logged [.fresh, .regs, .mem, .poison, .crews, .ctrs, .tasks, .dunes, .lowp, .wakes]
  | .wakeJobEnd _ _ _ _ _ _ | .wakeFrameWatchdog _ _ | .wakeParityFail _ =>
    logged [.fresh, .regs, .mem, .poison, .crews, .ctrs, .tasks, .dunes, .wakes]
  | .portEnable _ _ _ | .portDisable _ _ _ | .readmit _ _ _ | .trainingDone _ _ | .trainingTimeout _
  | .downRetryExpiry _ | .attestTimeout _ | .flitReceive _ _ | .frameReceive _ _ | .creditStarvation _ _
  | .rekeyTimeout _ | .mgmtSign _ _ _ _ | .mgmtFinish _ _ _ | .rdReq _ _ | .wrReq _ _ | .collStart _ _ | .chunkUp _ _
  | .chunkDown _ _ | .ackUp _ _ | .collNote _ _ | .collFinal _ _ | .flagUp _ _ | .flagDown _ _ =>
    logged [.fresh, .regs, .mem, .poison, .sculls, .crews, .ergs, .ctrs, .tasks, .rings, .dunes, .tier, .kv, .lowp,
    .ports, .rigger, .colls, .peers, .sched]
  | .rekeyStart _ | .mgmtCert _ _ _ _ | .mgmtKemEk _ _ _ | .mgmtKemCt _ _ _ | .mgmtRekeyEk _ _ _ =>
    logged [.fresh, .sec, .regs, .mem, .poison, .sculls, .crews, .ergs, .ctrs, .tasks, .rings, .dunes, .tier, .kv,
    .lowp, .ports, .rigger, .colls, .peers, .sched]
  | .mgmtRekeyCt _ _ _ | .linkstatSend _ =>
    [.sent, .ports]
  | .mgmtRekeyDone _ =>
    [.ports]
  | .mgmtQuoteReq _ _ =>
    logged [.sec, .regs, .ports]
  | .beOverrun _ =>
    logged [.regs, .tasks]
  | .ringIrqHoldExpiry _ =>
    [.sent, .rings, .vecPend]
  | .msixVectorUnmask _ | .ideKeySet _ =>
    [.sent, .host, .vecPend]
  | .linkRetrain _ _ _ =>
    logged [.fresh, .regs, .mem, .poison, .sculls, .crews, .ergs, .ctrs, .tasks, .rings, .mbs, .dunes, .tier, .kv,
    .lowp, .sched, .host]
  | .bar2Access _ _ _ | .cxlMemRequest _ _ _ =>
    logged [.regs, .mem, .poison, .dunes, .host]
  | .spdmRequest _ =>
    logged [.sec, .regs]
  | .ideIntegrityFail _ =>
    logged [.regs, .host]
  | .devInfo _ | .devStatus _ | .capRead _ | .devRun _ | .devQuiesce _ | .devConfig _ | .devRestart _ | .pwrGet _
  | .pwrCapSet _ _ | .logInfo _ | .logRead _ | .sensorRead _ | .fwInfo _ | .fwStage _ | .fwActivate _ | .attestQuote _
  | .certRead _ | .lcTransition _ | .cairnRegister _ _ | .cairnTake _ | .cairnRestore _ | .cairnStatus _
  | .unknownOpcode _ _ | .cairnRestoreCopyComplete _ _ =>
    allBut [.queue, .power, .pwrGood, .etc, .timer, .fault, .ident, .crash, .staged5, .staged3, .seeded, .holding,
    .lastRing, .wakes, .host, .islands, .flashGone]
  | .quiesceComplete =>
    logged [.dev]
  | .cairnStopDrained =>
    [.cairn]
  | .cairnCopyComplete =>
    logged [.regs, .mem, .poison, .crews, .tasks, .cairn]
  | .cairnDrainComplete _ | .cairnLossReady =>
    logged [.regs, .mem, .poison, .crews, .tasks, .dunes, .cairn]
  | .cairnReplayVerdict =>
    logged [.regs, .cairn]
  | .guardValueWrite _ _ _ | .guardPendingTimeout _ =>
    logged [.regs, .guards]
  | .globalGReset _ _ | .globalGPwrCap _ _ | .globalGVlimit _ _ | .globalGRemapRow _ _ | .globalGRemapCh _ _
  | .globalGPortDis _ _ | .globalGFuse _ _ =>
    logged [.fresh, .start, .life, .nv, .regs, .guards, .mem, .poison, .sculls, .crews, .ergs, .ctrs, .tasks, .rings,
    .dunes, .tier, .kv, .lowp, .ports, .rigger, .colls, .peers, .sched, .pwr]
  | .globalApply _ _ =>
    logged [.regs, .staged5, .staged3, .seeded]
  | .globalSnap _ _ =>
    logged [.regs, .holding, .host]
  | .bitAliasWrite _ _ _ _ =>
    logged [.regs, .staged5, .staged3, .seeded, .holding, .guards, .host]
  | .w1cClear _ _ _ | .registerAccessTimeout _ _ _ =>
    logged [.regs]
  | .registerWrite _ _ _ _ =>
    allBut [.queue, .power, .pwrGood, .etc, .timer, .fault, .ident, .crash, .lastRing, .islands, .flashGone]
  | .powerControlTick _ =>
    logged [.ergs, .pwr]
  | .logPersist =>
    [.sent, .reserved, .log, .lossCounts, .vecPend]
  | .suppressionWindowClose _ =>
    logged []

/-- The engines and the host's side of a state are as a start leaves them. -/
def Sys2Proof.Safety.unitsFresh (s : State) : Prop :=
  ∀ k, s.scull k = .init ∧ s.crew k = .init ∧ s.erg k = .init ∧ s.ring k = .init ∧ s.mb k = .init ∧ s.dune k = .init ∧ s.wake k = .init ∧
    s.port k = .init ∧ s.task k = .none ∧ s.tensor k = .none ∧ s.ctr k = 0

/-- A step takes the command at the front of the queue and runs it on the rest of the queue (the host's interface; the spec's
block has no program of its own). -/
def Obligations.StepRunsFront : Prop :=
  ∀ (c : Instr) (s : State), step { s with pending := c :: s.pending } = exec c s ∧
    (∀ t, exec c s = .next t → t.pending = s.pending)

/-- On an empty queue one microsecond of ETC passes (log entry 4, R43, R46, R522): the timeouts that are due expire first, so that no pending guarded value outlives its time;
then ETC advances by one and wraps at 2^64, and the count of limited
time advances while the module is limited; with the power off or the timer held nothing happens. -/
def Sys2Proof.Safety.EmptyQueueTicks : Prop :=
  (∀ s : State, s.pending = [] → s.power = .on → s.timer = true →
    step s = .next (if s.expireDue.power = .on ∧ s.expireDue.timer = true then s.expireDue.count else s.expireDue)) ∧
  (∀ s : State, s.pending = [] → s.power = .on → s.timer = true → s.expireDue = s →
    ∃ t, step s = .next t ∧ t.etc = (s.etc + 1) % 2 ^ 64 ∧
      t.reg 0x288 = (if s.pwr.limited = true then w32 (min ((s.reg 0x288).toNat + 1) 0xFFFFFFFF) else s.reg 0x288) ∧
      (∀ off, off ≠ 0x288 → t.reg off = s.reg off) ∧ changesOnly [.etc, .regs] s t) ∧
  (∀ (s t : State) (r a : Nat) (w : Word) (req : Requester), canonical s → s.pending = [] → s.power = .on → s.timer = true → r < 8 →
    (s.guard r).pending = some (w, req, a) → a + 101 ≤ s.etc → step s = .next t → (t.guard r).pending = none) ∧
  (∀ s : State, s.pending = [] → s.power ≠ .on ∨ s.timer = false → step s = .next s)

/-- ETC is changed by nothing but time and starts (R43): every command leaves it as it was, unless it begins a start or takes the
power away, and then it is 0. -/
def Sys2Proof.Safety.EtcUntouched : Prop :=
  ∀ (i : Instr) (s t : State), exec i s = .next t →
    t.etc = s.etc ∨ (t.etc = 0 ∧ ((t.power = .on ∧ t.dev = .starting ∧ t.start.step = 1) ∨ (t.power ≠ .on ∧ t.timer = false)))

/-- The state after reset (R43, R415, R448, R454; the reset point is log entry 1): powered, in STARTING at step 1 of a cold start,
ETC 0, every register at its reset value, every unit as a start leaves it, no record in the ring, nothing in memory, nothing waiting. -/
def Obligations.ResetState : Prop :=
  State.reset.power = .on ∧ State.reset.dev = .starting ∧ State.reset.start.step = 1 ∧ State.reset.start.kind = 0 ∧
    State.reset.etc = 0 ∧ State.reset.pending = [] ∧ State.reset.mem = [] ∧ State.reset.log.ring = [] ∧
    (∀ off, State.reset.reg off = resetAt off) ∧ (∀ r, State.reset.guard r = ⟨guardReset r, none⟩) ∧ unitsFresh State.reset ∧
    canonical State.reset

/-- Every step keeps every table in its canonical form: equal contents stay equal data (the form of the model's memory and tables;
that it holds at reset is a clause of ResetState). -/
def Obligations.StepKeepsCanonical : Prop :=
  ∀ s t : State, canonical s → step s = .next t → canonical t

/-- Every command completes, in every state and for all its operands, and changes no part of the state outside its footprint
(R6, R7, R14, R421: a command that is refused leaves the rest as it was). -/
def Obligations.EveryCommandCompletes : Prop :=
  ∀ (i : Instr) (s : State), ∃ t, exec i s = .next t ∧ changesOnly (footprint i) s t

/-- What no step takes back (R460, R463, R470): the variant and the serial number, the minimum security version, the floor of the
identity index, the burnt life-cycle entries, revoked slots, fused units. -/
def Obligations.FusedForever : Prop :=
  ∀ s t : State, step s = .next t → fused s t

/-- A command that is legal in itself but not legal in the current device state (R421): at its turn it is answered with STATE_INVALID, logged, and
changes nothing but its mailbox. -/
def Obligations.IllegalInState : Prop :=
  ∀ (s : State) (e : Instr) (op : Nat) (c : MbCmd), mailRow e = some (op, c) → rings c s →
    (s.mb c.m).phase = .idle ∨ (s.mb c.m).phase = .done → wellFormed c → (opState op = true → s.stateMb = none ∧ s.mbQueue = []) →
    s.opAbsent op c.payload = false → natBit (opStates op) s.dev.code = false →
    ∃ t, exec e s = .next t ∧ answered op c .stateInvalid [] s t ∧
      recorded t 1 c.m 1 evCommand .stateInvalid [w32 op, c.tag] ∧ changesOnly (logged [.mbs]) s t

/-- The fuses hold 64 life-cycle entries (R463): an accepted transition burns exactly one of them, one that finds none left is refused with
BAD_ARGUMENT and burns none, and GLOBAL_LIFECYCLE.used shows how many are burnt. -/
def Obligations.LifeCycleEntries : Prop :=
  (∀ (s : State) (c : MbCmd), passes 0x62 c s → numAt c.payload 2 2 = 0 ∨ s.tokenOk (numAt c.payload 0 1) (c.payload.drop 8) = true →
    s.start.delayed = none →
    ∃ t, exec (.lcTransition c) s = .next t ∧ answered 0x62 c .ok [] s t ∧ t.nv.lcUsed = s.nv.lcUsed + 1 ∧ t.nv.lcUsed ≤ 64) ∧
  (∀ (s : State) (c : MbCmd), sends 0x62 c s → natBit (opStates 0x62) s.dev.code = true → 64 ≤ s.nv.lcUsed →
    ∃ t, exec (.lcTransition c) s = .next t ∧ answered 0x62 c .badArgument [] s t ∧ t.nv.lcUsed = s.nv.lcUsed ∧
      changesOnly (logged [.mbs]) s t) ∧
  (∀ s : State, s.nv.lifecycle ≤ 5 → s.nv.lcUsed ≤ 64 → bits (s.view 0x224) 4 7 = s.nv.lcUsed)

/-- A refused tag of a low-precision evaluation (R277): the evaluation stalls, fails and changes the status of no task, neither at its start
nor at its end (a task that has committed only hands its events to the pass, R276), and the refused layer is at P = 1 in the next pass, as it was where it was at P = 1 in the last. -/
def Obligations.TagRefused : Prop :=
  (∀ (s : State) (req : Requester), canonical s → reaches s req 0x02020020 → s.dev = .ready ∨ s.dev = .running → s.lowp.busy = false →
    ∃ t, exec (.lowpEvalStart req) s = .next t ∧ t.crews = s.crews ∧ t.sculls = s.sculls ∧
      (∀ id, t.task id = { s.task id with
        counts := if (s.task id).state = .committed ∧ (s.task id).status = .ok then .empty else (s.task id).counts }) ∧
      ∀ g, (Tab.get Tag.none t.lowp.tags g).denied = true → (Tab.get Tag.none t.lowp.tags g).p2 = false) ∧
  (∀ s : State, canonical s → s.power = .on → s.lowp.busy = true →
    ∃ t, exec .lowpEvalComplete s = .next t ∧ t.lowp.busy = false ∧ t.lowp.tags = s.lowp.tags ∧ t.sculls = s.sculls ∧
      ∀ id, (t.task id).status = (s.task id).status ∧
        ((t.task id).state = (s.task id).state ∨ ((∃ why, (s.task id).state = .parked why) ∧ (t.task id).state = .queued)))

/-- On YD1-E (R304) a REGISTER or a LOAD that names a T3 home, and a register write that names the Hamada window, is refused with
UNIT_ABSENT and has no other effect. -/
def Obligations.NoFlashOnE : Prop :=
  (∀ (s : State) (i name : Nat) (req : Requester), tierReady s req → s.nv.variant = .yd1e →
    name = numAt (s.load (s.regEntryDa i) 64) 8 8 % 2 ^ 56 → regionOf name = some .flash ∨ s.nameIn 1 name 1 = true →
    ∃ t, exec (.tierRegister i req) s = .next t ∧ tierEnded 1 i .unitAbsent s t) ∧
  (∀ (s : State) (i : Nat) (req : Requester) (host : List Cell), tierReady s req → s.nv.variant = .yd1e →
    (s.tensor i).state ≠ .unregistered → s.nameIn 1 (s.tensor i).name 1 = true →
    ∃ t, exec (.tierLoad i req host) s = .next t ∧ tierEnded 3 i .unitAbsent s t) ∧
  (∀ (s : State) (off : Nat) (v : Word) (req : Requester) (d : RegDef), canonical s → plainReg off d → reaches s req off →
    s.nv.variant = .yd1e → daHigh.contains (regName off) = true → 0x20000 ≤ bits v 0 24 → bits v 0 24 < 0x21000 →
    ∃ t, exec (.registerWrite off v 0xF req) s = .next t ∧ refusedWrite req off .unitAbsent (s.reg off) v s t)

/-- The commands of rings, tasks and pages do their own work in every state that lets them (R118, R119, R122, R123, R127, R221, R239, R406, R408, R410, R412, R414). -/
def Sys2Proof.Safety.TasksComplete : Prop :=
  (∀ (s : State) (q : Nat) (v : Word) (req : Requester), q < 512 → reaches s req (doorbellOff q) → s.dev = .ready ∨ s.dev = .running →
    (v - (s.ring q).head).toNat ≤ s.ringSlots q →
    exec (.doorbellWrite q v req) s = .next (s.setRing q { s.ring q with tail := v })) ∧
  (∀ (s : State) (q : Nat) (v : Word) (req : Requester), q < 512 → reaches s req (ringReg q 0x20) →
    (v - (s.ring q).cqHead).toNat ≤ ((s.ring q).cqTail - (s.ring q).cqHead).toNat →
    exec (.cqHeadWrite q v req) s = .next (s.setRing q { s.ring q with cqHead := v })) ∧
  (∀ (s : State) (q : Nat) (v : Word) (req : Requester), canonical s → q < 512 → reaches s req (ringReg q 8) →
    4 ≤ bits v 0 5 → bits v 0 5 ≤ 16 → 4 ≤ bits v 5 5 → bits v 5 5 ≤ 16 →
    ((s.ring q).state = .disabled → ∃ t, exec (.ringEnable q v req) s = .next t ∧ (t.ring q).state = .active) ∧
    (bits v 0 10 = s.fld (ringReg q 8) 0 10 → (s.ring q).state = .active ∨ (s.ring q).state = .halted →
      ∃ t, exec (.ringDisable q v req) s = .next t ∧
        (t.ring q).state = if (s.ring q).live = [] ∧ (s.ring q).reads = [] then .disabled else .draining)) ∧
  (∀ (s : State) (q : Nat), s.power = .on → (s.ring q).deferred = true →
    (∀ a, (s.ring q).lastIrq = some a → a + s.fld (ringReg q 0x28) 0 16 ≤ s.etc) →
    exec (.ringIrqHoldExpiry q) s =
      .next ((s.setRing q { s.ring q with deferred := false, lastIrq := some s.etc }).raise (s.fld (ringReg q 8) 11 8))) ∧
  (∀ (s : State) (k id : Nat), mayResume k id s →
    exec (.taskResume k id) s = .next (((((s.setScull k { s.scull k with
      task := some id, suspended := (s.scull k).suspended.filter (· != id) }).setTask id
      { s.task id with state := .running, startedAt := s.etc }).pumpXfers id)).advance id)) ∧
  (∀ (s : State) (k i id j n : Nat) (x : Xfer) (host : List Cell), ending k i id j x s → (s.task id).hostXfer x = false →
    (s.task id).state = .running ∨ (∃ w, (s.task id).state = .suspended w) →
    x.isRead = false ∨ (counted s k x [] n).landsBad (s.task id) x = false →
    exec (.scullDmaComplete k i .ok host [] n) s = .next (((counted s k x [] n).xferDone k id j x).limitStores [])) ∧
  (∀ (s : State) (k id : Nat), finished k id s → exec (.taskCommit k true) s = .next (s.commitTask k id).pumpAll) ∧
  (∀ (s : State) (id : Nat), s.power = .on → (s.task id).state = .committed → (∀ p, p ∈ s.peers → p.task = id → p.write = false) →
    exec (.taskDone id) s = .next (s.doneTask id (s.task id).status)) ∧
  (∀ (s : State) (q id : Nat), fenceOpen q id s →
    exec (.fenceComplete q) s = .next ((s.emptyPanels (s.task id).part).doneTask id (fenceStatus q id s))) ∧
  (∀ (s u : State) (id : Nat), signalTurn id s → s.parkReason (s.task id).home id (s.task id) = none →
    u = (if (s.task id).sgCtr = 0xFFFF then s else s.setCtr (s.task id).sgCtr
      (if (s.task id).sgSet then (s.task id).sgValue else s.ctr (s.task id).sgCtr + (s.task id).sgValue)) →
    exec (.signal id) s = .next (u.doneTask id .ok)) ∧
  (∀ (s : State) (id g : Nat), walking id s → groupPages s id g ≠ [] → s.readBad (groupDa s id g) 32 = false →
    exec (.walkerEntryRead id g) s =
      .next (((groupPages s id g).foldl (fun u pg => u.walkPage id pg) (s.countNarrow (groupDa s id g) 32)).advance id)) ∧
  (∀ (s : State) (id k pg : Nat), s.power = .on → (s.task id).scull = some k → (s.task id).state = .running →
    (s.task id).kind = kAttend → (s.task id).chunksOut = true → (s.task id).todo = [] → (s.task id).flying = [] →
    (s.pagesMissing (s.task id)).head? = some pg → (∃ x, x ∈ s.kv.swaps ∧ x.list = (s.task id).atList ∧ x.pg = pg ∧ id ∈ x.waiters) →
    exec (.seifPageSuspend id) s =
      .next ((s.setScull k { s.scull k with task := none, suspended := (s.scull k).suspended ++ [id] }).setTask id
        { s.task id with
          state := .suspended (.page (s.task id).atList pg), susp := (s.task id).susp + 1
          busyUs := (s.task id).busyUs + (s.etc - (s.task id).startedAt) })) ∧
  (∀ (s : State) (x : SwapReq) (d : ListDesc) (n pfn : Nat) (host : List Cell), serving s x d n pfn →
    ∃ t, exec (.swapinServeComplete .ok host) s = .next t ∧
      t.kv.swaps = s.kv.swaps.filter (fun y => !(y.list == x.list && y.pg == x.pg)) ∧ t.kvHead d.ring = s.kvHead d.ring + 1) ∧
  (∀ (s : State) (r : Nat) (v : Word) (req : Requester), Tab.wf 0 s.kv.tail = true → reaches s req (kvReg r 0x10) →
    ∃ t, exec (.kvRingTailWrite r v req) s = .next t ∧ t.kvTail r = v) ∧
  (∀ (s : State) (req : Requester), reaches s req 0x02020020 → s.dev = .ready ∨ s.dev = .running → s.lowp.busy = false →
    ∃ t, exec (.lowpEvalStart req) s = .next t ∧ t.lowp.busy = true ∧ t.lowp.ended = s.countCommitted.lowp.open_) ∧
  (∀ s : State, s.power = .on → s.lowp.busy = true →
    ∃ t, exec .lowpEvalComplete s = .next t ∧ t.lowp = { s.lowp with busy := false, last := s.lowp.ended, ended := [] }) ∧
  (∀ (s : State) (k x id i : Nat) (f : Xfer), late s k x id i f → unshadowed s id i f → (s.tensor i).recomp = 0 →
    exec (.deadlineExpiry k x) s = .next (((s.emitUnit 10 0 1 evDeadline .deadlineMiss [w32 i, w32 (s.task id).key]).setTask id
      { s.task id with flying := (s.task id).flying.set x { f with issuedAt := noDeadline } }).bump 0x02030080 0 32)) ∧
  (∀ (s : State) (k id : Nat), canonical s → s.power = .on → (s.scull k).task = some id → (s.task id).state = .running →
    (s.task id).lc = false → (s.task id).overrun = false → s.fld 0x02070090 16 16 ≠ 0 →
    s.fld 0x02070090 16 16 < (s.task id).busyUs + (s.etc - (s.task id).startedAt) →
    ∃ t, exec (.beOverrun k) s = .next t ∧ t.task id = { s.task id with overrun := true })

/-- The commands of stacks, background work and the tier engine do their own work in every state that lets them (R288, R292, R297, R299, R300, R304, R309, R314, R316,
R317, R318, R319, R323). -/
def Sys2Proof.Safety.StoresComplete : Prop :=
  (∀ (s : State) (n line : Nat) (e : WcbEntry) (found : List (Nat × PieceCheck)),
    (s.dune n).wcb.find? (fun x => x.line == line && (s.dune n).entryDue s.etc x) = some e →
    exec (.wcbEntryTimeout n line found) s = .next (s.flushFound n found e)) ∧
  (∀ (s : State) (n : Nat) (req : Requester) (found : List (Nat × PieceCheck)), canonical s → reaches s req (duneReg n 0x5C) →
    ∃ t, exec (.wcbFlush n req found) s = .next t ∧ (t.dune n).wcb = []) ∧
  (∀ (s : State) (n : Nat) (ps : List PieceCheck), canonical s → s.background = true → n < 48 → (s.dune n).state = .online →
    ∃ t, exec (.patrolScrubRead n ps) s = .next t ∧ (t.dune n).scrub = ((s.dune n).scrub + 1) % 0x10000000) ∧
  (∀ (s : State) (n temp : Nat), canonical s → s.background = true → n < 48 → (s.dune n).state = .online ∨ (s.dune n).state = .stopped →
    ∃ t, exec (.bandEvaluation n temp) s = .next t ∧ (t.dune n).band = nextBand (s.dune n).band temp ∧ (t.dune n).temp = temp) ∧
  (∀ (s : State) (n a : Nat), canonical s → s.power = .on → n < 48 → (s.dune n).state = .stopped → (s.dune n).band = 5 →
    (s.dune n).band5At = some a → a + 100000 < s.etc →
    ∃ t, exec (.stackPowerRemove n) s = .next t ∧ (t.dune n).state = .failed ∧ (t.dune n).wcb = []) ∧
  (∀ (s : State) (k o : Nat), s.background = true → k < 12288 → (s.scull k).state = .good →
    exec (.sramScrub (.scull k) o .corrected) s = .next (s.bump (scullReg k 0x18) 0 16) ∧
    exec (.sramScrub (.scull k) o .uncorrectable) s =
      .next (((s.storeUe k (o % 0x80000)).poisonWord (scullBase + k * 0x80000 + o % 0x80000)).storeLimit k)) ∧
  (∀ (s : State) (n c : Nat), s.background = true → n < 48 → c < 128 → (s.dune n).state = .online →
    exec (.dunePhyCal n c true) s = .next s ∧ exec (.dunePhyCal n c false) s = .next (s.channelFail n c)) ∧
  (∀ (s : State) (page c : Nat), s.background = true → s.hasFlash = true → s.locked 34 = true → page < s.flashPages →
    page ∉ s.nv.badPages →
    exec (.flashPatrol page c true) s = .next s ∧
      ∃ t, exec (.flashPatrol page c false) s = .next t ∧ t.nv.badPages = page :: s.nv.badPages) ∧
  (∀ (s : State) (b e l : Nat), exec (.wearLevelling b e l) s = .next s) ∧
  (∀ (s : State) (n : Nat) (v : Word), Tab.wf noSensor s.pwr.sensors = true → s.background = true → n < 964 →
    ∃ t, exec (.telemetrySample [(n, v)]) s = .next t ∧ t.sensor n = v) ∧
  (∀ (s : State) (i : Nat) (req : Requester) (x : Tensor), tierReady s req → s.tierAbsent 1 i = false → s.registerCheck i = .ok →
    x = tensorOf (s.load (s.regEntryDa i) 64) → x.prefT1 = false →
    ∃ t, exec (.tierRegister i req) s = .next t ∧ t.tensor i = x ∧ t.tier.status = .ok) ∧
  (∀ (s : State) (i : Nat) (req : Requester), tierReady s req → (s.tensor i).unpinned = true → (s.tensor i).state = .atHome →
    ∃ t, exec (.tierUnregister i req) s = .next t ∧ t.tensor i = .none ∧ t.tier.status = .ok) ∧
  (∀ (s : State) (i : Nat) (req : Requester), tierReady s req → s.hasFlash = true → (s.tensor i).state = .atHome → (s.tensor i).unpinned = true →
    s.nameIn 1 (s.tensor i).name 1 = true → loadSrc s + (s.tensor i).size ≤ duneEnd →
    (∀ e, e ∈ s.tier.tensors → e.2.state = .unregistered ∨ loadSrc s + (s.tensor i).size ≤ e.2.name ∨
      e.2.name + e.2.pages * tierPage ≤ loadSrc s) →
    ∃ t, exec (.tierLoad i req []) s = .next t ∧ t.tier.cmd = some (3, i) ∧
      t.tier.loading = cellsAt (s.tensor i).name (s.load (loadSrc s) (s.tensor i).size)) ∧
  (∀ (s : State) (req : Requester), tierReady s req → ∃ t, exec (.tierFlush req) s = .next t ∧ t.tier.cmd = some (4, 0)) ∧
  (∀ (s : State) (i : Nat) (req : Requester), tierReady s req → (s.tensor i).state = .atHome → s.moves < 8 →
    (s.tensor i).pages ≤ s.freeFrames.length →
    ∃ t, exec (.tierPromote i req) s = .next t ∧ (t.tensor i).state = .copyIn ∧ (t.tensor i).frames = s.freeFrames.take (s.tensor i).pages) ∧
  (∀ (s : State) (i : Nat) (req : Requester), tierReady s req → (s.tensor i).state = .resident → (s.tensor i).unpinned = true →
    (s.tensor i).dirty = false ∨ s.moves < 8 →
    ∃ t, exec (.tierEvict i req) s = .next t ∧ t.tier.status = .ok ∧
      (t.tensor i).state = if (s.tensor i).dirty then .copyOut else .atHome) ∧
  (∀ (s : State) (i : Nat) (host : List Cell), copiedIn s i host →
    exec (.copyInComplete i true host) s = .next (((((s.seeHost host).write 0 ((s.seeHost host).tensorCells i false)).moveTensor i
      { s.tensor i with state := .resident, dirty := false, moves := (s.tensor i).moves + 1 }).bump 0x02030074 0 16).moveEnded.rewake)) ∧
  (∀ (s : State) (i : Nat), s.power = .on → (s.tensor i).state = .copyOut → s.tier.cmd ≠ some (2, i) → s.hostOpen = true →
    exec (.copyOutComplete i true) s = .next
      (((((((s.countMove i).write 0 (s.tensorCells i true)).sendHome i).bump 0x02030078 0 16).lowFrames).moveEnded).rewake)) ∧
  (∀ (s : State) (n k : Nat), canonical s → Tab.wf Tensor.none s.tier.tensors = true → (∀ e, e ∈ s.tier.tensors → Tab.wf 0 e.2.heat = true) →
    n = (s.reg 0x02030030).toNat → s.power = .on → n ≠ 0 → k = (s.etc - s.tier.decayAt) / n → 1 ≤ k →
    ∃ t, exec .heatDecay s = .next t ∧ t.tier.decayAt = s.tier.decayAt + k * n ∧
      ∀ i pg, Tab.get 0 (t.tensor i).heat pg = Tab.get 0 (s.tensor i).heat pg / 2 ^ min k 16) ∧
  (∀ (s : State) (i : Nat), s.power = .on → s.tier.cmd = some (2, i) → (s.tensor i).state = .copyOut → s.hostOpen = true →
    exec (.tierCmdComplete true) s = .next
      ((((((s.countMove i).write 0 (s.tensorCells i true)).dropTensor i).endTierCmd .ok).lowFrames).rewake)) ∧
  (∀ (s : State) (i : Nat), s.power = .on → s.tier.cmd = some (3, i) → s.flashOpen = true →
    exec (.tierCmdComplete true) s = .next ((s.write 0 s.tier.loading).endTierCmd .ok)) ∧
  (∀ (s : State) (i : Nat), s.power = .on → s.tier.cmd = some (4, i) → s.hostOpen = true →
    ∃ t, exec (.tierCmdComplete true) s = .next t ∧ t.tier.cmd = none ∧ t.tier.status = .ok)

/-- The commands of the Wake engines do their own work in every state that lets them (R329, R331, R333, R335, R336, R344). -/
def Sys2Proof.Safety.WakesComplete : Prop :=
  (∀ (s : State) (w r : Nat) (v : Word) (req : Requester), canonical s → Tab.wf 0 (s.wake w).tail = true → reaches s req (wakeRingReg w r 0x30) →
    s.dev = .ready ∨ s.dev = .running → (v - (s.wake w).headOf r).toNat ≤ s.wakeSlots w r →
    ∃ t, exec (.wakeRingTailWrite w r v req) s = .next t ∧ (t.wake w).tailOf r = v) ∧
  (∀ (s : State) (w r : Nat) (host : List Cell) (j : Job), jobReady w r j s (s.seeHost host) → j.op = 1 →
    ∃ t, exec (.wakeOpen w r host) s = .next t ∧ (t.wake w).session r = some ⟨(s.seeHost host).load j.data 256, 0, 0, none⟩) ∧
  (∀ (s : State) (w : Nat) (host : List Cell) (j : Job), jobReady w 0 j s (s.seeHost host) → j.op = 2 →
    ∃ t, exec (.wakeRun w 0 host) s = .next t ∧ (t.wake w).job 0 = some { j with ran := true }) ∧
  (∀ (s : State) (w : Nat) (host : List Cell) (j : Job) (x : Session), jobReady w 1 j s (s.seeHost host) → j.op = 2 →
    (s.wake w).session 1 = some x → (s.seeHost host).regionsEnd x = none →
    ∃ t, exec (.wakeRun w 1 host) s = .next t ∧ (t.wake w).job 1 = some { j with ran := true, regions := (s.seeHost host).regionsOf x }) ∧
  (∀ (s : State) (w r : Nat) (j : Job), jobReady w r j s s → j.op = 3 →
    ∃ t, exec (.wakeClose w r) s = .next t ∧ (t.wake w).session r = none ∧ (t.wake w).job r = some { j with ran := true, ends := some .ok }) ∧
  (∀ (s : State) (w depth width height bad skipped : Nat) (luma cb cr held : List Nat) (coded : List Byte) (host : List Cell)
    (x : Session) (j : Job), s.runningJob w 0 = some (x, j) →
    exec (.wakeFrameDone w 0 depth width height luma cb cr coded held bad skipped host) s = .next
      ({ s.seeHost host with fresh := (s.seeHost host).fresh + 3 * 0x4000 * 0x4000 }.decodeDone w x j
        ⟨depth, width, height, luma, cb, cr, (s.seeHost host).fresh⟩ held bad skipped)) ∧
  (∀ (s : State) (w depth width height bad skipped : Nat) (luma cb cr held : List Nat) (coded : List Byte) (host : List Cell)
    (x : Session) (j : Job), s.runningJob w 1 = some (x, j) →
    exec (.wakeFrameDone w 1 depth width height luma cb cr coded held bad skipped host) s = .next ((s.seeHost host).encodeDone w x j coded)) ∧
  (∀ (s : State) (w r bad skipped consumed : Nat) (j : Job) (st : Status), s.power = .on → s.locked (26 + w) = true →
    (s.wake w).job r = some j → j.ends = some st →
    exec (.wakeJobEnd w r bad skipped consumed .ok) s = .next (s.endJob w r j st
      (if r = 0 ∧ j.op = 2 then (if j.ran then min consumed j.length else 0) else j.bytes) j.bad j.skipped)) ∧
  (∀ (s : State) (w bad skipped consumed : Nat) (j : Job), s.power = .on → s.locked (26 + w) = true →
    (s.wake w).job 0 = some j → j.op = 2 → j.ran = true → j.ends = none → (s.badUnits w j bad skipped).readBad j.data j.length = false →
    exec (.wakeJobEnd w 0 bad skipped consumed .ok) s = .next ((s.badUnits w j bad skipped).endJob w 0
      { j with bad := j.bad + bad, skipped := j.skipped + skipped } (if j.bad + bad ≠ 0 then .badArgument else .ok) (min consumed j.length)
      (j.bad + bad) (j.skipped + skipped))) ∧
  (∀ (s : State) (w r : Nat) (x : Session) (j : Job), s.runningJob w r = some (x, j) → s.reg (wakeReg w 0x14) ≠ 0 →
    j.since + (s.reg (wakeReg w 0x14)).toNat + 1 ≤ s.etc → exec (.wakeFrameWatchdog w r) s = .next (s.wakeFault w)) ∧
  (∀ (s : State) (w : Nat), s.power = .on → s.hasWake = true → s.locked (26 + w) = true → (s.wake w).state = .good →
    (s.wake w).testing = false → exec (.wakeParityFail w) s = .next (s.wakeFault w)) ∧
  (∀ (s : State) (w : Nat), s.power = .on → (s.wake w).state = .good → (s.wake w).testing = true →
    exec (.wakeSelfTestDone w true) s = .next (s.setWake w { s.wake w with testing := false }) ∧
    exec (.wakeSelfTestDone w false) s = .next (s.retireWake w 1))

/-- The commands of the links between modules do their own work in every state that lets them (R348, R349, R352, R356, R357, R360, R363, R364, R369,
R370, R371, R374, R375, R376, R378, R477, R478, R479). -/
def Sys2Proof.Safety.LinksComplete : Prop :=
  (∀ (s : State) (p : Nat) (v : Word) (req : Requester), canonical s → p < 18 → reaches s req (portReg p 0) → bits v 4 2 ≠ 3 →
    ((s.port p).state = .disabled → (s.port p).guardDis = false →
      ∃ t, exec (.portEnable p v req) s = .next t ∧ (t.port p).state = .training) ∧
    ((s.port p).state ≠ .disabled → ∃ t, exec (.portDisable p v req) s = .next t ∧ (t.port p).state = .disabled) ∧
    ((s.port p).state = .quarantined → bits v 0 1 = 1 → ∃ t, exec (.readmit p v req) s = .next t ∧ (t.port p).state = .training)) ∧
  (∀ (s : State) (p : Nat), s.power = .on → (s.port p).state = .training → s.locked (portIsland p) = true →
    exec (.trainingDone p 0xFF) s = .next (s.attest p false false)) ∧
  (∀ (s : State) (p : Nat), s.power = .on →
    ((s.port p).state = .training → (s.port p).since + 20001 ≤ s.etc → exec (.trainingTimeout p) s = .next (s.portDown p)) ∧
    ((s.port p).state = .down → (s.port p).since + 1000001 ≤ s.etc → exec (.downRetryExpiry p) s = .next (s.train p)) ∧
    ((s.port p).state = .attesting → (s.port p).since + 50001 ≤ s.etc → exec (.attestTimeout p) s = .next (s.portDown p))) ∧
  (∀ (s : State) (p vc : Nat) (flit : List Byte), flitGood s p flit → flitBits flit 4 1 = 0 → vc = flitBits flit 0 2 →
    ((s.port p).rxSeq + 4096 - flitBits flit 8 12) % 4096 = 0 → 0 < Tab.get 0 (s.port p).granted vc → Tab.wf 0 (s.port p).granted = true →
    (flitBits flit 2 1 = 1 ∨ Tab.get 0 (s.port p).inFrame vc < 15) → flitBits flit 32 1 = 0 →
    ∃ t, exec (.flitReceive p flit) s = .next t ∧ (t.port p).rxSeq = (s.port p).rxSeq + 1 ∧
      Tab.get 0 (t.port p).granted vc = Tab.get 0 (s.port p).granted vc - 1) ∧
  (∀ (s : State) (p : Nat) (f : Frame) (data : List Byte), canonical s → s.power = .on → (s.port p).state = .admitted →
    Config.gcmOpen (s.port p).rxKey (ivOf (s.port p) f) f.header f.body f.tag = some data → numAt f.header 0x10 8 = (s.port p).rxCtr + 1 →
    frameBroken f = false → numAt f.header 4 2 = s.myId ∨ numAt f.header 0 1 = mMgmt →
    ∃ t, exec (.frameReceive p f) s = .next t ∧ (t.port p).rxCtr = (s.port p).rxCtr + 1 ∧
      (t.port p).rxBytes = (s.port p).rxBytes + data.length) ∧
  (∀ (s : State) (p vc : Nat), admitted p s → s.fld 0x02060008 0 16 ≠ 0 → (∃ w, w ∈ (s.port p).waiting ∧ w.1 = vc) →
    Tab.get 0 (s.port p).credits vc = 0 → Tab.get 0 (s.port p).creditAt vc + s.fld 0x02060008 0 16 + 1 ≤ s.etc →
    exec (.creditStarvation p vc) s = .next (s.quarantine p 3 .internal)) ∧
  (∀ (s : State) (p a : Nat), admitted p s →
    (2 ^ 31 ≤ (s.port p).txCtr → (s.port p).rekeyAt = none → exec (.rekeyStart p) s = .next (s.sendRekey p)) ∧
    ((s.port p).rekeyAt = some a → a + 50001 ≤ s.etc → exec (.rekeyTimeout p) s = .next (s.quarantine p 5 .authFailed)) ∧
    ((s.port p).newRx ≠ [] → exec (.mgmtRekeyDone p) s =
      .next (s.setPort p { s.port p with rxKey := (s.port p).newRx, rxCtr := 0, newRx := [], rekeyAt := none }))) ∧
  (∀ (s : State) (p src i : Nat) (cert : List Byte), attesting p s → i < 3 → (∀ c, c ∈ (s.port p).certs → c.1 ≠ i) → (s.port p).certs.length < 2 →
    exec (.mgmtCert p src i cert) s = .next (s.setPort p { s.port p with certs := (s.port p).certs ++ [(i, cert)], peer := src })) ∧
  (∀ (s : State) (p : Nat) (ek ct nonce : List Byte), attesting p s → s.sec.attReady = true → s.sec.attUsed < 65536 →
    (3 ≤ (s.port p).certs.length → s.initiates p = false → (s.port p).transcript = [] →
      ∃ t, exec (.mgmtKemEk p ek nonce) s = .next t ∧ (t.port p).secret = (Config.kemEncaps s.sec.draws ek).2) ∧
    ((s.port p).ekSent = true → (s.port p).secret = [] →
      ∃ t, exec (.mgmtKemCt p ct nonce) s = .next t ∧ (t.port p).secret = Config.kemDecaps (s.port p).nonceUsed ct)) ∧
  (∀ (s : State) (p sender sp : Nat) (sig : List Byte), attesting p s → (s.port p).digest ≠ [] → (s.port p).finSent = false →
    Config.xmssVerify (certSubject ((s.port p).cert 2)) (s.port p).digest sig = true → s.policyOk (s.port p) = true →
    sender = (s.port p).peer → s.idOk p sender = true →
    ∃ t, exec (.mgmtSign p sig sender sp) s = .next t ∧ (t.port p).kid = 1 ∧ (t.port p).finSent = true) ∧
  (∀ (s : State) (p : Nat), attesting p s → (s.port p).finSent = true →
    ∃ t, exec (.mgmtFinish p (shake256 (s.port p).digest 32) true) s = .next t ∧ (t.port p).state = .admitted) ∧
  (∀ (s : State) (p : Nat) (ek ct nonce : List Byte), admitted p s → s.sec.rngStop = false →
    ((s.port p).ekSent = false ∨ s.initiates p = false →
      ∃ t, exec (.mgmtRekeyEk p ek nonce) s = .next t ∧ (t.port p).kid = (s.port p).kid + 1) ∧
    ((s.port p).ekSent = true → ∃ t, exec (.mgmtRekeyCt p ct nonce) s = .next t ∧ (t.port p).kid = (s.port p).kid + 1)) ∧
  (∀ (s : State) (p : Nat) (nonce q : List Byte) (a b : Word), admitted p s →
    (s.sec.attReady = true → s.sec.attUsed < 65536 →
      ∃ t, exec (.mgmtQuoteReq p nonce) s = .next t ∧ t.sec = { s.sec with attUsed := s.sec.attUsed + 1 }) ∧
    ((s.port p).statAt + 1000000 ≤ s.etc → ∃ t, exec (.linkstatSend p) s = .next t ∧ (t.port p).statAt = s.etc) ∧
    exec (.mgmtQuote p q) s = .next s ∧ exec (.mgmtLinkstat p a b) s = .next s) ∧
  (∀ (s : State) (p : Nat) (m : Msg), admitted p s → 0 < m.bytes → m.bytes ≤ 3584 → s.permitted m.src m.da m.bytes false = true →
    exec (.rdReq p m) s = .next ((s.countRead m.da m.bytes).sendMsg
      ⟨mRdRsp, b2n (s.duneReadBad m.da m.bytes), m.src, m.da, m.tag.toNat, 0, 0, s.load m.da m.bytes⟩)) ∧
  (∀ (s : State) (p : Nat) (m : Msg), admitted p s → msgBroken m = false → m.poisoned = false → s.permitted m.src m.da (msgSpan m) true = true →
    exec (.wrReq p m) s = .next ((s.write 0 (msgWrites m)).sendMsg ⟨mWrAck, 0, m.src, m.da, m.tag.toNat, 0, 0, []⟩)) ∧
  (∀ (s : State) (p : Nat) (m : Msg) (q : PeerReq), awaits p m false q s → m.status = 0 → m.poisoned = false → m.data.length = q.len →
    (s.task q.task).state = .running →
    exec (.rdRsp p m) s = .next (((((s.dropPeer q.tag).setTask q.task ((s.task q.task).takePeer (cellsAt q.da m.data))).settleReads q.task)).advance
      q.task)) ∧
  (∀ (s : State) (p : Nat) (m : Msg) (q : PeerReq), awaits p m true q s → m.status = 0 → exec (.wrAck p m) s = .next (s.dropPeer q.tag)) ∧
  (∀ (s u : State) (tag : Nat) (q : PeerReq), s.peers.find? (fun x => x.tag == tag) = some q → s.power = .on →
    s.reg 0x0206000C ≠ 0 → q.at_ + (s.reg 0x0206000C).toNat + 1 ≤ s.etc → u = { s with peers := s.peers.filter fun x => x.task != q.task } →
    ((s.task q.task).state = .running ∨ (∃ w, (s.task q.task).state = .suspended w) →
      exec (.peerTimeout tag) s = .next (u.failRun q.task .peerAbsent)) ∧
    ((s.task q.task).state = .committed → exec (.peerTimeout tag) s = .next (u.doneTask q.task .peerAbsent))) ∧
  (∀ (s : State) (p k : Nat) (m : Msg) (c : Coll), inEpoch p m k c s → m.poisoned = false →
    (c.opened = false → exec (.collStart p m) s = .next (s.openColl k s.etc)) ∧
    (c.root = false ∨ c.phase = 1 →
      exec (.chunkUp p m) s = .next (s.contribute k m.rank m.tag.toNat false (c.wordsOf m.data) (s.task c.task).clWork) ∧
      exec (.flagUp p m) s = .next (s.contribute k m.rank 0 false (c.wordsOf m.data) 0)) ∧
    exec (.chunkDown p m) s = .next ((s.resultPart k m.rank m.tag.toNat false (c.wordsOf m.data)).checkAcks k) ∧
    (m.src ∉ c.acks → exec (.ackUp p m) s = .next ((s.setColl k { c with acks := c.acks ++ [m.src] }).checkAcks k)) ∧
    (c.root = true → exec (.collNote p m) s = .next (s.rootNote k (statusOfCode m.status.toNat))) ∧
    (c.root = false → exec (.collNote p m) s = .next (s.noteUp k (statusOfCode m.status.toNat))) ∧
    exec (.collFinal p m) s = .next (s.endEpoch k (statusOfCode m.status.toNat) true) ∧
    exec (.flagDown p m) s = .next
      (((s.setColl k { c with result := (c.wordsOf m.data).zipIdx.foldl (fun r x => Tab.put 0 r x.2 x.1) [] }).toChildren k fun x =>
        collMsg mFlagDown x c.group c.rank c.epoch 0 .ok false m.data).endEpoch k .ok false)) ∧
  (∀ (s : State) (g : Nat), s.power = .on →
    exec (.phaseTimerExpiry g) s = .next ((s.epochsOf g fun c => c.root && c.opened && decide (c.armedAt + c.timeout + 1 ≤ s.etc)).foldl
      (fun s k => s.endEpoch k .collTimeout true) s) ∧
    exec (.memberGuardExpiry g) s = .next ((s.epochsOf g fun c => c.guardAt.any fun a => decide (a + 1 ≤ s.etc)).foldl
      (fun s k => (s.bump 0x02060024 0 16).endEpoch k .collTimeout false) s))

/-- The commands of the scheduler, the host port, the mailboxes' long work, the log and the power controller do their own work in every state that lets them
(R390, R397, R426, R504, R508, R509, R516, R519). -/
def Sys2Proof.Safety.ServicesComplete : Prop :=
  (∀ (s : State) (op p : Nat) (req : Requester) (cs : List Nat) (e : Instr), canonical s → reaches s req 0x02070094 →
    s.dev = .ready ∨ s.dev = .running → s.sched.busy = false → mayMove op p cs s →
    (op = 1 ∧ e = .reclaim p req) ∨ (op = 2 ∧ e = .schedReturn p req) →
    ∃ t, exec e s = .next t ∧ t.sched.op = op ∧ t.sched.part = p ∧ t.sched.at_ = s.etc ∧ t.sched.status = .ok ∧
      t.reg 0x02070094 = w32 (op + p * 4)) ∧
  (∀ s : State, s.power = .on → s.sched.busy = true → s.sched.op = 1 → s.sched.at_ + s.fld 0x02070090 0 16 + 1 ≤ s.etc →
    exec .drainLimitExpiry s = .next (s.sched.crews.foldl State.preemptRunning s)) ∧
  (∀ (s : State) (width rate : Nat) (flit : Bool), s.power = .on → s.locked 25 = true → s.dev ≠ .starting ∨ 4 < s.start.step →
    exec (.linkRetrain width rate flit) s = .next (if rate = 0 then s.linkDown else
      (({ s.linkDown with host := { s.linkDown.host with width := width, rate := rate, flit := flit } }).serve (List.range 8)).releaseVectors)) ∧
  (∀ (s : State) (c : MbCmd), passes 0x11 c s → s.dev = .running ∨ (s.dev = .quiescing ∧ numAt c.payload 0 4 = 1) →
    ∃ t, exec (.devQuiesce c) s = .next t ∧ t.dev = .quiescing ∧ (t.mb c.m).phase = .done ∧ (t.mb c.m).lastStatus = 0) ∧
  (∀ s : State, s.power = .on → s.dev = .quiescing → s.settled = true → exec .quiesceComplete s = .next (s.setDev .quiesced 0)) ∧
  (∀ s : State, s.power = .on → s.cairn.phase = .copying →
    (∀ e, e ∈ s.cairn.entries → s.stackRangeBad e.1 e.2.1 = false ∧ s.stackServes e.2.2 = true) →
    ∃ t, exec .cairnCopyComplete s = .next t ∧
      t.cairn = { s.cairn with phase := .draining, copyEtc := s.etc, window := s.etc - s.cairn.grantedAt }) ∧
  (∀ s : State, s.power = .on → s.cairn.phase = .stopping → s.cairnRunning = [] →
    exec .cairnStopDrained s = .next { s with cairn := { s.cairn with phase := .copying } }) ∧
  (∀ s : State, s.power = .on → s.cairn.phase = .draining → s.targetOpen (s.cairn.target s.cairn.takeTarget) = true →
    (∀ e, e ∈ s.cairn.entries → s.stackRangeBad e.2.2 e.2.1 = false) → s.cairn.lossDone = false →
    ∃ t, exec (.cairnDrainComplete true) s = .next t ∧ t.cairn.phase = .idle ∧ t.cairn.drained = true) ∧
  (∀ s : State, s.power = .on → s.cairn.lossWait = true → s.cairn.ctr = 0xFFFF ∨ reached (s.ctr s.cairn.ctr) s.cairn.ctrVal = true →
    s.readBad s.cairn.lossDa 4 = false → s.cairn.drained = false →
    ∃ t, exec .cairnLossReady s = .next t ∧ t.cairn.loss = w32 (s.loadNat s.cairn.lossDa 4) ∧ t.cairn.lossDone = true) ∧
  (∀ (s u : State) (g m : Nat) (res : Ending) (host : List Cell) (st : Status), s.power = .on → s.cairn.restoring = some g →
    m = s.cairn.restoreMb → (st, u) = s.restoreCopy g res host → u.stateMb = some m → (u.mb m).phase = .running →
    exec (.cairnRestoreCopyComplete res host) s = .next (({ u with stateMb := none }.endCmd m st [] (decide (st = Status.ok))).drainCmds
      ({ u with stateMb := none }.endCmd m st [] (decide (st = Status.ok))).mbQueue.length)) ∧
  (∀ (s : State) (e : Instr) (pv : Word) (armer req : Requester), matching e 5 pv armer req s → lawful 5 pv armer req s →
    ∃ t, exec e s = .next t ∧ t.guard 5 = ⟨pv &&& guardMask 5, none⟩ ∧ t.reg 0x110 = w32 (5 * 0x10000)) ∧
  (∀ (s : State) (p : PowerSample), s.power = .on → ∃ t, exec (.powerControlTick p) s = .next t ∧ t.pwr.watts = p.watts ∧ t.pwr.vin = p.vin) ∧
  (∀ (s : State) (a : Nat), s.power = .on → s.pwr.lowFlowAt = some a → a + 1000001 ≤ s.etc → exec .lowFlowSwitchOff s = .next s.switchOff)

/-- Cold and warm starts, and the loss of power: the statements ColdStartBegins, WarmStartBegins and PowerLost above, together. -/
def Obligations.StartsBeginAndEnd : Prop := ColdStartBegins ∧ WarmStartBegins ∧ PowerLost

/-- Limits of the start steps, faults of the Coxswain, the entropy source: the statements StartStepLimit, CoxswainFaults and
EntropyFault above, together. -/
def Obligations.StartFailures : Prop := StartStepLimit ∧ CoxswainFaults ∧ EntropyFault

/-- An island loses its lock, locks again, or does not: the statements IslandLoss and IslandRecovery above, together. -/
def Obligations.IslandsLoseAndRegainLock : Prop := IslandLoss ∧ IslandRecovery

/-- Mismatches and memory errors of a scull: the statements ScullMismatch and StoreError above, together. -/
def Obligations.ScullErrors : Prop := ScullMismatch ∧ StoreError

/-- Self-tests of sculls, Seifs and Bows, and what starts them: the statements SelfTests and SeifAndBowMismatch above, together. -/
def Obligations.SelfTestsAndMismatches : Prop := SelfTests ∧ SeifAndBowMismatch

/-- A scull takes or steals a task: the statements TaskTake and TaskSteal above, together. -/
def Obligations.TaskTakes : Prop := TaskTake ∧ TaskSteal

/-- A task resumes and its transfers complete: the statements TaskResume and DmaComplete above, together. -/
def Obligations.TaskRuns : Prop := TaskResume ∧ DmaComplete

/-- A task commits and ends: the statements TaskCommit and TaskEnds above, together. -/
def Obligations.TaskCompletes : Prop := TaskCommit ∧ TaskEnds

/-- The page walker of an ATTEND, and its suspension: the statements WalkerReads and SeifSuspends above, together. -/
def Obligations.AttendWalks : Prop := WalkerReads ∧ SeifSuspends

/-- Page swap-ins and the frame rings: the statements SwapInServed and KvRingTail above, together. -/
def Obligations.PageSwaps : Prop := SwapInServed ∧ KvRingTail

/-- Deadlines of tier fills, and BE tasks that run too long: the statements DeadlinePaths and BeOverrun above, together. -/
def Obligations.DeadlinesAndOverruns : Prop := DeadlinePaths ∧ BeOverrun

/-- An evaluation at the end of a pass: the statements EvaluationStarts and EvaluationEnds above, together. -/
def Obligations.LowPrecisionEvaluation : Prop := EvaluationStarts ∧ EvaluationEnds

/-- Pointers and states of the launch rings: the statements RingPointers and RingStates above, together. -/
def Obligations.RingControl : Prop := RingPointers ∧ RingStates

/-- Ring visits and the descriptors they read: the statements RingVisit and DescriptorReads above, together. -/
def Obligations.RingFetch : Prop := RingVisit ∧ DescriptorReads

/-- Write-combining buffers and temperature bands of the stacks: the statements WriteCombining and StackTemperature above,
together. -/
def Obligations.StackBuffersAndBands : Prop := WriteCombining ∧ StackTemperature

/-- Scrubbing, flash upkeep and telemetry: the statements SramScrub and FlashAndSensors above, together. -/
def Obligations.BackgroundWork : Prop := SramScrub ∧ FlashAndSensors

/-- The tier engine refuses, registers and unregisters: the statements TierCommandRefused and TierRegistry above, together. -/
def Obligations.TierRegistration : Prop := TierCommandRefused ∧ TierRegistry

/-- Copies and commands of the tier engine end: the statements TensorCopies and TierCommandEnds above, together. -/
def Obligations.TierCompletions : Prop := TensorCopies ∧ TierCommandEnds

/-- The job rings of the Wake engines: the statements WakeTail and WakeJobs above, together. -/
def Obligations.WakeQueues : Prop := WakeTail ∧ WakeJobs

/-- The end of a Wake job, and faults of a Wake engine: the statements WakeJobEnds and WakeFaults above, together. -/
def Obligations.WakeEnds : Prop := WakeJobEnds ∧ WakeFaults

/-- Control, training and attestation of a Sweep port: the statements PortControl and PortTraining above, together. -/
def Obligations.PortStates : Prop := PortControl ∧ PortTraining

/-- Flits and frames that a port receives: the statements FlitReceive and FrameReceive above, together. -/
def Obligations.LinkReceives : Prop := FlitReceive ∧ FrameReceive

/-- Rekeying, credit starvation, quotes and link telemetry: the statements Rekeying and PeerManagement above, together. -/
def Obligations.PeerUpkeep : Prop := Rekeying ∧ PeerManagement

/-- Reads and writes between modules: the statements PeerRequests and PeerAnswers above, together. -/
def Obligations.PeerAccess : Prop := PeerRequests ∧ PeerAnswers

/-- The host link, its vectors, SPDM and IDE: the statements HostLink and HostSecurity above, together. -/
def Obligations.HostLinkAndSecurity : Prop := HostLink ∧ HostSecurity

/-- Every command does its own work where the rules let it run: the statements TasksComplete, StoresComplete, WakesComplete,
LinksComplete and ServicesComplete above, together. -/
def Obligations.CommandsComplete : Prop := TasksComplete ∧ StoresComplete ∧ WakesComplete ∧ LinksComplete ∧ ServicesComplete

/-- Cairn takes, restores and replays: the statements CairnTakes and CairnRestores above, together. -/
def Obligations.CairnEnds : Prop := CairnTakes ∧ CairnRestores

/-- Guarded values that do not commit; strobes and snapshots: the statements GuardMismatches and StrobesAndSnapshots above,
together. -/
def Obligations.GuardsAndStrobes : Prop := GuardMismatches ∧ StrobesAndSnapshots

/-- Register writes, bit aliases and writes that do not reach: the statements RegisterWrites, AliasesAndTimeouts and
WritesThatDoNotReach above, together. -/
def Obligations.RegisterAccess : Prop := RegisterWrites ∧ AliasesAndTimeouts ∧ WritesThatDoNotReach

/-- ETC counts in idle steps, and nothing else moves it but a start: the statements EmptyQueueTicks and EtcUntouched above,
together. -/
def Obligations.TimePasses : Prop := EmptyQueueTicks ∧ EtcUntouched
end

