-- ==== Sys2Proof/Laws/Tab.lean ====
section
/-! SUPPORT. The sparse tables: what a key reads as after a change, and that every change keeps the canonical form. -/

namespace Sys2Proof.Machine

/-- The canonical form of a table whose unlisted keys read as `d k`: keys strictly rising, no entry equal to what its key
reads as unlisted. -/
def Tab.okBy {α : Type} (d : Nat → α) (t : Tab α) : Prop :=
  t.Pairwise (fun a b => a.1 < b.1) ∧ ∀ e ∈ t, e.2 ≠ d e.1

theorem Tab.above_iff {α : Type} [DecidableEq α] (d : α) (lo : Nat) (t : Tab α) :
    Tab.above d lo t = true ↔ (∀ e ∈ t, lo < e.1) ∧ Tab.okBy (fun _ => d) t := by
  induction t generalizing lo with
  | nil => simp [Tab.above, Tab.okBy]
  | cons e r ih =>
    obtain ⟨k, v⟩ := e
    simp only [Tab.above, Bool.and_eq_true, decide_eq_true_eq, ih, Tab.okBy, List.pairwise_cons, List.forall_mem_cons]
    constructor
    · rintro ⟨⟨h1, h2⟩, h3, h4, h5⟩
      exact ⟨⟨h1, fun e he => h1.trans (h3 e he)⟩, ⟨h3, h4⟩, h2, h5⟩
    · rintro ⟨⟨h1, -⟩, ⟨h3, h4⟩, h2, h5⟩
      exact ⟨⟨h1, h2⟩, h3, h4, h5⟩

theorem Tab.wf_iff {α : Type} [DecidableEq α] (d : α) (t : Tab α) :
    Tab.wf d t = true ↔ Tab.okBy (fun _ => d) t := by
  cases t with
  | nil => simp [Tab.wf, Tab.okBy]
  | cons e r =>
    obtain ⟨k, v⟩ := e
    simp only [Tab.wf, Bool.and_eq_true, decide_eq_true_eq, Tab.above_iff, Tab.okBy, List.pairwise_cons, List.forall_mem_cons]
    tauto

theorem Tab.mem_put {α : Type} [DecidableEq α] (d : α) (t : Tab α) (k : Nat) (v : α) (e : Nat × α)
    (h : e ∈ Tab.put d t k v) : e ∈ t ∨ (e = (k, v) ∧ v ≠ d) := by
  induction t with
  | nil =>
    by_cases hv : v = d
    · simp [Tab.put, hv] at h
    · simp [Tab.put, hv] at h; exact .inr ⟨h, hv⟩
  | cons a r ih =>
    obtain ⟨k', v'⟩ := a
    by_cases hv : v = d <;> by_cases h1 : k < k' <;> by_cases h2 : k = k' <;> simp [Tab.put, hv, h1, h2] at h ⊢ <;>
      first
        | (rcases h with h | h
           · simp [h]
           · have := ih (by simpa [hv] using h); simp_all; tauto)
        | (simp_all; done)
        | (simp_all; tauto)

/-- A change of the key `k`, whose unlisted reading is `d k`, keeps the canonical form. -/
theorem Tab.okBy_put {α : Type} [DecidableEq α] (d : Nat → α) (t : Tab α) (k : Nat) (v : α) (h : Tab.okBy d t) :
    Tab.okBy d (Tab.put (d k) t k v) := by
  refine ⟨?_, fun e he => ?_⟩
  · obtain ⟨hp, -⟩ := h
    induction t with
    | nil => by_cases hv : v = d k <;> simp [Tab.put, hv]
    | cons a r ih =>
      obtain ⟨k', v'⟩ := a
      rw [List.pairwise_cons] at hp
      unfold Tab.put
      split
      · split
        · exact List.pairwise_cons.2 hp
        · refine List.pairwise_cons.2 ⟨fun e he => ?_, List.pairwise_cons.2 hp⟩
          rcases List.mem_cons.1 he with rfl | he
          · assumption
          · exact Nat.lt_trans ‹k < k'› (hp.1 e he)
      · split
        · split
          · exact hp.2
          · subst k; exact List.pairwise_cons.2 hp
        · refine List.pairwise_cons.2 ⟨fun e he => ?_, ih hp.2⟩
          rcases Tab.mem_put _ _ _ _ _ he with he | ⟨rfl, -⟩
          · exact hp.1 e he
          · show k' < k; omega
  · rcases Tab.mem_put _ _ _ _ _ he with he | ⟨rfl, hv⟩
    · exact h.2 e he
    · exact hv

theorem Tab.okBy_filter {α : Type} (d : Nat → α) (t : Tab α) (p : Nat × α → Bool) (h : Tab.okBy d t) :
    Tab.okBy d (t.filter p) :=
  ⟨h.1.filter p, fun e he => h.2 e (List.mem_filter.1 he).1⟩

theorem Tab.okBy_nil {α : Type} (d : Nat → α) : Tab.okBy d [] := ⟨.nil, by simp⟩

/-- Stores of constant default keep the canonical form. -/
theorem Tab.okBy_foldl_put {α : Type} [DecidableEq α] (d : α) (cs : List (Nat × α)) (t : Tab α)
    (h : Tab.okBy (fun _ => d) t) : Tab.okBy (fun _ => d) (cs.foldl (fun m c => Tab.put d m c.1 c.2) t) := by
  induction cs generalizing t with
  | nil => exact h
  | cons c r ih => exact ih _ (Tab.okBy_put (fun _ => d) t c.1 c.2 h)

/-- Another key reads as before. -/
theorem Tab.get_put_of_ne {α : Type} [DecidableEq α] (d d' : α) (t : Tab α) (k j : Nat) (v : α) (h : k ≠ j) :
    Tab.get d' (Tab.put d t k v) j = Tab.get d' t j := by
  induction t with
  | nil => by_cases hv : v = d <;> simp [Tab.put, Tab.get, hv, h]
  | cons a r ih =>
    obtain ⟨k', v'⟩ := a
    unfold Tab.put
    split
    · split <;> simp [Tab.get, h]
    · split
      · subst k; split <;> simp [Tab.get, h]
      · simp [Tab.get, ih]

theorem Tab.get_of_lt {α : Type} (d : α) (t : Tab α) (k : Nat) (h : ∀ e ∈ t, k < e.1) : Tab.get d t k = d := by
  induction t with
  | nil => rfl
  | cons a r ih =>
    obtain ⟨k', v'⟩ := a
    have := h (k', v') (by simp)
    simp only [Tab.get]
    rw [if_neg (by simp at this; omega), ih (fun e he => h e (by simp [he]))]

/-- The key changed reads as the new value, in a table in canonical form. -/
theorem Tab.get_put_self {α : Type} [DecidableEq α] (d : Nat → α) (t : Tab α) (k : Nat) (v : α) (h : Tab.okBy d t) :
    Tab.get (d k) (Tab.put (d k) t k v) k = v := by
  obtain ⟨hp, -⟩ := h
  induction t with
  | nil => by_cases hv : v = d k <;> simp [Tab.put, Tab.get, hv]
  | cons a r ih =>
    obtain ⟨k', v'⟩ := a
    rw [List.pairwise_cons] at hp
    unfold Tab.put
    split
    · rename_i hk
      split
      · rename_i hv
        rw [hv, Tab.get_of_lt]
        intro e he
        rcases List.mem_cons.1 he with rfl | he
        · exact hk
        · exact Nat.lt_trans hk (hp.1 e he)
      · simp [Tab.get]
    · split
      · subst k
        split
        · rename_i hv; rw [hv, Tab.get_of_lt _ _ _ hp.1]
        · simp [Tab.get]
      · rename_i hk
        simp only [Tab.get]
        rw [if_neg (by omega)]
        exact ih hp.2

theorem insertSorted_mem (n m : Nat) (l : List Nat) : m ∈ insertSorted n l ↔ m = n ∨ m ∈ l := by
  induction l with
  | nil => simp [insertSorted]
  | cons a r ih =>
    unfold insertSorted
    split
    · simp
    · split
      · simp; intro h; exact .inl (by omega)
      · simp [ih]; tauto

/-- Insertion keeps a rising list rising. -/
theorem insertSorted_sorted (n : Nat) (l : List Nat) (h : l.Pairwise (· < ·)) : (insertSorted n l).Pairwise (· < ·) := by
  induction l with
  | nil => simp [insertSorted]
  | cons a r ih =>
    rw [List.pairwise_cons] at h
    unfold insertSorted
    split
    · refine List.pairwise_cons.2 ⟨fun e he => ?_, List.pairwise_cons.2 h⟩
      rcases List.mem_cons.1 he with rfl | he
      · assumption
      · exact Nat.lt_trans ‹n < a› (h.1 e he)
    · split
      · exact List.pairwise_cons.2 h
      · refine List.pairwise_cons.2 ⟨fun e he => ?_, ih h.2⟩
        rcases (insertSorted_mem _ _ _).1 he with rfl | he
        · omega
        · exact h.1 e he

end Sys2Proof.Machine
end

