-- ==== Sys2Proof/Laws/Moves.lean ====
section
/-! SUPPORT. What a piece of the machine may change: the relation every frame law is stated in, how it composes, and the laws
of single updates. -/

namespace Sys2Proof.Laws

open Sys2Proof.Machine Sys2Proof.Safety

/-- A list of parts as one number, a bit for each. -/
def mask (ps : List Part) : Nat := ps.foldr (fun p m => 2 ^ p.ctorIdx ||| m) 0

/-- One part's bit is set. -/
def has (m : Nat) (p : Part) : Bool := m.testBit p.ctorIdx

/-- The first list's parts are among the second's, told from their bits. -/
def partsIn (ps qs : List Part) : Bool := mask ps &&& mask qs == mask ps

theorem Part.ctorIdx_inj (p q : Part) (h : p.ctorIdx = q.ctorIdx) : p = q := by
  cases p <;> first | (cases q <;> first | rfl | (exact absurd h (by decide)))

theorem has_mask (ps : List Part) (p : Part) : has (mask ps) p = decide (p ∈ ps) := by
  induction ps with
  | nil => simp [has, mask]
  | cons q r ih =>
    have : has (mask (q :: r)) p = (decide (p = q) || has (mask r) p) := by
      simp only [has, mask, List.foldr_cons, Nat.testBit_lor, Nat.testBit_two_pow]
      congr 1
      rw [decide_eq_decide]
      exact ⟨fun h => (Part.ctorIdx_inj _ _ h).symm, fun h => by rw [h]⟩
    rw [this, ih]
    simp

theorem exists_of_testBit (ps : List Part) (i : Nat) (h : (mask ps).testBit i = true) : ∃ p ∈ ps, p.ctorIdx = i := by
  induction ps with
  | nil => simp [mask] at h
  | cons q r ih =>
    simp only [mask, List.foldr_cons, Nat.testBit_lor, Nat.testBit_two_pow, Bool.or_eq_true, decide_eq_true_eq] at h
    rcases h with h | h
    · exact ⟨q, by simp, h⟩
    · obtain ⟨p, hp, e⟩ := ih h
      exact ⟨p, by simp [hp], e⟩

theorem mem_of_partsIn {ps qs : List Part} (h : partsIn ps qs = true) {p : Part} (hp : p ∈ ps) : p ∈ qs := by
  have e : mask ps &&& mask qs = mask ps := by simpa [partsIn] using h
  have h1 : has (mask ps) p = true := by simp [has_mask, hp]
  have h2 : has (mask ps &&& mask qs) p = (has (mask ps) p && has (mask qs) p) := by simp [has, Nat.testBit_and]
  rw [e, h1, Bool.true_and, has_mask] at h2
  simpa using h2.symm

theorem partsIn_iff {ps qs : List Part} : partsIn ps qs = true ↔ ∀ p ∈ ps, p ∈ qs := by
  refine ⟨fun h _ => mem_of_partsIn h, fun h => ?_⟩
  have e : mask ps &&& mask qs = mask ps := by
    refine Nat.eq_of_testBit_eq fun i => ?_
    rw [Nat.testBit_and]
    cases hi : (mask ps).testBit i with
    | false => rfl
    | true =>
      obtain ⟨p, hp, rfl⟩ := exists_of_testBit ps i hi
      have := has_mask qs p
      rw [decide_eq_true (h p hp)] at this
      exact this
  simp [partsIn, e]

theorem partsIn_trans {ps qs rs : List Part} (h : partsIn ps qs = true) (k : partsIn qs rs = true) : partsIn ps rs = true :=
  partsIn_iff.2 fun _ hp => partsIn_iff.1 k _ (partsIn_iff.1 h _ hp)

/-- Only the listed parts change; every table stays canonical; what no command takes back stands. -/
structure Moves (ps : List Part) (a s : State) : Prop where
  frame : changesOnly ps a s
  keeps : canonical a → canonical s
  fused : fused a s

theorem Part.same_refl (s : State) (p : Part) : Part.same s s p := by
  cases p <;> first | rfl | exact ⟨rfl, rfl⟩ | (intro _ _ _; rfl)

theorem Part.same_trans {a b c : State} {p : Part} (h : Part.same a b p) (k : Part.same b c p) : Part.same a c p := by
  cases p <;> first
    | exact Eq.trans k h
    | exact ⟨k.1.trans h.1, k.2.trans h.2⟩
    | exact fun o h1 h2 => (k o h1 h2).trans (h o h1 h2)

theorem fused_refl (s : State) : Safety.fused s s :=
  ⟨rfl, rfl, le_rfl, le_rfl, le_rfl, fun _ h => h, fun _ h => h, le_rfl⟩

theorem fused_trans {a b c : State} (h : Safety.fused a b) (k : Safety.fused b c) : Safety.fused a c :=
  ⟨k.1.trans h.1, k.2.trans h.2, h.3.trans k.3, h.4.trans k.4, h.5.trans k.5, fun x hx => k.6 x (h.6 x hx),
    fun x hx => k.7 x (h.7 x hx), h.8.trans k.8⟩

theorem Moves.refl (ps : List Part) (s : State) : Moves ps s s := ⟨fun p _ => Part.same_refl s p, id, fused_refl s⟩

theorem Moves.trans {ps : List Part} {a b c : State} (h : Moves ps a b) (k : Moves ps b c) : Moves ps a c :=
  ⟨fun p hp => Part.same_trans (h.1 p hp) (k.1 p hp), k.2 ∘ h.2, fused_trans h.3 k.3⟩

theorem Moves.mono {ps qs : List Part} {a s : State} (h : Moves ps a s) (hk : partsIn ps qs = true) : Moves qs a s :=
  ⟨fun p hp => h.1 p fun hq => hp (mem_of_partsIn hk hq), h.2, h.3⟩

/-- A step of a smaller footprint follows. -/
theorem Moves.via {ps qs : List Part} {a b c : State} (h : Moves qs a b) (g : Moves ps b c) (hk : partsIn ps qs = true) :
    Moves qs a c :=
  h.trans (g.mono hk)

theorem Moves.trans' {ps qs : List Part} {a b c : State} (h : Moves ps a b) (hk : partsIn ps qs = true) (g : Moves qs b c) :
    Moves qs a c := (h.mono hk).trans g

theorem Moves.step {ps qs : List Part} {a b c : State} (g : Moves ps b c) (hk : partsIn ps qs = true) (h : Moves qs a b) :
    Moves qs a c := h.via g hk

theorem Moves.cut {ps : List Part} {a x s : State} (k : Moves ps a x → Moves ps a s) (h : Moves ps a x) : Moves ps a s := k h

theorem Moves.ite {ps : List Part} {a s t : State} {c : Prop} [Decidable c] (hs : Moves ps a s) (ht : Moves ps a t) :
    Moves ps a (if c then s else t) := by
  split
  · exact hs
  · exact ht

theorem Moves.foldl {α : Type} {ps : List Part} {a s : State} {f : State → α → State}
    (hf : ∀ s x, Moves ps a s → Moves ps a (f s x)) (h : Moves ps a s) (l : List α) : Moves ps a (l.foldl f s) := by
  induction l generalizing s with
  | nil => exact h
  | cons x r ih => exact ih (hf _ _ h)

theorem Moves.foldr {α : Type} {ps : List Part} {a s : State} {f : α → State → State}
    (hf : ∀ s x, Moves ps a s → Moves ps a (f x s)) (h : Moves ps a s) (l : List α) : Moves ps a (l.foldr f s) := by
  induction l with
  | nil => exact h
  | cons x r ih => exact hf _ _ ih

/-- A fold that carries a value beside the state. -/
theorem Moves.foldl_snd {α β : Type} {ps : List Part} {a : State} {f : β × State → α → β × State} {p : β × State}
    (hf : ∀ q x, Moves ps a q.2 → Moves ps a (f q x).2) (h : Moves ps a p.2) (l : List α) : Moves ps a (l.foldl f p).2 := by
  induction l generalizing p with
  | nil => exact h
  | cons x r ih => exact ih (hf _ _ h)

theorem Moves.of_pair {β : Type} {ps : List Part} {a t : State} {w : β} {p : β × State} (h : p = (w, t))
    (k : Moves ps a p.2) : Moves ps a t := by
  subst h
  exact k

theorem Moves.of_reply {β γ : Type} {ps : List Part} {a t : State} {w : β} {v : γ} {p : β × γ × State} (h : p = (w, v, t))
    (k : Moves ps a p.2.2) : Moves ps a t := by
  subst h
  exact k

/-- An outcome is a next state, reached within a footprint. -/
def Ends (ps : List Part) (a : State) (r : Result) : Prop := ∃ t, r = .next t ∧ Moves ps a t

theorem Ends.next {ps : List Part} {a s : State} (h : Moves ps a s) : Ends ps a (.next s) := ⟨s, rfl, h⟩

theorem Moves.via_ends {ps qs : List Part} {a b : State} {r : Result} (h : Moves qs a b) (g : Ends ps b r)
    (hk : partsIn ps qs = true) : Ends qs a r :=
  let ⟨t, ht, hm⟩ := g
  ⟨t, ht, h.via hm hk⟩

theorem Ends.step {ps qs : List Part} {a b : State} {r : Result} (g : Ends ps b r) (hk : partsIn ps qs = true)
    (h : Moves qs a b) : Ends qs a r := h.via_ends g hk

theorem Ends.ite {ps : List Part} {a : State} {q r : Result} {c : Prop} [Decidable c] (hq : Ends ps a q) (hr : Ends ps a r) :
    Ends ps a (if c then q else r) := by
  split
  · exact hq
  · exact hr

theorem Ends.cut {ps : List Part} {a x : State} {r : Result} (k : Moves ps a x → Ends ps a r) (h : Moves ps a x) :
    Ends ps a r := k h

theorem Ends.mono {ps qs : List Part} {a : State} {r : Result} (h : Ends ps a r) (hk : partsIn ps qs = true) : Ends qs a r :=
  let ⟨t, ht, hm⟩ := h
  ⟨t, ht, hm.mono hk⟩

end Sys2Proof.Laws
end

