-- ==== Sys2Proof/Laws/State.lean ====
section
/-! SUPPORT. Laws of the state's updates: what each named update leaves alone (true by definition), what a unit reads as after
its own update, and the footprint of each single update. -/

namespace Sys2Proof.Machine

open Sys2Proof.Laws Sys2Proof.Safety

@[simp] theorem State.setReg_pending (s : State) (off : Nat) (v : Word) : (s.setReg off v).pending = s.pending := rfl
@[simp] theorem State.setReg_fresh (s : State) (off : Nat) (v : Word) : (s.setReg off v).fresh = s.fresh := rfl
@[simp] theorem State.setReg_tx (s : State) (off : Nat) (v : Word) : (s.setReg off v).tx = s.tx := rfl
@[simp] theorem State.setReg_power (s : State) (off : Nat) (v : Word) : (s.setReg off v).power = s.power := rfl
@[simp] theorem State.setReg_pwrGood (s : State) (off : Nat) (v : Word) : (s.setReg off v).pwrGood = s.pwrGood := rfl
@[simp] theorem State.setReg_etc (s : State) (off : Nat) (v : Word) : (s.setReg off v).etc = s.etc := rfl
@[simp] theorem State.setReg_timer (s : State) (off : Nat) (v : Word) : (s.setReg off v).timer = s.timer := rfl
@[simp] theorem State.setReg_dev (s : State) (off : Nat) (v : Word) : (s.setReg off v).dev = s.dev := rfl
@[simp] theorem State.setReg_fault (s : State) (off : Nat) (v : Word) : (s.setReg off v).fault = s.fault := rfl
@[simp] theorem State.setReg_start (s : State) (off : Nat) (v : Word) : (s.setReg off v).start = s.start := rfl
@[simp] theorem State.setReg_nv (s : State) (off : Nat) (v : Word) : (s.setReg off v).nv = s.nv := rfl
@[simp] theorem State.setReg_sec (s : State) (off : Nat) (v : Word) : (s.setReg off v).sec = s.sec := rfl
@[simp] theorem State.setReg_log (s : State) (off : Nat) (v : Word) : (s.setReg off v).log = s.log := rfl
@[simp] theorem State.setReg_crash (s : State) (off : Nat) (v : Word) : (s.setReg off v).crash = s.crash := rfl
@[simp] theorem State.setReg_staged5 (s : State) (off : Nat) (v : Word) : (s.setReg off v).staged5 = s.staged5 := rfl
@[simp] theorem State.setReg_staged3 (s : State) (off : Nat) (v : Word) : (s.setReg off v).staged3 = s.staged3 := rfl
@[simp] theorem State.setReg_seeded (s : State) (off : Nat) (v : Word) : (s.setReg off v).seeded = s.seeded := rfl
@[simp] theorem State.setReg_holding (s : State) (off : Nat) (v : Word) : (s.setReg off v).holding = s.holding := rfl
@[simp] theorem State.setReg_guards (s : State) (off : Nat) (v : Word) : (s.setReg off v).guards = s.guards := rfl
@[simp] theorem State.setReg_mem (s : State) (off : Nat) (v : Word) : (s.setReg off v).mem = s.mem := rfl
@[simp] theorem State.setReg_poison (s : State) (off : Nat) (v : Word) : (s.setReg off v).poison = s.poison := rfl
@[simp] theorem State.setReg_sculls (s : State) (off : Nat) (v : Word) : (s.setReg off v).sculls = s.sculls := rfl
@[simp] theorem State.setReg_crews (s : State) (off : Nat) (v : Word) : (s.setReg off v).crews = s.crews := rfl
@[simp] theorem State.setReg_ergs (s : State) (off : Nat) (v : Word) : (s.setReg off v).ergs = s.ergs := rfl
@[simp] theorem State.setReg_ctrs (s : State) (off : Nat) (v : Word) : (s.setReg off v).ctrs = s.ctrs := rfl
@[simp] theorem State.setReg_tasks (s : State) (off : Nat) (v : Word) : (s.setReg off v).tasks = s.tasks := rfl
@[simp] theorem State.setReg_rings (s : State) (off : Nat) (v : Word) : (s.setReg off v).rings = s.rings := rfl
@[simp] theorem State.setReg_lastRing (s : State) (off : Nat) (v : Word) : (s.setReg off v).lastRing = s.lastRing := rfl
@[simp] theorem State.setReg_mbs (s : State) (off : Nat) (v : Word) : (s.setReg off v).mbs = s.mbs := rfl
@[simp] theorem State.setReg_stateMb (s : State) (off : Nat) (v : Word) : (s.setReg off v).stateMb = s.stateMb := rfl
@[simp] theorem State.setReg_mbQueue (s : State) (off : Nat) (v : Word) : (s.setReg off v).mbQueue = s.mbQueue := rfl
@[simp] theorem State.setReg_dunes (s : State) (off : Nat) (v : Word) : (s.setReg off v).dunes = s.dunes := rfl
@[simp] theorem State.setReg_tier (s : State) (off : Nat) (v : Word) : (s.setReg off v).tier = s.tier := rfl
@[simp] theorem State.setReg_kv (s : State) (off : Nat) (v : Word) : (s.setReg off v).kv = s.kv := rfl
@[simp] theorem State.setReg_lowp (s : State) (off : Nat) (v : Word) : (s.setReg off v).lowp = s.lowp := rfl
@[simp] theorem State.setReg_wakes (s : State) (off : Nat) (v : Word) : (s.setReg off v).wakes = s.wakes := rfl
@[simp] theorem State.setReg_ports (s : State) (off : Nat) (v : Word) : (s.setReg off v).ports = s.ports := rfl
@[simp] theorem State.setReg_rigger (s : State) (off : Nat) (v : Word) : (s.setReg off v).rigger = s.rigger := rfl
@[simp] theorem State.setReg_colls (s : State) (off : Nat) (v : Word) : (s.setReg off v).colls = s.colls := rfl
@[simp] theorem State.setReg_peers (s : State) (off : Nat) (v : Word) : (s.setReg off v).peers = s.peers := rfl
@[simp] theorem State.setReg_sched (s : State) (off : Nat) (v : Word) : (s.setReg off v).sched = s.sched := rfl
@[simp] theorem State.setReg_host (s : State) (off : Nat) (v : Word) : (s.setReg off v).host = s.host := rfl
@[simp] theorem State.setReg_islands (s : State) (off : Nat) (v : Word) : (s.setReg off v).islands = s.islands := rfl
@[simp] theorem State.setReg_flashGone (s : State) (off : Nat) (v : Word) : (s.setReg off v).flashGone = s.flashGone := rfl
@[simp] theorem State.setReg_pwr (s : State) (off : Nat) (v : Word) : (s.setReg off v).pwr = s.pwr := rfl
@[simp] theorem State.setReg_cairn (s : State) (off : Nat) (v : Word) : (s.setReg off v).cairn = s.cairn := rfl

@[simp] theorem State.setScull_pending (s : State) (k : Nat) (v : Scull) : (s.setScull k v).pending = s.pending := rfl
@[simp] theorem State.setScull_fresh (s : State) (k : Nat) (v : Scull) : (s.setScull k v).fresh = s.fresh := rfl
@[simp] theorem State.setScull_tx (s : State) (k : Nat) (v : Scull) : (s.setScull k v).tx = s.tx := rfl
@[simp] theorem State.setScull_power (s : State) (k : Nat) (v : Scull) : (s.setScull k v).power = s.power := rfl
@[simp] theorem State.setScull_pwrGood (s : State) (k : Nat) (v : Scull) : (s.setScull k v).pwrGood = s.pwrGood := rfl
@[simp] theorem State.setScull_etc (s : State) (k : Nat) (v : Scull) : (s.setScull k v).etc = s.etc := rfl
@[simp] theorem State.setScull_timer (s : State) (k : Nat) (v : Scull) : (s.setScull k v).timer = s.timer := rfl
@[simp] theorem State.setScull_dev (s : State) (k : Nat) (v : Scull) : (s.setScull k v).dev = s.dev := rfl
@[simp] theorem State.setScull_fault (s : State) (k : Nat) (v : Scull) : (s.setScull k v).fault = s.fault := rfl
@[simp] theorem State.setScull_start (s : State) (k : Nat) (v : Scull) : (s.setScull k v).start = s.start := rfl
@[simp] theorem State.setScull_nv (s : State) (k : Nat) (v : Scull) : (s.setScull k v).nv = s.nv := rfl
@[simp] theorem State.setScull_sec (s : State) (k : Nat) (v : Scull) : (s.setScull k v).sec = s.sec := rfl
@[simp] theorem State.setScull_log (s : State) (k : Nat) (v : Scull) : (s.setScull k v).log = s.log := rfl
@[simp] theorem State.setScull_crash (s : State) (k : Nat) (v : Scull) : (s.setScull k v).crash = s.crash := rfl
@[simp] theorem State.setScull_regs (s : State) (k : Nat) (v : Scull) : (s.setScull k v).regs = s.regs := rfl
@[simp] theorem State.setScull_staged5 (s : State) (k : Nat) (v : Scull) : (s.setScull k v).staged5 = s.staged5 := rfl
@[simp] theorem State.setScull_staged3 (s : State) (k : Nat) (v : Scull) : (s.setScull k v).staged3 = s.staged3 := rfl
@[simp] theorem State.setScull_seeded (s : State) (k : Nat) (v : Scull) : (s.setScull k v).seeded = s.seeded := rfl
@[simp] theorem State.setScull_holding (s : State) (k : Nat) (v : Scull) : (s.setScull k v).holding = s.holding := rfl
@[simp] theorem State.setScull_guards (s : State) (k : Nat) (v : Scull) : (s.setScull k v).guards = s.guards := rfl
@[simp] theorem State.setScull_mem (s : State) (k : Nat) (v : Scull) : (s.setScull k v).mem = s.mem := rfl
@[simp] theorem State.setScull_poison (s : State) (k : Nat) (v : Scull) : (s.setScull k v).poison = s.poison := rfl
@[simp] theorem State.setScull_crews (s : State) (k : Nat) (v : Scull) : (s.setScull k v).crews = s.crews := rfl
@[simp] theorem State.setScull_ergs (s : State) (k : Nat) (v : Scull) : (s.setScull k v).ergs = s.ergs := rfl
@[simp] theorem State.setScull_ctrs (s : State) (k : Nat) (v : Scull) : (s.setScull k v).ctrs = s.ctrs := rfl
@[simp] theorem State.setScull_tasks (s : State) (k : Nat) (v : Scull) : (s.setScull k v).tasks = s.tasks := rfl
@[simp] theorem State.setScull_rings (s : State) (k : Nat) (v : Scull) : (s.setScull k v).rings = s.rings := rfl
@[simp] theorem State.setScull_lastRing (s : State) (k : Nat) (v : Scull) : (s.setScull k v).lastRing = s.lastRing := rfl
@[simp] theorem State.setScull_mbs (s : State) (k : Nat) (v : Scull) : (s.setScull k v).mbs = s.mbs := rfl
@[simp] theorem State.setScull_stateMb (s : State) (k : Nat) (v : Scull) : (s.setScull k v).stateMb = s.stateMb := rfl
@[simp] theorem State.setScull_mbQueue (s : State) (k : Nat) (v : Scull) : (s.setScull k v).mbQueue = s.mbQueue := rfl
@[simp] theorem State.setScull_dunes (s : State) (k : Nat) (v : Scull) : (s.setScull k v).dunes = s.dunes := rfl
@[simp] theorem State.setScull_tier (s : State) (k : Nat) (v : Scull) : (s.setScull k v).tier = s.tier := rfl
@[simp] theorem State.setScull_kv (s : State) (k : Nat) (v : Scull) : (s.setScull k v).kv = s.kv := rfl
@[simp] theorem State.setScull_lowp (s : State) (k : Nat) (v : Scull) : (s.setScull k v).lowp = s.lowp := rfl
@[simp] theorem State.setScull_wakes (s : State) (k : Nat) (v : Scull) : (s.setScull k v).wakes = s.wakes := rfl
@[simp] theorem State.setScull_ports (s : State) (k : Nat) (v : Scull) : (s.setScull k v).ports = s.ports := rfl
@[simp] theorem State.setScull_rigger (s : State) (k : Nat) (v : Scull) : (s.setScull k v).rigger = s.rigger := rfl
@[simp] theorem State.setScull_colls (s : State) (k : Nat) (v : Scull) : (s.setScull k v).colls = s.colls := rfl
@[simp] theorem State.setScull_peers (s : State) (k : Nat) (v : Scull) : (s.setScull k v).peers = s.peers := rfl
@[simp] theorem State.setScull_sched (s : State) (k : Nat) (v : Scull) : (s.setScull k v).sched = s.sched := rfl
@[simp] theorem State.setScull_host (s : State) (k : Nat) (v : Scull) : (s.setScull k v).host = s.host := rfl
@[simp] theorem State.setScull_islands (s : State) (k : Nat) (v : Scull) : (s.setScull k v).islands = s.islands := rfl
@[simp] theorem State.setScull_flashGone (s : State) (k : Nat) (v : Scull) : (s.setScull k v).flashGone = s.flashGone := rfl
@[simp] theorem State.setScull_pwr (s : State) (k : Nat) (v : Scull) : (s.setScull k v).pwr = s.pwr := rfl
@[simp] theorem State.setScull_cairn (s : State) (k : Nat) (v : Scull) : (s.setScull k v).cairn = s.cairn := rfl

@[simp] theorem State.setCrew_pending (s : State) (k : Nat) (v : Crew) : (s.setCrew k v).pending = s.pending := rfl
@[simp] theorem State.setCrew_fresh (s : State) (k : Nat) (v : Crew) : (s.setCrew k v).fresh = s.fresh := rfl
@[simp] theorem State.setCrew_tx (s : State) (k : Nat) (v : Crew) : (s.setCrew k v).tx = s.tx := rfl
@[simp] theorem State.setCrew_power (s : State) (k : Nat) (v : Crew) : (s.setCrew k v).power = s.power := rfl
@[simp] theorem State.setCrew_pwrGood (s : State) (k : Nat) (v : Crew) : (s.setCrew k v).pwrGood = s.pwrGood := rfl
@[simp] theorem State.setCrew_etc (s : State) (k : Nat) (v : Crew) : (s.setCrew k v).etc = s.etc := rfl
@[simp] theorem State.setCrew_timer (s : State) (k : Nat) (v : Crew) : (s.setCrew k v).timer = s.timer := rfl
@[simp] theorem State.setCrew_dev (s : State) (k : Nat) (v : Crew) : (s.setCrew k v).dev = s.dev := rfl
@[simp] theorem State.setCrew_fault (s : State) (k : Nat) (v : Crew) : (s.setCrew k v).fault = s.fault := rfl
@[simp] theorem State.setCrew_start (s : State) (k : Nat) (v : Crew) : (s.setCrew k v).start = s.start := rfl
@[simp] theorem State.setCrew_nv (s : State) (k : Nat) (v : Crew) : (s.setCrew k v).nv = s.nv := rfl
@[simp] theorem State.setCrew_sec (s : State) (k : Nat) (v : Crew) : (s.setCrew k v).sec = s.sec := rfl
@[simp] theorem State.setCrew_log (s : State) (k : Nat) (v : Crew) : (s.setCrew k v).log = s.log := rfl
@[simp] theorem State.setCrew_crash (s : State) (k : Nat) (v : Crew) : (s.setCrew k v).crash = s.crash := rfl
@[simp] theorem State.setCrew_regs (s : State) (k : Nat) (v : Crew) : (s.setCrew k v).regs = s.regs := rfl
@[simp] theorem State.setCrew_staged5 (s : State) (k : Nat) (v : Crew) : (s.setCrew k v).staged5 = s.staged5 := rfl
@[simp] theorem State.setCrew_staged3 (s : State) (k : Nat) (v : Crew) : (s.setCrew k v).staged3 = s.staged3 := rfl
@[simp] theorem State.setCrew_seeded (s : State) (k : Nat) (v : Crew) : (s.setCrew k v).seeded = s.seeded := rfl
@[simp] theorem State.setCrew_holding (s : State) (k : Nat) (v : Crew) : (s.setCrew k v).holding = s.holding := rfl
@[simp] theorem State.setCrew_guards (s : State) (k : Nat) (v : Crew) : (s.setCrew k v).guards = s.guards := rfl
@[simp] theorem State.setCrew_mem (s : State) (k : Nat) (v : Crew) : (s.setCrew k v).mem = s.mem := rfl
@[simp] theorem State.setCrew_poison (s : State) (k : Nat) (v : Crew) : (s.setCrew k v).poison = s.poison := rfl
@[simp] theorem State.setCrew_sculls (s : State) (k : Nat) (v : Crew) : (s.setCrew k v).sculls = s.sculls := rfl
@[simp] theorem State.setCrew_ergs (s : State) (k : Nat) (v : Crew) : (s.setCrew k v).ergs = s.ergs := rfl
@[simp] theorem State.setCrew_ctrs (s : State) (k : Nat) (v : Crew) : (s.setCrew k v).ctrs = s.ctrs := rfl
@[simp] theorem State.setCrew_tasks (s : State) (k : Nat) (v : Crew) : (s.setCrew k v).tasks = s.tasks := rfl
@[simp] theorem State.setCrew_rings (s : State) (k : Nat) (v : Crew) : (s.setCrew k v).rings = s.rings := rfl
@[simp] theorem State.setCrew_lastRing (s : State) (k : Nat) (v : Crew) : (s.setCrew k v).lastRing = s.lastRing := rfl
@[simp] theorem State.setCrew_mbs (s : State) (k : Nat) (v : Crew) : (s.setCrew k v).mbs = s.mbs := rfl
@[simp] theorem State.setCrew_stateMb (s : State) (k : Nat) (v : Crew) : (s.setCrew k v).stateMb = s.stateMb := rfl
@[simp] theorem State.setCrew_mbQueue (s : State) (k : Nat) (v : Crew) : (s.setCrew k v).mbQueue = s.mbQueue := rfl
@[simp] theorem State.setCrew_dunes (s : State) (k : Nat) (v : Crew) : (s.setCrew k v).dunes = s.dunes := rfl
@[simp] theorem State.setCrew_tier (s : State) (k : Nat) (v : Crew) : (s.setCrew k v).tier = s.tier := rfl
@[simp] theorem State.setCrew_kv (s : State) (k : Nat) (v : Crew) : (s.setCrew k v).kv = s.kv := rfl
@[simp] theorem State.setCrew_lowp (s : State) (k : Nat) (v : Crew) : (s.setCrew k v).lowp = s.lowp := rfl
@[simp] theorem State.setCrew_wakes (s : State) (k : Nat) (v : Crew) : (s.setCrew k v).wakes = s.wakes := rfl
@[simp] theorem State.setCrew_ports (s : State) (k : Nat) (v : Crew) : (s.setCrew k v).ports = s.ports := rfl
@[simp] theorem State.setCrew_rigger (s : State) (k : Nat) (v : Crew) : (s.setCrew k v).rigger = s.rigger := rfl
@[simp] theorem State.setCrew_colls (s : State) (k : Nat) (v : Crew) : (s.setCrew k v).colls = s.colls := rfl
@[simp] theorem State.setCrew_peers (s : State) (k : Nat) (v : Crew) : (s.setCrew k v).peers = s.peers := rfl
@[simp] theorem State.setCrew_sched (s : State) (k : Nat) (v : Crew) : (s.setCrew k v).sched = s.sched := rfl
@[simp] theorem State.setCrew_host (s : State) (k : Nat) (v : Crew) : (s.setCrew k v).host = s.host := rfl
@[simp] theorem State.setCrew_islands (s : State) (k : Nat) (v : Crew) : (s.setCrew k v).islands = s.islands := rfl
@[simp] theorem State.setCrew_flashGone (s : State) (k : Nat) (v : Crew) : (s.setCrew k v).flashGone = s.flashGone := rfl
@[simp] theorem State.setCrew_pwr (s : State) (k : Nat) (v : Crew) : (s.setCrew k v).pwr = s.pwr := rfl
@[simp] theorem State.setCrew_cairn (s : State) (k : Nat) (v : Crew) : (s.setCrew k v).cairn = s.cairn := rfl

@[simp] theorem State.setErg_pending (s : State) (k : Nat) (v : Erg) : (s.setErg k v).pending = s.pending := rfl
@[simp] theorem State.setErg_fresh (s : State) (k : Nat) (v : Erg) : (s.setErg k v).fresh = s.fresh := rfl
@[simp] theorem State.setErg_tx (s : State) (k : Nat) (v : Erg) : (s.setErg k v).tx = s.tx := rfl
@[simp] theorem State.setErg_power (s : State) (k : Nat) (v : Erg) : (s.setErg k v).power = s.power := rfl
@[simp] theorem State.setErg_pwrGood (s : State) (k : Nat) (v : Erg) : (s.setErg k v).pwrGood = s.pwrGood := rfl
@[simp] theorem State.setErg_etc (s : State) (k : Nat) (v : Erg) : (s.setErg k v).etc = s.etc := rfl
@[simp] theorem State.setErg_timer (s : State) (k : Nat) (v : Erg) : (s.setErg k v).timer = s.timer := rfl
@[simp] theorem State.setErg_dev (s : State) (k : Nat) (v : Erg) : (s.setErg k v).dev = s.dev := rfl
@[simp] theorem State.setErg_fault (s : State) (k : Nat) (v : Erg) : (s.setErg k v).fault = s.fault := rfl
@[simp] theorem State.setErg_start (s : State) (k : Nat) (v : Erg) : (s.setErg k v).start = s.start := rfl
@[simp] theorem State.setErg_nv (s : State) (k : Nat) (v : Erg) : (s.setErg k v).nv = s.nv := rfl
@[simp] theorem State.setErg_sec (s : State) (k : Nat) (v : Erg) : (s.setErg k v).sec = s.sec := rfl
@[simp] theorem State.setErg_log (s : State) (k : Nat) (v : Erg) : (s.setErg k v).log = s.log := rfl
@[simp] theorem State.setErg_crash (s : State) (k : Nat) (v : Erg) : (s.setErg k v).crash = s.crash := rfl
@[simp] theorem State.setErg_regs (s : State) (k : Nat) (v : Erg) : (s.setErg k v).regs = s.regs := rfl
@[simp] theorem State.setErg_staged5 (s : State) (k : Nat) (v : Erg) : (s.setErg k v).staged5 = s.staged5 := rfl
@[simp] theorem State.setErg_staged3 (s : State) (k : Nat) (v : Erg) : (s.setErg k v).staged3 = s.staged3 := rfl
@[simp] theorem State.setErg_seeded (s : State) (k : Nat) (v : Erg) : (s.setErg k v).seeded = s.seeded := rfl
@[simp] theorem State.setErg_holding (s : State) (k : Nat) (v : Erg) : (s.setErg k v).holding = s.holding := rfl
@[simp] theorem State.setErg_guards (s : State) (k : Nat) (v : Erg) : (s.setErg k v).guards = s.guards := rfl
@[simp] theorem State.setErg_mem (s : State) (k : Nat) (v : Erg) : (s.setErg k v).mem = s.mem := rfl
@[simp] theorem State.setErg_poison (s : State) (k : Nat) (v : Erg) : (s.setErg k v).poison = s.poison := rfl
@[simp] theorem State.setErg_sculls (s : State) (k : Nat) (v : Erg) : (s.setErg k v).sculls = s.sculls := rfl
@[simp] theorem State.setErg_crews (s : State) (k : Nat) (v : Erg) : (s.setErg k v).crews = s.crews := rfl
@[simp] theorem State.setErg_ctrs (s : State) (k : Nat) (v : Erg) : (s.setErg k v).ctrs = s.ctrs := rfl
@[simp] theorem State.setErg_tasks (s : State) (k : Nat) (v : Erg) : (s.setErg k v).tasks = s.tasks := rfl
@[simp] theorem State.setErg_rings (s : State) (k : Nat) (v : Erg) : (s.setErg k v).rings = s.rings := rfl
@[simp] theorem State.setErg_lastRing (s : State) (k : Nat) (v : Erg) : (s.setErg k v).lastRing = s.lastRing := rfl
@[simp] theorem State.setErg_mbs (s : State) (k : Nat) (v : Erg) : (s.setErg k v).mbs = s.mbs := rfl
@[simp] theorem State.setErg_stateMb (s : State) (k : Nat) (v : Erg) : (s.setErg k v).stateMb = s.stateMb := rfl
@[simp] theorem State.setErg_mbQueue (s : State) (k : Nat) (v : Erg) : (s.setErg k v).mbQueue = s.mbQueue := rfl
@[simp] theorem State.setErg_dunes (s : State) (k : Nat) (v : Erg) : (s.setErg k v).dunes = s.dunes := rfl
@[simp] theorem State.setErg_tier (s : State) (k : Nat) (v : Erg) : (s.setErg k v).tier = s.tier := rfl
@[simp] theorem State.setErg_kv (s : State) (k : Nat) (v : Erg) : (s.setErg k v).kv = s.kv := rfl
@[simp] theorem State.setErg_lowp (s : State) (k : Nat) (v : Erg) : (s.setErg k v).lowp = s.lowp := rfl
@[simp] theorem State.setErg_wakes (s : State) (k : Nat) (v : Erg) : (s.setErg k v).wakes = s.wakes := rfl
@[simp] theorem State.setErg_ports (s : State) (k : Nat) (v : Erg) : (s.setErg k v).ports = s.ports := rfl
@[simp] theorem State.setErg_rigger (s : State) (k : Nat) (v : Erg) : (s.setErg k v).rigger = s.rigger := rfl
@[simp] theorem State.setErg_colls (s : State) (k : Nat) (v : Erg) : (s.setErg k v).colls = s.colls := rfl
@[simp] theorem State.setErg_peers (s : State) (k : Nat) (v : Erg) : (s.setErg k v).peers = s.peers := rfl
@[simp] theorem State.setErg_sched (s : State) (k : Nat) (v : Erg) : (s.setErg k v).sched = s.sched := rfl
@[simp] theorem State.setErg_host (s : State) (k : Nat) (v : Erg) : (s.setErg k v).host = s.host := rfl
@[simp] theorem State.setErg_islands (s : State) (k : Nat) (v : Erg) : (s.setErg k v).islands = s.islands := rfl
@[simp] theorem State.setErg_flashGone (s : State) (k : Nat) (v : Erg) : (s.setErg k v).flashGone = s.flashGone := rfl
@[simp] theorem State.setErg_pwr (s : State) (k : Nat) (v : Erg) : (s.setErg k v).pwr = s.pwr := rfl
@[simp] theorem State.setErg_cairn (s : State) (k : Nat) (v : Erg) : (s.setErg k v).cairn = s.cairn := rfl

@[simp] theorem State.setTask_pending (s : State) (k : Nat) (v : Task) : (s.setTask k v).pending = s.pending := rfl
@[simp] theorem State.setTask_fresh (s : State) (k : Nat) (v : Task) : (s.setTask k v).fresh = s.fresh := rfl
@[simp] theorem State.setTask_tx (s : State) (k : Nat) (v : Task) : (s.setTask k v).tx = s.tx := rfl
@[simp] theorem State.setTask_power (s : State) (k : Nat) (v : Task) : (s.setTask k v).power = s.power := rfl
@[simp] theorem State.setTask_pwrGood (s : State) (k : Nat) (v : Task) : (s.setTask k v).pwrGood = s.pwrGood := rfl
@[simp] theorem State.setTask_etc (s : State) (k : Nat) (v : Task) : (s.setTask k v).etc = s.etc := rfl
@[simp] theorem State.setTask_timer (s : State) (k : Nat) (v : Task) : (s.setTask k v).timer = s.timer := rfl
@[simp] theorem State.setTask_dev (s : State) (k : Nat) (v : Task) : (s.setTask k v).dev = s.dev := rfl
@[simp] theorem State.setTask_fault (s : State) (k : Nat) (v : Task) : (s.setTask k v).fault = s.fault := rfl
@[simp] theorem State.setTask_start (s : State) (k : Nat) (v : Task) : (s.setTask k v).start = s.start := rfl
@[simp] theorem State.setTask_nv (s : State) (k : Nat) (v : Task) : (s.setTask k v).nv = s.nv := rfl
@[simp] theorem State.setTask_sec (s : State) (k : Nat) (v : Task) : (s.setTask k v).sec = s.sec := rfl
@[simp] theorem State.setTask_log (s : State) (k : Nat) (v : Task) : (s.setTask k v).log = s.log := rfl
@[simp] theorem State.setTask_crash (s : State) (k : Nat) (v : Task) : (s.setTask k v).crash = s.crash := rfl
@[simp] theorem State.setTask_regs (s : State) (k : Nat) (v : Task) : (s.setTask k v).regs = s.regs := rfl
@[simp] theorem State.setTask_staged5 (s : State) (k : Nat) (v : Task) : (s.setTask k v).staged5 = s.staged5 := rfl
@[simp] theorem State.setTask_staged3 (s : State) (k : Nat) (v : Task) : (s.setTask k v).staged3 = s.staged3 := rfl
@[simp] theorem State.setTask_seeded (s : State) (k : Nat) (v : Task) : (s.setTask k v).seeded = s.seeded := rfl
@[simp] theorem State.setTask_holding (s : State) (k : Nat) (v : Task) : (s.setTask k v).holding = s.holding := rfl
@[simp] theorem State.setTask_guards (s : State) (k : Nat) (v : Task) : (s.setTask k v).guards = s.guards := rfl
@[simp] theorem State.setTask_mem (s : State) (k : Nat) (v : Task) : (s.setTask k v).mem = s.mem := rfl
@[simp] theorem State.setTask_poison (s : State) (k : Nat) (v : Task) : (s.setTask k v).poison = s.poison := rfl
@[simp] theorem State.setTask_sculls (s : State) (k : Nat) (v : Task) : (s.setTask k v).sculls = s.sculls := rfl
@[simp] theorem State.setTask_crews (s : State) (k : Nat) (v : Task) : (s.setTask k v).crews = s.crews := rfl
@[simp] theorem State.setTask_ergs (s : State) (k : Nat) (v : Task) : (s.setTask k v).ergs = s.ergs := rfl
@[simp] theorem State.setTask_ctrs (s : State) (k : Nat) (v : Task) : (s.setTask k v).ctrs = s.ctrs := rfl
@[simp] theorem State.setTask_rings (s : State) (k : Nat) (v : Task) : (s.setTask k v).rings = s.rings := rfl
@[simp] theorem State.setTask_lastRing (s : State) (k : Nat) (v : Task) : (s.setTask k v).lastRing = s.lastRing := rfl
@[simp] theorem State.setTask_mbs (s : State) (k : Nat) (v : Task) : (s.setTask k v).mbs = s.mbs := rfl
@[simp] theorem State.setTask_stateMb (s : State) (k : Nat) (v : Task) : (s.setTask k v).stateMb = s.stateMb := rfl
@[simp] theorem State.setTask_mbQueue (s : State) (k : Nat) (v : Task) : (s.setTask k v).mbQueue = s.mbQueue := rfl
@[simp] theorem State.setTask_dunes (s : State) (k : Nat) (v : Task) : (s.setTask k v).dunes = s.dunes := rfl
@[simp] theorem State.setTask_tier (s : State) (k : Nat) (v : Task) : (s.setTask k v).tier = s.tier := rfl
@[simp] theorem State.setTask_kv (s : State) (k : Nat) (v : Task) : (s.setTask k v).kv = s.kv := rfl
@[simp] theorem State.setTask_lowp (s : State) (k : Nat) (v : Task) : (s.setTask k v).lowp = s.lowp := rfl
@[simp] theorem State.setTask_wakes (s : State) (k : Nat) (v : Task) : (s.setTask k v).wakes = s.wakes := rfl
@[simp] theorem State.setTask_ports (s : State) (k : Nat) (v : Task) : (s.setTask k v).ports = s.ports := rfl
@[simp] theorem State.setTask_rigger (s : State) (k : Nat) (v : Task) : (s.setTask k v).rigger = s.rigger := rfl
@[simp] theorem State.setTask_colls (s : State) (k : Nat) (v : Task) : (s.setTask k v).colls = s.colls := rfl
@[simp] theorem State.setTask_peers (s : State) (k : Nat) (v : Task) : (s.setTask k v).peers = s.peers := rfl
@[simp] theorem State.setTask_sched (s : State) (k : Nat) (v : Task) : (s.setTask k v).sched = s.sched := rfl
@[simp] theorem State.setTask_host (s : State) (k : Nat) (v : Task) : (s.setTask k v).host = s.host := rfl
@[simp] theorem State.setTask_islands (s : State) (k : Nat) (v : Task) : (s.setTask k v).islands = s.islands := rfl
@[simp] theorem State.setTask_flashGone (s : State) (k : Nat) (v : Task) : (s.setTask k v).flashGone = s.flashGone := rfl
@[simp] theorem State.setTask_pwr (s : State) (k : Nat) (v : Task) : (s.setTask k v).pwr = s.pwr := rfl
@[simp] theorem State.setTask_cairn (s : State) (k : Nat) (v : Task) : (s.setTask k v).cairn = s.cairn := rfl

@[simp] theorem State.setRing_pending (s : State) (k : Nat) (v : Ring) : (s.setRing k v).pending = s.pending := rfl
@[simp] theorem State.setRing_fresh (s : State) (k : Nat) (v : Ring) : (s.setRing k v).fresh = s.fresh := rfl
@[simp] theorem State.setRing_tx (s : State) (k : Nat) (v : Ring) : (s.setRing k v).tx = s.tx := rfl
@[simp] theorem State.setRing_power (s : State) (k : Nat) (v : Ring) : (s.setRing k v).power = s.power := rfl
@[simp] theorem State.setRing_pwrGood (s : State) (k : Nat) (v : Ring) : (s.setRing k v).pwrGood = s.pwrGood := rfl
@[simp] theorem State.setRing_etc (s : State) (k : Nat) (v : Ring) : (s.setRing k v).etc = s.etc := rfl
@[simp] theorem State.setRing_timer (s : State) (k : Nat) (v : Ring) : (s.setRing k v).timer = s.timer := rfl
@[simp] theorem State.setRing_dev (s : State) (k : Nat) (v : Ring) : (s.setRing k v).dev = s.dev := rfl
@[simp] theorem State.setRing_fault (s : State) (k : Nat) (v : Ring) : (s.setRing k v).fault = s.fault := rfl
@[simp] theorem State.setRing_start (s : State) (k : Nat) (v : Ring) : (s.setRing k v).start = s.start := rfl
@[simp] theorem State.setRing_nv (s : State) (k : Nat) (v : Ring) : (s.setRing k v).nv = s.nv := rfl
@[simp] theorem State.setRing_sec (s : State) (k : Nat) (v : Ring) : (s.setRing k v).sec = s.sec := rfl
@[simp] theorem State.setRing_log (s : State) (k : Nat) (v : Ring) : (s.setRing k v).log = s.log := rfl
@[simp] theorem State.setRing_crash (s : State) (k : Nat) (v : Ring) : (s.setRing k v).crash = s.crash := rfl
@[simp] theorem State.setRing_regs (s : State) (k : Nat) (v : Ring) : (s.setRing k v).regs = s.regs := rfl
@[simp] theorem State.setRing_staged5 (s : State) (k : Nat) (v : Ring) : (s.setRing k v).staged5 = s.staged5 := rfl
@[simp] theorem State.setRing_staged3 (s : State) (k : Nat) (v : Ring) : (s.setRing k v).staged3 = s.staged3 := rfl
@[simp] theorem State.setRing_seeded (s : State) (k : Nat) (v : Ring) : (s.setRing k v).seeded = s.seeded := rfl
@[simp] theorem State.setRing_holding (s : State) (k : Nat) (v : Ring) : (s.setRing k v).holding = s.holding := rfl
@[simp] theorem State.setRing_guards (s : State) (k : Nat) (v : Ring) : (s.setRing k v).guards = s.guards := rfl
@[simp] theorem State.setRing_mem (s : State) (k : Nat) (v : Ring) : (s.setRing k v).mem = s.mem := rfl
@[simp] theorem State.setRing_poison (s : State) (k : Nat) (v : Ring) : (s.setRing k v).poison = s.poison := rfl
@[simp] theorem State.setRing_sculls (s : State) (k : Nat) (v : Ring) : (s.setRing k v).sculls = s.sculls := rfl
@[simp] theorem State.setRing_crews (s : State) (k : Nat) (v : Ring) : (s.setRing k v).crews = s.crews := rfl
@[simp] theorem State.setRing_ergs (s : State) (k : Nat) (v : Ring) : (s.setRing k v).ergs = s.ergs := rfl
@[simp] theorem State.setRing_ctrs (s : State) (k : Nat) (v : Ring) : (s.setRing k v).ctrs = s.ctrs := rfl
@[simp] theorem State.setRing_tasks (s : State) (k : Nat) (v : Ring) : (s.setRing k v).tasks = s.tasks := rfl
@[simp] theorem State.setRing_lastRing (s : State) (k : Nat) (v : Ring) : (s.setRing k v).lastRing = s.lastRing := rfl
@[simp] theorem State.setRing_mbs (s : State) (k : Nat) (v : Ring) : (s.setRing k v).mbs = s.mbs := rfl
@[simp] theorem State.setRing_stateMb (s : State) (k : Nat) (v : Ring) : (s.setRing k v).stateMb = s.stateMb := rfl
@[simp] theorem State.setRing_mbQueue (s : State) (k : Nat) (v : Ring) : (s.setRing k v).mbQueue = s.mbQueue := rfl
@[simp] theorem State.setRing_dunes (s : State) (k : Nat) (v : Ring) : (s.setRing k v).dunes = s.dunes := rfl
@[simp] theorem State.setRing_tier (s : State) (k : Nat) (v : Ring) : (s.setRing k v).tier = s.tier := rfl
@[simp] theorem State.setRing_kv (s : State) (k : Nat) (v : Ring) : (s.setRing k v).kv = s.kv := rfl
@[simp] theorem State.setRing_lowp (s : State) (k : Nat) (v : Ring) : (s.setRing k v).lowp = s.lowp := rfl
@[simp] theorem State.setRing_wakes (s : State) (k : Nat) (v : Ring) : (s.setRing k v).wakes = s.wakes := rfl
@[simp] theorem State.setRing_ports (s : State) (k : Nat) (v : Ring) : (s.setRing k v).ports = s.ports := rfl
@[simp] theorem State.setRing_rigger (s : State) (k : Nat) (v : Ring) : (s.setRing k v).rigger = s.rigger := rfl
@[simp] theorem State.setRing_colls (s : State) (k : Nat) (v : Ring) : (s.setRing k v).colls = s.colls := rfl
@[simp] theorem State.setRing_peers (s : State) (k : Nat) (v : Ring) : (s.setRing k v).peers = s.peers := rfl
@[simp] theorem State.setRing_sched (s : State) (k : Nat) (v : Ring) : (s.setRing k v).sched = s.sched := rfl
@[simp] theorem State.setRing_host (s : State) (k : Nat) (v : Ring) : (s.setRing k v).host = s.host := rfl
@[simp] theorem State.setRing_islands (s : State) (k : Nat) (v : Ring) : (s.setRing k v).islands = s.islands := rfl
@[simp] theorem State.setRing_flashGone (s : State) (k : Nat) (v : Ring) : (s.setRing k v).flashGone = s.flashGone := rfl
@[simp] theorem State.setRing_pwr (s : State) (k : Nat) (v : Ring) : (s.setRing k v).pwr = s.pwr := rfl
@[simp] theorem State.setRing_cairn (s : State) (k : Nat) (v : Ring) : (s.setRing k v).cairn = s.cairn := rfl

@[simp] theorem State.setMb_pending (s : State) (k : Nat) (v : Mailbox) : (s.setMb k v).pending = s.pending := rfl
@[simp] theorem State.setMb_fresh (s : State) (k : Nat) (v : Mailbox) : (s.setMb k v).fresh = s.fresh := rfl
@[simp] theorem State.setMb_tx (s : State) (k : Nat) (v : Mailbox) : (s.setMb k v).tx = s.tx := rfl
@[simp] theorem State.setMb_power (s : State) (k : Nat) (v : Mailbox) : (s.setMb k v).power = s.power := rfl
@[simp] theorem State.setMb_pwrGood (s : State) (k : Nat) (v : Mailbox) : (s.setMb k v).pwrGood = s.pwrGood := rfl
@[simp] theorem State.setMb_etc (s : State) (k : Nat) (v : Mailbox) : (s.setMb k v).etc = s.etc := rfl
@[simp] theorem State.setMb_timer (s : State) (k : Nat) (v : Mailbox) : (s.setMb k v).timer = s.timer := rfl
@[simp] theorem State.setMb_dev (s : State) (k : Nat) (v : Mailbox) : (s.setMb k v).dev = s.dev := rfl
@[simp] theorem State.setMb_fault (s : State) (k : Nat) (v : Mailbox) : (s.setMb k v).fault = s.fault := rfl
@[simp] theorem State.setMb_start (s : State) (k : Nat) (v : Mailbox) : (s.setMb k v).start = s.start := rfl
@[simp] theorem State.setMb_nv (s : State) (k : Nat) (v : Mailbox) : (s.setMb k v).nv = s.nv := rfl
@[simp] theorem State.setMb_sec (s : State) (k : Nat) (v : Mailbox) : (s.setMb k v).sec = s.sec := rfl
@[simp] theorem State.setMb_log (s : State) (k : Nat) (v : Mailbox) : (s.setMb k v).log = s.log := rfl
@[simp] theorem State.setMb_crash (s : State) (k : Nat) (v : Mailbox) : (s.setMb k v).crash = s.crash := rfl
@[simp] theorem State.setMb_regs (s : State) (k : Nat) (v : Mailbox) : (s.setMb k v).regs = s.regs := rfl
@[simp] theorem State.setMb_staged5 (s : State) (k : Nat) (v : Mailbox) : (s.setMb k v).staged5 = s.staged5 := rfl
@[simp] theorem State.setMb_staged3 (s : State) (k : Nat) (v : Mailbox) : (s.setMb k v).staged3 = s.staged3 := rfl
@[simp] theorem State.setMb_seeded (s : State) (k : Nat) (v : Mailbox) : (s.setMb k v).seeded = s.seeded := rfl
@[simp] theorem State.setMb_holding (s : State) (k : Nat) (v : Mailbox) : (s.setMb k v).holding = s.holding := rfl
@[simp] theorem State.setMb_guards (s : State) (k : Nat) (v : Mailbox) : (s.setMb k v).guards = s.guards := rfl
@[simp] theorem State.setMb_mem (s : State) (k : Nat) (v : Mailbox) : (s.setMb k v).mem = s.mem := rfl
@[simp] theorem State.setMb_poison (s : State) (k : Nat) (v : Mailbox) : (s.setMb k v).poison = s.poison := rfl
@[simp] theorem State.setMb_sculls (s : State) (k : Nat) (v : Mailbox) : (s.setMb k v).sculls = s.sculls := rfl
@[simp] theorem State.setMb_crews (s : State) (k : Nat) (v : Mailbox) : (s.setMb k v).crews = s.crews := rfl
@[simp] theorem State.setMb_ergs (s : State) (k : Nat) (v : Mailbox) : (s.setMb k v).ergs = s.ergs := rfl
@[simp] theorem State.setMb_ctrs (s : State) (k : Nat) (v : Mailbox) : (s.setMb k v).ctrs = s.ctrs := rfl
@[simp] theorem State.setMb_tasks (s : State) (k : Nat) (v : Mailbox) : (s.setMb k v).tasks = s.tasks := rfl
@[simp] theorem State.setMb_rings (s : State) (k : Nat) (v : Mailbox) : (s.setMb k v).rings = s.rings := rfl
@[simp] theorem State.setMb_lastRing (s : State) (k : Nat) (v : Mailbox) : (s.setMb k v).lastRing = s.lastRing := rfl
@[simp] theorem State.setMb_stateMb (s : State) (k : Nat) (v : Mailbox) : (s.setMb k v).stateMb = s.stateMb := rfl
@[simp] theorem State.setMb_mbQueue (s : State) (k : Nat) (v : Mailbox) : (s.setMb k v).mbQueue = s.mbQueue := rfl
@[simp] theorem State.setMb_dunes (s : State) (k : Nat) (v : Mailbox) : (s.setMb k v).dunes = s.dunes := rfl
@[simp] theorem State.setMb_tier (s : State) (k : Nat) (v : Mailbox) : (s.setMb k v).tier = s.tier := rfl
@[simp] theorem State.setMb_kv (s : State) (k : Nat) (v : Mailbox) : (s.setMb k v).kv = s.kv := rfl
@[simp] theorem State.setMb_lowp (s : State) (k : Nat) (v : Mailbox) : (s.setMb k v).lowp = s.lowp := rfl
@[simp] theorem State.setMb_wakes (s : State) (k : Nat) (v : Mailbox) : (s.setMb k v).wakes = s.wakes := rfl
@[simp] theorem State.setMb_ports (s : State) (k : Nat) (v : Mailbox) : (s.setMb k v).ports = s.ports := rfl
@[simp] theorem State.setMb_rigger (s : State) (k : Nat) (v : Mailbox) : (s.setMb k v).rigger = s.rigger := rfl
@[simp] theorem State.setMb_colls (s : State) (k : Nat) (v : Mailbox) : (s.setMb k v).colls = s.colls := rfl
@[simp] theorem State.setMb_peers (s : State) (k : Nat) (v : Mailbox) : (s.setMb k v).peers = s.peers := rfl
@[simp] theorem State.setMb_sched (s : State) (k : Nat) (v : Mailbox) : (s.setMb k v).sched = s.sched := rfl
@[simp] theorem State.setMb_host (s : State) (k : Nat) (v : Mailbox) : (s.setMb k v).host = s.host := rfl
@[simp] theorem State.setMb_islands (s : State) (k : Nat) (v : Mailbox) : (s.setMb k v).islands = s.islands := rfl
@[simp] theorem State.setMb_flashGone (s : State) (k : Nat) (v : Mailbox) : (s.setMb k v).flashGone = s.flashGone := rfl
@[simp] theorem State.setMb_pwr (s : State) (k : Nat) (v : Mailbox) : (s.setMb k v).pwr = s.pwr := rfl
@[simp] theorem State.setMb_cairn (s : State) (k : Nat) (v : Mailbox) : (s.setMb k v).cairn = s.cairn := rfl

@[simp] theorem State.setDune_pending (s : State) (k : Nat) (v : Stack) : (s.setDune k v).pending = s.pending := rfl
@[simp] theorem State.setDune_fresh (s : State) (k : Nat) (v : Stack) : (s.setDune k v).fresh = s.fresh := rfl
@[simp] theorem State.setDune_tx (s : State) (k : Nat) (v : Stack) : (s.setDune k v).tx = s.tx := rfl
@[simp] theorem State.setDune_power (s : State) (k : Nat) (v : Stack) : (s.setDune k v).power = s.power := rfl
@[simp] theorem State.setDune_pwrGood (s : State) (k : Nat) (v : Stack) : (s.setDune k v).pwrGood = s.pwrGood := rfl
@[simp] theorem State.setDune_etc (s : State) (k : Nat) (v : Stack) : (s.setDune k v).etc = s.etc := rfl
@[simp] theorem State.setDune_timer (s : State) (k : Nat) (v : Stack) : (s.setDune k v).timer = s.timer := rfl
@[simp] theorem State.setDune_dev (s : State) (k : Nat) (v : Stack) : (s.setDune k v).dev = s.dev := rfl
@[simp] theorem State.setDune_fault (s : State) (k : Nat) (v : Stack) : (s.setDune k v).fault = s.fault := rfl
@[simp] theorem State.setDune_start (s : State) (k : Nat) (v : Stack) : (s.setDune k v).start = s.start := rfl
@[simp] theorem State.setDune_nv (s : State) (k : Nat) (v : Stack) : (s.setDune k v).nv = s.nv := rfl
@[simp] theorem State.setDune_sec (s : State) (k : Nat) (v : Stack) : (s.setDune k v).sec = s.sec := rfl
@[simp] theorem State.setDune_log (s : State) (k : Nat) (v : Stack) : (s.setDune k v).log = s.log := rfl
@[simp] theorem State.setDune_crash (s : State) (k : Nat) (v : Stack) : (s.setDune k v).crash = s.crash := rfl
@[simp] theorem State.setDune_regs (s : State) (k : Nat) (v : Stack) : (s.setDune k v).regs = s.regs := rfl
@[simp] theorem State.setDune_staged5 (s : State) (k : Nat) (v : Stack) : (s.setDune k v).staged5 = s.staged5 := rfl
@[simp] theorem State.setDune_staged3 (s : State) (k : Nat) (v : Stack) : (s.setDune k v).staged3 = s.staged3 := rfl
@[simp] theorem State.setDune_seeded (s : State) (k : Nat) (v : Stack) : (s.setDune k v).seeded = s.seeded := rfl
@[simp] theorem State.setDune_holding (s : State) (k : Nat) (v : Stack) : (s.setDune k v).holding = s.holding := rfl
@[simp] theorem State.setDune_guards (s : State) (k : Nat) (v : Stack) : (s.setDune k v).guards = s.guards := rfl
@[simp] theorem State.setDune_mem (s : State) (k : Nat) (v : Stack) : (s.setDune k v).mem = s.mem := rfl
@[simp] theorem State.setDune_poison (s : State) (k : Nat) (v : Stack) : (s.setDune k v).poison = s.poison := rfl
@[simp] theorem State.setDune_sculls (s : State) (k : Nat) (v : Stack) : (s.setDune k v).sculls = s.sculls := rfl
@[simp] theorem State.setDune_crews (s : State) (k : Nat) (v : Stack) : (s.setDune k v).crews = s.crews := rfl
@[simp] theorem State.setDune_ergs (s : State) (k : Nat) (v : Stack) : (s.setDune k v).ergs = s.ergs := rfl
@[simp] theorem State.setDune_ctrs (s : State) (k : Nat) (v : Stack) : (s.setDune k v).ctrs = s.ctrs := rfl
@[simp] theorem State.setDune_tasks (s : State) (k : Nat) (v : Stack) : (s.setDune k v).tasks = s.tasks := rfl
@[simp] theorem State.setDune_rings (s : State) (k : Nat) (v : Stack) : (s.setDune k v).rings = s.rings := rfl
@[simp] theorem State.setDune_lastRing (s : State) (k : Nat) (v : Stack) : (s.setDune k v).lastRing = s.lastRing := rfl
@[simp] theorem State.setDune_mbs (s : State) (k : Nat) (v : Stack) : (s.setDune k v).mbs = s.mbs := rfl
@[simp] theorem State.setDune_stateMb (s : State) (k : Nat) (v : Stack) : (s.setDune k v).stateMb = s.stateMb := rfl
@[simp] theorem State.setDune_mbQueue (s : State) (k : Nat) (v : Stack) : (s.setDune k v).mbQueue = s.mbQueue := rfl
@[simp] theorem State.setDune_tier (s : State) (k : Nat) (v : Stack) : (s.setDune k v).tier = s.tier := rfl
@[simp] theorem State.setDune_kv (s : State) (k : Nat) (v : Stack) : (s.setDune k v).kv = s.kv := rfl
@[simp] theorem State.setDune_lowp (s : State) (k : Nat) (v : Stack) : (s.setDune k v).lowp = s.lowp := rfl
@[simp] theorem State.setDune_wakes (s : State) (k : Nat) (v : Stack) : (s.setDune k v).wakes = s.wakes := rfl
@[simp] theorem State.setDune_ports (s : State) (k : Nat) (v : Stack) : (s.setDune k v).ports = s.ports := rfl
@[simp] theorem State.setDune_rigger (s : State) (k : Nat) (v : Stack) : (s.setDune k v).rigger = s.rigger := rfl
@[simp] theorem State.setDune_colls (s : State) (k : Nat) (v : Stack) : (s.setDune k v).colls = s.colls := rfl
@[simp] theorem State.setDune_peers (s : State) (k : Nat) (v : Stack) : (s.setDune k v).peers = s.peers := rfl
@[simp] theorem State.setDune_sched (s : State) (k : Nat) (v : Stack) : (s.setDune k v).sched = s.sched := rfl
@[simp] theorem State.setDune_host (s : State) (k : Nat) (v : Stack) : (s.setDune k v).host = s.host := rfl
@[simp] theorem State.setDune_islands (s : State) (k : Nat) (v : Stack) : (s.setDune k v).islands = s.islands := rfl
@[simp] theorem State.setDune_flashGone (s : State) (k : Nat) (v : Stack) : (s.setDune k v).flashGone = s.flashGone := rfl
@[simp] theorem State.setDune_pwr (s : State) (k : Nat) (v : Stack) : (s.setDune k v).pwr = s.pwr := rfl
@[simp] theorem State.setDune_cairn (s : State) (k : Nat) (v : Stack) : (s.setDune k v).cairn = s.cairn := rfl

@[simp] theorem State.setWake_pending (s : State) (k : Nat) (v : Wake) : (s.setWake k v).pending = s.pending := rfl
@[simp] theorem State.setWake_fresh (s : State) (k : Nat) (v : Wake) : (s.setWake k v).fresh = s.fresh := rfl
@[simp] theorem State.setWake_tx (s : State) (k : Nat) (v : Wake) : (s.setWake k v).tx = s.tx := rfl
@[simp] theorem State.setWake_power (s : State) (k : Nat) (v : Wake) : (s.setWake k v).power = s.power := rfl
@[simp] theorem State.setWake_pwrGood (s : State) (k : Nat) (v : Wake) : (s.setWake k v).pwrGood = s.pwrGood := rfl
@[simp] theorem State.setWake_etc (s : State) (k : Nat) (v : Wake) : (s.setWake k v).etc = s.etc := rfl
@[simp] theorem State.setWake_timer (s : State) (k : Nat) (v : Wake) : (s.setWake k v).timer = s.timer := rfl
@[simp] theorem State.setWake_dev (s : State) (k : Nat) (v : Wake) : (s.setWake k v).dev = s.dev := rfl
@[simp] theorem State.setWake_fault (s : State) (k : Nat) (v : Wake) : (s.setWake k v).fault = s.fault := rfl
@[simp] theorem State.setWake_start (s : State) (k : Nat) (v : Wake) : (s.setWake k v).start = s.start := rfl
@[simp] theorem State.setWake_nv (s : State) (k : Nat) (v : Wake) : (s.setWake k v).nv = s.nv := rfl
@[simp] theorem State.setWake_sec (s : State) (k : Nat) (v : Wake) : (s.setWake k v).sec = s.sec := rfl
@[simp] theorem State.setWake_log (s : State) (k : Nat) (v : Wake) : (s.setWake k v).log = s.log := rfl
@[simp] theorem State.setWake_crash (s : State) (k : Nat) (v : Wake) : (s.setWake k v).crash = s.crash := rfl
@[simp] theorem State.setWake_regs (s : State) (k : Nat) (v : Wake) : (s.setWake k v).regs = s.regs := rfl
@[simp] theorem State.setWake_staged5 (s : State) (k : Nat) (v : Wake) : (s.setWake k v).staged5 = s.staged5 := rfl
@[simp] theorem State.setWake_staged3 (s : State) (k : Nat) (v : Wake) : (s.setWake k v).staged3 = s.staged3 := rfl
@[simp] theorem State.setWake_seeded (s : State) (k : Nat) (v : Wake) : (s.setWake k v).seeded = s.seeded := rfl
@[simp] theorem State.setWake_holding (s : State) (k : Nat) (v : Wake) : (s.setWake k v).holding = s.holding := rfl
@[simp] theorem State.setWake_guards (s : State) (k : Nat) (v : Wake) : (s.setWake k v).guards = s.guards := rfl
@[simp] theorem State.setWake_mem (s : State) (k : Nat) (v : Wake) : (s.setWake k v).mem = s.mem := rfl
@[simp] theorem State.setWake_poison (s : State) (k : Nat) (v : Wake) : (s.setWake k v).poison = s.poison := rfl
@[simp] theorem State.setWake_sculls (s : State) (k : Nat) (v : Wake) : (s.setWake k v).sculls = s.sculls := rfl
@[simp] theorem State.setWake_crews (s : State) (k : Nat) (v : Wake) : (s.setWake k v).crews = s.crews := rfl
@[simp] theorem State.setWake_ergs (s : State) (k : Nat) (v : Wake) : (s.setWake k v).ergs = s.ergs := rfl
@[simp] theorem State.setWake_ctrs (s : State) (k : Nat) (v : Wake) : (s.setWake k v).ctrs = s.ctrs := rfl
@[simp] theorem State.setWake_tasks (s : State) (k : Nat) (v : Wake) : (s.setWake k v).tasks = s.tasks := rfl
@[simp] theorem State.setWake_rings (s : State) (k : Nat) (v : Wake) : (s.setWake k v).rings = s.rings := rfl
@[simp] theorem State.setWake_lastRing (s : State) (k : Nat) (v : Wake) : (s.setWake k v).lastRing = s.lastRing := rfl
@[simp] theorem State.setWake_mbs (s : State) (k : Nat) (v : Wake) : (s.setWake k v).mbs = s.mbs := rfl
@[simp] theorem State.setWake_stateMb (s : State) (k : Nat) (v : Wake) : (s.setWake k v).stateMb = s.stateMb := rfl
@[simp] theorem State.setWake_mbQueue (s : State) (k : Nat) (v : Wake) : (s.setWake k v).mbQueue = s.mbQueue := rfl
@[simp] theorem State.setWake_dunes (s : State) (k : Nat) (v : Wake) : (s.setWake k v).dunes = s.dunes := rfl
@[simp] theorem State.setWake_tier (s : State) (k : Nat) (v : Wake) : (s.setWake k v).tier = s.tier := rfl
@[simp] theorem State.setWake_kv (s : State) (k : Nat) (v : Wake) : (s.setWake k v).kv = s.kv := rfl
@[simp] theorem State.setWake_lowp (s : State) (k : Nat) (v : Wake) : (s.setWake k v).lowp = s.lowp := rfl
@[simp] theorem State.setWake_ports (s : State) (k : Nat) (v : Wake) : (s.setWake k v).ports = s.ports := rfl
@[simp] theorem State.setWake_rigger (s : State) (k : Nat) (v : Wake) : (s.setWake k v).rigger = s.rigger := rfl
@[simp] theorem State.setWake_colls (s : State) (k : Nat) (v : Wake) : (s.setWake k v).colls = s.colls := rfl
@[simp] theorem State.setWake_peers (s : State) (k : Nat) (v : Wake) : (s.setWake k v).peers = s.peers := rfl
@[simp] theorem State.setWake_sched (s : State) (k : Nat) (v : Wake) : (s.setWake k v).sched = s.sched := rfl
@[simp] theorem State.setWake_host (s : State) (k : Nat) (v : Wake) : (s.setWake k v).host = s.host := rfl
@[simp] theorem State.setWake_islands (s : State) (k : Nat) (v : Wake) : (s.setWake k v).islands = s.islands := rfl
@[simp] theorem State.setWake_flashGone (s : State) (k : Nat) (v : Wake) : (s.setWake k v).flashGone = s.flashGone := rfl
@[simp] theorem State.setWake_pwr (s : State) (k : Nat) (v : Wake) : (s.setWake k v).pwr = s.pwr := rfl
@[simp] theorem State.setWake_cairn (s : State) (k : Nat) (v : Wake) : (s.setWake k v).cairn = s.cairn := rfl

@[simp] theorem State.setPort_pending (s : State) (k : Nat) (v : Port) : (s.setPort k v).pending = s.pending := rfl
@[simp] theorem State.setPort_fresh (s : State) (k : Nat) (v : Port) : (s.setPort k v).fresh = s.fresh := rfl
@[simp] theorem State.setPort_tx (s : State) (k : Nat) (v : Port) : (s.setPort k v).tx = s.tx := rfl
@[simp] theorem State.setPort_power (s : State) (k : Nat) (v : Port) : (s.setPort k v).power = s.power := rfl
@[simp] theorem State.setPort_pwrGood (s : State) (k : Nat) (v : Port) : (s.setPort k v).pwrGood = s.pwrGood := rfl
@[simp] theorem State.setPort_etc (s : State) (k : Nat) (v : Port) : (s.setPort k v).etc = s.etc := rfl
@[simp] theorem State.setPort_timer (s : State) (k : Nat) (v : Port) : (s.setPort k v).timer = s.timer := rfl
@[simp] theorem State.setPort_dev (s : State) (k : Nat) (v : Port) : (s.setPort k v).dev = s.dev := rfl
@[simp] theorem State.setPort_fault (s : State) (k : Nat) (v : Port) : (s.setPort k v).fault = s.fault := rfl
@[simp] theorem State.setPort_start (s : State) (k : Nat) (v : Port) : (s.setPort k v).start = s.start := rfl
@[simp] theorem State.setPort_nv (s : State) (k : Nat) (v : Port) : (s.setPort k v).nv = s.nv := rfl
@[simp] theorem State.setPort_sec (s : State) (k : Nat) (v : Port) : (s.setPort k v).sec = s.sec := rfl
@[simp] theorem State.setPort_log (s : State) (k : Nat) (v : Port) : (s.setPort k v).log = s.log := rfl
@[simp] theorem State.setPort_crash (s : State) (k : Nat) (v : Port) : (s.setPort k v).crash = s.crash := rfl
@[simp] theorem State.setPort_regs (s : State) (k : Nat) (v : Port) : (s.setPort k v).regs = s.regs := rfl
@[simp] theorem State.setPort_staged5 (s : State) (k : Nat) (v : Port) : (s.setPort k v).staged5 = s.staged5 := rfl
@[simp] theorem State.setPort_staged3 (s : State) (k : Nat) (v : Port) : (s.setPort k v).staged3 = s.staged3 := rfl
@[simp] theorem State.setPort_seeded (s : State) (k : Nat) (v : Port) : (s.setPort k v).seeded = s.seeded := rfl
@[simp] theorem State.setPort_holding (s : State) (k : Nat) (v : Port) : (s.setPort k v).holding = s.holding := rfl
@[simp] theorem State.setPort_guards (s : State) (k : Nat) (v : Port) : (s.setPort k v).guards = s.guards := rfl
@[simp] theorem State.setPort_mem (s : State) (k : Nat) (v : Port) : (s.setPort k v).mem = s.mem := rfl
@[simp] theorem State.setPort_poison (s : State) (k : Nat) (v : Port) : (s.setPort k v).poison = s.poison := rfl
@[simp] theorem State.setPort_sculls (s : State) (k : Nat) (v : Port) : (s.setPort k v).sculls = s.sculls := rfl
@[simp] theorem State.setPort_crews (s : State) (k : Nat) (v : Port) : (s.setPort k v).crews = s.crews := rfl
@[simp] theorem State.setPort_ergs (s : State) (k : Nat) (v : Port) : (s.setPort k v).ergs = s.ergs := rfl
@[simp] theorem State.setPort_ctrs (s : State) (k : Nat) (v : Port) : (s.setPort k v).ctrs = s.ctrs := rfl
@[simp] theorem State.setPort_tasks (s : State) (k : Nat) (v : Port) : (s.setPort k v).tasks = s.tasks := rfl
@[simp] theorem State.setPort_rings (s : State) (k : Nat) (v : Port) : (s.setPort k v).rings = s.rings := rfl
@[simp] theorem State.setPort_lastRing (s : State) (k : Nat) (v : Port) : (s.setPort k v).lastRing = s.lastRing := rfl
@[simp] theorem State.setPort_mbs (s : State) (k : Nat) (v : Port) : (s.setPort k v).mbs = s.mbs := rfl
@[simp] theorem State.setPort_stateMb (s : State) (k : Nat) (v : Port) : (s.setPort k v).stateMb = s.stateMb := rfl
@[simp] theorem State.setPort_mbQueue (s : State) (k : Nat) (v : Port) : (s.setPort k v).mbQueue = s.mbQueue := rfl
@[simp] theorem State.setPort_dunes (s : State) (k : Nat) (v : Port) : (s.setPort k v).dunes = s.dunes := rfl
@[simp] theorem State.setPort_tier (s : State) (k : Nat) (v : Port) : (s.setPort k v).tier = s.tier := rfl
@[simp] theorem State.setPort_kv (s : State) (k : Nat) (v : Port) : (s.setPort k v).kv = s.kv := rfl
@[simp] theorem State.setPort_lowp (s : State) (k : Nat) (v : Port) : (s.setPort k v).lowp = s.lowp := rfl
@[simp] theorem State.setPort_wakes (s : State) (k : Nat) (v : Port) : (s.setPort k v).wakes = s.wakes := rfl
@[simp] theorem State.setPort_rigger (s : State) (k : Nat) (v : Port) : (s.setPort k v).rigger = s.rigger := rfl
@[simp] theorem State.setPort_colls (s : State) (k : Nat) (v : Port) : (s.setPort k v).colls = s.colls := rfl
@[simp] theorem State.setPort_peers (s : State) (k : Nat) (v : Port) : (s.setPort k v).peers = s.peers := rfl
@[simp] theorem State.setPort_sched (s : State) (k : Nat) (v : Port) : (s.setPort k v).sched = s.sched := rfl
@[simp] theorem State.setPort_host (s : State) (k : Nat) (v : Port) : (s.setPort k v).host = s.host := rfl
@[simp] theorem State.setPort_islands (s : State) (k : Nat) (v : Port) : (s.setPort k v).islands = s.islands := rfl
@[simp] theorem State.setPort_flashGone (s : State) (k : Nat) (v : Port) : (s.setPort k v).flashGone = s.flashGone := rfl
@[simp] theorem State.setPort_pwr (s : State) (k : Nat) (v : Port) : (s.setPort k v).pwr = s.pwr := rfl
@[simp] theorem State.setPort_cairn (s : State) (k : Nat) (v : Port) : (s.setPort k v).cairn = s.cairn := rfl

@[simp] theorem State.setCtr_pending (s : State) (k : Nat) (v : Word) : (s.setCtr k v).pending = s.pending := rfl
@[simp] theorem State.setCtr_fresh (s : State) (k : Nat) (v : Word) : (s.setCtr k v).fresh = s.fresh := rfl
@[simp] theorem State.setCtr_tx (s : State) (k : Nat) (v : Word) : (s.setCtr k v).tx = s.tx := rfl
@[simp] theorem State.setCtr_power (s : State) (k : Nat) (v : Word) : (s.setCtr k v).power = s.power := rfl
@[simp] theorem State.setCtr_pwrGood (s : State) (k : Nat) (v : Word) : (s.setCtr k v).pwrGood = s.pwrGood := rfl
@[simp] theorem State.setCtr_etc (s : State) (k : Nat) (v : Word) : (s.setCtr k v).etc = s.etc := rfl
@[simp] theorem State.setCtr_timer (s : State) (k : Nat) (v : Word) : (s.setCtr k v).timer = s.timer := rfl
@[simp] theorem State.setCtr_dev (s : State) (k : Nat) (v : Word) : (s.setCtr k v).dev = s.dev := rfl
@[simp] theorem State.setCtr_fault (s : State) (k : Nat) (v : Word) : (s.setCtr k v).fault = s.fault := rfl
@[simp] theorem State.setCtr_start (s : State) (k : Nat) (v : Word) : (s.setCtr k v).start = s.start := rfl
@[simp] theorem State.setCtr_nv (s : State) (k : Nat) (v : Word) : (s.setCtr k v).nv = s.nv := rfl
@[simp] theorem State.setCtr_sec (s : State) (k : Nat) (v : Word) : (s.setCtr k v).sec = s.sec := rfl
@[simp] theorem State.setCtr_log (s : State) (k : Nat) (v : Word) : (s.setCtr k v).log = s.log := rfl
@[simp] theorem State.setCtr_crash (s : State) (k : Nat) (v : Word) : (s.setCtr k v).crash = s.crash := rfl
@[simp] theorem State.setCtr_regs (s : State) (k : Nat) (v : Word) : (s.setCtr k v).regs = s.regs := rfl
@[simp] theorem State.setCtr_staged5 (s : State) (k : Nat) (v : Word) : (s.setCtr k v).staged5 = s.staged5 := rfl
@[simp] theorem State.setCtr_staged3 (s : State) (k : Nat) (v : Word) : (s.setCtr k v).staged3 = s.staged3 := rfl
@[simp] theorem State.setCtr_seeded (s : State) (k : Nat) (v : Word) : (s.setCtr k v).seeded = s.seeded := rfl
@[simp] theorem State.setCtr_holding (s : State) (k : Nat) (v : Word) : (s.setCtr k v).holding = s.holding := rfl
@[simp] theorem State.setCtr_guards (s : State) (k : Nat) (v : Word) : (s.setCtr k v).guards = s.guards := rfl
@[simp] theorem State.setCtr_mem (s : State) (k : Nat) (v : Word) : (s.setCtr k v).mem = s.mem := rfl
@[simp] theorem State.setCtr_poison (s : State) (k : Nat) (v : Word) : (s.setCtr k v).poison = s.poison := rfl
@[simp] theorem State.setCtr_sculls (s : State) (k : Nat) (v : Word) : (s.setCtr k v).sculls = s.sculls := rfl
@[simp] theorem State.setCtr_crews (s : State) (k : Nat) (v : Word) : (s.setCtr k v).crews = s.crews := rfl
@[simp] theorem State.setCtr_ergs (s : State) (k : Nat) (v : Word) : (s.setCtr k v).ergs = s.ergs := rfl
@[simp] theorem State.setCtr_tasks (s : State) (k : Nat) (v : Word) : (s.setCtr k v).tasks = s.tasks := rfl
@[simp] theorem State.setCtr_rings (s : State) (k : Nat) (v : Word) : (s.setCtr k v).rings = s.rings := rfl
@[simp] theorem State.setCtr_lastRing (s : State) (k : Nat) (v : Word) : (s.setCtr k v).lastRing = s.lastRing := rfl
@[simp] theorem State.setCtr_mbs (s : State) (k : Nat) (v : Word) : (s.setCtr k v).mbs = s.mbs := rfl
@[simp] theorem State.setCtr_stateMb (s : State) (k : Nat) (v : Word) : (s.setCtr k v).stateMb = s.stateMb := rfl
@[simp] theorem State.setCtr_mbQueue (s : State) (k : Nat) (v : Word) : (s.setCtr k v).mbQueue = s.mbQueue := rfl
@[simp] theorem State.setCtr_dunes (s : State) (k : Nat) (v : Word) : (s.setCtr k v).dunes = s.dunes := rfl
@[simp] theorem State.setCtr_tier (s : State) (k : Nat) (v : Word) : (s.setCtr k v).tier = s.tier := rfl
@[simp] theorem State.setCtr_kv (s : State) (k : Nat) (v : Word) : (s.setCtr k v).kv = s.kv := rfl
@[simp] theorem State.setCtr_lowp (s : State) (k : Nat) (v : Word) : (s.setCtr k v).lowp = s.lowp := rfl
@[simp] theorem State.setCtr_wakes (s : State) (k : Nat) (v : Word) : (s.setCtr k v).wakes = s.wakes := rfl
@[simp] theorem State.setCtr_ports (s : State) (k : Nat) (v : Word) : (s.setCtr k v).ports = s.ports := rfl
@[simp] theorem State.setCtr_rigger (s : State) (k : Nat) (v : Word) : (s.setCtr k v).rigger = s.rigger := rfl
@[simp] theorem State.setCtr_colls (s : State) (k : Nat) (v : Word) : (s.setCtr k v).colls = s.colls := rfl
@[simp] theorem State.setCtr_peers (s : State) (k : Nat) (v : Word) : (s.setCtr k v).peers = s.peers := rfl
@[simp] theorem State.setCtr_sched (s : State) (k : Nat) (v : Word) : (s.setCtr k v).sched = s.sched := rfl
@[simp] theorem State.setCtr_host (s : State) (k : Nat) (v : Word) : (s.setCtr k v).host = s.host := rfl
@[simp] theorem State.setCtr_islands (s : State) (k : Nat) (v : Word) : (s.setCtr k v).islands = s.islands := rfl
@[simp] theorem State.setCtr_flashGone (s : State) (k : Nat) (v : Word) : (s.setCtr k v).flashGone = s.flashGone := rfl
@[simp] theorem State.setCtr_pwr (s : State) (k : Nat) (v : Word) : (s.setCtr k v).pwr = s.pwr := rfl
@[simp] theorem State.setCtr_cairn (s : State) (k : Nat) (v : Word) : (s.setCtr k v).cairn = s.cairn := rfl

@[simp] theorem State.setTensor_pending (s : State) (k : Nat) (v : Tensor) : (s.setTensor k v).pending = s.pending := rfl
@[simp] theorem State.setTensor_fresh (s : State) (k : Nat) (v : Tensor) : (s.setTensor k v).fresh = s.fresh := rfl
@[simp] theorem State.setTensor_tx (s : State) (k : Nat) (v : Tensor) : (s.setTensor k v).tx = s.tx := rfl
@[simp] theorem State.setTensor_power (s : State) (k : Nat) (v : Tensor) : (s.setTensor k v).power = s.power := rfl
@[simp] theorem State.setTensor_pwrGood (s : State) (k : Nat) (v : Tensor) : (s.setTensor k v).pwrGood = s.pwrGood := rfl
@[simp] theorem State.setTensor_etc (s : State) (k : Nat) (v : Tensor) : (s.setTensor k v).etc = s.etc := rfl
@[simp] theorem State.setTensor_timer (s : State) (k : Nat) (v : Tensor) : (s.setTensor k v).timer = s.timer := rfl
@[simp] theorem State.setTensor_dev (s : State) (k : Nat) (v : Tensor) : (s.setTensor k v).dev = s.dev := rfl
@[simp] theorem State.setTensor_fault (s : State) (k : Nat) (v : Tensor) : (s.setTensor k v).fault = s.fault := rfl
@[simp] theorem State.setTensor_start (s : State) (k : Nat) (v : Tensor) : (s.setTensor k v).start = s.start := rfl
@[simp] theorem State.setTensor_nv (s : State) (k : Nat) (v : Tensor) : (s.setTensor k v).nv = s.nv := rfl
@[simp] theorem State.setTensor_sec (s : State) (k : Nat) (v : Tensor) : (s.setTensor k v).sec = s.sec := rfl
@[simp] theorem State.setTensor_log (s : State) (k : Nat) (v : Tensor) : (s.setTensor k v).log = s.log := rfl
@[simp] theorem State.setTensor_crash (s : State) (k : Nat) (v : Tensor) : (s.setTensor k v).crash = s.crash := rfl
@[simp] theorem State.setTensor_regs (s : State) (k : Nat) (v : Tensor) : (s.setTensor k v).regs = s.regs := rfl
@[simp] theorem State.setTensor_staged5 (s : State) (k : Nat) (v : Tensor) : (s.setTensor k v).staged5 = s.staged5 := rfl
@[simp] theorem State.setTensor_staged3 (s : State) (k : Nat) (v : Tensor) : (s.setTensor k v).staged3 = s.staged3 := rfl
@[simp] theorem State.setTensor_seeded (s : State) (k : Nat) (v : Tensor) : (s.setTensor k v).seeded = s.seeded := rfl
@[simp] theorem State.setTensor_holding (s : State) (k : Nat) (v : Tensor) : (s.setTensor k v).holding = s.holding := rfl
@[simp] theorem State.setTensor_guards (s : State) (k : Nat) (v : Tensor) : (s.setTensor k v).guards = s.guards := rfl
@[simp] theorem State.setTensor_mem (s : State) (k : Nat) (v : Tensor) : (s.setTensor k v).mem = s.mem := rfl
@[simp] theorem State.setTensor_poison (s : State) (k : Nat) (v : Tensor) : (s.setTensor k v).poison = s.poison := rfl
@[simp] theorem State.setTensor_sculls (s : State) (k : Nat) (v : Tensor) : (s.setTensor k v).sculls = s.sculls := rfl
@[simp] theorem State.setTensor_crews (s : State) (k : Nat) (v : Tensor) : (s.setTensor k v).crews = s.crews := rfl
@[simp] theorem State.setTensor_ergs (s : State) (k : Nat) (v : Tensor) : (s.setTensor k v).ergs = s.ergs := rfl
@[simp] theorem State.setTensor_ctrs (s : State) (k : Nat) (v : Tensor) : (s.setTensor k v).ctrs = s.ctrs := rfl
@[simp] theorem State.setTensor_tasks (s : State) (k : Nat) (v : Tensor) : (s.setTensor k v).tasks = s.tasks := rfl
@[simp] theorem State.setTensor_rings (s : State) (k : Nat) (v : Tensor) : (s.setTensor k v).rings = s.rings := rfl
@[simp] theorem State.setTensor_lastRing (s : State) (k : Nat) (v : Tensor) : (s.setTensor k v).lastRing = s.lastRing := rfl
@[simp] theorem State.setTensor_mbs (s : State) (k : Nat) (v : Tensor) : (s.setTensor k v).mbs = s.mbs := rfl
@[simp] theorem State.setTensor_stateMb (s : State) (k : Nat) (v : Tensor) : (s.setTensor k v).stateMb = s.stateMb := rfl
@[simp] theorem State.setTensor_mbQueue (s : State) (k : Nat) (v : Tensor) : (s.setTensor k v).mbQueue = s.mbQueue := rfl
@[simp] theorem State.setTensor_dunes (s : State) (k : Nat) (v : Tensor) : (s.setTensor k v).dunes = s.dunes := rfl
@[simp] theorem State.setTensor_kv (s : State) (k : Nat) (v : Tensor) : (s.setTensor k v).kv = s.kv := rfl
@[simp] theorem State.setTensor_lowp (s : State) (k : Nat) (v : Tensor) : (s.setTensor k v).lowp = s.lowp := rfl
@[simp] theorem State.setTensor_wakes (s : State) (k : Nat) (v : Tensor) : (s.setTensor k v).wakes = s.wakes := rfl
@[simp] theorem State.setTensor_ports (s : State) (k : Nat) (v : Tensor) : (s.setTensor k v).ports = s.ports := rfl
@[simp] theorem State.setTensor_rigger (s : State) (k : Nat) (v : Tensor) : (s.setTensor k v).rigger = s.rigger := rfl
@[simp] theorem State.setTensor_colls (s : State) (k : Nat) (v : Tensor) : (s.setTensor k v).colls = s.colls := rfl
@[simp] theorem State.setTensor_peers (s : State) (k : Nat) (v : Tensor) : (s.setTensor k v).peers = s.peers := rfl
@[simp] theorem State.setTensor_sched (s : State) (k : Nat) (v : Tensor) : (s.setTensor k v).sched = s.sched := rfl
@[simp] theorem State.setTensor_host (s : State) (k : Nat) (v : Tensor) : (s.setTensor k v).host = s.host := rfl
@[simp] theorem State.setTensor_islands (s : State) (k : Nat) (v : Tensor) : (s.setTensor k v).islands = s.islands := rfl
@[simp] theorem State.setTensor_flashGone (s : State) (k : Nat) (v : Tensor) : (s.setTensor k v).flashGone = s.flashGone := rfl
@[simp] theorem State.setTensor_pwr (s : State) (k : Nat) (v : Tensor) : (s.setTensor k v).pwr = s.pwr := rfl
@[simp] theorem State.setTensor_cairn (s : State) (k : Nat) (v : Tensor) : (s.setTensor k v).cairn = s.cairn := rfl

@[simp] theorem State.setByte_pending (s : State) (k : Nat) (v : Byte) : (s.setByte k v).pending = s.pending := rfl
@[simp] theorem State.setByte_fresh (s : State) (k : Nat) (v : Byte) : (s.setByte k v).fresh = s.fresh := rfl
@[simp] theorem State.setByte_tx (s : State) (k : Nat) (v : Byte) : (s.setByte k v).tx = s.tx := rfl
@[simp] theorem State.setByte_power (s : State) (k : Nat) (v : Byte) : (s.setByte k v).power = s.power := rfl
@[simp] theorem State.setByte_pwrGood (s : State) (k : Nat) (v : Byte) : (s.setByte k v).pwrGood = s.pwrGood := rfl
@[simp] theorem State.setByte_etc (s : State) (k : Nat) (v : Byte) : (s.setByte k v).etc = s.etc := rfl
@[simp] theorem State.setByte_timer (s : State) (k : Nat) (v : Byte) : (s.setByte k v).timer = s.timer := rfl
@[simp] theorem State.setByte_dev (s : State) (k : Nat) (v : Byte) : (s.setByte k v).dev = s.dev := rfl
@[simp] theorem State.setByte_fault (s : State) (k : Nat) (v : Byte) : (s.setByte k v).fault = s.fault := rfl
@[simp] theorem State.setByte_start (s : State) (k : Nat) (v : Byte) : (s.setByte k v).start = s.start := rfl
@[simp] theorem State.setByte_nv (s : State) (k : Nat) (v : Byte) : (s.setByte k v).nv = s.nv := rfl
@[simp] theorem State.setByte_sec (s : State) (k : Nat) (v : Byte) : (s.setByte k v).sec = s.sec := rfl
@[simp] theorem State.setByte_log (s : State) (k : Nat) (v : Byte) : (s.setByte k v).log = s.log := rfl
@[simp] theorem State.setByte_crash (s : State) (k : Nat) (v : Byte) : (s.setByte k v).crash = s.crash := rfl
@[simp] theorem State.setByte_regs (s : State) (k : Nat) (v : Byte) : (s.setByte k v).regs = s.regs := rfl
@[simp] theorem State.setByte_staged5 (s : State) (k : Nat) (v : Byte) : (s.setByte k v).staged5 = s.staged5 := rfl
@[simp] theorem State.setByte_staged3 (s : State) (k : Nat) (v : Byte) : (s.setByte k v).staged3 = s.staged3 := rfl
@[simp] theorem State.setByte_seeded (s : State) (k : Nat) (v : Byte) : (s.setByte k v).seeded = s.seeded := rfl
@[simp] theorem State.setByte_holding (s : State) (k : Nat) (v : Byte) : (s.setByte k v).holding = s.holding := rfl
@[simp] theorem State.setByte_guards (s : State) (k : Nat) (v : Byte) : (s.setByte k v).guards = s.guards := rfl
@[simp] theorem State.setByte_poison (s : State) (k : Nat) (v : Byte) : (s.setByte k v).poison = s.poison := rfl
@[simp] theorem State.setByte_sculls (s : State) (k : Nat) (v : Byte) : (s.setByte k v).sculls = s.sculls := rfl
@[simp] theorem State.setByte_crews (s : State) (k : Nat) (v : Byte) : (s.setByte k v).crews = s.crews := rfl
@[simp] theorem State.setByte_ergs (s : State) (k : Nat) (v : Byte) : (s.setByte k v).ergs = s.ergs := rfl
@[simp] theorem State.setByte_ctrs (s : State) (k : Nat) (v : Byte) : (s.setByte k v).ctrs = s.ctrs := rfl
@[simp] theorem State.setByte_tasks (s : State) (k : Nat) (v : Byte) : (s.setByte k v).tasks = s.tasks := rfl
@[simp] theorem State.setByte_rings (s : State) (k : Nat) (v : Byte) : (s.setByte k v).rings = s.rings := rfl
@[simp] theorem State.setByte_lastRing (s : State) (k : Nat) (v : Byte) : (s.setByte k v).lastRing = s.lastRing := rfl
@[simp] theorem State.setByte_mbs (s : State) (k : Nat) (v : Byte) : (s.setByte k v).mbs = s.mbs := rfl
@[simp] theorem State.setByte_stateMb (s : State) (k : Nat) (v : Byte) : (s.setByte k v).stateMb = s.stateMb := rfl
@[simp] theorem State.setByte_mbQueue (s : State) (k : Nat) (v : Byte) : (s.setByte k v).mbQueue = s.mbQueue := rfl
@[simp] theorem State.setByte_dunes (s : State) (k : Nat) (v : Byte) : (s.setByte k v).dunes = s.dunes := rfl
@[simp] theorem State.setByte_tier (s : State) (k : Nat) (v : Byte) : (s.setByte k v).tier = s.tier := rfl
@[simp] theorem State.setByte_kv (s : State) (k : Nat) (v : Byte) : (s.setByte k v).kv = s.kv := rfl
@[simp] theorem State.setByte_lowp (s : State) (k : Nat) (v : Byte) : (s.setByte k v).lowp = s.lowp := rfl
@[simp] theorem State.setByte_wakes (s : State) (k : Nat) (v : Byte) : (s.setByte k v).wakes = s.wakes := rfl
@[simp] theorem State.setByte_ports (s : State) (k : Nat) (v : Byte) : (s.setByte k v).ports = s.ports := rfl
@[simp] theorem State.setByte_rigger (s : State) (k : Nat) (v : Byte) : (s.setByte k v).rigger = s.rigger := rfl
@[simp] theorem State.setByte_colls (s : State) (k : Nat) (v : Byte) : (s.setByte k v).colls = s.colls := rfl
@[simp] theorem State.setByte_peers (s : State) (k : Nat) (v : Byte) : (s.setByte k v).peers = s.peers := rfl
@[simp] theorem State.setByte_sched (s : State) (k : Nat) (v : Byte) : (s.setByte k v).sched = s.sched := rfl
@[simp] theorem State.setByte_host (s : State) (k : Nat) (v : Byte) : (s.setByte k v).host = s.host := rfl
@[simp] theorem State.setByte_islands (s : State) (k : Nat) (v : Byte) : (s.setByte k v).islands = s.islands := rfl
@[simp] theorem State.setByte_flashGone (s : State) (k : Nat) (v : Byte) : (s.setByte k v).flashGone = s.flashGone := rfl
@[simp] theorem State.setByte_pwr (s : State) (k : Nat) (v : Byte) : (s.setByte k v).pwr = s.pwr := rfl
@[simp] theorem State.setByte_cairn (s : State) (k : Nat) (v : Byte) : (s.setByte k v).cairn = s.cairn := rfl

/-- A unit reads as what was just put there. -/
theorem State.scull_setScull (s : State) (k : Nat) (v : Scull) (h : Tab.wf Scull.init s.sculls = true) : (s.setScull k v).scull k = v :=
  Tab.get_put_self (fun _ => Scull.init) _ _ _ ((Tab.wf_iff _ _).1 h)

/-- Another unit reads as before. -/
theorem State.scull_setScull_of_ne (s : State) (k j : Nat) (v : Scull) (h : k ≠ j) : (s.setScull k v).scull j = s.scull j :=
  Tab.get_put_of_ne _ _ _ _ _ _ h

/-- A unit reads as what was just put there. -/
theorem State.crew_setCrew (s : State) (k : Nat) (v : Crew) (h : Tab.wf Crew.init s.crews = true) : (s.setCrew k v).crew k = v :=
  Tab.get_put_self (fun _ => Crew.init) _ _ _ ((Tab.wf_iff _ _).1 h)

/-- Another unit reads as before. -/
theorem State.crew_setCrew_of_ne (s : State) (k j : Nat) (v : Crew) (h : k ≠ j) : (s.setCrew k v).crew j = s.crew j :=
  Tab.get_put_of_ne _ _ _ _ _ _ h

/-- A unit reads as what was just put there. -/
theorem State.erg_setErg (s : State) (k : Nat) (v : Erg) (h : Tab.wf Erg.init s.ergs = true) : (s.setErg k v).erg k = v :=
  Tab.get_put_self (fun _ => Erg.init) _ _ _ ((Tab.wf_iff _ _).1 h)

/-- Another unit reads as before. -/
theorem State.erg_setErg_of_ne (s : State) (k j : Nat) (v : Erg) (h : k ≠ j) : (s.setErg k v).erg j = s.erg j :=
  Tab.get_put_of_ne _ _ _ _ _ _ h

/-- A unit reads as what was just put there. -/
theorem State.task_setTask (s : State) (k : Nat) (v : Task) (h : Tab.wf Task.none s.tasks = true) : (s.setTask k v).task k = v :=
  Tab.get_put_self (fun _ => Task.none) _ _ _ ((Tab.wf_iff _ _).1 h)

/-- Another unit reads as before. -/
theorem State.task_setTask_of_ne (s : State) (k j : Nat) (v : Task) (h : k ≠ j) : (s.setTask k v).task j = s.task j :=
  Tab.get_put_of_ne _ _ _ _ _ _ h

/-- A unit reads as what was just put there. -/
theorem State.ring_setRing (s : State) (k : Nat) (v : Ring) (h : Tab.wf Ring.init s.rings = true) : (s.setRing k v).ring k = v :=
  Tab.get_put_self (fun _ => Ring.init) _ _ _ ((Tab.wf_iff _ _).1 h)

/-- Another unit reads as before. -/
theorem State.ring_setRing_of_ne (s : State) (k j : Nat) (v : Ring) (h : k ≠ j) : (s.setRing k v).ring j = s.ring j :=
  Tab.get_put_of_ne _ _ _ _ _ _ h

/-- A unit reads as what was just put there. -/
theorem State.mb_setMb (s : State) (k : Nat) (v : Mailbox) (h : Tab.wf Mailbox.init s.mbs = true) : (s.setMb k v).mb k = v :=
  Tab.get_put_self (fun _ => Mailbox.init) _ _ _ ((Tab.wf_iff _ _).1 h)

/-- Another unit reads as before. -/
theorem State.mb_setMb_of_ne (s : State) (k j : Nat) (v : Mailbox) (h : k ≠ j) : (s.setMb k v).mb j = s.mb j :=
  Tab.get_put_of_ne _ _ _ _ _ _ h

/-- A unit reads as what was just put there. -/
theorem State.dune_setDune (s : State) (k : Nat) (v : Stack) (h : Tab.wf Stack.init s.dunes = true) : (s.setDune k v).dune k = v :=
  Tab.get_put_self (fun _ => Stack.init) _ _ _ ((Tab.wf_iff _ _).1 h)

/-- Another unit reads as before. -/
theorem State.dune_setDune_of_ne (s : State) (k j : Nat) (v : Stack) (h : k ≠ j) : (s.setDune k v).dune j = s.dune j :=
  Tab.get_put_of_ne _ _ _ _ _ _ h

/-- A unit reads as what was just put there. -/
theorem State.wake_setWake (s : State) (k : Nat) (v : Wake) (h : Tab.wf Wake.init s.wakes = true) : (s.setWake k v).wake k = v :=
  Tab.get_put_self (fun _ => Wake.init) _ _ _ ((Tab.wf_iff _ _).1 h)

/-- Another unit reads as before. -/
theorem State.wake_setWake_of_ne (s : State) (k j : Nat) (v : Wake) (h : k ≠ j) : (s.setWake k v).wake j = s.wake j :=
  Tab.get_put_of_ne _ _ _ _ _ _ h

/-- A unit reads as what was just put there. -/
theorem State.port_setPort (s : State) (k : Nat) (v : Port) (h : Tab.wf Port.init s.ports = true) : (s.setPort k v).port k = v :=
  Tab.get_put_self (fun _ => Port.init) _ _ _ ((Tab.wf_iff _ _).1 h)

/-- Another unit reads as before. -/
theorem State.port_setPort_of_ne (s : State) (k j : Nat) (v : Port) (h : k ≠ j) : (s.setPort k v).port j = s.port j :=
  Tab.get_put_of_ne _ _ _ _ _ _ h

/-- A unit reads as what was just put there. -/
theorem State.ctr_setCtr (s : State) (k : Nat) (v : Word) (h : Tab.wf (0 : Word) s.ctrs = true) : (s.setCtr k v).ctr k = v :=
  Tab.get_put_self (fun _ => (0 : Word)) _ _ _ ((Tab.wf_iff _ _).1 h)

/-- Another unit reads as before. -/
theorem State.ctr_setCtr_of_ne (s : State) (k j : Nat) (v : Word) (h : k ≠ j) : (s.setCtr k v).ctr j = s.ctr j :=
  Tab.get_put_of_ne _ _ _ _ _ _ h

/-- A register reads as what was just put there. -/
theorem State.reg_setReg (s : State) (off : Nat) (v : Word) (h : regsOk s.regs) : (s.setReg off v).reg off = v :=
  Tab.get_put_self resetAt _ _ _ h

/-- Another register reads as before. -/
theorem State.reg_setReg_of_ne (s : State) (off j : Nat) (v : Word) (h : off ≠ j) : (s.setReg off v).reg j = s.reg j :=
  Tab.get_put_of_ne _ _ _ _ _ _ h

/-- A byte reads as what was just stored. -/
theorem State.byte_setByte (s : State) (da : Nat) (b : Byte) (h : memOk s) : (s.setByte da b).byte da = b :=
  Tab.get_put_self (fun _ => (0 : Byte)) _ _ _ ((Tab.wf_iff _ _).1 h.1)

/-- Another byte reads as before. -/
theorem State.byte_setByte_of_ne (s : State) (da j : Nat) (b : Byte) (h : da ≠ j) : (s.setByte da b).byte j = s.byte j :=
  Tab.get_put_of_ne _ _ _ _ _ _ h

end Sys2Proof.Machine

namespace Sys2Proof.Laws

open Sys2Proof.Machine Sys2Proof.Safety

theorem Moves.upd_tx {s : State} {v : List Sent} : Moves [.sent] s { s with tx := v } :=
  ⟨fun p hp => by
    cases p <;> first | rfl | exact ⟨rfl, rfl⟩ | (intro _ _ _; rfl) | exact absurd (by decide) hp, fun c => ⟨c.mem, c.regs, c.ctrs, c.guards, c.sculls, c.crews, c.ergs, c.tasks, c.rings, c.mbs, c.dunes, c.wakes, c.ports⟩, ⟨rfl, rfl, le_rfl, le_rfl, le_rfl, fun _ h => h, fun _ h => h, le_rfl⟩⟩

theorem Moves.upd_power {s : State} {v : Power} : Moves [.power] s { s with power := v } :=
  ⟨fun p hp => by
    cases p <;> first | rfl | exact ⟨rfl, rfl⟩ | (intro _ _ _; rfl) | exact absurd (by decide) hp, fun c => ⟨c.mem, c.regs, c.ctrs, c.guards, c.sculls, c.crews, c.ergs, c.tasks, c.rings, c.mbs, c.dunes, c.wakes, c.ports⟩, ⟨rfl, rfl, le_rfl, le_rfl, le_rfl, fun _ h => h, fun _ h => h, le_rfl⟩⟩

theorem Moves.upd_pwrGood {s : State} {v : Bool} : Moves [.pwrGood] s { s with pwrGood := v } :=
  ⟨fun p hp => by
    cases p <;> first | rfl | exact ⟨rfl, rfl⟩ | (intro _ _ _; rfl) | exact absurd (by decide) hp, fun c => ⟨c.mem, c.regs, c.ctrs, c.guards, c.sculls, c.crews, c.ergs, c.tasks, c.rings, c.mbs, c.dunes, c.wakes, c.ports⟩, ⟨rfl, rfl, le_rfl, le_rfl, le_rfl, fun _ h => h, fun _ h => h, le_rfl⟩⟩

theorem Moves.upd_etc {s : State} {v : Nat} : Moves [.etc] s { s with etc := v } :=
  ⟨fun p hp => by
    cases p <;> first | rfl | exact ⟨rfl, rfl⟩ | (intro _ _ _; rfl) | exact absurd (by decide) hp, fun c => ⟨c.mem, c.regs, c.ctrs, c.guards, c.sculls, c.crews, c.ergs, c.tasks, c.rings, c.mbs, c.dunes, c.wakes, c.ports⟩, ⟨rfl, rfl, le_rfl, le_rfl, le_rfl, fun _ h => h, fun _ h => h, le_rfl⟩⟩

theorem Moves.upd_timer {s : State} {v : Bool} : Moves [.timer] s { s with timer := v } :=
  ⟨fun p hp => by
    cases p <;> first | rfl | exact ⟨rfl, rfl⟩ | (intro _ _ _; rfl) | exact absurd (by decide) hp, fun c => ⟨c.mem, c.regs, c.ctrs, c.guards, c.sculls, c.crews, c.ergs, c.tasks, c.rings, c.mbs, c.dunes, c.wakes, c.ports⟩, ⟨rfl, rfl, le_rfl, le_rfl, le_rfl, fun _ h => h, fun _ h => h, le_rfl⟩⟩

theorem Moves.upd_dev {s : State} {v : DevState} : Moves [.dev] s { s with dev := v } :=
  ⟨fun p hp => by
    cases p <;> first | rfl | exact ⟨rfl, rfl⟩ | (intro _ _ _; rfl) | exact absurd (by decide) hp, fun c => ⟨c.mem, c.regs, c.ctrs, c.guards, c.sculls, c.crews, c.ergs, c.tasks, c.rings, c.mbs, c.dunes, c.wakes, c.ports⟩, ⟨rfl, rfl, le_rfl, le_rfl, le_rfl, fun _ h => h, fun _ h => h, le_rfl⟩⟩

theorem Moves.upd_fault {s : State} {v : Nat} : Moves [.fault] s { s with fault := v } :=
  ⟨fun p hp => by
    cases p <;> first | rfl | exact ⟨rfl, rfl⟩ | (intro _ _ _; rfl) | exact absurd (by decide) hp, fun c => ⟨c.mem, c.regs, c.ctrs, c.guards, c.sculls, c.crews, c.ergs, c.tasks, c.rings, c.mbs, c.dunes, c.wakes, c.ports⟩, ⟨rfl, rfl, le_rfl, le_rfl, le_rfl, fun _ h => h, fun _ h => h, le_rfl⟩⟩

theorem Moves.upd_sec {s : State} {v : Sec} : Moves [.sec] s { s with sec := v } :=
  ⟨fun p hp => by
    cases p <;> first | rfl | exact ⟨rfl, rfl⟩ | (intro _ _ _; rfl) | exact absurd (by decide) hp, fun c => ⟨c.mem, c.regs, c.ctrs, c.guards, c.sculls, c.crews, c.ergs, c.tasks, c.rings, c.mbs, c.dunes, c.wakes, c.ports⟩, ⟨rfl, rfl, le_rfl, le_rfl, le_rfl, fun _ h => h, fun _ h => h, le_rfl⟩⟩

theorem Moves.upd_log {s : State} {v : Log} : Moves [.log] s { s with log := v } :=
  ⟨fun p hp => by
    cases p <;> first | rfl | exact ⟨rfl, rfl⟩ | (intro _ _ _; rfl) | exact absurd (by decide) hp, fun c => ⟨c.mem, c.regs, c.ctrs, c.guards, c.sculls, c.crews, c.ergs, c.tasks, c.rings, c.mbs, c.dunes, c.wakes, c.ports⟩, ⟨rfl, rfl, le_rfl, le_rfl, le_rfl, fun _ h => h, fun _ h => h, le_rfl⟩⟩

theorem Moves.upd_crash {s : State} {v : Option (Nat × Nat × List (BitVec 16))} : Moves [.crash] s { s with crash := v } :=
  ⟨fun p hp => by
    cases p <;> first | rfl | exact ⟨rfl, rfl⟩ | (intro _ _ _; rfl) | exact absurd (by decide) hp, fun c => ⟨c.mem, c.regs, c.ctrs, c.guards, c.sculls, c.crews, c.ergs, c.tasks, c.rings, c.mbs, c.dunes, c.wakes, c.ports⟩, ⟨rfl, rfl, le_rfl, le_rfl, le_rfl, fun _ h => h, fun _ h => h, le_rfl⟩⟩

theorem Moves.upd_staged5 {s : State} {v : Option Word} : Moves [.staged5] s { s with staged5 := v } :=
  ⟨fun p hp => by
    cases p <;> first | rfl | exact ⟨rfl, rfl⟩ | (intro _ _ _; rfl) | exact absurd (by decide) hp, fun c => ⟨c.mem, c.regs, c.ctrs, c.guards, c.sculls, c.crews, c.ergs, c.tasks, c.rings, c.mbs, c.dunes, c.wakes, c.ports⟩, ⟨rfl, rfl, le_rfl, le_rfl, le_rfl, fun _ h => h, fun _ h => h, le_rfl⟩⟩

theorem Moves.upd_staged3 {s : State} {v : Option (BitVec 64)} : Moves [.staged3] s { s with staged3 := v } :=
  ⟨fun p hp => by
    cases p <;> first | rfl | exact ⟨rfl, rfl⟩ | (intro _ _ _; rfl) | exact absurd (by decide) hp, fun c => ⟨c.mem, c.regs, c.ctrs, c.guards, c.sculls, c.crews, c.ergs, c.tasks, c.rings, c.mbs, c.dunes, c.wakes, c.ports⟩, ⟨rfl, rfl, le_rfl, le_rfl, le_rfl, fun _ h => h, fun _ h => h, le_rfl⟩⟩

theorem Moves.upd_seeded {s : State} {v : List Nat} : Moves [.seeded] s { s with seeded := v } :=
  ⟨fun p hp => by
    cases p <;> first | rfl | exact ⟨rfl, rfl⟩ | (intro _ _ _; rfl) | exact absurd (by decide) hp, fun c => ⟨c.mem, c.regs, c.ctrs, c.guards, c.sculls, c.crews, c.ergs, c.tasks, c.rings, c.mbs, c.dunes, c.wakes, c.ports⟩, ⟨rfl, rfl, le_rfl, le_rfl, le_rfl, fun _ h => h, fun _ h => h, le_rfl⟩⟩

theorem Moves.upd_holding {s : State} {v : Tab Word} : Moves [.holding] s { s with holding := v } :=
  ⟨fun p hp => by
    cases p <;> first | rfl | exact ⟨rfl, rfl⟩ | (intro _ _ _; rfl) | exact absurd (by decide) hp, fun c => ⟨c.mem, c.regs, c.ctrs, c.guards, c.sculls, c.crews, c.ergs, c.tasks, c.rings, c.mbs, c.dunes, c.wakes, c.ports⟩, ⟨rfl, rfl, le_rfl, le_rfl, le_rfl, fun _ h => h, fun _ h => h, le_rfl⟩⟩

theorem Moves.upd_lastRing {s : State} {v : Nat} : Moves [.lastRing] s { s with lastRing := v } :=
  ⟨fun p hp => by
    cases p <;> first | rfl | exact ⟨rfl, rfl⟩ | (intro _ _ _; rfl) | exact absurd (by decide) hp, fun c => ⟨c.mem, c.regs, c.ctrs, c.guards, c.sculls, c.crews, c.ergs, c.tasks, c.rings, c.mbs, c.dunes, c.wakes, c.ports⟩, ⟨rfl, rfl, le_rfl, le_rfl, le_rfl, fun _ h => h, fun _ h => h, le_rfl⟩⟩

theorem Moves.upd_stateMb {s : State} {v : Option Nat} : Moves [.stateMb] s { s with stateMb := v } :=
  ⟨fun p hp => by
    cases p <;> first | rfl | exact ⟨rfl, rfl⟩ | (intro _ _ _; rfl) | exact absurd (by decide) hp, fun c => ⟨c.mem, c.regs, c.ctrs, c.guards, c.sculls, c.crews, c.ergs, c.tasks, c.rings, c.mbs, c.dunes, c.wakes, c.ports⟩, ⟨rfl, rfl, le_rfl, le_rfl, le_rfl, fun _ h => h, fun _ h => h, le_rfl⟩⟩

theorem Moves.upd_mbQueue {s : State} {v : List (Nat × MbCmd)} : Moves [.mbQueue] s { s with mbQueue := v } :=
  ⟨fun p hp => by
    cases p <;> first | rfl | exact ⟨rfl, rfl⟩ | (intro _ _ _; rfl) | exact absurd (by decide) hp, fun c => ⟨c.mem, c.regs, c.ctrs, c.guards, c.sculls, c.crews, c.ergs, c.tasks, c.rings, c.mbs, c.dunes, c.wakes, c.ports⟩, ⟨rfl, rfl, le_rfl, le_rfl, le_rfl, fun _ h => h, fun _ h => h, le_rfl⟩⟩

theorem Moves.upd_tier {s : State} {v : Tier} : Moves [.tier] s { s with tier := v } :=
  ⟨fun p hp => by
    cases p <;> first | rfl | exact ⟨rfl, rfl⟩ | (intro _ _ _; rfl) | exact absurd (by decide) hp, fun c => ⟨c.mem, c.regs, c.ctrs, c.guards, c.sculls, c.crews, c.ergs, c.tasks, c.rings, c.mbs, c.dunes, c.wakes, c.ports⟩, ⟨rfl, rfl, le_rfl, le_rfl, le_rfl, fun _ h => h, fun _ h => h, le_rfl⟩⟩

theorem Moves.upd_kv {s : State} {v : Kv} : Moves [.kv] s { s with kv := v } :=
  ⟨fun p hp => by
    cases p <;> first | rfl | exact ⟨rfl, rfl⟩ | (intro _ _ _; rfl) | exact absurd (by decide) hp, fun c => ⟨c.mem, c.regs, c.ctrs, c.guards, c.sculls, c.crews, c.ergs, c.tasks, c.rings, c.mbs, c.dunes, c.wakes, c.ports⟩, ⟨rfl, rfl, le_rfl, le_rfl, le_rfl, fun _ h => h, fun _ h => h, le_rfl⟩⟩

theorem Moves.upd_lowp {s : State} {v : Lowp} : Moves [.lowp] s { s with lowp := v } :=
  ⟨fun p hp => by
    cases p <;> first | rfl | exact ⟨rfl, rfl⟩ | (intro _ _ _; rfl) | exact absurd (by decide) hp, fun c => ⟨c.mem, c.regs, c.ctrs, c.guards, c.sculls, c.crews, c.ergs, c.tasks, c.rings, c.mbs, c.dunes, c.wakes, c.ports⟩, ⟨rfl, rfl, le_rfl, le_rfl, le_rfl, fun _ h => h, fun _ h => h, le_rfl⟩⟩

theorem Moves.upd_rigger {s : State} {v : Tab Nat} : Moves [.rigger] s { s with rigger := v } :=
  ⟨fun p hp => by
    cases p <;> first | rfl | exact ⟨rfl, rfl⟩ | (intro _ _ _; rfl) | exact absurd (by decide) hp, fun c => ⟨c.mem, c.regs, c.ctrs, c.guards, c.sculls, c.crews, c.ergs, c.tasks, c.rings, c.mbs, c.dunes, c.wakes, c.ports⟩, ⟨rfl, rfl, le_rfl, le_rfl, le_rfl, fun _ h => h, fun _ h => h, le_rfl⟩⟩

theorem Moves.upd_colls {s : State} {v : Colls} : Moves [.colls] s { s with colls := v } :=
  ⟨fun p hp => by
    cases p <;> first | rfl | exact ⟨rfl, rfl⟩ | (intro _ _ _; rfl) | exact absurd (by decide) hp, fun c => ⟨c.mem, c.regs, c.ctrs, c.guards, c.sculls, c.crews, c.ergs, c.tasks, c.rings, c.mbs, c.dunes, c.wakes, c.ports⟩, ⟨rfl, rfl, le_rfl, le_rfl, le_rfl, fun _ h => h, fun _ h => h, le_rfl⟩⟩

theorem Moves.upd_peers {s : State} {v : List PeerReq} : Moves [.peers] s { s with peers := v } :=
  ⟨fun p hp => by
    cases p <;> first | rfl | exact ⟨rfl, rfl⟩ | (intro _ _ _; rfl) | exact absurd (by decide) hp, fun c => ⟨c.mem, c.regs, c.ctrs, c.guards, c.sculls, c.crews, c.ergs, c.tasks, c.rings, c.mbs, c.dunes, c.wakes, c.ports⟩, ⟨rfl, rfl, le_rfl, le_rfl, le_rfl, fun _ h => h, fun _ h => h, le_rfl⟩⟩

theorem Moves.upd_sched {s : State} {v : Sched} : Moves [.sched] s { s with sched := v } :=
  ⟨fun p hp => by
    cases p <;> first | rfl | exact ⟨rfl, rfl⟩ | (intro _ _ _; rfl) | exact absurd (by decide) hp, fun c => ⟨c.mem, c.regs, c.ctrs, c.guards, c.sculls, c.crews, c.ergs, c.tasks, c.rings, c.mbs, c.dunes, c.wakes, c.ports⟩, ⟨rfl, rfl, le_rfl, le_rfl, le_rfl, fun _ h => h, fun _ h => h, le_rfl⟩⟩

theorem Moves.upd_islands {s : State} {v : Tab Nat} : Moves [.islands] s { s with islands := v } :=
  ⟨fun p hp => by
    cases p <;> first | rfl | exact ⟨rfl, rfl⟩ | (intro _ _ _; rfl) | exact absurd (by decide) hp, fun c => ⟨c.mem, c.regs, c.ctrs, c.guards, c.sculls, c.crews, c.ergs, c.tasks, c.rings, c.mbs, c.dunes, c.wakes, c.ports⟩, ⟨rfl, rfl, le_rfl, le_rfl, le_rfl, fun _ h => h, fun _ h => h, le_rfl⟩⟩

theorem Moves.upd_flashGone {s : State} {v : Bool} : Moves [.flashGone] s { s with flashGone := v } :=
  ⟨fun p hp => by
    cases p <;> first | rfl | exact ⟨rfl, rfl⟩ | (intro _ _ _; rfl) | exact absurd (by decide) hp, fun c => ⟨c.mem, c.regs, c.ctrs, c.guards, c.sculls, c.crews, c.ergs, c.tasks, c.rings, c.mbs, c.dunes, c.wakes, c.ports⟩, ⟨rfl, rfl, le_rfl, le_rfl, le_rfl, fun _ h => h, fun _ h => h, le_rfl⟩⟩

theorem Moves.upd_pwr {s : State} {v : Pwr} : Moves [.pwr] s { s with pwr := v } :=
  ⟨fun p hp => by
    cases p <;> first | rfl | exact ⟨rfl, rfl⟩ | (intro _ _ _; rfl) | exact absurd (by decide) hp, fun c => ⟨c.mem, c.regs, c.ctrs, c.guards, c.sculls, c.crews, c.ergs, c.tasks, c.rings, c.mbs, c.dunes, c.wakes, c.ports⟩, ⟨rfl, rfl, le_rfl, le_rfl, le_rfl, fun _ h => h, fun _ h => h, le_rfl⟩⟩

theorem Moves.upd_cairn {s : State} {v : Cairn} : Moves [.cairn] s { s with cairn := v } :=
  ⟨fun p hp => by
    cases p <;> first | rfl | exact ⟨rfl, rfl⟩ | (intro _ _ _; rfl) | exact absurd (by decide) hp, fun c => ⟨c.mem, c.regs, c.ctrs, c.guards, c.sculls, c.crews, c.ergs, c.tasks, c.rings, c.mbs, c.dunes, c.wakes, c.ports⟩, ⟨rfl, rfl, le_rfl, le_rfl, le_rfl, fun _ h => h, fun _ h => h, le_rfl⟩⟩

theorem Moves.upd_start {s : State} {v : Start} (h : v.logOpen = s.start.logOpen) :
    Moves [.start] s { s with start := v } :=
  ⟨fun p hp => by
    cases p <;> first | rfl | exact ⟨rfl, rfl⟩ | (intro _ _ _; rfl) | exact h | exact absurd (by decide) hp, fun c => ⟨c.mem, c.regs, c.ctrs, c.guards, c.sculls, c.crews, c.ergs, c.tasks, c.rings, c.mbs, c.dunes, c.wakes, c.ports⟩, ⟨rfl, rfl, le_rfl, le_rfl, le_rfl, fun _ h => h, fun _ h => h, le_rfl⟩⟩

theorem Moves.upd_host {s : State} {v : HostPort} (h : v.vecPend = s.host.vecPend) :
    Moves [.host] s { s with host := v } :=
  ⟨fun p hp => by
    cases p <;> first | rfl | exact ⟨rfl, rfl⟩ | (intro _ _ _; rfl) | exact h | exact absurd (by decide) hp, fun c => ⟨c.mem, c.regs, c.ctrs, c.guards, c.sculls, c.crews, c.ergs, c.tasks, c.rings, c.mbs, c.dunes, c.wakes, c.ports⟩, ⟨rfl, rfl, le_rfl, le_rfl, le_rfl, fun _ h => h, fun _ h => h, le_rfl⟩⟩

theorem Moves.upd_fresh {s : State} {n : Nat} : Moves [.fresh] s { s with fresh := s.fresh + n } :=
  ⟨fun p hp => by
    cases p <;> first | rfl | exact ⟨rfl, rfl⟩ | (intro _ _ _; rfl) | exact absurd (by decide) hp, fun c => ⟨c.mem, c.regs, c.ctrs, c.guards, c.sculls, c.crews, c.ergs, c.tasks, c.rings, c.mbs, c.dunes, c.wakes, c.ports⟩,
    ⟨rfl, rfl, le_rfl, le_rfl, le_rfl, fun _ h => h, fun _ h => h, Nat.le_add_right _ _⟩⟩

/-- A change of the non-volatile store outside the identity, the life-cycle and the record numbers. -/
theorem Moves.upd_nv {s : State} {v : Nv} (h1 : v.variant = s.nv.variant) (h2 : v.serial = s.nv.serial)
    (h3 : v.lifecycle = s.nv.lifecycle) (h4 : v.lcUsed = s.nv.lcUsed) (h5 : v.reserved = s.nv.reserved)
    (h6 : s.nv.minSvn ≤ v.minSvn) (h7 : s.nv.floors ≤ v.floors) (h8 : ∀ k ∈ s.nv.revoked, k ∈ v.revoked)
    (h9 : ∀ k ∈ s.nv.fused, k ∈ v.fused) : Moves [.nv] s { s with nv := v } :=
  ⟨fun p hp => by
    cases p <;> first
      | rfl | exact ⟨rfl, rfl⟩ | (intro _ _ _; rfl) | exact ⟨h1, h2⟩ | exact ⟨h3, h4⟩ | exact h5
      | exact absurd (by decide) hp, fun c => ⟨c.mem, c.regs, c.ctrs, c.guards, c.sculls, c.crews, c.ergs, c.tasks, c.rings, c.mbs, c.dunes, c.wakes, c.ports⟩, ⟨h1, h2, h6, h7, le_of_eq h4.symm, h8, h9, le_rfl⟩⟩

/-- The same, with the security store. -/
theorem Moves.upd_nv_sec {s : State} {v : Nv} {w : Sec} (h1 : v.variant = s.nv.variant) (h2 : v.serial = s.nv.serial)
    (h3 : v.lifecycle = s.nv.lifecycle) (h4 : v.lcUsed = s.nv.lcUsed) (h5 : v.reserved = s.nv.reserved)
    (h6 : s.nv.minSvn ≤ v.minSvn) (h7 : s.nv.floors ≤ v.floors) (h8 : ∀ k ∈ s.nv.revoked, k ∈ v.revoked)
    (h9 : ∀ k ∈ s.nv.fused, k ∈ v.fused) : Moves [.nv, .sec] s { s with nv := v, sec := w } :=
  ⟨fun p hp => by
    cases p <;> first
      | rfl | exact ⟨rfl, rfl⟩ | (intro _ _ _; rfl) | exact ⟨h1, h2⟩ | exact ⟨h3, h4⟩ | exact h5
      | exact absurd (by decide) hp, fun c => ⟨c.mem, c.regs, c.ctrs, c.guards, c.sculls, c.crews, c.ergs, c.tasks, c.rings, c.mbs, c.dunes, c.wakes, c.ports⟩, ⟨h1, h2, h6, h7, le_of_eq h4.symm, h8, h9, le_rfl⟩⟩

theorem Moves.upd_nv_start {s : State} {v : Nv} {x : Start} (h1 : v.variant = s.nv.variant) (h2 : v.serial = s.nv.serial)
    (h3 : v.lifecycle = s.nv.lifecycle) (h4 : v.lcUsed = s.nv.lcUsed) (h5 : v.reserved = s.nv.reserved)
    (h6 : s.nv.minSvn ≤ v.minSvn) (h7 : s.nv.floors ≤ v.floors) (h8 : ∀ k ∈ s.nv.revoked, k ∈ v.revoked)
    (h9 : ∀ k ∈ s.nv.fused, k ∈ v.fused)
    (h : x.logOpen = s.start.logOpen) :
    Moves [.nv, .start] s { s with nv := v, start := x } :=
  ⟨fun p hp => by
    cases p <;> first
      | rfl | exact ⟨rfl, rfl⟩ | (intro _ _ _; rfl) | exact ⟨h1, h2⟩ | exact ⟨h3, h4⟩ | exact h5 | exact h
      | exact absurd (by decide) hp, fun c => ⟨c.mem, c.regs, c.ctrs, c.guards, c.sculls, c.crews, c.ergs, c.tasks, c.rings, c.mbs, c.dunes, c.wakes, c.ports⟩, ⟨h1, h2, h6, h7, le_of_eq h4.symm, h8, h9, le_rfl⟩⟩

theorem Moves.upd_nv_sec_start {s : State} {v : Nv} {w : Sec} {x : Start} (h1 : v.variant = s.nv.variant) (h2 : v.serial = s.nv.serial)
    (h3 : v.lifecycle = s.nv.lifecycle) (h4 : v.lcUsed = s.nv.lcUsed) (h5 : v.reserved = s.nv.reserved)
    (h6 : s.nv.minSvn ≤ v.minSvn) (h7 : s.nv.floors ≤ v.floors) (h8 : ∀ k ∈ s.nv.revoked, k ∈ v.revoked)
    (h9 : ∀ k ∈ s.nv.fused, k ∈ v.fused)
    (h : x.logOpen = s.start.logOpen) :
    Moves [.nv, .sec, .start] s { s with nv := v, sec := w, start := x } :=
  ⟨fun p hp => by
    cases p <;> first
      | rfl | exact ⟨rfl, rfl⟩ | (intro _ _ _; rfl) | exact ⟨h1, h2⟩ | exact ⟨h3, h4⟩ | exact h5 | exact h
      | exact absurd (by decide) hp, fun c => ⟨c.mem, c.regs, c.ctrs, c.guards, c.sculls, c.crews, c.ergs, c.tasks, c.rings, c.mbs, c.dunes, c.wakes, c.ports⟩, ⟨h1, h2, h6, h7, le_of_eq h4.symm, h8, h9, le_rfl⟩⟩

theorem Moves.upd_nv_log {s : State} {v : Nv} {w : Log} (h1 : v.variant = s.nv.variant) (h2 : v.serial = s.nv.serial)
    (h3 : v.lifecycle = s.nv.lifecycle) (h4 : v.lcUsed = s.nv.lcUsed) (h5 : v.reserved = s.nv.reserved)
    (h6 : s.nv.minSvn ≤ v.minSvn) (h7 : s.nv.floors ≤ v.floors) (h8 : ∀ k ∈ s.nv.revoked, k ∈ v.revoked)
    (h9 : ∀ k ∈ s.nv.fused, k ∈ v.fused) :
    Moves [.nv, .log] s { s with nv := v, log := w } :=
  ⟨fun p hp => by
    cases p <;> first
      | rfl | exact ⟨rfl, rfl⟩ | (intro _ _ _; rfl) | exact ⟨h1, h2⟩ | exact ⟨h3, h4⟩ | exact h5
      | exact absurd (by decide) hp, fun c => ⟨c.mem, c.regs, c.ctrs, c.guards, c.sculls, c.crews, c.ergs, c.tasks, c.rings, c.mbs, c.dunes, c.wakes, c.ports⟩, ⟨h1, h2, h6, h7, le_of_eq h4.symm, h8, h9, le_rfl⟩⟩

theorem Moves.upd_holding_host {s : State} {t : Tab Word} {v : HostPort} (h : v.vecPend = s.host.vecPend) :
    Moves [.holding, .host] s { s with holding := t, host := v } :=
  ⟨fun p hp => by
    cases p <;> first | rfl | exact ⟨rfl, rfl⟩ | (intro _ _ _; rfl) | exact h | exact absurd (by decide) hp, fun c => ⟨c.mem, c.regs, c.ctrs, c.guards, c.sculls, c.crews, c.ergs, c.tasks, c.rings, c.mbs, c.dunes, c.wakes, c.ports⟩,
    ⟨rfl, rfl, le_rfl, le_rfl, le_rfl, fun _ h => h, fun _ h => h, le_rfl⟩⟩

theorem Moves.upd_fault_start {s : State} {n : Nat} {x : Start} (h : x.logOpen = s.start.logOpen) :
    Moves [.fault, .start] s { s with fault := n, start := x } :=
  ⟨fun p hp => by
    cases p <;> first | rfl | exact ⟨rfl, rfl⟩ | (intro _ _ _; rfl) | exact h | exact absurd (by decide) hp, fun c => ⟨c.mem, c.regs, c.ctrs, c.guards, c.sculls, c.crews, c.ergs, c.tasks, c.rings, c.mbs, c.dunes, c.wakes, c.ports⟩,
    ⟨rfl, rfl, le_rfl, le_rfl, le_rfl, fun _ h => h, fun _ h => h, le_rfl⟩⟩

/-- The memory and its poison list change, and stay in their canonical form. -/
theorem Moves.upd_memory {s : State} {m : Tab Byte} {l : List Nat}
    (h : memOk s → Tab.okBy (fun _ => (0 : Byte)) m ∧ l.Pairwise (· < ·)) :
    Moves [.mem, .poison] s { s with mem := m, poison := l } :=
  ⟨fun p hp => by
    cases p <;> first | rfl | exact ⟨rfl, rfl⟩ | (intro _ _ _; rfl) | exact absurd (by decide) hp, fun c => ⟨⟨(Tab.wf_iff _ _).2 (h c.mem).1, (h c.mem).2⟩, c.regs, c.ctrs, c.guards, c.sculls, c.crews, c.ergs, c.tasks, c.rings, c.mbs, c.dunes, c.wakes, c.ports⟩, ⟨rfl, rfl, le_rfl, le_rfl, le_rfl, fun _ h => h, fun _ h => h, le_rfl⟩⟩

theorem Moves.upd_mem {s : State} {m : Tab Byte} (h : memOk s → Tab.okBy (fun _ => (0 : Byte)) m) :
    Moves [.mem] s { s with mem := m } :=
  ⟨fun p hp => by
    cases p <;> first | rfl | exact ⟨rfl, rfl⟩ | (intro _ _ _; rfl) | exact absurd (by decide) hp, fun c => ⟨⟨(Tab.wf_iff _ _).2 (h c.mem), c.mem.2⟩, c.regs, c.ctrs, c.guards, c.sculls, c.crews, c.ergs, c.tasks, c.rings, c.mbs, c.dunes, c.wakes, c.ports⟩, ⟨rfl, rfl, le_rfl, le_rfl, le_rfl, fun _ h => h, fun _ h => h, le_rfl⟩⟩

theorem Moves.upd_poison {s : State} {l : List Nat} (h : memOk s → l.Pairwise (· < ·)) :
    Moves [.poison] s { s with poison := l } :=
  ⟨fun p hp => by
    cases p <;> first | rfl | exact ⟨rfl, rfl⟩ | (intro _ _ _; rfl) | exact absurd (by decide) hp, fun c => ⟨⟨c.mem.1, h c.mem⟩, c.regs, c.ctrs, c.guards, c.sculls, c.crews, c.ergs, c.tasks, c.rings, c.mbs, c.dunes, c.wakes, c.ports⟩, ⟨rfl, rfl, le_rfl, le_rfl, le_rfl, fun _ h => h, fun _ h => h, le_rfl⟩⟩

theorem Moves.put_sculls {s : State} {k : Nat} {v : Scull} :
    Moves [.sculls] s { s with sculls := Tab.put Scull.init s.sculls k v } :=
  ⟨fun p hp => by
    cases p <;> first | rfl | exact ⟨rfl, rfl⟩ | (intro _ _ _; rfl) | exact absurd (by decide) hp,
    fun c => ⟨c.mem, c.regs, c.ctrs, c.guards, (Tab.wf_iff _ _).2 (Tab.okBy_put (fun _ => Scull.init) _ _ _ ((Tab.wf_iff _ _).1 c.sculls)), c.crews, c.ergs, c.tasks, c.rings, c.mbs, c.dunes, c.wakes, c.ports⟩, ⟨rfl, rfl, le_rfl, le_rfl, le_rfl, fun _ h => h, fun _ h => h, le_rfl⟩⟩

theorem Moves.put_crews {s : State} {k : Nat} {v : Crew} :
    Moves [.crews] s { s with crews := Tab.put Crew.init s.crews k v } :=
  ⟨fun p hp => by
    cases p <;> first | rfl | exact ⟨rfl, rfl⟩ | (intro _ _ _; rfl) | exact absurd (by decide) hp,
    fun c => ⟨c.mem, c.regs, c.ctrs, c.guards, c.sculls, (Tab.wf_iff _ _).2 (Tab.okBy_put (fun _ => Crew.init) _ _ _ ((Tab.wf_iff _ _).1 c.crews)), c.ergs, c.tasks, c.rings, c.mbs, c.dunes, c.wakes, c.ports⟩, ⟨rfl, rfl, le_rfl, le_rfl, le_rfl, fun _ h => h, fun _ h => h, le_rfl⟩⟩

theorem Moves.put_ergs {s : State} {k : Nat} {v : Erg} :
    Moves [.ergs] s { s with ergs := Tab.put Erg.init s.ergs k v } :=
  ⟨fun p hp => by
    cases p <;> first | rfl | exact ⟨rfl, rfl⟩ | (intro _ _ _; rfl) | exact absurd (by decide) hp,
    fun c => ⟨c.mem, c.regs, c.ctrs, c.guards, c.sculls, c.crews, (Tab.wf_iff _ _).2 (Tab.okBy_put (fun _ => Erg.init) _ _ _ ((Tab.wf_iff _ _).1 c.ergs)), c.tasks, c.rings, c.mbs, c.dunes, c.wakes, c.ports⟩, ⟨rfl, rfl, le_rfl, le_rfl, le_rfl, fun _ h => h, fun _ h => h, le_rfl⟩⟩

theorem Moves.put_tasks {s : State} {k : Nat} {v : Task} :
    Moves [.tasks] s { s with tasks := Tab.put Task.none s.tasks k v } :=
  ⟨fun p hp => by
    cases p <;> first | rfl | exact ⟨rfl, rfl⟩ | (intro _ _ _; rfl) | exact absurd (by decide) hp,
    fun c => ⟨c.mem, c.regs, c.ctrs, c.guards, c.sculls, c.crews, c.ergs, (Tab.wf_iff _ _).2 (Tab.okBy_put (fun _ => Task.none) _ _ _ ((Tab.wf_iff _ _).1 c.tasks)), c.rings, c.mbs, c.dunes, c.wakes, c.ports⟩, ⟨rfl, rfl, le_rfl, le_rfl, le_rfl, fun _ h => h, fun _ h => h, le_rfl⟩⟩

theorem Moves.put_rings {s : State} {k : Nat} {v : Ring} :
    Moves [.rings] s { s with rings := Tab.put Ring.init s.rings k v } :=
  ⟨fun p hp => by
    cases p <;> first | rfl | exact ⟨rfl, rfl⟩ | (intro _ _ _; rfl) | exact absurd (by decide) hp,
    fun c => ⟨c.mem, c.regs, c.ctrs, c.guards, c.sculls, c.crews, c.ergs, c.tasks, (Tab.wf_iff _ _).2 (Tab.okBy_put (fun _ => Ring.init) _ _ _ ((Tab.wf_iff _ _).1 c.rings)), c.mbs, c.dunes, c.wakes, c.ports⟩, ⟨rfl, rfl, le_rfl, le_rfl, le_rfl, fun _ h => h, fun _ h => h, le_rfl⟩⟩

theorem Moves.put_mbs {s : State} {k : Nat} {v : Mailbox} :
    Moves [.mbs] s { s with mbs := Tab.put Mailbox.init s.mbs k v } :=
  ⟨fun p hp => by
    cases p <;> first | rfl | exact ⟨rfl, rfl⟩ | (intro _ _ _; rfl) | exact absurd (by decide) hp,
    fun c => ⟨c.mem, c.regs, c.ctrs, c.guards, c.sculls, c.crews, c.ergs, c.tasks, c.rings, (Tab.wf_iff _ _).2 (Tab.okBy_put (fun _ => Mailbox.init) _ _ _ ((Tab.wf_iff _ _).1 c.mbs)), c.dunes, c.wakes, c.ports⟩, ⟨rfl, rfl, le_rfl, le_rfl, le_rfl, fun _ h => h, fun _ h => h, le_rfl⟩⟩

theorem Moves.put_dunes {s : State} {k : Nat} {v : Stack} :
    Moves [.dunes] s { s with dunes := Tab.put Stack.init s.dunes k v } :=
  ⟨fun p hp => by
    cases p <;> first | rfl | exact ⟨rfl, rfl⟩ | (intro _ _ _; rfl) | exact absurd (by decide) hp,
    fun c => ⟨c.mem, c.regs, c.ctrs, c.guards, c.sculls, c.crews, c.ergs, c.tasks, c.rings, c.mbs, (Tab.wf_iff _ _).2 (Tab.okBy_put (fun _ => Stack.init) _ _ _ ((Tab.wf_iff _ _).1 c.dunes)), c.wakes, c.ports⟩, ⟨rfl, rfl, le_rfl, le_rfl, le_rfl, fun _ h => h, fun _ h => h, le_rfl⟩⟩

theorem Moves.put_wakes {s : State} {k : Nat} {v : Wake} :
    Moves [.wakes] s { s with wakes := Tab.put Wake.init s.wakes k v } :=
  ⟨fun p hp => by
    cases p <;> first | rfl | exact ⟨rfl, rfl⟩ | (intro _ _ _; rfl) | exact absurd (by decide) hp,
    fun c => ⟨c.mem, c.regs, c.ctrs, c.guards, c.sculls, c.crews, c.ergs, c.tasks, c.rings, c.mbs, c.dunes, (Tab.wf_iff _ _).2 (Tab.okBy_put (fun _ => Wake.init) _ _ _ ((Tab.wf_iff _ _).1 c.wakes)), c.ports⟩, ⟨rfl, rfl, le_rfl, le_rfl, le_rfl, fun _ h => h, fun _ h => h, le_rfl⟩⟩

theorem Moves.put_ports {s : State} {k : Nat} {v : Port} :
    Moves [.ports] s { s with ports := Tab.put Port.init s.ports k v } :=
  ⟨fun p hp => by
    cases p <;> first | rfl | exact ⟨rfl, rfl⟩ | (intro _ _ _; rfl) | exact absurd (by decide) hp,
    fun c => ⟨c.mem, c.regs, c.ctrs, c.guards, c.sculls, c.crews, c.ergs, c.tasks, c.rings, c.mbs, c.dunes, c.wakes, (Tab.wf_iff _ _).2 (Tab.okBy_put (fun _ => Port.init) _ _ _ ((Tab.wf_iff _ _).1 c.ports))⟩, ⟨rfl, rfl, le_rfl, le_rfl, le_rfl, fun _ h => h, fun _ h => h, le_rfl⟩⟩

theorem Moves.put_ctrs {s : State} {k : Nat} {v : Word} :
    Moves [.ctrs] s { s with ctrs := Tab.put (0 : Word) s.ctrs k v } :=
  ⟨fun p hp => by
    cases p <;> first | rfl | exact ⟨rfl, rfl⟩ | (intro _ _ _; rfl) | exact absurd (by decide) hp,
    fun c => ⟨c.mem, c.regs, (Tab.wf_iff _ _).2 (Tab.okBy_put (fun _ => (0 : Word)) _ _ _ ((Tab.wf_iff _ _).1 c.ctrs)), c.guards, c.sculls, c.crews, c.ergs, c.tasks, c.rings, c.mbs, c.dunes, c.wakes, c.ports⟩, ⟨rfl, rfl, le_rfl, le_rfl, le_rfl, fun _ h => h, fun _ h => h, le_rfl⟩⟩

theorem Moves.upd_stateMb_mbQueue {s : State} {v : Option Nat} {w : List (Nat × MbCmd)} :
    Moves [.stateMb, .mbQueue] s { s with stateMb := v, mbQueue := w } :=
  ⟨fun p hp => by
    cases p <;> first | rfl | exact ⟨rfl, rfl⟩ | (intro _ _ _; rfl) | exact absurd (by decide) hp, fun c => ⟨c.mem, c.regs, c.ctrs, c.guards, c.sculls, c.crews, c.ergs, c.tasks, c.rings, c.mbs, c.dunes, c.wakes, c.ports⟩, ⟨rfl, rfl, le_rfl, le_rfl, le_rfl, fun _ h => h, fun _ h => h, le_rfl⟩⟩

theorem Moves.upd_cairn_stateMb {s : State} {v : Cairn} {w : Option Nat} :
    Moves [.cairn, .stateMb] s { s with cairn := v, stateMb := w } :=
  ⟨fun p hp => by
    cases p <;> first | rfl | exact ⟨rfl, rfl⟩ | (intro _ _ _; rfl) | exact absurd (by decide) hp, fun c => ⟨c.mem, c.regs, c.ctrs, c.guards, c.sculls, c.crews, c.ergs, c.tasks, c.rings, c.mbs, c.dunes, c.wakes, c.ports⟩, ⟨rfl, rfl, le_rfl, le_rfl, le_rfl, fun _ h => h, fun _ h => h, le_rfl⟩⟩

theorem Moves.upd_staged5_seeded {s : State} {v : Option Word} {w : List Nat} :
    Moves [.staged5, .seeded] s { s with staged5 := v, seeded := w } :=
  ⟨fun p hp => by
    cases p <;> first | rfl | exact ⟨rfl, rfl⟩ | (intro _ _ _; rfl) | exact absurd (by decide) hp, fun c => ⟨c.mem, c.regs, c.ctrs, c.guards, c.sculls, c.crews, c.ergs, c.tasks, c.rings, c.mbs, c.dunes, c.wakes, c.ports⟩, ⟨rfl, rfl, le_rfl, le_rfl, le_rfl, fun _ h => h, fun _ h => h, le_rfl⟩⟩

theorem Moves.upd_staged3_seeded {s : State} {v : Option (BitVec 64)} {w : List Nat} :
    Moves [.staged3, .seeded] s { s with staged3 := v, seeded := w } :=
  ⟨fun p hp => by
    cases p <;> first | rfl | exact ⟨rfl, rfl⟩ | (intro _ _ _; rfl) | exact absurd (by decide) hp, fun c => ⟨c.mem, c.regs, c.ctrs, c.guards, c.sculls, c.crews, c.ergs, c.tasks, c.rings, c.mbs, c.dunes, c.wakes, c.ports⟩, ⟨rfl, rfl, le_rfl, le_rfl, le_rfl, fun _ h => h, fun _ h => h, le_rfl⟩⟩

/-- A register changes: any register, or one of the two that count lost records. -/
theorem Moves.put_regs {s : State} {k : Nat} {v : Word} :
    Moves [.lossCounts, .regs] s { s with regs := Tab.put (resetAt k) s.regs k v } :=
  ⟨fun p hp => by
    cases p <;> first | rfl | exact ⟨rfl, rfl⟩ | (intro _ _ _; rfl) | exact absurd (by decide) hp,
    fun c => ⟨c.mem, Tab.okBy_put resetAt _ _ _ c.regs, c.ctrs, c.guards, c.sculls, c.crews, c.ergs, c.tasks, c.rings, c.mbs, c.dunes, c.wakes, c.ports⟩, ⟨rfl, rfl, le_rfl, le_rfl, le_rfl, fun _ h => h, fun _ h => h, le_rfl⟩⟩

theorem Moves.put_loss {s : State} {k : Nat} {v : Word} (hk : k = 0x264 ∨ k = 0x278) :
    Moves [.lossCounts] s { s with regs := Tab.put (resetAt k) s.regs k v } :=
  ⟨fun p hp => by
    cases p <;> first
      | rfl | exact ⟨rfl, rfl⟩
      | exact absurd (by decide) hp
      | exact fun off h1 h2 => Tab.get_put_of_ne _ _ _ _ _ _ (by rcases hk with rfl | rfl <;> simp_all [ne_comm]),
    fun c => ⟨c.mem, Tab.okBy_put resetAt _ _ _ c.regs, c.ctrs, c.guards, c.sculls, c.crews, c.ergs, c.tasks, c.rings, c.mbs, c.dunes, c.wakes, c.ports⟩, ⟨rfl, rfl, le_rfl, le_rfl, le_rfl, fun _ h => h, fun _ h => h, le_rfl⟩⟩

end Sys2Proof.Laws
end

