-- ==== Sys2Proof/Laws/Fields.lean ====
section
/-! SUPPORT. Fields of words: what a field reads as after it, or another, was set. -/

namespace Sys2Proof.Machine

open Sys2Proof.Laws Sys2Proof.Safety

/-- A number in three pieces: below a field, the field, above it. -/
theorem split_field (x lo n : Nat) :
    x = x % 2 ^ lo + x / 2 ^ lo % 2 ^ n * 2 ^ lo + x / 2 ^ (lo + n) * 2 ^ (lo + n) := by
  have h1 := Nat.div_add_mod x (2 ^ lo)
  have h2 := Nat.div_add_mod (x / 2 ^ lo) (2 ^ n)
  rw [Nat.div_div_eq_div_mul, ← Nat.pow_add] at h2
  have h3 : 2 ^ (lo + n) = 2 ^ lo * 2 ^ n := Nat.pow_add ..
  generalize x / 2 ^ (lo + n) = c at *
  generalize x / 2 ^ lo % 2 ^ n = b at *
  generalize x / 2 ^ lo = d at *
  subst h2
  rw [h3]
  generalize x % 2 ^ lo = a at *
  subst h1
  ring

/-- The word with a field replaced, as a number. -/
theorem setBits_toNat (w : Word) (lo n v : Nat) (h : lo + n ≤ 32) :
    (setBits w lo n v).toNat = w.toNat % 2 ^ lo + v % 2 ^ n * 2 ^ lo + w.toNat / 2 ^ (lo + n) * 2 ^ (lo + n) := by
  unfold setBits bits w32
  rw [BitVec.toNat_ofNat]
  have s := split_field w.toNat lo n
  have hw := w.isLt
  have e : w.toNat - w.toNat / 2 ^ lo % 2 ^ n * 2 ^ lo + v % 2 ^ n * 2 ^ lo =
      w.toNat % 2 ^ lo + v % 2 ^ n * 2 ^ lo + w.toNat / 2 ^ (lo + n) * 2 ^ (lo + n) := by omega
  rw [e]
  refine Nat.mod_eq_of_lt ?_
  have a : w.toNat % 2 ^ lo < 2 ^ lo := Nat.mod_lt _ (Nat.two_pow_pos _)
  have b : v % 2 ^ n < 2 ^ n := Nat.mod_lt _ (Nat.two_pow_pos _)
  have b2 : v % 2 ^ n * 2 ^ lo + 2 ^ lo ≤ 2 ^ n * 2 ^ lo := by
    have := Nat.mul_le_mul_right (2 ^ lo) (Nat.succ_le_of_lt b)
    rw [Nat.succ_mul] at this
    exact this
  have c : w.toNat / 2 ^ (lo + n) < 2 ^ (32 - (lo + n)) := by
    rw [Nat.div_lt_iff_lt_mul (Nat.two_pow_pos _), ← Nat.pow_add]
    rwa [show 32 - (lo + n) + (lo + n) = 32 by omega]
  have c2 : w.toNat / 2 ^ (lo + n) * 2 ^ (lo + n) + 2 ^ (lo + n) ≤ 2 ^ 32 := by
    have := Nat.mul_le_mul_right (2 ^ (lo + n)) (Nat.succ_le_of_lt c)
    rw [Nat.succ_mul, ← Nat.pow_add, show 32 - (lo + n) + (lo + n) = 32 by omega] at this
    exact this
  have d : 2 ^ (lo + n) = 2 ^ n * 2 ^ lo := by rw [Nat.pow_add, Nat.mul_comm]
  omega

/-- A field reads as what was set there. -/
theorem bits_setBits (w : Word) (lo n v : Nat) (h : lo + n ≤ 32) : bits (setBits w lo n v) lo n = v % 2 ^ n := by
  unfold bits
  rw [setBits_toNat _ _ _ _ h, Nat.pow_add, Nat.mul_comm (2 ^ lo) (2 ^ n), ← Nat.mul_assoc, Nat.add_assoc, ← Nat.add_mul,
    Nat.add_mul_div_right _ _ (Nat.two_pow_pos _), Nat.div_eq_of_lt (Nat.mod_lt _ (Nat.two_pow_pos _)), Nat.zero_add,
    Nat.add_mul_mod_self_right, Nat.mod_mod]

/-- A field below or above reads as before. -/
theorem bits_setBits_of_disjoint (w : Word) (lo n v lo' n' : Nat) (h : lo + n ≤ 32) (hd : lo' + n' ≤ lo ∨ lo + n ≤ lo') :
    bits (setBits w lo n v) lo' n' = bits w lo' n' := by
  unfold bits
  rw [setBits_toNat _ _ _ _ h]
  rcases hd with hd | hd
  · have k : ∀ x : Nat, x / 2 ^ lo' % 2 ^ n' = x % 2 ^ lo / 2 ^ lo' % 2 ^ n' := by
      intro x
      conv_rhs => rw [show lo = lo' + (lo - lo') by omega, Nat.pow_add, Nat.mod_mul_right_div_self]
      rw [Nat.mod_mod_of_dvd _ (pow_dvd_pow 2 (by omega))]
    rw [k, k w.toNat]
    congr 2
    rw [Nat.pow_add, Nat.mul_comm (2 ^ lo) (2 ^ n), ← Nat.mul_assoc, Nat.add_assoc, ← Nat.add_mul, Nat.add_mul_mod_self_right,
      Nat.mod_mod]
  · have k : ∀ x : Nat, x / 2 ^ lo' = x / 2 ^ (lo + n) / 2 ^ (lo' - (lo + n)) := by
      intro x
      rw [Nat.div_div_eq_div_mul, ← Nat.pow_add, show lo + n + (lo' - (lo + n)) = lo' by omega]
    rw [k, k w.toNat]
    congr 2
    rw [Nat.add_mul_div_right _ _ (Nat.two_pow_pos _), Nat.div_eq_of_lt, Nat.zero_add]
    have a : w.toNat % 2 ^ lo < 2 ^ lo := Nat.mod_lt _ (Nat.two_pow_pos _)
    have b : v % 2 ^ n < 2 ^ n := Nat.mod_lt _ (Nat.two_pow_pos _)
    have b2 := Nat.mul_le_mul_right (2 ^ lo) (Nat.succ_le_of_lt b)
    rw [Nat.succ_mul] at b2
    have d : 2 ^ (lo + n) = 2 ^ n * 2 ^ lo := by rw [Nat.pow_add, Nat.mul_comm]
    omega

/-- A register's field reads as what was set there. -/
theorem State.fld_setFld (s : State) (off lo n v : Nat) (c : regsOk s.regs) (h : lo + n ≤ 32) :
    (s.setFld off lo n v).fld off lo n = v % 2 ^ n := by
  unfold State.fld State.setFld
  rw [State.reg_setReg _ _ _ c, bits_setBits _ _ _ _ h]

/-- A disjoint field of the register reads as before. -/
theorem State.fld_setFld_of_disjoint (s : State) (off lo n v lo' n' : Nat) (c : regsOk s.regs) (h : lo + n ≤ 32)
    (hd : lo' + n' ≤ lo ∨ lo + n ≤ lo') : (s.setFld off lo n v).fld off lo' n' = s.fld off lo' n' := by
  unfold State.fld State.setFld
  rw [State.reg_setReg _ _ _ c, bits_setBits_of_disjoint _ _ _ _ _ _ h hd]

/-- Another register reads as before. -/
theorem State.reg_setFld_of_ne (s : State) (off lo n v j : Nat) (h : off ≠ j) : (s.setFld off lo n v).reg j = s.reg j :=
  State.reg_setReg_of_ne _ _ _ _ h

/-- A saturating counter. -/
theorem State.fld_bumpBy (s : State) (off lo n k : Nat) (c : regsOk s.regs) (h : lo + n ≤ 32) :
    (s.bumpBy off lo n k).fld off lo n = min (s.fld off lo n + k) (2 ^ n - 1) := by
  unfold State.bumpBy
  rw [State.fld_setFld _ _ _ _ _ c h, Nat.mod_eq_of_lt]
  have := Nat.two_pow_pos n
  omega

theorem State.reg_bumpBy_of_ne (s : State) (off lo n k j : Nat) (h : off ≠ j) : (s.bumpBy off lo n k).reg j = s.reg j :=
  State.reg_setReg_of_ne _ _ _ _ h

end Sys2Proof.Machine
end

