-- ==== Sys2Proof/Laws/FrameOps.lean ====
section
/-! SUPPORT. What the functions of Machine/Ops.lean may change. -/

set_option linter.unusedTactic false
set_option linter.unreachableTactic false
set_option linter.tactic.unusedName false

namespace Sys2Proof.Machine

open Sys2Proof.Laws Sys2Proof.Safety

theorem State.setByte_moves {s : State} {da : Nat} {b : Byte} : Moves [.mem] s (s.setByte da b) :=
  Moves.upd_mem fun h => Tab.okBy_put (fun _ => (0 : Byte)) _ _ _ ((Tab.wf_iff _ _).1 h.1)

theorem State.store_moves {s : State} {cs : List Cell} : Moves [.mem] s (s.store cs) :=
  Moves.upd_mem fun h => Tab.okBy_foldl_put _ _ _ ((Tab.wf_iff _ _).1 h.1)

theorem State.poisonWord_moves {s : State} {da : Nat} : Moves [.poison] s (s.poisonWord da) :=
  Moves.upd_poison fun h => insertSorted_sorted _ _ h.2

theorem State.poisonPiece_moves {s : State} {da : Nat} : Moves [.poison] s (s.poisonPiece da) :=
  Moves.upd_poison fun h => by
    simp only [List.foldr_cons, List.foldr_nil]
    exact insertSorted_sorted _ _ (insertSorted_sorted _ _ (insertSorted_sorted _ _ (insertSorted_sorted _ _ h.2)))

theorem State.clearPoison_moves {s : State} {lo hi : Nat} : Moves [.poison] s (s.clearPoison lo hi) :=
  Moves.upd_poison fun h => h.2.filter _

theorem State.seeHost_moves {s : State} {host : List Cell} :
    Moves [.mem] s (State.seeHost s host) := by
  unfold State.seeHost
  repeat' first
    | with_reducible apply Moves.refl
    | with_reducible assumption
    | (with_reducible apply Moves.step; (with_reducible first
        | apply State.store_moves); decide)

theorem State.setReg_moves {s : State} {off : Nat} {v : Word} :
    Moves [.lossCounts, .regs] s (State.setReg s off v) := by
  unfold State.setReg
  repeat' first
    | with_reducible apply Moves.refl
    | with_reducible assumption
    | (with_reducible apply Moves.step; (with_reducible apply Moves.put_regs); decide)

theorem State.setFld_moves {s : State} {off : Nat} {lo : Nat} {n : Nat} {v : Nat} :
    Moves [.lossCounts, .regs] s (State.setFld s off lo n v) := by
  unfold State.setFld
  repeat' first
    | with_reducible apply Moves.refl
    | with_reducible assumption
    | (with_reducible apply Moves.step; (with_reducible first
        | apply State.setReg_moves); decide)

theorem State.bumpBy_moves {s : State} {off : Nat} {lo : Nat} {n : Nat} {k : Nat} :
    Moves [.lossCounts, .regs] s (State.bumpBy s off lo n k) := by
  unfold State.bumpBy
  repeat' first
    | with_reducible apply Moves.refl
    | with_reducible assumption
    | (with_reducible apply Moves.step; (with_reducible first
        | apply State.setFld_moves); decide)

theorem State.bump_moves {s : State} {off : Nat} {lo : Nat} {n : Nat} :
    Moves [.lossCounts, .regs] s (State.bump s off lo n) := by
  unfold State.bump
  repeat' first
    | with_reducible apply Moves.refl
    | with_reducible assumption
    | (with_reducible apply Moves.step; (with_reducible first
        | apply State.bumpBy_moves); decide)

theorem State.bump64_moves {s : State} {off : Nat} {k : Nat} :
    Moves [.lossCounts, .regs] s (State.bump64 s off k) := by
  unfold State.bump64
  repeat' first
    | with_reducible apply Moves.refl
    | with_reducible assumption
    | (extract_lets -useContext -merge -underBinder +onlyGivenNames x; with_reducible apply Moves.cut (x := x); pick_goal 2; dsimp only [x]; clear x; pick_goal 2; clear_value x; intro hx)
    | (extract_lets -useContext -merge -underBinder +onlyGivenNames x; skip)
    | (with_reducible apply Moves.step; (with_reducible first
        | apply State.setReg_moves); decide)

theorem State.stick_moves {s : State} {off : Nat} {v : Nat} :
    Moves [.lossCounts, .regs] s (State.stick s off v) := by
  unfold State.stick
  repeat' first
    | with_reducible apply Moves.refl
    | with_reducible assumption
    | (with_reducible apply Moves.step; (with_reducible first
        | apply State.setReg_moves); decide)

theorem State.setScull_moves {s : State} {k : Nat} {v : Scull} :
    Moves [.sculls] s (State.setScull s k v) := by
  unfold State.setScull
  repeat' first
    | with_reducible apply Moves.refl
    | with_reducible assumption
    | (with_reducible apply Moves.step; (with_reducible apply Moves.put_sculls); decide)

theorem State.setCrew_moves {s : State} {c : Nat} {v : Crew} :
    Moves [.crews] s (State.setCrew s c v) := by
  unfold State.setCrew
  repeat' first
    | with_reducible apply Moves.refl
    | with_reducible assumption
    | (with_reducible apply Moves.step; (with_reducible apply Moves.put_crews); decide)

theorem State.setErg_moves {s : State} {d : Nat} {v : Erg} :
    Moves [.ergs] s (State.setErg s d v) := by
  unfold State.setErg
  repeat' first
    | with_reducible apply Moves.refl
    | with_reducible assumption
    | (with_reducible apply Moves.step; (with_reducible apply Moves.put_ergs); decide)

theorem State.setTask_moves {s : State} {t : Nat} {v : Task} :
    Moves [.tasks] s (State.setTask s t v) := by
  unfold State.setTask
  repeat' first
    | with_reducible apply Moves.refl
    | with_reducible assumption
    | (with_reducible apply Moves.step; (with_reducible apply Moves.put_tasks); decide)

theorem State.setRing_moves {s : State} {q : Nat} {v : Ring} :
    Moves [.rings] s (State.setRing s q v) := by
  unfold State.setRing
  repeat' first
    | with_reducible apply Moves.refl
    | with_reducible assumption
    | (with_reducible apply Moves.step; (with_reducible apply Moves.put_rings); decide)

theorem State.setMb_moves {s : State} {m : Nat} {v : Mailbox} :
    Moves [.mbs] s (State.setMb s m v) := by
  unfold State.setMb
  repeat' first
    | with_reducible apply Moves.refl
    | with_reducible assumption
    | (with_reducible apply Moves.step; (with_reducible apply Moves.put_mbs); decide)

theorem State.setDune_moves {s : State} {n : Nat} {v : Stack} :
    Moves [.dunes] s (State.setDune s n v) := by
  unfold State.setDune
  repeat' first
    | with_reducible apply Moves.refl
    | with_reducible assumption
    | (with_reducible apply Moves.step; (with_reducible apply Moves.put_dunes); decide)

theorem State.setWake_moves {s : State} {w : Nat} {v : Wake} :
    Moves [.wakes] s (State.setWake s w v) := by
  unfold State.setWake
  repeat' first
    | with_reducible apply Moves.refl
    | with_reducible assumption
    | (with_reducible apply Moves.step; (with_reducible apply Moves.put_wakes); decide)

theorem State.setPort_moves {s : State} {p : Nat} {v : Port} :
    Moves [.ports] s (State.setPort s p v) := by
  unfold State.setPort
  repeat' first
    | with_reducible apply Moves.refl
    | with_reducible assumption
    | (with_reducible apply Moves.step; (with_reducible apply Moves.put_ports); decide)

theorem State.setCtr_moves {s : State} {n : Nat} {v : Word} :
    Moves [.ctrs] s (State.setCtr s n v) := by
  unfold State.setCtr
  repeat' first
    | with_reducible apply Moves.refl
    | with_reducible assumption
    | (with_reducible apply Moves.step; (with_reducible apply Moves.put_ctrs); decide)

theorem State.setTensor_moves {s : State} {i : Nat} {v : Tensor} :
    Moves [.tier] s (State.setTensor s i v) := by
  unfold State.setTensor
  repeat' first
    | with_reducible apply Moves.refl
    | with_reducible assumption
    | (with_reducible apply Moves.step; (with_reducible apply Moves.upd_tier); decide)

theorem State.raise_moves {s : State} {v : Nat} : Moves [.sent, .vecPend] s (s.raise v) := by
  unfold State.raise
  split
  · exact Moves.refl _ _
  · split
    · exact ⟨fun p hp => by
        cases p <;> first | rfl | exact ⟨rfl, rfl⟩ | (intro _ _ _; rfl) | exact absurd (by decide) hp,
        fun c => ⟨c.mem, c.regs, c.ctrs, c.guards, c.sculls, c.crews, c.ergs, c.tasks, c.rings, c.mbs, c.dunes, c.wakes, c.ports⟩, ⟨rfl, rfl, le_rfl, le_rfl, le_rfl, fun _ h => h, fun _ h => h, le_rfl⟩⟩
    · exact Moves.upd_tx.mono (by decide)

theorem State.raiseReg_moves {s : State} {off : Nat} {en : Nat} :
    Moves [.sent, .vecPend] s (State.raiseReg s off en) := by
  unfold State.raiseReg
  repeat' first
    | with_reducible apply Moves.refl
    | with_reducible assumption
    | with_reducible apply Moves.ite
    | (with_reducible apply Moves.step; (with_reducible first
        | apply State.raise_moves); decide)
    | split

/-- The counters of lost and of suppressed records. -/
theorem State.bump_loss_moves {s : State} {off lo n : Nat} (h : off = 0x264 ∨ off = 0x278) :
    Moves [.lossCounts] s (s.bump off lo n) :=
  Moves.put_loss h

/-- A record enters the log, and the reserved range of numbers may grow. -/
theorem Moves.upd_record {s : State} {l : Log} {v : Nv} (h : v = { s.nv with reserved := v.reserved }) :
    Moves [.log, .reserved] s { s with log := l, nv := v } :=
  ⟨fun p hp => by
    cases p <;> first
      | rfl | exact ⟨rfl, rfl⟩ | (intro _ _ _; rfl) | exact absurd (by decide) hp
      | (show v.variant = _ ∧ v.serial = _; rw [h]; exact ⟨rfl, rfl⟩)
      | (show v.lifecycle = _ ∧ v.lcUsed = _; rw [h]; exact ⟨rfl, rfl⟩)
      | (simp only [Part.same]; rw [h]),
    fun c => ⟨c.mem, c.regs, c.ctrs, c.guards, c.sculls, c.crews, c.ergs, c.tasks, c.rings, c.mbs, c.dunes, c.wakes, c.ports⟩,
    ⟨by show v.variant = _; rw [h], by show v.serial = _; rw [h], by show _ ≤ v.minSvn; rw [h], by show _ ≤ v.floors; rw [h],
      by show _ ≤ v.lcUsed; rw [h], by show ∀ k ∈ _, k ∈ v.revoked; rw [h]; exact fun _ h => h,
      by show ∀ k ∈ _, k ∈ v.fused; rw [h]; exact fun _ h => h, le_rfl⟩⟩

theorem State.writeRec_moves {s : State} {cls ident sev code : Nat} {st : Status} {pl : List Word} :
    Moves [.sent, .reserved, .log, .lossCounts, .vecPend] s (s.writeRec cls ident sev code st pl) := by
  unfold State.writeRec
  extract_lets l r0 r full old gone l' src nv s1 s2
  have h1 : Moves [.sent, .reserved, .log, .lossCounts, .vecPend] s s1 :=
    (Moves.upd_record (by show nv = _; simp only [nv]; split <;> rfl)).mono (by decide)
  have h2 : Moves [.sent, .reserved, .log, .lossCounts, .vecPend] s s2 := by
    simp only [s2]
    split
    · exact h1.via (State.bump_loss_moves (.inl rfl)) (by decide)
    · exact h1
  split
  · exact h2.via State.raise_moves (by decide)
  · exact h2

theorem State.reportLoss_moves {s : State} :
    Moves [.sent, .reserved, .log, .lossCounts, .vecPend] s (State.reportLoss s) := by
  unfold State.reportLoss
  repeat' first
    | with_reducible apply Moves.refl
    | with_reducible assumption
    | (extract_lets -useContext -merge -underBinder +onlyGivenNames x; with_reducible apply Moves.cut (x := x); pick_goal 2; dsimp only [x]; clear x; pick_goal 2; clear_value x; intro hx)
    | (extract_lets -useContext -merge -underBinder +onlyGivenNames x; skip)
    | with_reducible apply Moves.ite
    | (with_reducible apply Moves.step; (with_reducible first
        | apply State.writeRec_moves); decide)
    | split
    | (clear_value *; split)
    | (with_reducible apply Moves.step; (with_reducible apply Moves.upd_log); decide)

theorem State.record_moves {s : State} {cls : Nat} {ident : Nat} {sev : Nat} {code : Nat} {st : Status} {pl : List Word} :
    Moves [.sent, .reserved, .log, .lossCounts, .vecPend] s (State.record s cls ident sev code st pl) := by
  unfold State.record
  repeat' first
    | with_reducible apply Moves.refl
    | with_reducible assumption
    | (extract_lets -useContext -merge -underBinder +onlyGivenNames x; with_reducible apply Moves.cut (x := x); pick_goal 2; dsimp only [x]; clear x; pick_goal 2; clear_value x; intro hx)
    | (extract_lets -useContext -merge -underBinder +onlyGivenNames x; skip)
    | with_reducible apply Moves.ite
    | (with_reducible apply Moves.step; (with_reducible first
        | apply State.writeRec_moves); decide)
    | split
    | (clear_value *; split)
    | (with_reducible apply Moves.step; (with_reducible apply Moves.upd_log); decide)

theorem State.openBoot_moves {s : State} : Moves (logged []) s s.openBoot := by
  unfold State.openBoot
  extract_lets src s1 n lo from_ last src2 src3 s2
  have h1 : Moves (logged []) s s1 :=
    ⟨fun p hp => by
      cases p <;> first | rfl | exact ⟨rfl, rfl⟩ | (intro _ _ _; rfl) | exact absurd (by decide) hp,
      fun c => ⟨c.mem, c.regs, c.ctrs, c.guards, c.sculls, c.crews, c.ergs, c.tasks, c.rings, c.mbs, c.dunes, c.wakes, c.ports⟩, ⟨rfl, rfl, le_rfl, le_rfl, le_rfl, fun _ h => h, fun _ h => h, le_rfl⟩⟩
  have h2 : Moves (logged []) s s2 := by
    dsimp only [s2]
    split
    · exact h1.via State.record_moves (by decide)
    · exact (h1.via (Moves.upd_record (by rfl)) (by decide)).via State.record_moves (by decide)
  exact h2.via State.record_moves (by decide)

theorem State.emit_moves {s : State} {cls ident sev code : Nat} {st : Status} {pl : List Word} :
    Moves (logged []) s (s.emit cls ident sev code st pl) := by
  unfold State.emit
  extract_lets s1 s2 ws src
  have h1 : Moves (logged []) s s1 := by
    simp only [s1]
    split
    · exact Moves.refl _ _
    · exact State.openBoot_moves
  have h2 : Moves (logged []) s s2 := h1.via State.reportLoss_moves (by decide)
  split
  · exact (h2.via Moves.upd_log (by decide)).via (State.bump_loss_moves (.inr rfl)) (by decide)
  · exact h2.via State.record_moves (by decide)

theorem State.emitUnit_moves {s : State} {kind : Nat} {index : Nat} {sev : Nat} {code : Nat} {st : Status} {pl : List Word} :
    Moves (logged []) s (State.emitUnit s kind index sev code st pl) := by
  unfold State.emitUnit
  repeat' first
    | with_reducible apply Moves.refl
    | with_reducible assumption
    | (with_reducible apply Moves.step; (with_reducible first
        | apply State.emit_moves); decide)

theorem State.emitFw_moves {s : State} {sev : Nat} {code : Nat} {st : Status} {pl : List Word} :
    Moves (logged []) s (State.emitFw s sev code st pl) := by
  unfold State.emitFw
  repeat' first
    | with_reducible apply Moves.refl
    | with_reducible assumption
    | (with_reducible apply Moves.step; (with_reducible first
        | apply State.emit_moves); decide)

theorem State.closeWindow_moves {s : State} {i : Nat} :
    Moves (logged []) s (State.closeWindow s i) := by
  unfold State.closeWindow
  repeat' first
    | with_reducible apply Moves.refl
    | with_reducible assumption
    | (extract_lets -useContext -merge -underBinder +onlyGivenNames x; with_reducible apply Moves.cut (x := x); pick_goal 2; dsimp only [x]; clear x; pick_goal 2; clear_value x; intro hx)
    | (extract_lets -useContext -merge -underBinder +onlyGivenNames x; skip)
    | with_reducible apply Moves.ite
    | (with_reducible apply Moves.step; (with_reducible first
        | apply State.emit_moves); decide)
    | split
    | (clear_value *; split)
    | (with_reducible apply Moves.step; (with_reducible apply Moves.upd_log); decide)

theorem State.logWrite_moves {s : State} {req : Requester} {off : Nat} {old : Word} {new : Word} :
    Moves (logged []) s (State.logWrite s req off old new) := by
  unfold State.logWrite
  repeat' first
    | with_reducible apply Moves.refl
    | with_reducible assumption
    | with_reducible apply Moves.ite
    | (with_reducible apply Moves.step; (with_reducible first
        | apply State.emit_moves); decide)
    | split

theorem State.logRefused_moves {s : State} {req : Requester} {off : Nat} {st : Status} {held : Word} {tried : Word} :
    Moves (logged []) s (State.logRefused s req off st held tried) := by
  unfold State.logRefused
  repeat' first
    | with_reducible apply Moves.refl
    | with_reducible assumption
    | (with_reducible apply Moves.step; (with_reducible first
        | apply State.emit_moves); decide)

theorem State.setDev_moves {s : State} {d : DevState} {cause : Nat} :
    Moves (logged [.dev]) s (State.setDev s d cause) := by
  unfold State.setDev
  repeat' first
    | with_reducible apply Moves.refl
    | with_reducible assumption
    | (extract_lets -useContext -merge -underBinder +onlyGivenNames x; with_reducible apply Moves.cut (x := x); pick_goal 2; dsimp only [x]; clear x; pick_goal 2; clear_value x; intro hx)
    | (extract_lets -useContext -merge -underBinder +onlyGivenNames x; skip)
    | (with_reducible apply Moves.step; (with_reducible first
        | apply State.raiseReg_moves | apply State.emit_moves | apply State.emitFw_moves); decide)
    | split
    | (clear_value *; split)
    | (with_reducible apply Moves.step; (with_reducible apply Moves.upd_dev); decide)

theorem State.delayStart_moves {s : State} {kind : StartKind} {row : Nat} {due : Nat} {retry : Bool} :
    Moves [.start] s (State.delayStart s kind row due retry) := by
  unfold State.delayStart
  repeat' first
    | with_reducible apply Moves.refl
    | with_reducible assumption
    | with_reducible apply Moves.ite
    | split
    | (with_reducible apply Moves.step; (with_reducible exact Moves.upd_start rfl); decide)

theorem State.draw_moves {s : State} {w : Word} {t : State} (h : s.draw = (w, t)) : Moves [.fresh] s t := by
  obtain ⟨-, rfl⟩ := Prod.mk.inj h
  exact Moves.upd_fresh

theorem State.draw_snd {s : State} : Moves [.fresh] s s.draw.2 := State.draw_moves (w := s.draw.1) rfl

end Sys2Proof.Machine
end

