-- ==== Sys2Proof/Laws/FrameAccess.lean ====
section
/-! SUPPORT. What the functions of Machine/Access.lean may change. -/

set_option linter.unusedTactic false
set_option linter.unreachableTactic false
set_option linter.tactic.unusedName false

namespace Sys2Proof.Machine

open Sys2Proof.Laws Sys2Proof.Safety

theorem State.regTimeout_moves {s : State} {req : Requester} {off : Nat} {v : Word} :
    Moves (logged [.regs]) s (State.regTimeout s req off v) := by
  unfold State.regTimeout
  repeat' first
    | with_reducible apply Moves.refl
    | with_reducible assumption
    | (with_reducible apply Moves.step; (with_reducible first
        | apply State.bump_moves | apply State.logRefused_moves); decide)

theorem State.unmapped_moves {s : State} :
    Moves [.lossCounts, .regs] s (State.unmapped s) := by
  unfold State.unmapped
  repeat' first
    | with_reducible apply Moves.refl
    | with_reducible assumption
    | (with_reducible apply Moves.step; (with_reducible first
        | apply State.bump_moves); decide)

theorem State.reach_moves {ps : List Part} {a : State} {s : State} {req : Requester} {go : State → State}
    (hk : partsIn [.lossCounts, .regs] ps = true)
    (hg : ∀ s, Moves ps a s → Moves ps a (go s)) (h : Moves ps a s) : Moves ps a (State.reach s req go) := by
  unfold State.reach
  repeat' first
    | with_reducible assumption
    | with_reducible apply Moves.ite
    | with_reducible apply hg
    | (with_reducible apply Moves.step; (with_reducible first
        | apply State.bump_moves); exact partsIn_trans (by decide) hk)
    | split

theorem State.onReg_moves {ps : List Part} {a : State} {s : State} {req : Requester} {off : Nat} {v : Word} {go : State → State}
    (hk : partsIn (logged [.regs]) ps = true)
    (hg : ∀ s, Moves ps a s → Moves ps a (go s)) (h : Moves ps a s) : Moves ps a (State.onReg s req off v go) := by
  unfold State.onReg
  repeat' first
    | with_reducible assumption
    | with_reducible apply Moves.ite
    | with_reducible apply hg
    | (with_reducible apply State.reach_moves; exact partsIn_trans (by decide) hk; intro _ _)
    | (with_reducible apply Moves.step; (with_reducible first
        | apply State.regTimeout_moves); exact partsIn_trans (by decide) hk)
    | split

theorem State.takeReg_moves {s : State} {req : Requester} {off : Nat} {old : Word} {new : Word} {logged0 : Word} :
    Moves (logged [.regs]) s (State.takeReg s req off old new logged0) := by
  unfold State.takeReg
  repeat' first
    | with_reducible apply Moves.refl
    | with_reducible assumption
    | (with_reducible apply Moves.step; (with_reducible first
        | apply State.setReg_moves | apply State.logWrite_moves); decide)

theorem State.checked_moves {ps : List Part} {a : State} {s : State} {req : Requester} {off : Nat} {v : Word} {go : State → State}
    (hk : partsIn (logged [.regs]) ps = true)
    (hg : ∀ s, Moves ps a s → Moves ps a (go s)) (h : Moves ps a s) : Moves ps a (State.checked s req off v go) := by
  unfold State.checked
  repeat' first
    | with_reducible assumption
    | (extract_lets -useContext -merge -underBinder +onlyGivenNames x; with_reducible apply Moves.cut (x := x); pick_goal 2; dsimp only [x]; clear x; pick_goal 2; clear_value x; intro hx)
    | (extract_lets -useContext -merge -underBinder +onlyGivenNames x; skip)
    | with_reducible apply Moves.ite
    | with_reducible apply hg
    | (with_reducible apply Moves.step; (with_reducible first
        | apply State.unmapped_moves | apply State.logRefused_moves); exact partsIn_trans (by decide) hk)
    | split
    | (clear_value *; split)

theorem State.writePlain_moves {s : State} {req : Requester} {off : Nat} {v : Word} :
    Moves (logged [.regs]) s (State.writePlain s req off v) := by
  unfold State.writePlain
  repeat' first
    | with_reducible apply Moves.refl
    | with_reducible assumption
    | (extract_lets -useContext -merge -underBinder +onlyGivenNames x; with_reducible apply Moves.cut (x := x); pick_goal 2; dsimp only [x]; clear x; pick_goal 2; clear_value x; intro hx)
    | (extract_lets -useContext -merge -underBinder +onlyGivenNames x; skip)
    | (with_reducible apply State.checked_moves; decide; intro _ _)
    | (with_reducible apply Moves.step; (with_reducible first
        | apply State.takeReg_moves); decide)
    | split
    | (clear_value *; split)

end Sys2Proof.Machine
end

