-- ==== Sys2Proof/Laws/FrameDune.lean ====
section
/-! SUPPORT. What the functions of Machine/Dune.lean may change. -/

set_option linter.unusedTactic false
set_option linter.unreachableTactic false
set_option linter.tactic.unusedName false

namespace Sys2Proof.Machine

open Sys2Proof.Laws Sys2Proof.Safety

theorem State.freshPiece_moves {s : State} {p : Nat} :
    Moves [.poison, .dunes] s (State.freshPiece s p) := by
  unfold State.freshPiece
  repeat' first
    | with_reducible apply Moves.refl
    | with_reducible assumption
    | (extract_lets -useContext -merge -underBinder +onlyGivenNames x; with_reducible apply Moves.cut (x := x); pick_goal 2; dsimp only [x]; clear x; pick_goal 2; clear_value x; intro hx)
    | (extract_lets -useContext -merge -underBinder +onlyGivenNames x; skip)
    | with_reducible apply Moves.ite
    | (with_reducible apply Moves.step; (with_reducible first
        | apply State.clearPoison_moves | apply State.setDune_moves); decide)
    | split
    | (clear_value *; split)

theorem State.writeEntry_moves {s : State} {n : Nat} {ue : List Nat} {e : WcbEntry} :
    Moves (logged [.regs, .poison, .dunes]) s (State.writeEntry s n ue e) := by
  unfold State.writeEntry
  repeat' first
    | with_reducible apply Moves.refl
    | with_reducible assumption
    | (extract_lets -useContext -merge -underBinder +onlyGivenNames x; with_reducible apply Moves.cut (x := x); pick_goal 2; dsimp only [x]; clear x; pick_goal 2; clear_value x; intro hx)
    | (extract_lets -useContext -merge -underBinder +onlyGivenNames x; skip)
    | with_reducible apply Moves.ite
    | (with_reducible apply Moves.step; (with_reducible first
        | apply State.freshPiece_moves | apply State.poisonPiece_moves | apply State.bump_moves
        | apply State.setDune_moves | apply State.emitUnit_moves); decide)
    | (with_reducible apply Moves.foldl; intro _ _ _)
    | split
    | (clear_value *; split)

theorem State.flushEntry_moves {s : State} {n : Nat} {e : WcbEntry} :
    Moves (logged [.regs, .poison, .dunes]) s (State.flushEntry s n e) := by
  unfold State.flushEntry
  repeat' first
    | with_reducible apply Moves.refl
    | with_reducible assumption
    | (with_reducible apply Moves.step; (with_reducible first
        | apply State.writeEntry_moves); decide)

theorem State.flushWcb_moves {s : State} {n : Nat} :
    Moves (logged [.regs, .poison, .dunes]) s (State.flushWcb s n) := by
  unfold State.flushWcb
  repeat' first
    | with_reducible apply Moves.refl
    | with_reducible assumption
    | (with_reducible apply Moves.step; (with_reducible first
        | apply State.flushEntry_moves); decide)
    | (with_reducible apply Moves.foldl; intro _ _ _)

theorem State.mergeWcb_moves {s : State} {n : Nat} {line : Nat} {cs : List Cell} :
    Moves (logged [.regs, .poison, .dunes]) s (State.mergeWcb s n line cs) := by
  unfold State.mergeWcb
  repeat' first
    | with_reducible apply Moves.refl
    | with_reducible assumption
    | (extract_lets -useContext -merge -underBinder +onlyGivenNames x; with_reducible apply Moves.cut (x := x); pick_goal 2; dsimp only [x]; clear x; pick_goal 2; clear_value x; intro hx)
    | (extract_lets -useContext -merge -underBinder +onlyGivenNames x; skip)
    | with_reducible apply Moves.ite
    | (with_reducible apply Moves.step; (with_reducible first
        | apply State.flushEntry_moves | apply State.bump_moves | apply State.setDune_moves); decide)
    | split
    | (clear_value *; split)

theorem State.duneWriteLine_moves {s : State} {key : Word} {line : Nat} {cs : List Cell} :
    Moves (logged [.regs, .mem, .poison, .dunes]) s (State.duneWriteLine s key line cs) := by
  unfold State.duneWriteLine
  repeat' first
    | with_reducible apply Moves.refl
    | with_reducible assumption
    | (extract_lets -useContext -merge -underBinder +onlyGivenNames x; with_reducible apply Moves.cut (x := x); pick_goal 2; dsimp only [x]; clear x; pick_goal 2; clear_value x; intro hx)
    | (extract_lets -useContext -merge -underBinder +onlyGivenNames x; skip)
    | with_reducible apply Moves.ite
    | (with_reducible apply Moves.step; (with_reducible first
        | apply State.freshPiece_moves | apply State.mergeWcb_moves | apply State.store_moves
        | apply State.bumpBy_moves | apply State.bump64_moves | apply State.emitUnit_moves); decide)
    | (with_reducible apply Moves.foldl; intro _ _ _)
    | split
    | (clear_value *; split)

theorem State.countServed_moves {s : State} {da : Nat} {n : Nat} {narrow : Nat} :
    Moves [.lossCounts, .regs] s (State.countServed s da n narrow) := by
  unfold State.countServed
  repeat' first
    | with_reducible apply Moves.refl
    | with_reducible assumption
    | (extract_lets -useContext -merge -underBinder +onlyGivenNames x; with_reducible apply Moves.cut (x := x); pick_goal 2; dsimp only [x]; clear x; pick_goal 2; clear_value x; intro hx)
    | (extract_lets -useContext -merge -underBinder +onlyGivenNames x; skip)
    | with_reducible apply Moves.ite
    | (with_reducible apply Moves.step; (with_reducible first
        | apply State.bumpBy_moves | apply State.bump64_moves); decide)
    | split
    | (clear_value *; split)

theorem State.countRead_moves {s : State} {da : Nat} {n : Nat} :
    Moves [.lossCounts, .regs] s (State.countRead s da n) := by
  unfold State.countRead
  repeat' first
    | with_reducible apply Moves.refl
    | with_reducible assumption
    | (with_reducible apply Moves.step; (with_reducible first
        | apply State.countServed_moves); decide)

theorem State.countNarrow_moves {s : State} {da : Nat} {n : Nat} :
    Moves [.lossCounts, .regs] s (State.countNarrow s da n) := by
  unfold State.countNarrow
  repeat' first
    | with_reducible apply Moves.refl
    | with_reducible assumption
    | (with_reducible apply Moves.step; (with_reducible first
        | apply State.countServed_moves); decide)

theorem State.emitChan_moves {s : State} {n : Nat} {lchan : Nat} {sev : Nat} {code : Nat} {st : Status} {pl : List Word} :
    Moves (logged []) s (State.emitChan s n lchan sev code st pl) := by
  unfold State.emitChan
  repeat' first
    | with_reducible apply Moves.refl
    | with_reducible assumption
    | (with_reducible apply Moves.step; (with_reducible first
        | apply State.emitUnit_moves); decide)

theorem State.remapRow_moves {s : State} {n : Nat} {lchan : Nat} {bank : Nat} {row : Nat} :
    Moves (logged [.nv, .regs, .dunes]) s (State.remapRow s n lchan bank row) := by
  unfold State.remapRow
  repeat' first
    | with_reducible apply Moves.refl
    | with_reducible assumption
    | (extract_lets -useContext -merge -underBinder +onlyGivenNames x; with_reducible apply Moves.cut (x := x); pick_goal 2; dsimp only [x]; clear x; pick_goal 2; clear_value x; intro hx)
    | (extract_lets -useContext -merge -underBinder +onlyGivenNames x; skip)
    | with_reducible apply Moves.ite
    | (with_reducible apply Moves.step; (with_reducible first
        | apply State.emitChan_moves | apply State.bump_moves | apply State.setDune_moves); decide)
    | split
    | (clear_value *; split)
    | (with_reducible apply Moves.step; (with_reducible exact Moves.upd_nv rfl rfl rfl rfl rfl le_rfl le_rfl (fun _ h => h) (fun _ h => h)); decide)

theorem State.duneCorrected_moves {s : State} {n : Nat} {o : Nat} :
    Moves (logged [.nv, .regs, .dunes]) s (State.duneCorrected s n o) := by
  unfold State.duneCorrected
  repeat' first
    | with_reducible apply Moves.refl
    | with_reducible assumption
    | (extract_lets -useContext -merge -underBinder +onlyGivenNames x; with_reducible apply Moves.cut (x := x); pick_goal 2; dsimp only [x]; clear x; pick_goal 2; clear_value x; intro hx)
    | (extract_lets -useContext -merge -underBinder +onlyGivenNames x; skip)
    | with_reducible apply Moves.ite
    | (with_reducible apply Moves.step; (with_reducible first
        | apply State.remapRow_moves | apply State.bump_moves | apply State.setDune_moves); decide)
    | split
    | (clear_value *; split)

theorem State.channelFail_moves {s : State} {n : Nat} {lchan : Nat} :
    Moves (logged [.nv, .dunes]) s (State.channelFail s n lchan) := by
  unfold State.channelFail
  repeat' first
    | with_reducible apply Moves.refl
    | with_reducible assumption
    | (extract_lets -useContext -merge -underBinder +onlyGivenNames x; with_reducible apply Moves.cut (x := x); pick_goal 2; dsimp only [x]; clear x; pick_goal 2; clear_value x; intro hx)
    | (extract_lets -useContext -merge -underBinder +onlyGivenNames x; skip)
    | with_reducible apply Moves.ite
    | (with_reducible apply Moves.step; (with_reducible first
        | apply State.emitChan_moves | apply State.setDune_moves | apply State.raiseReg_moves); decide)
    | split
    | (clear_value *; split)
    | (with_reducible apply Moves.step; (with_reducible exact Moves.upd_nv rfl rfl rfl rfl rfl le_rfl le_rfl (fun _ h => h) (fun _ h => h)); decide)

theorem State.duneUncorrectable_moves {s : State} {n : Nat} {o : Nat} :
    Moves (logged [.nv, .regs, .poison, .dunes]) s (State.duneUncorrectable s n o) := by
  unfold State.duneUncorrectable
  repeat' first
    | with_reducible apply Moves.refl
    | with_reducible assumption
    | (extract_lets -useContext -merge -underBinder +onlyGivenNames x; with_reducible apply Moves.cut (x := x); pick_goal 2; dsimp only [x]; clear x; pick_goal 2; clear_value x; intro hx)
    | (extract_lets -useContext -merge -underBinder +onlyGivenNames x; skip)
    | with_reducible apply Moves.ite
    | (with_reducible apply Moves.step; (with_reducible first
        | apply State.channelFail_moves | apply State.poisonPiece_moves | apply State.setReg_moves
        | apply State.bump_moves | apply State.setDune_moves | apply State.emitUnit_moves); decide)
    | split
    | (clear_value *; split)

theorem State.parityError_moves {s : State} {n : Nat} {lchan : Nat} :
    Moves (logged [.nv, .dunes]) s (State.parityError s n lchan) := by
  unfold State.parityError
  repeat' first
    | with_reducible apply Moves.refl
    | with_reducible assumption
    | (extract_lets -useContext -merge -underBinder +onlyGivenNames x; with_reducible apply Moves.cut (x := x); pick_goal 2; dsimp only [x]; clear x; pick_goal 2; clear_value x; intro hx)
    | (extract_lets -useContext -merge -underBinder +onlyGivenNames x; skip)
    | with_reducible apply Moves.ite
    | (with_reducible apply Moves.step; (with_reducible first
        | apply State.channelFail_moves | apply State.setDune_moves); decide)
    | split
    | (clear_value *; split)

theorem State.parityGood_moves {s : State} {n : Nat} {lchan : Nat} :
    Moves [.dunes] s (State.parityGood s n lchan) := by
  unfold State.parityGood
  repeat' first
    | with_reducible apply Moves.refl
    | with_reducible assumption
    | (extract_lets -useContext -merge -underBinder +onlyGivenNames x; with_reducible apply Moves.cut (x := x); pick_goal 2; dsimp only [x]; clear x; pick_goal 2; clear_value x; intro hx)
    | (extract_lets -useContext -merge -underBinder +onlyGivenNames x; skip)
    | (with_reducible apply Moves.step; (with_reducible first
        | apply State.setDune_moves); decide)

theorem State.scrubPiece_moves {s : State} {n : Nat} {o : Nat} {c : PieceCheck} :
    Moves (logged [.nv, .regs, .poison, .dunes]) s (State.scrubPiece s n o c) := by
  unfold State.scrubPiece
  repeat' first
    | with_reducible apply Moves.refl
    | with_reducible assumption
    | (extract_lets -useContext -merge -underBinder +onlyGivenNames x; with_reducible apply Moves.cut (x := x); pick_goal 2; dsimp only [x]; clear x; pick_goal 2; clear_value x; intro hx)
    | (extract_lets -useContext -merge -underBinder +onlyGivenNames x; skip)
    | with_reducible apply Moves.ite
    | (with_reducible apply Moves.step; (with_reducible first
        | apply State.duneCorrected_moves | apply State.duneUncorrectable_moves | apply State.parityError_moves
        | apply State.parityGood_moves | apply State.bump_moves); decide)
    | split
    | (clear_value *; split)

theorem State.dropStack_moves {s : State} {n : Nat} : Moves [.mem, .poison] s (s.dropStack n) :=
  Moves.upd_memory fun h => ⟨Tab.okBy_filter _ _ _ ((Tab.wf_iff _ _).1 h.1), h.2.filter _⟩

theorem State.flushFound_moves {s : State} {n : Nat} {found : List (Nat × PieceCheck)} {e : WcbEntry} :
    Moves (logged [.nv, .regs, .poison, .dunes]) s (State.flushFound s n found e) := by
  unfold State.flushFound
  repeat' first
    | with_reducible apply Moves.refl
    | with_reducible assumption
    | (extract_lets -useContext -merge -underBinder +onlyGivenNames x; with_reducible apply Moves.cut (x := x); pick_goal 2; dsimp only [x]; clear x; pick_goal 2; clear_value x; intro hx)
    | (extract_lets -useContext -merge -underBinder +onlyGivenNames x; skip)
    | with_reducible apply Moves.ite
    | (with_reducible apply Moves.step; (with_reducible first
        | apply State.writeEntry_moves | apply State.scrubPiece_moves); decide)
    | (with_reducible apply Moves.foldl; intro _ _ _)
    | split
    | (clear_value *; split)

theorem execWcbEntryTimeout_ends {n : Nat} {line : Nat} {found : List (Nat × PieceCheck)} {s : State} :
    Ends (logged [.nv, .regs, .poison, .dunes]) s (execWcbEntryTimeout n line found s) := by
  unfold execWcbEntryTimeout
  repeat' first
    | with_reducible apply Moves.refl
    | with_reducible assumption
    | with_reducible apply Ends.next
    | (with_reducible apply Moves.step; (with_reducible first
        | apply State.flushFound_moves); decide)
    | split

theorem State.wcbFlush_moves {s : State} {n : Nat} {req : Requester} {found : List (Nat × PieceCheck)} :
    Moves (logged [.nv, .regs, .poison, .dunes]) s (State.wcbFlush s n req found) := by
  unfold State.wcbFlush
  repeat' first
    | with_reducible apply Moves.refl
    | with_reducible assumption
    | (extract_lets -useContext -merge -underBinder +onlyGivenNames x; with_reducible apply Moves.cut (x := x); pick_goal 2; dsimp only [x]; clear x; pick_goal 2; clear_value x; intro hx)
    | (extract_lets -useContext -merge -underBinder +onlyGivenNames x; skip)
    | (with_reducible apply State.onReg_moves; decide; intro _ _)
    | (with_reducible apply Moves.step; (with_reducible first
        | apply State.flushFound_moves | apply State.logWrite_moves); decide)
    | (with_reducible apply Moves.foldl; intro _ _ _)

theorem execWcbFlush_ends {n : Nat} {req : Requester} {found : List (Nat × PieceCheck)} {s : State} :
    Ends (logged [.nv, .regs, .poison, .dunes]) s (execWcbFlush n req found s) := by
  unfold execWcbFlush
  repeat' first
    | with_reducible apply Moves.refl
    | with_reducible assumption
    | with_reducible apply Ends.next
    | (with_reducible apply Moves.step; (with_reducible first
        | apply State.wcbFlush_moves); decide)

theorem execBandEvaluation_ends {n : Nat} {temp : Nat} {s : State} :
    Ends (logged [.regs, .poison, .dunes]) s (execBandEvaluation n temp s) := by
  unfold execBandEvaluation
  repeat' first
    | with_reducible apply Moves.refl
    | with_reducible assumption
    | with_reducible apply Ends.next
    | (extract_lets -useContext -merge -underBinder +onlyGivenNames x; with_reducible apply Moves.cut (x := x); pick_goal 2; dsimp only [x]; clear x; pick_goal 2; clear_value x; intro hx)
    | (extract_lets -useContext -merge -underBinder +onlyGivenNames x; with_reducible apply Ends.cut (x := x); pick_goal 2; dsimp only [x]; clear x; pick_goal 2; clear_value x; intro hx)
    | (extract_lets -useContext -merge -underBinder +onlyGivenNames x; skip)
    | with_reducible apply Moves.ite
    | with_reducible apply Ends.ite
    | (with_reducible apply Moves.step; (with_reducible first
        | apply State.flushWcb_moves | apply State.bump_moves | apply State.setDune_moves
        | apply State.raiseReg_moves | apply State.emitUnit_moves); decide)
    | split
    | (clear_value *; split)

theorem execStackPowerRemove_ends {n : Nat} {s : State} :
    Ends (logged [.mem, .poison, .dunes]) s (execStackPowerRemove n s) := by
  unfold execStackPowerRemove
  repeat' first
    | with_reducible apply Moves.refl
    | with_reducible assumption
    | with_reducible apply Ends.next
    | (extract_lets -useContext -merge -underBinder +onlyGivenNames x; with_reducible apply Moves.cut (x := x); pick_goal 2; dsimp only [x]; clear x; pick_goal 2; clear_value x; intro hx)
    | (extract_lets -useContext -merge -underBinder +onlyGivenNames x; with_reducible apply Ends.cut (x := x); pick_goal 2; dsimp only [x]; clear x; pick_goal 2; clear_value x; intro hx)
    | (extract_lets -useContext -merge -underBinder +onlyGivenNames x; skip)
    | with_reducible apply Moves.ite
    | with_reducible apply Ends.ite
    | (with_reducible apply Moves.step; (with_reducible first
        | apply State.dropStack_moves | apply State.setDune_moves | apply State.emitUnit_moves); decide)
    | split
    | (clear_value *; split)

theorem execDunePhyCal_ends {n : Nat} {lchan : Nat} {ok : Bool} {s : State} :
    Ends (logged [.nv, .dunes]) s (execDunePhyCal n lchan ok s) := by
  unfold execDunePhyCal
  repeat' first
    | with_reducible apply Moves.refl
    | with_reducible assumption
    | with_reducible apply Ends.next
    | with_reducible apply Moves.ite
    | with_reducible apply Ends.ite
    | (with_reducible apply Moves.step; (with_reducible first
        | apply State.channelFail_moves); decide)
    | split

end Sys2Proof.Machine
end

