-- ==== Sys2Proof/Laws/FrameMemory.lean ====
section
/-! SUPPORT. What the functions of Machine/Memory.lean may change. -/

set_option linter.unusedTactic false
set_option linter.unreachableTactic false
set_option linter.tactic.unusedName false

namespace Sys2Proof.Machine

open Sys2Proof.Laws Sys2Proof.Safety

theorem State.storeLocal_moves {s : State} {cs : List Cell} :
    Moves [.mem, .poison] s (State.storeLocal s cs) := by
  unfold State.storeLocal
  repeat' first
    | with_reducible apply Moves.refl
    | with_reducible assumption
    | with_reducible apply Moves.ite
    | (with_reducible apply Moves.step; (with_reducible first
        | apply State.store_moves | apply State.clearPoison_moves); decide)
    | (with_reducible apply Moves.foldl; intro _ _ _)
    | split

theorem State.writeLine_moves {s : State} {key : Word} {line : Nat} {cs : List Cell} :
    Moves (logged [.regs, .mem, .poison, .dunes]) s (State.writeLine s key line cs) := by
  unfold State.writeLine
  repeat' first
    | with_reducible apply Moves.refl
    | with_reducible assumption
    | with_reducible apply Moves.ite
    | (with_reducible apply Moves.step; (with_reducible first
        | apply State.duneWriteLine_moves | apply State.storeLocal_moves | apply State.store_moves); decide)
    | split

theorem State.write_moves {s : State} {key : Word} {cs : List Cell} :
    Moves (logged [.regs, .mem, .poison, .dunes]) s (State.write s key cs) := by
  unfold State.write
  repeat' first
    | with_reducible apply Moves.refl
    | with_reducible assumption
    | (with_reducible apply Moves.step; (with_reducible first
        | apply State.writeLine_moves); decide)
    | (with_reducible apply Moves.foldl; intro _ _ _)

end Sys2Proof.Machine
end

