-- ==== Sys2Proof/Laws/FrameKv.lean ====
section
/-! SUPPORT. What the functions of Machine/Kv.lean may change. -/

set_option linter.unusedTactic false
set_option linter.unreachableTactic false
set_option linter.tactic.unusedName false

namespace Sys2Proof.Machine

open Sys2Proof.Laws Sys2Proof.Safety

theorem State.setKvHead_moves {s : State} {r : Nat} {v : Word} :
    Moves [.kv] s (State.setKvHead s r v) := by
  unfold State.setKvHead
  repeat' first
    | with_reducible apply Moves.refl
    | with_reducible assumption
    | (with_reducible apply Moves.step; (with_reducible apply Moves.upd_kv); decide)

theorem State.emitKv_moves {s : State} {r : Nat} {sev : Nat} {st : Status} {pl : List Word} :
    Moves (logged []) s (State.emitKv s r sev st pl) := by
  unfold State.emitKv
  repeat' first
    | with_reducible apply Moves.refl
    | with_reducible assumption
    | (with_reducible apply Moves.step; (with_reducible first
        | apply State.emitUnit_moves); decide)

theorem State.kvLow_moves {s : State} {r : Nat} {old : Nat} :
    Moves (logged []) s (State.kvLow s r old) := by
  unfold State.kvLow
  repeat' first
    | with_reducible apply Moves.refl
    | with_reducible assumption
    | (extract_lets -useContext -merge -underBinder +onlyGivenNames x; with_reducible apply Moves.cut (x := x); pick_goal 2; dsimp only [x]; clear x; pick_goal 2; clear_value x; intro hx)
    | (extract_lets -useContext -merge -underBinder +onlyGivenNames x; skip)
    | with_reducible apply Moves.ite
    | (with_reducible apply Moves.step; (with_reducible first
        | apply State.emitKv_moves | apply State.raiseReg_moves); decide)
    | split
    | (clear_value *; split)

theorem State.takeFrame_moves {s : State} {r n : Nat} {w : Option Nat} {t : State} (h : s.takeFrame r n = (w, t)) :
    Moves (logged [.regs, .kv]) s t := by
  induction n generalizing s with
  | zero => obtain ⟨-, rfl⟩ := Prod.mk.inj h; exact Moves.refl _ _
  | succ n ih =>
    unfold State.takeFrame at h
    split at h
    · obtain ⟨-, rfl⟩ := Prod.mk.inj h; exact Moves.refl _ _
    · extract_lets old pfn s1 at h
      have h1 : Moves (logged [.regs, .kv]) s s1 :=
        (((Moves.refl _ _).via State.countNarrow_moves (by decide)).via State.setKvHead_moves (by decide)).via State.kvLow_moves (by decide)
      split at h
      · obtain ⟨-, rfl⟩ := Prod.mk.inj h; exact h1
      · exact ((h1.via State.bump_moves (by decide)).via State.emitKv_moves (by decide)).trans (ih h)

theorem State.takeFrame_snd {s : State} {r n : Nat} : Moves (logged [.regs, .kv]) s (s.takeFrame r n).2 := State.takeFrame_moves (w := (s.takeFrame r n).1) rfl

theorem State.kvTake_snd {s : State} {r : Nat} :
    Moves (logged [.regs, .kv]) s (State.kvTake s r).2 := by
  unfold State.kvTake
  repeat' first
    | with_reducible apply Moves.refl
    | with_reducible assumption
    | (with_reducible apply Moves.step; (with_reducible first
        | apply State.takeFrame_snd); decide)

theorem State.kvTake_moves {s : State} {r : Nat} {w : Option Nat} {t : State} (h : State.kvTake s r = (w, t)) :
    Moves (logged [.regs, .kv]) s t := by
  have k := State.kvTake_snd (s := s) (r := r)
  rw [h] at k
  exact k

theorem State.kvRetry_moves {s : State} {ringOf : Nat → Nat} {r : Nat} :
    Moves [.kv] s (State.kvRetry s ringOf r) := by
  unfold State.kvRetry
  repeat' first
    | with_reducible apply Moves.refl
    | with_reducible assumption
    | with_reducible apply Moves.ite
    | split
    | (with_reducible apply Moves.step; (with_reducible apply Moves.upd_kv); decide)

theorem State.setEntry_moves {s : State} {d : ListDesc} {pg : Nat} {v : Nat} :
    Moves (logged [.regs, .mem, .poison, .dunes]) s (State.setEntry s d pg v) := by
  unfold State.setEntry
  repeat' first
    | with_reducible apply Moves.refl
    | with_reducible assumption
    | (with_reducible apply Moves.step; (with_reducible first
        | apply State.write_moves); decide)

theorem State.kvPush_moves {s : State} {r : Nat} {pfn : Nat} :
    Moves (logged [.regs, .mem, .poison, .dunes, .kv]) s (State.kvPush s r pfn) := by
  unfold State.kvPush
  repeat' first
    | with_reducible apply Moves.refl
    | with_reducible assumption
    | (extract_lets -useContext -merge -underBinder +onlyGivenNames x; with_reducible apply Moves.cut (x := x); pick_goal 2; dsimp only [x]; clear x; pick_goal 2; clear_value x; intro hx)
    | (extract_lets -useContext -merge -underBinder +onlyGivenNames x; skip)
    | (with_reducible apply Moves.step; (with_reducible first
        | apply State.setKvHead_moves | apply State.kvRetry_moves | apply State.write_moves); decide)

theorem State.setClaim_moves {s : State} {da : Nat} {c : Claim} :
    Moves [.kv] s (State.setClaim s da c) := by
  unfold State.setClaim
  repeat' first
    | with_reducible apply Moves.refl
    | with_reducible assumption
    | (with_reducible apply Moves.step; (with_reducible apply Moves.upd_kv); decide)

theorem State.dropSwaps_moves {s : State} {da : Nat} :
    Moves [.lossCounts, .regs, .kv] s (State.dropSwaps s da) := by
  unfold State.dropSwaps
  repeat' first
    | with_reducible apply Moves.refl
    | with_reducible assumption
    | (extract_lets -useContext -merge -underBinder +onlyGivenNames x; with_reducible apply Moves.cut (x := x); pick_goal 2; dsimp only [x]; clear x; pick_goal 2; clear_value x; intro hx)
    | (extract_lets -useContext -merge -underBinder +onlyGivenNames x; skip)
    | with_reducible apply Moves.ite
    | (with_reducible apply Moves.step; (with_reducible first
        | apply State.bumpBy_moves); decide)
    | split
    | (clear_value *; split)
    | (with_reducible apply Moves.step; (with_reducible apply Moves.upd_kv); decide)

theorem State.claimAll_moves {s : State} {id : Nat} {t : Task} :
    Moves [.lossCounts, .regs, .tasks, .kv] s (State.claimAll s id t) := by
  unfold State.claimAll
  repeat' first
    | with_reducible apply Moves.refl
    | with_reducible assumption
    | (extract_lets -useContext -merge -underBinder +onlyGivenNames x; with_reducible apply Moves.cut (x := x); pick_goal 2; dsimp only [x]; clear x; pick_goal 2; clear_value x; intro hx)
    | (extract_lets -useContext -merge -underBinder +onlyGivenNames x; skip)
    | with_reducible apply Moves.ite
    | (with_reducible apply Moves.step; (with_reducible first
        | apply State.setClaim_moves | apply State.dropSwaps_moves | apply State.setTask_moves); decide)
    | (with_reducible apply Moves.foldl; intro _ _ _)
    | split
    | (clear_value *; split)

theorem State.releaseClaims_moves {s : State} {id : Nat} :
    Moves (logged [.regs, .mem, .poison, .tasks, .dunes, .kv]) s (State.releaseClaims s id) := by
  unfold State.releaseClaims
  repeat' first
    | with_reducible apply Moves.refl
    | with_reducible assumption
    | (extract_lets -useContext -merge -underBinder +onlyGivenNames x; with_reducible apply Moves.cut (x := x); pick_goal 2; dsimp only [x]; clear x; pick_goal 2; clear_value x; intro hx)
    | (extract_lets -useContext -merge -underBinder +onlyGivenNames x; skip)
    | with_reducible apply Moves.ite
    | (with_reducible apply Moves.step; (with_reducible first
        | apply State.kvPush_moves | apply State.setClaim_moves | apply State.setTask_moves); decide)
    | (with_reducible apply Moves.foldl; intro _ _ _)
    | split
    | (clear_value *; split)

theorem State.takePages_moves {s : State} {da n : Nat} {w : Bool} {t : State} (h : s.takePages da n = (w, t)) :
    Moves (logged [.regs, .kv]) s t := by
  induction n generalizing s with
  | zero => obtain ⟨-, rfl⟩ := Prod.mk.inj h; exact Moves.refl _ _
  | succ n ih =>
    unfold State.takePages at h
    split at h
    · rename_i hk
      exact (((Moves.refl _ _).via (State.kvTake_moves hk) (by decide)).via State.setClaim_moves (by decide)).trans (ih h)
    · rename_i hk
      obtain ⟨-, rfl⟩ := Prod.mk.inj h
      exact (((Moves.refl _ _).via (State.kvTake_moves hk) (by decide)).via State.bump_moves (by decide)).via
        State.emitKv_moves (by decide)

theorem State.takePages_snd {s : State} {da n : Nat} : Moves (logged [.regs, .kv]) s (s.takePages da n).2 := State.takePages_moves (w := (s.takePages da n).1) rfl

theorem State.prepareAppend_snd {s : State} {id : Nat} {t0 : Task} :
    Moves (logged [.regs, .tasks, .kv]) s (State.prepareAppend s id t0).2 := by
  unfold State.prepareAppend
  repeat' first
    | with_reducible apply Moves.refl
    | with_reducible assumption
    | (extract_lets -useContext -merge -underBinder +onlyGivenNames x; with_reducible apply Moves.cut (x := x); pick_goal 2; dsimp only [x]; clear x; pick_goal 2; clear_value x; intro hx)
    | (extract_lets -useContext -merge -underBinder +onlyGivenNames x; skip)
    | with_reducible apply Moves.ite
    | (with_reducible apply Moves.step; (with_reducible first
        | apply State.setTask_moves | apply State.takePages_snd); decide)
    | (with_reducible apply Moves.foldl; intro _ _ _)
    | (with_reducible apply Moves.foldl_snd; intro _ _ _)
    | (with_reducible apply Moves.of_pair; assumption)
    | (with_reducible apply Moves.of_reply; assumption)
    | split
    | (clear_value *; split)

theorem State.prepareAppend_moves {s : State} {id : Nat} {t0 : Task} {w : Status} {t : State} (h : State.prepareAppend s id t0 = (w, t)) :
    Moves (logged [.regs, .tasks, .kv]) s t := by
  have k := State.prepareAppend_snd (s := s) (id := id) (t0 := t0)
  rw [h] at k
  exact k

theorem State.prepareSwap_snd {s : State} {id : Nat} {t0 : Task} :
    Moves (logged [.regs, .mem, .poison, .tasks, .dunes, .kv]) s (State.prepareSwap s id t0).2 := by
  unfold State.prepareSwap
  repeat' first
    | with_reducible apply Moves.refl
    | with_reducible assumption
    | (extract_lets -useContext -merge -underBinder +onlyGivenNames x; with_reducible apply Moves.cut (x := x); pick_goal 2; dsimp only [x]; clear x; pick_goal 2; clear_value x; intro hx)
    | (extract_lets -useContext -merge -underBinder +onlyGivenNames x; skip)
    | with_reducible apply Moves.ite
    | (with_reducible apply Moves.step; (with_reducible first
        | apply State.emitKv_moves | apply State.kvPush_moves | apply State.bump_moves | apply State.setTask_moves
        | apply State.kvTake_snd); decide)
    | (with_reducible apply Moves.foldl; intro _ _ _)
    | (with_reducible apply Moves.foldl_snd; intro _ _ _)
    | (with_reducible apply Moves.of_pair; assumption)
    | (with_reducible apply Moves.of_reply; assumption)
    | split
    | (clear_value *; split)

theorem State.prepareSwap_moves {s : State} {id : Nat} {t0 : Task} {w : Status} {t : State} (h : State.prepareSwap s id t0 = (w, t)) :
    Moves (logged [.regs, .mem, .poison, .tasks, .dunes, .kv]) s t := by
  have k := State.prepareSwap_snd (s := s) (id := id) (t0 := t0)
  rw [h] at k
  exact k

theorem State.prepareLists_snd {s : State} {id : Nat} {t0 : Task} :
    Moves (logged [.regs, .mem, .poison, .tasks, .dunes, .kv]) s (State.prepareLists s id t0).2 := by
  unfold State.prepareLists
  repeat' first
    | with_reducible apply Moves.refl
    | with_reducible assumption
    | (extract_lets -useContext -merge -underBinder +onlyGivenNames x; with_reducible apply Moves.cut (x := x); pick_goal 2; dsimp only [x]; clear x; pick_goal 2; clear_value x; intro hx)
    | (extract_lets -useContext -merge -underBinder +onlyGivenNames x; skip)
    | with_reducible apply Moves.ite
    | (with_reducible apply Moves.step; (with_reducible first
        | apply State.setTask_moves | apply State.prepareAppend_snd | apply State.prepareSwap_snd); decide)
    | (with_reducible apply Moves.of_pair; assumption)
    | (with_reducible apply Moves.of_reply; assumption)
    | split
    | (clear_value *; split)

theorem State.prepareLists_moves {s : State} {id : Nat} {t0 : Task} {w : Status} {t : State} (h : State.prepareLists s id t0 = (w, t)) :
    Moves (logged [.regs, .mem, .poison, .tasks, .dunes, .kv]) s t := by
  have k := State.prepareLists_snd (s := s) (id := id) (t0 := t0)
  rw [h] at k
  exact k

theorem State.returnFrames_moves {s : State} {id : Nat} :
    Moves (logged [.regs, .mem, .poison, .tasks, .dunes, .kv]) s (State.returnFrames s id) := by
  unfold State.returnFrames
  repeat' first
    | with_reducible apply Moves.refl
    | with_reducible assumption
    | (extract_lets -useContext -merge -underBinder +onlyGivenNames x; with_reducible apply Moves.cut (x := x); pick_goal 2; dsimp only [x]; clear x; pick_goal 2; clear_value x; intro hx)
    | (extract_lets -useContext -merge -underBinder +onlyGivenNames x; skip)
    | (with_reducible apply Moves.step; (with_reducible first
        | apply State.kvPush_moves | apply State.setTask_moves); decide)
    | (with_reducible apply Moves.foldl; intro _ _ _)

theorem State.writeCounts_moves {s : State} {da : Nat} {count : Nat} {lastFill : Nat} :
    Moves (logged [.regs, .mem, .poison, .dunes, .kv]) s (State.writeCounts s da count lastFill) := by
  unfold State.writeCounts
  repeat' first
    | with_reducible apply Moves.refl
    | with_reducible assumption
    | (extract_lets -useContext -merge -underBinder +onlyGivenNames x; with_reducible apply Moves.cut (x := x); pick_goal 2; dsimp only [x]; clear x; pick_goal 2; clear_value x; intro hx)
    | (extract_lets -useContext -merge -underBinder +onlyGivenNames x; skip)
    | (with_reducible apply Moves.step; (with_reducible first
        | apply State.setClaim_moves | apply State.write_moves); decide)

theorem State.commitAppend_moves {s : State} {t : Task} {da : Nat} :
    Moves (logged [.regs, .mem, .poison, .dunes, .kv]) s (State.commitAppend s t da) := by
  unfold State.commitAppend
  repeat' first
    | with_reducible apply Moves.refl
    | with_reducible assumption
    | (extract_lets -useContext -merge -underBinder +onlyGivenNames x; with_reducible apply Moves.cut (x := x); pick_goal 2; dsimp only [x]; clear x; pick_goal 2; clear_value x; intro hx)
    | (extract_lets -useContext -merge -underBinder +onlyGivenNames x; skip)
    | (with_reducible apply Moves.step; (with_reducible first
        | apply State.setEntry_moves | apply State.setClaim_moves | apply State.writeCounts_moves); decide)
    | (with_reducible apply Moves.foldl; intro _ _ _)

theorem State.commitLists_moves {s : State} {id : Nat} :
    Moves (logged [.regs, .mem, .poison, .tasks, .dunes, .kv]) s (State.commitLists s id) := by
  unfold State.commitLists
  repeat' first
    | with_reducible apply Moves.refl
    | with_reducible assumption
    | (extract_lets -useContext -merge -underBinder +onlyGivenNames x; with_reducible apply Moves.cut (x := x); pick_goal 2; dsimp only [x]; clear x; pick_goal 2; clear_value x; intro hx)
    | (extract_lets -useContext -merge -underBinder +onlyGivenNames x; skip)
    | with_reducible apply Moves.ite
    | (with_reducible apply Moves.step; (with_reducible first
        | apply State.setEntry_moves | apply State.kvPush_moves | apply State.commitAppend_moves
        | apply State.setTask_moves); decide)
    | (with_reducible apply Moves.foldl; intro _ _ _)
    | split
    | (clear_value *; split)

theorem execKvRingTailWrite_ends {r : Nat} {v : Word} {req : Requester} {s : State} :
    Ends (logged [.regs, .kv]) s (execKvRingTailWrite r v req s) := by
  unfold execKvRingTailWrite
  repeat' first
    | with_reducible apply Moves.refl
    | with_reducible assumption
    | with_reducible apply Ends.next
    | (with_reducible apply State.onReg_moves; decide; intro _ _)
    | (with_reducible apply Moves.step; (with_reducible first
        | apply State.kvRetry_moves); decide)
    | (with_reducible apply Moves.step; (with_reducible apply Moves.upd_kv); decide)

end Sys2Proof.Machine
end

