-- ==== Sys2Proof/Laws/FrameTier.lean ====
section
/-! SUPPORT. What the functions of Machine/Tier.lean may change. -/

set_option linter.unusedTactic false
set_option linter.unreachableTactic false
set_option linter.tactic.unusedName false

namespace Sys2Proof.Machine

open Sys2Proof.Laws Sys2Proof.Safety

theorem State.putPte_moves {s : State} {i : Nat} {pg : Nat} :
    Moves (logged [.regs, .mem, .poison, .dunes]) s (State.putPte s i pg) := by
  unfold State.putPte
  repeat' first
    | with_reducible apply Moves.refl
    | with_reducible assumption
    | (extract_lets -useContext -merge -underBinder +onlyGivenNames x; with_reducible apply Moves.cut (x := x); pick_goal 2; dsimp only [x]; clear x; pick_goal 2; clear_value x; intro hx)
    | (extract_lets -useContext -merge -underBinder +onlyGivenNames x; skip)
    | with_reducible apply Moves.ite
    | (with_reducible apply Moves.step; (with_reducible first
        | apply State.write_moves); decide)
    | split
    | (clear_value *; split)

theorem State.putRegEntry_moves {s : State} {i : Nat} :
    Moves (logged [.regs, .mem, .poison, .dunes]) s (State.putRegEntry s i) := by
  unfold State.putRegEntry
  repeat' first
    | with_reducible apply Moves.refl
    | with_reducible assumption
    | (extract_lets -useContext -merge -underBinder +onlyGivenNames x; with_reducible apply Moves.cut (x := x); pick_goal 2; dsimp only [x]; clear x; pick_goal 2; clear_value x; intro hx)
    | (extract_lets -useContext -merge -underBinder +onlyGivenNames x; skip)
    | (with_reducible apply Moves.step; (with_reducible first
        | apply State.write_moves); decide)

theorem State.updTensor_moves {s : State} {i : Nat} {t : Tensor} :
    Moves (logged [.regs, .mem, .poison, .dunes, .tier]) s (State.updTensor s i t) := by
  unfold State.updTensor
  repeat' first
    | with_reducible apply Moves.refl
    | with_reducible assumption
    | (with_reducible apply Moves.step; (with_reducible first
        | apply State.setTensor_moves | apply State.putRegEntry_moves); decide)

theorem State.moveTensor_moves {s : State} {i : Nat} {t : Tensor} :
    Moves (logged [.regs, .mem, .poison, .dunes, .tier]) s (State.moveTensor s i t) := by
  unfold State.moveTensor
  repeat' first
    | with_reducible apply Moves.refl
    | with_reducible assumption
    | (with_reducible apply Moves.step; (with_reducible first
        | apply State.putPte_moves | apply State.updTensor_moves); decide)
    | (with_reducible apply Moves.foldl; intro _ _ _)

theorem State.sendHome_moves {s : State} {i : Nat} :
    Moves (logged [.regs, .mem, .poison, .dunes, .tier]) s (State.sendHome s i) := by
  unfold State.sendHome
  repeat' first
    | with_reducible apply Moves.refl
    | with_reducible assumption
    | (with_reducible apply Moves.step; (with_reducible first
        | apply State.moveTensor_moves); decide)

theorem State.evictNow_moves {s : State} {i : Nat} :
    Moves (logged [.regs, .mem, .poison, .dunes, .tier]) s (State.evictNow s i) := by
  unfold State.evictNow
  repeat' first
    | with_reducible apply Moves.refl
    | with_reducible assumption
    | with_reducible apply Moves.ite
    | (with_reducible apply Moves.step; (with_reducible first
        | apply State.bump_moves | apply State.updTensor_moves | apply State.sendHome_moves); decide)
    | split

theorem State.settleHeat_moves {s : State} :
    Moves [.tier] s (State.settleHeat s) := by
  unfold State.settleHeat
  repeat' first
    | with_reducible apply Moves.refl
    | with_reducible assumption
    | (extract_lets -useContext -merge -underBinder +onlyGivenNames x; with_reducible apply Moves.cut (x := x); pick_goal 2; dsimp only [x]; clear x; pick_goal 2; clear_value x; intro hx)
    | (extract_lets -useContext -merge -underBinder +onlyGivenNames x; skip)
    | with_reducible apply Moves.ite
    | split
    | (clear_value *; split)
    | (with_reducible apply Moves.step; (with_reducible apply Moves.upd_tier); decide)

theorem State.makeRoom_moves {s : State} {n : Nat} {keep : Nat} {passed : List Nat} {x4 : Nat} :
    Moves (logged [.fresh, .regs, .mem, .poison, .dunes, .tier]) s (State.makeRoom s n keep passed x4) := by
  induction x4 generalizing s n keep passed with
  | zero => exact Moves.refl _ _
  | succ n ih =>
    unfold State.makeRoom
    repeat' first
      | with_reducible apply Moves.refl
      | with_reducible assumption
      | (extract_lets -useContext -merge -underBinder +onlyGivenNames x; with_reducible apply Moves.cut (x := x); pick_goal 2; dsimp only [x]; clear x; pick_goal 2; clear_value x; intro hx)
      | (extract_lets -useContext -merge -underBinder +onlyGivenNames x; skip)
      | with_reducible apply Moves.ite
      | (with_reducible apply Moves.step; (with_reducible first
        | apply State.bump_moves | apply State.evictNow_moves | apply State.settleHeat_moves | apply ih
        | apply State.draw_snd); decide)
      | (with_reducible apply Moves.of_pair; assumption)
      | (with_reducible apply Moves.of_reply; assumption)
      | split
      | (clear_value *; split)

theorem State.lowFrames_moves {s : State} :
    Moves (logged [.fresh, .regs, .mem, .poison, .dunes, .tier]) s (State.lowFrames s) := by
  unfold State.lowFrames
  repeat' first
    | with_reducible apply Moves.refl
    | with_reducible assumption
    | with_reducible apply Moves.ite
    | (with_reducible apply Moves.step; (with_reducible first
        | apply State.makeRoom_moves); decide)
    | split

theorem State.promote_moves {s : State} {i : Nat} :
    Moves (logged [.fresh, .regs, .mem, .poison, .dunes, .tier]) s (State.promote s i) := by
  unfold State.promote
  repeat' first
    | with_reducible apply Moves.refl
    | with_reducible assumption
    | (extract_lets -useContext -merge -underBinder +onlyGivenNames x; with_reducible apply Moves.cut (x := x); pick_goal 2; dsimp only [x]; clear x; pick_goal 2; clear_value x; intro hx)
    | (extract_lets -useContext -merge -underBinder +onlyGivenNames x; skip)
    | with_reducible apply Moves.ite
    | (with_reducible apply Moves.step; (with_reducible first
        | apply State.bump_moves | apply State.updTensor_moves | apply State.makeRoom_moves
        | apply State.lowFrames_moves); decide)
    | split
    | (clear_value *; split)

theorem State.heatPage_moves {s : State} {i : Nat} {pg : Nat} {k : Nat} :
    Moves (logged [.fresh, .regs, .mem, .poison, .dunes, .tier]) s (State.heatPage s i pg k) := by
  unfold State.heatPage
  repeat' first
    | with_reducible apply Moves.refl
    | with_reducible assumption
    | (extract_lets -useContext -merge -underBinder +onlyGivenNames x; with_reducible apply Moves.cut (x := x); pick_goal 2; dsimp only [x]; clear x; pick_goal 2; clear_value x; intro hx)
    | (extract_lets -useContext -merge -underBinder +onlyGivenNames x; skip)
    | with_reducible apply Moves.ite
    | (with_reducible apply Moves.step; (with_reducible first
        | apply State.setTensor_moves | apply State.putPte_moves | apply State.settleHeat_moves
        | apply State.promote_moves); decide)
    | split
    | (clear_value *; split)

theorem State.heatRange_moves {s : State} {da : Nat} {n : Nat} :
    Moves (logged [.fresh, .regs, .mem, .poison, .dunes, .tier]) s (State.heatRange s da n) := by
  unfold State.heatRange
  repeat' first
    | with_reducible apply Moves.refl
    | with_reducible assumption
    | (extract_lets -useContext -merge -underBinder +onlyGivenNames x; with_reducible apply Moves.cut (x := x); pick_goal 2; dsimp only [x]; clear x; pick_goal 2; clear_value x; intro hx)
    | (extract_lets -useContext -merge -underBinder +onlyGivenNames x; skip)
    | with_reducible apply Moves.ite
    | (with_reducible apply Moves.step; (with_reducible first
        | apply State.heatPage_moves); decide)
    | (with_reducible apply Moves.foldl; intro _ _ _)
    | split
    | (clear_value *; split)

theorem State.countMove_moves {s : State} {i : Nat} :
    Moves [.lossCounts, .regs] s (State.countMove s i) := by
  unfold State.countMove
  repeat' first
    | with_reducible apply Moves.refl
    | with_reducible assumption
    | (with_reducible apply Moves.step; (with_reducible first
        | apply State.countRead_moves); decide)
    | (with_reducible apply Moves.foldl; intro _ _ _)

theorem State.emitTier_moves {s : State} {sev : Nat} {st : Status} {pl : List Word} :
    Moves (logged []) s (State.emitTier s sev st pl) := by
  unfold State.emitTier
  repeat' first
    | with_reducible apply Moves.refl
    | with_reducible assumption
    | (with_reducible apply Moves.step; (with_reducible first
        | apply State.emitUnit_moves); decide)

theorem State.endTierCmd_moves {s : State} {st : Status} :
    Moves [.tier] s (State.endTierCmd s st) := by
  unfold State.endTierCmd
  repeat' first
    | with_reducible apply Moves.refl
    | with_reducible assumption
    | (with_reducible apply Moves.step; (with_reducible apply Moves.upd_tier); decide)

theorem State.tierCmd_moves {ps : List Part} {a : State} {s : State} {req : Requester} {op : Nat} {i : Nat} {go : State → State}
    (hk : partsIn (logged [.regs, .tier]) ps = true)
    (hg : ∀ s, Moves ps a s → Moves ps a (go s)) (h : Moves ps a s) : Moves ps a (State.tierCmd s req op i go) := by
  unfold State.tierCmd
  repeat' first
    | with_reducible assumption
    | (extract_lets -useContext -merge -underBinder +onlyGivenNames x; with_reducible apply Moves.cut (x := x); pick_goal 2; dsimp only [x]; clear x; pick_goal 2; clear_value x; intro hx)
    | (extract_lets -useContext -merge -underBinder +onlyGivenNames x; skip)
    | with_reducible apply Moves.ite
    | with_reducible apply hg
    | (with_reducible apply State.onReg_moves; exact partsIn_trans (by decide) hk; intro _ _)
    | (with_reducible apply Moves.step; (with_reducible first
        | apply State.setReg_moves | apply State.bump_moves | apply State.logWrite_moves
        | apply State.logRefused_moves | apply State.endTierCmd_moves); exact partsIn_trans (by decide) hk)
    | split
    | (clear_value *; split)

theorem execTierRegister_ends {i : Nat} {req : Requester} {s : State} :
    Ends (logged [.fresh, .regs, .mem, .poison, .dunes, .tier]) s (execTierRegister i req s) := by
  unfold execTierRegister
  repeat' first
    | with_reducible apply Moves.refl
    | with_reducible assumption
    | with_reducible apply Ends.next
    | (extract_lets -useContext -merge -underBinder +onlyGivenNames x; with_reducible apply Moves.cut (x := x); pick_goal 2; dsimp only [x]; clear x; pick_goal 2; clear_value x; intro hx)
    | (extract_lets -useContext -merge -underBinder +onlyGivenNames x; with_reducible apply Ends.cut (x := x); pick_goal 2; dsimp only [x]; clear x; pick_goal 2; clear_value x; intro hx)
    | (extract_lets -useContext -merge -underBinder +onlyGivenNames x; skip)
    | with_reducible apply Moves.ite
    | with_reducible apply Ends.ite
    | (with_reducible apply State.tierCmd_moves; decide; intro _ _)
    | (with_reducible apply Moves.step; (with_reducible first
        | apply State.moveTensor_moves | apply State.promote_moves | apply State.endTierCmd_moves); decide)
    | split
    | (clear_value *; split)

theorem State.dropTensor_moves {s : State} {i : Nat} :
    Moves (logged [.regs, .mem, .poison, .dunes, .tier]) s (State.dropTensor s i) := by
  unfold State.dropTensor
  repeat' first
    | with_reducible apply Moves.refl
    | with_reducible assumption
    | (extract_lets -useContext -merge -underBinder +onlyGivenNames x; with_reducible apply Moves.cut (x := x); pick_goal 2; dsimp only [x]; clear x; pick_goal 2; clear_value x; intro hx)
    | (extract_lets -useContext -merge -underBinder +onlyGivenNames x; skip)
    | (with_reducible apply Moves.step; (with_reducible first
        | apply State.setTensor_moves | apply State.moveTensor_moves); decide)

theorem State.unregisterGo_moves {s : State} {i : Nat} :
    Moves (logged [.regs, .mem, .poison, .dunes, .tier]) s (State.unregisterGo s i) := by
  unfold State.unregisterGo
  repeat' first
    | with_reducible apply Moves.refl
    | with_reducible assumption
    | (extract_lets -useContext -merge -underBinder +onlyGivenNames x; with_reducible apply Moves.cut (x := x); pick_goal 2; dsimp only [x]; clear x; pick_goal 2; clear_value x; intro hx)
    | (extract_lets -useContext -merge -underBinder +onlyGivenNames x; skip)
    | with_reducible apply Moves.ite
    | (with_reducible apply Moves.step; (with_reducible first
        | apply State.updTensor_moves | apply State.endTierCmd_moves | apply State.dropTensor_moves); decide)
    | split
    | (clear_value *; split)
    | (with_reducible apply Moves.step; (with_reducible apply Moves.upd_tier); decide)

theorem execTierUnregister_ends {i : Nat} {req : Requester} {s : State} :
    Ends (logged [.regs, .mem, .poison, .dunes, .tier]) s (execTierUnregister i req s) := by
  unfold execTierUnregister
  repeat' first
    | with_reducible apply Moves.refl
    | with_reducible assumption
    | with_reducible apply Ends.next
    | (with_reducible apply State.tierCmd_moves; decide; intro _ _)
    | (with_reducible apply Moves.step; (with_reducible first
        | apply State.unregisterGo_moves); decide)

theorem execTierLoad_ends {i : Nat} {req : Requester} {host : List Cell} {s : State} :
    Ends (logged [.regs, .mem, .tier]) s (execTierLoad i req host s) := by
  unfold execTierLoad
  repeat' first
    | with_reducible apply Moves.refl
    | with_reducible assumption
    | with_reducible apply Ends.next
    | (extract_lets -useContext -merge -underBinder +onlyGivenNames x; with_reducible apply Moves.cut (x := x); pick_goal 2; dsimp only [x]; clear x; pick_goal 2; clear_value x; intro hx)
    | (extract_lets -useContext -merge -underBinder +onlyGivenNames x; with_reducible apply Ends.cut (x := x); pick_goal 2; dsimp only [x]; clear x; pick_goal 2; clear_value x; intro hx)
    | (extract_lets -useContext -merge -underBinder +onlyGivenNames x; skip)
    | with_reducible apply Moves.ite
    | with_reducible apply Ends.ite
    | (with_reducible apply State.tierCmd_moves; decide; intro _ _)
    | (with_reducible apply Moves.step; (with_reducible first
        | apply State.countRead_moves | apply State.seeHost_moves | apply State.endTierCmd_moves); decide)
    | split
    | (clear_value *; split)
    | (with_reducible apply Moves.step; (with_reducible apply Moves.upd_tier); decide)

theorem State.tierFlush_moves {s : State} {req : Requester} {i : Nat} :
    Moves (logged [.regs, .tier]) s (State.tierFlush s req i) := by
  unfold State.tierFlush
  repeat' first
    | with_reducible apply Moves.refl
    | with_reducible assumption
    | (with_reducible apply State.tierCmd_moves; decide; intro _ _)
    | (with_reducible apply Moves.step; (with_reducible apply Moves.upd_tier); decide)

theorem execTierFlush_ends {req : Requester} {s : State} :
    Ends (logged [.regs, .tier]) s (execTierFlush req s) := by
  unfold execTierFlush
  repeat' first
    | with_reducible apply Moves.refl
    | with_reducible assumption
    | with_reducible apply Ends.next
    | (with_reducible apply Moves.step; (with_reducible first
        | apply State.tierFlush_moves); decide)

theorem State.tierReserved_moves {s : State} {req : Requester} {op : Nat} {i : Nat} :
    Moves (logged [.regs, .tier]) s (State.tierReserved s req op i) := by
  unfold State.tierReserved
  repeat' first
    | with_reducible apply Moves.refl
    | with_reducible assumption
    | (with_reducible apply State.tierCmd_moves; decide; intro _ _)
    | (with_reducible apply Moves.step; (with_reducible first
        | apply State.endTierCmd_moves); decide)

theorem execTierPromote_ends {i : Nat} {req : Requester} {s : State} :
    Ends (logged [.fresh, .regs, .mem, .poison, .dunes, .tier]) s (execTierPromote i req s) := by
  unfold execTierPromote
  repeat' first
    | with_reducible apply Moves.refl
    | with_reducible assumption
    | with_reducible apply Ends.next
    | with_reducible apply Moves.ite
    | with_reducible apply Ends.ite
    | (with_reducible apply State.tierCmd_moves; decide; intro _ _)
    | (with_reducible apply Moves.step; (with_reducible first
        | apply State.promote_moves | apply State.endTierCmd_moves); decide)
    | split

theorem State.evictGo_moves {s : State} {i : Nat} :
    Moves (logged [.regs, .mem, .poison, .dunes, .tier]) s (State.evictGo s i) := by
  unfold State.evictGo
  repeat' first
    | with_reducible apply Moves.refl
    | with_reducible assumption
    | (extract_lets -useContext -merge -underBinder +onlyGivenNames x; with_reducible apply Moves.cut (x := x); pick_goal 2; dsimp only [x]; clear x; pick_goal 2; clear_value x; intro hx)
    | (extract_lets -useContext -merge -underBinder +onlyGivenNames x; skip)
    | with_reducible apply Moves.ite
    | (with_reducible apply Moves.step; (with_reducible first
        | apply State.bump_moves | apply State.evictNow_moves | apply State.endTierCmd_moves); decide)
    | split
    | (clear_value *; split)
    | (with_reducible apply Moves.step; (with_reducible apply Moves.upd_tier); decide)

theorem execTierEvict_ends {i : Nat} {req : Requester} {s : State} :
    Ends (logged [.regs, .mem, .poison, .dunes, .tier]) s (execTierEvict i req s) := by
  unfold execTierEvict
  repeat' first
    | with_reducible apply Moves.refl
    | with_reducible assumption
    | with_reducible apply Ends.next
    | (with_reducible apply State.tierCmd_moves; decide; intro _ _)
    | (with_reducible apply Moves.step; (with_reducible first
        | apply State.evictGo_moves); decide)

theorem State.moveEnded_moves {s : State} :
    Moves (logged [.regs, .mem, .poison, .dunes, .tier]) s (State.moveEnded s) := by
  unfold State.moveEnded
  repeat' first
    | with_reducible apply Moves.refl
    | with_reducible assumption
    | with_reducible apply Moves.ite
    | (with_reducible apply Moves.step; (with_reducible first
        | apply State.endTierCmd_moves | apply State.unregisterGo_moves | apply State.evictGo_moves); decide)
    | split

theorem execHeatDecay_ends {s : State} :
    Ends (logged [.regs, .mem, .poison, .dunes, .tier]) s (execHeatDecay s) := by
  unfold execHeatDecay
  repeat' first
    | with_reducible apply Moves.refl
    | with_reducible assumption
    | with_reducible apply Ends.next
    | (extract_lets -useContext -merge -underBinder +onlyGivenNames x; with_reducible apply Moves.cut (x := x); pick_goal 2; dsimp only [x]; clear x; pick_goal 2; clear_value x; intro hx)
    | (extract_lets -useContext -merge -underBinder +onlyGivenNames x; with_reducible apply Ends.cut (x := x); pick_goal 2; dsimp only [x]; clear x; pick_goal 2; clear_value x; intro hx)
    | (extract_lets -useContext -merge -underBinder +onlyGivenNames x; skip)
    | with_reducible apply Moves.ite
    | with_reducible apply Ends.ite
    | (with_reducible apply Moves.step; (with_reducible first
        | apply State.putPte_moves | apply State.settleHeat_moves); decide)
    | (with_reducible apply Moves.foldl; intro _ _ _)
    | split
    | (clear_value *; split)

theorem State.restartDecay_moves {s : State} :
    Moves [.tier] s (State.restartDecay s) := by
  unfold State.restartDecay
  repeat' first
    | with_reducible apply Moves.refl
    | with_reducible assumption
    | (with_reducible apply Moves.step; (with_reducible apply Moves.upd_tier); decide)

end Sys2Proof.Machine
end

