-- ==== Sys2Proof/Laws/FrameLife.lean ====
section
/-! SUPPORT. What the functions of Machine/Life.lean may change. -/

set_option linter.unusedTactic false
set_option linter.unreachableTactic false
set_option linter.tactic.unusedName false

namespace Sys2Proof.Machine

open Sys2Proof.Laws Sys2Proof.Safety

theorem State.enqueue_moves {s : State} {id : Nat} {head : Bool} :
    Moves [.crews, .tasks] s (State.enqueue s id head) := by
  unfold State.enqueue
  repeat' first
    | with_reducible apply Moves.refl
    | with_reducible assumption
    | (extract_lets -useContext -merge -underBinder +onlyGivenNames x; with_reducible apply Moves.cut (x := x); pick_goal 2; dsimp only [x]; clear x; pick_goal 2; clear_value x; intro hx)
    | (extract_lets -useContext -merge -underBinder +onlyGivenNames x; skip)
    | with_reducible apply Moves.ite
    | (with_reducible apply Moves.step; (with_reducible first
        | apply State.setCrew_moves | apply State.setTask_moves); decide)
    | split
    | (clear_value *; split)

theorem State.dequeue_moves {s : State} {id : Nat} :
    Moves [.crews] s (State.dequeue s id) := by
  unfold State.dequeue
  repeat' first
    | with_reducible apply Moves.refl
    | with_reducible assumption
    | (extract_lets -useContext -merge -underBinder +onlyGivenNames x; with_reducible apply Moves.cut (x := x); pick_goal 2; dsimp only [x]; clear x; pick_goal 2; clear_value x; intro hx)
    | (extract_lets -useContext -merge -underBinder +onlyGivenNames x; skip)
    | (with_reducible apply Moves.step; (with_reducible first
        | apply State.setCrew_moves); decide)

theorem State.park_moves {s : State} {c : Nat} {id : Nat} {why : ParkWhy} :
    Moves [.lossCounts, .regs, .crews, .tasks] s (State.park s c id why) := by
  unfold State.park
  repeat' first
    | with_reducible apply Moves.refl
    | with_reducible assumption
    | (extract_lets -useContext -merge -underBinder +onlyGivenNames x; with_reducible apply Moves.cut (x := x); pick_goal 2; dsimp only [x]; clear x; pick_goal 2; clear_value x; intro hx)
    | (extract_lets -useContext -merge -underBinder +onlyGivenNames x; skip)
    | with_reducible apply Moves.ite
    | (with_reducible apply Moves.step; (with_reducible first
        | apply State.dequeue_moves | apply State.bump_moves | apply State.setCrew_moves | apply State.setTask_moves); decide)
    | split
    | (clear_value *; split)

theorem State.wakeCrew_moves {s : State} {c : Nat} :
    Moves [.crews, .tasks] s (State.wakeCrew s c) := by
  unfold State.wakeCrew
  repeat' first
    | with_reducible apply Moves.refl
    | with_reducible assumption
    | with_reducible apply Moves.ite
    | (with_reducible apply Moves.step; (with_reducible first
        | apply State.enqueue_moves | apply State.dequeue_moves); decide)
    | (with_reducible apply Moves.foldl; intro _ _ _)
    | split

theorem State.rewake_moves {s : State} :
    Moves [.crews, .tasks] s (State.rewake s) := by
  unfold State.rewake
  repeat' first
    | with_reducible apply Moves.refl
    | with_reducible assumption
    | (with_reducible apply Moves.step; (with_reducible first
        | apply State.wakeCrew_moves); decide)
    | (with_reducible apply Moves.foldl; intro _ _ _)

theorem State.releaseRun_moves {s : State} {id : Nat} :
    Moves (logged [.regs, .mem, .poison, .crews, .ergs, .tasks, .dunes, .tier, .kv]) s (State.releaseRun s id) := by
  unfold State.releaseRun
  repeat' first
    | with_reducible apply Moves.refl
    | with_reducible assumption
    | (extract_lets -useContext -merge -underBinder +onlyGivenNames x; with_reducible apply Moves.cut (x := x); pick_goal 2; dsimp only [x]; clear x; pick_goal 2; clear_value x; intro hx)
    | (extract_lets -useContext -merge -underBinder +onlyGivenNames x; skip)
    | with_reducible apply Moves.ite
    | (with_reducible apply Moves.step; (with_reducible first
        | apply State.releaseClaims_moves | apply State.returnFrames_moves | apply State.setCrew_moves
        | apply State.setErg_moves | apply State.setTask_moves | apply State.updTensor_moves); decide)
    | (with_reducible apply Moves.foldl; intro _ _ _)
    | split
    | (clear_value *; split)

theorem State.leaveScull_moves {s : State} {id : Nat} :
    Moves [.sculls] s (State.leaveScull s id) := by
  unfold State.leaveScull
  repeat' first
    | with_reducible apply Moves.refl
    | with_reducible assumption
    | (extract_lets -useContext -merge -underBinder +onlyGivenNames x; with_reducible apply Moves.cut (x := x); pick_goal 2; dsimp only [x]; clear x; pick_goal 2; clear_value x; intro hx)
    | (extract_lets -useContext -merge -underBinder +onlyGivenNames x; skip)
    | with_reducible apply Moves.ite
    | (with_reducible apply Moves.step; (with_reducible first
        | apply State.setScull_moves); decide)
    | split
    | (clear_value *; split)

theorem State.ringIrq_moves {s : State} {q : Nat} :
    Moves [.sent, .rings, .vecPend] s (State.ringIrq s q) := by
  unfold State.ringIrq
  repeat' first
    | with_reducible apply Moves.refl
    | with_reducible assumption
    | (extract_lets -useContext -merge -underBinder +onlyGivenNames x; with_reducible apply Moves.cut (x := x); pick_goal 2; dsimp only [x]; clear x; pick_goal 2; clear_value x; intro hx)
    | (extract_lets -useContext -merge -underBinder +onlyGivenNames x; skip)
    | with_reducible apply Moves.ite
    | (with_reducible apply Moves.step; (with_reducible first
        | apply State.setRing_moves | apply State.raise_moves); decide)
    | split
    | (clear_value *; split)

theorem State.putRecord_moves {s : State} {q : Nat} {ws : List Word} :
    Moves [.mem, .rings] s (State.putRecord s q ws) := by
  unfold State.putRecord
  repeat' first
    | with_reducible apply Moves.refl
    | with_reducible assumption
    | (extract_lets -useContext -merge -underBinder +onlyGivenNames x; with_reducible apply Moves.cut (x := x); pick_goal 2; dsimp only [x]; clear x; pick_goal 2; clear_value x; intro hx)
    | (extract_lets -useContext -merge -underBinder +onlyGivenNames x; skip)
    | (with_reducible apply Moves.step; (with_reducible first
        | apply State.store_moves | apply State.setRing_moves); decide)

theorem State.drainRing_moves {s : State} {q : Nat} :
    Moves [.rings] s (State.drainRing s q) := by
  unfold State.drainRing
  repeat' first
    | with_reducible apply Moves.refl
    | with_reducible assumption
    | (extract_lets -useContext -merge -underBinder +onlyGivenNames x; with_reducible apply Moves.cut (x := x); pick_goal 2; dsimp only [x]; clear x; pick_goal 2; clear_value x; intro hx)
    | (extract_lets -useContext -merge -underBinder +onlyGivenNames x; skip)
    | with_reducible apply Moves.ite
    | (with_reducible apply Moves.step; (with_reducible first
        | apply State.setRing_moves); decide)
    | split
    | (clear_value *; split)

theorem State.ringDone_moves {s : State} {q : Nat} {id : Nat} {st : Status} :
    Moves [.sent, .mem, .rings, .vecPend] s (State.ringDone s q id st) := by
  unfold State.ringDone
  repeat' first
    | with_reducible apply Moves.refl
    | with_reducible assumption
    | (extract_lets -useContext -merge -underBinder +onlyGivenNames x; with_reducible apply Moves.cut (x := x); pick_goal 2; dsimp only [x]; clear x; pick_goal 2; clear_value x; intro hx)
    | (extract_lets -useContext -merge -underBinder +onlyGivenNames x; skip)
    | with_reducible apply Moves.ite
    | (with_reducible apply Moves.step; (with_reducible first
        | apply State.ringIrq_moves | apply State.putRecord_moves | apply State.drainRing_moves
        | apply State.setRing_moves); decide)
    | split
    | (clear_value *; split)

theorem State.addCtr_moves {s : State} {n : Nat} {v : Word} :
    Moves [.ctrs] s (State.addCtr s n v) := by
  unfold State.addCtr
  repeat' first
    | with_reducible apply Moves.refl
    | with_reducible assumption
    | with_reducible apply Moves.ite
    | (with_reducible apply Moves.step; (with_reducible first
        | apply State.setCtr_moves); decide)
    | split

theorem State.schedEnds_moves {s : State} {op : Nat} {part : Nat} {moved : Nat} {st : Status} :
    Moves (logged [.sched]) s (State.schedEnds s op part moved st) := by
  unfold State.schedEnds
  repeat' first
    | with_reducible apply Moves.refl
    | with_reducible assumption
    | (extract_lets -useContext -merge -underBinder +onlyGivenNames x; with_reducible apply Moves.cut (x := x); pick_goal 2; dsimp only [x]; clear x; pick_goal 2; clear_value x; intro hx)
    | (extract_lets -useContext -merge -underBinder +onlyGivenNames x; skip)
    | with_reducible apply Moves.ite
    | (with_reducible apply Moves.step; (with_reducible first
        | apply State.raiseReg_moves | apply State.emit_moves); decide)
    | split
    | (clear_value *; split)
    | (with_reducible apply Moves.step; (with_reducible apply Moves.upd_sched); decide)

theorem State.joinDrained_moves {s : State} :
    Moves (logged [.crews, .sched]) s (State.joinDrained s) := by
  unfold State.joinDrained
  repeat' first
    | with_reducible apply Moves.refl
    | with_reducible assumption
    | (extract_lets -useContext -merge -underBinder +onlyGivenNames x; with_reducible apply Moves.cut (x := x); pick_goal 2; dsimp only [x]; clear x; pick_goal 2; clear_value x; intro hx)
    | (extract_lets -useContext -merge -underBinder +onlyGivenNames x; skip)
    | with_reducible apply Moves.ite
    | (with_reducible apply Moves.step; (with_reducible first
        | apply State.schedEnds_moves | apply State.setCrew_moves); decide)
    | (with_reducible apply Moves.foldl; intro _ _ _)
    | split
    | (clear_value *; split)
    | (with_reducible apply Moves.step; (with_reducible apply Moves.upd_sched); decide)

theorem State.recomputeDone_moves {s : State} {i : Nat} {st : Status} :
    Moves (logged [.regs, .mem, .poison, .dunes, .tier]) s (State.recomputeDone s i st) := by
  unfold State.recomputeDone
  repeat' first
    | with_reducible apply Moves.refl
    | with_reducible assumption
    | (extract_lets -useContext -merge -underBinder +onlyGivenNames x; with_reducible apply Moves.cut (x := x); pick_goal 2; dsimp only [x]; clear x; pick_goal 2; clear_value x; intro hx)
    | (extract_lets -useContext -merge -underBinder +onlyGivenNames x; skip)
    | with_reducible apply Moves.ite
    | (with_reducible apply Moves.step; (with_reducible first
        | apply State.sendHome_moves | apply State.emitTier_moves); decide)
    | split
    | (clear_value *; split)

theorem State.countEvents_moves {s : State} {t : Task} :
    Moves [.lowp] s (State.countEvents s t) := by
  unfold State.countEvents
  repeat' first
    | with_reducible apply Moves.refl
    | with_reducible assumption
    | (extract_lets -useContext -merge -underBinder +onlyGivenNames x; with_reducible apply Moves.cut (x := x); pick_goal 2; dsimp only [x]; clear x; pick_goal 2; clear_value x; intro hx)
    | (extract_lets -useContext -merge -underBinder +onlyGivenNames x; skip)
    | (with_reducible apply Moves.step; (with_reducible apply Moves.upd_lowp); decide)

theorem State.finishTask_moves {s : State} {id : Nat} {st : Status} :
    Moves (logged [.regs, .mem, .poison, .sculls, .crews, .ergs, .ctrs, .tasks, .rings, .dunes, .tier, .kv, .lowp, .sched]) s (State.finishTask s id st) := by
  unfold State.finishTask
  repeat' first
    | with_reducible apply Moves.refl
    | with_reducible assumption
    | (extract_lets -useContext -merge -underBinder +onlyGivenNames x; with_reducible apply Moves.cut (x := x); pick_goal 2; dsimp only [x]; clear x; pick_goal 2; clear_value x; intro hx)
    | (extract_lets -useContext -merge -underBinder +onlyGivenNames x; skip)
    | with_reducible apply Moves.ite
    | (with_reducible apply Moves.step; (with_reducible first
        | apply State.dequeue_moves | apply State.rewake_moves | apply State.releaseRun_moves
        | apply State.leaveScull_moves | apply State.ringDone_moves | apply State.addCtr_moves
        | apply State.joinDrained_moves | apply State.recomputeDone_moves | apply State.countEvents_moves
        | apply State.stick_moves | apply State.setTask_moves); decide)
    | split
    | (clear_value *; split)

theorem State.countBlocks_moves {s : State} {t : Task} :
    Moves (logged [.fresh, .regs, .mem, .poison, .dunes, .tier]) s (State.countBlocks s t) := by
  unfold State.countBlocks
  repeat' first
    | with_reducible apply Moves.refl
    | with_reducible assumption
    | (with_reducible apply Moves.step; (with_reducible first
        | apply State.countNarrow_moves | apply State.heatRange_moves); decide)
    | (with_reducible apply Moves.foldl; intro _ _ _)

theorem State.judge_moves {s : State} {q : Nat} {l : List Nat} : Moves (logged [.fresh, .regs, .mem, .poison, .sculls, .crews, .ergs, .ctrs, .tasks, .rings, .dunes, .tier, .kv, .lowp, .sched]) s (State.judge s q l) := by
  induction l generalizing s with
  | nil => exact Moves.refl _ _
  | cons id rest ih =>
    unfold State.judge
    repeat' first
      | with_reducible apply Moves.refl
      | with_reducible assumption
      | (extract_lets -useContext -merge -underBinder +onlyGivenNames x; with_reducible apply Moves.cut (x := x); pick_goal 2; dsimp only [x]; clear x; pick_goal 2; clear_value x; intro hx)
      | (extract_lets -useContext -merge -underBinder +onlyGivenNames x; skip)
      | with_reducible apply Moves.ite
      | (with_reducible apply Moves.step; (with_reducible first
        | apply ih | apply State.finishTask_moves | apply State.countBlocks_moves | apply State.setTask_moves); decide)
      | (with_reducible apply Moves.of_pair; assumption)
      | split
      | (clear_value *; split)

theorem State.deliver_moves {s : State} {q : Nat} {x2 : Nat} :
    Moves (logged [.regs, .mem, .poison, .sculls, .crews, .ergs, .ctrs, .tasks, .rings, .dunes, .tier, .kv, .lowp, .sched]) s (State.deliver s q x2) := by
  induction x2 generalizing s q with
  | zero => exact Moves.refl _ _
  | succ n ih =>
    unfold State.deliver
    repeat' first
      | with_reducible apply Moves.refl
      | with_reducible assumption
      | (extract_lets -useContext -merge -underBinder +onlyGivenNames x; with_reducible apply Moves.cut (x := x); pick_goal 2; dsimp only [x]; clear x; pick_goal 2; clear_value x; intro hx)
      | (extract_lets -useContext -merge -underBinder +onlyGivenNames x; skip)
      | with_reducible apply Moves.ite
      | (with_reducible apply Moves.step; (with_reducible first
        | apply State.enqueue_moves | apply State.finishTask_moves | apply State.setTask_moves
        | apply State.setRing_moves | apply ih); decide)
      | split
      | (clear_value *; split)

theorem State.pump_moves {s : State} {q : Nat} {fuel : Nat} :
    Moves (logged [.fresh, .regs, .mem, .poison, .sculls, .crews, .ergs, .ctrs, .tasks, .rings, .dunes, .tier, .kv, .lowp, .sched]) s (State.pump s q fuel) := by
  unfold State.pump
  repeat' first
    | with_reducible apply Moves.refl
    | with_reducible assumption
    | (extract_lets -useContext -merge -underBinder +onlyGivenNames x; with_reducible apply Moves.cut (x := x); pick_goal 2; dsimp only [x]; clear x; pick_goal 2; clear_value x; intro hx)
    | (extract_lets -useContext -merge -underBinder +onlyGivenNames x; skip)
    | with_reducible apply Moves.ite
    | (with_reducible apply Moves.step; (with_reducible first
        | apply State.judge_moves | apply State.deliver_moves); decide)
    | split
    | (clear_value *; split)

theorem State.pumpAll_moves {s : State} :
    Moves (logged [.fresh, .regs, .mem, .poison, .sculls, .crews, .ergs, .ctrs, .tasks, .rings, .dunes, .tier, .kv, .lowp, .sched]) s (State.pumpAll s) := by
  unfold State.pumpAll
  repeat' first
    | with_reducible apply Moves.refl
    | with_reducible assumption
    | (with_reducible apply Moves.step; (with_reducible first
        | apply State.pump_moves); decide)
    | (with_reducible apply Moves.foldl; intro _ _ _)

theorem State.doneTask_moves {s : State} {id : Nat} {st : Status} :
    Moves (logged [.fresh, .regs, .mem, .poison, .sculls, .crews, .ergs, .ctrs, .tasks, .rings, .dunes, .tier, .kv, .lowp, .sched]) s (State.doneTask s id st) := by
  unfold State.doneTask
  repeat' first
    | with_reducible apply Moves.refl
    | with_reducible assumption
    | (with_reducible apply Moves.step; (with_reducible first
        | apply State.finishTask_moves | apply State.pumpAll_moves); decide)

theorem State.requeue_moves {s : State} {id : Nat} {preempted : Bool} :
    Moves (logged [.regs, .mem, .poison, .sculls, .crews, .ergs, .ctrs, .tasks, .rings, .dunes, .tier, .kv, .lowp, .sched]) s (State.requeue s id preempted) := by
  unfold State.requeue
  repeat' first
    | with_reducible apply Moves.refl
    | with_reducible assumption
    | (extract_lets -useContext -merge -underBinder +onlyGivenNames x; with_reducible apply Moves.cut (x := x); pick_goal 2; dsimp only [x]; clear x; pick_goal 2; clear_value x; intro hx)
    | (extract_lets -useContext -merge -underBinder +onlyGivenNames x; skip)
    | with_reducible apply Moves.ite
    | (with_reducible apply Moves.step; (with_reducible first
        | apply State.enqueue_moves | apply State.finishTask_moves | apply State.bump_moves
        | apply State.setTask_moves); decide)
    | split
    | (clear_value *; split)

theorem State.handBack_moves {s : State} {id : Nat} {preempted : Bool} :
    Moves (logged [.fresh, .regs, .mem, .poison, .sculls, .crews, .ergs, .ctrs, .tasks, .rings, .dunes, .tier, .kv, .lowp, .sched]) s (State.handBack s id preempted) := by
  unfold State.handBack
  repeat' first
    | with_reducible apply Moves.refl
    | with_reducible assumption
    | (extract_lets -useContext -merge -underBinder +onlyGivenNames x; with_reducible apply Moves.cut (x := x); pick_goal 2; dsimp only [x]; clear x; pick_goal 2; clear_value x; intro hx)
    | (extract_lets -useContext -merge -underBinder +onlyGivenNames x; skip)
    | with_reducible apply Moves.ite
    | (with_reducible apply Moves.step; (with_reducible first
        | apply State.rewake_moves | apply State.releaseRun_moves | apply State.leaveScull_moves
        | apply State.joinDrained_moves | apply State.pumpAll_moves | apply State.requeue_moves
        | apply State.bump_moves | apply State.setScull_moves | apply State.setTask_moves); decide)
    | split
    | (clear_value *; split)

theorem State.endRun_moves {s : State} {id : Nat} {preempted : Bool} :
    Moves (logged [.fresh, .regs, .mem, .poison, .sculls, .crews, .ergs, .ctrs, .tasks, .rings, .dunes, .tier, .kv, .lowp, .sched]) s (State.endRun s id preempted) := by
  unfold State.endRun
  repeat' first
    | with_reducible apply Moves.refl
    | with_reducible assumption
    | (extract_lets -useContext -merge -underBinder +onlyGivenNames x; with_reducible apply Moves.cut (x := x); pick_goal 2; dsimp only [x]; clear x; pick_goal 2; clear_value x; intro hx)
    | (extract_lets -useContext -merge -underBinder +onlyGivenNames x; skip)
    | with_reducible apply Moves.ite
    | (with_reducible apply Moves.step; (with_reducible first
        | apply State.handBack_moves | apply State.setTask_moves); decide)
    | split
    | (clear_value *; split)

theorem State.failRun_moves {s : State} {id : Nat} {st : Status} :
    Moves (logged [.fresh, .regs, .mem, .poison, .sculls, .crews, .ergs, .ctrs, .tasks, .rings, .dunes, .tier, .kv, .lowp, .sched]) s (State.failRun s id st) := by
  unfold State.failRun
  repeat' first
    | with_reducible apply Moves.refl
    | with_reducible assumption
    | (with_reducible apply Moves.step; (with_reducible first
        | apply State.doneTask_moves); decide)

theorem State.dropRange_moves {s : State} {lo hi : Nat} : Moves [.mem, .poison] s (s.dropRange lo hi) :=
  Moves.upd_memory fun h => ⟨Tab.okBy_filter _ _ _ ((Tab.wf_iff _ _).1 h.1), h.2.filter _⟩

theorem State.retireOne_moves {s : State} {k : Nat} {cause : Nat} :
    Moves (logged [.fresh, .regs, .mem, .poison, .sculls, .crews, .ergs, .ctrs, .tasks, .rings, .dunes, .tier, .kv, .lowp, .sched]) s (State.retireOne s k cause) := by
  unfold State.retireOne
  repeat' first
    | with_reducible apply Moves.refl
    | with_reducible assumption
    | (extract_lets -useContext -merge -underBinder +onlyGivenNames x; with_reducible apply Moves.cut (x := x); pick_goal 2; dsimp only [x]; clear x; pick_goal 2; clear_value x; intro hx)
    | (extract_lets -useContext -merge -underBinder +onlyGivenNames x; skip)
    | with_reducible apply Moves.ite
    | (with_reducible apply Moves.step; (with_reducible first
        | apply State.endRun_moves | apply State.dropRange_moves | apply State.bump_moves
        | apply State.setScull_moves | apply State.emitUnit_moves); decide)
    | (with_reducible apply Moves.foldl; intro _ _ _)
    | split
    | (clear_value *; split)

theorem State.moveTask_moves {s : State} {id : Nat} {ok : Nat → Bool} :
    Moves (logged [.regs, .mem, .poison, .sculls, .crews, .ergs, .ctrs, .tasks, .rings, .dunes, .tier, .kv, .lowp, .sched]) s (State.moveTask s id ok) := by
  unfold State.moveTask
  repeat' first
    | with_reducible apply Moves.refl
    | with_reducible assumption
    | (extract_lets -useContext -merge -underBinder +onlyGivenNames x; with_reducible apply Moves.cut (x := x); pick_goal 2; dsimp only [x]; clear x; pick_goal 2; clear_value x; intro hx)
    | (extract_lets -useContext -merge -underBinder +onlyGivenNames x; skip)
    | with_reducible apply Moves.ite
    | (with_reducible apply Moves.step; (with_reducible first
        | apply State.enqueue_moves | apply State.dequeue_moves | apply State.finishTask_moves
        | apply State.setCrew_moves | apply State.setTask_moves); decide)
    | split
    | (clear_value *; split)

theorem State.moveQueue_moves {s : State} {c : Nat} {which : Task → Bool} {ok : Nat → Bool} :
    Moves (logged [.regs, .mem, .poison, .sculls, .crews, .ergs, .ctrs, .tasks, .rings, .dunes, .tier, .kv, .lowp, .sched]) s (State.moveQueue s c which ok) := by
  unfold State.moveQueue
  repeat' first
    | with_reducible apply Moves.refl
    | with_reducible assumption
    | with_reducible apply Moves.ite
    | (with_reducible apply Moves.step; (with_reducible first
        | apply State.moveTask_moves); decide)
    | (with_reducible apply Moves.foldl; intro _ _ _)
    | split

theorem State.retireCrew_moves {s : State} {c : Nat} {cause : Nat} :
    Moves (logged [.fresh, .regs, .mem, .poison, .sculls, .crews, .ergs, .ctrs, .tasks, .rings, .dunes, .tier, .kv, .lowp, .sched]) s (State.retireCrew s c cause) := by
  unfold State.retireCrew
  repeat' first
    | with_reducible apply Moves.refl
    | with_reducible assumption
    | (extract_lets -useContext -merge -underBinder +onlyGivenNames x; with_reducible apply Moves.cut (x := x); pick_goal 2; dsimp only [x]; clear x; pick_goal 2; clear_value x; intro hx)
    | (extract_lets -useContext -merge -underBinder +onlyGivenNames x; skip)
    | with_reducible apply Moves.ite
    | (with_reducible apply Moves.step; (with_reducible first
        | apply State.rewake_moves | apply State.joinDrained_moves | apply State.pumpAll_moves
        | apply State.dropRange_moves | apply State.retireOne_moves | apply State.moveQueue_moves
        | apply State.bump_moves | apply State.setCrew_moves | apply State.emitUnit_moves); decide)
    | (with_reducible apply Moves.foldl; intro _ _ _)
    | split
    | (clear_value *; split)

theorem State.retireScull_moves {s : State} {k : Nat} {cause : Nat} :
    Moves (logged [.fresh, .regs, .mem, .poison, .sculls, .crews, .ergs, .ctrs, .tasks, .rings, .dunes, .tier, .kv, .lowp, .sched]) s (State.retireScull s k cause) := by
  unfold State.retireScull
  repeat' first
    | with_reducible apply Moves.refl
    | with_reducible assumption
    | (extract_lets -useContext -merge -underBinder +onlyGivenNames x; with_reducible apply Moves.cut (x := x); pick_goal 2; dsimp only [x]; clear x; pick_goal 2; clear_value x; intro hx)
    | (extract_lets -useContext -merge -underBinder +onlyGivenNames x; skip)
    | with_reducible apply Moves.ite
    | (with_reducible apply Moves.step; (with_reducible first
        | apply State.retireOne_moves | apply State.retireCrew_moves); decide)
    | split
    | (clear_value *; split)

theorem State.storeLimit_moves {s : State} {k : Nat} :
    Moves (logged [.fresh, .regs, .mem, .poison, .sculls, .crews, .ergs, .ctrs, .tasks, .rings, .dunes, .tier, .kv, .lowp, .sched]) s (State.storeLimit s k) := by
  unfold State.storeLimit
  repeat' first
    | with_reducible apply Moves.refl
    | with_reducible assumption
    | with_reducible apply Moves.ite
    | (with_reducible apply Moves.step; (with_reducible first
        | apply State.retireScull_moves); decide)
    | split

theorem State.retireBow_moves {s : State} {d : Nat} {cause : Nat} :
    Moves (logged [.fresh, .regs, .mem, .poison, .sculls, .crews, .ergs, .ctrs, .tasks, .rings, .dunes, .tier, .kv, .lowp, .sched]) s (State.retireBow s d cause) := by
  unfold State.retireBow
  repeat' first
    | with_reducible apply Moves.refl
    | with_reducible assumption
    | (extract_lets -useContext -merge -underBinder +onlyGivenNames x; with_reducible apply Moves.cut (x := x); pick_goal 2; dsimp only [x]; clear x; pick_goal 2; clear_value x; intro hx)
    | (extract_lets -useContext -merge -underBinder +onlyGivenNames x; skip)
    | with_reducible apply Moves.ite
    | (with_reducible apply Moves.step; (with_reducible first
        | apply State.rewake_moves | apply State.pumpAll_moves | apply State.endRun_moves
        | apply State.moveQueue_moves | apply State.bump_moves | apply State.setErg_moves
        | apply State.emitUnit_moves); decide)
    | (with_reducible apply Moves.foldl; intro _ _ _)
    | split
    | (clear_value *; split)

end Sys2Proof.Machine
end

