-- ==== Sys2Proof/Laws/FrameLink.lean ====
section
/-! SUPPORT. What the functions of Machine/Link.lean may change. -/

set_option linter.unusedTactic false
set_option linter.unreachableTactic false
set_option linter.tactic.unusedName false

namespace Sys2Proof.Machine

open Sys2Proof.Laws Sys2Proof.Safety

theorem State.sendIdle_moves {s : State} {p : Nat} {ack : Nat} {nak : Bool} {vc : Nat} {credits : Nat} :
    Moves [.sent] s (State.sendIdle s p ack nak vc credits) := by
  unfold State.sendIdle
  repeat' first
    | with_reducible apply Moves.refl
    | with_reducible assumption
    | (with_reducible apply Moves.step; (with_reducible apply Moves.upd_tx); decide)

theorem State.sendWaiting_moves {s : State} {p : Nat} {x2 : Nat} :
    Moves [.sent, .ports] s (State.sendWaiting s p x2) := by
  induction x2 generalizing s p with
  | zero => exact Moves.refl _ _
  | succ n ih =>
    unfold State.sendWaiting
    repeat' first
      | with_reducible apply Moves.refl
      | with_reducible assumption
      | (extract_lets -useContext -merge -underBinder +onlyGivenNames x; with_reducible apply Moves.cut (x := x); pick_goal 2; dsimp only [x]; clear x; pick_goal 2; clear_value x; intro hx)
      | (extract_lets -useContext -merge -underBinder +onlyGivenNames x; skip)
      | with_reducible apply Moves.ite
      | (with_reducible apply Moves.step; (with_reducible first
        | apply State.setPort_moves | apply ih); decide)
      | split
      | (clear_value *; split)
      | (with_reducible apply Moves.step; (with_reducible apply Moves.upd_tx); decide)

theorem State.sendFrom_moves {s : State} {p : Nat} {src : Nat} {m : OutMsg} :
    Moves [.sent, .ports] s (State.sendFrom s p src m) := by
  unfold State.sendFrom
  repeat' first
    | with_reducible apply Moves.refl
    | with_reducible assumption
    | (extract_lets -useContext -merge -underBinder +onlyGivenNames x; with_reducible apply Moves.cut (x := x); pick_goal 2; dsimp only [x]; clear x; pick_goal 2; clear_value x; intro hx)
    | (extract_lets -useContext -merge -underBinder +onlyGivenNames x; skip)
    | (with_reducible apply Moves.step; (with_reducible first
        | apply State.sendWaiting_moves | apply State.setPort_moves); decide)

theorem State.sendOn_moves {s : State} {p : Nat} {m : OutMsg} :
    Moves [.sent, .ports] s (State.sendOn s p m) := by
  unfold State.sendOn
  repeat' first
    | with_reducible apply Moves.refl
    | with_reducible assumption
    | (with_reducible apply Moves.step; (with_reducible first
        | apply State.sendFrom_moves); decide)

theorem State.route_moves {s : State} {src : Nat} {m : OutMsg} :
    Moves [.sent, .lossCounts, .regs, .ports] s (State.route s src m) := by
  unfold State.route
  repeat' first
    | with_reducible apply Moves.refl
    | with_reducible assumption
    | with_reducible apply Moves.ite
    | (with_reducible apply Moves.step; (with_reducible first
        | apply State.sendFrom_moves | apply State.bump_moves); decide)
    | split

theorem State.sendMsg_moves {s : State} {m : OutMsg} :
    Moves [.sent, .lossCounts, .regs, .ports] s (State.sendMsg s m) := by
  unfold State.sendMsg
  repeat' first
    | with_reducible apply Moves.refl
    | with_reducible assumption
    | (with_reducible apply Moves.step; (with_reducible first
        | apply State.route_moves); decide)

theorem State.peerRead_moves {s : State} {id : Nat} {da : Nat} {n : Nat} :
    Moves [.sent, .lossCounts, .regs, .ports, .peers] s (State.peerRead s id da n) := by
  unfold State.peerRead
  repeat' first
    | with_reducible apply Moves.refl
    | with_reducible assumption
    | (extract_lets -useContext -merge -underBinder +onlyGivenNames x; with_reducible apply Moves.cut (x := x); pick_goal 2; dsimp only [x]; clear x; pick_goal 2; clear_value x; intro hx)
    | (extract_lets -useContext -merge -underBinder +onlyGivenNames x; skip)
    | (with_reducible apply Moves.step; (with_reducible first
        | apply State.sendMsg_moves); decide)
    | (with_reducible apply Moves.foldl; intro _ _ _)
    | (with_reducible apply Moves.of_pair; assumption)
    | (with_reducible apply Moves.of_reply; assumption)
    | split
    | (clear_value *; split)
    | (with_reducible apply Moves.step; (with_reducible apply Moves.upd_peers); decide)

theorem State.peerWrite_moves {s : State} {id : Nat} {line : Nat} {cs : List Cell} :
    Moves [.sent, .lossCounts, .regs, .ports, .peers] s (State.peerWrite s id line cs) := by
  unfold State.peerWrite
  repeat' first
    | with_reducible apply Moves.refl
    | with_reducible assumption
    | (extract_lets -useContext -merge -underBinder +onlyGivenNames x; with_reducible apply Moves.cut (x := x); pick_goal 2; dsimp only [x]; clear x; pick_goal 2; clear_value x; intro hx)
    | (extract_lets -useContext -merge -underBinder +onlyGivenNames x; skip)
    | (with_reducible apply Moves.step; (with_reducible first
        | apply State.sendMsg_moves); decide)
    | (with_reducible apply Moves.foldl; intro _ _ _)
    | (with_reducible apply Moves.foldl_snd; intro _ _ _)
    | (with_reducible apply Moves.of_pair; assumption)
    | (with_reducible apply Moves.of_reply; assumption)
    | split
    | (clear_value *; split)
    | (with_reducible apply Moves.step; (with_reducible apply Moves.upd_peers); decide)

end Sys2Proof.Machine
end

