-- ==== Sys2Proof/Laws/FrameDma.lean ====
section
/-! SUPPORT. What the functions of Machine/Dma.lean may change. -/

set_option linter.unusedTactic false
set_option linter.unreachableTactic false
set_option linter.tactic.unusedName false

namespace Sys2Proof.Machine

open Sys2Proof.Laws Sys2Proof.Safety

theorem State.issue_moves {s : State} {id : Nat} {x : Xfer} :
    Moves (logged [.fresh, .regs, .mem, .poison, .dunes, .tier, .ports, .peers]) s (State.issue s id x) := by
  unfold State.issue
  repeat' first
    | with_reducible apply Moves.refl
    | with_reducible assumption
    | (extract_lets -useContext -merge -underBinder +onlyGivenNames x; with_reducible apply Moves.cut (x := x); pick_goal 2; dsimp only [x]; clear x; pick_goal 2; clear_value x; intro hx)
    | (extract_lets -useContext -merge -underBinder +onlyGivenNames x; skip)
    | with_reducible apply Moves.ite
    | (with_reducible apply Moves.step; (with_reducible first
        | apply State.peerRead_moves | apply State.heatRange_moves); decide)
    | (with_reducible apply Moves.foldl; intro _ _ _)
    | split
    | (clear_value *; split)

theorem State.freeDrained_moves {s : State} {id : Nat} :
    Moves [.sculls] s (State.freeDrained s id) := by
  unfold State.freeDrained
  repeat' first
    | with_reducible apply Moves.refl
    | with_reducible assumption
    | (extract_lets -useContext -merge -underBinder +onlyGivenNames x; with_reducible apply Moves.cut (x := x); pick_goal 2; dsimp only [x]; clear x; pick_goal 2; clear_value x; intro hx)
    | (extract_lets -useContext -merge -underBinder +onlyGivenNames x; skip)
    | (with_reducible apply Moves.step; (with_reducible first
        | apply State.setScull_moves); decide)
    | split
    | (clear_value *; split)

theorem State.startXfers_moves {s : State} {id : Nat} {x2 : Nat} :
    Moves (logged [.fresh, .regs, .mem, .poison, .tasks, .dunes, .tier, .ports, .peers]) s (State.startXfers s id x2) := by
  induction x2 generalizing s id with
  | zero => exact Moves.refl _ _
  | succ n ih =>
    unfold State.startXfers
    repeat' first
      | with_reducible apply Moves.refl
      | with_reducible assumption
      | (extract_lets -useContext -merge -underBinder +onlyGivenNames x; with_reducible apply Moves.cut (x := x); pick_goal 2; dsimp only [x]; clear x; pick_goal 2; clear_value x; intro hx)
      | (extract_lets -useContext -merge -underBinder +onlyGivenNames x; skip)
      | with_reducible apply Moves.ite
      | (with_reducible apply Moves.step; (with_reducible first
        | apply State.issue_moves | apply State.setTask_moves | apply ih); decide)
      | split
      | (clear_value *; split)

theorem State.pumpXfers_moves {s : State} {id : Nat} :
    Moves (logged [.fresh, .regs, .mem, .poison, .sculls, .tasks, .dunes, .tier, .ports, .peers]) s (State.pumpXfers s id) := by
  unfold State.pumpXfers
  repeat' first
    | with_reducible apply Moves.refl
    | with_reducible assumption
    | (with_reducible apply Moves.step; (with_reducible first
        | apply State.freeDrained_moves | apply State.startXfers_moves); decide)

theorem State.pumpScull_moves {s : State} {k : Nat} :
    Moves (logged [.fresh, .regs, .mem, .poison, .sculls, .tasks, .dunes, .tier, .ports, .peers]) s (State.pumpScull s k) := by
  unfold State.pumpScull
  repeat' first
    | with_reducible apply Moves.refl
    | with_reducible assumption
    | (with_reducible apply Moves.step; (with_reducible first
        | apply State.pumpXfers_moves); decide)
    | split

theorem State.giveXfers_moves {s : State} {id : Nat} {front : Bool} {xs : List Xfer} :
    Moves (logged [.fresh, .regs, .mem, .poison, .sculls, .tasks, .dunes, .tier, .ports, .peers]) s (State.giveXfers s id front xs) := by
  unfold State.giveXfers
  repeat' first
    | with_reducible apply Moves.refl
    | with_reducible assumption
    | (extract_lets -useContext -merge -underBinder +onlyGivenNames x; with_reducible apply Moves.cut (x := x); pick_goal 2; dsimp only [x]; clear x; pick_goal 2; clear_value x; intro hx)
    | (extract_lets -useContext -merge -underBinder +onlyGivenNames x; skip)
    | with_reducible apply Moves.ite
    | (with_reducible apply Moves.step; (with_reducible first
        | apply State.pumpXfers_moves | apply State.bumpBy_moves | apply State.setTask_moves); decide)
    | split
    | (clear_value *; split)

theorem State.addXfers_moves {s : State} {id : Nat} {xs : List Xfer} :
    Moves (logged [.fresh, .regs, .mem, .poison, .sculls, .tasks, .dunes, .tier, .ports, .peers]) s (State.addXfers s id xs) := by
  unfold State.addXfers
  repeat' first
    | with_reducible apply Moves.refl
    | with_reducible assumption
    | (with_reducible apply Moves.step; (with_reducible first
        | apply State.giveXfers_moves); decide)

theorem State.panelFill_moves {s : State} {c : Nat} {line : Nat} {src : Nat → Nat} :
    Moves [.crews] s (State.panelFill s c line src) := by
  unfold State.panelFill
  repeat' first
    | with_reducible apply Moves.refl
    | with_reducible assumption
    | (extract_lets -useContext -merge -underBinder +onlyGivenNames x; with_reducible apply Moves.cut (x := x); pick_goal 2; dsimp only [x]; clear x; pick_goal 2; clear_value x; intro hx)
    | (extract_lets -useContext -merge -underBinder +onlyGivenNames x; skip)
    | with_reducible apply Moves.ite
    | (with_reducible apply Moves.step; (with_reducible first
        | apply State.setCrew_moves); decide)
    | split
    | (clear_value *; split)

theorem State.reloadSlot_moves {s : State} {k : Nat} {id : Nat} {x : Xfer} {cs : List Cell} :
    Moves [.sculls] s (State.reloadSlot s k id x cs) := by
  unfold State.reloadSlot
  repeat' first
    | with_reducible apply Moves.refl
    | with_reducible assumption
    | (extract_lets -useContext -merge -underBinder +onlyGivenNames x; with_reducible apply Moves.cut (x := x); pick_goal 2; dsimp only [x]; clear x; pick_goal 2; clear_value x; intro hx)
    | (extract_lets -useContext -merge -underBinder +onlyGivenNames x; skip)
    | with_reducible apply Moves.ite
    | (with_reducible apply Moves.step; (with_reducible first
        | apply State.setScull_moves); decide)
    | split
    | (clear_value *; split)

theorem State.landRead_moves {s : State} {id : Nat} {x : Xfer} :
    Moves [.lossCounts, .regs, .sculls, .crews, .tasks] s (State.landRead s id x) := by
  unfold State.landRead
  repeat' first
    | with_reducible apply Moves.refl
    | with_reducible assumption
    | (extract_lets -useContext -merge -underBinder +onlyGivenNames x; with_reducible apply Moves.cut (x := x); pick_goal 2; dsimp only [x]; clear x; pick_goal 2; clear_value x; intro hx)
    | (extract_lets -useContext -merge -underBinder +onlyGivenNames x; skip)
    | with_reducible apply Moves.ite
    | (with_reducible apply Moves.step; (with_reducible first
        | apply State.panelFill_moves | apply State.reloadSlot_moves | apply State.countRead_moves
        | apply State.countNarrow_moves | apply State.setTask_moves); decide)
    | (with_reducible apply Moves.foldl; intro _ _ _)
    | split
    | (clear_value *; split)

theorem State.dirtied_moves {s : State} {x : Xfer} :
    Moves (logged [.regs, .mem, .poison, .dunes, .tier]) s (State.dirtied s x) := by
  unfold State.dirtied
  repeat' first
    | with_reducible apply Moves.refl
    | with_reducible assumption
    | with_reducible apply Moves.ite
    | (with_reducible apply Moves.step; (with_reducible first
        | apply State.updTensor_moves); decide)
    | (with_reducible apply Moves.foldl; intro _ _ _)
    | split

theorem State.landWrite_moves {s : State} {id : Nat} {x : Xfer} :
    Moves (logged [.regs, .mem, .poison, .tasks, .dunes, .tier]) s (State.landWrite s id x) := by
  unfold State.landWrite
  repeat' first
    | with_reducible apply Moves.refl
    | with_reducible assumption
    | (extract_lets -useContext -merge -underBinder +onlyGivenNames x; with_reducible apply Moves.cut (x := x); pick_goal 2; dsimp only [x]; clear x; pick_goal 2; clear_value x; intro hx)
    | (extract_lets -useContext -merge -underBinder +onlyGivenNames x; skip)
    | with_reducible apply Moves.ite
    | (with_reducible apply Moves.step; (with_reducible first
        | apply State.dirtied_moves | apply State.write_moves | apply State.setTask_moves); decide)
    | split
    | (clear_value *; split)

theorem State.captureFault_moves {s : State} {k : Nat} {offset : Nat} :
    Moves [.lossCounts, .regs] s (State.captureFault s k offset) := by
  unfold State.captureFault
  repeat' first
    | with_reducible apply Moves.refl
    | with_reducible assumption
    | with_reducible apply Moves.ite
    | (with_reducible apply Moves.step; (with_reducible first
        | apply State.setReg_moves); decide)
    | split

theorem State.storeUe_moves {s : State} {k : Nat} {offset : Nat} :
    Moves (logged [.regs, .sculls]) s (State.storeUe s k offset) := by
  unfold State.storeUe
  repeat' first
    | with_reducible apply Moves.refl
    | with_reducible assumption
    | (extract_lets -useContext -merge -underBinder +onlyGivenNames x; with_reducible apply Moves.cut (x := x); pick_goal 2; dsimp only [x]; clear x; pick_goal 2; clear_value x; intro hx)
    | (extract_lets -useContext -merge -underBinder +onlyGivenNames x; skip)
    | (with_reducible apply Moves.step; (with_reducible first
        | apply State.captureFault_moves | apply State.bump_moves | apply State.setScull_moves
        | apply State.emitUnit_moves); decide)

theorem State.parityEnds_moves {s : State} {fs : List (Nat × PieceCheck)} {ps0 : List (Nat × Nat × Nat)} :
    Moves [.dunes] s (State.parityEnds s fs ps0) := by
  unfold State.parityEnds
  repeat' first
    | with_reducible apply Moves.refl
    | with_reducible assumption
    | (extract_lets -useContext -merge -underBinder +onlyGivenNames x; with_reducible apply Moves.cut (x := x); pick_goal 2; dsimp only [x]; clear x; pick_goal 2; clear_value x; intro hx)
    | (extract_lets -useContext -merge -underBinder +onlyGivenNames x; skip)
    | with_reducible apply Moves.ite
    | (with_reducible apply Moves.step; (with_reducible first
        | apply State.parityGood_moves); decide)
    | (with_reducible apply Moves.foldl; intro _ _ _)
    | split
    | (clear_value *; split)

theorem State.foundAt_moves {s : State} {f : Nat × PieceCheck} :
    Moves (logged [.nv, .regs, .poison, .sculls, .dunes]) s (State.foundAt s f) := by
  unfold State.foundAt
  repeat' first
    | with_reducible apply Moves.refl
    | with_reducible assumption
    | with_reducible apply Moves.ite
    | (with_reducible apply Moves.step; (with_reducible first
        | apply State.storeUe_moves | apply State.scrubPiece_moves | apply State.bump_moves); decide)
    | split

theorem State.limitStores_moves {s : State} {fs : List (Nat × PieceCheck)} :
    Moves (logged [.fresh, .regs, .mem, .poison, .sculls, .crews, .ergs, .ctrs, .tasks, .rings, .dunes, .tier, .kv, .lowp, .sched]) s (State.limitStores s fs) := by
  unfold State.limitStores
  repeat' first
    | with_reducible apply Moves.refl
    | with_reducible assumption
    | with_reducible apply Moves.ite
    | (with_reducible apply Moves.step; (with_reducible first
        | apply State.storeLimit_moves); decide)
    | (with_reducible apply Moves.foldl; intro _ _ _)
    | split

end Sys2Proof.Machine
end

