-- ==== Sys2Proof/Laws/FrameArray.lean ====
section
/-! SUPPORT. What the functions of Machine/Array.lean may change. -/

set_option linter.unusedTactic false
set_option linter.unreachableTactic false
set_option linter.tactic.unusedName false

namespace Sys2Proof.Machine

open Sys2Proof.Laws Sys2Proof.Safety

theorem State.queueFills_moves {s : State} {id : Nat} {x2 : Nat} :
    Moves (logged [.fresh, .regs, .mem, .poison, .sculls, .tasks, .dunes, .tier, .ports, .peers]) s (State.queueFills s id x2) := by
  induction x2 generalizing s id with
  | zero => exact Moves.refl _ _
  | succ n ih =>
    unfold State.queueFills
    repeat' first
      | with_reducible apply Moves.refl
      | with_reducible assumption
      | (extract_lets -useContext -merge -underBinder +onlyGivenNames x; with_reducible apply Moves.cut (x := x); pick_goal 2; dsimp only [x]; clear x; pick_goal 2; clear_value x; intro hx)
      | (extract_lets -useContext -merge -underBinder +onlyGivenNames x; skip)
      | with_reducible apply Moves.ite
      | (with_reducible apply Moves.step; (with_reducible first
        | apply State.addXfers_moves | apply State.setTask_moves | apply ih); decide)
      | split
      | (clear_value *; split)

theorem State.stageSide_moves {s : State} {k : Nat} {id : Nat} {c : Chunk} {isA : Bool} {buf : Nat} {n : Nat} :
    Moves [.mem, .poison, .sculls, .tasks] s (State.stageSide s k id c isA buf n) := by
  unfold State.stageSide
  repeat' first
    | with_reducible apply Moves.refl
    | with_reducible assumption
    | (extract_lets -useContext -merge -underBinder +onlyGivenNames x; with_reducible apply Moves.cut (x := x); pick_goal 2; dsimp only [x]; clear x; pick_goal 2; clear_value x; intro hx)
    | (extract_lets -useContext -merge -underBinder +onlyGivenNames x; skip)
    | with_reducible apply Moves.ite
    | (with_reducible apply Moves.step; (with_reducible first
        | apply State.storeLocal_moves | apply State.setScull_moves | apply State.setTask_moves); decide)
    | (with_reducible apply Moves.foldl; intro _ _ _)
    | (with_reducible apply Moves.foldl_snd; intro _ _ _)
    | (with_reducible apply Moves.of_pair; assumption)
    | (with_reducible apply Moves.of_reply; assumption)
    | split
    | (clear_value *; split)

theorem State.spillPart_moves {s : State} {k : Nat} {id : Nat} {part : Nat} :
    Moves (logged [.fresh, .regs, .mem, .poison, .sculls, .tasks, .dunes, .tier, .ports, .peers]) s (State.spillPart s k id part) := by
  unfold State.spillPart
  repeat' first
    | with_reducible apply Moves.refl
    | with_reducible assumption
    | (extract_lets -useContext -merge -underBinder +onlyGivenNames x; with_reducible apply Moves.cut (x := x); pick_goal 2; dsimp only [x]; clear x; pick_goal 2; clear_value x; intro hx)
    | (extract_lets -useContext -merge -underBinder +onlyGivenNames x; skip)
    | with_reducible apply Moves.ite
    | (with_reducible apply Moves.step; (with_reducible first
        | apply State.giveXfers_moves | apply State.setScull_moves | apply State.setTask_moves); decide)
    | split
    | (clear_value *; split)

theorem State.openTurn_moves {s : State} {k : Nat} {id : Nat} {c : Chunk} {xs : List Xfer} :
    Moves (logged [.fresh, .regs, .mem, .poison, .sculls, .tasks, .dunes, .tier, .ports, .peers]) s (State.openTurn s k id c xs) := by
  unfold State.openTurn
  repeat' first
    | with_reducible apply Moves.refl
    | with_reducible assumption
    | (extract_lets -useContext -merge -underBinder +onlyGivenNames x; with_reducible apply Moves.cut (x := x); pick_goal 2; dsimp only [x]; clear x; pick_goal 2; clear_value x; intro hx)
    | (extract_lets -useContext -merge -underBinder +onlyGivenNames x; skip)
    | (with_reducible apply Moves.step; (with_reducible first
        | apply State.giveXfers_moves | apply State.setScull_moves | apply State.setTask_moves); decide)

theorem State.openPart_moves {s : State} {k : Nat} {id : Nat} {c : Chunk} :
    Moves (logged [.fresh, .regs, .mem, .poison, .sculls, .tasks, .dunes, .tier, .ports, .peers]) s (State.openPart s k id c) := by
  unfold State.openPart
  repeat' first
    | with_reducible apply Moves.refl
    | with_reducible assumption
    | (extract_lets -useContext -merge -underBinder +onlyGivenNames x; with_reducible apply Moves.cut (x := x); pick_goal 2; dsimp only [x]; clear x; pick_goal 2; clear_value x; intro hx)
    | (extract_lets -useContext -merge -underBinder +onlyGivenNames x; skip)
    | with_reducible apply Moves.ite
    | (with_reducible apply Moves.step; (with_reducible first
        | apply State.spillPart_moves | apply State.openTurn_moves | apply State.setScull_moves); decide)
    | split
    | (clear_value *; split)

theorem State.keepWords_moves {s : State} {k : Nat} {id : Nat} {part : Nat} {ws : List (List Word)} {st : SlotState} :
    Moves [.sculls] s (State.keepWords s k id part ws st) := by
  unfold State.keepWords
  repeat' first
    | with_reducible apply Moves.refl
    | with_reducible assumption
    | (extract_lets -useContext -merge -underBinder +onlyGivenNames x; with_reducible apply Moves.cut (x := x); pick_goal 2; dsimp only [x]; clear x; pick_goal 2; clear_value x; intro hx)
    | (extract_lets -useContext -merge -underBinder +onlyGivenNames x; skip)
    | with_reducible apply Moves.ite
    | (with_reducible apply Moves.step; (with_reducible first
        | apply State.setScull_moves); decide)
    | split
    | (clear_value *; split)

theorem State.takeOut_moves {s : State} {id : Nat} {stage : Nat} {o : RunOut} :
    Moves (logged [.fresh, .regs, .mem, .poison, .sculls, .tasks, .dunes, .tier, .ports, .peers]) s (State.takeOut s id stage o) := by
  unfold State.takeOut
  repeat' first
    | with_reducible apply Moves.refl
    | with_reducible assumption
    | (extract_lets -useContext -merge -underBinder +onlyGivenNames x; with_reducible apply Moves.cut (x := x); pick_goal 2; dsimp only [x]; clear x; pick_goal 2; clear_value x; intro hx)
    | (extract_lets -useContext -merge -underBinder +onlyGivenNames x; skip)
    | (with_reducible apply Moves.step; (with_reducible first
        | apply State.addXfers_moves | apply State.setTask_moves); decide)

theorem State.drainPart_moves {s : State} {id : Nat} {c : Chunk} {ws : List (List Word)} :
    Moves (logged [.fresh, .regs, .mem, .poison, .sculls, .tasks, .dunes, .tier, .ports, .peers]) s (State.drainPart s id c ws) := by
  unfold State.drainPart
  repeat' first
    | with_reducible apply Moves.refl
    | with_reducible assumption
    | (extract_lets -useContext -merge -underBinder +onlyGivenNames x; with_reducible apply Moves.cut (x := x); pick_goal 2; dsimp only [x]; clear x; pick_goal 2; clear_value x; intro hx)
    | (extract_lets -useContext -merge -underBinder +onlyGivenNames x; skip)
    | with_reducible apply Moves.ite
    | (with_reducible apply Moves.step; (with_reducible first
        | apply State.takeOut_moves); decide)
    | (with_reducible apply Moves.of_pair; assumption)
    | (with_reducible apply Moves.of_reply; assumption)
    | split
    | (clear_value *; split)

theorem State.workChunk_snd {s : State} {k : Nat} {id : Nat} {n : Nat} {c : Chunk} :
    Moves (logged [.fresh, .regs, .mem, .poison, .sculls, .tasks, .dunes, .tier, .ports, .peers]) s (State.workChunk s k id n c).2 := by
  unfold State.workChunk
  repeat' first
    | with_reducible apply Moves.refl
    | with_reducible assumption
    | (extract_lets -useContext -merge -underBinder +onlyGivenNames x; with_reducible apply Moves.cut (x := x); pick_goal 2; dsimp only [x]; clear x; pick_goal 2; clear_value x; intro hx)
    | (extract_lets -useContext -merge -underBinder +onlyGivenNames x; skip)
    | with_reducible apply Moves.ite
    | (with_reducible apply Moves.step; (with_reducible first
        | apply State.stageSide_moves | apply State.keepWords_moves | apply State.drainPart_moves
        | apply State.bump64_moves | apply State.setTask_moves); decide)
    | (with_reducible apply Moves.of_pair; assumption)
    | (with_reducible apply Moves.of_reply; assumption)
    | split
    | (clear_value *; split)

theorem State.workChunk_moves {s : State} {k : Nat} {id : Nat} {n : Nat} {c : Chunk} {w : Bool} {t : State} (h : State.workChunk s k id n c = (w, t)) :
    Moves (logged [.fresh, .regs, .mem, .poison, .sculls, .tasks, .dunes, .tier, .ports, .peers]) s t := by
  have k := State.workChunk_snd (s := s) (k := k) (id := id) (n := n) (c := c)
  rw [h] at k
  exact k

theorem State.arrayTurn_snd {s : State} {k : Nat} {id : Nat} {n : Nat} : Moves (logged [.fresh, .regs, .mem, .poison, .sculls, .tasks, .dunes, .tier, .ports, .peers]) s (State.arrayTurn s k id n).2 := by
  induction n generalizing s with
  | zero => exact Moves.refl _ _
  | succ n ih =>
    unfold State.arrayTurn
    repeat' first
      | with_reducible apply Moves.refl
      | with_reducible assumption
      | (extract_lets -useContext -merge -underBinder +onlyGivenNames x; with_reducible apply Moves.cut (x := x); pick_goal 2; dsimp only [x]; clear x; pick_goal 2; clear_value x; intro hx)
      | (extract_lets -useContext -merge -underBinder +onlyGivenNames x; skip)
      | (with_reducible apply Moves.step; (with_reducible first
        | apply ih | apply State.setTask_moves | apply State.queueFills_moves | apply State.openPart_moves | apply State.workChunk_snd); decide)
      | (with_reducible apply Moves.of_pair; assumption)
      | split
      | (clear_value *; split)

theorem State.arrayTurn_moves {s : State} {k : Nat} {id : Nat} {n : Nat} {w : Bool} {t : State} (h : State.arrayTurn s k id n = (w, t)) :
    Moves (logged [.fresh, .regs, .mem, .poison, .sculls, .tasks, .dunes, .tier, .ports, .peers]) s t := by
  have e := State.arrayTurn_snd (s := s) (k := k) (id := id) (n := n)
  rw [h] at e
  exact e

end Sys2Proof.Machine
end

