-- ==== Sys2Proof/Laws/FrameImage.lean ====
section
/-! SUPPORT. What the functions of Machine/Image.lean may change. -/

set_option linter.unusedTactic false
set_option linter.unreachableTactic false
set_option linter.tactic.unusedName false

namespace Sys2Proof.Machine

open Sys2Proof.Laws Sys2Proof.Safety

theorem State.secFail_moves {s : State} {st : Status} {sub : Nat} :
    Moves (logged [.regs]) s (State.secFail s st sub) := by
  unfold State.secFail
  repeat' first
    | with_reducible apply Moves.refl
    | with_reducible assumption
    | (with_reducible apply Moves.step; (with_reducible first
        | apply State.bump_moves | apply State.emitUnit_moves); decide)

theorem State.secRefused_moves {s : State} :
    Moves (logged [.regs]) s (State.secRefused s) := by
  unfold State.secRefused
  repeat' first
    | with_reducible apply Moves.refl
    | with_reducible assumption
    | (with_reducible apply Moves.step; (with_reducible first
        | apply State.secFail_moves | apply State.bump_moves); decide)

theorem State.burnFuse_moves {s : State} {purpose : Nat} {v : Nat} :
    Moves (logged [.fresh, .regs]) s (State.burnFuse s purpose v) := by
  unfold State.burnFuse
  repeat' first
    | with_reducible apply Moves.refl
    | with_reducible assumption
    | (extract_lets -useContext -merge -underBinder +onlyGivenNames x; with_reducible apply Moves.cut (x := x); pick_goal 2; dsimp only [x]; clear x; pick_goal 2; clear_value x; intro hx)
    | (extract_lets -useContext -merge -underBinder +onlyGivenNames x; skip)
    | (with_reducible apply Moves.step; (with_reducible first
        | apply State.setReg_moves | apply State.emit_moves | apply State.emitUnit_moves | apply State.draw_snd); decide)
    | (with_reducible apply Moves.of_pair; assumption)
    | (with_reducible apply Moves.of_reply; assumption)
    | split
    | (clear_value *; split)

theorem State.certifyKey_moves {s : State} {bad : Bool} : Moves (logged [.fresh, .nv, .sec, .regs]) s (s.certifyKey bad) := by
  unfold State.certifyKey
  extract_lets -merge -underBinder +onlyGivenNames i s1
  have h1 : Moves (logged [.fresh, .nv, .sec, .regs]) s s1 := by
    dsimp only [s1]
    split
    · exact Moves.refl _ _
    · exact State.secFail_moves.mono (by decide)
  clear_value s1
  split
  · exact Moves.step State.secFail_moves (by decide) h1
  · extract_lets -merge -underBinder nv1 s2 s3 nv body src
    have h2 : Moves (logged [.fresh, .nv, .sec, .regs]) s s2 := by
      dsimp only [s2]
      split
      · exact h1
      · rename_i hf
        refine Moves.step State.burnFuse_moves (by decide) ?_
        refine Moves.step (Moves.upd_nv rfl rfl rfl rfl rfl le_rfl ?_ (fun _ h => h) (fun _ h => h)) (by decide) h1
        show s1.nv.floors ≤ i / 16384 + 1
        omega
    clear_value s2
    have h3 : Moves (logged [.fresh, .nv, .sec, .regs]) s s3 := by
      dsimp only [s3]
      split
      · exact Moves.step State.emitUnit_moves (by decide) h2
      · exact h2
    clear_value s3
    exact Moves.step (Moves.upd_nv_sec rfl rfl rfl rfl rfl le_rfl le_rfl (fun _ h => h) (fun _ h => h)) (by decide) h3

theorem State.attSign_moves {s : State} {msg : List Byte} {w : List Byte} {t : State} (h : State.attSign s msg = some (w, t)) :
    Moves [.sec] s t := by
  unfold State.attSign at h
  repeat' split at h
  all_goals (first | (simp only [Option.some.injEq, Prod.mk.injEq, reduceCtorEq] at h); try obtain ⟨-, rfl⟩ := h)
  repeat' first
    | with_reducible exact Moves.refl _ _
    | with_reducible apply Moves.ite
    | split
    | (with_reducible apply Moves.step; (with_reducible apply Moves.upd_sec); decide)

end Sys2Proof.Machine
end

