-- ==== Sys2Proof/Laws/FrameAttest.lean ====
section
/-! SUPPORT. What the functions of Machine/Attest.lean may change. -/

set_option linter.unusedTactic false
set_option linter.unreachableTactic false
set_option linter.tactic.unusedName false

namespace Sys2Proof.Machine

open Sys2Proof.Laws Sys2Proof.Safety

theorem State.quote_moves {s : State} {nonce : List Byte} {w : List Byte} {t : State} (h : State.quote s nonce = some (w, t)) :
    Moves [.sec] s t := by
  unfold State.quote at h
  simp only [Option.map_eq_some_iff, Prod.mk.injEq, Prod.exists] at h
  obtain ⟨w', t', h1, -, rfl⟩ := h
  exact State.attSign_moves h1

end Sys2Proof.Machine
end

