-- ==== Sys2Proof/Laws/FrameColl.lean ====
section
/-! SUPPORT. What the functions of Machine/Coll.lean may change. -/

set_option linter.unusedTactic false
set_option linter.unreachableTactic false
set_option linter.tactic.unusedName false

namespace Sys2Proof.Machine

open Sys2Proof.Laws Sys2Proof.Safety

theorem State.setColl_moves {s : State} {g : Nat} {c : Coll} :
    Moves [.colls] s (State.setColl s g c) := by
  unfold State.setColl
  repeat' first
    | with_reducible apply Moves.refl
    | with_reducible assumption
    | (with_reducible apply Moves.step; (with_reducible apply Moves.upd_colls); decide)

theorem State.late_moves {s : State} :
    Moves [.lossCounts, .regs] s (State.late s) := by
  unfold State.late
  repeat' first
    | with_reducible apply Moves.refl
    | with_reducible assumption
    | (with_reducible apply Moves.step; (with_reducible first
        | apply State.bump_moves); decide)

theorem State.toChildren_moves {s : State} {g : Nat} {m : Nat → OutMsg} :
    Moves [.sent, .lossCounts, .regs, .ports] s (State.toChildren s g m) := by
  unfold State.toChildren
  repeat' first
    | with_reducible apply Moves.refl
    | with_reducible assumption
    | (with_reducible apply Moves.step; (with_reducible first
        | apply State.sendMsg_moves); decide)
    | (with_reducible apply Moves.foldl; intro _ _ _)

theorem State.noteUp_moves {s : State} {g : Nat} {st : Status} :
    Moves [.sent, .lossCounts, .regs, .ports] s (State.noteUp s g st) := by
  unfold State.noteUp
  repeat' first
    | with_reducible apply Moves.refl
    | with_reducible assumption
    | (extract_lets -useContext -merge -underBinder +onlyGivenNames x; with_reducible apply Moves.cut (x := x); pick_goal 2; dsimp only [x]; clear x; pick_goal 2; clear_value x; intro hx)
    | (extract_lets -useContext -merge -underBinder +onlyGivenNames x; skip)
    | (with_reducible apply Moves.step; (with_reducible first
        | apply State.sendMsg_moves); decide)

theorem State.recordEnded_moves {s : State} {g : Nat} {epoch : Word} {st : Status} :
    Moves [.colls] s (State.recordEnded s g epoch st) := by
  unfold State.recordEnded
  repeat' first
    | with_reducible apply Moves.refl
    | with_reducible assumption
    | (extract_lets -useContext -merge -underBinder +onlyGivenNames x; with_reducible apply Moves.cut (x := x); pick_goal 2; dsimp only [x]; clear x; pick_goal 2; clear_value x; intro hx)
    | (extract_lets -useContext -merge -underBinder +onlyGivenNames x; skip)
    | with_reducible apply Moves.ite
    | split
    | (clear_value *; split)
    | (with_reducible apply Moves.step; (with_reducible apply Moves.upd_colls); decide)

theorem State.endEpoch_moves {s : State} {g : Nat} {st : Status} {forward : Bool} :
    Moves (logged [.fresh, .regs, .mem, .poison, .sculls, .crews, .ergs, .ctrs, .tasks, .rings, .dunes, .tier, .kv, .lowp, .ports, .rigger, .colls, .sched]) s (State.endEpoch s g st forward) := by
  unfold State.endEpoch
  repeat' first
    | with_reducible apply Moves.refl
    | with_reducible assumption
    | (extract_lets -useContext -merge -underBinder +onlyGivenNames x; with_reducible apply Moves.cut (x := x); pick_goal 2; dsimp only [x]; clear x; pick_goal 2; clear_value x; intro hx)
    | (extract_lets -useContext -merge -underBinder +onlyGivenNames x; skip)
    | with_reducible apply Moves.ite
    | (with_reducible apply Moves.step; (with_reducible first
        | apply State.setColl_moves | apply State.toChildren_moves | apply State.recordEnded_moves
        | apply State.doneTask_moves | apply State.write_moves | apply State.bump_moves | apply State.setTask_moves
        | apply State.emitUnit_moves); decide)
    | split
    | (clear_value *; split)
    | (with_reducible apply Moves.step; (with_reducible apply Moves.upd_rigger); decide)

theorem State.checkAcks_moves {s : State} {g : Nat} :
    Moves (logged [.fresh, .regs, .mem, .poison, .sculls, .crews, .ergs, .ctrs, .tasks, .rings, .dunes, .tier, .kv, .lowp, .ports, .rigger, .colls, .sched]) s (State.checkAcks s g) := by
  unfold State.checkAcks
  repeat' first
    | with_reducible apply Moves.refl
    | with_reducible assumption
    | (extract_lets -useContext -merge -underBinder +onlyGivenNames x; with_reducible apply Moves.cut (x := x); pick_goal 2; dsimp only [x]; clear x; pick_goal 2; clear_value x; intro hx)
    | (extract_lets -useContext -merge -underBinder +onlyGivenNames x; skip)
    | with_reducible apply Moves.ite
    | (with_reducible apply Moves.step; (with_reducible first
        | apply State.setColl_moves | apply State.endEpoch_moves | apply State.sendMsg_moves); decide)
    | split
    | (clear_value *; split)

theorem State.resultPart_moves {s : State} {g : Nat} {r : Nat} {off : Nat} {poison : Bool} {ws : List Word} :
    Moves [.sent, .lossCounts, .regs, .ports, .colls] s (State.resultPart s g r off poison ws) := by
  unfold State.resultPart
  repeat' first
    | with_reducible apply Moves.refl
    | with_reducible assumption
    | (extract_lets -useContext -merge -underBinder +onlyGivenNames x; with_reducible apply Moves.cut (x := x); pick_goal 2; dsimp only [x]; clear x; pick_goal 2; clear_value x; intro hx)
    | (extract_lets -useContext -merge -underBinder +onlyGivenNames x; skip)
    | with_reducible apply Moves.ite
    | (with_reducible apply Moves.step; (with_reducible first
        | apply State.setColl_moves | apply State.toChildren_moves); decide)
    | (with_reducible apply Moves.foldl; intro _ _ _)
    | split
    | (clear_value *; split)

theorem State.complete_moves {s : State} {g : Nat} :
    Moves (logged [.fresh, .regs, .mem, .poison, .sculls, .crews, .ergs, .ctrs, .tasks, .rings, .dunes, .tier, .kv, .lowp, .ports, .rigger, .colls, .sched]) s (State.complete s g) := by
  unfold State.complete
  repeat' first
    | with_reducible apply Moves.refl
    | with_reducible assumption
    | (extract_lets -useContext -merge -underBinder +onlyGivenNames x; with_reducible apply Moves.cut (x := x); pick_goal 2; dsimp only [x]; clear x; pick_goal 2; clear_value x; intro hx)
    | (extract_lets -useContext -merge -underBinder +onlyGivenNames x; skip)
    | with_reducible apply Moves.ite
    | (with_reducible apply Moves.step; (with_reducible first
        | apply State.setColl_moves | apply State.toChildren_moves | apply State.endEpoch_moves
        | apply State.checkAcks_moves | apply State.resultPart_moves); decide)
    | (with_reducible apply Moves.foldl; intro _ _ _)
    | split
    | (clear_value *; split)

theorem State.contribute_moves {s : State} {g : Nat} {r : Nat} {off : Nat} {poison : Bool} {ws : List Word} {work : Nat} :
    Moves (logged [.fresh, .regs, .mem, .poison, .sculls, .crews, .ergs, .ctrs, .tasks, .rings, .dunes, .tier, .kv, .lowp, .ports, .rigger, .colls, .sched]) s (State.contribute s g r off poison ws work) := by
  unfold State.contribute
  repeat' first
    | with_reducible apply Moves.refl
    | with_reducible assumption
    | (extract_lets -useContext -merge -underBinder +onlyGivenNames x; with_reducible apply Moves.cut (x := x); pick_goal 2; dsimp only [x]; clear x; pick_goal 2; clear_value x; intro hx)
    | (extract_lets -useContext -merge -underBinder +onlyGivenNames x; skip)
    | with_reducible apply Moves.ite
    | (with_reducible apply Moves.step; (with_reducible first
        | apply State.setColl_moves | apply State.noteUp_moves | apply State.endEpoch_moves
        | apply State.complete_moves | apply State.sendMsg_moves | apply State.write_moves); decide)
    | (with_reducible apply Moves.foldl; intro _ _ _)
    | split
    | (clear_value *; split)

theorem State.riggerClaim_moves {s : State} {g : Nat} {t : Task} :
    Moves (logged [.regs, .rigger, .colls]) s (State.riggerClaim s g t) := by
  unfold State.riggerClaim
  repeat' first
    | with_reducible apply Moves.refl
    | with_reducible assumption
    | (extract_lets -useContext -merge -underBinder +onlyGivenNames x; with_reducible apply Moves.cut (x := x); pick_goal 2; dsimp only [x]; clear x; pick_goal 2; clear_value x; intro hx)
    | (extract_lets -useContext -merge -underBinder +onlyGivenNames x; skip)
    | with_reducible apply Moves.ite
    | (with_reducible apply Moves.step; (with_reducible first
        | apply State.setColl_moves | apply State.bump_moves | apply State.emitUnit_moves); decide)
    | split
    | (clear_value *; split)
    | (with_reducible apply Moves.step; (with_reducible apply Moves.upd_rigger); decide)

theorem State.freeBytes_moves {s : State} {da n : Nat} : Moves (logged [.fresh, .regs, .mem, .poison, .dunes]) s (s.freeBytes da n) := by
  unfold State.freeBytes
  extract_lets s'
  have h : Moves (logged [.fresh, .regs, .mem, .poison, .dunes]) s s' := (Moves.refl _ _).via State.write_moves (by decide)
  have e : s.fresh = s'.fresh := by
    have k : Moves _ s s' := State.write_moves
    exact (k.frame .fresh (by decide)).symm
  rw [e]
  exact h.via Moves.upd_fresh (by decide)

theorem State.openColl_moves {s : State} {g : Nat} {at_ : Nat} :
    Moves (logged [.fresh, .regs, .mem, .poison, .sculls, .crews, .ergs, .ctrs, .tasks, .rings, .dunes, .tier, .kv, .lowp, .ports, .rigger, .colls, .sched]) s (State.openColl s g at_) := by
  unfold State.openColl
  repeat' first
    | with_reducible apply Moves.refl
    | with_reducible assumption
    | (extract_lets -useContext -merge -underBinder +onlyGivenNames x; with_reducible apply Moves.cut (x := x); pick_goal 2; dsimp only [x]; clear x; pick_goal 2; clear_value x; intro hx)
    | (extract_lets -useContext -merge -underBinder +onlyGivenNames x; skip)
    | with_reducible apply Moves.ite
    | (with_reducible apply Moves.step; (with_reducible first
        | apply State.setColl_moves | apply State.toChildren_moves | apply State.noteUp_moves
        | apply State.endEpoch_moves | apply State.checkAcks_moves | apply State.contribute_moves
        | apply State.riggerClaim_moves | apply State.freeBytes_moves); decide)
    | (with_reducible apply Moves.foldl; intro _ _ _)
    | split
    | (clear_value *; split)

theorem State.beginCollect_moves {s : State} {id : Nat} {t : Task} :
    Moves (logged [.fresh, .regs, .mem, .poison, .sculls, .crews, .ergs, .ctrs, .tasks, .rings, .dunes, .tier, .kv, .lowp, .ports, .rigger, .colls, .sched]) s (State.beginCollect s id t) := by
  unfold State.beginCollect
  repeat' first
    | with_reducible apply Moves.refl
    | with_reducible assumption
    | (extract_lets -useContext -merge -underBinder +onlyGivenNames x; with_reducible apply Moves.cut (x := x); pick_goal 2; dsimp only [x]; clear x; pick_goal 2; clear_value x; intro hx)
    | (extract_lets -useContext -merge -underBinder +onlyGivenNames x; skip)
    | with_reducible apply Moves.ite
    | (with_reducible apply Moves.step; (with_reducible first
        | apply State.setColl_moves | apply State.noteUp_moves | apply State.endEpoch_moves
        | apply State.openColl_moves | apply State.doneTask_moves | apply State.setTask_moves); decide)
    | split
    | (clear_value *; split)
    | (with_reducible apply Moves.step; (with_reducible apply Moves.upd_colls); decide)

theorem State.peersGone_moves {s : State} :
    Moves (logged [.fresh, .regs, .mem, .poison, .sculls, .crews, .ergs, .ctrs, .tasks, .rings, .dunes, .tier, .kv, .lowp, .ports, .rigger, .colls, .peers, .sched]) s (State.peersGone s) := by
  unfold State.peersGone
  repeat' first
    | with_reducible apply Moves.refl
    | with_reducible assumption
    | (extract_lets -useContext -merge -underBinder +onlyGivenNames x; with_reducible apply Moves.cut (x := x); pick_goal 2; dsimp only [x]; clear x; pick_goal 2; clear_value x; intro hx)
    | (extract_lets -useContext -merge -underBinder +onlyGivenNames x; skip)
    | with_reducible apply Moves.ite
    | (with_reducible apply Moves.step; (with_reducible first
        | apply State.setColl_moves | apply State.noteUp_moves | apply State.endEpoch_moves
        | apply State.doneTask_moves); decide)
    | (with_reducible apply Moves.foldl; intro _ _ _)
    | split
    | (clear_value *; split)
    | (with_reducible apply Moves.step; (with_reducible apply Moves.upd_peers); decide)

theorem State.emitPort_moves {s : State} {p : Nat} {sev : Nat} {code : Nat} {st : Status} {pl : List Word} :
    Moves (logged []) s (State.emitPort s p sev code st pl) := by
  unfold State.emitPort
  repeat' first
    | with_reducible apply Moves.refl
    | with_reducible assumption
    | (with_reducible apply Moves.step; (with_reducible first
        | apply State.emitUnit_moves); decide)

theorem State.portTo_moves {s : State} {p : Nat} {st : PortState} {qcause : Nat} :
    Moves (logged [.fresh, .regs, .mem, .poison, .sculls, .crews, .ergs, .ctrs, .tasks, .rings, .dunes, .tier, .kv, .lowp, .ports, .rigger, .colls, .peers, .sched]) s (State.portTo s p st qcause) := by
  unfold State.portTo
  repeat' first
    | with_reducible apply Moves.refl
    | with_reducible assumption
    | (extract_lets -useContext -merge -underBinder +onlyGivenNames x; with_reducible apply Moves.cut (x := x); pick_goal 2; dsimp only [x]; clear x; pick_goal 2; clear_value x; intro hx)
    | (extract_lets -useContext -merge -underBinder +onlyGivenNames x; skip)
    | with_reducible apply Moves.ite
    | (with_reducible apply Moves.step; (with_reducible first
        | apply State.peersGone_moves | apply State.setPort_moves); decide)
    | split
    | (clear_value *; split)

theorem State.quarantine_moves {s : State} {p : Nat} {qcause : Nat} {st : Status} :
    Moves (logged [.fresh, .regs, .mem, .poison, .sculls, .crews, .ergs, .ctrs, .tasks, .rings, .dunes, .tier, .kv, .lowp, .ports, .rigger, .colls, .peers, .sched]) s (State.quarantine s p qcause st) := by
  unfold State.quarantine
  repeat' first
    | with_reducible apply Moves.refl
    | with_reducible assumption
    | (extract_lets -useContext -merge -underBinder +onlyGivenNames x; with_reducible apply Moves.cut (x := x); pick_goal 2; dsimp only [x]; clear x; pick_goal 2; clear_value x; intro hx)
    | (extract_lets -useContext -merge -underBinder +onlyGivenNames x; skip)
    | (with_reducible apply Moves.step; (with_reducible first
        | apply State.emitPort_moves | apply State.portTo_moves); decide)

theorem State.onColl_moves {ps : List Part} {a : State} {s : State} {p : Nat} {m : Msg} {go : State → Nat → State}
    (hk : partsIn (logged [.fresh, .regs, .mem, .poison, .sculls, .crews, .ergs, .ctrs, .tasks, .rings, .dunes, .tier, .kv, .lowp, .ports, .rigger, .colls, .peers, .sched]) ps = true)
    (hg : ∀ s x0, Moves ps a s → Moves ps a (go s x0)) (h : Moves ps a s) : Moves ps a (State.onColl s p m go) := by
  unfold State.onColl
  repeat' first
    | with_reducible assumption
    | with_reducible apply Moves.ite
    | with_reducible apply hg
    | (with_reducible apply Moves.step; (with_reducible first
        | apply State.late_moves | apply State.quarantine_moves); exact partsIn_trans (by decide) hk)
    | split

theorem State.rootNote_moves {s : State} {g : Nat} {st : Status} :
    Moves (logged [.fresh, .regs, .mem, .poison, .sculls, .crews, .ergs, .ctrs, .tasks, .rings, .dunes, .tier, .kv, .lowp, .ports, .rigger, .colls, .sched]) s (State.rootNote s g st) := by
  unfold State.rootNote
  repeat' first
    | with_reducible apply Moves.refl
    | with_reducible assumption
    | (extract_lets -useContext -merge -underBinder +onlyGivenNames x; with_reducible apply Moves.cut (x := x); pick_goal 2; dsimp only [x]; clear x; pick_goal 2; clear_value x; intro hx)
    | (extract_lets -useContext -merge -underBinder +onlyGivenNames x; skip)
    | with_reducible apply Moves.ite
    | (with_reducible apply Moves.step; (with_reducible first
        | apply State.setColl_moves | apply State.endEpoch_moves); decide)
    | split
    | (clear_value *; split)

theorem State.collPoison_moves {s : State} {g : Nat} :
    Moves (logged [.fresh, .regs, .mem, .poison, .sculls, .crews, .ergs, .ctrs, .tasks, .rings, .dunes, .tier, .kv, .lowp, .ports, .rigger, .colls, .sched]) s (State.collPoison s g) := by
  unfold State.collPoison
  repeat' first
    | with_reducible apply Moves.refl
    | with_reducible assumption
    | (extract_lets -useContext -merge -underBinder +onlyGivenNames x; with_reducible apply Moves.cut (x := x); pick_goal 2; dsimp only [x]; clear x; pick_goal 2; clear_value x; intro hx)
    | (extract_lets -useContext -merge -underBinder +onlyGivenNames x; skip)
    | with_reducible apply Moves.ite
    | (with_reducible apply Moves.step; (with_reducible first
        | apply State.setColl_moves | apply State.noteUp_moves | apply State.rootNote_moves); decide)
    | split
    | (clear_value *; split)

theorem execCollStart_ends {p : Nat} {m : Msg} {s : State} :
    Ends (logged [.fresh, .regs, .mem, .poison, .sculls, .crews, .ergs, .ctrs, .tasks, .rings, .dunes, .tier, .kv, .lowp, .ports, .rigger, .colls, .peers, .sched]) s (execCollStart p m s) := by
  unfold execCollStart
  repeat' first
    | with_reducible apply Moves.refl
    | with_reducible assumption
    | with_reducible apply Ends.next
    | (extract_lets -useContext -merge -underBinder +onlyGivenNames x; with_reducible apply Moves.cut (x := x); pick_goal 2; dsimp only [x]; clear x; pick_goal 2; clear_value x; intro hx)
    | (extract_lets -useContext -merge -underBinder +onlyGivenNames x; with_reducible apply Ends.cut (x := x); pick_goal 2; dsimp only [x]; clear x; pick_goal 2; clear_value x; intro hx)
    | (extract_lets -useContext -merge -underBinder +onlyGivenNames x; skip)
    | with_reducible apply Moves.ite
    | with_reducible apply Ends.ite
    | (with_reducible apply Moves.step; (with_reducible first
        | apply State.late_moves | apply State.openColl_moves | apply State.quarantine_moves); decide)
    | split
    | (clear_value *; split)
    | (with_reducible apply Moves.step; (with_reducible apply Moves.upd_colls); decide)

theorem execChunkUp_ends {p : Nat} {m : Msg} {s : State} :
    Ends (logged [.fresh, .regs, .mem, .poison, .sculls, .crews, .ergs, .ctrs, .tasks, .rings, .dunes, .tier, .kv, .lowp, .ports, .rigger, .colls, .peers, .sched]) s (execChunkUp p m s) := by
  unfold execChunkUp
  repeat' first
    | with_reducible apply Moves.refl
    | with_reducible assumption
    | with_reducible apply Ends.next
    | (extract_lets -useContext -merge -underBinder +onlyGivenNames x; with_reducible apply Moves.cut (x := x); pick_goal 2; dsimp only [x]; clear x; pick_goal 2; clear_value x; intro hx)
    | (extract_lets -useContext -merge -underBinder +onlyGivenNames x; with_reducible apply Ends.cut (x := x); pick_goal 2; dsimp only [x]; clear x; pick_goal 2; clear_value x; intro hx)
    | (extract_lets -useContext -merge -underBinder +onlyGivenNames x; skip)
    | with_reducible apply Moves.ite
    | with_reducible apply Ends.ite
    | (with_reducible apply State.onColl_moves; decide; intro _ _ _)
    | (with_reducible apply Moves.step; (with_reducible first
        | apply State.late_moves | apply State.contribute_moves | apply State.collPoison_moves); decide)
    | split
    | (clear_value *; split)

theorem execChunkDown_ends {p : Nat} {m : Msg} {s : State} :
    Ends (logged [.fresh, .regs, .mem, .poison, .sculls, .crews, .ergs, .ctrs, .tasks, .rings, .dunes, .tier, .kv, .lowp, .ports, .rigger, .colls, .peers, .sched]) s (execChunkDown p m s) := by
  unfold execChunkDown
  repeat' first
    | with_reducible apply Moves.refl
    | with_reducible assumption
    | with_reducible apply Ends.next
    | (extract_lets -useContext -merge -underBinder +onlyGivenNames x; with_reducible apply Moves.cut (x := x); pick_goal 2; dsimp only [x]; clear x; pick_goal 2; clear_value x; intro hx)
    | (extract_lets -useContext -merge -underBinder +onlyGivenNames x; with_reducible apply Ends.cut (x := x); pick_goal 2; dsimp only [x]; clear x; pick_goal 2; clear_value x; intro hx)
    | (extract_lets -useContext -merge -underBinder +onlyGivenNames x; skip)
    | with_reducible apply Moves.ite
    | with_reducible apply Ends.ite
    | (with_reducible apply State.onColl_moves; decide; intro _ _ _)
    | (with_reducible apply Moves.step; (with_reducible first
        | apply State.checkAcks_moves | apply State.resultPart_moves | apply State.collPoison_moves); decide)
    | split
    | (clear_value *; split)

theorem execAckUp_ends {p : Nat} {m : Msg} {s : State} :
    Ends (logged [.fresh, .regs, .mem, .poison, .sculls, .crews, .ergs, .ctrs, .tasks, .rings, .dunes, .tier, .kv, .lowp, .ports, .rigger, .colls, .peers, .sched]) s (execAckUp p m s) := by
  unfold execAckUp
  repeat' first
    | with_reducible apply Moves.refl
    | with_reducible assumption
    | with_reducible apply Ends.next
    | (extract_lets -useContext -merge -underBinder +onlyGivenNames x; with_reducible apply Moves.cut (x := x); pick_goal 2; dsimp only [x]; clear x; pick_goal 2; clear_value x; intro hx)
    | (extract_lets -useContext -merge -underBinder +onlyGivenNames x; with_reducible apply Ends.cut (x := x); pick_goal 2; dsimp only [x]; clear x; pick_goal 2; clear_value x; intro hx)
    | (extract_lets -useContext -merge -underBinder +onlyGivenNames x; skip)
    | with_reducible apply Moves.ite
    | with_reducible apply Ends.ite
    | (with_reducible apply State.onColl_moves; decide; intro _ _ _)
    | (with_reducible apply Moves.step; (with_reducible first
        | apply State.setColl_moves | apply State.checkAcks_moves); decide)
    | split
    | (clear_value *; split)

theorem execCollNote_ends {p : Nat} {m : Msg} {s : State} :
    Ends (logged [.fresh, .regs, .mem, .poison, .sculls, .crews, .ergs, .ctrs, .tasks, .rings, .dunes, .tier, .kv, .lowp, .ports, .rigger, .colls, .peers, .sched]) s (execCollNote p m s) := by
  unfold execCollNote
  repeat' first
    | with_reducible apply Moves.refl
    | with_reducible assumption
    | with_reducible apply Ends.next
    | (extract_lets -useContext -merge -underBinder +onlyGivenNames x; with_reducible apply Moves.cut (x := x); pick_goal 2; dsimp only [x]; clear x; pick_goal 2; clear_value x; intro hx)
    | (extract_lets -useContext -merge -underBinder +onlyGivenNames x; with_reducible apply Ends.cut (x := x); pick_goal 2; dsimp only [x]; clear x; pick_goal 2; clear_value x; intro hx)
    | (extract_lets -useContext -merge -underBinder +onlyGivenNames x; skip)
    | with_reducible apply Moves.ite
    | with_reducible apply Ends.ite
    | (with_reducible apply State.onColl_moves; decide; intro _ _ _)
    | (with_reducible apply Moves.step; (with_reducible first
        | apply State.noteUp_moves | apply State.rootNote_moves); decide)
    | split
    | (clear_value *; split)

theorem execCollFinal_ends {p : Nat} {m : Msg} {s : State} :
    Ends (logged [.fresh, .regs, .mem, .poison, .sculls, .crews, .ergs, .ctrs, .tasks, .rings, .dunes, .tier, .kv, .lowp, .ports, .rigger, .colls, .peers, .sched]) s (execCollFinal p m s) := by
  unfold execCollFinal
  repeat' first
    | with_reducible apply Moves.refl
    | with_reducible assumption
    | with_reducible apply Ends.next
    | (extract_lets -useContext -merge -underBinder +onlyGivenNames x; with_reducible apply Moves.cut (x := x); pick_goal 2; dsimp only [x]; clear x; pick_goal 2; clear_value x; intro hx)
    | (extract_lets -useContext -merge -underBinder +onlyGivenNames x; with_reducible apply Ends.cut (x := x); pick_goal 2; dsimp only [x]; clear x; pick_goal 2; clear_value x; intro hx)
    | (extract_lets -useContext -merge -underBinder +onlyGivenNames x; skip)
    | with_reducible apply Moves.ite
    | with_reducible apply Ends.ite
    | (with_reducible apply Moves.step; (with_reducible first
        | apply State.late_moves | apply State.recordEnded_moves | apply State.endEpoch_moves
        | apply State.quarantine_moves | apply State.sendMsg_moves); decide)
    | (with_reducible apply Moves.foldl; intro _ _ _)
    | split
    | (clear_value *; split)
    | (with_reducible apply Moves.step; (with_reducible apply Moves.upd_colls); decide)

theorem execFlagUp_ends {p : Nat} {m : Msg} {s : State} :
    Ends (logged [.fresh, .regs, .mem, .poison, .sculls, .crews, .ergs, .ctrs, .tasks, .rings, .dunes, .tier, .kv, .lowp, .ports, .rigger, .colls, .peers, .sched]) s (execFlagUp p m s) := by
  unfold execFlagUp
  repeat' first
    | with_reducible apply Moves.refl
    | with_reducible assumption
    | with_reducible apply Ends.next
    | (extract_lets -useContext -merge -underBinder +onlyGivenNames x; with_reducible apply Moves.cut (x := x); pick_goal 2; dsimp only [x]; clear x; pick_goal 2; clear_value x; intro hx)
    | (extract_lets -useContext -merge -underBinder +onlyGivenNames x; with_reducible apply Ends.cut (x := x); pick_goal 2; dsimp only [x]; clear x; pick_goal 2; clear_value x; intro hx)
    | (extract_lets -useContext -merge -underBinder +onlyGivenNames x; skip)
    | with_reducible apply Moves.ite
    | with_reducible apply Ends.ite
    | (with_reducible apply State.onColl_moves; decide; intro _ _ _)
    | (with_reducible apply Moves.step; (with_reducible first
        | apply State.late_moves | apply State.contribute_moves | apply State.collPoison_moves); decide)
    | split
    | (clear_value *; split)

theorem execFlagDown_ends {p : Nat} {m : Msg} {s : State} :
    Ends (logged [.fresh, .regs, .mem, .poison, .sculls, .crews, .ergs, .ctrs, .tasks, .rings, .dunes, .tier, .kv, .lowp, .ports, .rigger, .colls, .peers, .sched]) s (execFlagDown p m s) := by
  unfold execFlagDown
  repeat' first
    | with_reducible apply Moves.refl
    | with_reducible assumption
    | with_reducible apply Ends.next
    | (extract_lets -useContext -merge -underBinder +onlyGivenNames x; with_reducible apply Moves.cut (x := x); pick_goal 2; dsimp only [x]; clear x; pick_goal 2; clear_value x; intro hx)
    | (extract_lets -useContext -merge -underBinder +onlyGivenNames x; with_reducible apply Ends.cut (x := x); pick_goal 2; dsimp only [x]; clear x; pick_goal 2; clear_value x; intro hx)
    | (extract_lets -useContext -merge -underBinder +onlyGivenNames x; skip)
    | (with_reducible apply State.onColl_moves; decide; intro _ _ _)
    | (with_reducible apply Moves.step; (with_reducible first
        | apply State.setColl_moves | apply State.toChildren_moves | apply State.endEpoch_moves); decide)
    | (with_reducible apply Moves.foldl; intro _ _ _)

theorem execPhaseTimerExpiry_ends {g : Nat} {s : State} :
    Ends (logged [.fresh, .regs, .mem, .poison, .sculls, .crews, .ergs, .ctrs, .tasks, .rings, .dunes, .tier, .kv, .lowp, .ports, .rigger, .colls, .sched]) s (execPhaseTimerExpiry g s) := by
  unfold execPhaseTimerExpiry
  repeat' first
    | with_reducible apply Moves.refl
    | with_reducible assumption
    | with_reducible apply Ends.next
    | with_reducible apply Moves.ite
    | with_reducible apply Ends.ite
    | (with_reducible apply Moves.step; (with_reducible first
        | apply State.endEpoch_moves); decide)
    | (with_reducible apply Moves.foldl; intro _ _ _)
    | split

theorem execMemberGuardExpiry_ends {g : Nat} {s : State} :
    Ends (logged [.fresh, .regs, .mem, .poison, .sculls, .crews, .ergs, .ctrs, .tasks, .rings, .dunes, .tier, .kv, .lowp, .ports, .rigger, .colls, .sched]) s (execMemberGuardExpiry g s) := by
  unfold execMemberGuardExpiry
  repeat' first
    | with_reducible apply Moves.refl
    | with_reducible assumption
    | with_reducible apply Ends.next
    | with_reducible apply Moves.ite
    | with_reducible apply Ends.ite
    | (with_reducible apply Moves.step; (with_reducible first
        | apply State.endEpoch_moves | apply State.bump_moves); decide)
    | (with_reducible apply Moves.foldl; intro _ _ _)
    | split

end Sys2Proof.Machine
end

