-- ==== Sys2Proof/Laws/FrameBackground.lean ====
section
/-! SUPPORT. What the functions of Machine/Background.lean may change. -/

set_option linter.unusedTactic false
set_option linter.unreachableTactic false
set_option linter.tactic.unusedName false

namespace Sys2Proof.Machine

open Sys2Proof.Laws Sys2Proof.Safety

theorem State.crewUe_moves {s : State} {c : Nat} {offset : Nat} :
    Moves (logged [.fresh, .regs, .mem, .poison, .sculls, .crews, .ergs, .ctrs, .tasks, .rings, .dunes, .tier, .kv, .lowp, .sched]) s (State.crewUe s c offset) := by
  unfold State.crewUe
  repeat' first
    | with_reducible apply Moves.refl
    | with_reducible assumption
    | (extract_lets -useContext -merge -underBinder +onlyGivenNames x; with_reducible apply Moves.cut (x := x); pick_goal 2; dsimp only [x]; clear x; pick_goal 2; clear_value x; intro hx)
    | (extract_lets -useContext -merge -underBinder +onlyGivenNames x; skip)
    | with_reducible apply Moves.ite
    | (with_reducible apply Moves.step; (with_reducible first
        | apply State.retireCrew_moves | apply State.poisonWord_moves | apply State.setCrew_moves
        | apply State.emitUnit_moves); decide)
    | split
    | (clear_value *; split)

theorem execSramScrub_ends {site : ScrubSite} {offset : Nat} {found : PieceCheck} {s : State} :
    Ends (logged [.fresh, .regs, .mem, .poison, .sculls, .crews, .ergs, .ctrs, .tasks, .rings, .dunes, .tier, .kv, .lowp, .ports, .rigger, .colls, .sched]) s (execSramScrub site offset found s) := by
  unfold execSramScrub
  repeat' first
    | with_reducible apply Moves.refl
    | with_reducible assumption
    | with_reducible apply Ends.next
    | (extract_lets -useContext -merge -underBinder +onlyGivenNames x; with_reducible apply Moves.cut (x := x); pick_goal 2; dsimp only [x]; clear x; pick_goal 2; clear_value x; intro hx)
    | (extract_lets -useContext -merge -underBinder +onlyGivenNames x; with_reducible apply Ends.cut (x := x); pick_goal 2; dsimp only [x]; clear x; pick_goal 2; clear_value x; intro hx)
    | (extract_lets -useContext -merge -underBinder +onlyGivenNames x; skip)
    | with_reducible apply Moves.ite
    | with_reducible apply Ends.ite
    | (with_reducible apply Moves.step; (with_reducible first
        | apply State.crewUe_moves | apply State.collPoison_moves | apply State.storeUe_moves
        | apply State.storeLimit_moves | apply State.poisonWord_moves | apply State.bump_moves
        | apply State.emitUnit_moves); decide)
    | (with_reducible apply Moves.foldl; intro _ _ _)
    | split
    | (clear_value *; split)

theorem State.workPoison_moves {s : State} :
    Moves (logged [.fresh, .regs, .mem, .poison, .sculls, .crews, .ergs, .ctrs, .tasks, .rings, .dunes, .tier, .kv, .lowp, .ports, .rigger, .colls, .sched]) s (State.workPoison s) := by
  unfold State.workPoison
  repeat' first
    | with_reducible apply Moves.refl
    | with_reducible assumption
    | (extract_lets -useContext -merge -underBinder +onlyGivenNames x; with_reducible apply Moves.cut (x := x); pick_goal 2; dsimp only [x]; clear x; pick_goal 2; clear_value x; intro hx)
    | (extract_lets -useContext -merge -underBinder +onlyGivenNames x; skip)
    | (with_reducible apply Moves.step; (with_reducible first
        | apply State.collPoison_moves); decide)
    | (with_reducible apply Moves.foldl; intro _ _ _)

theorem execPatrolScrubRead_ends {n : Nat} {pieces : List PieceCheck} {s : State} :
    Ends (logged [.fresh, .nv, .regs, .mem, .poison, .sculls, .crews, .ergs, .ctrs, .tasks, .rings, .dunes, .tier, .kv, .lowp, .ports, .rigger, .colls, .sched]) s (execPatrolScrubRead n pieces s) := by
  unfold execPatrolScrubRead
  repeat' first
    | with_reducible apply Moves.refl
    | with_reducible assumption
    | with_reducible apply Ends.next
    | (extract_lets -useContext -merge -underBinder +onlyGivenNames x; with_reducible apply Moves.cut (x := x); pick_goal 2; dsimp only [x]; clear x; pick_goal 2; clear_value x; intro hx)
    | (extract_lets -useContext -merge -underBinder +onlyGivenNames x; with_reducible apply Ends.cut (x := x); pick_goal 2; dsimp only [x]; clear x; pick_goal 2; clear_value x; intro hx)
    | (extract_lets -useContext -merge -underBinder +onlyGivenNames x; skip)
    | with_reducible apply Moves.ite
    | with_reducible apply Ends.ite
    | (with_reducible apply Moves.step; (with_reducible first
        | apply State.workPoison_moves | apply State.scrubPiece_moves | apply State.setDune_moves); decide)
    | (with_reducible apply Moves.foldl; intro _ _ _)
    | split
    | (clear_value *; split)

theorem execFlashPatrol_ends {page : Nat} {corrected : Nat} {readable : Bool} {s : State} :
    Ends (logged [.nv]) s (execFlashPatrol page corrected readable s) := by
  unfold execFlashPatrol
  repeat' first
    | with_reducible apply Moves.refl
    | with_reducible assumption
    | with_reducible apply Ends.next
    | (extract_lets -useContext -merge -underBinder +onlyGivenNames x; with_reducible apply Moves.cut (x := x); pick_goal 2; dsimp only [x]; clear x; pick_goal 2; clear_value x; intro hx)
    | (extract_lets -useContext -merge -underBinder +onlyGivenNames x; with_reducible apply Ends.cut (x := x); pick_goal 2; dsimp only [x]; clear x; pick_goal 2; clear_value x; intro hx)
    | (extract_lets -useContext -merge -underBinder +onlyGivenNames x; skip)
    | with_reducible apply Moves.ite
    | with_reducible apply Ends.ite
    | (with_reducible apply Moves.step; (with_reducible first
        | apply State.emitUnit_moves); decide)
    | split
    | (clear_value *; split)
    | (with_reducible apply Moves.step; (with_reducible exact Moves.upd_nv rfl rfl rfl rfl rfl le_rfl le_rfl (fun _ h => h) (fun _ h => h)); decide)

theorem execWearLevelling_ends {_block : Nat} {_eraseCount : Nat} {_least : Nat} {s : State} :
    Ends [] s (execWearLevelling _block _eraseCount _least s) := by
  unfold execWearLevelling
  repeat' first
    | with_reducible apply Moves.refl
    | with_reducible assumption
    | with_reducible apply Ends.next

theorem State.inletCheck_moves {s : State} {old : ℤ} {now : ℤ} :
    Moves (logged []) s (State.inletCheck s old now) := by
  unfold State.inletCheck
  repeat' first
    | with_reducible apply Moves.refl
    | with_reducible assumption
    | (extract_lets -useContext -merge -underBinder +onlyGivenNames x; with_reducible apply Moves.cut (x := x); pick_goal 2; dsimp only [x]; clear x; pick_goal 2; clear_value x; intro hx)
    | (extract_lets -useContext -merge -underBinder +onlyGivenNames x; skip)
    | with_reducible apply Moves.ite
    | (with_reducible apply Moves.step; (with_reducible first
        | apply State.emitUnit_moves); decide)
    | split
    | (clear_value *; split)

theorem execTelemetrySample_ends {readings : List (Nat × Word)} {s : State} :
    Ends (logged [.pwr]) s (execTelemetrySample readings s) := by
  unfold execTelemetrySample
  repeat' first
    | with_reducible apply Moves.refl
    | with_reducible assumption
    | with_reducible apply Ends.next
    | (extract_lets -useContext -merge -underBinder +onlyGivenNames x; with_reducible apply Moves.cut (x := x); pick_goal 2; dsimp only [x]; clear x; pick_goal 2; clear_value x; intro hx)
    | (extract_lets -useContext -merge -underBinder +onlyGivenNames x; with_reducible apply Ends.cut (x := x); pick_goal 2; dsimp only [x]; clear x; pick_goal 2; clear_value x; intro hx)
    | (extract_lets -useContext -merge -underBinder +onlyGivenNames x; skip)
    | with_reducible apply Moves.ite
    | with_reducible apply Ends.ite
    | (with_reducible apply Moves.step; (with_reducible first
        | apply State.inletCheck_moves); decide)
    | (with_reducible apply Moves.foldl; intro _ _ _)
    | split
    | (clear_value *; split)
    | (with_reducible apply Moves.step; (with_reducible apply Moves.upd_pwr); decide)

end Sys2Proof.Machine
end

