-- ==== Sys2Proof/Laws/FrameBox.lean ====
section
/-! SUPPORT. What the functions of Machine/Box.lean may change. -/

set_option linter.unusedTactic false
set_option linter.unreachableTactic false
set_option linter.tactic.unusedName false

namespace Sys2Proof.Machine

open Sys2Proof.Laws Sys2Proof.Safety

theorem State.endCmd_moves {s : State} {m : Nat} {st : Status} {payload : List Byte} {logged0 : Bool} :
    Moves (logged [.mbs]) s (State.endCmd s m st payload logged0) := by
  unfold State.endCmd
  repeat' first
    | with_reducible apply Moves.refl
    | with_reducible assumption
    | (extract_lets -useContext -merge -underBinder +onlyGivenNames x; with_reducible apply Moves.cut (x := x); pick_goal 2; dsimp only [x]; clear x; pick_goal 2; clear_value x; intro hx)
    | (extract_lets -useContext -merge -underBinder +onlyGivenNames x; skip)
    | with_reducible apply Moves.ite
    | (with_reducible apply Moves.step; (with_reducible first
        | apply State.setMb_moves | apply State.raiseReg_moves | apply State.emit_moves); decide)
    | split
    | (clear_value *; split)
    | (with_reducible apply Moves.step; (with_reducible apply Moves.upd_tx); decide)

theorem State.serve_moves {s : State} {ms : List Nat} :
    Moves [.mbs] s (State.serve s ms) := by
  unfold State.serve
  repeat' first
    | with_reducible apply Moves.refl
    | with_reducible assumption
    | with_reducible apply Moves.ite
    | (with_reducible apply Moves.step; (with_reducible first
        | apply State.setMb_moves); decide)
    | (with_reducible apply Moves.foldl; intro _ _ _)
    | split

theorem State.failBoxes_moves {s : State} :
    Moves (logged [.mbs, .stateMb, .mbQueue]) s (State.failBoxes s) := by
  unfold State.failBoxes
  repeat' first
    | with_reducible apply Moves.refl
    | with_reducible assumption
    | (extract_lets -useContext -merge -underBinder +onlyGivenNames x; with_reducible apply Moves.cut (x := x); pick_goal 2; dsimp only [x]; clear x; pick_goal 2; clear_value x; intro hx)
    | (extract_lets -useContext -merge -underBinder +onlyGivenNames x; skip)
    | with_reducible apply Moves.ite
    | (with_reducible apply Moves.step; (with_reducible first
        | apply State.endCmd_moves); decide)
    | (with_reducible apply Moves.foldl; intro _ _ _)
    | split
    | (clear_value *; split)
    | (with_reducible apply Moves.step; (with_reducible apply Moves.upd_stateMb_mbQueue); decide)
    | (with_reducible apply Moves.step; (with_reducible apply Moves.upd_mbQueue); decide)
    | (with_reducible apply Moves.step; (with_reducible apply Moves.upd_stateMb); decide)

end Sys2Proof.Machine
end

