-- ==== Sys2Proof/Laws/FrameTasks.lean ====
section
/-! SUPPORT. What the functions of Machine/Tasks.lean may change. -/

set_option linter.unusedTactic false
set_option linter.unreachableTactic false
set_option linter.tactic.unusedName false

namespace Sys2Proof.Machine

open Sys2Proof.Laws Sys2Proof.Safety

theorem State.permTrap_moves {s : State} {id : Nat} {k : Nat} {row : Nat} {lane : Nat} :
    Moves (logged [.regs]) s (State.permTrap s id k row lane) := by
  unfold State.permTrap
  repeat' first
    | with_reducible apply Moves.refl
    | with_reducible assumption
    | (extract_lets -useContext -merge -underBinder +onlyGivenNames x; with_reducible apply Moves.cut (x := x); pick_goal 2; dsimp only [x]; clear x; pick_goal 2; clear_value x; intro hx)
    | (extract_lets -useContext -merge -underBinder +onlyGivenNames x; skip)
    | with_reducible apply Moves.ite
    | (with_reducible apply Moves.step; (with_reducible first
        | apply State.setReg_moves | apply State.bump_moves | apply State.emitUnit_moves); decide)
    | split
    | (clear_value *; split)

theorem State.computeRun_moves {s : State} {id : Nat} :
    Moves (logged [.fresh, .regs, .mem, .poison, .sculls, .crews, .ergs, .ctrs, .tasks, .rings, .dunes, .tier, .kv, .lowp, .ports, .peers, .sched]) s (State.computeRun s id) := by
  unfold State.computeRun
  repeat' first
    | with_reducible apply Moves.refl
    | with_reducible assumption
    | (extract_lets -useContext -merge -underBinder +onlyGivenNames x; with_reducible apply Moves.cut (x := x); pick_goal 2; dsimp only [x]; clear x; pick_goal 2; clear_value x; intro hx)
    | (extract_lets -useContext -merge -underBinder +onlyGivenNames x; skip)
    | with_reducible apply Moves.ite
    | (with_reducible apply Moves.step; (with_reducible first
        | apply State.takeOut_moves | apply State.failRun_moves | apply State.setTask_moves
        | apply State.permTrap_moves); decide)
    | split
    | (clear_value *; split)

theorem State.residueFail_moves {s : State} {k : Nat} {id : Nat} {slot : Nat} {block : Nat} :
    Moves (logged [.fresh, .regs, .mem, .poison, .sculls, .crews, .ergs, .ctrs, .tasks, .rings, .dunes, .tier, .kv, .lowp, .sched]) s (State.residueFail s k id slot block) := by
  unfold State.residueFail
  repeat' first
    | with_reducible apply Moves.refl
    | with_reducible assumption
    | (extract_lets -useContext -merge -underBinder +onlyGivenNames x; with_reducible apply Moves.cut (x := x); pick_goal 2; dsimp only [x]; clear x; pick_goal 2; clear_value x; intro hx)
    | (extract_lets -useContext -merge -underBinder +onlyGivenNames x; skip)
    | with_reducible apply Moves.ite
    | (with_reducible apply Moves.step; (with_reducible first
        | apply State.endRun_moves | apply State.retireScull_moves | apply State.bump_moves
        | apply State.setScull_moves | apply State.setTask_moves | apply State.emitUnit_moves); decide)
    | split
    | (clear_value *; split)

theorem State.advanceArray_moves {s : State} {id : Nat} :
    Moves (logged [.fresh, .regs, .mem, .poison, .sculls, .crews, .ergs, .ctrs, .tasks, .rings, .dunes, .tier, .kv, .lowp, .ports, .peers, .sched]) s (State.advanceArray s id) := by
  unfold State.advanceArray
  repeat' first
    | with_reducible apply Moves.refl
    | with_reducible assumption
    | (extract_lets -useContext -merge -underBinder +onlyGivenNames x; with_reducible apply Moves.cut (x := x); pick_goal 2; dsimp only [x]; clear x; pick_goal 2; clear_value x; intro hx)
    | (extract_lets -useContext -merge -underBinder +onlyGivenNames x; skip)
    | with_reducible apply Moves.ite
    | (with_reducible apply Moves.step; (with_reducible first
        | apply State.pumpXfers_moves | apply State.residueFail_moves | apply State.arrayTurn_snd); decide)
    | (with_reducible apply Moves.of_pair; assumption)
    | (with_reducible apply Moves.of_reply; assumption)
    | split
    | (clear_value *; split)

theorem State.advance_moves {s : State} {id : Nat} :
    Moves (logged [.fresh, .regs, .mem, .poison, .sculls, .crews, .ergs, .ctrs, .tasks, .rings, .dunes, .tier, .kv, .lowp, .ports, .peers, .sched]) s (State.advance s id) := by
  unfold State.advance
  repeat' first
    | with_reducible apply Moves.refl
    | with_reducible assumption
    | (extract_lets -useContext -merge -underBinder +onlyGivenNames x; with_reducible apply Moves.cut (x := x); pick_goal 2; dsimp only [x]; clear x; pick_goal 2; clear_value x; intro hx)
    | (extract_lets -useContext -merge -underBinder +onlyGivenNames x; skip)
    | with_reducible apply Moves.ite
    | (with_reducible apply Moves.step; (with_reducible first
        | apply State.addXfers_moves | apply State.setTask_moves | apply State.computeRun_moves
        | apply State.advanceArray_moves); decide)
    | split
    | (clear_value *; split)

theorem State.startRun_moves {s : State} {k : Nat} {id : Nat} :
    Moves (logged [.fresh, .regs, .seeded, .mem, .poison, .sculls, .crews, .ergs, .ctrs, .tasks, .rings, .dunes, .tier, .kv, .lowp, .ports, .rigger, .colls, .peers, .sched]) s (State.startRun s k id) := by
  unfold State.startRun
  repeat' first
    | with_reducible apply Moves.refl
    | with_reducible assumption
    | (extract_lets -useContext -merge -underBinder +onlyGivenNames x; with_reducible apply Moves.cut (x := x); pick_goal 2; dsimp only [x]; clear x; pick_goal 2; clear_value x; intro hx)
    | (extract_lets -useContext -merge -underBinder +onlyGivenNames x; skip)
    | with_reducible apply Moves.ite
    | (with_reducible apply Moves.step; (with_reducible first
        | apply State.beginCollect_moves | apply State.addXfers_moves | apply State.claimAll_moves
        | apply State.dequeue_moves | apply State.doneTask_moves | apply State.setScull_moves
        | apply State.setCrew_moves | apply State.setErg_moves | apply State.setTask_moves
        | apply State.advance_moves | apply State.updTensor_moves | apply State.prepareLists_snd); decide)
    | (with_reducible apply Moves.foldl; intro _ _ _)
    | (with_reducible apply Moves.foldl_snd; intro _ _ _)
    | (with_reducible apply Moves.of_pair; assumption)
    | (with_reducible apply Moves.of_reply; assumption)
    | split
    | (clear_value *; split)
    | (with_reducible apply Moves.step; (with_reducible apply Moves.upd_seeded); decide)

theorem State.tryStart_moves {s : State} {k : Nat} {id : Nat} :
    Moves (logged [.fresh, .regs, .seeded, .mem, .poison, .sculls, .crews, .ergs, .ctrs, .tasks, .rings, .dunes, .tier, .kv, .lowp, .ports, .rigger, .colls, .peers, .sched]) s (State.tryStart s k id) := by
  unfold State.tryStart
  repeat' first
    | with_reducible apply Moves.refl
    | with_reducible assumption
    | (extract_lets -useContext -merge -underBinder +onlyGivenNames x; with_reducible apply Moves.cut (x := x); pick_goal 2; dsimp only [x]; clear x; pick_goal 2; clear_value x; intro hx)
    | (extract_lets -useContext -merge -underBinder +onlyGivenNames x; skip)
    | with_reducible apply Moves.ite
    | (with_reducible apply Moves.step; (with_reducible first
        | apply State.park_moves | apply State.pumpAll_moves | apply State.endRun_moves | apply State.startRun_moves); decide)
    | split
    | (clear_value *; split)

theorem State.mayIssue_snd {s : State} {d : Nat} :
    Moves [.fresh] s (State.mayIssue s d).2 := by
  unfold State.mayIssue
  repeat' first
    | with_reducible apply Moves.refl
    | with_reducible assumption
    | (extract_lets -useContext -merge -underBinder +onlyGivenNames x; with_reducible apply Moves.cut (x := x); pick_goal 2; dsimp only [x]; clear x; pick_goal 2; clear_value x; intro hx)
    | (extract_lets -useContext -merge -underBinder +onlyGivenNames x; skip)
    | with_reducible apply Moves.ite
    | (with_reducible apply Moves.step; (with_reducible first
        | apply State.draw_snd); decide)
    | (with_reducible apply Moves.of_pair; assumption)
    | (with_reducible apply Moves.of_reply; assumption)
    | split
    | (clear_value *; split)

theorem State.mayIssue_moves {s : State} {d : Nat} {w : Bool} {t : State} (h : State.mayIssue s d = (w, t)) :
    Moves [.fresh] s t := by
  have k := State.mayIssue_snd (s := s) (d := d)
  rw [h] at k
  exact k

theorem execTaskTake_ends {k : Nat} {s : State} :
    Ends (logged [.fresh, .regs, .seeded, .mem, .poison, .sculls, .crews, .ergs, .ctrs, .tasks, .rings, .dunes, .tier, .kv, .lowp, .ports, .rigger, .colls, .peers, .sched]) s (execTaskTake k s) := by
  unfold execTaskTake
  repeat' first
    | with_reducible apply Moves.refl
    | with_reducible assumption
    | with_reducible apply Ends.next
    | (extract_lets -useContext -merge -underBinder +onlyGivenNames x; with_reducible apply Moves.cut (x := x); pick_goal 2; dsimp only [x]; clear x; pick_goal 2; clear_value x; intro hx)
    | (extract_lets -useContext -merge -underBinder +onlyGivenNames x; with_reducible apply Ends.cut (x := x); pick_goal 2; dsimp only [x]; clear x; pick_goal 2; clear_value x; intro hx)
    | (extract_lets -useContext -merge -underBinder +onlyGivenNames x; skip)
    | with_reducible apply Moves.ite
    | with_reducible apply Ends.ite
    | (with_reducible apply Moves.step; (with_reducible first
        | apply State.tryStart_moves | apply State.mayIssue_snd); decide)
    | (with_reducible apply Moves.of_pair; assumption)
    | (with_reducible apply Moves.of_reply; assumption)
    | split
    | (clear_value *; split)

theorem State.stealTask_moves {s : State} {k : Nat} {v : Nat} {id : Nat} :
    Moves (logged [.fresh, .regs, .seeded, .mem, .poison, .sculls, .crews, .ergs, .ctrs, .tasks, .rings, .dunes, .tier, .kv, .lowp, .ports, .rigger, .colls, .peers, .sched]) s (State.stealTask s k v id) := by
  unfold State.stealTask
  repeat' first
    | with_reducible apply Moves.refl
    | with_reducible assumption
    | (with_reducible apply Moves.step; (with_reducible first
        | apply State.bump_moves | apply State.setScull_moves | apply State.tryStart_moves); decide)

theorem execTaskSteal_ends {k : Nat} {s : State} :
    Ends (logged [.fresh, .regs, .seeded, .mem, .poison, .sculls, .crews, .ergs, .ctrs, .tasks, .rings, .dunes, .tier, .kv, .lowp, .ports, .rigger, .colls, .peers, .sched]) s (execTaskSteal k s) := by
  unfold execTaskSteal
  repeat' first
    | with_reducible apply Moves.refl
    | with_reducible assumption
    | with_reducible apply Ends.next
    | (extract_lets -useContext -merge -underBinder +onlyGivenNames x; with_reducible apply Moves.cut (x := x); pick_goal 2; dsimp only [x]; clear x; pick_goal 2; clear_value x; intro hx)
    | (extract_lets -useContext -merge -underBinder +onlyGivenNames x; with_reducible apply Ends.cut (x := x); pick_goal 2; dsimp only [x]; clear x; pick_goal 2; clear_value x; intro hx)
    | (extract_lets -useContext -merge -underBinder +onlyGivenNames x; skip)
    | with_reducible apply Moves.ite
    | with_reducible apply Ends.ite
    | (with_reducible apply Moves.step; (with_reducible first
        | apply State.setScull_moves | apply State.stealTask_moves | apply State.mayIssue_snd); decide)
    | (with_reducible apply Moves.of_pair; assumption)
    | (with_reducible apply Moves.of_reply; assumption)
    | split
    | (clear_value *; split)

theorem execTaskResume_ends {k : Nat} {id : Nat} {s : State} :
    Ends (logged [.fresh, .regs, .mem, .poison, .sculls, .crews, .ergs, .ctrs, .tasks, .rings, .dunes, .tier, .kv, .lowp, .ports, .peers, .sched]) s (execTaskResume k id s) := by
  unfold execTaskResume
  repeat' first
    | with_reducible apply Moves.refl
    | with_reducible assumption
    | with_reducible apply Ends.next
    | (extract_lets -useContext -merge -underBinder +onlyGivenNames x; with_reducible apply Moves.cut (x := x); pick_goal 2; dsimp only [x]; clear x; pick_goal 2; clear_value x; intro hx)
    | (extract_lets -useContext -merge -underBinder +onlyGivenNames x; with_reducible apply Ends.cut (x := x); pick_goal 2; dsimp only [x]; clear x; pick_goal 2; clear_value x; intro hx)
    | (extract_lets -useContext -merge -underBinder +onlyGivenNames x; skip)
    | with_reducible apply Moves.ite
    | with_reducible apply Ends.ite
    | (with_reducible apply Moves.step; (with_reducible first
        | apply State.pumpXfers_moves | apply State.setScull_moves | apply State.setTask_moves
        | apply State.advance_moves); decide)
    | split
    | (clear_value *; split)

theorem State.hostErr_moves {s : State} {res : Ending} :
    Moves [.lossCounts, .regs] s (State.hostErr s res) := by
  unfold State.hostErr
  repeat' first
    | with_reducible apply Moves.refl
    | with_reducible assumption
    | (with_reducible apply Moves.step; (with_reducible first
        | apply State.bump_moves); decide)
    | split

theorem State.xferDone_moves {s : State} {k : Nat} {id : Nat} {i : Nat} {x : Xfer} :
    Moves (logged [.fresh, .regs, .mem, .poison, .sculls, .crews, .ergs, .ctrs, .tasks, .rings, .dunes, .tier, .kv, .lowp, .ports, .peers, .sched]) s (State.xferDone s k id i x) := by
  unfold State.xferDone
  repeat' first
    | with_reducible apply Moves.refl
    | with_reducible assumption
    | (extract_lets -useContext -merge -underBinder +onlyGivenNames x; with_reducible apply Moves.cut (x := x); pick_goal 2; dsimp only [x]; clear x; pick_goal 2; clear_value x; intro hx)
    | (extract_lets -useContext -merge -underBinder +onlyGivenNames x; skip)
    | with_reducible apply Moves.ite
    | (with_reducible apply Moves.step; (with_reducible first
        | apply State.pumpScull_moves | apply State.landRead_moves | apply State.landWrite_moves
        | apply State.setTask_moves | apply State.advance_moves); decide)
    | split
    | (clear_value *; split)

theorem State.xferBad_moves {s : State} {k : Nat} {id : Nat} {i : Nat} {x : Xfer} :
    Moves (logged [.fresh, .regs, .mem, .poison, .sculls, .crews, .ergs, .ctrs, .tasks, .rings, .dunes, .tier, .kv, .lowp, .ports, .peers, .sched]) s (State.xferBad s k id i x) := by
  unfold State.xferBad
  repeat' first
    | with_reducible apply Moves.refl
    | with_reducible assumption
    | (extract_lets -useContext -merge -underBinder +onlyGivenNames x; with_reducible apply Moves.cut (x := x); pick_goal 2; dsimp only [x]; clear x; pick_goal 2; clear_value x; intro hx)
    | (extract_lets -useContext -merge -underBinder +onlyGivenNames x; skip)
    | with_reducible apply Moves.ite
    | (with_reducible apply Moves.step; (with_reducible first
        | apply State.pumpScull_moves | apply State.countRead_moves | apply State.failRun_moves
        | apply State.setTask_moves); decide)
    | (with_reducible apply Moves.foldl; intro _ _ _)
    | split
    | (clear_value *; split)

theorem State.xferDropped_moves {s : State} {k : Nat} {id : Nat} {i : Nat} :
    Moves (logged [.fresh, .regs, .mem, .poison, .sculls, .tasks, .dunes, .tier, .ports, .peers]) s (State.xferDropped s k id i) := by
  unfold State.xferDropped
  repeat' first
    | with_reducible apply Moves.refl
    | with_reducible assumption
    | (with_reducible apply Moves.step; (with_reducible first
        | apply State.pumpScull_moves | apply State.setTask_moves); decide)

theorem execScullDmaComplete_ends {k : Nat} {i : Nat} {res : Ending} {host : List Cell} {found : List (Nat × PieceCheck)} {fixed : Nat} {s : State} :
    Ends (logged [.fresh, .nv, .regs, .mem, .poison, .sculls, .crews, .ergs, .ctrs, .tasks, .rings, .dunes, .tier, .kv, .lowp, .ports, .peers, .sched]) s (execScullDmaComplete k i res host found fixed s) := by
  unfold execScullDmaComplete
  repeat' first
    | with_reducible apply Moves.refl
    | with_reducible assumption
    | with_reducible apply Ends.next
    | (extract_lets -useContext -merge -underBinder +onlyGivenNames x; with_reducible apply Moves.cut (x := x); pick_goal 2; dsimp only [x]; clear x; pick_goal 2; clear_value x; intro hx)
    | (extract_lets -useContext -merge -underBinder +onlyGivenNames x; with_reducible apply Ends.cut (x := x); pick_goal 2; dsimp only [x]; clear x; pick_goal 2; clear_value x; intro hx)
    | (extract_lets -useContext -merge -underBinder +onlyGivenNames x; skip)
    | with_reducible apply Moves.ite
    | with_reducible apply Ends.ite
    | (with_reducible apply Moves.step; (with_reducible first
        | apply State.parityEnds_moves | apply State.foundAt_moves | apply State.limitStores_moves
        | apply State.failRun_moves | apply State.seeHost_moves | apply State.bumpBy_moves
        | apply State.hostErr_moves | apply State.xferDone_moves | apply State.xferBad_moves
        | apply State.xferDropped_moves); decide)
    | (with_reducible apply Moves.foldl; intro _ _ _)
    | split
    | (clear_value *; split)

theorem State.tallyUp_moves {s : State} {k : Nat} {t : Task} :
    Moves [.lossCounts, .regs] s (State.tallyUp s k t) := by
  unfold State.tallyUp
  repeat' first
    | with_reducible apply Moves.refl
    | with_reducible assumption
    | (extract_lets -useContext -merge -underBinder +onlyGivenNames x; with_reducible apply Moves.cut (x := x); pick_goal 2; dsimp only [x]; clear x; pick_goal 2; clear_value x; intro hx)
    | (extract_lets -useContext -merge -underBinder +onlyGivenNames x; skip)
    | (with_reducible apply Moves.step; (with_reducible first
        | apply State.bumpBy_moves | apply State.bump64_moves); decide)

theorem State.heatLine_moves {s : State} {l : Nat} {cs : List Cell} :
    Moves (logged [.fresh, .regs, .mem, .poison, .dunes, .tier]) s (State.heatLine s l cs) := by
  unfold State.heatLine
  repeat' first
    | with_reducible apply Moves.refl
    | with_reducible assumption
    | with_reducible apply Moves.ite
    | (with_reducible apply Moves.step; (with_reducible first
        | apply State.heatPage_moves); decide)
    | split

theorem State.release_moves {s : State} {id : Nat} {cells : List Cell} :
    Moves (logged [.fresh, .regs, .mem, .poison, .dunes, .tier, .ports, .peers]) s (State.release s id cells) := by
  unfold State.release
  repeat' first
    | with_reducible apply Moves.refl
    | with_reducible assumption
    | (extract_lets -useContext -merge -underBinder +onlyGivenNames x; with_reducible apply Moves.cut (x := x); pick_goal 2; dsimp only [x]; clear x; pick_goal 2; clear_value x; intro hx)
    | (extract_lets -useContext -merge -underBinder +onlyGivenNames x; skip)
    | with_reducible apply Moves.ite
    | (with_reducible apply Moves.step; (with_reducible first
        | apply State.peerWrite_moves | apply State.write_moves | apply State.heatLine_moves
        | apply State.updTensor_moves); decide)
    | (with_reducible apply Moves.foldl; intro _ _ _)
    | split
    | (clear_value *; split)

theorem State.commitTask_moves {s : State} {k : Nat} {id : Nat} :
    Moves (logged [.fresh, .regs, .mem, .poison, .sculls, .crews, .tasks, .dunes, .tier, .kv, .ports, .peers]) s (State.commitTask s k id) := by
  unfold State.commitTask
  repeat' first
    | with_reducible apply Moves.refl
    | with_reducible assumption
    | (extract_lets -useContext -merge -underBinder +onlyGivenNames x; with_reducible apply Moves.cut (x := x); pick_goal 2; dsimp only [x]; clear x; pick_goal 2; clear_value x; intro hx)
    | (extract_lets -useContext -merge -underBinder +onlyGivenNames x; skip)
    | with_reducible apply Moves.ite
    | (with_reducible apply Moves.step; (with_reducible first
        | apply State.commitLists_moves | apply State.rewake_moves | apply State.leaveScull_moves
        | apply State.setTask_moves | apply State.tallyUp_moves | apply State.release_moves
        | apply State.moveTensor_moves); decide)
    | split
    | (clear_value *; split)

theorem execTaskCommit_ends {k : Nat} {bufferOk : Bool} {s : State} :
    Ends (logged [.fresh, .regs, .mem, .poison, .sculls, .crews, .ergs, .ctrs, .tasks, .rings, .dunes, .tier, .kv, .lowp, .ports, .peers, .sched]) s (execTaskCommit k bufferOk s) := by
  unfold execTaskCommit
  repeat' first
    | with_reducible apply Moves.refl
    | with_reducible assumption
    | with_reducible apply Ends.next
    | (extract_lets -useContext -merge -underBinder +onlyGivenNames x; with_reducible apply Moves.cut (x := x); pick_goal 2; dsimp only [x]; clear x; pick_goal 2; clear_value x; intro hx)
    | (extract_lets -useContext -merge -underBinder +onlyGivenNames x; with_reducible apply Ends.cut (x := x); pick_goal 2; dsimp only [x]; clear x; pick_goal 2; clear_value x; intro hx)
    | (extract_lets -useContext -merge -underBinder +onlyGivenNames x; skip)
    | with_reducible apply Moves.ite
    | with_reducible apply Ends.ite
    | (with_reducible apply Moves.step; (with_reducible first
        | apply State.pumpAll_moves | apply State.doneTask_moves | apply State.release_moves
        | apply State.commitTask_moves); decide)
    | split
    | (clear_value *; split)
    | (with_reducible apply Moves.step; (with_reducible apply Moves.upd_fresh); decide)

theorem execTaskDone_ends {id : Nat} {s : State} :
    Ends (logged [.fresh, .regs, .mem, .poison, .sculls, .crews, .ergs, .ctrs, .tasks, .rings, .dunes, .tier, .kv, .lowp, .sched]) s (execTaskDone id s) := by
  unfold execTaskDone
  repeat' first
    | with_reducible apply Moves.refl
    | with_reducible assumption
    | with_reducible apply Ends.next
    | (extract_lets -useContext -merge -underBinder +onlyGivenNames x; with_reducible apply Moves.cut (x := x); pick_goal 2; dsimp only [x]; clear x; pick_goal 2; clear_value x; intro hx)
    | (extract_lets -useContext -merge -underBinder +onlyGivenNames x; with_reducible apply Ends.cut (x := x); pick_goal 2; dsimp only [x]; clear x; pick_goal 2; clear_value x; intro hx)
    | (extract_lets -useContext -merge -underBinder +onlyGivenNames x; skip)
    | with_reducible apply Moves.ite
    | with_reducible apply Ends.ite
    | (with_reducible apply Moves.step; (with_reducible first
        | apply State.doneTask_moves); decide)
    | split
    | (clear_value *; split)

theorem State.emptyPanels_moves {s : State} {p : Nat} :
    Moves [.crews] s (State.emptyPanels s p) := by
  unfold State.emptyPanels
  repeat' first
    | with_reducible apply Moves.refl
    | with_reducible assumption
    | (with_reducible apply Moves.step; (with_reducible first
        | apply State.setCrew_moves); decide)
    | (with_reducible apply Moves.foldl; intro _ _ _)

theorem execFenceComplete_ends {q : Nat} {s : State} :
    Ends (logged [.fresh, .regs, .mem, .poison, .sculls, .crews, .ergs, .ctrs, .tasks, .rings, .dunes, .tier, .kv, .lowp, .sched]) s (execFenceComplete q s) := by
  unfold execFenceComplete
  repeat' first
    | with_reducible apply Moves.refl
    | with_reducible assumption
    | with_reducible apply Ends.next
    | (extract_lets -useContext -merge -underBinder +onlyGivenNames x; with_reducible apply Moves.cut (x := x); pick_goal 2; dsimp only [x]; clear x; pick_goal 2; clear_value x; intro hx)
    | (extract_lets -useContext -merge -underBinder +onlyGivenNames x; with_reducible apply Ends.cut (x := x); pick_goal 2; dsimp only [x]; clear x; pick_goal 2; clear_value x; intro hx)
    | (extract_lets -useContext -merge -underBinder +onlyGivenNames x; skip)
    | with_reducible apply Moves.ite
    | with_reducible apply Ends.ite
    | (with_reducible apply Moves.step; (with_reducible first
        | apply State.doneTask_moves | apply State.emptyPanels_moves); decide)
    | split
    | (clear_value *; split)

theorem execSignal_ends {id : Nat} {s : State} :
    Ends (logged [.fresh, .regs, .mem, .poison, .sculls, .crews, .ergs, .ctrs, .tasks, .rings, .dunes, .tier, .kv, .lowp, .sched]) s (execSignal id s) := by
  unfold execSignal
  repeat' first
    | with_reducible apply Moves.refl
    | with_reducible assumption
    | with_reducible apply Ends.next
    | (extract_lets -useContext -merge -underBinder +onlyGivenNames x; with_reducible apply Moves.cut (x := x); pick_goal 2; dsimp only [x]; clear x; pick_goal 2; clear_value x; intro hx)
    | (extract_lets -useContext -merge -underBinder +onlyGivenNames x; with_reducible apply Ends.cut (x := x); pick_goal 2; dsimp only [x]; clear x; pick_goal 2; clear_value x; intro hx)
    | (extract_lets -useContext -merge -underBinder +onlyGivenNames x; skip)
    | with_reducible apply Moves.ite
    | with_reducible apply Ends.ite
    | (with_reducible apply Moves.step; (with_reducible first
        | apply State.park_moves | apply State.doneTask_moves | apply State.setCtr_moves); decide)
    | split
    | (clear_value *; split)

theorem State.badEntry_moves {s : State} {id : Nat} {pg : Nat} :
    Moves (logged [.fresh, .regs, .mem, .poison, .sculls, .crews, .ergs, .ctrs, .tasks, .rings, .dunes, .tier, .kv, .lowp, .sched]) s (State.badEntry s id pg) := by
  unfold State.badEntry
  repeat' first
    | with_reducible apply Moves.refl
    | with_reducible assumption
    | (extract_lets -useContext -merge -underBinder +onlyGivenNames x; with_reducible apply Moves.cut (x := x); pick_goal 2; dsimp only [x]; clear x; pick_goal 2; clear_value x; intro hx)
    | (extract_lets -useContext -merge -underBinder +onlyGivenNames x; skip)
    | (with_reducible apply Moves.step; (with_reducible first
        | apply State.emitKv_moves | apply State.failRun_moves); decide)

theorem State.swapRequest_moves {s : State} {id : Nat} {list : Nat} {pg : Nat} :
    Moves [.kv] s (State.swapRequest s id list pg) := by
  unfold State.swapRequest
  repeat' first
    | with_reducible apply Moves.refl
    | with_reducible assumption
    | with_reducible apply Moves.ite
    | split
    | (with_reducible apply Moves.step; (with_reducible apply Moves.upd_kv); decide)

theorem State.walkPage_moves {s : State} {id : Nat} {pg : Nat} :
    Moves (logged [.fresh, .regs, .mem, .poison, .sculls, .crews, .ergs, .ctrs, .tasks, .rings, .dunes, .tier, .kv, .lowp, .ports, .peers, .sched]) s (State.walkPage s id pg) := by
  unfold State.walkPage
  repeat' first
    | with_reducible apply Moves.refl
    | with_reducible assumption
    | (extract_lets -useContext -merge -underBinder +onlyGivenNames x; with_reducible apply Moves.cut (x := x); pick_goal 2; dsimp only [x]; clear x; pick_goal 2; clear_value x; intro hx)
    | (extract_lets -useContext -merge -underBinder +onlyGivenNames x; skip)
    | with_reducible apply Moves.ite
    | (with_reducible apply Moves.step; (with_reducible first
        | apply State.addXfers_moves | apply State.setTask_moves | apply State.badEntry_moves
        | apply State.swapRequest_moves); decide)
    | split
    | (clear_value *; split)

theorem execWalkerEntryRead_ends {id : Nat} {g : Nat} {s : State} :
    Ends (logged [.fresh, .regs, .mem, .poison, .sculls, .crews, .ergs, .ctrs, .tasks, .rings, .dunes, .tier, .kv, .lowp, .ports, .peers, .sched]) s (execWalkerEntryRead id g s) := by
  unfold execWalkerEntryRead
  repeat' first
    | with_reducible apply Moves.refl
    | with_reducible assumption
    | with_reducible apply Ends.next
    | (extract_lets -useContext -merge -underBinder +onlyGivenNames x; with_reducible apply Moves.cut (x := x); pick_goal 2; dsimp only [x]; clear x; pick_goal 2; clear_value x; intro hx)
    | (extract_lets -useContext -merge -underBinder +onlyGivenNames x; with_reducible apply Ends.cut (x := x); pick_goal 2; dsimp only [x]; clear x; pick_goal 2; clear_value x; intro hx)
    | (extract_lets -useContext -merge -underBinder +onlyGivenNames x; skip)
    | with_reducible apply Moves.ite
    | with_reducible apply Ends.ite
    | (with_reducible apply Moves.step; (with_reducible first
        | apply State.countNarrow_moves | apply State.failRun_moves | apply State.advance_moves
        | apply State.walkPage_moves); decide)
    | (with_reducible apply Moves.foldl; intro _ _ _)
    | split
    | (clear_value *; split)

theorem execSeifPageSuspend_ends {id : Nat} {s : State} :
    Ends [.sculls, .tasks] s (execSeifPageSuspend id s) := by
  unfold execSeifPageSuspend
  repeat' first
    | with_reducible apply Moves.refl
    | with_reducible assumption
    | with_reducible apply Ends.next
    | (extract_lets -useContext -merge -underBinder +onlyGivenNames x; with_reducible apply Moves.cut (x := x); pick_goal 2; dsimp only [x]; clear x; pick_goal 2; clear_value x; intro hx)
    | (extract_lets -useContext -merge -underBinder +onlyGivenNames x; with_reducible apply Ends.cut (x := x); pick_goal 2; dsimp only [x]; clear x; pick_goal 2; clear_value x; intro hx)
    | (extract_lets -useContext -merge -underBinder +onlyGivenNames x; skip)
    | with_reducible apply Moves.ite
    | with_reducible apply Ends.ite
    | (with_reducible apply Moves.step; (with_reducible first
        | apply State.setScull_moves | apply State.setTask_moves); decide)
    | split
    | (clear_value *; split)

theorem execSwapinServeComplete_ends {res : Ending} {host : List Cell} {s : State} :
    Ends (logged [.fresh, .regs, .mem, .poison, .sculls, .crews, .ergs, .ctrs, .tasks, .rings, .dunes, .tier, .kv, .lowp, .sched]) s (execSwapinServeComplete res host s) := by
  unfold execSwapinServeComplete
  repeat' first
    | with_reducible apply Moves.refl
    | with_reducible assumption
    | with_reducible apply Ends.next
    | (extract_lets -useContext -merge -underBinder +onlyGivenNames x; with_reducible apply Moves.cut (x := x); pick_goal 2; dsimp only [x]; clear x; pick_goal 2; clear_value x; intro hx)
    | (extract_lets -useContext -merge -underBinder +onlyGivenNames x; with_reducible apply Ends.cut (x := x); pick_goal 2; dsimp only [x]; clear x; pick_goal 2; clear_value x; intro hx)
    | (extract_lets -useContext -merge -underBinder +onlyGivenNames x; skip)
    | with_reducible apply Moves.ite
    | with_reducible apply Ends.ite
    | (with_reducible apply Moves.step; (with_reducible first
        | apply State.emitKv_moves | apply State.setEntry_moves | apply State.kvPush_moves
        | apply State.doneTask_moves | apply State.write_moves | apply State.seeHost_moves | apply State.bump_moves
        | apply State.hostErr_moves | apply State.kvTake_snd); decide)
    | (with_reducible apply Moves.foldl; intro _ _ _)
    | (with_reducible apply Moves.foldl_snd; intro _ _ _)
    | (with_reducible apply Moves.of_pair; assumption)
    | (with_reducible apply Moves.of_reply; assumption)
    | split
    | (clear_value *; split)
    | (with_reducible apply Moves.step; (with_reducible apply Moves.upd_kv); decide)

theorem execBeOverrun_ends {k : Nat} {s : State} :
    Ends (logged [.regs, .tasks]) s (execBeOverrun k s) := by
  unfold execBeOverrun
  repeat' first
    | with_reducible apply Moves.refl
    | with_reducible assumption
    | with_reducible apply Ends.next
    | (extract_lets -useContext -merge -underBinder +onlyGivenNames x; with_reducible apply Moves.cut (x := x); pick_goal 2; dsimp only [x]; clear x; pick_goal 2; clear_value x; intro hx)
    | (extract_lets -useContext -merge -underBinder +onlyGivenNames x; with_reducible apply Ends.cut (x := x); pick_goal 2; dsimp only [x]; clear x; pick_goal 2; clear_value x; intro hx)
    | (extract_lets -useContext -merge -underBinder +onlyGivenNames x; skip)
    | with_reducible apply Moves.ite
    | with_reducible apply Ends.ite
    | (with_reducible apply Moves.step; (with_reducible first
        | apply State.bump_moves | apply State.setTask_moves | apply State.emitUnit_moves); decide)
    | split
    | (clear_value *; split)

end Sys2Proof.Machine
end

