-- ==== Sys2Proof/Laws/FrameCairn.lean ====
section
/-! SUPPORT. What the functions of Machine/Cairn.lean may change. -/

set_option linter.unusedTactic false
set_option linter.unreachableTactic false
set_option linter.tactic.unusedName false

namespace Sys2Proof.Machine

open Sys2Proof.Laws Sys2Proof.Safety

theorem State.cairnAccept_moves {s : State} {p : List Byte} {host : List Cell} :
    Moves [.mem, .cairn] s (State.cairnAccept s p host) := by
  unfold State.cairnAccept
  repeat' first
    | with_reducible apply Moves.refl
    | with_reducible assumption
    | (extract_lets -useContext -merge -underBinder +onlyGivenNames x; with_reducible apply Moves.cut (x := x); pick_goal 2; dsimp only [x]; clear x; pick_goal 2; clear_value x; intro hx)
    | (extract_lets -useContext -merge -underBinder +onlyGivenNames x; skip)
    | with_reducible apply Moves.ite
    | (with_reducible apply Moves.step; (with_reducible first
        | apply State.seeHost_moves); decide)
    | split
    | (clear_value *; split)
    | (with_reducible apply Moves.step; (with_reducible apply Moves.upd_cairn); decide)

theorem State.copyRange_moves {s : State} {src : Nat} {dst : Nat} {n : Nat} :
    Moves [.mem, .poison] s (State.copyRange s src dst n) := by
  unfold State.copyRange
  repeat' first
    | with_reducible apply Moves.refl
    | with_reducible assumption
    | (extract_lets -useContext -merge -underBinder +onlyGivenNames x; with_reducible apply Moves.cut (x := x); pick_goal 2; dsimp only [x]; clear x; pick_goal 2; clear_value x; intro hx)
    | (extract_lets -useContext -merge -underBinder +onlyGivenNames x; skip)
    | (with_reducible apply Moves.step; (with_reducible first
        | apply State.dropRange_moves | apply State.store_moves); decide)

theorem State.countCopy_moves {s : State} {src : Nat} {dst : Nat} {n : Nat} :
    Moves [.lossCounts, .regs] s (State.countCopy s src dst n) := by
  unfold State.countCopy
  repeat' first
    | with_reducible apply Moves.refl
    | with_reducible assumption
    | (extract_lets -useContext -merge -underBinder +onlyGivenNames x; with_reducible apply Moves.cut (x := x); pick_goal 2; dsimp only [x]; clear x; pick_goal 2; clear_value x; intro hx)
    | (extract_lets -useContext -merge -underBinder +onlyGivenNames x; skip)
    | with_reducible apply Moves.ite
    | (with_reducible apply Moves.step; (with_reducible first
        | apply State.bump64_moves); decide)
    | split
    | (clear_value *; split)

theorem State.cairnLog_moves {s : State} {sev : Nat} {st : Status} {pl : List Word} :
    Moves (logged []) s (State.cairnLog s sev st pl) := by
  unfold State.cairnLog
  repeat' first
    | with_reducible apply Moves.refl
    | with_reducible assumption
    | (extract_lets -useContext -merge -underBinder +onlyGivenNames x; with_reducible apply Moves.cut (x := x); pick_goal 2; dsimp only [x]; clear x; pick_goal 2; clear_value x; intro hx)
    | (extract_lets -useContext -merge -underBinder +onlyGivenNames x; skip)
    | with_reducible apply Moves.ite
    | (with_reducible apply Moves.step; (with_reducible first
        | apply State.raise_moves | apply State.emitFw_moves); decide)
    | split
    | (clear_value *; split)

theorem State.cairnFail_moves {s : State} :
    Moves (logged [.regs, .crews, .tasks, .cairn]) s (State.cairnFail s) := by
  unfold State.cairnFail
  repeat' first
    | with_reducible apply Moves.refl
    | with_reducible assumption
    | (extract_lets -useContext -merge -underBinder +onlyGivenNames x; with_reducible apply Moves.cut (x := x); pick_goal 2; dsimp only [x]; clear x; pick_goal 2; clear_value x; intro hx)
    | (extract_lets -useContext -merge -underBinder +onlyGivenNames x; skip)
    | with_reducible apply Moves.ite
    | (with_reducible apply Moves.step; (with_reducible first
        | apply State.cairnLog_moves | apply State.rewake_moves | apply State.bump_moves); decide)
    | split
    | (clear_value *; split)
    | (with_reducible apply Moves.step; (with_reducible apply Moves.upd_cairn); decide)

theorem State.cairnFinish_moves {s : State} :
    Moves (logged [.regs, .mem, .poison, .crews, .tasks, .dunes, .cairn]) s (State.cairnFinish s) := by
  unfold State.cairnFinish
  repeat' first
    | with_reducible apply Moves.refl
    | with_reducible assumption
    | (extract_lets -useContext -merge -underBinder +onlyGivenNames x; with_reducible apply Moves.cut (x := x); pick_goal 2; dsimp only [x]; clear x; pick_goal 2; clear_value x; intro hx)
    | (extract_lets -useContext -merge -underBinder +onlyGivenNames x; skip)
    | with_reducible apply Moves.ite
    | (with_reducible apply Moves.step; (with_reducible first
        | apply State.cairnLog_moves | apply State.cairnFail_moves | apply State.write_moves | apply State.bump_moves); decide)
    | split
    | (clear_value *; split)
    | (with_reducible apply Moves.step; (with_reducible apply Moves.upd_cairn); decide)

theorem State.cairnGrant_moves {s : State} {da : Nat} {ctr : Nat} {v : Word} :
    Moves (logged [.regs, .mem, .poison, .dunes, .cairn]) s (State.cairnGrant s da ctr v) := by
  unfold State.cairnGrant
  repeat' first
    | with_reducible apply Moves.refl
    | with_reducible assumption
    | (extract_lets -useContext -merge -underBinder +onlyGivenNames x; with_reducible apply Moves.cut (x := x); pick_goal 2; dsimp only [x]; clear x; pick_goal 2; clear_value x; intro hx)
    | (extract_lets -useContext -merge -underBinder +onlyGivenNames x; skip)
    | with_reducible apply Moves.ite
    | (with_reducible apply Moves.step; (with_reducible first
        | apply State.write_moves); decide)
    | split
    | (clear_value *; split)
    | (with_reducible apply Moves.step; (with_reducible apply Moves.upd_cairn); decide)

theorem State.cairnStarted_moves {s : State} :
    Moves (logged [.regs, .crews, .tasks, .cairn]) s (State.cairnStarted s) := by
  unfold State.cairnStarted
  repeat' first
    | with_reducible apply Moves.refl
    | with_reducible assumption
    | with_reducible apply Moves.ite
    | (with_reducible apply Moves.step; (with_reducible first
        | apply State.cairnFail_moves); decide)
    | split

theorem execCairnDrainUsExpiry_ends {s : State} :
    Ends (logged [.fresh, .regs, .mem, .poison, .sculls, .crews, .ergs, .ctrs, .tasks, .rings, .dunes, .tier, .kv, .lowp, .sched]) s (execCairnDrainUsExpiry s) := by
  unfold execCairnDrainUsExpiry
  repeat' first
    | with_reducible apply Moves.refl
    | with_reducible assumption
    | with_reducible apply Ends.next
    | (extract_lets -useContext -merge -underBinder +onlyGivenNames x; with_reducible apply Moves.cut (x := x); pick_goal 2; dsimp only [x]; clear x; pick_goal 2; clear_value x; intro hx)
    | (extract_lets -useContext -merge -underBinder +onlyGivenNames x; with_reducible apply Ends.cut (x := x); pick_goal 2; dsimp only [x]; clear x; pick_goal 2; clear_value x; intro hx)
    | (extract_lets -useContext -merge -underBinder +onlyGivenNames x; skip)
    | with_reducible apply Moves.ite
    | with_reducible apply Ends.ite
    | (with_reducible apply Moves.step; (with_reducible first
        | apply State.endRun_moves); decide)
    | (with_reducible apply Moves.foldl; intro _ _ _)
    | split
    | (clear_value *; split)

theorem execCairnStopDrained_ends {s : State} :
    Ends [.cairn] s (execCairnStopDrained s) := by
  unfold execCairnStopDrained
  repeat' first
    | with_reducible apply Moves.refl
    | with_reducible assumption
    | with_reducible apply Ends.next
    | with_reducible apply Moves.ite
    | with_reducible apply Ends.ite
    | split
    | (with_reducible apply Moves.step; (with_reducible apply Moves.upd_cairn); decide)

theorem execCairnCopyComplete_ends {s : State} :
    Ends (logged [.regs, .mem, .poison, .crews, .tasks, .cairn]) s (execCairnCopyComplete s) := by
  unfold execCairnCopyComplete
  repeat' first
    | with_reducible apply Moves.refl
    | with_reducible assumption
    | with_reducible apply Ends.next
    | (extract_lets -useContext -merge -underBinder +onlyGivenNames x; with_reducible apply Moves.cut (x := x); pick_goal 2; dsimp only [x]; clear x; pick_goal 2; clear_value x; intro hx)
    | (extract_lets -useContext -merge -underBinder +onlyGivenNames x; with_reducible apply Ends.cut (x := x); pick_goal 2; dsimp only [x]; clear x; pick_goal 2; clear_value x; intro hx)
    | (extract_lets -useContext -merge -underBinder +onlyGivenNames x; skip)
    | with_reducible apply Moves.ite
    | with_reducible apply Ends.ite
    | (with_reducible apply Moves.step; (with_reducible first
        | apply State.copyRange_moves | apply State.countCopy_moves | apply State.cairnFail_moves); decide)
    | (with_reducible apply Moves.foldl; intro _ _ _)
    | split
    | (clear_value *; split)
    | (with_reducible apply Moves.step; (with_reducible apply Moves.upd_cairn); decide)

theorem execCairnDrainComplete_ends {ok : Bool} {s : State} :
    Ends (logged [.regs, .mem, .poison, .crews, .tasks, .dunes, .cairn]) s (execCairnDrainComplete ok s) := by
  unfold execCairnDrainComplete
  repeat' first
    | with_reducible apply Moves.refl
    | with_reducible assumption
    | with_reducible apply Ends.next
    | (extract_lets -useContext -merge -underBinder +onlyGivenNames x; with_reducible apply Moves.cut (x := x); pick_goal 2; dsimp only [x]; clear x; pick_goal 2; clear_value x; intro hx)
    | (extract_lets -useContext -merge -underBinder +onlyGivenNames x; with_reducible apply Ends.cut (x := x); pick_goal 2; dsimp only [x]; clear x; pick_goal 2; clear_value x; intro hx)
    | (extract_lets -useContext -merge -underBinder +onlyGivenNames x; skip)
    | with_reducible apply Moves.ite
    | with_reducible apply Ends.ite
    | (with_reducible apply Moves.step; (with_reducible first
        | apply State.copyRange_moves | apply State.countCopy_moves | apply State.cairnFail_moves
        | apply State.cairnFinish_moves); decide)
    | (with_reducible apply Moves.foldl; intro _ _ _)
    | split
    | (clear_value *; split)
    | (with_reducible apply Moves.step; (with_reducible apply Moves.upd_cairn); decide)

theorem execCairnLossReady_ends {s : State} :
    Ends (logged [.regs, .mem, .poison, .crews, .tasks, .dunes, .cairn]) s (execCairnLossReady s) := by
  unfold execCairnLossReady
  repeat' first
    | with_reducible apply Moves.refl
    | with_reducible assumption
    | with_reducible apply Ends.next
    | (extract_lets -useContext -merge -underBinder +onlyGivenNames x; with_reducible apply Moves.cut (x := x); pick_goal 2; dsimp only [x]; clear x; pick_goal 2; clear_value x; intro hx)
    | (extract_lets -useContext -merge -underBinder +onlyGivenNames x; with_reducible apply Ends.cut (x := x); pick_goal 2; dsimp only [x]; clear x; pick_goal 2; clear_value x; intro hx)
    | (extract_lets -useContext -merge -underBinder +onlyGivenNames x; skip)
    | with_reducible apply Moves.ite
    | with_reducible apply Ends.ite
    | (with_reducible apply Moves.step; (with_reducible first
        | apply State.cairnFail_moves | apply State.cairnFinish_moves | apply State.countRead_moves); decide)
    | split
    | (clear_value *; split)
    | (with_reducible apply Moves.step; (with_reducible apply Moves.upd_cairn); decide)

theorem State.restoreCopy_snd {s : State} {t0 : Nat} {res : Ending} {host : List Cell} :
    Moves (logged [.fresh, .regs, .mem, .poison, .dunes, .cairn]) s (State.restoreCopy s t0 res host).2 := by
  unfold State.restoreCopy
  repeat' first
    | with_reducible apply Moves.refl
    | with_reducible assumption
    | (extract_lets -useContext -merge -underBinder +onlyGivenNames x; with_reducible apply Moves.cut (x := x); pick_goal 2; dsimp only [x]; clear x; pick_goal 2; clear_value x; intro hx)
    | (extract_lets -useContext -merge -underBinder +onlyGivenNames x; skip)
    | with_reducible apply Moves.ite
    | (with_reducible apply Moves.step; (with_reducible first
        | apply State.copyRange_moves | apply State.countCopy_moves | apply State.freeBytes_moves
        | apply State.seeHost_moves | apply State.hostErr_moves); decide)
    | (with_reducible apply Moves.foldl; intro _ _ _)
    | split
    | (clear_value *; split)
    | (with_reducible apply Moves.step; (with_reducible apply Moves.upd_cairn); decide)

theorem State.restoreCopy_moves {s : State} {t0 : Nat} {res : Ending} {host : List Cell} {w : Status} {t : State} (h : State.restoreCopy s t0 res host = (w, t)) :
    Moves (logged [.fresh, .regs, .mem, .poison, .dunes, .cairn]) s t := by
  have k := State.restoreCopy_snd (s := s) (t0 := t0) (res := res) (host := host)
  rw [h] at k
  exact k

theorem execCairnReplayVerdict_ends {s : State} :
    Ends (logged [.regs, .cairn]) s (execCairnReplayVerdict s) := by
  unfold execCairnReplayVerdict
  repeat' first
    | with_reducible apply Moves.refl
    | with_reducible assumption
    | with_reducible apply Ends.next
    | (extract_lets -useContext -merge -underBinder +onlyGivenNames x; with_reducible apply Moves.cut (x := x); pick_goal 2; dsimp only [x]; clear x; pick_goal 2; clear_value x; intro hx)
    | (extract_lets -useContext -merge -underBinder +onlyGivenNames x; with_reducible apply Ends.cut (x := x); pick_goal 2; dsimp only [x]; clear x; pick_goal 2; clear_value x; intro hx)
    | (extract_lets -useContext -merge -underBinder +onlyGivenNames x; skip)
    | with_reducible apply Moves.ite
    | with_reducible apply Ends.ite
    | (with_reducible apply Moves.step; (with_reducible first
        | apply State.cairnLog_moves | apply State.countRead_moves); decide)
    | split
    | (clear_value *; split)
    | (with_reducible apply Moves.step; (with_reducible apply Moves.upd_cairn); decide)

end Sys2Proof.Machine
end

