-- ==== Sys2Proof/Laws/FrameLogCmds.lean ====
section
/-! SUPPORT. What the functions of Machine/LogCmds.lean may change. -/

set_option linter.unusedTactic false
set_option linter.unreachableTactic false
set_option linter.tactic.unusedName false

namespace Sys2Proof.Machine

open Sys2Proof.Laws Sys2Proof.Safety

theorem State.persistLog_moves {s : State} :
    Moves [.log] s (State.persistLog s) := by
  unfold State.persistLog
  repeat' first
    | with_reducible apply Moves.refl
    | with_reducible assumption
    | with_reducible apply Moves.ite
    | split
    | (with_reducible apply Moves.step; (with_reducible apply Moves.upd_log); decide)

theorem execLogPersist_ends {s : State} :
    Ends [.sent, .reserved, .log, .lossCounts, .vecPend] s (execLogPersist s) := by
  unfold execLogPersist
  repeat' first
    | with_reducible apply Moves.refl
    | with_reducible assumption
    | with_reducible apply Ends.next
    | with_reducible apply Moves.ite
    | with_reducible apply Ends.ite
    | (with_reducible apply Moves.step; (with_reducible first
        | apply State.persistLog_moves | apply State.reportLoss_moves); decide)
    | split

theorem execSuppressionWindowClose_ends {i : Nat} {s : State} :
    Ends (logged []) s (execSuppressionWindowClose i s) := by
  unfold execSuppressionWindowClose
  repeat' first
    | with_reducible apply Moves.refl
    | with_reducible assumption
    | with_reducible apply Ends.next
    | with_reducible apply Moves.ite
    | with_reducible apply Ends.ite
    | (with_reducible apply Moves.step; (with_reducible first
        | apply State.closeWindow_moves); decide)
    | split

end Sys2Proof.Machine
end

