-- ==== Sys2Proof/Laws/FrameWake.lean ====
section
/-! SUPPORT. What the functions of Machine/Wake.lean may change. -/

set_option linter.unusedTactic false
set_option linter.unreachableTactic false
set_option linter.tactic.unusedName false

namespace Sys2Proof.Machine

open Sys2Proof.Laws Sys2Proof.Safety

theorem execWakeRingTailWrite_ends {w : Nat} {r : Nat} {v : Word} {req : Requester} {s : State} :
    Ends (logged [.regs, .wakes]) s (execWakeRingTailWrite w r v req s) := by
  unfold execWakeRingTailWrite
  repeat' first
    | with_reducible apply Moves.refl
    | with_reducible assumption
    | with_reducible apply Ends.next
    | (extract_lets -useContext -merge -underBinder +onlyGivenNames x; with_reducible apply Moves.cut (x := x); pick_goal 2; dsimp only [x]; clear x; pick_goal 2; clear_value x; intro hx)
    | (extract_lets -useContext -merge -underBinder +onlyGivenNames x; with_reducible apply Ends.cut (x := x); pick_goal 2; dsimp only [x]; clear x; pick_goal 2; clear_value x; intro hx)
    | (extract_lets -useContext -merge -underBinder +onlyGivenNames x; skip)
    | with_reducible apply Moves.ite
    | with_reducible apply Ends.ite
    | (with_reducible apply State.onReg_moves; decide; intro _ _)
    | (with_reducible apply Moves.step; (with_reducible first
        | apply State.setWake_moves | apply State.logRefused_moves); decide)
    | split
    | (clear_value *; split)

theorem State.startJob_moves {ps : List Part} {a : State} {s : State} {w : Nat} {r : Nat} {ops : Nat → Bool} {go : State → Job → State}
    (hk : partsIn [.wakes] ps = true)
    (hg : ∀ s x0, Moves ps a s → Moves ps a (go s x0)) (h : Moves ps a s) : Moves ps a (State.startJob s w r ops go) := by
  unfold State.startJob
  repeat' first
    | with_reducible assumption
    | (extract_lets -useContext -merge -underBinder +onlyGivenNames x; with_reducible apply Moves.cut (x := x); pick_goal 2; dsimp only [x]; clear x; pick_goal 2; clear_value x; intro hx)
    | (extract_lets -useContext -merge -underBinder +onlyGivenNames x; skip)
    | with_reducible apply Moves.ite
    | with_reducible apply hg
    | (with_reducible apply Moves.step; (with_reducible first
        | apply State.setWake_moves); exact partsIn_trans (by decide) hk)
    | split
    | (clear_value *; split)

theorem State.jobEnds_moves {s : State} {w : Nat} {r : Nat} {st : Status} :
    Moves [.wakes] s (State.jobEnds s w r st) := by
  unfold State.jobEnds
  repeat' first
    | with_reducible apply Moves.refl
    | with_reducible assumption
    | (with_reducible apply Moves.step; (with_reducible first
        | apply State.setWake_moves); decide)
    | split

theorem execWakeOpen_ends {w : Nat} {r : Nat} {host : List Cell} {s : State} :
    Ends [.mem, .wakes] s (execWakeOpen w r host s) := by
  unfold execWakeOpen
  repeat' first
    | with_reducible apply Moves.refl
    | with_reducible assumption
    | with_reducible apply Ends.next
    | with_reducible apply Moves.ite
    | with_reducible apply Ends.ite
    | (with_reducible apply State.startJob_moves; decide; intro _ _ _)
    | (with_reducible apply Moves.step; (with_reducible first
        | apply State.seeHost_moves | apply State.setWake_moves | apply State.jobEnds_moves); decide)
    | split

theorem execWakeClose_ends {w : Nat} {r : Nat} {s : State} :
    Ends [.wakes] s (execWakeClose w r s) := by
  unfold execWakeClose
  repeat' first
    | with_reducible apply Moves.refl
    | with_reducible assumption
    | with_reducible apply Ends.next
    | (with_reducible apply State.startJob_moves; decide; intro _ _ _)
    | (with_reducible apply Moves.step; (with_reducible first
        | apply State.setWake_moves | apply State.jobEnds_moves); decide)

theorem State.beginRun_moves {s : State} {w : Nat} {r : Nat} {j : Job} :
    Moves [.wakes] s (State.beginRun s w r j) := by
  unfold State.beginRun
  repeat' first
    | with_reducible apply Moves.refl
    | with_reducible assumption
    | with_reducible apply Moves.ite
    | (with_reducible apply Moves.step; (with_reducible first
        | apply State.setWake_moves | apply State.jobEnds_moves); decide)
    | split

theorem execWakeRun_ends {w : Nat} {r : Nat} {host : List Cell} {s : State} :
    Ends [.mem, .wakes] s (execWakeRun w r host s) := by
  unfold execWakeRun
  repeat' first
    | with_reducible apply Moves.refl
    | with_reducible assumption
    | with_reducible apply Ends.next
    | with_reducible apply Moves.ite
    | with_reducible apply Ends.ite
    | (with_reducible apply State.startJob_moves; decide; intro _ _ _)
    | (with_reducible apply Moves.step; (with_reducible first
        | apply State.seeHost_moves | apply State.beginRun_moves); decide)
    | split

theorem State.countWake_moves {s : State} {tag : Nat} {c : Counts} :
    Moves [.lowp] s (State.countWake s tag c) := by
  unfold State.countWake
  repeat' first
    | with_reducible apply Moves.refl
    | with_reducible assumption
    | (extract_lets -useContext -merge -underBinder +onlyGivenNames x; with_reducible apply Moves.cut (x := x); pick_goal 2; dsimp only [x]; clear x; pick_goal 2; clear_value x; intro hx)
    | (extract_lets -useContext -merge -underBinder +onlyGivenNames x; skip)
    | (with_reducible apply Moves.step; (with_reducible apply Moves.upd_lowp); decide)

theorem State.frameSignal_moves {s : State} {j : Job} :
    Moves [.crews, .ctrs, .tasks] s (State.frameSignal s j) := by
  unfold State.frameSignal
  repeat' first
    | with_reducible apply Moves.refl
    | with_reducible assumption
    | with_reducible apply Moves.ite
    | (with_reducible apply Moves.step; (with_reducible first
        | apply State.rewake_moves | apply State.addCtr_moves); decide)
    | split

theorem State.freePool_moves {s : State} {w : Nat} {bs : List Nat} :
    Moves (logged [.fresh, .regs, .mem, .poison, .dunes]) s (State.freePool s w bs) := by
  unfold State.freePool
  repeat' first
    | with_reducible apply Moves.refl
    | with_reducible assumption
    | (extract_lets -useContext -merge -underBinder +onlyGivenNames x; with_reducible apply Moves.cut (x := x); pick_goal 2; dsimp only [x]; clear x; pick_goal 2; clear_value x; intro hx)
    | (extract_lets -useContext -merge -underBinder +onlyGivenNames x; skip)
    | (with_reducible apply Moves.step; (with_reducible first
        | apply State.freeBytes_moves); decide)
    | (with_reducible apply Moves.foldl; intro _ _ _)

theorem State.badUnits_moves {s : State} {w : Nat} {j : Job} {bad : Nat} {skipped : Nat} :
    Moves (logged [.regs]) s (State.badUnits s w j bad skipped) := by
  unfold State.badUnits
  repeat' first
    | with_reducible apply Moves.refl
    | with_reducible assumption
    | (extract_lets -useContext -merge -underBinder +onlyGivenNames x; with_reducible apply Moves.cut (x := x); pick_goal 2; dsimp only [x]; clear x; pick_goal 2; clear_value x; intro hx)
    | (extract_lets -useContext -merge -underBinder +onlyGivenNames x; skip)
    | (with_reducible apply Moves.step; (with_reducible first
        | apply State.bumpBy_moves | apply State.emitUnit_moves); decide)
    | (with_reducible apply Moves.foldl; intro _ _ _)

theorem State.holds_moves {s : State} {w : Nat} {x : Session} {held : List Nat} :
    Moves (logged [.fresh, .regs, .mem, .poison, .dunes, .wakes]) s (State.holds s w x held) := by
  unfold State.holds
  repeat' first
    | with_reducible apply Moves.refl
    | with_reducible assumption
    | (extract_lets -useContext -merge -underBinder +onlyGivenNames x; with_reducible apply Moves.cut (x := x); pick_goal 2; dsimp only [x]; clear x; pick_goal 2; clear_value x; intro hx)
    | (extract_lets -useContext -merge -underBinder +onlyGivenNames x; skip)
    | (with_reducible apply Moves.step; (with_reducible first
        | apply State.setWake_moves | apply State.freePool_moves); decide)
    | (with_reducible apply Moves.foldl; intro _ _ _)

theorem State.showFrame_moves {s : State} {w : Nat} {x : Session} {j : Job} {p : Picture} :
    Moves (logged [.regs, .mem, .poison, .crews, .ctrs, .tasks, .dunes, .lowp, .wakes]) s (State.showFrame s w x j p) := by
  unfold State.showFrame
  repeat' first
    | with_reducible apply Moves.refl
    | with_reducible assumption
    | (extract_lets -useContext -merge -underBinder +onlyGivenNames x; with_reducible apply Moves.cut (x := x); pick_goal 2; dsimp only [x]; clear x; pick_goal 2; clear_value x; intro hx)
    | (extract_lets -useContext -merge -underBinder +onlyGivenNames x; skip)
    | (with_reducible apply Moves.step; (with_reducible first
        | apply State.write_moves | apply State.bump_moves | apply State.stick_moves | apply State.setWake_moves
        | apply State.countWake_moves | apply State.frameSignal_moves); decide)

theorem State.decodeDone_moves {s : State} {w : Nat} {x : Session} {j : Job} {p : Picture} {held : List Nat} {bad : Nat} {skipped : Nat} :
    Moves (logged [.fresh, .regs, .mem, .poison, .crews, .ctrs, .tasks, .dunes, .lowp, .wakes]) s (State.decodeDone s w x j p held bad skipped) := by
  unfold State.decodeDone
  repeat' first
    | with_reducible apply Moves.refl
    | with_reducible assumption
    | (extract_lets -useContext -merge -underBinder +onlyGivenNames x; with_reducible apply Moves.cut (x := x); pick_goal 2; dsimp only [x]; clear x; pick_goal 2; clear_value x; intro hx)
    | (extract_lets -useContext -merge -underBinder +onlyGivenNames x; skip)
    | with_reducible apply Moves.ite
    | (with_reducible apply Moves.step; (with_reducible first
        | apply State.setWake_moves | apply State.jobEnds_moves | apply State.badUnits_moves
        | apply State.holds_moves | apply State.showFrame_moves); decide)
    | split
    | (clear_value *; split)

theorem State.encodeDone_moves {s : State} {w : Nat} {x : Session} {j : Job} {coded : List Byte} :
    Moves (logged [.fresh, .regs, .mem, .poison, .crews, .ctrs, .tasks, .dunes, .wakes]) s (State.encodeDone s w x j coded) := by
  unfold State.encodeDone
  repeat' first
    | with_reducible apply Moves.refl
    | with_reducible assumption
    | (extract_lets -useContext -merge -underBinder +onlyGivenNames x; with_reducible apply Moves.cut (x := x); pick_goal 2; dsimp only [x]; clear x; pick_goal 2; clear_value x; intro hx)
    | (extract_lets -useContext -merge -underBinder +onlyGivenNames x; skip)
    | with_reducible apply Moves.ite
    | (with_reducible apply Moves.step; (with_reducible first
        | apply State.write_moves | apply State.bumpBy_moves | apply State.bump_moves | apply State.stick_moves
        | apply State.setWake_moves | apply State.jobEnds_moves | apply State.frameSignal_moves
        | apply State.freePool_moves); decide)
    | (with_reducible apply Moves.of_pair; assumption)
    | (with_reducible apply Moves.of_reply; assumption)
    | split
    | (clear_value *; split)
    | (with_reducible apply Moves.step; (with_reducible apply Moves.upd_fresh); decide)

theorem execWakeFrameDone_ends {w : Nat} {r : Nat} {depth : Nat} {width : Nat} {height : Nat} {luma : List Nat} {cb : List Nat} {cr : List Nat} {coded : List Byte} {held : List Nat} {bad : Nat} {skipped : Nat} {host : List Cell} {s : State} :
    Ends (logged [.fresh, .regs, .mem, .poison, .crews, .ctrs, .tasks, .dunes, .lowp, .wakes]) s (execWakeFrameDone w r depth width height luma cb cr coded held bad skipped host s) := by
  unfold execWakeFrameDone
  repeat' first
    | with_reducible apply Moves.refl
    | with_reducible assumption
    | with_reducible apply Ends.next
    | (extract_lets -useContext -merge -underBinder +onlyGivenNames x; with_reducible apply Moves.cut (x := x); pick_goal 2; dsimp only [x]; clear x; pick_goal 2; clear_value x; intro hx)
    | (extract_lets -useContext -merge -underBinder +onlyGivenNames x; with_reducible apply Ends.cut (x := x); pick_goal 2; dsimp only [x]; clear x; pick_goal 2; clear_value x; intro hx)
    | (extract_lets -useContext -merge -underBinder +onlyGivenNames x; skip)
    | with_reducible apply Moves.ite
    | with_reducible apply Ends.ite
    | (with_reducible apply Moves.step; (with_reducible first
        | apply State.seeHost_moves | apply State.decodeDone_moves | apply State.encodeDone_moves); decide)
    | split
    | (clear_value *; split)
    | (with_reducible apply Moves.step; (with_reducible apply Moves.upd_fresh); decide)

theorem State.endJob_moves {s : State} {w : Nat} {r : Nat} {j : Job} {st : Status} {bytes : Nat} {bad : Nat} {skipped : Nat} :
    Moves (logged [.regs, .mem, .poison, .crews, .ctrs, .tasks, .dunes, .wakes]) s (State.endJob s w r j st bytes bad skipped) := by
  unfold State.endJob
  repeat' first
    | with_reducible apply Moves.refl
    | with_reducible assumption
    | (extract_lets -useContext -merge -underBinder +onlyGivenNames x; with_reducible apply Moves.cut (x := x); pick_goal 2; dsimp only [x]; clear x; pick_goal 2; clear_value x; intro hx)
    | (extract_lets -useContext -merge -underBinder +onlyGivenNames x; skip)
    | with_reducible apply Moves.ite
    | (with_reducible apply Moves.step; (with_reducible first
        | apply State.rewake_moves | apply State.addCtr_moves | apply State.write_moves | apply State.setWake_moves
        | apply State.raise_moves | apply State.emitUnit_moves); decide)
    | split
    | (clear_value *; split)

theorem State.cutFrame_moves {s : State} {w : Nat} {r : Nat} :
    Moves (logged [.fresh, .regs, .mem, .poison, .dunes]) s (State.cutFrame s w r) := by
  unfold State.cutFrame
  repeat' first
    | with_reducible apply Moves.refl
    | with_reducible assumption
    | (extract_lets -useContext -merge -underBinder +onlyGivenNames x; with_reducible apply Moves.cut (x := x); pick_goal 2; dsimp only [x]; clear x; pick_goal 2; clear_value x; intro hx)
    | (extract_lets -useContext -merge -underBinder +onlyGivenNames x; skip)
    | with_reducible apply Moves.ite
    | (with_reducible apply Moves.step; (with_reducible first
        | apply State.freeBytes_moves); decide)
    | (with_reducible apply Moves.foldl; intro _ _ _)
    | split
    | (clear_value *; split)
    | (with_reducible apply Moves.step; (with_reducible apply Moves.upd_fresh); decide)

theorem State.abortJob_moves {s : State} {w : Nat} {r : Nat} :
    Moves (logged [.fresh, .regs, .mem, .poison, .crews, .ctrs, .tasks, .dunes, .wakes]) s (State.abortJob s w r) := by
  unfold State.abortJob
  repeat' first
    | with_reducible apply Moves.refl
    | with_reducible assumption
    | (extract_lets -useContext -merge -underBinder +onlyGivenNames x; with_reducible apply Moves.cut (x := x); pick_goal 2; dsimp only [x]; clear x; pick_goal 2; clear_value x; intro hx)
    | (extract_lets -useContext -merge -underBinder +onlyGivenNames x; skip)
    | (with_reducible apply Moves.step; (with_reducible first
        | apply State.endJob_moves | apply State.cutFrame_moves); decide)
    | split
    | (clear_value *; split)
    | (with_reducible apply Moves.step; (with_reducible apply Moves.upd_fresh); decide)

theorem execWakeJobEnd_ends {w : Nat} {r : Nat} {bad : Nat} {skipped : Nat} {consumed : Nat} {res : Ending} {s : State} :
    Ends (logged [.fresh, .regs, .mem, .poison, .crews, .ctrs, .tasks, .dunes, .wakes]) s (execWakeJobEnd w r bad skipped consumed res s) := by
  unfold execWakeJobEnd
  repeat' first
    | with_reducible apply Moves.refl
    | with_reducible assumption
    | with_reducible apply Ends.next
    | (extract_lets -useContext -merge -underBinder +onlyGivenNames x; with_reducible apply Moves.cut (x := x); pick_goal 2; dsimp only [x]; clear x; pick_goal 2; clear_value x; intro hx)
    | (extract_lets -useContext -merge -underBinder +onlyGivenNames x; with_reducible apply Ends.cut (x := x); pick_goal 2; dsimp only [x]; clear x; pick_goal 2; clear_value x; intro hx)
    | (extract_lets -useContext -merge -underBinder +onlyGivenNames x; skip)
    | with_reducible apply Moves.ite
    | with_reducible apply Ends.ite
    | (with_reducible apply Moves.step; (with_reducible first
        | apply State.hostErr_moves | apply State.badUnits_moves | apply State.endJob_moves
        | apply State.cutFrame_moves); decide)
    | split
    | (clear_value *; split)

theorem State.wakeFault_moves {s : State} {w : Nat} :
    Moves (logged [.fresh, .regs, .mem, .poison, .crews, .ctrs, .tasks, .dunes, .wakes]) s (State.wakeFault s w) := by
  unfold State.wakeFault
  repeat' first
    | with_reducible apply Moves.refl
    | with_reducible assumption
    | (extract_lets -useContext -merge -underBinder +onlyGivenNames x; with_reducible apply Moves.cut (x := x); pick_goal 2; dsimp only [x]; clear x; pick_goal 2; clear_value x; intro hx)
    | (extract_lets -useContext -merge -underBinder +onlyGivenNames x; skip)
    | (with_reducible apply Moves.step; (with_reducible first
        | apply State.setWake_moves | apply State.abortJob_moves); decide)

theorem execWakeFrameWatchdog_ends {w : Nat} {r : Nat} {s : State} :
    Ends (logged [.fresh, .regs, .mem, .poison, .crews, .ctrs, .tasks, .dunes, .wakes]) s (execWakeFrameWatchdog w r s) := by
  unfold execWakeFrameWatchdog
  repeat' first
    | with_reducible apply Moves.refl
    | with_reducible assumption
    | with_reducible apply Ends.next
    | (extract_lets -useContext -merge -underBinder +onlyGivenNames x; with_reducible apply Moves.cut (x := x); pick_goal 2; dsimp only [x]; clear x; pick_goal 2; clear_value x; intro hx)
    | (extract_lets -useContext -merge -underBinder +onlyGivenNames x; with_reducible apply Ends.cut (x := x); pick_goal 2; dsimp only [x]; clear x; pick_goal 2; clear_value x; intro hx)
    | (extract_lets -useContext -merge -underBinder +onlyGivenNames x; skip)
    | with_reducible apply Moves.ite
    | with_reducible apply Ends.ite
    | (with_reducible apply Moves.step; (with_reducible first
        | apply State.wakeFault_moves); decide)
    | split
    | (clear_value *; split)

theorem execWakeParityFail_ends {w : Nat} {s : State} :
    Ends (logged [.fresh, .regs, .mem, .poison, .crews, .ctrs, .tasks, .dunes, .wakes]) s (execWakeParityFail w s) := by
  unfold execWakeParityFail
  repeat' first
    | with_reducible apply Moves.refl
    | with_reducible assumption
    | with_reducible apply Ends.next
    | (extract_lets -useContext -merge -underBinder +onlyGivenNames x; with_reducible apply Moves.cut (x := x); pick_goal 2; dsimp only [x]; clear x; pick_goal 2; clear_value x; intro hx)
    | (extract_lets -useContext -merge -underBinder +onlyGivenNames x; with_reducible apply Ends.cut (x := x); pick_goal 2; dsimp only [x]; clear x; pick_goal 2; clear_value x; intro hx)
    | (extract_lets -useContext -merge -underBinder +onlyGivenNames x; skip)
    | with_reducible apply Moves.ite
    | with_reducible apply Ends.ite
    | (with_reducible apply Moves.step; (with_reducible first
        | apply State.wakeFault_moves); decide)
    | split
    | (clear_value *; split)

theorem State.retireWake_moves {s : State} {w : Nat} {cause : Nat} :
    Moves (logged [.regs, .wakes]) s (State.retireWake s w cause) := by
  unfold State.retireWake
  repeat' first
    | with_reducible apply Moves.refl
    | with_reducible assumption
    | (extract_lets -useContext -merge -underBinder +onlyGivenNames x; with_reducible apply Moves.cut (x := x); pick_goal 2; dsimp only [x]; clear x; pick_goal 2; clear_value x; intro hx)
    | (extract_lets -useContext -merge -underBinder +onlyGivenNames x; skip)
    | with_reducible apply Moves.ite
    | (with_reducible apply Moves.step; (with_reducible first
        | apply State.bump_moves | apply State.setWake_moves | apply State.emitUnit_moves | apply State.jobEnds_moves); decide)
    | split
    | (clear_value *; split)

theorem execWakeSelfTestDone_ends {w : Nat} {pass : Bool} {s : State} :
    Ends (logged [.regs, .wakes]) s (execWakeSelfTestDone w pass s) := by
  unfold execWakeSelfTestDone
  repeat' first
    | with_reducible apply Moves.refl
    | with_reducible assumption
    | with_reducible apply Ends.next
    | (extract_lets -useContext -merge -underBinder +onlyGivenNames x; with_reducible apply Moves.cut (x := x); pick_goal 2; dsimp only [x]; clear x; pick_goal 2; clear_value x; intro hx)
    | (extract_lets -useContext -merge -underBinder +onlyGivenNames x; with_reducible apply Ends.cut (x := x); pick_goal 2; dsimp only [x]; clear x; pick_goal 2; clear_value x; intro hx)
    | (extract_lets -useContext -merge -underBinder +onlyGivenNames x; skip)
    | with_reducible apply Moves.ite
    | with_reducible apply Ends.ite
    | (with_reducible apply Moves.step; (with_reducible first
        | apply State.setWake_moves | apply State.retireWake_moves); decide)
    | split
    | (clear_value *; split)

end Sys2Proof.Machine
end

