-- ==== Sys2Proof/Laws/FrameStart.lean ====
section
/-! SUPPORT. What the functions of Machine/Start.lean may change. -/

set_option linter.unusedTactic false
set_option linter.unreachableTactic false
set_option linter.tactic.unusedName false

namespace Sys2Proof.Machine

open Sys2Proof.Laws Sys2Proof.Safety

theorem State.closeWindows_moves {s : State} {x1 : Nat} :
    Moves (logged []) s (State.closeWindows s x1) := by
  induction x1 generalizing s with
  | zero => exact Moves.refl _ _
  | succ n ih =>
    unfold State.closeWindows
    repeat' first
      | with_reducible apply Moves.refl
      | with_reducible assumption
      | with_reducible apply Moves.ite
      | (with_reducible apply Moves.step; (with_reducible first
        | apply State.closeWindow_moves | apply ih); decide)
      | split

theorem keptStacks_wf (d : Tab Stack) : Tab.wf Stack.init (keptStacks d) = true := by
  rw [Tab.wf_iff]
  unfold keptStacks
  have k : ∀ (l : Tab Stack) (a : Tab Stack), Tab.okBy (fun _ => Stack.init) a →
      Tab.okBy (fun _ => Stack.init) (l.foldl (fun a e => Tab.put Stack.init a e.1 { Stack.init with burnt := e.2.burnt }) a) := by
    intro l
    induction l with
    | nil => exact fun _ h => h
    | cons e r ih => exact fun a h => ih _ (Tab.okBy_put (fun _ => Stack.init) _ _ _ h)
  exact k d [] (Tab.okBy_nil _)

theorem absentErgs_wf (v : Variant) : Tab.wf Erg.init (absentErgs v) = true := by cases v <;> decide

theorem absentWakes_wf (v : Variant) : Tab.wf Wake.init (absentWakes v) = true := by cases v <;> decide

theorem State.beginStart_moves {s : State} {kind : StartKind} {cause : Nat} {good : Bool} :
    Moves (allBut [.queue, .fresh, .ident, .life, .mem, .poison]) s (s.beginStart kind cause good) := by
  unfold State.beginStart
  extract_lets +onlyGivenNames -merge -underBinder fb warm crash s1
  have h1 : Moves (allBut [.queue, .fresh, .ident, .life, .mem, .poison]) s s1 := by
    dsimp only [s1]
    split
    · exact Moves.step State.emit_moves (by decide) (Moves.step State.closeWindows_moves (by decide) (Moves.refl _ _))
    · exact Moves.refl _ _
  clear_value s1
  refine h1.trans ⟨fun p hp => ?_, fun c => ?_, ?_⟩
  · cases p <;> first | rfl | exact ⟨rfl, rfl⟩ | exact absurd (by decide) hp
  · exact ⟨c.mem, Tab.okBy_nil resetAt, rfl, ⟨.nil, by simp [State.reset]⟩, rfl, rfl, absentErgs_wf _, rfl, rfl, rfl, keptStacks_wf _,
      absentWakes_wf _, rfl⟩
  · exact ⟨rfl, rfl, le_rfl, le_rfl, le_rfl, fun _ h => h, fun _ h => h, le_rfl⟩

theorem State.powerDown_moves {s : State} {p : Power} : Moves (allBut [.queue, .fresh, .ident, .life, .reserved, .nv]) s (s.powerDown p) := by
  unfold State.powerDown
  refine ⟨fun p hp => ?_, fun c => ?_, ?_⟩
  · cases p <;> first | rfl | exact ⟨rfl, rfl⟩ | exact absurd (by decide) hp
  · exact ⟨⟨(Tab.wf_iff _ _).2 (Tab.okBy_filter _ _ _ ((Tab.wf_iff _ _).1 c.mem.1)), List.Pairwise.nil⟩, Tab.okBy_nil resetAt, rfl,
      ⟨.nil, by simp [State.reset]⟩, rfl, rfl, absentErgs_wf _, rfl, rfl, rfl, keptStacks_wf _, absentWakes_wf _, rfl⟩
  · exact ⟨rfl, rfl, le_rfl, le_rfl, le_rfl, fun _ h => h, fun _ h => h, le_rfl⟩

theorem State.powerUp_moves {s : State} :
    Moves (allBut [.queue, .fresh, .ident, .life, .mem, .poison]) s (State.powerUp s) := by
  unfold State.powerUp
  repeat' first
    | with_reducible apply Moves.refl
    | with_reducible assumption
    | (extract_lets -useContext -merge -underBinder +onlyGivenNames x; with_reducible apply Moves.cut (x := x); pick_goal 2; dsimp only [x]; clear x; pick_goal 2; clear_value x; intro hx)
    | (extract_lets -useContext -merge -underBinder +onlyGivenNames x; skip)
    | (with_reducible apply Moves.step; (with_reducible first
        | apply State.beginStart_moves); decide)
    | (with_reducible apply Moves.step; (with_reducible apply Moves.upd_tx); decide)

theorem execPowerApplied_ends {s : State} :
    Ends (allBut [.queue, .fresh, .ident, .life, .mem, .poison]) s (execPowerApplied s) := by
  unfold execPowerApplied
  repeat' first
    | with_reducible apply Moves.refl
    | with_reducible assumption
    | with_reducible apply Ends.next
    | with_reducible apply Moves.ite
    | with_reducible apply Ends.ite
    | (with_reducible apply Moves.step; (with_reducible first
        | apply State.powerUp_moves); decide)
    | split

theorem execInputSwitchOff_ends {s : State} :
    Ends (allBut [.queue, .fresh, .ident, .life, .reserved, .nv]) s (execInputSwitchOff s) := by
  unfold execInputSwitchOff
  repeat' first
    | with_reducible apply Moves.refl
    | with_reducible assumption
    | with_reducible apply Ends.next
    | with_reducible apply Moves.ite
    | with_reducible apply Ends.ite
    | (with_reducible apply Moves.step; (with_reducible first
        | apply State.powerDown_moves); decide)
    | split

theorem execPowerRestore_ends {s : State} :
    Ends (allBut [.queue, .fresh, .ident, .life, .mem, .poison]) s (execPowerRestore s) := by
  unfold execPowerRestore
  repeat' first
    | with_reducible apply Moves.refl
    | with_reducible assumption
    | with_reducible apply Ends.next
    | with_reducible apply Moves.ite
    | with_reducible apply Ends.ite
    | (with_reducible apply Moves.step; (with_reducible first
        | apply State.powerUp_moves); decide)
    | split

theorem execResetN_ends {lowNs : Nat} {good : Bool} {s : State} :
    Ends (allBut [.queue, .fresh, .ident, .life, .mem, .poison]) s (execResetN lowNs good s) := by
  unfold execResetN
  repeat' first
    | with_reducible apply Moves.refl
    | with_reducible assumption
    | with_reducible apply Ends.next
    | with_reducible apply Moves.ite
    | with_reducible apply Ends.ite
    | (with_reducible apply Moves.step; (with_reducible first
        | apply State.beginStart_moves); decide)
    | split

theorem execStartDelayExpiry_ends {good : Bool} {s : State} :
    Ends (allBut [.queue, .fresh, .ident, .life, .mem, .poison]) s (execStartDelayExpiry good s) := by
  unfold execStartDelayExpiry
  repeat' first
    | with_reducible apply Moves.refl
    | with_reducible assumption
    | with_reducible apply Ends.next
    | with_reducible apply Moves.ite
    | with_reducible apply Ends.ite
    | (with_reducible apply Moves.step; (with_reducible first
        | apply State.beginStart_moves); decide)
    | split

theorem execStartRetry_ends {s : State} :
    Ends (allBut [.queue, .fresh, .ident, .life, .mem, .poison]) s (execStartRetry s) := by
  unfold execStartRetry
  repeat' first
    | with_reducible apply Moves.refl
    | with_reducible assumption
    | with_reducible apply Ends.next
    | with_reducible apply Moves.ite
    | with_reducible apply Ends.ite
    | (with_reducible apply Moves.step; (with_reducible first
        | apply State.beginStart_moves); decide)
    | split

theorem State.enterRecovery_moves {s : State} :
    Moves (logged [.dev, .start, .mbs]) s (State.enterRecovery s) := by
  unfold State.enterRecovery
  repeat' first
    | with_reducible apply Moves.refl
    | with_reducible assumption
    | (extract_lets -useContext -merge -underBinder +onlyGivenNames x; with_reducible apply Moves.cut (x := x); pick_goal 2; dsimp only [x]; clear x; pick_goal 2; clear_value x; intro hx)
    | (extract_lets -useContext -merge -underBinder +onlyGivenNames x; skip)
    | with_reducible apply Moves.ite
    | (with_reducible apply Moves.step; (with_reducible first
        | apply State.serve_moves | apply State.setDev_moves); decide)
    | split
    | (clear_value *; split)
    | (with_reducible apply Moves.step; (with_reducible exact Moves.upd_start rfl); decide)

theorem State.failStart_moves {s : State} {cause : Nat} :
    Moves (logged [.dev, .start, .nv, .mbs]) s (State.failStart s cause) := by
  unfold State.failStart
  repeat' first
    | with_reducible apply Moves.refl
    | with_reducible assumption
    | (extract_lets -useContext -merge -underBinder +onlyGivenNames x; with_reducible apply Moves.cut (x := x); pick_goal 2; dsimp only [x]; clear x; pick_goal 2; clear_value x; intro hx)
    | (extract_lets -useContext -merge -underBinder +onlyGivenNames x; skip)
    | with_reducible apply Moves.ite
    | (with_reducible apply Moves.step; (with_reducible first
        | apply State.emitFw_moves | apply State.delayStart_moves | apply State.enterRecovery_moves); decide)
    | split
    | (clear_value *; split)
    | (with_reducible apply Moves.step; (with_reducible exact Moves.upd_nv_start rfl rfl rfl rfl rfl le_rfl le_rfl (fun _ h => h) (fun _ h => h) rfl); decide)
    | (with_reducible apply Moves.step; (with_reducible exact Moves.upd_nv rfl rfl rfl rfl rfl le_rfl le_rfl (fun _ h => h) (fun _ h => h)); decide)
    | (with_reducible apply Moves.step; (with_reducible exact Moves.upd_start rfl); decide)

theorem State.enterFaulted_moves {s : State} {cause : Nat} :
    Moves (logged [.dev, .fault, .start, .nv, .mbs, .stateMb, .mbQueue]) s (State.enterFaulted s cause) := by
  unfold State.enterFaulted
  repeat' first
    | with_reducible apply Moves.refl
    | with_reducible assumption
    | (extract_lets -useContext -merge -underBinder +onlyGivenNames x; with_reducible apply Moves.cut (x := x); pick_goal 2; dsimp only [x]; clear x; pick_goal 2; clear_value x; intro hx)
    | (extract_lets -useContext -merge -underBinder +onlyGivenNames x; skip)
    | with_reducible apply Moves.ite
    | (with_reducible apply Moves.step; (with_reducible first
        | apply State.failBoxes_moves | apply State.emit_moves | apply State.setDev_moves
        | apply State.failStart_moves); decide)
    | split
    | (clear_value *; split)
    | (with_reducible apply Moves.step; (with_reducible exact Moves.upd_fault_start rfl); decide)
    | (with_reducible apply Moves.step; (with_reducible exact Moves.upd_start rfl); decide)
    | (with_reducible apply Moves.step; (with_reducible apply Moves.upd_fault); decide)

theorem execLockstepMismatch_ends {s : State} :
    Ends (logged [.dev, .fault, .start, .nv, .mbs, .stateMb, .mbQueue]) s (execLockstepMismatch s) := by
  unfold execLockstepMismatch
  repeat' first
    | with_reducible apply Moves.refl
    | with_reducible assumption
    | with_reducible apply Ends.next
    | with_reducible apply Moves.ite
    | with_reducible apply Ends.ite
    | (with_reducible apply Moves.step; (with_reducible first
        | apply State.enterFaulted_moves); decide)
    | split

theorem execCoxWatchdogExpiry_ends {s : State} :
    Ends (logged [.dev, .fault, .start, .nv, .mbs, .stateMb, .mbQueue]) s (execCoxWatchdogExpiry s) := by
  unfold execCoxWatchdogExpiry
  repeat' first
    | with_reducible apply Moves.refl
    | with_reducible assumption
    | with_reducible apply Ends.next
    | with_reducible apply Moves.ite
    | with_reducible apply Ends.ite
    | (with_reducible apply Moves.step; (with_reducible first
        | apply State.enterFaulted_moves); decide)
    | split

theorem execEntropyHealthFail_ends {s : State} :
    Ends (logged [.dev, .fault, .start, .nv, .sec, .regs, .mbs, .stateMb, .mbQueue]) s (execEntropyHealthFail s) := by
  unfold execEntropyHealthFail
  repeat' first
    | with_reducible apply Moves.refl
    | with_reducible assumption
    | with_reducible apply Ends.next
    | (extract_lets -useContext -merge -underBinder +onlyGivenNames x; with_reducible apply Moves.cut (x := x); pick_goal 2; dsimp only [x]; clear x; pick_goal 2; clear_value x; intro hx)
    | (extract_lets -useContext -merge -underBinder +onlyGivenNames x; with_reducible apply Ends.cut (x := x); pick_goal 2; dsimp only [x]; clear x; pick_goal 2; clear_value x; intro hx)
    | (extract_lets -useContext -merge -underBinder +onlyGivenNames x; skip)
    | with_reducible apply Moves.ite
    | with_reducible apply Ends.ite
    | (with_reducible apply Moves.step; (with_reducible first
        | apply State.secFail_moves | apply State.failStart_moves | apply State.enterFaulted_moves); decide)
    | split
    | (clear_value *; split)
    | (with_reducible apply Moves.step; (with_reducible apply Moves.upd_sec); decide)

theorem State.endStep_moves {s : State} :
    Moves (logged [.start]) s (State.endStep s) := by
  unfold State.endStep
  repeat' first
    | with_reducible apply Moves.refl
    | with_reducible assumption
    | (extract_lets -useContext -merge -underBinder +onlyGivenNames x; with_reducible apply Moves.cut (x := x); pick_goal 2; dsimp only [x]; clear x; pick_goal 2; clear_value x; intro hx)
    | (extract_lets -useContext -merge -underBinder +onlyGivenNames x; skip)
    | (with_reducible apply Moves.step; (with_reducible first
        | apply State.emitFw_moves); decide)
    | (with_reducible apply Moves.step; (with_reducible exact Moves.upd_start rfl); decide)

theorem State.stepFuse_moves {s : State} {r : StepReport} :
    Moves (logged [.dev, .start, .nv, .regs, .mbs]) s (State.stepFuse s r) := by
  unfold State.stepFuse
  repeat' first
    | with_reducible apply Moves.refl
    | with_reducible assumption
    | (extract_lets -useContext -merge -underBinder +onlyGivenNames x; with_reducible apply Moves.cut (x := x); pick_goal 2; dsimp only [x]; clear x; pick_goal 2; clear_value x; intro hx)
    | (extract_lets -useContext -merge -underBinder +onlyGivenNames x; skip)
    | with_reducible apply Moves.ite
    | (with_reducible apply Moves.step; (with_reducible first
        | apply State.setFld_moves | apply State.openBoot_moves | apply State.failStart_moves
        | apply State.endStep_moves); decide)
    | split
    | (clear_value *; split)

theorem State.stepRom_moves {s : State} {r : StepReport} :
    Moves (logged [.dev, .start, .nv, .regs, .mbs]) s (State.stepRom s r) := by
  unfold State.stepRom
  repeat' first
    | with_reducible apply Moves.refl
    | with_reducible assumption
    | (extract_lets -useContext -merge -underBinder +onlyGivenNames x; with_reducible apply Moves.cut (x := x); pick_goal 2; dsimp only [x]; clear x; pick_goal 2; clear_value x; intro hx)
    | (extract_lets -useContext -merge -underBinder +onlyGivenNames x; skip)
    | with_reducible apply Moves.ite
    | (with_reducible apply Moves.step; (with_reducible first
        | apply State.serve_moves | apply State.secFail_moves | apply State.enterRecovery_moves
        | apply State.failStart_moves | apply State.endStep_moves); decide)
    | split
    | (clear_value *; split)

theorem State.makeFlashKey_moves {s : State} :
    Moves [.nv, .sec, .mem, .poison] s (State.makeFlashKey s) := by
  unfold State.makeFlashKey
  repeat' first
    | with_reducible apply Moves.refl
    | with_reducible assumption
    | with_reducible apply Moves.ite
    | (with_reducible apply Moves.step; (with_reducible first
        | apply State.dropRange_moves); decide)
    | split
    | (with_reducible apply Moves.step; (with_reducible exact Moves.upd_nv_sec rfl rfl rfl rfl rfl le_rfl le_rfl (fun _ h => h) (fun _ h => h)); decide)
    | (with_reducible apply Moves.step; (with_reducible apply Moves.upd_sec); decide)
    | (with_reducible apply Moves.step; (with_reducible exact Moves.upd_nv rfl rfl rfl rfl rfl le_rfl le_rfl (fun _ h => h) (fun _ h => h)); decide)

theorem State.stepVerify_moves {s : State} :
    Moves (logged [.dev, .start, .nv, .sec, .regs, .mem, .poison, .mbs]) s (State.stepVerify s) := by
  unfold State.stepVerify
  repeat' first
    | with_reducible apply Moves.refl
    | with_reducible assumption
    | (extract_lets -useContext -merge -underBinder +onlyGivenNames x; with_reducible apply Moves.cut (x := x); pick_goal 2; dsimp only [x]; clear x; pick_goal 2; clear_value x; intro hx)
    | (extract_lets -useContext -merge -underBinder +onlyGivenNames x; skip)
    | with_reducible apply Moves.ite
    | (with_reducible apply Moves.step; (with_reducible first
        | apply State.secFail_moves | apply State.failStart_moves | apply State.endStep_moves
        | apply State.makeFlashKey_moves); decide)
    | split
    | (clear_value *; split)
    | (with_reducible apply Moves.step; (with_reducible exact Moves.upd_nv_sec_start rfl rfl rfl rfl rfl le_rfl le_rfl (fun _ h => h) (fun _ h => h) rfl); decide)
    | (with_reducible apply Moves.step; (with_reducible exact Moves.upd_nv_start rfl rfl rfl rfl rfl le_rfl le_rfl (fun _ h => h) (fun _ h => h) rfl); decide)
    | (with_reducible apply Moves.step; (with_reducible exact Moves.upd_nv_sec rfl rfl rfl rfl rfl le_rfl le_rfl (fun _ h => h) (fun _ h => h)); decide)
    | (with_reducible apply Moves.step; (with_reducible apply Moves.upd_sec); decide)
    | (with_reducible apply Moves.step; (with_reducible exact Moves.upd_nv rfl rfl rfl rfl rfl le_rfl le_rfl (fun _ h => h) (fun _ h => h)); decide)
    | (with_reducible apply Moves.step; (with_reducible exact Moves.upd_start rfl); decide)

theorem State.stepPhy_moves {s : State} {r : StepReport} :
    Moves (logged [.start, .mbs, .dunes, .host]) s (State.stepPhy s r) := by
  unfold State.stepPhy
  repeat' first
    | with_reducible apply Moves.refl
    | with_reducible assumption
    | (extract_lets -useContext -merge -underBinder +onlyGivenNames x; with_reducible apply Moves.cut (x := x); pick_goal 2; dsimp only [x]; clear x; pick_goal 2; clear_value x; intro hx)
    | (extract_lets -useContext -merge -underBinder +onlyGivenNames x; skip)
    | with_reducible apply Moves.ite
    | (with_reducible apply Moves.step; (with_reducible first
        | apply State.serve_moves | apply State.setDune_moves | apply State.endStep_moves); decide)
    | (with_reducible apply Moves.foldl; intro _ _ _)
    | split
    | (clear_value *; split)
    | (with_reducible apply Moves.step; (with_reducible exact Moves.upd_host rfl); decide)

theorem State.noteTest_moves {s : State} {k : Nat} {bad : Bool} : Moves (logged [.fresh, .nv, .regs]) s (s.noteTest k bad) := by
  unfold State.noteTest
  extract_lets -merge -underBinder +onlyGivenNames n src
  split
  · exact Moves.step (Moves.upd_nv rfl rfl rfl rfl rfl le_rfl le_rfl (fun _ h => h) (fun _ h => h)) (by decide) (Moves.refl _ _)
  · refine Moves.step State.burnFuse_moves (by decide) ?_
    refine Moves.step (Moves.upd_nv rfl rfl rfl rfl rfl le_rfl le_rfl (fun _ h => h) ?_) (by decide) (Moves.refl _ _)
    exact fun _ h => (insertSorted_mem _ _ _).2 (.inr h)

theorem State.stepTest_moves {s : State} {r : StepReport} :
    Moves (logged [.fresh, .dev, .start, .nv, .regs, .mem, .poison, .sculls, .crews, .ergs, .ctrs, .tasks, .rings, .mbs, .dunes, .tier, .kv, .lowp, .wakes, .sched]) s (State.stepTest s r) := by
  unfold State.stepTest
  repeat' first
    | with_reducible apply Moves.refl
    | with_reducible assumption
    | (extract_lets -useContext -merge -underBinder +onlyGivenNames x; with_reducible apply Moves.cut (x := x); pick_goal 2; dsimp only [x]; clear x; pick_goal 2; clear_value x; intro hx)
    | (extract_lets -useContext -merge -underBinder +onlyGivenNames x; skip)
    | with_reducible apply Moves.ite
    | (with_reducible apply Moves.step; (with_reducible first
        | apply State.retireOne_moves | apply State.retireCrew_moves | apply State.retireBow_moves
        | apply State.setScull_moves | apply State.failStart_moves | apply State.endStep_moves
        | apply State.noteTest_moves | apply State.retireWake_moves); decide)
    | (with_reducible apply Moves.foldl; intro _ _ _)
    | split
    | (clear_value *; split)

theorem State.repairStack_moves {s : State} {r : StepReport} {n : Nat} : Moves [.nv, .dunes] s (s.repairStack r n) := by
  unfold State.repairStack
  extract_lets -merge -underBinder +onlyGivenNames k mine soft hard old pend gone fits nv1 src nv
  refine Moves.step State.setDune_moves (by decide) (Moves.step (Moves.upd_nv ?_ ?_ ?_ ?_ ?_ ?_ ?_ ?_ ?_) (by decide) (Moves.refl _ _)) <;>
    (simp only [nv]; split) <;> first | rfl | exact fun _ h => h | exact le_rfl

theorem State.stepRemap_moves {s : State} {r : StepReport} :
    Moves (logged [.dev, .start, .nv, .mbs, .dunes]) s (State.stepRemap s r) := by
  unfold State.stepRemap
  repeat' first
    | with_reducible apply Moves.refl
    | with_reducible assumption
    | (extract_lets -useContext -merge -underBinder +onlyGivenNames x; with_reducible apply Moves.cut (x := x); pick_goal 2; dsimp only [x]; clear x; pick_goal 2; clear_value x; intro hx)
    | (extract_lets -useContext -merge -underBinder +onlyGivenNames x; skip)
    | with_reducible apply Moves.ite
    | (with_reducible apply Moves.step; (with_reducible first
        | apply State.failStart_moves | apply State.endStep_moves | apply State.repairStack_moves); decide)
    | (with_reducible apply Moves.foldl; intro _ _ _)
    | split
    | (clear_value *; split)

theorem State.stepCal_moves {s : State} {r : StepReport} :
    Moves (logged [.start, .nv, .regs]) s (State.stepCal s r) := by
  unfold State.stepCal
  repeat' first
    | with_reducible apply Moves.refl
    | with_reducible assumption
    | (extract_lets -useContext -merge -underBinder +onlyGivenNames x; with_reducible apply Moves.cut (x := x); pick_goal 2; dsimp only [x]; clear x; pick_goal 2; clear_value x; intro hx)
    | (extract_lets -useContext -merge -underBinder +onlyGivenNames x; skip)
    | with_reducible apply Moves.ite
    | (with_reducible apply Moves.step; (with_reducible first
        | apply State.setFld_moves | apply State.endStep_moves); decide)
    | (with_reducible apply Moves.foldl; intro _ _ _)
    | split
    | (clear_value *; split)
    | (with_reducible apply Moves.step; (with_reducible exact Moves.upd_nv rfl rfl rfl rfl rfl le_rfl le_rfl (fun _ h => h) (fun _ h => h)); decide)

theorem State.stepWipe_moves {s : State} : Moves (logged [.start, .mem, .poison]) s s.stepWipe := by
  unfold State.stepWipe
  exact Moves.step State.endStep_moves (by decide) (Moves.step (Moves.upd_memory fun h =>
    ⟨Tab.okBy_filter _ _ _ ((Tab.wf_iff _ _).1 h.1), h.2.filter _⟩) (by decide) (Moves.refl _ _))

theorem State.imageFlags_moves {s : State} : Moves (logged [.fresh, .nv, .regs]) s s.imageFlags := by
  unfold State.imageFlags
  extract_lets -merge -underBinder +onlyGivenNames img src s1
  have h1 : Moves (logged [.fresh, .nv, .regs]) s s1 := by
    dsimp only [s1]
    split
    · rename_i h
      exact Moves.step State.burnFuse_moves (by decide) (Moves.step (Moves.upd_nv rfl rfl rfl rfl rfl (Nat.le_of_lt h.2) le_rfl
        (fun _ h => h) (fun _ h => h)) (by decide) (Moves.refl _ _))
    · exact Moves.refl _ _
  clear_value s1
  split
  · refine Moves.foldl (fun t k ht => ?_) h1 _
    split
    · exact Moves.step State.burnFuse_moves (by decide) (Moves.step
        (Moves.upd_nv rfl rfl rfl rfl rfl le_rfl le_rfl (fun _ h => by exact (insertSorted_mem _ _ _).2 (.inr h))
        (fun _ h => h)) (by decide) ht)
    · exact ht
  · exact h1

theorem State.stepReady_moves {s : State} {r : StepReport} :
    Moves (logged [.fresh, .dev, .start, .nv, .sec, .regs]) s (State.stepReady s r) := by
  unfold State.stepReady
  repeat' first
    | with_reducible apply Moves.refl
    | with_reducible assumption
    | (extract_lets -useContext -merge -underBinder +onlyGivenNames x; with_reducible apply Moves.cut (x := x); pick_goal 2; dsimp only [x]; clear x; pick_goal 2; clear_value x; intro hx)
    | (extract_lets -useContext -merge -underBinder +onlyGivenNames x; skip)
    | with_reducible apply Moves.ite
    | (with_reducible apply Moves.step; (with_reducible first
        | apply State.certifyKey_moves | apply State.setReg_moves | apply State.setDev_moves
        | apply State.endStep_moves | apply State.imageFlags_moves); decide)
    | split
    | (clear_value *; split)
    | (with_reducible apply Moves.step; (with_reducible exact Moves.upd_nv_start rfl rfl rfl rfl rfl le_rfl le_rfl (fun _ h => h) (fun _ h => h) rfl); decide)
    | (with_reducible apply Moves.step; (with_reducible exact Moves.upd_nv rfl rfl rfl rfl rfl le_rfl le_rfl (fun _ h => h) (fun _ h => h)); decide)
    | (with_reducible apply Moves.step; (with_reducible exact Moves.upd_start rfl); decide)

theorem execStartStepComplete_ends {r : StepReport} {s : State} :
    Ends (logged [.fresh, .dev, .start, .nv, .sec, .regs, .mem, .poison, .sculls, .crews, .ergs, .ctrs, .tasks, .rings, .mbs, .dunes, .tier, .kv, .lowp, .wakes, .sched, .host]) s (execStartStepComplete r s) := by
  unfold execStartStepComplete
  repeat' first
    | with_reducible apply Moves.refl
    | with_reducible assumption
    | with_reducible apply Ends.next
    | with_reducible apply Moves.ite
    | with_reducible apply Ends.ite
    | (with_reducible apply Moves.step; (with_reducible first
        | apply State.stepFuse_moves | apply State.stepRom_moves | apply State.stepVerify_moves
        | apply State.stepPhy_moves | apply State.stepTest_moves | apply State.stepRemap_moves
        | apply State.stepCal_moves | apply State.stepWipe_moves | apply State.stepReady_moves); decide)
    | split

theorem execStartStepTimeout_ends {s : State} :
    Ends (logged [.dev, .start, .nv, .regs, .mbs]) s (execStartStepTimeout s) := by
  unfold execStartStepTimeout
  repeat' first
    | with_reducible apply Moves.refl
    | with_reducible assumption
    | with_reducible apply Ends.next
    | (extract_lets -useContext -merge -underBinder +onlyGivenNames x; with_reducible apply Moves.cut (x := x); pick_goal 2; dsimp only [x]; clear x; pick_goal 2; clear_value x; intro hx)
    | (extract_lets -useContext -merge -underBinder +onlyGivenNames x; with_reducible apply Ends.cut (x := x); pick_goal 2; dsimp only [x]; clear x; pick_goal 2; clear_value x; intro hx)
    | (extract_lets -useContext -merge -underBinder +onlyGivenNames x; skip)
    | with_reducible apply Moves.ite
    | with_reducible apply Ends.ite
    | (with_reducible apply Moves.step; (with_reducible first
        | apply State.secFail_moves | apply State.failStart_moves); decide)
    | split
    | (clear_value *; split)

end Sys2Proof.Machine
end

