-- ==== Sys2Proof/Laws/FramePower.lean ====
section
/-! SUPPORT. What the functions of Machine/Power.lean may change. -/

set_option linter.unusedTactic false
set_option linter.unreachableTactic false
set_option linter.tactic.unusedName false

namespace Sys2Proof.Machine

open Sys2Proof.Laws Sys2Proof.Safety

theorem State.setLimits_moves {s : State} {p : Pwr} :
    Moves (logged [.pwr]) s (State.setLimits s p) := by
  unfold State.setLimits
  repeat' first
    | with_reducible apply Moves.refl
    | with_reducible assumption
    | (extract_lets -useContext -merge -underBinder +onlyGivenNames x; with_reducible apply Moves.cut (x := x); pick_goal 2; dsimp only [x]; clear x; pick_goal 2; clear_value x; intro hx)
    | (extract_lets -useContext -merge -underBinder +onlyGivenNames x; skip)
    | with_reducible apply Moves.ite
    | (with_reducible apply Moves.step; (with_reducible first
        | apply State.raiseReg_moves | apply State.emitUnit_moves); decide)
    | split
    | (clear_value *; split)
    | (with_reducible apply Moves.step; (with_reducible apply Moves.upd_pwr); decide)

theorem State.thermal_moves {s : State} {sev : Nat} :
    Moves (logged []) s (State.thermal s sev) := by
  unfold State.thermal
  repeat' first
    | with_reducible apply Moves.refl
    | with_reducible assumption
    | (with_reducible apply Moves.step; (with_reducible first
        | apply State.raiseReg_moves | apply State.emitUnit_moves); decide)

theorem State.switchOff_moves {s : State} :
    Moves (logged [.pwr]) s (State.switchOff s) := by
  unfold State.switchOff
  repeat' first
    | with_reducible apply Moves.refl
    | with_reducible assumption
    | (extract_lets -useContext -merge -underBinder +onlyGivenNames x; with_reducible apply Moves.cut (x := x); pick_goal 2; dsimp only [x]; clear x; pick_goal 2; clear_value x; intro hx)
    | (extract_lets -useContext -merge -underBinder +onlyGivenNames x; skip)
    | with_reducible apply Moves.ite
    | (with_reducible apply Moves.step; (with_reducible first
        | apply State.persistLog_moves | apply State.thermal_moves); decide)
    | split
    | (clear_value *; split)
    | (with_reducible apply Moves.step; (with_reducible apply Moves.upd_pwr); decide)

theorem State.controlErg_moves {s : State} {p : PowerSample} {d : Nat} :
    Moves (logged [.ergs]) s (State.controlErg s p d) := by
  unfold State.controlErg
  repeat' first
    | with_reducible apply Moves.refl
    | with_reducible assumption
    | (extract_lets -useContext -merge -underBinder +onlyGivenNames x; with_reducible apply Moves.cut (x := x); pick_goal 2; dsimp only [x]; clear x; pick_goal 2; clear_value x; intro hx)
    | (extract_lets -useContext -merge -underBinder +onlyGivenNames x; skip)
    | with_reducible apply Moves.ite
    | (with_reducible apply Moves.step; (with_reducible first
        | apply State.setErg_moves | apply State.thermal_moves); decide)
    | split
    | (clear_value *; split)

theorem execPowerControlTick_ends {p : PowerSample} {s : State} :
    Ends (logged [.ergs, .pwr]) s (execPowerControlTick p s) := by
  unfold execPowerControlTick
  repeat' first
    | with_reducible apply Moves.refl
    | with_reducible assumption
    | with_reducible apply Ends.next
    | (extract_lets -useContext -merge -underBinder +onlyGivenNames x; with_reducible apply Moves.cut (x := x); pick_goal 2; dsimp only [x]; clear x; pick_goal 2; clear_value x; intro hx)
    | (extract_lets -useContext -merge -underBinder +onlyGivenNames x; with_reducible apply Ends.cut (x := x); pick_goal 2; dsimp only [x]; clear x; pick_goal 2; clear_value x; intro hx)
    | (extract_lets -useContext -merge -underBinder +onlyGivenNames x; skip)
    | with_reducible apply Moves.ite
    | with_reducible apply Ends.ite
    | (with_reducible apply Moves.step; (with_reducible first
        | apply State.setLimits_moves | apply State.thermal_moves | apply State.switchOff_moves
        | apply State.controlErg_moves); decide)
    | (with_reducible apply Moves.foldl; intro _ _ _)
    | split
    | (clear_value *; split)
    | (with_reducible apply Moves.step; (with_reducible apply Moves.upd_pwr); decide)

theorem execFlowLimitEval_ends {flow : Nat} {s : State} :
    Ends (logged [.pwr]) s (execFlowLimitEval flow s) := by
  unfold execFlowLimitEval
  repeat' first
    | with_reducible apply Moves.refl
    | with_reducible assumption
    | with_reducible apply Ends.next
    | (extract_lets -useContext -merge -underBinder +onlyGivenNames x; with_reducible apply Moves.cut (x := x); pick_goal 2; dsimp only [x]; clear x; pick_goal 2; clear_value x; intro hx)
    | (extract_lets -useContext -merge -underBinder +onlyGivenNames x; with_reducible apply Ends.cut (x := x); pick_goal 2; dsimp only [x]; clear x; pick_goal 2; clear_value x; intro hx)
    | (extract_lets -useContext -merge -underBinder +onlyGivenNames x; skip)
    | with_reducible apply Moves.ite
    | with_reducible apply Ends.ite
    | (with_reducible apply Moves.step; (with_reducible first
        | apply State.setLimits_moves); decide)
    | split
    | (clear_value *; split)

theorem execLowFlowSwitchOff_ends {s : State} :
    Ends (logged [.pwr]) s (execLowFlowSwitchOff s) := by
  unfold execLowFlowSwitchOff
  repeat' first
    | with_reducible apply Moves.refl
    | with_reducible assumption
    | with_reducible apply Ends.next
    | with_reducible apply Moves.ite
    | with_reducible apply Ends.ite
    | (with_reducible apply Moves.step; (with_reducible first
        | apply State.switchOff_moves); decide)
    | split

theorem execThermalPowerRemove_ends {s : State} :
    Ends (allBut [.queue, .fresh, .ident, .life, .reserved, .nv]) s (execThermalPowerRemove s) := by
  unfold execThermalPowerRemove
  repeat' first
    | with_reducible apply Moves.refl
    | with_reducible assumption
    | with_reducible apply Ends.next
    | with_reducible apply Moves.ite
    | with_reducible apply Ends.ite
    | (with_reducible apply Moves.step; (with_reducible first
        | apply State.powerDown_moves); decide)
    | split

end Sys2Proof.Machine
end

