-- ==== Sys2Proof/Laws/FrameView.lean ====
section
/-! SUPPORT. What the functions of Machine/View.lean may change. -/

set_option linter.unusedTactic false
set_option linter.unreachableTactic false
set_option linter.tactic.unusedName false

namespace Sys2Proof.Machine

open Sys2Proof.Laws Sys2Proof.Safety

theorem State.setGuard_moves {s : State} {r : Nat} {g : Guard} : Moves [.guards] s (s.setGuard r g) :=
  ⟨fun p hp => by
    cases p <;> first | rfl | exact ⟨rfl, rfl⟩ | (intro _ _ _; rfl) | exact absurd (by decide) hp,
    fun c => ⟨c.mem, c.regs, c.ctrs, Tab.okBy_put (fun k => (⟨guardReset k, none⟩ : Guard)) _ _ _ c.guards,
      c.sculls, c.crews, c.ergs, c.tasks, c.rings, c.mbs, c.dunes, c.wakes, c.ports⟩,
    ⟨rfl, rfl, le_rfl, le_rfl, le_rfl, fun _ h => h, fun _ h => h, le_rfl⟩⟩

end Sys2Proof.Machine
end

