-- ==== Sys2Proof/Laws/FrameGuard.lean ====
section
/-! SUPPORT. What the functions of Machine/Guard.lean may change. -/

set_option linter.unusedTactic false
set_option linter.unreachableTactic false
set_option linter.tactic.unusedName false

namespace Sys2Proof.Machine

open Sys2Proof.Laws Sys2Proof.Safety

theorem State.guardShow_moves {s : State} {r : Nat} {st : Status} :
    Moves [.lossCounts, .regs] s (State.guardShow s r st) := by
  unfold State.guardShow
  repeat' first
    | with_reducible apply Moves.refl
    | with_reducible assumption
    | (with_reducible apply Moves.step; (with_reducible first
        | apply State.setReg_moves); decide)

theorem State.guardMismatch_moves {s : State} {r : Nat} {o : Nat × Nat} {off : Nat} {tried : Word} :
    Moves (logged [.regs, .guards]) s (State.guardMismatch s r o off tried) := by
  unfold State.guardMismatch
  repeat' first
    | with_reducible apply Moves.refl
    | with_reducible assumption
    | (extract_lets -useContext -merge -underBinder +onlyGivenNames x; with_reducible apply Moves.cut (x := x); pick_goal 2; dsimp only [x]; clear x; pick_goal 2; clear_value x; intro hx)
    | (extract_lets -useContext -merge -underBinder +onlyGivenNames x; skip)
    | (with_reducible apply Moves.step; (with_reducible first
        | apply State.guardShow_moves | apply State.bump_moves | apply State.emit_moves | apply State.setGuard_moves); decide)
    | split
    | (clear_value *; split)

theorem State.guardDisturb_moves {s : State} {r : Nat} {o : Nat × Nat} {off : Nat} {tried : Word} :
    Moves (logged [.regs, .guards]) s (State.guardDisturb s r o off tried) := by
  unfold State.guardDisturb
  repeat' first
    | with_reducible apply Moves.refl
    | with_reducible assumption
    | with_reducible apply Moves.ite
    | (with_reducible apply Moves.step; (with_reducible first
        | apply State.guardMismatch_moves); decide)
    | split

theorem State.guardArm_moves {s : State} {r : Nat} {v : Word} {req : Requester} {o : Nat × Nat} :
    Moves (logged [.regs, .guards]) s (State.guardArm s r v req o) := by
  unfold State.guardArm
  repeat' first
    | with_reducible apply Moves.refl
    | with_reducible assumption
    | (extract_lets -useContext -merge -underBinder +onlyGivenNames x; with_reducible apply Moves.cut (x := x); pick_goal 2; dsimp only [x]; clear x; pick_goal 2; clear_value x; intro hx)
    | (extract_lets -useContext -merge -underBinder +onlyGivenNames x; skip)
    | (with_reducible apply Moves.step; (with_reducible first
        | apply State.guardDisturb_moves | apply State.setGuard_moves); decide)

theorem State.disablePorts_moves {s : State} {v : Word} :
    Moves (logged [.fresh, .regs, .mem, .poison, .sculls, .crews, .ergs, .ctrs, .tasks, .rings, .dunes, .tier, .kv, .lowp, .ports, .rigger, .colls, .peers, .sched]) s (State.disablePorts s v) := by
  unfold State.disablePorts
  repeat' first
    | with_reducible apply Moves.refl
    | with_reducible assumption
    | (extract_lets -useContext -merge -underBinder +onlyGivenNames x; with_reducible apply Moves.cut (x := x); pick_goal 2; dsimp only [x]; clear x; pick_goal 2; clear_value x; intro hx)
    | (extract_lets -useContext -merge -underBinder +onlyGivenNames x; skip)
    | with_reducible apply Moves.ite
    | (with_reducible apply Moves.step; (with_reducible first
        | apply State.emitPort_moves | apply State.portTo_moves | apply State.setPort_moves); decide)
    | (with_reducible apply Moves.foldl; intro _ _ _)
    | split
    | (clear_value *; split)

theorem State.burnLifecycle_moves {s : State} {code : Nat} : Moves (logged [.fresh, .start, .life]) s (s.burnLifecycle code) := by
  unfold State.burnLifecycle
  refine Moves.step State.emitUnit_moves (by decide) ?_
  have h : Moves [.fresh] s s.draw.2 := State.draw_snd
  have e : s.nv.lcUsed = s.draw.2.nv.lcUsed := rfl
  refine h.trans' (by decide) ⟨fun p hp => ?_, fun c => ?_, ?_⟩
  · cases p <;> first | rfl | exact ⟨rfl, rfl⟩ | (intro _ _ _; rfl) | exact absurd (by decide) hp
  · exact ⟨c.mem, c.regs, c.ctrs, c.guards, c.sculls, c.crews, c.ergs, c.tasks, c.rings, c.mbs, c.dunes, c.wakes, c.ports⟩
  · exact ⟨rfl, rfl, le_rfl, le_rfl, Nat.le_succ _, fun _ h => h, fun _ h => h, le_rfl⟩

theorem State.guardEffect_moves {s : State} {r : Nat} {v : Word} :
    Moves (logged [.fresh, .start, .life, .nv, .regs, .mem, .poison, .sculls, .crews, .ergs, .ctrs, .tasks, .rings, .dunes, .tier, .kv, .lowp, .ports, .rigger, .colls, .peers, .sched, .pwr]) s (State.guardEffect s r v) := by
  unfold State.guardEffect
  repeat' first
    | with_reducible apply Moves.refl
    | with_reducible assumption
    | (extract_lets -useContext -merge -underBinder +onlyGivenNames x; with_reducible apply Moves.cut (x := x); pick_goal 2; dsimp only [x]; clear x; pick_goal 2; clear_value x; intro hx)
    | (extract_lets -useContext -merge -underBinder +onlyGivenNames x; skip)
    | with_reducible apply Moves.ite
    | (with_reducible apply Moves.step; (with_reducible first
        | apply State.remapRow_moves | apply State.disablePorts_moves | apply State.burnLifecycle_moves
        | apply State.emitUnit_moves | apply State.delayStart_moves | apply State.setLimits_moves
        | apply State.draw_snd); decide)
    | (with_reducible apply Moves.of_pair; assumption)
    | (with_reducible apply Moves.of_reply; assumption)
    | split
    | (clear_value *; split)
    | (with_reducible apply Moves.step; (with_reducible exact Moves.upd_nv rfl rfl rfl rfl rfl le_rfl le_rfl (fun _ h => h) (fun _ h => h)); decide)

theorem State.guardCommit_moves {s : State} {r : Nat} {v : Word} {a0 : Requester} {b : Requester} {o : Nat × Nat} :
    Moves (logged [.fresh, .start, .life, .nv, .regs, .guards, .mem, .poison, .sculls, .crews, .ergs, .ctrs, .tasks, .rings, .dunes, .tier, .kv, .lowp, .ports, .rigger, .colls, .peers, .sched, .pwr]) s (State.guardCommit s r v a0 b o) := by
  unfold State.guardCommit
  repeat' first
    | with_reducible apply Moves.refl
    | with_reducible assumption
    | (extract_lets -useContext -merge -underBinder +onlyGivenNames x; with_reducible apply Moves.cut (x := x); pick_goal 2; dsimp only [x]; clear x; pick_goal 2; clear_value x; intro hx)
    | (extract_lets -useContext -merge -underBinder +onlyGivenNames x; skip)
    | with_reducible apply Moves.ite
    | (with_reducible apply Moves.step; (with_reducible first
        | apply State.guardShow_moves | apply State.guardEffect_moves | apply State.bump_moves
        | apply State.emit_moves | apply State.setGuard_moves); decide)
    | split
    | (clear_value *; split)

theorem State.guardTwin_moves {s : State} {r : Nat} {v : Word} {req : Requester} :
    Moves (logged [.fresh, .start, .life, .nv, .regs, .guards, .mem, .poison, .sculls, .crews, .ergs, .ctrs, .tasks, .rings, .dunes, .tier, .kv, .lowp, .ports, .rigger, .colls, .peers, .sched, .pwr]) s (State.guardTwin s r v req) := by
  unfold State.guardTwin
  repeat' first
    | with_reducible apply Moves.refl
    | with_reducible assumption
    | with_reducible apply Moves.ite
    | (with_reducible apply Moves.step; (with_reducible first
        | apply State.guardMismatch_moves | apply State.guardCommit_moves); decide)
    | split

theorem State.twinWrite_moves {s : State} {r : Nat} {v : Word} {req : Requester} :
    Moves (logged [.fresh, .start, .life, .nv, .regs, .guards, .mem, .poison, .sculls, .crews, .ergs, .ctrs, .tasks, .rings, .dunes, .tier, .kv, .lowp, .ports, .rigger, .colls, .peers, .sched, .pwr]) s (State.twinWrite s r v req) := by
  unfold State.twinWrite
  repeat' first
    | with_reducible apply Moves.refl
    | with_reducible assumption
    | (with_reducible apply State.onReg_moves; decide; intro _ _)
    | (with_reducible apply Moves.step; (with_reducible first
        | apply State.guardTwin_moves); decide)

theorem execGuardValueWrite_ends {r : Nat} {v : Word} {req : Requester} {s : State} :
    Ends (logged [.regs, .guards]) s (execGuardValueWrite r v req s) := by
  unfold execGuardValueWrite
  repeat' first
    | with_reducible apply Moves.refl
    | with_reducible assumption
    | with_reducible apply Ends.next
    | with_reducible apply Moves.ite
    | with_reducible apply Ends.ite
    | (with_reducible apply State.onReg_moves; decide; intro _ _)
    | (with_reducible apply Moves.step; (with_reducible first
        | apply State.guardArm_moves); decide)
    | split

theorem execGuardPendingTimeout_ends {r : Nat} {s : State} :
    Ends (logged [.regs, .guards]) s (execGuardPendingTimeout r s) := by
  unfold execGuardPendingTimeout
  repeat' first
    | with_reducible apply Moves.refl
    | with_reducible assumption
    | with_reducible apply Ends.next
    | with_reducible apply Moves.ite
    | with_reducible apply Ends.ite
    | (with_reducible apply Moves.step; (with_reducible first
        | apply State.guardMismatch_moves); decide)
    | split

theorem execGlobalGReset_ends {twin : Word} {req : Requester} {s : State} :
    Ends (logged [.fresh, .start, .life, .nv, .regs, .guards, .mem, .poison, .sculls, .crews, .ergs, .ctrs, .tasks, .rings, .dunes, .tier, .kv, .lowp, .ports, .rigger, .colls, .peers, .sched, .pwr]) s (execGlobalGReset twin req s) := by
  unfold execGlobalGReset
  repeat' first
    | with_reducible apply Moves.refl
    | with_reducible assumption
    | with_reducible apply Ends.next
    | (with_reducible apply Moves.step; (with_reducible first
        | apply State.twinWrite_moves); decide)

theorem execGlobalGPwrCap_ends {twin : Word} {req : Requester} {s : State} :
    Ends (logged [.fresh, .start, .life, .nv, .regs, .guards, .mem, .poison, .sculls, .crews, .ergs, .ctrs, .tasks, .rings, .dunes, .tier, .kv, .lowp, .ports, .rigger, .colls, .peers, .sched, .pwr]) s (execGlobalGPwrCap twin req s) := by
  unfold execGlobalGPwrCap
  repeat' first
    | with_reducible apply Moves.refl
    | with_reducible assumption
    | with_reducible apply Ends.next
    | (with_reducible apply Moves.step; (with_reducible first
        | apply State.twinWrite_moves); decide)

theorem execGlobalGVlimit_ends {twin : Word} {req : Requester} {s : State} :
    Ends (logged [.fresh, .start, .life, .nv, .regs, .guards, .mem, .poison, .sculls, .crews, .ergs, .ctrs, .tasks, .rings, .dunes, .tier, .kv, .lowp, .ports, .rigger, .colls, .peers, .sched, .pwr]) s (execGlobalGVlimit twin req s) := by
  unfold execGlobalGVlimit
  repeat' first
    | with_reducible apply Moves.refl
    | with_reducible assumption
    | with_reducible apply Ends.next
    | (with_reducible apply Moves.step; (with_reducible first
        | apply State.twinWrite_moves); decide)

theorem execGlobalGRemapRow_ends {twin : Word} {req : Requester} {s : State} :
    Ends (logged [.fresh, .start, .life, .nv, .regs, .guards, .mem, .poison, .sculls, .crews, .ergs, .ctrs, .tasks, .rings, .dunes, .tier, .kv, .lowp, .ports, .rigger, .colls, .peers, .sched, .pwr]) s (execGlobalGRemapRow twin req s) := by
  unfold execGlobalGRemapRow
  repeat' first
    | with_reducible apply Moves.refl
    | with_reducible assumption
    | with_reducible apply Ends.next
    | (with_reducible apply Moves.step; (with_reducible first
        | apply State.twinWrite_moves); decide)

theorem execGlobalGRemapCh_ends {twin : Word} {req : Requester} {s : State} :
    Ends (logged [.fresh, .start, .life, .nv, .regs, .guards, .mem, .poison, .sculls, .crews, .ergs, .ctrs, .tasks, .rings, .dunes, .tier, .kv, .lowp, .ports, .rigger, .colls, .peers, .sched, .pwr]) s (execGlobalGRemapCh twin req s) := by
  unfold execGlobalGRemapCh
  repeat' first
    | with_reducible apply Moves.refl
    | with_reducible assumption
    | with_reducible apply Ends.next
    | (with_reducible apply Moves.step; (with_reducible first
        | apply State.twinWrite_moves); decide)

theorem execGlobalGPortDis_ends {twin : Word} {req : Requester} {s : State} :
    Ends (logged [.fresh, .start, .life, .nv, .regs, .guards, .mem, .poison, .sculls, .crews, .ergs, .ctrs, .tasks, .rings, .dunes, .tier, .kv, .lowp, .ports, .rigger, .colls, .peers, .sched, .pwr]) s (execGlobalGPortDis twin req s) := by
  unfold execGlobalGPortDis
  repeat' first
    | with_reducible apply Moves.refl
    | with_reducible assumption
    | with_reducible apply Ends.next
    | (with_reducible apply Moves.step; (with_reducible first
        | apply State.twinWrite_moves); decide)

theorem execGlobalGFuse_ends {twin : Word} {req : Requester} {s : State} :
    Ends (logged [.fresh, .start, .life, .nv, .regs, .guards, .mem, .poison, .sculls, .crews, .ergs, .ctrs, .tasks, .rings, .dunes, .tier, .kv, .lowp, .ports, .rigger, .colls, .peers, .sched, .pwr]) s (execGlobalGFuse twin req s) := by
  unfold execGlobalGFuse
  repeat' first
    | with_reducible apply Moves.refl
    | with_reducible assumption
    | with_reducible apply Ends.next
    | (with_reducible apply Moves.step; (with_reducible first
        | apply State.twinWrite_moves); decide)

end Sys2Proof.Machine
end

