-- ==== Sys2Proof/Laws/FrameRing.lean ====
section
/-! SUPPORT. What the functions of Machine/Ring.lean may change. -/

set_option linter.unusedTactic false
set_option linter.unreachableTactic false
set_option linter.tactic.unusedName false

namespace Sys2Proof.Machine

open Sys2Proof.Laws Sys2Proof.Safety

theorem execDoorbellWrite_ends {q : Nat} {v : Word} {req : Requester} {s : State} :
    Ends (logged [.regs, .rings]) s (execDoorbellWrite q v req s) := by
  unfold execDoorbellWrite
  repeat' first
    | with_reducible apply Moves.refl
    | with_reducible assumption
    | with_reducible apply Ends.next
    | (extract_lets -useContext -merge -underBinder +onlyGivenNames x; with_reducible apply Moves.cut (x := x); pick_goal 2; dsimp only [x]; clear x; pick_goal 2; clear_value x; intro hx)
    | (extract_lets -useContext -merge -underBinder +onlyGivenNames x; with_reducible apply Ends.cut (x := x); pick_goal 2; dsimp only [x]; clear x; pick_goal 2; clear_value x; intro hx)
    | (extract_lets -useContext -merge -underBinder +onlyGivenNames x; skip)
    | with_reducible apply Moves.ite
    | with_reducible apply Ends.ite
    | (with_reducible apply State.onReg_moves; decide; intro _ _)
    | (with_reducible apply Moves.step; (with_reducible first
        | apply State.setRing_moves | apply State.logRefused_moves); decide)
    | split
    | (clear_value *; split)

theorem execRingFetchVisit_ends {q : Nat} {s : State} :
    Ends [.rings, .lastRing] s (execRingFetchVisit q s) := by
  unfold execRingFetchVisit
  repeat' first
    | with_reducible apply Moves.refl
    | with_reducible assumption
    | with_reducible apply Ends.next
    | (extract_lets -useContext -merge -underBinder +onlyGivenNames x; with_reducible apply Moves.cut (x := x); pick_goal 2; dsimp only [x]; clear x; pick_goal 2; clear_value x; intro hx)
    | (extract_lets -useContext -merge -underBinder +onlyGivenNames x; with_reducible apply Ends.cut (x := x); pick_goal 2; dsimp only [x]; clear x; pick_goal 2; clear_value x; intro hx)
    | (extract_lets -useContext -merge -underBinder +onlyGivenNames x; skip)
    | with_reducible apply Moves.ite
    | with_reducible apply Ends.ite
    | (with_reducible apply Moves.step; (with_reducible first
        | apply State.setRing_moves); decide)
    | split
    | (clear_value *; split)
    | (with_reducible apply Moves.step; (with_reducible apply Moves.upd_lastRing); decide)

theorem State.readFail_moves {s : State} {q : Nat} {seq : Word} :
    Moves (logged [.mem, .rings]) s (State.readFail s q seq) := by
  unfold State.readFail
  repeat' first
    | with_reducible apply Moves.refl
    | with_reducible assumption
    | (extract_lets -useContext -merge -underBinder +onlyGivenNames x; with_reducible apply Moves.cut (x := x); pick_goal 2; dsimp only [x]; clear x; pick_goal 2; clear_value x; intro hx)
    | (extract_lets -useContext -merge -underBinder +onlyGivenNames x; skip)
    | with_reducible apply Moves.ite
    | (with_reducible apply Moves.step; (with_reducible first
        | apply State.ringIrq_moves | apply State.putRecord_moves | apply State.drainRing_moves
        | apply State.setRing_moves | apply State.emitUnit_moves); decide)
    | split
    | (clear_value *; split)

theorem execDescriptorReadComplete_ends {q : Nat} {res : Ending} {bad : List Nat} {host : List Cell} {s : State} :
    Ends (logged [.fresh, .regs, .mem, .poison, .sculls, .crews, .ergs, .ctrs, .tasks, .rings, .dunes, .tier, .kv, .lowp, .sched]) s (execDescriptorReadComplete q res bad host s) := by
  unfold execDescriptorReadComplete
  repeat' first
    | with_reducible apply Moves.refl
    | with_reducible assumption
    | with_reducible apply Ends.next
    | (extract_lets -useContext -merge -underBinder +onlyGivenNames x; with_reducible apply Moves.cut (x := x); pick_goal 2; dsimp only [x]; clear x; pick_goal 2; clear_value x; intro hx)
    | (extract_lets -useContext -merge -underBinder +onlyGivenNames x; with_reducible apply Ends.cut (x := x); pick_goal 2; dsimp only [x]; clear x; pick_goal 2; clear_value x; intro hx)
    | (extract_lets -useContext -merge -underBinder +onlyGivenNames x; skip)
    | with_reducible apply Moves.ite
    | with_reducible apply Ends.ite
    | (with_reducible apply Moves.step; (with_reducible first
        | apply State.pump_moves | apply State.seeHost_moves | apply State.setTask_moves | apply State.setRing_moves
        | apply State.readFail_moves | apply State.hostErr_moves); decide)
    | (with_reducible apply Moves.foldl; intro _ _ _)
    | split
    | (clear_value *; split)

theorem State.writeLrCfg_moves {s : State} {q : Nat} {v : Word} {req : Requester} :
    Moves (logged [.regs, .rings]) s (State.writeLrCfg s q v req) := by
  unfold State.writeLrCfg
  repeat' first
    | with_reducible apply Moves.refl
    | with_reducible assumption
    | (extract_lets -useContext -merge -underBinder +onlyGivenNames x; with_reducible apply Moves.cut (x := x); pick_goal 2; dsimp only [x]; clear x; pick_goal 2; clear_value x; intro hx)
    | (extract_lets -useContext -merge -underBinder +onlyGivenNames x; skip)
    | with_reducible apply Moves.ite
    | (with_reducible apply State.onReg_moves; decide; intro _ _)
    | (with_reducible apply State.checked_moves; decide; intro _ _)
    | (with_reducible apply Moves.step; (with_reducible first
        | apply State.takeReg_moves | apply State.drainRing_moves | apply State.setRing_moves
        | apply State.logRefused_moves); decide)
    | split
    | (clear_value *; split)

theorem execRingEnable_ends {q : Nat} {v : Word} {req : Requester} {s : State} :
    Ends (logged [.regs, .rings]) s (execRingEnable q v req s) := by
  unfold execRingEnable
  repeat' first
    | with_reducible apply Moves.refl
    | with_reducible assumption
    | with_reducible apply Ends.next
    | (with_reducible apply Moves.step; (with_reducible first
        | apply State.writeLrCfg_moves); decide)

theorem execRingDisable_ends {q : Nat} {v : Word} {req : Requester} {s : State} :
    Ends (logged [.regs, .rings]) s (execRingDisable q v req s) := by
  unfold execRingDisable
  repeat' first
    | with_reducible apply Moves.refl
    | with_reducible assumption
    | with_reducible apply Ends.next
    | (with_reducible apply Moves.step; (with_reducible first
        | apply State.writeLrCfg_moves); decide)

theorem execCqHeadWrite_ends {q : Nat} {v : Word} {req : Requester} {s : State} :
    Ends (logged [.regs, .rings]) s (execCqHeadWrite q v req s) := by
  unfold execCqHeadWrite
  repeat' first
    | with_reducible apply Moves.refl
    | with_reducible assumption
    | with_reducible apply Ends.next
    | (extract_lets -useContext -merge -underBinder +onlyGivenNames x; with_reducible apply Moves.cut (x := x); pick_goal 2; dsimp only [x]; clear x; pick_goal 2; clear_value x; intro hx)
    | (extract_lets -useContext -merge -underBinder +onlyGivenNames x; with_reducible apply Ends.cut (x := x); pick_goal 2; dsimp only [x]; clear x; pick_goal 2; clear_value x; intro hx)
    | (extract_lets -useContext -merge -underBinder +onlyGivenNames x; skip)
    | with_reducible apply Moves.ite
    | with_reducible apply Ends.ite
    | (with_reducible apply State.onReg_moves; decide; intro _ _)
    | (with_reducible apply Moves.step; (with_reducible first
        | apply State.setRing_moves | apply State.logRefused_moves); decide)
    | split
    | (clear_value *; split)

theorem State.writeRingReg_moves {s : State} {q : Nat} {reg : Nat} {v : Word} {req : Requester} :
    Moves (logged [.regs, .rings]) s (State.writeRingReg s q reg v req) := by
  unfold State.writeRingReg
  repeat' first
    | with_reducible apply Moves.refl
    | with_reducible assumption
    | (extract_lets -useContext -merge -underBinder +onlyGivenNames x; with_reducible apply Moves.cut (x := x); pick_goal 2; dsimp only [x]; clear x; pick_goal 2; clear_value x; intro hx)
    | (extract_lets -useContext -merge -underBinder +onlyGivenNames x; skip)
    | with_reducible apply Moves.ite
    | (with_reducible apply State.onReg_moves; decide; intro _ _)
    | (with_reducible apply Moves.step; (with_reducible first
        | apply State.writePlain_moves | apply State.setRing_moves | apply State.logWrite_moves
        | apply State.logRefused_moves); decide)
    | split
    | (clear_value *; split)

theorem execRingIrqHoldExpiry_ends {q : Nat} {s : State} :
    Ends [.sent, .rings, .vecPend] s (execRingIrqHoldExpiry q s) := by
  unfold execRingIrqHoldExpiry
  repeat' first
    | with_reducible apply Moves.refl
    | with_reducible assumption
    | with_reducible apply Ends.next
    | (extract_lets -useContext -merge -underBinder +onlyGivenNames x; with_reducible apply Moves.cut (x := x); pick_goal 2; dsimp only [x]; clear x; pick_goal 2; clear_value x; intro hx)
    | (extract_lets -useContext -merge -underBinder +onlyGivenNames x; with_reducible apply Ends.cut (x := x); pick_goal 2; dsimp only [x]; clear x; pick_goal 2; clear_value x; intro hx)
    | (extract_lets -useContext -merge -underBinder +onlyGivenNames x; skip)
    | with_reducible apply Moves.ite
    | with_reducible apply Ends.ite
    | (with_reducible apply Moves.step; (with_reducible first
        | apply State.setRing_moves | apply State.raise_moves); decide)
    | split
    | (clear_value *; split)

end Sys2Proof.Machine
end

