-- ==== Sys2Proof/Laws/FrameIsland.lean ====
section
/-! SUPPORT. What the functions of Machine/Island.lean may change. -/

set_option linter.unusedTactic false
set_option linter.unreachableTactic false
set_option linter.tactic.unusedName false

namespace Sys2Proof.Machine

open Sys2Proof.Laws Sys2Proof.Safety

theorem State.releaseVectors_moves {s : State} : Moves [.sent, .vecPend] s s.releaseVectors := by
  unfold State.releaseVectors
  split
  · exact Moves.refl _ _
  · refine Moves.foldl (fun t e ht => ?_) (Moves.refl _ _) _
    exact ht.trans ⟨fun p hp => by
      cases p <;> first | rfl | exact ⟨rfl, rfl⟩ | (intro _ _ _; rfl) | exact absurd (by decide) hp,
      fun c => ⟨c.mem, c.regs, c.ctrs, c.guards, c.sculls, c.crews, c.ergs, c.tasks, c.rings, c.mbs, c.dunes, c.wakes, c.ports⟩,
      ⟨rfl, rfl, le_rfl, le_rfl, le_rfl, fun _ h => h, fun _ h => h, le_rfl⟩⟩

theorem State.linkDown_moves {s : State} :
    Moves (logged [.fresh, .regs, .mem, .poison, .sculls, .crews, .ergs, .ctrs, .tasks, .rings, .dunes, .tier, .kv, .lowp, .sched, .host]) s (State.linkDown s) := by
  unfold State.linkDown
  repeat' first
    | with_reducible apply Moves.refl
    | with_reducible assumption
    | (extract_lets -useContext -merge -underBinder +onlyGivenNames x; with_reducible apply Moves.cut (x := x); pick_goal 2; dsimp only [x]; clear x; pick_goal 2; clear_value x; intro hx)
    | (extract_lets -useContext -merge -underBinder +onlyGivenNames x; skip)
    | (with_reducible apply Moves.step; (with_reducible first
        | apply State.failRun_moves | apply State.readFail_moves); decide)
    | (with_reducible apply Moves.foldl; intro _ _ _)
    | split
    | (clear_value *; split)
    | (with_reducible apply Moves.step; (with_reducible exact Moves.upd_host rfl); decide)

theorem State.islandDown_moves {s : State} {i : Nat} :
    Moves (allBut [.queue, .power, .pwrGood, .etc, .timer, .ident, .life, .sec, .crash, .staged5, .staged3, .seeded, .holding, .guards, .lastRing, .islands, .flashGone, .pwr, .cairn]) s (State.islandDown s i) := by
  unfold State.islandDown
  repeat' first
    | with_reducible apply Moves.refl
    | with_reducible assumption
    | with_reducible apply Moves.ite
    | (with_reducible apply Moves.step; (with_reducible first
        | apply State.emitPort_moves | apply State.portTo_moves | apply State.linkDown_moves
        | apply State.enterFaulted_moves | apply State.abortJob_moves); decide)
    | (with_reducible apply Moves.foldl; intro _ _ _)
    | split

theorem execIslandLockLoss_ends {i : Nat} {s : State} :
    Ends (allBut [.queue, .power, .pwrGood, .etc, .timer, .ident, .life, .sec, .crash, .staged5, .staged3, .seeded, .holding, .guards, .lastRing, .flashGone, .pwr, .cairn]) s (execIslandLockLoss i s) := by
  unfold execIslandLockLoss
  repeat' first
    | with_reducible apply Moves.refl
    | with_reducible assumption
    | with_reducible apply Ends.next
    | (extract_lets -useContext -merge -underBinder +onlyGivenNames x; with_reducible apply Moves.cut (x := x); pick_goal 2; dsimp only [x]; clear x; pick_goal 2; clear_value x; intro hx)
    | (extract_lets -useContext -merge -underBinder +onlyGivenNames x; with_reducible apply Ends.cut (x := x); pick_goal 2; dsimp only [x]; clear x; pick_goal 2; clear_value x; intro hx)
    | (extract_lets -useContext -merge -underBinder +onlyGivenNames x; skip)
    | with_reducible apply Moves.ite
    | with_reducible apply Ends.ite
    | (with_reducible apply Moves.step; (with_reducible first
        | apply State.islandDown_moves | apply State.emitUnit_moves); decide)
    | split
    | (clear_value *; split)
    | (with_reducible apply Moves.step; (with_reducible apply Moves.upd_islands); decide)

theorem execIslandRelock_ends {i : Nat} {s : State} :
    Ends [.sent, .vecPend, .islands] s (execIslandRelock i s) := by
  unfold execIslandRelock
  repeat' first
    | with_reducible apply Moves.refl
    | with_reducible assumption
    | with_reducible apply Ends.next
    | with_reducible apply Moves.ite
    | with_reducible apply Ends.ite
    | (with_reducible apply Moves.step; (with_reducible first
        | apply State.releaseVectors_moves); decide)
    | split
    | (with_reducible apply Moves.step; (with_reducible apply Moves.upd_islands); decide)

theorem State.failStack_moves {s : State} {n : Nat} :
    Moves [.mem, .poison, .dunes] s (State.failStack s n) := by
  unfold State.failStack
  repeat' first
    | with_reducible apply Moves.refl
    | with_reducible assumption
    | (extract_lets -useContext -merge -underBinder +onlyGivenNames x; with_reducible apply Moves.cut (x := x); pick_goal 2; dsimp only [x]; clear x; pick_goal 2; clear_value x; intro hx)
    | (extract_lets -useContext -merge -underBinder +onlyGivenNames x; skip)
    | with_reducible apply Moves.ite
    | (with_reducible apply Moves.step; (with_reducible first
        | apply State.dropStack_moves | apply State.setDune_moves); decide)
    | split
    | (clear_value *; split)

theorem execIslandRelockTimeout_ends {i : Nat} {s : State} :
    Ends (logged [.fresh, .regs, .mem, .poison, .sculls, .crews, .ergs, .ctrs, .tasks, .rings, .dunes, .tier, .kv, .lowp, .wakes, .ports, .rigger, .colls, .peers, .sched, .flashGone]) s (execIslandRelockTimeout i s) := by
  unfold execIslandRelockTimeout
  repeat' first
    | with_reducible apply Moves.refl
    | with_reducible assumption
    | with_reducible apply Ends.next
    | (extract_lets -useContext -merge -underBinder +onlyGivenNames x; with_reducible apply Moves.cut (x := x); pick_goal 2; dsimp only [x]; clear x; pick_goal 2; clear_value x; intro hx)
    | (extract_lets -useContext -merge -underBinder +onlyGivenNames x; with_reducible apply Ends.cut (x := x); pick_goal 2; dsimp only [x]; clear x; pick_goal 2; clear_value x; intro hx)
    | (extract_lets -useContext -merge -underBinder +onlyGivenNames x; skip)
    | with_reducible apply Moves.ite
    | with_reducible apply Ends.ite
    | (with_reducible apply Moves.step; (with_reducible first
        | apply State.emitPort_moves | apply State.portTo_moves | apply State.failStack_moves
        | apply State.retireWake_moves); decide)
    | (with_reducible apply Moves.foldl; intro _ _ _)
    | split
    | (clear_value *; split)
    | (with_reducible apply Moves.step; (with_reducible apply Moves.upd_flashGone); decide)

theorem execDelayLineRecal_ends {crew : Nat} {line : Line} {margin : Nat} {tapsLeft : Bool} {s : State} :
    Ends (logged [.fresh, .nv, .regs, .mem, .poison, .sculls, .crews, .ergs, .ctrs, .tasks, .rings, .dunes, .tier, .kv, .lowp, .sched]) s (execDelayLineRecal crew line margin tapsLeft s) := by
  unfold execDelayLineRecal
  repeat' first
    | with_reducible apply Moves.refl
    | with_reducible assumption
    | with_reducible apply Ends.next
    | (extract_lets -useContext -merge -underBinder +onlyGivenNames x; with_reducible apply Moves.cut (x := x); pick_goal 2; dsimp only [x]; clear x; pick_goal 2; clear_value x; intro hx)
    | (extract_lets -useContext -merge -underBinder +onlyGivenNames x; with_reducible apply Ends.cut (x := x); pick_goal 2; dsimp only [x]; clear x; pick_goal 2; clear_value x; intro hx)
    | (extract_lets -useContext -merge -underBinder +onlyGivenNames x; skip)
    | with_reducible apply Moves.ite
    | with_reducible apply Ends.ite
    | (with_reducible apply Moves.step; (with_reducible first
        | apply State.retireCrew_moves | apply State.retireScull_moves | apply State.retireBow_moves
        | apply State.setFld_moves | apply State.bump_moves | apply State.emitUnit_moves); decide)
    | split
    | (clear_value *; split)
    | (with_reducible apply Moves.step; (with_reducible exact Moves.upd_nv rfl rfl rfl rfl rfl le_rfl le_rfl (fun _ h => h) (fun _ h => h)); decide)

theorem execBeatRateWindowEnd_ends {d : Nat} {mv : Nat} {s : State} :
    Ends [.lossCounts, .regs, .ergs] s (execBeatRateWindowEnd d mv s) := by
  unfold execBeatRateWindowEnd
  repeat' first
    | with_reducible apply Moves.refl
    | with_reducible assumption
    | with_reducible apply Ends.next
    | (extract_lets -useContext -merge -underBinder +onlyGivenNames x; with_reducible apply Moves.cut (x := x); pick_goal 2; dsimp only [x]; clear x; pick_goal 2; clear_value x; intro hx)
    | (extract_lets -useContext -merge -underBinder +onlyGivenNames x; with_reducible apply Ends.cut (x := x); pick_goal 2; dsimp only [x]; clear x; pick_goal 2; clear_value x; intro hx)
    | (extract_lets -useContext -merge -underBinder +onlyGivenNames x; skip)
    | with_reducible apply Moves.ite
    | with_reducible apply Ends.ite
    | (with_reducible apply Moves.step; (with_reducible first
        | apply State.setReg_moves | apply State.setErg_moves); decide)
    | split
    | (clear_value *; split)

end Sys2Proof.Machine
end

