-- ==== Sys2Proof/Laws/FrameMigrate.lean ====
section
/-! SUPPORT. What the functions of Machine/Migrate.lean may change. -/

set_option linter.unusedTactic false
set_option linter.unreachableTactic false
set_option linter.tactic.unusedName false

namespace Sys2Proof.Machine

open Sys2Proof.Laws Sys2Proof.Safety

theorem execCopyInComplete_ends {i : Nat} {ok : Bool} {host : List Cell} {s : State} :
    Ends (logged [.regs, .mem, .poison, .crews, .tasks, .dunes, .tier]) s (execCopyInComplete i ok host s) := by
  unfold execCopyInComplete
  repeat' first
    | with_reducible apply Moves.refl
    | with_reducible assumption
    | with_reducible apply Ends.next
    | (extract_lets -useContext -merge -underBinder +onlyGivenNames x; with_reducible apply Moves.cut (x := x); pick_goal 2; dsimp only [x]; clear x; pick_goal 2; clear_value x; intro hx)
    | (extract_lets -useContext -merge -underBinder +onlyGivenNames x; with_reducible apply Ends.cut (x := x); pick_goal 2; dsimp only [x]; clear x; pick_goal 2; clear_value x; intro hx)
    | (extract_lets -useContext -merge -underBinder +onlyGivenNames x; skip)
    | with_reducible apply Moves.ite
    | with_reducible apply Ends.ite
    | (with_reducible apply Moves.step; (with_reducible first
        | apply State.rewake_moves | apply State.write_moves | apply State.seeHost_moves | apply State.bump_moves
        | apply State.moveTensor_moves | apply State.sendHome_moves | apply State.emitTier_moves
        | apply State.moveEnded_moves); decide)
    | split
    | (clear_value *; split)

theorem execCopyOutComplete_ends {i : Nat} {ok : Bool} {s : State} :
    Ends (logged [.fresh, .regs, .mem, .poison, .crews, .tasks, .dunes, .tier]) s (execCopyOutComplete i ok s) := by
  unfold execCopyOutComplete
  repeat' first
    | with_reducible apply Moves.refl
    | with_reducible assumption
    | with_reducible apply Ends.next
    | (extract_lets -useContext -merge -underBinder +onlyGivenNames x; with_reducible apply Moves.cut (x := x); pick_goal 2; dsimp only [x]; clear x; pick_goal 2; clear_value x; intro hx)
    | (extract_lets -useContext -merge -underBinder +onlyGivenNames x; with_reducible apply Ends.cut (x := x); pick_goal 2; dsimp only [x]; clear x; pick_goal 2; clear_value x; intro hx)
    | (extract_lets -useContext -merge -underBinder +onlyGivenNames x; skip)
    | with_reducible apply Moves.ite
    | with_reducible apply Ends.ite
    | (with_reducible apply Moves.step; (with_reducible first
        | apply State.rewake_moves | apply State.write_moves | apply State.bump_moves | apply State.moveTensor_moves
        | apply State.sendHome_moves | apply State.lowFrames_moves | apply State.countMove_moves
        | apply State.emitTier_moves | apply State.moveEnded_moves); decide)
    | split
    | (clear_value *; split)

theorem execTierCmdComplete_ends {ok : Bool} {s : State} :
    Ends (logged [.fresh, .regs, .mem, .poison, .crews, .tasks, .dunes, .tier]) s (execTierCmdComplete ok s) := by
  unfold execTierCmdComplete
  repeat' first
    | with_reducible apply Moves.refl
    | with_reducible assumption
    | with_reducible apply Ends.next
    | with_reducible apply Moves.ite
    | with_reducible apply Ends.ite
    | (with_reducible apply Moves.step; (with_reducible first
        | apply State.rewake_moves | apply State.write_moves | apply State.updTensor_moves
        | apply State.lowFrames_moves | apply State.countMove_moves | apply State.emitTier_moves
        | apply State.endTierCmd_moves | apply State.dropTensor_moves); decide)
    | (with_reducible apply Moves.foldl; intro _ _ _)
    | split

theorem State.missShadow_moves {s : State} {id : Nat} {x : Nat} {f : Xfer} {t : Tensor} {rows : Nat × Nat × Nat} :
    Moves (logged [.fresh, .regs, .mem, .poison, .sculls, .tasks, .dunes, .tier, .ports, .peers]) s (State.missShadow s id x f t rows) := by
  unfold State.missShadow
  repeat' first
    | with_reducible apply Moves.refl
    | with_reducible assumption
    | (extract_lets -useContext -merge -underBinder +onlyGivenNames x; with_reducible apply Moves.cut (x := x); pick_goal 2; dsimp only [x]; clear x; pick_goal 2; clear_value x; intro hx)
    | (extract_lets -useContext -merge -underBinder +onlyGivenNames x; skip)
    | (with_reducible apply Moves.step; (with_reducible first
        | apply State.giveXfers_moves | apply State.bump_moves | apply State.setTask_moves); decide)

theorem State.submitRecompute_moves {s : State} {i : Nat} {miss : Task} :
    Moves (logged [.regs, .mem, .poison, .sculls, .crews, .ergs, .ctrs, .tasks, .rings, .dunes, .tier, .kv, .lowp, .sched]) s (State.submitRecompute s i miss) := by
  unfold State.submitRecompute
  repeat' first
    | with_reducible apply Moves.refl
    | with_reducible assumption
    | (extract_lets -useContext -merge -underBinder +onlyGivenNames x; with_reducible apply Moves.cut (x := x); pick_goal 2; dsimp only [x]; clear x; pick_goal 2; clear_value x; intro hx)
    | (extract_lets -useContext -merge -underBinder +onlyGivenNames x; skip)
    | with_reducible apply Moves.ite
    | (with_reducible apply Moves.step; (with_reducible first
        | apply State.enqueue_moves | apply State.finishTask_moves | apply State.setTask_moves); decide)
    | (with_reducible apply Moves.of_pair; assumption)
    | (with_reducible apply Moves.of_reply; assumption)
    | split
    | (clear_value *; split)

theorem State.missRecompute_moves {s : State} {k : Nat} {id : Nat} {x : Nat} {i : Nat} {f : Xfer} {frames : List Nat} :
    Moves (logged [.fresh, .regs, .mem, .poison, .sculls, .crews, .ergs, .ctrs, .tasks, .rings, .dunes, .tier, .kv, .lowp, .sched]) s (State.missRecompute s k id x i f frames) := by
  unfold State.missRecompute
  repeat' first
    | with_reducible apply Moves.refl
    | with_reducible assumption
    | (extract_lets -useContext -merge -underBinder +onlyGivenNames x; with_reducible apply Moves.cut (x := x); pick_goal 2; dsimp only [x]; clear x; pick_goal 2; clear_value x; intro hx)
    | (extract_lets -useContext -merge -underBinder +onlyGivenNames x; skip)
    | (with_reducible apply Moves.step; (with_reducible first
        | apply State.pumpAll_moves | apply State.submitRecompute_moves | apply State.bump_moves
        | apply State.setScull_moves | apply State.setTask_moves | apply State.moveTensor_moves
        | apply State.lowFrames_moves); decide)

theorem execDeadlineExpiry_ends {k : Nat} {x : Nat} {s : State} :
    Ends (logged [.fresh, .regs, .mem, .poison, .sculls, .crews, .ergs, .ctrs, .tasks, .rings, .dunes, .tier, .kv, .lowp, .ports, .peers, .sched]) s (execDeadlineExpiry k x s) := by
  unfold execDeadlineExpiry
  repeat' first
    | with_reducible apply Moves.refl
    | with_reducible assumption
    | with_reducible apply Ends.next
    | (extract_lets -useContext -merge -underBinder +onlyGivenNames x; with_reducible apply Moves.cut (x := x); pick_goal 2; dsimp only [x]; clear x; pick_goal 2; clear_value x; intro hx)
    | (extract_lets -useContext -merge -underBinder +onlyGivenNames x; with_reducible apply Ends.cut (x := x); pick_goal 2; dsimp only [x]; clear x; pick_goal 2; clear_value x; intro hx)
    | (extract_lets -useContext -merge -underBinder +onlyGivenNames x; skip)
    | with_reducible apply Moves.ite
    | with_reducible apply Ends.ite
    | (with_reducible apply Moves.step; (with_reducible first
        | apply State.missShadow_moves | apply State.missRecompute_moves | apply State.bump_moves
        | apply State.setTask_moves | apply State.emitUnit_moves | apply State.makeRoom_moves); decide)
    | split
    | (clear_value *; split)

end Sys2Proof.Machine
end

