-- ==== Sys2Proof/Laws/FrameHostPort.lean ====
section
/-! SUPPORT. What the functions of Machine/HostPort.lean may change. -/

set_option linter.unusedTactic false
set_option linter.unreachableTactic false
set_option linter.tactic.unusedName false

namespace Sys2Proof.Machine

open Sys2Proof.Laws Sys2Proof.Safety

theorem State.maskVector_moves {s : State} {v : Nat} {m : Bool} :
    Moves [.sent, .host, .vecPend] s (State.maskVector s v m) := by
  unfold State.maskVector
  repeat' first
    | with_reducible apply Moves.refl
    | with_reducible assumption
    | (with_reducible apply Moves.step; (with_reducible first
        | apply State.releaseVectors_moves); decide)
    | (with_reducible apply Moves.step; (with_reducible exact Moves.upd_host rfl); decide)

theorem execMsixVectorUnmask_ends {v : Option Nat} {s : State} :
    Ends [.sent, .host, .vecPend] s (execMsixVectorUnmask v s) := by
  unfold execMsixVectorUnmask
  repeat' first
    | with_reducible apply Moves.refl
    | with_reducible assumption
    | with_reducible apply Ends.next
    | with_reducible apply Moves.ite
    | with_reducible apply Ends.ite
    | (with_reducible apply Moves.step; (with_reducible first
        | apply State.maskVector_moves | apply State.releaseVectors_moves); decide)
    | split

theorem execLinkRetrain_ends {width : Nat} {rate : Nat} {flit : Bool} {s : State} :
    Ends (logged [.fresh, .regs, .mem, .poison, .sculls, .crews, .ergs, .ctrs, .tasks, .rings, .mbs, .dunes, .tier, .kv, .lowp, .sched, .host]) s (execLinkRetrain width rate flit s) := by
  unfold execLinkRetrain
  repeat' first
    | with_reducible apply Moves.refl
    | with_reducible assumption
    | with_reducible apply Ends.next
    | (extract_lets -useContext -merge -underBinder +onlyGivenNames x; with_reducible apply Moves.cut (x := x); pick_goal 2; dsimp only [x]; clear x; pick_goal 2; clear_value x; intro hx)
    | (extract_lets -useContext -merge -underBinder +onlyGivenNames x; with_reducible apply Ends.cut (x := x); pick_goal 2; dsimp only [x]; clear x; pick_goal 2; clear_value x; intro hx)
    | (extract_lets -useContext -merge -underBinder +onlyGivenNames x; skip)
    | with_reducible apply Moves.ite
    | with_reducible apply Ends.ite
    | (with_reducible apply Moves.step; (with_reducible first
        | apply State.serve_moves | apply State.releaseVectors_moves | apply State.linkDown_moves); decide)
    | split
    | (clear_value *; split)
    | (with_reducible apply Moves.step; (with_reducible exact Moves.upd_host rfl); decide)

theorem State.windowDrop_moves {s : State} {offset : Nat} :
    Moves (logged [.regs, .host]) s (State.windowDrop s offset) := by
  unfold State.windowDrop
  repeat' first
    | with_reducible apply Moves.refl
    | with_reducible assumption
    | (extract_lets -useContext -merge -underBinder +onlyGivenNames x; with_reducible apply Moves.cut (x := x); pick_goal 2; dsimp only [x]; clear x; pick_goal 2; clear_value x; intro hx)
    | (extract_lets -useContext -merge -underBinder +onlyGivenNames x; skip)
    | with_reducible apply Moves.ite
    | (with_reducible apply Moves.step; (with_reducible first
        | apply State.bump_moves | apply State.emitUnit_moves); decide)
    | split
    | (clear_value *; split)
    | (with_reducible apply Moves.step; (with_reducible exact Moves.upd_host rfl); decide)

theorem State.answer_moves {s : State} {ok : Bool} {poisoned : Bool} {data : List Byte} :
    Moves [.sent] s (State.answer s ok poisoned data) := by
  unfold State.answer
  repeat' first
    | with_reducible apply Moves.refl
    | with_reducible assumption
    | (with_reducible apply Moves.step; (with_reducible apply Moves.upd_tx); decide)

theorem State.windowAccess_moves {s : State} {io : Bool} {offset : Nat} {data : Option (List Byte)} {len : Nat} :
    Moves (logged [.regs, .mem, .poison, .dunes, .host]) s (State.windowAccess s io offset data len) := by
  unfold State.windowAccess
  repeat' first
    | with_reducible apply Moves.refl
    | with_reducible assumption
    | (extract_lets -useContext -merge -underBinder +onlyGivenNames x; with_reducible apply Moves.cut (x := x); pick_goal 2; dsimp only [x]; clear x; pick_goal 2; clear_value x; intro hx)
    | (extract_lets -useContext -merge -underBinder +onlyGivenNames x; skip)
    | (with_reducible apply Moves.step; (with_reducible first
        | apply State.countRead_moves | apply State.windowDrop_moves | apply State.answer_moves
        | apply State.write_moves); decide)
    | split
    | (clear_value *; split)

theorem execBar2Access_ends {offset : Nat} {data : Option (List Byte)} {len : Nat} {s : State} :
    Ends (logged [.regs, .mem, .poison, .dunes, .host]) s (execBar2Access offset data len s) := by
  unfold execBar2Access
  repeat' first
    | with_reducible apply Moves.refl
    | with_reducible assumption
    | with_reducible apply Ends.next
    | (extract_lets -useContext -merge -underBinder +onlyGivenNames x; with_reducible apply Moves.cut (x := x); pick_goal 2; dsimp only [x]; clear x; pick_goal 2; clear_value x; intro hx)
    | (extract_lets -useContext -merge -underBinder +onlyGivenNames x; with_reducible apply Ends.cut (x := x); pick_goal 2; dsimp only [x]; clear x; pick_goal 2; clear_value x; intro hx)
    | (extract_lets -useContext -merge -underBinder +onlyGivenNames x; skip)
    | with_reducible apply Moves.ite
    | with_reducible apply Ends.ite
    | (with_reducible apply Moves.step; (with_reducible first
        | apply State.answer_moves | apply State.windowAccess_moves | apply State.bump_moves); decide)
    | split
    | (clear_value *; split)

theorem execCxlMemRequest_ends {offset : Nat} {data : Option (List Byte)} {len : Nat} {s : State} :
    Ends (logged [.regs, .mem, .poison, .dunes, .host]) s (execCxlMemRequest offset data len s) := by
  unfold execCxlMemRequest
  repeat' first
    | with_reducible apply Moves.refl
    | with_reducible assumption
    | with_reducible apply Ends.next
    | with_reducible apply Moves.ite
    | with_reducible apply Ends.ite
    | (with_reducible apply Moves.step; (with_reducible first
        | apply State.answer_moves | apply State.windowAccess_moves); decide)
    | split

theorem execSpdmRequest_ends {request : List Byte} {s : State} :
    Ends (logged [.sec, .regs]) s (execSpdmRequest request s) := by
  unfold execSpdmRequest
  repeat' first
    | with_reducible apply Moves.refl
    | with_reducible assumption
    | with_reducible apply Ends.next
    | (extract_lets -useContext -merge -underBinder +onlyGivenNames x; with_reducible apply Moves.cut (x := x); pick_goal 2; dsimp only [x]; clear x; pick_goal 2; clear_value x; intro hx)
    | (extract_lets -useContext -merge -underBinder +onlyGivenNames x; with_reducible apply Ends.cut (x := x); pick_goal 2; dsimp only [x]; clear x; pick_goal 2; clear_value x; intro hx)
    | (extract_lets -useContext -merge -underBinder +onlyGivenNames x; skip)
    | with_reducible apply Moves.ite
    | with_reducible apply Ends.ite
    | (with_reducible apply Moves.step; (with_reducible first
        | apply State.secFail_moves | apply State.secRefused_moves | (apply State.attSign_moves; assumption)); decide)
    | (with_reducible apply Moves.of_pair; assumption)
    | (with_reducible apply Moves.of_reply; assumption)
    | split
    | (clear_value *; split)
    | (with_reducible apply Moves.step; (with_reducible apply Moves.upd_tx); decide)

theorem execIdeKeySet_ends {stream : Nat} {s : State} :
    Ends [.sent, .host, .vecPend] s (execIdeKeySet stream s) := by
  unfold execIdeKeySet
  repeat' first
    | with_reducible apply Moves.refl
    | with_reducible assumption
    | with_reducible apply Ends.next
    | (extract_lets -useContext -merge -underBinder +onlyGivenNames x; with_reducible apply Moves.cut (x := x); pick_goal 2; dsimp only [x]; clear x; pick_goal 2; clear_value x; intro hx)
    | (extract_lets -useContext -merge -underBinder +onlyGivenNames x; with_reducible apply Ends.cut (x := x); pick_goal 2; dsimp only [x]; clear x; pick_goal 2; clear_value x; intro hx)
    | (extract_lets -useContext -merge -underBinder +onlyGivenNames x; skip)
    | with_reducible apply Moves.ite
    | with_reducible apply Ends.ite
    | (with_reducible apply Moves.step; (with_reducible first
        | apply State.releaseVectors_moves); decide)
    | split
    | (clear_value *; split)
    | (with_reducible apply Moves.step; (with_reducible exact Moves.upd_host (by simp only [x]; split <;> rfl)); decide)

theorem execIdeIntegrityFail_ends {stream : Nat} {s : State} :
    Ends (logged [.regs, .host]) s (execIdeIntegrityFail stream s) := by
  unfold execIdeIntegrityFail
  repeat' first
    | with_reducible apply Moves.refl
    | with_reducible assumption
    | with_reducible apply Ends.next
    | (extract_lets -useContext -merge -underBinder +onlyGivenNames x; with_reducible apply Moves.cut (x := x); pick_goal 2; dsimp only [x]; clear x; pick_goal 2; clear_value x; intro hx)
    | (extract_lets -useContext -merge -underBinder +onlyGivenNames x; with_reducible apply Ends.cut (x := x); pick_goal 2; dsimp only [x]; clear x; pick_goal 2; clear_value x; intro hx)
    | (extract_lets -useContext -merge -underBinder +onlyGivenNames x; skip)
    | with_reducible apply Moves.ite
    | with_reducible apply Ends.ite
    | (with_reducible apply Moves.step; (with_reducible first
        | apply State.secFail_moves); decide)
    | split
    | (clear_value *; split)
    | (with_reducible apply Moves.step; (with_reducible exact Moves.upd_host (by simp only [x]; split <;> rfl)); decide)

end Sys2Proof.Machine
end

