-- ==== Sys2Proof/Laws/FrameLowp.lean ====
section
/-! SUPPORT. What the functions of Machine/Lowp.lean may change. -/

set_option linter.unusedTactic false
set_option linter.unreachableTactic false
set_option linter.tactic.unusedName false

namespace Sys2Proof.Machine

open Sys2Proof.Laws Sys2Proof.Safety

theorem State.setTag_moves {s : State} {g : Nat} {t : Tag} :
    Moves [.lowp] s (State.setTag s g t) := by
  unfold State.setTag
  repeat' first
    | with_reducible apply Moves.refl
    | with_reducible assumption
    | (with_reducible apply Moves.step; (with_reducible apply Moves.upd_lowp); decide)

theorem State.takeGranules_moves {s : State} {g : Nat} {t : Tag} {a0 : Nat} :
    Moves [.lossCounts, .regs, .mem, .poison, .lowp] s (State.takeGranules s g t a0) := by
  unfold State.takeGranules
  repeat' first
    | with_reducible apply Moves.refl
    | with_reducible assumption
    | (extract_lets -useContext -merge -underBinder +onlyGivenNames x; with_reducible apply Moves.cut (x := x); pick_goal 2; dsimp only [x]; clear x; pick_goal 2; clear_value x; intro hx)
    | (extract_lets -useContext -merge -underBinder +onlyGivenNames x; skip)
    | (with_reducible apply Moves.step; (with_reducible first
        | apply State.dropRange_moves | apply State.setTag_moves | apply State.bump64_moves); decide)

theorem State.grantTag_moves {s : State} {g : Nat} : Moves [.lossCounts, .regs, .mem, .poison, .lowp] s (s.grantTag g) := by
  unfold State.grantTag
  extract_lets -merge -underBinder +onlyGivenNames t
  cases s.residualRun t.need with
  | none => exact Moves.step State.setTag_moves (by decide) (Moves.refl _ _)
  | some a => exact Moves.step State.takeGranules_moves (by decide) (Moves.refl _ _)

theorem State.closeSums_moves {s : State} :
    Moves [.lowp] s (State.closeSums s) := by
  unfold State.closeSums
  repeat' first
    | with_reducible apply Moves.refl
    | with_reducible assumption
    | (with_reducible apply Moves.step; (with_reducible apply Moves.upd_lowp); decide)

theorem State.refreshTags_moves {s : State} {sums : Tab Counts} {table : List (Nat × Watch)} :
    Moves [.lowp] s (State.refreshTags s sums table) := by
  unfold State.refreshTags
  repeat' first
    | with_reducible apply Moves.refl
    | with_reducible assumption
    | (extract_lets -useContext -merge -underBinder +onlyGivenNames x; with_reducible apply Moves.cut (x := x); pick_goal 2; dsimp only [x]; clear x; pick_goal 2; clear_value x; intro hx)
    | (extract_lets -useContext -merge -underBinder +onlyGivenNames x; skip)
    | with_reducible apply Moves.ite
    | (with_reducible apply Moves.foldl; intro _ _ _)
    | split
    | (clear_value *; split)
    | (with_reducible apply Moves.step; (with_reducible apply Moves.upd_lowp); decide)

theorem State.writeTags_moves {s : State} :
    Moves (logged [.regs, .mem, .poison, .dunes]) s (State.writeTags s) := by
  unfold State.writeTags
  repeat' first
    | with_reducible apply Moves.refl
    | with_reducible assumption
    | with_reducible apply Moves.ite
    | (with_reducible apply Moves.step; (with_reducible first
        | apply State.write_moves); decide)
    | split

theorem State.countCommitted_moves {s : State} :
    Moves [.tasks, .lowp] s (State.countCommitted s) := by
  unfold State.countCommitted
  repeat' first
    | with_reducible apply Moves.refl
    | with_reducible assumption
    | (with_reducible apply Moves.step; (with_reducible first
        | apply State.countEvents_moves | apply State.setTask_moves); decide)
    | (with_reducible apply Moves.foldl; intro _ _ _)

theorem State.evaluate_moves {s : State} :
    Moves (logged [.regs, .mem, .poison, .tasks, .dunes, .lowp]) s (State.evaluate s) := by
  unfold State.evaluate
  repeat' first
    | with_reducible apply Moves.refl
    | with_reducible assumption
    | (extract_lets -useContext -merge -underBinder +onlyGivenNames x; with_reducible apply Moves.cut (x := x); pick_goal 2; dsimp only [x]; clear x; pick_goal 2; clear_value x; intro hx)
    | (extract_lets -useContext -merge -underBinder +onlyGivenNames x; skip)
    | (with_reducible apply Moves.step; (with_reducible first
        | apply State.countNarrow_moves | apply State.grantTag_moves | apply State.closeSums_moves
        | apply State.refreshTags_moves | apply State.writeTags_moves | apply State.countCommitted_moves
        | apply State.emitUnit_moves); decide)
    | (with_reducible apply Moves.foldl; intro _ _ _)

theorem execLowpEvalStart_ends {req : Requester} {s : State} :
    Ends (logged [.regs, .mem, .poison, .tasks, .dunes, .lowp]) s (execLowpEvalStart req s) := by
  unfold execLowpEvalStart
  repeat' first
    | with_reducible apply Moves.refl
    | with_reducible assumption
    | with_reducible apply Ends.next
    | with_reducible apply Moves.ite
    | with_reducible apply Ends.ite
    | (with_reducible apply State.onReg_moves; decide; intro _ _)
    | (with_reducible apply Moves.step; (with_reducible first
        | apply State.takeReg_moves | apply State.evaluate_moves | apply State.logRefused_moves); decide)
    | split

theorem execLowpEvalComplete_ends {s : State} :
    Ends (logged [.regs, .crews, .tasks, .lowp]) s (execLowpEvalComplete s) := by
  unfold execLowpEvalComplete
  repeat' first
    | with_reducible apply Moves.refl
    | with_reducible assumption
    | with_reducible apply Ends.next
    | (extract_lets -useContext -merge -underBinder +onlyGivenNames x; with_reducible apply Moves.cut (x := x); pick_goal 2; dsimp only [x]; clear x; pick_goal 2; clear_value x; intro hx)
    | (extract_lets -useContext -merge -underBinder +onlyGivenNames x; with_reducible apply Ends.cut (x := x); pick_goal 2; dsimp only [x]; clear x; pick_goal 2; clear_value x; intro hx)
    | (extract_lets -useContext -merge -underBinder +onlyGivenNames x; skip)
    | with_reducible apply Moves.ite
    | with_reducible apply Ends.ite
    | (with_reducible apply Moves.step; (with_reducible first
        | apply State.rewake_moves | apply State.setReg_moves | apply State.setFld_moves | apply State.bump_moves
        | apply State.stick_moves | apply State.raiseReg_moves | apply State.emitUnit_moves); decide)
    | split
    | (clear_value *; split)
    | (with_reducible apply Moves.step; (with_reducible apply Moves.upd_lowp); decide)

end Sys2Proof.Machine
end

