-- ==== Sys2Proof/Laws/FrameMailbox.lean ====
section
/-! SUPPORT. What the functions of Machine/Mailbox.lean may change. -/

set_option linter.unusedTactic false
set_option linter.unreachableTactic false
set_option linter.tactic.unusedName false

namespace Sys2Proof.Machine

open Sys2Proof.Laws Sys2Proof.Safety

theorem State.cmdDevInfo_snd {s : State} :
    Moves [] s (State.cmdDevInfo s).2.2 := by
  unfold State.cmdDevInfo
  repeat' first
    | with_reducible apply Moves.refl
    | with_reducible assumption
    | (with_reducible apply Moves.of_pair; assumption)
    | (with_reducible apply Moves.of_reply; assumption)

theorem State.cmdDevInfo_moves {s : State} {st : Status} {o : List Byte} {t : State} (h : State.cmdDevInfo s = (st, o, t)) :
    Moves [] s t := by
  have k := State.cmdDevInfo_snd (s := s)
  rw [h] at k
  exact k

theorem State.cmdDevStatus_snd {s : State} :
    Moves [] s (State.cmdDevStatus s).2.2 := by
  unfold State.cmdDevStatus
  repeat' first
    | with_reducible apply Moves.refl
    | with_reducible assumption
    | (with_reducible apply Moves.of_pair; assumption)
    | (with_reducible apply Moves.of_reply; assumption)

theorem State.cmdDevStatus_moves {s : State} {st : Status} {o : List Byte} {t : State} (h : State.cmdDevStatus s = (st, o, t)) :
    Moves [] s t := by
  have k := State.cmdDevStatus_snd (s := s)
  rw [h] at k
  exact k

theorem State.cmdCapRead_snd {s : State} {p : List Byte} :
    Moves [] s (State.cmdCapRead s p).2.2 := by
  unfold State.cmdCapRead
  repeat' first
    | with_reducible apply Moves.refl
    | with_reducible assumption
    | (with_reducible apply Moves.of_pair; assumption)
    | (with_reducible apply Moves.of_reply; assumption)

theorem State.cmdCapRead_moves {s : State} {p : List Byte} {st : Status} {o : List Byte} {t : State} (h : State.cmdCapRead s p = (st, o, t)) :
    Moves [] s t := by
  have k := State.cmdCapRead_snd (s := s) (p := p)
  rw [h] at k
  exact k

theorem State.cmdDevRun_snd {s : State} :
    Moves (logged [.dev]) s (State.cmdDevRun s).2.2 := by
  unfold State.cmdDevRun
  repeat' first
    | with_reducible apply Moves.refl
    | with_reducible assumption
    | (with_reducible apply Moves.step; (with_reducible first
        | apply State.setDev_moves); decide)

theorem State.cmdDevRun_moves {s : State} {st : Status} {o : List Byte} {t : State} (h : State.cmdDevRun s = (st, o, t)) :
    Moves (logged [.dev]) s t := by
  have k := State.cmdDevRun_snd (s := s)
  rw [h] at k
  exact k

theorem State.abandon_moves {s : State} :
    Moves (logged [.fresh, .regs, .mem, .poison, .sculls, .crews, .ergs, .ctrs, .tasks, .rings, .dunes, .tier, .kv, .lowp, .sched]) s (State.abandon s) := by
  unfold State.abandon
  repeat' first
    | with_reducible apply Moves.refl
    | with_reducible assumption
    | (extract_lets -useContext -merge -underBinder +onlyGivenNames x; with_reducible apply Moves.cut (x := x); pick_goal 2; dsimp only [x]; clear x; pick_goal 2; clear_value x; intro hx)
    | (extract_lets -useContext -merge -underBinder +onlyGivenNames x; skip)
    | (with_reducible apply Moves.step; (with_reducible first
        | apply State.doneTask_moves); decide)
    | (with_reducible apply Moves.foldl; intro _ _ _)
    | split
    | (clear_value *; split)

theorem State.cmdDevQuiesce_snd {s : State} {p : List Byte} :
    Moves (logged [.fresh, .dev, .regs, .mem, .poison, .sculls, .crews, .ergs, .ctrs, .tasks, .rings, .dunes, .tier, .kv, .lowp, .sched]) s (State.cmdDevQuiesce s p).2.2 := by
  unfold State.cmdDevQuiesce
  repeat' first
    | with_reducible apply Moves.refl
    | with_reducible assumption
    | (extract_lets -useContext -merge -underBinder +onlyGivenNames x; with_reducible apply Moves.cut (x := x); pick_goal 2; dsimp only [x]; clear x; pick_goal 2; clear_value x; intro hx)
    | (extract_lets -useContext -merge -underBinder +onlyGivenNames x; skip)
    | with_reducible apply Moves.ite
    | (with_reducible apply Moves.step; (with_reducible first
        | apply State.flushWcb_moves | apply State.abandon_moves | apply State.setDev_moves); decide)
    | (with_reducible apply Moves.foldl; intro _ _ _)
    | (with_reducible apply Moves.of_pair; assumption)
    | (with_reducible apply Moves.of_reply; assumption)
    | split
    | (clear_value *; split)

theorem State.cmdDevQuiesce_moves {s : State} {p : List Byte} {st : Status} {o : List Byte} {t : State} (h : State.cmdDevQuiesce s p = (st, o, t)) :
    Moves (logged [.fresh, .dev, .regs, .mem, .poison, .sculls, .crews, .ergs, .ctrs, .tasks, .rings, .dunes, .tier, .kv, .lowp, .sched]) s t := by
  have k := State.cmdDevQuiesce_snd (s := s) (p := p)
  rw [h] at k
  exact k

theorem State.cmdDevConfig_snd {s : State} :
    Moves (logged [.dev]) s (State.cmdDevConfig s).2.2 := by
  unfold State.cmdDevConfig
  repeat' first
    | with_reducible apply Moves.refl
    | with_reducible assumption
    | (with_reducible apply Moves.step; (with_reducible first
        | apply State.setDev_moves); decide)

theorem State.cmdDevConfig_moves {s : State} {st : Status} {o : List Byte} {t : State} (h : State.cmdDevConfig s = (st, o, t)) :
    Moves (logged [.dev]) s t := by
  have k := State.cmdDevConfig_snd (s := s)
  rw [h] at k
  exact k

theorem State.cmdDevRestart_snd {s : State} {p : List Byte} :
    Moves [.start] s (State.cmdDevRestart s p).2.2 := by
  unfold State.cmdDevRestart
  repeat' first
    | with_reducible apply Moves.refl
    | with_reducible assumption
    | with_reducible apply Moves.ite
    | (with_reducible apply Moves.step; (with_reducible first
        | apply State.delayStart_moves); decide)
    | (with_reducible apply Moves.of_pair; assumption)
    | (with_reducible apply Moves.of_reply; assumption)
    | split

theorem State.cmdDevRestart_moves {s : State} {p : List Byte} {st : Status} {o : List Byte} {t : State} (h : State.cmdDevRestart s p = (st, o, t)) :
    Moves [.start] s t := by
  have k := State.cmdDevRestart_snd (s := s) (p := p)
  rw [h] at k
  exact k

theorem State.cmdPwrGet_snd {s : State} :
    Moves [] s (State.cmdPwrGet s).2.2 := by
  unfold State.cmdPwrGet
  repeat' first
    | with_reducible apply Moves.refl
    | with_reducible assumption
    | (with_reducible apply Moves.of_pair; assumption)
    | (with_reducible apply Moves.of_reply; assumption)

theorem State.cmdPwrGet_moves {s : State} {st : Status} {o : List Byte} {t : State} (h : State.cmdPwrGet s = (st, o, t)) :
    Moves [] s t := by
  have k := State.cmdPwrGet_snd (s := s)
  rw [h] at k
  exact k

theorem State.cmdPwrCapSet_snd {s : State} {m : Nat} {p : List Byte} {interrupted : Bool} :
    Moves (logged [.fresh, .start, .life, .nv, .regs, .guards, .mem, .poison, .sculls, .crews, .ergs, .ctrs, .tasks, .rings, .dunes, .tier, .kv, .lowp, .ports, .rigger, .colls, .peers, .sched, .pwr]) s (State.cmdPwrCapSet s m p interrupted).2.2 := by
  unfold State.cmdPwrCapSet
  repeat' first
    | with_reducible apply Moves.refl
    | with_reducible assumption
    | (extract_lets -useContext -merge -underBinder +onlyGivenNames x; with_reducible apply Moves.cut (x := x); pick_goal 2; dsimp only [x]; clear x; pick_goal 2; clear_value x; intro hx)
    | (extract_lets -useContext -merge -underBinder +onlyGivenNames x; skip)
    | with_reducible apply Moves.ite
    | (with_reducible apply Moves.step; (with_reducible first
        | apply State.guardMismatch_moves | apply State.guardArm_moves | apply State.guardCommit_moves); decide)
    | (with_reducible apply Moves.of_pair; assumption)
    | (with_reducible apply Moves.of_reply; assumption)
    | split
    | (clear_value *; split)

theorem State.cmdPwrCapSet_moves {s : State} {m : Nat} {p : List Byte} {interrupted : Bool} {st : Status} {o : List Byte} {t : State} (h : State.cmdPwrCapSet s m p interrupted = (st, o, t)) :
    Moves (logged [.fresh, .start, .life, .nv, .regs, .guards, .mem, .poison, .sculls, .crews, .ergs, .ctrs, .tasks, .rings, .dunes, .tier, .kv, .lowp, .ports, .rigger, .colls, .peers, .sched, .pwr]) s t := by
  have k := State.cmdPwrCapSet_snd (s := s) (m := m) (p := p) (interrupted := interrupted)
  rw [h] at k
  exact k

theorem State.cmdLogInfo_snd {s : State} :
    Moves [] s (State.cmdLogInfo s).2.2 := by
  unfold State.cmdLogInfo
  repeat' first
    | with_reducible apply Moves.refl
    | with_reducible assumption
    | (with_reducible apply Moves.of_pair; assumption)
    | (with_reducible apply Moves.of_reply; assumption)

theorem State.cmdLogInfo_moves {s : State} {st : Status} {o : List Byte} {t : State} (h : State.cmdLogInfo s = (st, o, t)) :
    Moves [] s t := by
  have k := State.cmdLogInfo_snd (s := s)
  rw [h] at k
  exact k

theorem State.cmdLogRead_snd {s : State} {p : List Byte} :
    Moves [.log] s (State.cmdLogRead s p).2.2 := by
  unfold State.cmdLogRead
  repeat' first
    | with_reducible apply Moves.refl
    | with_reducible assumption
    | (extract_lets -useContext -merge -underBinder +onlyGivenNames x; with_reducible apply Moves.cut (x := x); pick_goal 2; dsimp only [x]; clear x; pick_goal 2; clear_value x; intro hx)
    | (extract_lets -useContext -merge -underBinder +onlyGivenNames x; skip)
    | (with_reducible apply Moves.foldl; intro _ _ _)
    | (with_reducible apply Moves.foldl_snd; intro _ _ _)
    | (with_reducible apply Moves.step; (with_reducible apply Moves.upd_log); decide)

theorem State.cmdLogRead_moves {s : State} {p : List Byte} {st : Status} {o : List Byte} {t : State} (h : State.cmdLogRead s p = (st, o, t)) :
    Moves [.log] s t := by
  have k := State.cmdLogRead_snd (s := s) (p := p)
  rw [h] at k
  exact k

theorem State.cmdSensorRead_snd {s : State} {p : List Byte} :
    Moves [] s (State.cmdSensorRead s p).2.2 := by
  unfold State.cmdSensorRead
  repeat' first
    | with_reducible apply Moves.refl
    | with_reducible assumption
    | (extract_lets -useContext -merge -underBinder +onlyGivenNames x; with_reducible apply Moves.cut (x := x); pick_goal 2; dsimp only [x]; clear x; pick_goal 2; clear_value x; intro hx)
    | (extract_lets -useContext -merge -underBinder +onlyGivenNames x; skip)
    | with_reducible apply Moves.ite
    | (with_reducible apply Moves.of_pair; assumption)
    | (with_reducible apply Moves.of_reply; assumption)
    | split
    | (clear_value *; split)

theorem State.cmdSensorRead_moves {s : State} {p : List Byte} {st : Status} {o : List Byte} {t : State} (h : State.cmdSensorRead s p = (st, o, t)) :
    Moves [] s t := by
  have k := State.cmdSensorRead_snd (s := s) (p := p)
  rw [h] at k
  exact k

theorem State.cmdFwInfo_snd {s : State} :
    Moves [] s (State.cmdFwInfo s).2.2 := by
  unfold State.cmdFwInfo
  repeat' first
    | with_reducible apply Moves.refl
    | with_reducible assumption
    | with_reducible apply Moves.ite
    | (with_reducible apply Moves.of_pair; assumption)
    | (with_reducible apply Moves.of_reply; assumption)
    | split

theorem State.cmdFwInfo_moves {s : State} {st : Status} {o : List Byte} {t : State} (h : State.cmdFwInfo s = (st, o, t)) :
    Moves [] s t := by
  have k := State.cmdFwInfo_snd (s := s)
  rw [h] at k
  exact k

theorem State.cmdFwStage_snd {s : State} {p : List Byte} :
    Moves [.nv] s (State.cmdFwStage s p).2.2 := by
  unfold State.cmdFwStage
  repeat' first
    | with_reducible apply Moves.refl
    | with_reducible assumption
    | (extract_lets -useContext -merge -underBinder +onlyGivenNames x; with_reducible apply Moves.cut (x := x); pick_goal 2; dsimp only [x]; clear x; pick_goal 2; clear_value x; intro hx)
    | (extract_lets -useContext -merge -underBinder +onlyGivenNames x; skip)
    | (with_reducible apply Moves.step; (with_reducible exact Moves.upd_nv rfl rfl rfl rfl rfl le_rfl le_rfl (fun _ h => h) (fun _ h => h)); decide)

theorem State.cmdFwStage_moves {s : State} {p : List Byte} {st : Status} {o : List Byte} {t : State} (h : State.cmdFwStage s p = (st, o, t)) :
    Moves [.nv] s t := by
  have k := State.cmdFwStage_snd (s := s) (p := p)
  rw [h] at k
  exact k

theorem State.cmdFwActivate_snd {s : State} {p : List Byte} :
    Moves (logged [.start, .nv, .regs]) s (State.cmdFwActivate s p).2.2 := by
  unfold State.cmdFwActivate
  repeat' first
    | with_reducible apply Moves.refl
    | with_reducible assumption
    | (extract_lets -useContext -merge -underBinder +onlyGivenNames x; with_reducible apply Moves.cut (x := x); pick_goal 2; dsimp only [x]; clear x; pick_goal 2; clear_value x; intro hx)
    | (extract_lets -useContext -merge -underBinder +onlyGivenNames x; skip)
    | with_reducible apply Moves.ite
    | (with_reducible apply Moves.step; (with_reducible first
        | apply State.secFail_moves | apply State.delayStart_moves); decide)
    | split
    | (clear_value *; split)
    | (with_reducible apply Moves.step; (with_reducible exact Moves.upd_nv_start rfl rfl rfl rfl rfl le_rfl le_rfl (fun _ h => h) (fun _ h => h) rfl); decide)
    | (with_reducible apply Moves.step; (with_reducible exact Moves.upd_nv rfl rfl rfl rfl rfl le_rfl le_rfl (fun _ h => h) (fun _ h => h)); decide)
    | (with_reducible apply Moves.step; (with_reducible exact Moves.upd_start rfl); decide)

theorem State.cmdFwActivate_moves {s : State} {p : List Byte} {st : Status} {o : List Byte} {t : State} (h : State.cmdFwActivate s p = (st, o, t)) :
    Moves (logged [.start, .nv, .regs]) s t := by
  have k := State.cmdFwActivate_snd (s := s) (p := p)
  rw [h] at k
  exact k

theorem State.cmdAttestQuote_snd {s : State} {p : List Byte} :
    Moves (logged [.sec, .regs]) s (State.cmdAttestQuote s p).2.2 := by
  unfold State.cmdAttestQuote
  repeat' first
    | with_reducible apply Moves.refl
    | with_reducible assumption
    | (with_reducible apply Moves.step; (with_reducible first
        | apply State.secRefused_moves | (apply State.quote_moves; assumption)); decide)
    | (with_reducible apply Moves.of_pair; assumption)
    | (with_reducible apply Moves.of_reply; assumption)
    | split

theorem State.cmdAttestQuote_moves {s : State} {p : List Byte} {st : Status} {o : List Byte} {t : State} (h : State.cmdAttestQuote s p = (st, o, t)) :
    Moves (logged [.sec, .regs]) s t := by
  have k := State.cmdAttestQuote_snd (s := s) (p := p)
  rw [h] at k
  exact k

theorem State.cmdCertRead_snd {s : State} {p : List Byte} :
    Moves [] s (State.cmdCertRead s p).2.2 := by
  unfold State.cmdCertRead
  repeat' first
    | with_reducible apply Moves.refl
    | with_reducible assumption
    | (extract_lets -useContext -merge -underBinder +onlyGivenNames x; with_reducible apply Moves.cut (x := x); pick_goal 2; dsimp only [x]; clear x; pick_goal 2; clear_value x; intro hx)
    | (extract_lets -useContext -merge -underBinder +onlyGivenNames x; skip)
    | with_reducible apply Moves.ite
    | (with_reducible apply Moves.of_pair; assumption)
    | (with_reducible apply Moves.of_reply; assumption)
    | split
    | (clear_value *; split)

theorem State.cmdCertRead_moves {s : State} {p : List Byte} {st : Status} {o : List Byte} {t : State} (h : State.cmdCertRead s p = (st, o, t)) :
    Moves [] s t := by
  have k := State.cmdCertRead_snd (s := s) (p := p)
  rw [h] at k
  exact k

theorem State.cmdLcTransition_snd {s : State} {m : Nat} {p : List Byte} :
    Moves (logged [.fresh, .start, .life, .nv, .regs, .guards, .mem, .poison, .sculls, .crews, .ergs, .ctrs, .tasks, .rings, .dunes, .tier, .kv, .lowp, .ports, .rigger, .colls, .peers, .sched, .pwr]) s (State.cmdLcTransition s m p).2.2 := by
  unfold State.cmdLcTransition
  repeat' first
    | with_reducible apply Moves.refl
    | with_reducible assumption
    | (extract_lets -useContext -merge -underBinder +onlyGivenNames x; with_reducible apply Moves.cut (x := x); pick_goal 2; dsimp only [x]; clear x; pick_goal 2; clear_value x; intro hx)
    | (extract_lets -useContext -merge -underBinder +onlyGivenNames x; skip)
    | with_reducible apply Moves.ite
    | (with_reducible apply Moves.step; (with_reducible first
        | apply State.guardArm_moves | apply State.guardCommit_moves | apply State.secFail_moves
        | apply State.persistLog_moves | apply State.emit_moves | apply State.delayStart_moves); decide)
    | split
    | (clear_value *; split)
    | (with_reducible apply Moves.step; (with_reducible exact Moves.upd_nv_log rfl rfl rfl rfl rfl le_rfl le_rfl (fun _ h => h) (fun _ h => h)); decide)
    | (with_reducible apply Moves.step; (with_reducible apply Moves.upd_log); decide)
    | (with_reducible apply Moves.step; (with_reducible exact Moves.upd_nv rfl rfl rfl rfl rfl le_rfl le_rfl (fun _ h => h) (fun _ h => h)); decide)

theorem State.cmdLcTransition_moves {s : State} {m : Nat} {p : List Byte} {st : Status} {o : List Byte} {t : State} (h : State.cmdLcTransition s m p = (st, o, t)) :
    Moves (logged [.fresh, .start, .life, .nv, .regs, .guards, .mem, .poison, .sculls, .crews, .ergs, .ctrs, .tasks, .rings, .dunes, .tier, .kv, .lowp, .ports, .rigger, .colls, .peers, .sched, .pwr]) s t := by
  have k := State.cmdLcTransition_snd (s := s) (m := m) (p := p)
  rw [h] at k
  exact k

theorem State.cmdCairnRegister_snd {s : State} {p : List Byte} {host : List Cell} :
    Moves [.mem, .cairn] s (State.cmdCairnRegister s p host).2.2 := by
  unfold State.cmdCairnRegister
  repeat' first
    | with_reducible apply Moves.refl
    | with_reducible assumption
    | with_reducible apply Moves.ite
    | (with_reducible apply Moves.step; (with_reducible first
        | apply State.cairnAccept_moves); decide)
    | (with_reducible apply Moves.of_pair; assumption)
    | (with_reducible apply Moves.of_reply; assumption)
    | split

theorem State.cmdCairnRegister_moves {s : State} {p : List Byte} {host : List Cell} {st : Status} {o : List Byte} {t : State} (h : State.cmdCairnRegister s p host = (st, o, t)) :
    Moves [.mem, .cairn] s t := by
  have k := State.cmdCairnRegister_snd (s := s) (p := p) (host := host)
  rw [h] at k
  exact k

theorem State.cmdCairnTake_snd {s : State} {p : List Byte} :
    Moves (logged [.regs, .mem, .poison, .crews, .tasks, .dunes, .cairn]) s (State.cmdCairnTake s p).2.2 := by
  unfold State.cmdCairnTake
  repeat' first
    | with_reducible apply Moves.refl
    | with_reducible assumption
    | (extract_lets -useContext -merge -underBinder +onlyGivenNames x; with_reducible apply Moves.cut (x := x); pick_goal 2; dsimp only [x]; clear x; pick_goal 2; clear_value x; intro hx)
    | (extract_lets -useContext -merge -underBinder +onlyGivenNames x; skip)
    | with_reducible apply Moves.ite
    | (with_reducible apply Moves.step; (with_reducible first
        | apply State.cairnGrant_moves | apply State.cairnStarted_moves); decide)
    | (with_reducible apply Moves.of_pair; assumption)
    | (with_reducible apply Moves.of_reply; assumption)
    | split
    | (clear_value *; split)

theorem State.cmdCairnTake_moves {s : State} {p : List Byte} {st : Status} {o : List Byte} {t : State} (h : State.cmdCairnTake s p = (st, o, t)) :
    Moves (logged [.regs, .mem, .poison, .crews, .tasks, .dunes, .cairn]) s t := by
  have k := State.cmdCairnTake_snd (s := s) (p := p)
  rw [h] at k
  exact k

theorem State.beginRestore_moves {s : State} {m : Nat} {p : List Byte} :
    Moves [.stateMb, .cairn] s (State.beginRestore s m p) := by
  unfold State.beginRestore
  repeat' first
    | with_reducible apply Moves.refl
    | with_reducible assumption
    | (with_reducible apply Moves.step; (with_reducible apply Moves.upd_cairn_stateMb); decide)
    | (with_reducible apply Moves.step; (with_reducible apply Moves.upd_cairn); decide)
    | (with_reducible apply Moves.step; (with_reducible apply Moves.upd_stateMb); decide)

theorem State.cmdCairnStatus_snd {s : State} :
    Moves [] s (State.cmdCairnStatus s).2.2 := by
  unfold State.cmdCairnStatus
  repeat' first
    | with_reducible apply Moves.refl
    | with_reducible assumption
    | (extract_lets -useContext -merge -underBinder +onlyGivenNames x; with_reducible apply Moves.cut (x := x); pick_goal 2; dsimp only [x]; clear x; pick_goal 2; clear_value x; intro hx)
    | (extract_lets -useContext -merge -underBinder +onlyGivenNames x; skip)
    | (with_reducible apply Moves.of_pair; assumption)
    | (with_reducible apply Moves.of_reply; assumption)

theorem State.cmdCairnStatus_moves {s : State} {st : Status} {o : List Byte} {t : State} (h : State.cmdCairnStatus s = (st, o, t)) :
    Moves [] s t := by
  have k := State.cmdCairnStatus_snd (s := s)
  rw [h] at k
  exact k

theorem State.work_snd {s : State} {m : Nat} {op : Nat} {p : List Byte} {interrupted : Bool} {host : List Cell} :
    Moves (allBut [.queue, .power, .pwrGood, .etc, .timer, .fault, .ident, .crash, .staged5, .staged3, .seeded, .holding, .lastRing, .mbs, .stateMb, .mbQueue, .wakes, .host, .islands, .flashGone]) s (State.work s m op p interrupted host).2.2 := by
  unfold State.work
  repeat' first
    | with_reducible apply Moves.refl
    | with_reducible assumption
    | (with_reducible apply Moves.step; (with_reducible first
        | apply State.cmdDevInfo_snd | apply State.cmdDevStatus_snd | apply State.cmdCapRead_snd
        | apply State.cmdDevRun_snd | apply State.cmdDevQuiesce_snd | apply State.cmdDevConfig_snd
        | apply State.cmdDevRestart_snd | apply State.cmdPwrGet_snd | apply State.cmdPwrCapSet_snd
        | apply State.cmdLogInfo_snd | apply State.cmdLogRead_snd | apply State.cmdSensorRead_snd
        | apply State.cmdFwInfo_snd | apply State.cmdFwStage_snd | apply State.cmdFwActivate_snd
        | apply State.cmdAttestQuote_snd | apply State.cmdCertRead_snd | apply State.cmdLcTransition_snd
        | apply State.cmdCairnRegister_snd | apply State.cmdCairnTake_snd | apply State.cmdCairnStatus_snd); decide)
    | split

theorem State.work_moves {s : State} {m : Nat} {op : Nat} {p : List Byte} {interrupted : Bool} {host : List Cell} {st : Status} {o : List Byte} {t : State} (h : State.work s m op p interrupted host = (st, o, t)) :
    Moves (allBut [.queue, .power, .pwrGood, .etc, .timer, .fault, .ident, .crash, .staged5, .staged3, .seeded, .holding, .lastRing, .mbs, .stateMb, .mbQueue, .wakes, .host, .islands, .flashGone]) s t := by
  have k := State.work_snd (s := s) (m := m) (op := op) (p := p) (interrupted := interrupted) (host := host)
  rw [h] at k
  exact k

theorem State.runCmd_moves {s : State} {m : Nat} {op : Nat} {p : List Byte} {interrupted : Bool} {host : List Cell} :
    Moves (allBut [.queue, .power, .pwrGood, .etc, .timer, .fault, .ident, .crash, .staged5, .staged3, .seeded, .holding, .lastRing, .mbQueue, .wakes, .host, .islands, .flashGone]) s (State.runCmd s m op p interrupted host) := by
  unfold State.runCmd
  repeat' first
    | with_reducible apply Moves.refl
    | with_reducible assumption
    | (extract_lets -useContext -merge -underBinder +onlyGivenNames x; with_reducible apply Moves.cut (x := x); pick_goal 2; dsimp only [x]; clear x; pick_goal 2; clear_value x; intro hx)
    | (extract_lets -useContext -merge -underBinder +onlyGivenNames x; skip)
    | with_reducible apply Moves.ite
    | (with_reducible apply Moves.step; (with_reducible first
        | apply State.endCmd_moves | apply State.beginRestore_moves | apply State.work_snd); decide)
    | split
    | (clear_value *; split)

theorem State.drainCmds_moves {s : State} {x1 : Nat} :
    Moves (allBut [.queue, .power, .pwrGood, .etc, .timer, .fault, .ident, .crash, .staged5, .staged3, .seeded, .holding, .lastRing, .wakes, .host, .islands, .flashGone]) s (State.drainCmds s x1) := by
  induction x1 generalizing s with
  | zero => exact Moves.refl _ _
  | succ n ih =>
    unfold State.drainCmds
    repeat' first
      | with_reducible apply Moves.refl
      | with_reducible assumption
      | (extract_lets -useContext -merge -underBinder +onlyGivenNames x; with_reducible apply Moves.cut (x := x); pick_goal 2; dsimp only [x]; clear x; pick_goal 2; clear_value x; intro hx)
      | (extract_lets -useContext -merge -underBinder +onlyGivenNames x; skip)
      | (with_reducible apply Moves.step; (with_reducible first
        | apply State.runCmd_moves | apply ih); decide)
      | split
      | (clear_value *; split)
      | (with_reducible apply Moves.step; (with_reducible apply Moves.upd_mbQueue); decide)

theorem State.ringMb_moves {s : State} {m : Nat} {id : BitVec 16} {interrupted : Bool} {host : List Cell} :
    Moves (allBut [.queue, .power, .pwrGood, .etc, .timer, .fault, .ident, .crash, .staged5, .staged3, .seeded, .holding, .lastRing, .wakes, .host, .islands, .flashGone]) s (State.ringMb s m id interrupted host) := by
  unfold State.ringMb
  repeat' first
    | with_reducible apply Moves.refl
    | with_reducible assumption
    | (extract_lets -useContext -merge -underBinder +onlyGivenNames x; with_reducible apply Moves.cut (x := x); pick_goal 2; dsimp only [x]; clear x; pick_goal 2; clear_value x; intro hx)
    | (extract_lets -useContext -merge -underBinder +onlyGivenNames x; skip)
    | with_reducible apply Moves.ite
    | (with_reducible apply Moves.step; (with_reducible first
        | apply State.endCmd_moves | apply State.runCmd_moves | apply State.drainCmds_moves | apply State.bump_moves
        | apply State.setMb_moves); decide)
    | (with_reducible apply Moves.of_pair; assumption)
    | (with_reducible apply Moves.of_reply; assumption)
    | split
    | (clear_value *; split)
    | (with_reducible apply Moves.step; (with_reducible apply Moves.upd_mbQueue); decide)

theorem State.fillMb_moves {s : State} {m : Nat} {o : Nat} {bs : List Byte} :
    Moves [.mbs] s (State.fillMb s m o bs) := by
  unfold State.fillMb
  repeat' first
    | with_reducible apply Moves.refl
    | with_reducible assumption
    | (extract_lets -useContext -merge -underBinder +onlyGivenNames x; with_reducible apply Moves.cut (x := x); pick_goal 2; dsimp only [x]; clear x; pick_goal 2; clear_value x; intro hx)
    | (extract_lets -useContext -merge -underBinder +onlyGivenNames x; skip)
    | with_reducible apply Moves.ite
    | (with_reducible apply Moves.step; (with_reducible first
        | apply State.setMb_moves); decide)
    | (with_reducible apply Moves.foldl; intro _ _ _)
    | split
    | (clear_value *; split)

theorem State.submit_moves {s : State} {op : Nat} {c : MbCmd} {interrupted : Bool} {host : List Cell} :
    Moves (allBut [.queue, .power, .pwrGood, .etc, .timer, .fault, .ident, .crash, .staged5, .staged3, .seeded, .holding, .lastRing, .wakes, .host, .islands, .flashGone]) s (State.submit s op c interrupted host) := by
  unfold State.submit
  repeat' first
    | with_reducible apply Moves.refl
    | with_reducible assumption
    | (extract_lets -useContext -merge -underBinder +onlyGivenNames x; with_reducible apply Moves.cut (x := x); pick_goal 2; dsimp only [x]; clear x; pick_goal 2; clear_value x; intro hx)
    | (extract_lets -useContext -merge -underBinder +onlyGivenNames x; skip)
    | with_reducible apply Moves.ite
    | (with_reducible apply State.onReg_moves; decide; intro _ _)
    | (with_reducible apply Moves.step; (with_reducible first
        | apply State.ringMb_moves | apply State.fillMb_moves); decide)
    | split
    | (clear_value *; split)

theorem execDevInfo_ends {c : MbCmd} {s : State} :
    Ends (allBut [.queue, .power, .pwrGood, .etc, .timer, .fault, .ident, .crash, .staged5, .staged3, .seeded, .holding, .lastRing, .wakes, .host, .islands, .flashGone]) s (execDevInfo c s) := by
  unfold execDevInfo
  repeat' first
    | with_reducible apply Moves.refl
    | with_reducible assumption
    | with_reducible apply Ends.next
    | (with_reducible apply Moves.step; (with_reducible first
        | apply State.submit_moves); decide)

theorem execDevStatus_ends {c : MbCmd} {s : State} :
    Ends (allBut [.queue, .power, .pwrGood, .etc, .timer, .fault, .ident, .crash, .staged5, .staged3, .seeded, .holding, .lastRing, .wakes, .host, .islands, .flashGone]) s (execDevStatus c s) := by
  unfold execDevStatus
  repeat' first
    | with_reducible apply Moves.refl
    | with_reducible assumption
    | with_reducible apply Ends.next
    | (with_reducible apply Moves.step; (with_reducible first
        | apply State.submit_moves); decide)

theorem execCapRead_ends {c : MbCmd} {s : State} :
    Ends (allBut [.queue, .power, .pwrGood, .etc, .timer, .fault, .ident, .crash, .staged5, .staged3, .seeded, .holding, .lastRing, .wakes, .host, .islands, .flashGone]) s (execCapRead c s) := by
  unfold execCapRead
  repeat' first
    | with_reducible apply Moves.refl
    | with_reducible assumption
    | with_reducible apply Ends.next
    | (with_reducible apply Moves.step; (with_reducible first
        | apply State.submit_moves); decide)

theorem execDevRun_ends {c : MbCmd} {s : State} :
    Ends (allBut [.queue, .power, .pwrGood, .etc, .timer, .fault, .ident, .crash, .staged5, .staged3, .seeded, .holding, .lastRing, .wakes, .host, .islands, .flashGone]) s (execDevRun c s) := by
  unfold execDevRun
  repeat' first
    | with_reducible apply Moves.refl
    | with_reducible assumption
    | with_reducible apply Ends.next
    | (with_reducible apply Moves.step; (with_reducible first
        | apply State.submit_moves); decide)

theorem execDevQuiesce_ends {c : MbCmd} {s : State} :
    Ends (allBut [.queue, .power, .pwrGood, .etc, .timer, .fault, .ident, .crash, .staged5, .staged3, .seeded, .holding, .lastRing, .wakes, .host, .islands, .flashGone]) s (execDevQuiesce c s) := by
  unfold execDevQuiesce
  repeat' first
    | with_reducible apply Moves.refl
    | with_reducible assumption
    | with_reducible apply Ends.next
    | (with_reducible apply Moves.step; (with_reducible first
        | apply State.submit_moves); decide)

theorem execDevConfig_ends {c : MbCmd} {s : State} :
    Ends (allBut [.queue, .power, .pwrGood, .etc, .timer, .fault, .ident, .crash, .staged5, .staged3, .seeded, .holding, .lastRing, .wakes, .host, .islands, .flashGone]) s (execDevConfig c s) := by
  unfold execDevConfig
  repeat' first
    | with_reducible apply Moves.refl
    | with_reducible assumption
    | with_reducible apply Ends.next
    | (with_reducible apply Moves.step; (with_reducible first
        | apply State.submit_moves); decide)

theorem execDevRestart_ends {c : MbCmd} {s : State} :
    Ends (allBut [.queue, .power, .pwrGood, .etc, .timer, .fault, .ident, .crash, .staged5, .staged3, .seeded, .holding, .lastRing, .wakes, .host, .islands, .flashGone]) s (execDevRestart c s) := by
  unfold execDevRestart
  repeat' first
    | with_reducible apply Moves.refl
    | with_reducible assumption
    | with_reducible apply Ends.next
    | (with_reducible apply Moves.step; (with_reducible first
        | apply State.submit_moves); decide)

theorem execPwrGet_ends {c : MbCmd} {s : State} :
    Ends (allBut [.queue, .power, .pwrGood, .etc, .timer, .fault, .ident, .crash, .staged5, .staged3, .seeded, .holding, .lastRing, .wakes, .host, .islands, .flashGone]) s (execPwrGet c s) := by
  unfold execPwrGet
  repeat' first
    | with_reducible apply Moves.refl
    | with_reducible assumption
    | with_reducible apply Ends.next
    | (with_reducible apply Moves.step; (with_reducible first
        | apply State.submit_moves); decide)

theorem execPwrCapSet_ends {c : MbCmd} {interrupted : Bool} {s : State} :
    Ends (allBut [.queue, .power, .pwrGood, .etc, .timer, .fault, .ident, .crash, .staged5, .staged3, .seeded, .holding, .lastRing, .wakes, .host, .islands, .flashGone]) s (execPwrCapSet c interrupted s) := by
  unfold execPwrCapSet
  repeat' first
    | with_reducible apply Moves.refl
    | with_reducible assumption
    | with_reducible apply Ends.next
    | (with_reducible apply Moves.step; (with_reducible first
        | apply State.submit_moves); decide)

theorem execLogInfo_ends {c : MbCmd} {s : State} :
    Ends (allBut [.queue, .power, .pwrGood, .etc, .timer, .fault, .ident, .crash, .staged5, .staged3, .seeded, .holding, .lastRing, .wakes, .host, .islands, .flashGone]) s (execLogInfo c s) := by
  unfold execLogInfo
  repeat' first
    | with_reducible apply Moves.refl
    | with_reducible assumption
    | with_reducible apply Ends.next
    | (with_reducible apply Moves.step; (with_reducible first
        | apply State.submit_moves); decide)

theorem execLogRead_ends {c : MbCmd} {s : State} :
    Ends (allBut [.queue, .power, .pwrGood, .etc, .timer, .fault, .ident, .crash, .staged5, .staged3, .seeded, .holding, .lastRing, .wakes, .host, .islands, .flashGone]) s (execLogRead c s) := by
  unfold execLogRead
  repeat' first
    | with_reducible apply Moves.refl
    | with_reducible assumption
    | with_reducible apply Ends.next
    | (with_reducible apply Moves.step; (with_reducible first
        | apply State.submit_moves); decide)

theorem execSensorRead_ends {c : MbCmd} {s : State} :
    Ends (allBut [.queue, .power, .pwrGood, .etc, .timer, .fault, .ident, .crash, .staged5, .staged3, .seeded, .holding, .lastRing, .wakes, .host, .islands, .flashGone]) s (execSensorRead c s) := by
  unfold execSensorRead
  repeat' first
    | with_reducible apply Moves.refl
    | with_reducible assumption
    | with_reducible apply Ends.next
    | (with_reducible apply Moves.step; (with_reducible first
        | apply State.submit_moves); decide)

theorem execFwInfo_ends {c : MbCmd} {s : State} :
    Ends (allBut [.queue, .power, .pwrGood, .etc, .timer, .fault, .ident, .crash, .staged5, .staged3, .seeded, .holding, .lastRing, .wakes, .host, .islands, .flashGone]) s (execFwInfo c s) := by
  unfold execFwInfo
  repeat' first
    | with_reducible apply Moves.refl
    | with_reducible assumption
    | with_reducible apply Ends.next
    | (with_reducible apply Moves.step; (with_reducible first
        | apply State.submit_moves); decide)

theorem execFwStage_ends {c : MbCmd} {s : State} :
    Ends (allBut [.queue, .power, .pwrGood, .etc, .timer, .fault, .ident, .crash, .staged5, .staged3, .seeded, .holding, .lastRing, .wakes, .host, .islands, .flashGone]) s (execFwStage c s) := by
  unfold execFwStage
  repeat' first
    | with_reducible apply Moves.refl
    | with_reducible assumption
    | with_reducible apply Ends.next
    | (with_reducible apply Moves.step; (with_reducible first
        | apply State.submit_moves); decide)

theorem execFwActivate_ends {c : MbCmd} {s : State} :
    Ends (allBut [.queue, .power, .pwrGood, .etc, .timer, .fault, .ident, .crash, .staged5, .staged3, .seeded, .holding, .lastRing, .wakes, .host, .islands, .flashGone]) s (execFwActivate c s) := by
  unfold execFwActivate
  repeat' first
    | with_reducible apply Moves.refl
    | with_reducible assumption
    | with_reducible apply Ends.next
    | (with_reducible apply Moves.step; (with_reducible first
        | apply State.submit_moves); decide)

theorem execAttestQuote_ends {c : MbCmd} {s : State} :
    Ends (allBut [.queue, .power, .pwrGood, .etc, .timer, .fault, .ident, .crash, .staged5, .staged3, .seeded, .holding, .lastRing, .wakes, .host, .islands, .flashGone]) s (execAttestQuote c s) := by
  unfold execAttestQuote
  repeat' first
    | with_reducible apply Moves.refl
    | with_reducible assumption
    | with_reducible apply Ends.next
    | (with_reducible apply Moves.step; (with_reducible first
        | apply State.submit_moves); decide)

theorem execCertRead_ends {c : MbCmd} {s : State} :
    Ends (allBut [.queue, .power, .pwrGood, .etc, .timer, .fault, .ident, .crash, .staged5, .staged3, .seeded, .holding, .lastRing, .wakes, .host, .islands, .flashGone]) s (execCertRead c s) := by
  unfold execCertRead
  repeat' first
    | with_reducible apply Moves.refl
    | with_reducible assumption
    | with_reducible apply Ends.next
    | (with_reducible apply Moves.step; (with_reducible first
        | apply State.submit_moves); decide)

theorem execLcTransition_ends {c : MbCmd} {s : State} :
    Ends (allBut [.queue, .power, .pwrGood, .etc, .timer, .fault, .ident, .crash, .staged5, .staged3, .seeded, .holding, .lastRing, .wakes, .host, .islands, .flashGone]) s (execLcTransition c s) := by
  unfold execLcTransition
  repeat' first
    | with_reducible apply Moves.refl
    | with_reducible assumption
    | with_reducible apply Ends.next
    | (with_reducible apply Moves.step; (with_reducible first
        | apply State.submit_moves); decide)

theorem execCairnRegister_ends {c : MbCmd} {host : List Cell} {s : State} :
    Ends (allBut [.queue, .power, .pwrGood, .etc, .timer, .fault, .ident, .crash, .staged5, .staged3, .seeded, .holding, .lastRing, .wakes, .host, .islands, .flashGone]) s (execCairnRegister c host s) := by
  unfold execCairnRegister
  repeat' first
    | with_reducible apply Moves.refl
    | with_reducible assumption
    | with_reducible apply Ends.next
    | (with_reducible apply Moves.step; (with_reducible first
        | apply State.submit_moves); decide)

theorem execCairnTake_ends {c : MbCmd} {s : State} :
    Ends (allBut [.queue, .power, .pwrGood, .etc, .timer, .fault, .ident, .crash, .staged5, .staged3, .seeded, .holding, .lastRing, .wakes, .host, .islands, .flashGone]) s (execCairnTake c s) := by
  unfold execCairnTake
  repeat' first
    | with_reducible apply Moves.refl
    | with_reducible assumption
    | with_reducible apply Ends.next
    | (with_reducible apply Moves.step; (with_reducible first
        | apply State.submit_moves); decide)

theorem execCairnRestore_ends {c : MbCmd} {s : State} :
    Ends (allBut [.queue, .power, .pwrGood, .etc, .timer, .fault, .ident, .crash, .staged5, .staged3, .seeded, .holding, .lastRing, .wakes, .host, .islands, .flashGone]) s (execCairnRestore c s) := by
  unfold execCairnRestore
  repeat' first
    | with_reducible apply Moves.refl
    | with_reducible assumption
    | with_reducible apply Ends.next
    | (with_reducible apply Moves.step; (with_reducible first
        | apply State.submit_moves); decide)

theorem execCairnStatus_ends {c : MbCmd} {s : State} :
    Ends (allBut [.queue, .power, .pwrGood, .etc, .timer, .fault, .ident, .crash, .staged5, .staged3, .seeded, .holding, .lastRing, .wakes, .host, .islands, .flashGone]) s (execCairnStatus c s) := by
  unfold execCairnStatus
  repeat' first
    | with_reducible apply Moves.refl
    | with_reducible assumption
    | with_reducible apply Ends.next
    | (with_reducible apply Moves.step; (with_reducible first
        | apply State.submit_moves); decide)

theorem execUnknownOpcode_ends {c : MbCmd} {opcode : BitVec 16} {s : State} :
    Ends (allBut [.queue, .power, .pwrGood, .etc, .timer, .fault, .ident, .crash, .staged5, .staged3, .seeded, .holding, .lastRing, .wakes, .host, .islands, .flashGone]) s (execUnknownOpcode c opcode s) := by
  unfold execUnknownOpcode
  repeat' first
    | with_reducible apply Moves.refl
    | with_reducible assumption
    | with_reducible apply Ends.next
    | with_reducible apply Moves.ite
    | with_reducible apply Ends.ite
    | (with_reducible apply Moves.step; (with_reducible first
        | apply State.submit_moves); decide)
    | split

theorem execCairnRestoreCopyComplete_ends {res : Ending} {host : List Cell} {s : State} :
    Ends (allBut [.queue, .power, .pwrGood, .etc, .timer, .fault, .ident, .crash, .staged5, .staged3, .seeded, .holding, .lastRing, .wakes, .host, .islands, .flashGone]) s (execCairnRestoreCopyComplete res host s) := by
  unfold execCairnRestoreCopyComplete
  repeat' first
    | with_reducible apply Moves.refl
    | with_reducible assumption
    | with_reducible apply Ends.next
    | (extract_lets -useContext -merge -underBinder +onlyGivenNames x; with_reducible apply Moves.cut (x := x); pick_goal 2; dsimp only [x]; clear x; pick_goal 2; clear_value x; intro hx)
    | (extract_lets -useContext -merge -underBinder +onlyGivenNames x; with_reducible apply Ends.cut (x := x); pick_goal 2; dsimp only [x]; clear x; pick_goal 2; clear_value x; intro hx)
    | (extract_lets -useContext -merge -underBinder +onlyGivenNames x; skip)
    | with_reducible apply Moves.ite
    | with_reducible apply Ends.ite
    | (with_reducible apply Moves.step; (with_reducible first
        | apply State.endCmd_moves | apply State.drainCmds_moves | apply State.restoreCopy_snd); decide)
    | (with_reducible apply Moves.of_pair; assumption)
    | (with_reducible apply Moves.of_reply; assumption)
    | split
    | (clear_value *; split)
    | (with_reducible apply Moves.step; (with_reducible apply Moves.upd_stateMb); decide)

theorem execQuiesceComplete_ends {s : State} :
    Ends (logged [.dev]) s (execQuiesceComplete s) := by
  unfold execQuiesceComplete
  repeat' first
    | with_reducible apply Moves.refl
    | with_reducible assumption
    | with_reducible apply Ends.next
    | with_reducible apply Moves.ite
    | with_reducible apply Ends.ite
    | (with_reducible apply Moves.step; (with_reducible first
        | apply State.setDev_moves); decide)
    | split

end Sys2Proof.Machine
end

