-- ==== Sys2Proof/Laws/FrameSweepPort.lean ====
section
/-! SUPPORT. What the functions of Machine/SweepPort.lean may change. -/

set_option linter.unusedTactic false
set_option linter.unreachableTactic false
set_option linter.tactic.unusedName false

namespace Sys2Proof.Machine

open Sys2Proof.Laws Sys2Proof.Safety

theorem State.sendMgmt_moves {s : State} {p : Nat} {body : List Byte} :
    Moves [.sent, .ports] s (State.sendMgmt s p body) := by
  unfold State.sendMgmt
  repeat' first
    | with_reducible apply Moves.refl
    | with_reducible assumption
    | (with_reducible apply Moves.step; (with_reducible first
        | apply State.sendOn_moves); decide)

theorem State.admitFail_moves {s : State} {p : Nat} :
    Moves (logged [.fresh, .regs, .mem, .poison, .sculls, .crews, .ergs, .ctrs, .tasks, .rings, .dunes, .tier, .kv, .lowp, .ports, .rigger, .colls, .peers, .sched]) s (State.admitFail s p) := by
  unfold State.admitFail
  repeat' first
    | with_reducible apply Moves.refl
    | with_reducible assumption
    | (with_reducible apply Moves.step; (with_reducible first
        | apply State.quarantine_moves | apply State.secFail_moves); decide)

theorem State.idFail_moves {s : State} {p : Nat} :
    Moves (logged [.fresh, .regs, .mem, .poison, .sculls, .crews, .ergs, .ctrs, .tasks, .rings, .dunes, .tier, .kv, .lowp, .ports, .rigger, .colls, .peers, .sched]) s (State.idFail s p) := by
  unfold State.idFail
  repeat' first
    | with_reducible apply Moves.refl
    | with_reducible assumption
    | (with_reducible apply Moves.step; (with_reducible first
        | apply State.quarantine_moves); decide)

theorem State.train_moves {s : State} {p : Nat} :
    Moves (logged [.fresh, .regs, .mem, .poison, .sculls, .crews, .ergs, .ctrs, .tasks, .rings, .dunes, .tier, .kv, .lowp, .ports, .rigger, .colls, .peers, .sched]) s (State.train s p) := by
  unfold State.train
  repeat' first
    | with_reducible apply Moves.refl
    | with_reducible assumption
    | (with_reducible apply Moves.step; (with_reducible first
        | apply State.emitPort_moves | apply State.portTo_moves); decide)

theorem State.portDown_moves {s : State} {p : Nat} :
    Moves (logged [.fresh, .regs, .mem, .poison, .sculls, .crews, .ergs, .ctrs, .tasks, .rings, .dunes, .tier, .kv, .lowp, .ports, .rigger, .colls, .peers, .sched]) s (State.portDown s p) := by
  unfold State.portDown
  repeat' first
    | with_reducible apply Moves.refl
    | with_reducible assumption
    | (with_reducible apply Moves.step; (with_reducible first
        | apply State.emitPort_moves | apply State.portTo_moves); decide)

theorem State.attest_moves {s : State} {p : Nat} {x4 : Bool} {upper : Bool} :
    Moves (logged [.fresh, .regs, .mem, .poison, .sculls, .crews, .ergs, .ctrs, .tasks, .rings, .dunes, .tier, .kv, .lowp, .ports, .rigger, .colls, .peers, .sched]) s (State.attest s p x4 upper) := by
  unfold State.attest
  repeat' first
    | with_reducible apply Moves.refl
    | with_reducible assumption
    | (extract_lets -useContext -merge -underBinder +onlyGivenNames x; with_reducible apply Moves.cut (x := x); pick_goal 2; dsimp only [x]; clear x; pick_goal 2; clear_value x; intro hx)
    | (extract_lets -useContext -merge -underBinder +onlyGivenNames x; skip)
    | with_reducible apply Moves.ite
    | (with_reducible apply Moves.step; (with_reducible first
        | apply State.portTo_moves | apply State.setPort_moves | apply State.sendMgmt_moves
        | apply State.admitFail_moves); decide)
    | (with_reducible apply Moves.foldl; intro _ _ _)
    | split
    | (clear_value *; split)

theorem State.writePortCtrl_moves {s : State} {p : Nat} {v : Word} {req : Requester} :
    Moves (logged [.fresh, .regs, .mem, .poison, .sculls, .crews, .ergs, .ctrs, .tasks, .rings, .dunes, .tier, .kv, .lowp, .ports, .rigger, .colls, .peers, .sched]) s (State.writePortCtrl s p v req) := by
  unfold State.writePortCtrl
  repeat' first
    | with_reducible apply Moves.refl
    | with_reducible assumption
    | (extract_lets -useContext -merge -underBinder +onlyGivenNames x; with_reducible apply Moves.cut (x := x); pick_goal 2; dsimp only [x]; clear x; pick_goal 2; clear_value x; intro hx)
    | (extract_lets -useContext -merge -underBinder +onlyGivenNames x; skip)
    | with_reducible apply Moves.ite
    | (with_reducible apply State.onReg_moves; decide; intro _ _)
    | (with_reducible apply State.checked_moves; decide; intro _ _)
    | (with_reducible apply Moves.step; (with_reducible first
        | apply State.takeReg_moves | apply State.emitPort_moves | apply State.portTo_moves | apply State.train_moves); decide)
    | split
    | (clear_value *; split)

theorem execPortEnable_ends {p : Nat} {v : Word} {req : Requester} {s : State} :
    Ends (logged [.fresh, .regs, .mem, .poison, .sculls, .crews, .ergs, .ctrs, .tasks, .rings, .dunes, .tier, .kv, .lowp, .ports, .rigger, .colls, .peers, .sched]) s (execPortEnable p v req s) := by
  unfold execPortEnable
  repeat' first
    | with_reducible apply Moves.refl
    | with_reducible assumption
    | with_reducible apply Ends.next
    | (with_reducible apply Moves.step; (with_reducible first
        | apply State.writePortCtrl_moves); decide)

theorem execPortDisable_ends {p : Nat} {v : Word} {req : Requester} {s : State} :
    Ends (logged [.fresh, .regs, .mem, .poison, .sculls, .crews, .ergs, .ctrs, .tasks, .rings, .dunes, .tier, .kv, .lowp, .ports, .rigger, .colls, .peers, .sched]) s (execPortDisable p v req s) := by
  unfold execPortDisable
  repeat' first
    | with_reducible apply Moves.refl
    | with_reducible assumption
    | with_reducible apply Ends.next
    | (with_reducible apply Moves.step; (with_reducible first
        | apply State.writePortCtrl_moves); decide)

theorem execReadmit_ends {p : Nat} {v : Word} {req : Requester} {s : State} :
    Ends (logged [.fresh, .regs, .mem, .poison, .sculls, .crews, .ergs, .ctrs, .tasks, .rings, .dunes, .tier, .kv, .lowp, .ports, .rigger, .colls, .peers, .sched]) s (execReadmit p v req s) := by
  unfold execReadmit
  repeat' first
    | with_reducible apply Moves.refl
    | with_reducible assumption
    | with_reducible apply Ends.next
    | (with_reducible apply Moves.step; (with_reducible first
        | apply State.writePortCtrl_moves); decide)

theorem execTrainingDone_ends {p : Nat} {lanes : BitVec 8} {s : State} :
    Ends (logged [.fresh, .regs, .mem, .poison, .sculls, .crews, .ergs, .ctrs, .tasks, .rings, .dunes, .tier, .kv, .lowp, .ports, .rigger, .colls, .peers, .sched]) s (execTrainingDone p lanes s) := by
  unfold execTrainingDone
  repeat' first
    | with_reducible apply Moves.refl
    | with_reducible assumption
    | with_reducible apply Ends.next
    | (extract_lets -useContext -merge -underBinder +onlyGivenNames x; with_reducible apply Moves.cut (x := x); pick_goal 2; dsimp only [x]; clear x; pick_goal 2; clear_value x; intro hx)
    | (extract_lets -useContext -merge -underBinder +onlyGivenNames x; with_reducible apply Ends.cut (x := x); pick_goal 2; dsimp only [x]; clear x; pick_goal 2; clear_value x; intro hx)
    | (extract_lets -useContext -merge -underBinder +onlyGivenNames x; skip)
    | with_reducible apply Moves.ite
    | with_reducible apply Ends.ite
    | (with_reducible apply Moves.step; (with_reducible first
        | apply State.portDown_moves | apply State.attest_moves); decide)
    | split
    | (clear_value *; split)

theorem execTrainingTimeout_ends {p : Nat} {s : State} :
    Ends (logged [.fresh, .regs, .mem, .poison, .sculls, .crews, .ergs, .ctrs, .tasks, .rings, .dunes, .tier, .kv, .lowp, .ports, .rigger, .colls, .peers, .sched]) s (execTrainingTimeout p s) := by
  unfold execTrainingTimeout
  repeat' first
    | with_reducible apply Moves.refl
    | with_reducible assumption
    | with_reducible apply Ends.next
    | (extract_lets -useContext -merge -underBinder +onlyGivenNames x; with_reducible apply Moves.cut (x := x); pick_goal 2; dsimp only [x]; clear x; pick_goal 2; clear_value x; intro hx)
    | (extract_lets -useContext -merge -underBinder +onlyGivenNames x; with_reducible apply Ends.cut (x := x); pick_goal 2; dsimp only [x]; clear x; pick_goal 2; clear_value x; intro hx)
    | (extract_lets -useContext -merge -underBinder +onlyGivenNames x; skip)
    | with_reducible apply Moves.ite
    | with_reducible apply Ends.ite
    | (with_reducible apply Moves.step; (with_reducible first
        | apply State.portDown_moves); decide)
    | split
    | (clear_value *; split)

theorem execDownRetryExpiry_ends {p : Nat} {s : State} :
    Ends (logged [.fresh, .regs, .mem, .poison, .sculls, .crews, .ergs, .ctrs, .tasks, .rings, .dunes, .tier, .kv, .lowp, .ports, .rigger, .colls, .peers, .sched]) s (execDownRetryExpiry p s) := by
  unfold execDownRetryExpiry
  repeat' first
    | with_reducible apply Moves.refl
    | with_reducible assumption
    | with_reducible apply Ends.next
    | (extract_lets -useContext -merge -underBinder +onlyGivenNames x; with_reducible apply Moves.cut (x := x); pick_goal 2; dsimp only [x]; clear x; pick_goal 2; clear_value x; intro hx)
    | (extract_lets -useContext -merge -underBinder +onlyGivenNames x; with_reducible apply Ends.cut (x := x); pick_goal 2; dsimp only [x]; clear x; pick_goal 2; clear_value x; intro hx)
    | (extract_lets -useContext -merge -underBinder +onlyGivenNames x; skip)
    | with_reducible apply Moves.ite
    | with_reducible apply Ends.ite
    | (with_reducible apply Moves.step; (with_reducible first
        | apply State.train_moves); decide)
    | split
    | (clear_value *; split)

theorem execAttestTimeout_ends {p : Nat} {s : State} :
    Ends (logged [.fresh, .regs, .mem, .poison, .sculls, .crews, .ergs, .ctrs, .tasks, .rings, .dunes, .tier, .kv, .lowp, .ports, .rigger, .colls, .peers, .sched]) s (execAttestTimeout p s) := by
  unfold execAttestTimeout
  repeat' first
    | with_reducible apply Moves.refl
    | with_reducible assumption
    | with_reducible apply Ends.next
    | (extract_lets -useContext -merge -underBinder +onlyGivenNames x; with_reducible apply Moves.cut (x := x); pick_goal 2; dsimp only [x]; clear x; pick_goal 2; clear_value x; intro hx)
    | (extract_lets -useContext -merge -underBinder +onlyGivenNames x; with_reducible apply Ends.cut (x := x); pick_goal 2; dsimp only [x]; clear x; pick_goal 2; clear_value x; intro hx)
    | (extract_lets -useContext -merge -underBinder +onlyGivenNames x; skip)
    | with_reducible apply Moves.ite
    | with_reducible apply Ends.ite
    | (with_reducible apply Moves.step; (with_reducible first
        | apply State.portDown_moves); decide)
    | split
    | (clear_value *; split)

theorem State.onAdmission_ends {ps : List Part} {a : State} {s : State} {p : Nat} {go : State → State}
    (hk : partsIn (logged [.fresh, .regs, .mem, .poison, .sculls, .crews, .ergs, .ctrs, .tasks, .rings, .dunes, .tier, .kv, .lowp, .ports, .rigger, .colls, .peers, .sched]) ps = true)
    (hg : ∀ s, Moves ps a s → Moves ps a (go s)) (h : Moves ps a s) : Ends ps a (State.onAdmission s p go) := by
  unfold State.onAdmission
  repeat' first
    | with_reducible assumption
    | with_reducible apply Ends.next
    | with_reducible apply Moves.ite
    | with_reducible apply Ends.ite
    | with_reducible apply hg
    | (with_reducible apply Moves.step; (with_reducible first
        | apply State.quarantine_moves); exact partsIn_trans (by decide) hk)
    | split

theorem State.random_snd {s : State} :
    Moves [.sec] s (State.random s).2 := by
  unfold State.random
  repeat' first
    | with_reducible apply Moves.refl
    | with_reducible assumption
    | (with_reducible apply Moves.step; (with_reducible apply Moves.upd_sec); decide)

theorem State.random_moves {s : State} {w : Nat} {t : State} (h : State.random s = (w, t)) :
    Moves [.sec] s t := by
  have k := State.random_snd (s := s)
  rw [h] at k
  exact k

theorem State.sendSign_moves {s : State} {p : Nat} :
    Moves (logged [.fresh, .sec, .regs, .mem, .poison, .sculls, .crews, .ergs, .ctrs, .tasks, .rings, .dunes, .tier, .kv, .lowp, .ports, .rigger, .colls, .peers, .sched]) s (State.sendSign s p) := by
  unfold State.sendSign
  repeat' first
    | with_reducible apply Moves.refl
    | with_reducible assumption
    | (extract_lets -useContext -merge -underBinder +onlyGivenNames x; with_reducible apply Moves.cut (x := x); pick_goal 2; dsimp only [x]; clear x; pick_goal 2; clear_value x; intro hx)
    | (extract_lets -useContext -merge -underBinder +onlyGivenNames x; skip)
    | (with_reducible apply Moves.step; (with_reducible first
        | apply State.quarantine_moves | apply State.secRefused_moves | apply State.setPort_moves
        | apply State.sendMgmt_moves | (apply State.attSign_moves; assumption)); decide)
    | (with_reducible apply Moves.of_pair; assumption)
    | (with_reducible apply Moves.of_reply; assumption)
    | split
    | (clear_value *; split)

theorem execMgmtCert_ends {p : Nat} {src : Nat} {index : Nat} {cert : List Byte} {s : State} :
    Ends (logged [.fresh, .sec, .regs, .mem, .poison, .sculls, .crews, .ergs, .ctrs, .tasks, .rings, .dunes, .tier, .kv, .lowp, .ports, .rigger, .colls, .peers, .sched]) s (execMgmtCert p src index cert s) := by
  unfold execMgmtCert
  repeat' first
    | with_reducible apply Moves.refl
    | with_reducible assumption
    | with_reducible apply Ends.next
    | (extract_lets -useContext -merge -underBinder +onlyGivenNames x; with_reducible apply Moves.cut (x := x); pick_goal 2; dsimp only [x]; clear x; pick_goal 2; clear_value x; intro hx)
    | (extract_lets -useContext -merge -underBinder +onlyGivenNames x; with_reducible apply Ends.cut (x := x); pick_goal 2; dsimp only [x]; clear x; pick_goal 2; clear_value x; intro hx)
    | (extract_lets -useContext -merge -underBinder +onlyGivenNames x; skip)
    | with_reducible apply Moves.ite
    | with_reducible apply Ends.ite
    | (with_reducible apply State.onAdmission_ends; decide; intro _ _)
    | (with_reducible apply Moves.step; (with_reducible first
        | apply State.setPort_moves | apply State.sendMgmt_moves | apply State.admitFail_moves
        | apply State.idFail_moves | apply State.random_snd); decide)
    | (with_reducible apply Moves.of_pair; assumption)
    | (with_reducible apply Moves.of_reply; assumption)
    | split
    | (clear_value *; split)

theorem execMgmtKemEk_ends {p : Nat} {ek : List Byte} {nonce : List Byte} {s : State} :
    Ends (logged [.fresh, .sec, .regs, .mem, .poison, .sculls, .crews, .ergs, .ctrs, .tasks, .rings, .dunes, .tier, .kv, .lowp, .ports, .rigger, .colls, .peers, .sched]) s (execMgmtKemEk p ek nonce s) := by
  unfold execMgmtKemEk
  repeat' first
    | with_reducible apply Moves.refl
    | with_reducible assumption
    | with_reducible apply Ends.next
    | (extract_lets -useContext -merge -underBinder +onlyGivenNames x; with_reducible apply Moves.cut (x := x); pick_goal 2; dsimp only [x]; clear x; pick_goal 2; clear_value x; intro hx)
    | (extract_lets -useContext -merge -underBinder +onlyGivenNames x; with_reducible apply Ends.cut (x := x); pick_goal 2; dsimp only [x]; clear x; pick_goal 2; clear_value x; intro hx)
    | (extract_lets -useContext -merge -underBinder +onlyGivenNames x; skip)
    | with_reducible apply Moves.ite
    | with_reducible apply Ends.ite
    | (with_reducible apply State.onAdmission_ends; decide; intro _ _)
    | (with_reducible apply Moves.step; (with_reducible first
        | apply State.setPort_moves | apply State.sendMgmt_moves | apply State.admitFail_moves
        | apply State.sendSign_moves | apply State.random_snd); decide)
    | (with_reducible apply Moves.of_pair; assumption)
    | (with_reducible apply Moves.of_reply; assumption)
    | split
    | (clear_value *; split)

theorem execMgmtKemCt_ends {p : Nat} {ct : List Byte} {nonce : List Byte} {s : State} :
    Ends (logged [.fresh, .sec, .regs, .mem, .poison, .sculls, .crews, .ergs, .ctrs, .tasks, .rings, .dunes, .tier, .kv, .lowp, .ports, .rigger, .colls, .peers, .sched]) s (execMgmtKemCt p ct nonce s) := by
  unfold execMgmtKemCt
  repeat' first
    | with_reducible apply Moves.refl
    | with_reducible assumption
    | with_reducible apply Ends.next
    | (extract_lets -useContext -merge -underBinder +onlyGivenNames x; with_reducible apply Moves.cut (x := x); pick_goal 2; dsimp only [x]; clear x; pick_goal 2; clear_value x; intro hx)
    | (extract_lets -useContext -merge -underBinder +onlyGivenNames x; with_reducible apply Ends.cut (x := x); pick_goal 2; dsimp only [x]; clear x; pick_goal 2; clear_value x; intro hx)
    | (extract_lets -useContext -merge -underBinder +onlyGivenNames x; skip)
    | with_reducible apply Moves.ite
    | with_reducible apply Ends.ite
    | (with_reducible apply State.onAdmission_ends; decide; intro _ _)
    | (with_reducible apply Moves.step; (with_reducible first
        | apply State.setPort_moves | apply State.admitFail_moves | apply State.sendSign_moves); decide)
    | split
    | (clear_value *; split)

theorem execMgmtSign_ends {p : Nat} {sig : List Byte} {sender : Nat} {senderPort : Nat} {s : State} :
    Ends (logged [.fresh, .regs, .mem, .poison, .sculls, .crews, .ergs, .ctrs, .tasks, .rings, .dunes, .tier, .kv, .lowp, .ports, .rigger, .colls, .peers, .sched]) s (execMgmtSign p sig sender senderPort s) := by
  unfold execMgmtSign
  repeat' first
    | with_reducible apply Moves.refl
    | with_reducible assumption
    | with_reducible apply Ends.next
    | (extract_lets -useContext -merge -underBinder +onlyGivenNames x; with_reducible apply Moves.cut (x := x); pick_goal 2; dsimp only [x]; clear x; pick_goal 2; clear_value x; intro hx)
    | (extract_lets -useContext -merge -underBinder +onlyGivenNames x; with_reducible apply Ends.cut (x := x); pick_goal 2; dsimp only [x]; clear x; pick_goal 2; clear_value x; intro hx)
    | (extract_lets -useContext -merge -underBinder +onlyGivenNames x; skip)
    | with_reducible apply Moves.ite
    | with_reducible apply Ends.ite
    | (with_reducible apply State.onAdmission_ends; decide; intro _ _)
    | (with_reducible apply Moves.step; (with_reducible first
        | apply State.setPort_moves | apply State.sendMgmt_moves | apply State.admitFail_moves
        | apply State.idFail_moves); decide)
    | (with_reducible apply Moves.of_pair; assumption)
    | (with_reducible apply Moves.of_reply; assumption)
    | split
    | (clear_value *; split)

theorem execMgmtFinish_ends {p : Nat} {hash : List Byte} {tagGood : Bool} {s : State} :
    Ends (logged [.fresh, .regs, .mem, .poison, .sculls, .crews, .ergs, .ctrs, .tasks, .rings, .dunes, .tier, .kv, .lowp, .ports, .rigger, .colls, .peers, .sched]) s (execMgmtFinish p hash tagGood s) := by
  unfold execMgmtFinish
  repeat' first
    | with_reducible apply Moves.refl
    | with_reducible assumption
    | with_reducible apply Ends.next
    | (extract_lets -useContext -merge -underBinder +onlyGivenNames x; with_reducible apply Moves.cut (x := x); pick_goal 2; dsimp only [x]; clear x; pick_goal 2; clear_value x; intro hx)
    | (extract_lets -useContext -merge -underBinder +onlyGivenNames x; with_reducible apply Ends.cut (x := x); pick_goal 2; dsimp only [x]; clear x; pick_goal 2; clear_value x; intro hx)
    | (extract_lets -useContext -merge -underBinder +onlyGivenNames x; skip)
    | with_reducible apply Moves.ite
    | with_reducible apply Ends.ite
    | (with_reducible apply State.onAdmission_ends; decide; intro _ _)
    | (with_reducible apply Moves.step; (with_reducible first
        | apply State.emitPort_moves | apply State.setPort_moves | apply State.admitFail_moves); decide)
    | split
    | (clear_value *; split)

theorem State.onAdmitted_ends {ps : List Part} {a : State} {s : State} {p : Nat} {go : State → State}
    (hk : partsIn [] ps = true)
    (hg : ∀ s, Moves ps a s → Moves ps a (go s)) (h : Moves ps a s) : Ends ps a (State.onAdmitted s p go) := by
  unfold State.onAdmitted
  repeat' first
    | with_reducible assumption
    | with_reducible apply Ends.next
    | with_reducible apply Moves.ite
    | with_reducible apply Ends.ite
    | with_reducible apply hg
    | split

theorem State.sendRekey_moves {s : State} {p : Nat} :
    Moves (logged [.fresh, .sec, .regs, .mem, .poison, .sculls, .crews, .ergs, .ctrs, .tasks, .rings, .dunes, .tier, .kv, .lowp, .ports, .rigger, .colls, .peers, .sched]) s (State.sendRekey s p) := by
  unfold State.sendRekey
  repeat' first
    | with_reducible apply Moves.refl
    | with_reducible assumption
    | (extract_lets -useContext -merge -underBinder +onlyGivenNames x; with_reducible apply Moves.cut (x := x); pick_goal 2; dsimp only [x]; clear x; pick_goal 2; clear_value x; intro hx)
    | (extract_lets -useContext -merge -underBinder +onlyGivenNames x; skip)
    | with_reducible apply Moves.ite
    | (with_reducible apply Moves.step; (with_reducible first
        | apply State.quarantine_moves | apply State.setPort_moves | apply State.sendMgmt_moves
        | apply State.random_snd); decide)
    | (with_reducible apply Moves.of_pair; assumption)
    | (with_reducible apply Moves.of_reply; assumption)
    | split
    | (clear_value *; split)

theorem State.switchKeys_moves {s : State} {p : Nat} {ss : List Byte} {bodies : List (List Byte)} :
    Moves [.sent, .ports] s (State.switchKeys s p ss bodies) := by
  unfold State.switchKeys
  repeat' first
    | with_reducible apply Moves.refl
    | with_reducible assumption
    | (extract_lets -useContext -merge -underBinder +onlyGivenNames x; with_reducible apply Moves.cut (x := x); pick_goal 2; dsimp only [x]; clear x; pick_goal 2; clear_value x; intro hx)
    | (extract_lets -useContext -merge -underBinder +onlyGivenNames x; skip)
    | (with_reducible apply Moves.step; (with_reducible first
        | apply State.setPort_moves | apply State.sendMgmt_moves); decide)
    | (with_reducible apply Moves.of_pair; assumption)
    | (with_reducible apply Moves.of_reply; assumption)
    | split
    | (clear_value *; split)

theorem execRekeyStart_ends {p : Nat} {s : State} :
    Ends (logged [.fresh, .sec, .regs, .mem, .poison, .sculls, .crews, .ergs, .ctrs, .tasks, .rings, .dunes, .tier, .kv, .lowp, .ports, .rigger, .colls, .peers, .sched]) s (execRekeyStart p s) := by
  unfold execRekeyStart
  repeat' first
    | with_reducible apply Moves.refl
    | with_reducible assumption
    | with_reducible apply Ends.next
    | with_reducible apply Moves.ite
    | with_reducible apply Ends.ite
    | (with_reducible apply State.onAdmitted_ends; decide; intro _ _)
    | (with_reducible apply Moves.step; (with_reducible first
        | apply State.sendRekey_moves); decide)
    | split

theorem execMgmtRekeyEk_ends {p : Nat} {ek : List Byte} {nonce : List Byte} {s : State} :
    Ends (logged [.fresh, .sec, .regs, .mem, .poison, .sculls, .crews, .ergs, .ctrs, .tasks, .rings, .dunes, .tier, .kv, .lowp, .ports, .rigger, .colls, .peers, .sched]) s (execMgmtRekeyEk p ek nonce s) := by
  unfold execMgmtRekeyEk
  repeat' first
    | with_reducible apply Moves.refl
    | with_reducible assumption
    | with_reducible apply Ends.next
    | (extract_lets -useContext -merge -underBinder +onlyGivenNames x; with_reducible apply Moves.cut (x := x); pick_goal 2; dsimp only [x]; clear x; pick_goal 2; clear_value x; intro hx)
    | (extract_lets -useContext -merge -underBinder +onlyGivenNames x; with_reducible apply Ends.cut (x := x); pick_goal 2; dsimp only [x]; clear x; pick_goal 2; clear_value x; intro hx)
    | (extract_lets -useContext -merge -underBinder +onlyGivenNames x; skip)
    | with_reducible apply Moves.ite
    | with_reducible apply Ends.ite
    | (with_reducible apply State.onAdmitted_ends; decide; intro _ _)
    | (with_reducible apply Moves.step; (with_reducible first
        | apply State.quarantine_moves | apply State.setPort_moves | apply State.sendMgmt_moves
        | apply State.switchKeys_moves | apply State.random_snd); decide)
    | (with_reducible apply Moves.of_pair; assumption)
    | (with_reducible apply Moves.of_reply; assumption)
    | split
    | (clear_value *; split)

theorem execMgmtRekeyCt_ends {p : Nat} {ct : List Byte} {nonce : List Byte} {s : State} :
    Ends [.sent, .ports] s (execMgmtRekeyCt p ct nonce s) := by
  unfold execMgmtRekeyCt
  repeat' first
    | with_reducible apply Moves.refl
    | with_reducible assumption
    | with_reducible apply Ends.next
    | (extract_lets -useContext -merge -underBinder +onlyGivenNames x; with_reducible apply Moves.cut (x := x); pick_goal 2; dsimp only [x]; clear x; pick_goal 2; clear_value x; intro hx)
    | (extract_lets -useContext -merge -underBinder +onlyGivenNames x; with_reducible apply Ends.cut (x := x); pick_goal 2; dsimp only [x]; clear x; pick_goal 2; clear_value x; intro hx)
    | (extract_lets -useContext -merge -underBinder +onlyGivenNames x; skip)
    | with_reducible apply Moves.ite
    | with_reducible apply Ends.ite
    | (with_reducible apply State.onAdmitted_ends; decide; intro _ _)
    | (with_reducible apply Moves.step; (with_reducible first
        | apply State.switchKeys_moves); decide)
    | split
    | (clear_value *; split)

theorem execMgmtRekeyDone_ends {p : Nat} {s : State} :
    Ends [.ports] s (execMgmtRekeyDone p s) := by
  unfold execMgmtRekeyDone
  repeat' first
    | with_reducible apply Moves.refl
    | with_reducible assumption
    | with_reducible apply Ends.next
    | (extract_lets -useContext -merge -underBinder +onlyGivenNames x; with_reducible apply Moves.cut (x := x); pick_goal 2; dsimp only [x]; clear x; pick_goal 2; clear_value x; intro hx)
    | (extract_lets -useContext -merge -underBinder +onlyGivenNames x; with_reducible apply Ends.cut (x := x); pick_goal 2; dsimp only [x]; clear x; pick_goal 2; clear_value x; intro hx)
    | (extract_lets -useContext -merge -underBinder +onlyGivenNames x; skip)
    | with_reducible apply Moves.ite
    | with_reducible apply Ends.ite
    | (with_reducible apply State.onAdmitted_ends; decide; intro _ _)
    | (with_reducible apply Moves.step; (with_reducible first
        | apply State.setPort_moves); decide)
    | split
    | (clear_value *; split)

theorem execRekeyTimeout_ends {p : Nat} {s : State} :
    Ends (logged [.fresh, .regs, .mem, .poison, .sculls, .crews, .ergs, .ctrs, .tasks, .rings, .dunes, .tier, .kv, .lowp, .ports, .rigger, .colls, .peers, .sched]) s (execRekeyTimeout p s) := by
  unfold execRekeyTimeout
  repeat' first
    | with_reducible apply Moves.refl
    | with_reducible assumption
    | with_reducible apply Ends.next
    | with_reducible apply Moves.ite
    | with_reducible apply Ends.ite
    | (with_reducible apply State.onAdmitted_ends; decide; intro _ _)
    | (with_reducible apply Moves.step; (with_reducible first
        | apply State.quarantine_moves); decide)
    | split

theorem execMgmtQuoteReq_ends {p : Nat} {nonce : List Byte} {s : State} :
    Ends (logged [.sec, .regs, .ports]) s (execMgmtQuoteReq p nonce s) := by
  unfold execMgmtQuoteReq
  repeat' first
    | with_reducible apply Moves.refl
    | with_reducible assumption
    | with_reducible apply Ends.next
    | (with_reducible apply State.onAdmitted_ends; decide; intro _ _)
    | (with_reducible apply Moves.step; (with_reducible first
        | apply State.secRefused_moves | apply State.sendMgmt_moves | (apply State.quote_moves; assumption)); decide)
    | (with_reducible apply Moves.of_pair; assumption)
    | (with_reducible apply Moves.of_reply; assumption)
    | split

theorem execMgmtQuote_ends {_p : Nat} {_quote : List Byte} {s : State} :
    Ends [] s (execMgmtQuote _p _quote s) := by
  unfold execMgmtQuote
  repeat' first
    | with_reducible apply Moves.refl
    | with_reducible assumption
    | with_reducible apply Ends.next

theorem execMgmtLinkstat_ends {_p : Nat} {_retry : Word} {_err : Word} {s : State} :
    Ends [] s (execMgmtLinkstat _p _retry _err s) := by
  unfold execMgmtLinkstat
  repeat' first
    | with_reducible apply Moves.refl
    | with_reducible assumption
    | with_reducible apply Ends.next

theorem execLinkstatSend_ends {p : Nat} {s : State} :
    Ends [.sent, .ports] s (execLinkstatSend p s) := by
  unfold execLinkstatSend
  repeat' first
    | with_reducible apply Moves.refl
    | with_reducible assumption
    | with_reducible apply Ends.next
    | (extract_lets -useContext -merge -underBinder +onlyGivenNames x; with_reducible apply Moves.cut (x := x); pick_goal 2; dsimp only [x]; clear x; pick_goal 2; clear_value x; intro hx)
    | (extract_lets -useContext -merge -underBinder +onlyGivenNames x; with_reducible apply Ends.cut (x := x); pick_goal 2; dsimp only [x]; clear x; pick_goal 2; clear_value x; intro hx)
    | (extract_lets -useContext -merge -underBinder +onlyGivenNames x; skip)
    | with_reducible apply Moves.ite
    | with_reducible apply Ends.ite
    | (with_reducible apply State.onAdmitted_ends; decide; intro _ _)
    | (with_reducible apply Moves.step; (with_reducible first
        | apply State.setPort_moves | apply State.sendMgmt_moves); decide)
    | split
    | (clear_value *; split)

theorem State.nak_moves {s : State} {p : Nat} :
    Moves [.sent, .lossCounts, .regs, .ports] s (State.nak s p) := by
  unfold State.nak
  repeat' first
    | with_reducible apply Moves.refl
    | with_reducible assumption
    | (extract_lets -useContext -merge -underBinder +onlyGivenNames x; with_reducible apply Moves.cut (x := x); pick_goal 2; dsimp only [x]; clear x; pick_goal 2; clear_value x; intro hx)
    | (extract_lets -useContext -merge -underBinder +onlyGivenNames x; skip)
    | (with_reducible apply Moves.step; (with_reducible first
        | apply State.sendIdle_moves | apply State.bump_moves | apply State.setPort_moves); decide)

theorem State.onAck_moves {s : State} {p : Nat} {ack : Nat} {nak : Bool} :
    Moves (logged [.fresh, .regs, .mem, .poison, .sculls, .crews, .ergs, .ctrs, .tasks, .rings, .dunes, .tier, .kv, .lowp, .ports, .rigger, .colls, .peers, .sched]) s (State.onAck s p ack nak) := by
  unfold State.onAck
  repeat' first
    | with_reducible apply Moves.refl
    | with_reducible assumption
    | (extract_lets -useContext -merge -underBinder +onlyGivenNames x; with_reducible apply Moves.cut (x := x); pick_goal 2; dsimp only [x]; clear x; pick_goal 2; clear_value x; intro hx)
    | (extract_lets -useContext -merge -underBinder +onlyGivenNames x; skip)
    | with_reducible apply Moves.ite
    | (with_reducible apply Moves.step; (with_reducible first
        | apply State.emitPort_moves | apply State.portTo_moves | apply State.sendWaiting_moves
        | apply State.bump_moves | apply State.setPort_moves); decide)
    | split
    | (clear_value *; split)
    | (with_reducible apply Moves.step; (with_reducible apply Moves.upd_tx); decide)

theorem State.onCredits_moves {s : State} {p : Nat} {vc : Nat} {n : Nat} :
    Moves [.sent, .ports] s (State.onCredits s p vc n) := by
  unfold State.onCredits
  repeat' first
    | with_reducible apply Moves.refl
    | with_reducible assumption
    | (extract_lets -useContext -merge -underBinder +onlyGivenNames x; with_reducible apply Moves.cut (x := x); pick_goal 2; dsimp only [x]; clear x; pick_goal 2; clear_value x; intro hx)
    | (extract_lets -useContext -merge -underBinder +onlyGivenNames x; skip)
    | with_reducible apply Moves.ite
    | (with_reducible apply Moves.step; (with_reducible first
        | apply State.sendWaiting_moves | apply State.setPort_moves); decide)
    | split
    | (clear_value *; split)

theorem State.takeFlit_moves {s : State} {p : Nat} {vc : Nat} {sof : Bool} {eof : Bool} {body : List Byte} :
    Moves (logged [.fresh, .regs, .mem, .poison, .sculls, .crews, .ergs, .ctrs, .tasks, .rings, .dunes, .tier, .kv, .lowp, .ports, .rigger, .colls, .peers, .sched]) s (State.takeFlit s p vc sof eof body) := by
  unfold State.takeFlit
  repeat' first
    | with_reducible apply Moves.refl
    | with_reducible assumption
    | (extract_lets -useContext -merge -underBinder +onlyGivenNames x; with_reducible apply Moves.cut (x := x); pick_goal 2; dsimp only [x]; clear x; pick_goal 2; clear_value x; intro hx)
    | (extract_lets -useContext -merge -underBinder +onlyGivenNames x; skip)
    | with_reducible apply Moves.ite
    | (with_reducible apply Moves.step; (with_reducible first
        | apply State.quarantine_moves | apply State.setPort_moves); decide)
    | split
    | (clear_value *; split)

theorem execFlitReceive_ends {p : Nat} {flit : List Byte} {s : State} :
    Ends (logged [.fresh, .regs, .mem, .poison, .sculls, .crews, .ergs, .ctrs, .tasks, .rings, .dunes, .tier, .kv, .lowp, .ports, .rigger, .colls, .peers, .sched]) s (execFlitReceive p flit s) := by
  unfold execFlitReceive
  repeat' first
    | with_reducible apply Moves.refl
    | with_reducible assumption
    | with_reducible apply Ends.next
    | (extract_lets -useContext -merge -underBinder +onlyGivenNames x; with_reducible apply Moves.cut (x := x); pick_goal 2; dsimp only [x]; clear x; pick_goal 2; clear_value x; intro hx)
    | (extract_lets -useContext -merge -underBinder +onlyGivenNames x; with_reducible apply Ends.cut (x := x); pick_goal 2; dsimp only [x]; clear x; pick_goal 2; clear_value x; intro hx)
    | (extract_lets -useContext -merge -underBinder +onlyGivenNames x; skip)
    | with_reducible apply Moves.ite
    | with_reducible apply Ends.ite
    | (with_reducible apply Moves.step; (with_reducible first
        | apply State.quarantine_moves | apply State.nak_moves | apply State.onAck_moves
        | apply State.onCredits_moves | apply State.takeFlit_moves); decide)
    | split
    | (clear_value *; split)

theorem State.freeBuffer_moves {s : State} {p : Nat} {vc : Nat} {n : Nat} :
    Moves [.sent, .ports] s (State.freeBuffer s p vc n) := by
  unfold State.freeBuffer
  repeat' first
    | with_reducible apply Moves.refl
    | with_reducible assumption
    | (extract_lets -useContext -merge -underBinder +onlyGivenNames x; with_reducible apply Moves.cut (x := x); pick_goal 2; dsimp only [x]; clear x; pick_goal 2; clear_value x; intro hx)
    | (extract_lets -useContext -merge -underBinder +onlyGivenNames x; skip)
    | (with_reducible apply Moves.step; (with_reducible first
        | apply State.sendIdle_moves | apply State.setPort_moves); decide)

theorem State.tagFail_moves {s : State} {p : Nat} {vc : Nat} :
    Moves (logged [.fresh, .regs, .mem, .poison, .sculls, .crews, .ergs, .ctrs, .tasks, .rings, .dunes, .tier, .kv, .lowp, .ports, .rigger, .colls, .peers, .sched]) s (State.tagFail s p vc) := by
  unfold State.tagFail
  repeat' first
    | with_reducible apply Moves.refl
    | with_reducible assumption
    | (extract_lets -useContext -merge -underBinder +onlyGivenNames x; with_reducible apply Moves.cut (x := x); pick_goal 2; dsimp only [x]; clear x; pick_goal 2; clear_value x; intro hx)
    | (extract_lets -useContext -merge -underBinder +onlyGivenNames x; skip)
    | with_reducible apply Moves.ite
    | (with_reducible apply Moves.step; (with_reducible first
        | apply State.quarantine_moves | apply State.secFail_moves | apply State.sendIdle_moves
        | apply State.bump_moves | apply State.setPort_moves); decide)
    | split
    | (clear_value *; split)

theorem execFrameReceive_ends {p : Nat} {f : Frame} {s : State} :
    Ends (logged [.fresh, .regs, .mem, .poison, .sculls, .crews, .ergs, .ctrs, .tasks, .rings, .dunes, .tier, .kv, .lowp, .ports, .rigger, .colls, .peers, .sched]) s (execFrameReceive p f s) := by
  unfold execFrameReceive
  repeat' first
    | with_reducible apply Moves.refl
    | with_reducible assumption
    | with_reducible apply Ends.next
    | (extract_lets -useContext -merge -underBinder +onlyGivenNames x; with_reducible apply Moves.cut (x := x); pick_goal 2; dsimp only [x]; clear x; pick_goal 2; clear_value x; intro hx)
    | (extract_lets -useContext -merge -underBinder +onlyGivenNames x; with_reducible apply Ends.cut (x := x); pick_goal 2; dsimp only [x]; clear x; pick_goal 2; clear_value x; intro hx)
    | (extract_lets -useContext -merge -underBinder +onlyGivenNames x; skip)
    | with_reducible apply Moves.ite
    | with_reducible apply Ends.ite
    | (with_reducible apply Moves.step; (with_reducible first
        | apply State.quarantine_moves | apply State.route_moves | apply State.setPort_moves
        | apply State.freeBuffer_moves | apply State.tagFail_moves); decide)
    | split
    | (clear_value *; split)

theorem execCreditStarvation_ends {p : Nat} {vc : Nat} {s : State} :
    Ends (logged [.fresh, .regs, .mem, .poison, .sculls, .crews, .ergs, .ctrs, .tasks, .rings, .dunes, .tier, .kv, .lowp, .ports, .rigger, .colls, .peers, .sched]) s (execCreditStarvation p vc s) := by
  unfold execCreditStarvation
  repeat' first
    | with_reducible apply Moves.refl
    | with_reducible assumption
    | with_reducible apply Ends.next
    | (extract_lets -useContext -merge -underBinder +onlyGivenNames x; with_reducible apply Moves.cut (x := x); pick_goal 2; dsimp only [x]; clear x; pick_goal 2; clear_value x; intro hx)
    | (extract_lets -useContext -merge -underBinder +onlyGivenNames x; with_reducible apply Ends.cut (x := x); pick_goal 2; dsimp only [x]; clear x; pick_goal 2; clear_value x; intro hx)
    | (extract_lets -useContext -merge -underBinder +onlyGivenNames x; skip)
    | with_reducible apply Moves.ite
    | with_reducible apply Ends.ite
    | (with_reducible apply State.onAdmitted_ends; decide; intro _ _)
    | (with_reducible apply Moves.step; (with_reducible first
        | apply State.quarantine_moves); decide)
    | split
    | (clear_value *; split)

end Sys2Proof.Machine
end

