-- ==== Sys2Proof/Laws/FrameReg.lean ====
section
/-! SUPPORT. What the functions of Machine/Reg.lean may change. -/

set_option linter.unusedTactic false
set_option linter.unreachableTactic false
set_option linter.tactic.unusedName false

namespace Sys2Proof.Machine

open Sys2Proof.Laws Sys2Proof.Safety

theorem State.strobe_moves {s : State} {mask : Word} :
    Moves [.staged5, .staged3, .seeded] s (State.strobe s mask) := by
  unfold State.strobe
  repeat' first
    | with_reducible apply Moves.refl
    | with_reducible assumption
    | (extract_lets -useContext -merge -underBinder +onlyGivenNames x; with_reducible apply Moves.cut (x := x); pick_goal 2; dsimp only [x]; clear x; pick_goal 2; clear_value x; intro hx)
    | (extract_lets -useContext -merge -underBinder +onlyGivenNames x; skip)
    | with_reducible apply Moves.ite
    | split
    | (clear_value *; split)
    | (with_reducible apply Moves.step; (with_reducible apply Moves.upd_staged5_seeded); decide)
    | (with_reducible apply Moves.step; (with_reducible apply Moves.upd_staged3_seeded); decide)
    | (with_reducible apply Moves.step; (with_reducible apply Moves.upd_seeded); decide)
    | (with_reducible apply Moves.step; (with_reducible apply Moves.upd_staged3); decide)
    | (with_reducible apply Moves.step; (with_reducible apply Moves.upd_staged5); decide)

theorem State.writeApply_moves {s : State} {mask : Word} {req : Requester} :
    Moves (logged [.regs, .staged5, .staged3, .seeded]) s (State.writeApply s mask req) := by
  unfold State.writeApply
  repeat' first
    | with_reducible apply Moves.refl
    | with_reducible assumption
    | (with_reducible apply State.onReg_moves; decide; intro _ _)
    | (with_reducible apply Moves.step; (with_reducible first
        | apply State.logWrite_moves | apply State.strobe_moves); decide)

theorem execGlobalApply_ends {mask : Word} {req : Requester} {s : State} :
    Ends (logged [.regs, .staged5, .staged3, .seeded]) s (execGlobalApply mask req s) := by
  unfold execGlobalApply
  repeat' first
    | with_reducible apply Moves.refl
    | with_reducible assumption
    | with_reducible apply Ends.next
    | (with_reducible apply Moves.step; (with_reducible first
        | apply State.writeApply_moves); decide)

theorem State.capture_moves {s : State} {mask : Word} :
    Moves [.holding, .host] s (State.capture s mask) := by
  unfold State.capture
  repeat' first
    | with_reducible apply Moves.refl
    | with_reducible assumption
    | (extract_lets -useContext -merge -underBinder +onlyGivenNames x; with_reducible apply Moves.cut (x := x); pick_goal 2; dsimp only [x]; clear x; pick_goal 2; clear_value x; intro hx)
    | (extract_lets -useContext -merge -underBinder +onlyGivenNames x; skip)
    | (with_reducible apply Moves.foldl; intro _ _ _)
    | split
    | (clear_value *; split)
    | (with_reducible apply Moves.step; (with_reducible exact Moves.upd_holding_host rfl); decide)
    | (with_reducible apply Moves.step; (with_reducible exact Moves.upd_host rfl); decide)
    | (with_reducible apply Moves.step; (with_reducible apply Moves.upd_holding); decide)

theorem State.writeSnap_moves {s : State} {mask : Word} {req : Requester} :
    Moves (logged [.regs, .holding, .host]) s (State.writeSnap s mask req) := by
  unfold State.writeSnap
  repeat' first
    | with_reducible apply Moves.refl
    | with_reducible assumption
    | (with_reducible apply State.onReg_moves; decide; intro _ _)
    | (with_reducible apply Moves.step; (with_reducible first
        | apply State.capture_moves); decide)

theorem execGlobalSnap_ends {mask : Word} {req : Requester} {s : State} :
    Ends (logged [.regs, .holding, .host]) s (execGlobalSnap mask req s) := by
  unfold execGlobalSnap
  repeat' first
    | with_reducible apply Moves.refl
    | with_reducible assumption
    | with_reducible apply Ends.next
    | (with_reducible apply Moves.step; (with_reducible first
        | apply State.writeSnap_moves); decide)

theorem State.aliasWrite_moves {s : State} {off : Nat} {b : Nat} {v : Word} {req : Requester} :
    Moves (logged [.regs, .staged5, .staged3, .seeded, .holding, .guards, .host]) s (State.aliasWrite s off b v req) := by
  unfold State.aliasWrite
  repeat' first
    | with_reducible apply Moves.refl
    | with_reducible assumption
    | (extract_lets -useContext -merge -underBinder +onlyGivenNames x; with_reducible apply Moves.cut (x := x); pick_goal 2; dsimp only [x]; clear x; pick_goal 2; clear_value x; intro hx)
    | (extract_lets -useContext -merge -underBinder +onlyGivenNames x; skip)
    | with_reducible apply Moves.ite
    | (with_reducible apply State.onReg_moves; decide; intro _ _)
    | (with_reducible apply Moves.step; (with_reducible first
        | apply State.unmapped_moves | apply State.writePlain_moves | apply State.guardDisturb_moves
        | apply State.writeApply_moves | apply State.writeSnap_moves); decide)
    | split
    | (clear_value *; split)

theorem execBitAliasWrite_ends {off : Nat} {b : Nat} {v : Word} {req : Requester} {s : State} :
    Ends (logged [.regs, .staged5, .staged3, .seeded, .holding, .guards, .host]) s (execBitAliasWrite off b v req s) := by
  unfold execBitAliasWrite
  repeat' first
    | with_reducible apply Moves.refl
    | with_reducible assumption
    | with_reducible apply Ends.next
    | with_reducible apply Moves.ite
    | with_reducible apply Ends.ite
    | (with_reducible apply Moves.step; (with_reducible first
        | apply State.aliasWrite_moves); decide)
    | split

theorem execW1cClear_ends {off : Nat} {v : Word} {req : Requester} {s : State} :
    Ends (logged [.regs]) s (execW1cClear off v req s) := by
  unfold execW1cClear
  repeat' first
    | with_reducible apply Moves.refl
    | with_reducible assumption
    | with_reducible apply Ends.next
    | with_reducible apply Moves.ite
    | with_reducible apply Ends.ite
    | (with_reducible apply State.onReg_moves; decide; intro _ _)
    | (with_reducible apply Moves.step; (with_reducible first
        | apply State.writePlain_moves); decide)
    | split

theorem State.orNext_moves {ps : List Part} {a s : State} {r : Result} (h : Ends ps a r) : Moves ps a (s.orNext r) := by
  obtain ⟨t, rfl, hm⟩ := h
  exact hm

theorem State.writeTierCmd_moves {s : State} {v : Word} {req : Requester} :
    Moves (logged [.fresh, .regs, .mem, .poison, .dunes, .tier]) s (State.writeTierCmd s v req) := by
  unfold State.writeTierCmd
  repeat' first
    | with_reducible apply Moves.refl
    | with_reducible assumption
    | (extract_lets -useContext -merge -underBinder +onlyGivenNames x; with_reducible apply Moves.cut (x := x); pick_goal 2; dsimp only [x]; clear x; pick_goal 2; clear_value x; intro hx)
    | (extract_lets -useContext -merge -underBinder +onlyGivenNames x; skip)
    | (with_reducible apply Moves.step; (with_reducible first
        | apply State.orNext_moves | apply State.tierFlush_moves | apply State.tierReserved_moves); decide)
    | (with_reducible apply Ends.step; (with_reducible first
        | apply execTierRegister_ends | apply execTierUnregister_ends | apply execTierLoad_ends
        | apply execTierPromote_ends | apply execTierEvict_ends); decide)
    | with_reducible apply State.orNext_moves
    | split
    | (clear_value *; split)

theorem State.writeMsix_moves {s : State} {off : Nat} {v : Word} {req : Requester} :
    Moves (logged [.regs, .host]) s (State.writeMsix s off v req) := by
  unfold State.writeMsix
  repeat' first
    | with_reducible apply Moves.refl
    | with_reducible assumption
    | (extract_lets -useContext -merge -underBinder +onlyGivenNames x; with_reducible apply Moves.cut (x := x); pick_goal 2; dsimp only [x]; clear x; pick_goal 2; clear_value x; intro hx)
    | (extract_lets -useContext -merge -underBinder +onlyGivenNames x; skip)
    | with_reducible apply Moves.ite
    | (with_reducible apply State.onReg_moves; decide; intro _ _)
    | (with_reducible apply Moves.step; (with_reducible first
        | apply State.maskVector_moves | apply State.setReg_moves | apply State.logWrite_moves); decide)
    | split
    | (clear_value *; split)

theorem State.writeWakeRing_moves {s : State} {off : Nat} {v : Word} {req : Requester} :
    Moves (logged [.regs]) s (State.writeWakeRing s off v req) := by
  unfold State.writeWakeRing
  repeat' first
    | with_reducible apply Moves.refl
    | with_reducible assumption
    | (extract_lets -useContext -merge -underBinder +onlyGivenNames x; with_reducible apply Moves.cut (x := x); pick_goal 2; dsimp only [x]; clear x; pick_goal 2; clear_value x; intro hx)
    | (extract_lets -useContext -merge -underBinder +onlyGivenNames x; skip)
    | with_reducible apply Moves.ite
    | (with_reducible apply State.onReg_moves; decide; intro _ _)
    | (with_reducible apply State.checked_moves; decide; intro _ _)
    | (with_reducible apply Moves.step; (with_reducible first
        | apply State.writePlain_moves | apply State.logRefused_moves); decide)
    | split
    | (clear_value *; split)

theorem State.writeWord_moves {s : State} {off : Nat} {v : Word} {req : Requester} :
    Moves (allBut [.queue, .power, .pwrGood, .etc, .timer, .dev, .fault, .ident, .sec, .crash, .lastRing, .mbs, .stateMb, .mbQueue, .islands, .flashGone, .cairn]) s (State.writeWord s off v req) := by
  unfold State.writeWord
  repeat' first
    | with_reducible apply Moves.refl
    | with_reducible assumption
    | (extract_lets -useContext -merge -underBinder +onlyGivenNames x; with_reducible apply Moves.cut (x := x); pick_goal 2; dsimp only [x]; clear x; pick_goal 2; clear_value x; intro hx)
    | (extract_lets -useContext -merge -underBinder +onlyGivenNames x; skip)
    | with_reducible apply Moves.ite
    | (with_reducible apply State.onReg_moves; decide; intro _ _)
    | (with_reducible apply State.checked_moves; decide; intro _ _)
    | (with_reducible apply Moves.step; (with_reducible first
        | apply State.writePlain_moves | apply State.wcbFlush_moves | apply State.guardArm_moves
        | apply State.twinWrite_moves | apply State.writeApply_moves | apply State.writeSnap_moves
        | apply State.orNext_moves | apply State.writeTierCmd_moves | apply State.writeMsix_moves
        | apply State.writeWakeRing_moves | apply State.writeLrCfg_moves | apply State.writeRingReg_moves
        | apply State.schedCmd_moves | apply State.writePortCtrl_moves | apply State.settleHeat_moves
        | apply State.lowFrames_moves | apply State.restartDecay_moves); decide)
    | (with_reducible apply Ends.step; (with_reducible first
        | apply execKvRingTailWrite_ends | apply execLowpEvalStart_ends | apply execDoorbellWrite_ends
        | apply execCqHeadWrite_ends | apply execWakeRingTailWrite_ends); decide)
    | with_reducible apply State.orNext_moves
    | split
    | (clear_value *; split)

theorem State.writeMailbox_moves {s : State} {m : Nat} {o : Nat} {v : Word} {be : BitVec 4} {req : Requester} :
    Moves (allBut [.queue, .power, .pwrGood, .etc, .timer, .fault, .ident, .crash, .staged5, .staged3, .seeded, .holding, .lastRing, .wakes, .host, .islands, .flashGone]) s (State.writeMailbox s m o v be req) := by
  unfold State.writeMailbox
  repeat' first
    | with_reducible apply Moves.refl
    | with_reducible assumption
    | (extract_lets -useContext -merge -underBinder +onlyGivenNames x; with_reducible apply Moves.cut (x := x); pick_goal 2; dsimp only [x]; clear x; pick_goal 2; clear_value x; intro hx)
    | (extract_lets -useContext -merge -underBinder +onlyGivenNames x; skip)
    | with_reducible apply Moves.ite
    | (with_reducible apply State.onReg_moves; decide; intro _ _)
    | (with_reducible apply Moves.step; (with_reducible first
        | apply State.unmapped_moves | apply State.writePlain_moves | apply State.ringMb_moves
        | apply State.fillMb_moves); decide)
    | (with_reducible apply Moves.foldl; intro _ _ _)
    | split
    | (clear_value *; split)

theorem execRegisterWrite_ends {off : Nat} {v : Word} {be : BitVec 4} {req : Requester} {s : State} :
    Ends (allBut [.queue, .power, .pwrGood, .etc, .timer, .fault, .ident, .crash, .lastRing, .islands, .flashGone]) s (execRegisterWrite off v be req s) := by
  unfold execRegisterWrite
  repeat' first
    | with_reducible apply Moves.refl
    | with_reducible assumption
    | with_reducible apply Ends.next
    | with_reducible apply Moves.ite
    | with_reducible apply Ends.ite
    | (with_reducible apply State.onReg_moves; decide; intro _ _)
    | (with_reducible apply Moves.step; (with_reducible first
        | apply State.unmapped_moves | apply State.aliasWrite_moves | apply State.writeWord_moves
        | apply State.writeMailbox_moves); decide)
    | split

theorem execRegisterAccessTimeout_ends {off : Nat} {write : Option Word} {req : Requester} {s : State} :
    Ends (logged [.regs]) s (execRegisterAccessTimeout off write req s) := by
  unfold execRegisterAccessTimeout
  repeat' first
    | with_reducible apply Moves.refl
    | with_reducible assumption
    | with_reducible apply Ends.next
    | with_reducible apply Moves.ite
    | with_reducible apply Ends.ite
    | (with_reducible apply State.reach_moves; decide; intro _ _)
    | (with_reducible apply Moves.step; (with_reducible first
        | apply State.regTimeout_moves); decide)
    | split

theorem State.readReg_snd {s : State} {off : Nat} {req : Requester} :
    Moves (logged [.regs, .guards]) s (State.readReg s off req).2 := by
  unfold State.readReg
  repeat' first
    | with_reducible apply Moves.refl
    | with_reducible assumption
    | (extract_lets -useContext -merge -underBinder +onlyGivenNames x; with_reducible apply Moves.cut (x := x); pick_goal 2; dsimp only [x]; clear x; pick_goal 2; clear_value x; intro hx)
    | (extract_lets -useContext -merge -underBinder +onlyGivenNames x; skip)
    | with_reducible apply Moves.ite
    | (with_reducible apply Moves.step; (with_reducible first
        | apply State.regTimeout_moves | apply State.guardDisturb_moves); decide)
    | (with_reducible apply Moves.of_pair; assumption)
    | (with_reducible apply Moves.of_reply; assumption)
    | split
    | (clear_value *; split)

theorem State.readReg_moves {s : State} {off : Nat} {req : Requester} {w : Word} {t : State} (h : State.readReg s off req = (w, t)) :
    Moves (logged [.regs, .guards]) s t := by
  have k := State.readReg_snd (s := s) (off := off) (req := req)
  rw [h] at k
  exact k

end Sys2Proof.Machine
end

