-- ==== Sys2Proof/Laws/FrameSweepMsg.lean ====
section
/-! SUPPORT. What the functions of Machine/SweepMsg.lean may change. -/

set_option linter.unusedTactic false
set_option linter.unreachableTactic false
set_option linter.tactic.unusedName false

namespace Sys2Proof.Machine

open Sys2Proof.Laws Sys2Proof.Safety

theorem State.refusePeer_moves {s : State} {p : Nat} {typ : Nat} {m : Msg} :
    Moves (logged [.regs, .ports]) s (State.refusePeer s p typ m) := by
  unfold State.refusePeer
  repeat' first
    | with_reducible apply Moves.refl
    | with_reducible assumption
    | (extract_lets -useContext -merge -underBinder +onlyGivenNames x; with_reducible apply Moves.cut (x := x); pick_goal 2; dsimp only [x]; clear x; pick_goal 2; clear_value x; intro hx)
    | (extract_lets -useContext -merge -underBinder +onlyGivenNames x; skip)
    | (with_reducible apply Moves.step; (with_reducible first
        | apply State.sendMsg_moves | apply State.bump_moves | apply State.emit_moves); decide)

theorem State.fromPeer_ends {ps : List Part} {a : State} {s : State} {p : Nat} {go : State → State}
    (hk : partsIn [] ps = true)
    (hg : ∀ s, Moves ps a s → Moves ps a (go s)) (h : Moves ps a s) : Ends ps a (State.fromPeer s p go) := by
  unfold State.fromPeer
  repeat' first
    | with_reducible assumption
    | with_reducible apply Ends.next
    | with_reducible apply Moves.ite
    | with_reducible apply Ends.ite
    | with_reducible apply hg
    | split

theorem execRdReq_ends {p : Nat} {m : Msg} {s : State} :
    Ends (logged [.fresh, .regs, .mem, .poison, .sculls, .crews, .ergs, .ctrs, .tasks, .rings, .dunes, .tier, .kv, .lowp, .ports, .rigger, .colls, .peers, .sched]) s (execRdReq p m s) := by
  unfold execRdReq
  repeat' first
    | with_reducible apply Moves.refl
    | with_reducible assumption
    | with_reducible apply Ends.next
    | (extract_lets -useContext -merge -underBinder +onlyGivenNames x; with_reducible apply Moves.cut (x := x); pick_goal 2; dsimp only [x]; clear x; pick_goal 2; clear_value x; intro hx)
    | (extract_lets -useContext -merge -underBinder +onlyGivenNames x; with_reducible apply Ends.cut (x := x); pick_goal 2; dsimp only [x]; clear x; pick_goal 2; clear_value x; intro hx)
    | (extract_lets -useContext -merge -underBinder +onlyGivenNames x; skip)
    | with_reducible apply Moves.ite
    | with_reducible apply Ends.ite
    | (with_reducible apply State.fromPeer_ends; decide; intro _ _)
    | (with_reducible apply Moves.step; (with_reducible first
        | apply State.quarantine_moves | apply State.countRead_moves | apply State.sendMsg_moves
        | apply State.refusePeer_moves); decide)
    | split
    | (clear_value *; split)

theorem execWrReq_ends {p : Nat} {m : Msg} {s : State} :
    Ends (logged [.fresh, .regs, .mem, .poison, .sculls, .crews, .ergs, .ctrs, .tasks, .rings, .dunes, .tier, .kv, .lowp, .ports, .rigger, .colls, .peers, .sched]) s (execWrReq p m s) := by
  unfold execWrReq
  repeat' first
    | with_reducible apply Moves.refl
    | with_reducible assumption
    | with_reducible apply Ends.next
    | (extract_lets -useContext -merge -underBinder +onlyGivenNames x; with_reducible apply Moves.cut (x := x); pick_goal 2; dsimp only [x]; clear x; pick_goal 2; clear_value x; intro hx)
    | (extract_lets -useContext -merge -underBinder +onlyGivenNames x; with_reducible apply Ends.cut (x := x); pick_goal 2; dsimp only [x]; clear x; pick_goal 2; clear_value x; intro hx)
    | (extract_lets -useContext -merge -underBinder +onlyGivenNames x; skip)
    | with_reducible apply Moves.ite
    | with_reducible apply Ends.ite
    | (with_reducible apply State.fromPeer_ends; decide; intro _ _)
    | (with_reducible apply Moves.step; (with_reducible first
        | apply State.quarantine_moves | apply State.sendMsg_moves | apply State.write_moves
        | apply State.poisonPiece_moves | apply State.refusePeer_moves); decide)
    | (with_reducible apply Moves.foldl; intro _ _ _)
    | split
    | (clear_value *; split)

theorem State.dropPeer_moves {s : State} {tag : Nat} :
    Moves [.peers] s (State.dropPeer s tag) := by
  unfold State.dropPeer
  repeat' first
    | with_reducible apply Moves.refl
    | with_reducible assumption
    | (with_reducible apply Moves.step; (with_reducible apply Moves.upd_peers); decide)

theorem State.settleReads_moves {s : State} {id : Nat} :
    Moves (logged [.fresh, .regs, .mem, .poison, .sculls, .tasks, .dunes, .tier, .ports, .peers]) s (State.settleReads s id) := by
  unfold State.settleReads
  repeat' first
    | with_reducible apply Moves.refl
    | with_reducible assumption
    | (extract_lets -useContext -merge -underBinder +onlyGivenNames x; with_reducible apply Moves.cut (x := x); pick_goal 2; dsimp only [x]; clear x; pick_goal 2; clear_value x; intro hx)
    | (extract_lets -useContext -merge -underBinder +onlyGivenNames x; skip)
    | (with_reducible apply Moves.step; (with_reducible first
        | apply State.pumpScull_moves | apply State.setTask_moves); decide)

theorem execRdRsp_ends {p : Nat} {m : Msg} {s : State} :
    Ends (logged [.fresh, .regs, .mem, .poison, .sculls, .crews, .ergs, .ctrs, .tasks, .rings, .dunes, .tier, .kv, .lowp, .ports, .peers, .sched]) s (execRdRsp p m s) := by
  unfold execRdRsp
  repeat' first
    | with_reducible apply Moves.refl
    | with_reducible assumption
    | with_reducible apply Ends.next
    | (extract_lets -useContext -merge -underBinder +onlyGivenNames x; with_reducible apply Moves.cut (x := x); pick_goal 2; dsimp only [x]; clear x; pick_goal 2; clear_value x; intro hx)
    | (extract_lets -useContext -merge -underBinder +onlyGivenNames x; with_reducible apply Ends.cut (x := x); pick_goal 2; dsimp only [x]; clear x; pick_goal 2; clear_value x; intro hx)
    | (extract_lets -useContext -merge -underBinder +onlyGivenNames x; skip)
    | with_reducible apply Moves.ite
    | with_reducible apply Ends.ite
    | (with_reducible apply State.fromPeer_ends; decide; intro _ _)
    | (with_reducible apply Moves.step; (with_reducible first
        | apply State.failRun_moves | apply State.setTask_moves | apply State.emit_moves | apply State.dropPeer_moves
        | apply State.settleReads_moves | apply State.advance_moves); decide)
    | split
    | (clear_value *; split)

theorem execWrAck_ends {p : Nat} {m : Msg} {s : State} :
    Ends (logged [.fresh, .regs, .mem, .poison, .sculls, .crews, .ergs, .ctrs, .tasks, .rings, .dunes, .tier, .kv, .lowp, .peers, .sched]) s (execWrAck p m s) := by
  unfold execWrAck
  repeat' first
    | with_reducible apply Moves.refl
    | with_reducible assumption
    | with_reducible apply Ends.next
    | (extract_lets -useContext -merge -underBinder +onlyGivenNames x; with_reducible apply Moves.cut (x := x); pick_goal 2; dsimp only [x]; clear x; pick_goal 2; clear_value x; intro hx)
    | (extract_lets -useContext -merge -underBinder +onlyGivenNames x; with_reducible apply Ends.cut (x := x); pick_goal 2; dsimp only [x]; clear x; pick_goal 2; clear_value x; intro hx)
    | (extract_lets -useContext -merge -underBinder +onlyGivenNames x; skip)
    | with_reducible apply Moves.ite
    | with_reducible apply Ends.ite
    | (with_reducible apply State.fromPeer_ends; decide; intro _ _)
    | (with_reducible apply Moves.step; (with_reducible first
        | apply State.doneTask_moves | apply State.emit_moves | apply State.dropPeer_moves); decide)
    | split
    | (clear_value *; split)

theorem execPeerTimeout_ends {tag : Nat} {s : State} :
    Ends (logged [.fresh, .regs, .mem, .poison, .sculls, .crews, .ergs, .ctrs, .tasks, .rings, .dunes, .tier, .kv, .lowp, .ports, .peers, .sched]) s (execPeerTimeout tag s) := by
  unfold execPeerTimeout
  repeat' first
    | with_reducible apply Moves.refl
    | with_reducible assumption
    | with_reducible apply Ends.next
    | (extract_lets -useContext -merge -underBinder +onlyGivenNames x; with_reducible apply Moves.cut (x := x); pick_goal 2; dsimp only [x]; clear x; pick_goal 2; clear_value x; intro hx)
    | (extract_lets -useContext -merge -underBinder +onlyGivenNames x; with_reducible apply Ends.cut (x := x); pick_goal 2; dsimp only [x]; clear x; pick_goal 2; clear_value x; intro hx)
    | (extract_lets -useContext -merge -underBinder +onlyGivenNames x; skip)
    | with_reducible apply Moves.ite
    | with_reducible apply Ends.ite
    | (with_reducible apply Moves.step; (with_reducible first
        | apply State.doneTask_moves | apply State.failRun_moves | apply State.settleReads_moves); decide)
    | split
    | (clear_value *; split)
    | (with_reducible apply Moves.step; (with_reducible apply Moves.upd_peers); decide)

end Sys2Proof.Machine
end

