-- ==== Sys2Proof/Laws/FrameExpire.lean ====
section
/-! SUPPORT. What the functions of Machine/Expire.lean may change. -/

set_option linter.unusedTactic false
set_option linter.unreachableTactic false
set_option linter.tactic.unusedName false

namespace Sys2Proof.Machine

open Sys2Proof.Laws Sys2Proof.Safety

theorem State.expireEach_moves {ps : List Part} {a s : State} {f : Nat → State → Result} {is : List Nat}
    (hf : ∀ t i, Moves ps a t → Ends ps a (f i t)) (h : Moves ps a s) : Moves ps a (s.expireEach f is) :=
  Moves.foldl (fun t i ht => State.orNext_moves (hf t i ht)) h is

theorem State.expireModule_moves {s : State} :
    Moves (allBut [.queue, .power, .pwrGood, .etc, .timer, .fault, .ident, .life, .sec, .crash, .staged5, .staged3, .seeded, .holding, .lastRing, .stateMb, .mbQueue, .host, .islands, .cairn]) s (State.expireModule s) := by
  unfold State.expireModule
  repeat' first
    | with_reducible apply Moves.refl
    | with_reducible assumption
    | (extract_lets -useContext -merge -underBinder +onlyGivenNames x; with_reducible apply Moves.cut (x := x); pick_goal 2; dsimp only [x]; clear x; pick_goal 2; clear_value x; intro hx)
    | (extract_lets -useContext -merge -underBinder +onlyGivenNames x; skip)
    | (with_reducible apply Moves.step; (with_reducible first
        | apply State.orNext_moves); decide)
    | (with_reducible apply Ends.step; (with_reducible first
        | apply execCairnDrainUsExpiry_ends | apply execGuardPendingTimeout_ends | apply execIslandRelockTimeout_ends
        | apply execLowFlowSwitchOff_ends | apply execStartStepTimeout_ends); decide)
    | (with_reducible apply State.expireEach_moves; intro _ _ _)
    | with_reducible apply State.orNext_moves

theorem State.expireTasks_moves {s : State} :
    Moves (logged [.fresh, .nv, .regs, .mem, .poison, .sculls, .crews, .ergs, .ctrs, .tasks, .rings, .dunes, .tier, .kv, .lowp, .ports, .peers, .sched]) s (State.expireTasks s) := by
  unfold State.expireTasks
  repeat' first
    | with_reducible apply Moves.refl
    | with_reducible assumption
    | (extract_lets -useContext -merge -underBinder +onlyGivenNames x; with_reducible apply Moves.cut (x := x); pick_goal 2; dsimp only [x]; clear x; pick_goal 2; clear_value x; intro hx)
    | (extract_lets -useContext -merge -underBinder +onlyGivenNames x; skip)
    | with_reducible apply Moves.ite
    | (with_reducible apply Moves.step; (with_reducible first
        | apply State.orNext_moves); decide)
    | (with_reducible apply Ends.step; (with_reducible first
        | apply execWcbEntryTimeout_ends | apply execStackPowerRemove_ends | apply execHandbackTimeout_ends
        | apply execDeadlineExpiry_ends | apply execDrainLimitExpiry_ends); decide)
    | (with_reducible apply State.expireEach_moves; intro _ _ _)
    | with_reducible apply State.orNext_moves
    | (with_reducible apply Moves.foldl; intro _ _ _)
    | split
    | (clear_value *; split)

theorem State.expireLinks_moves {s : State} :
    Moves (logged [.fresh, .regs, .mem, .poison, .sculls, .crews, .ergs, .ctrs, .tasks, .rings, .dunes, .tier, .kv, .lowp, .wakes, .ports, .rigger, .colls, .peers, .sched]) s (State.expireLinks s) := by
  unfold State.expireLinks
  repeat' first
    | with_reducible apply Moves.refl
    | with_reducible assumption
    | (extract_lets -useContext -merge -underBinder +onlyGivenNames x; with_reducible apply Moves.cut (x := x); pick_goal 2; dsimp only [x]; clear x; pick_goal 2; clear_value x; intro hx)
    | (extract_lets -useContext -merge -underBinder +onlyGivenNames x; skip)
    | (with_reducible apply Ends.step; (with_reducible first
        | apply execPhaseTimerExpiry_ends | apply execMemberGuardExpiry_ends | apply execPeerTimeout_ends
        | apply execTrainingTimeout_ends | apply execDownRetryExpiry_ends | apply execAttestTimeout_ends
        | apply execRekeyTimeout_ends | apply execCreditStarvation_ends | apply execWakeFrameWatchdog_ends); decide)
    | (with_reducible apply State.expireEach_moves; intro _ _ _)
    | (with_reducible apply Moves.foldl; intro _ _ _)

theorem State.expireDue_moves {s : State} :
    Moves (allBut [.queue, .power, .pwrGood, .etc, .timer, .fault, .ident, .life, .sec, .crash, .staged5, .staged3, .seeded, .holding, .lastRing, .stateMb, .mbQueue, .host, .islands, .cairn]) s (State.expireDue s) := by
  unfold State.expireDue
  repeat' first
    | with_reducible apply Moves.refl
    | with_reducible assumption
    | (with_reducible apply Moves.step; (with_reducible first
        | apply State.expireModule_moves | apply State.expireTasks_moves | apply State.expireLinks_moves); decide)

end Sys2Proof.Machine
end

