-- ==== Sys2Proof/Laws/FrameTick.lean ====
section
/-! SUPPORT. What the functions of Machine/Tick.lean may change. -/

set_option linter.unusedTactic false
set_option linter.unreachableTactic false
set_option linter.tactic.unusedName false

namespace Sys2Proof.Machine

open Sys2Proof.Laws Sys2Proof.Safety

theorem State.count_moves {s : State} :
    Moves [.etc, .lossCounts, .regs] s (State.count s) := by
  unfold State.count
  repeat' first
    | with_reducible apply Moves.refl
    | with_reducible assumption
    | (extract_lets -useContext -merge -underBinder +onlyGivenNames x; with_reducible apply Moves.cut (x := x); pick_goal 2; dsimp only [x]; clear x; pick_goal 2; clear_value x; intro hx)
    | (extract_lets -useContext -merge -underBinder +onlyGivenNames x; skip)
    | with_reducible apply Moves.ite
    | (with_reducible apply Moves.step; (with_reducible first
        | apply State.bump_moves); decide)
    | split
    | (clear_value *; split)
    | (with_reducible apply Moves.step; (with_reducible apply Moves.upd_etc); decide)

theorem State.tick_moves {s : State} :
    Moves (allBut [.queue, .power, .pwrGood, .timer, .fault, .ident, .life, .sec, .crash, .staged5, .staged3, .seeded, .holding, .lastRing, .stateMb, .mbQueue, .host, .islands, .cairn]) s (State.tick s) := by
  unfold State.tick
  repeat' first
    | with_reducible apply Moves.refl
    | with_reducible assumption
    | with_reducible apply Moves.ite
    | (with_reducible apply Moves.step; (with_reducible first
        | apply State.expireDue_moves | apply State.count_moves); decide)
    | split

end Sys2Proof.Machine
end

