-- ==== Sys2Proof/Laws/Logs.lean ====
section
/-! SUPPORT. What logging an event leaves behind: the event is the newest record, or its window counts it. -/

namespace Sys2Proof.Machine

open Sys2Proof.Laws Sys2Proof.Safety

/-- What the non-volatile store's rest shows stays with it. -/
theorem nv_of_same {β : Type} {s t : State} (h : Part.same s t .nv) (f : Nv → β)
    (hf : ∀ v : Nv, f { v with variant := .yd1f, serial := [], lifecycle := 0, lcUsed := 0, reserved := 0 } = f v) :
    f t.nv = f s.nv := by
  have k := congrArg f h
  rw [hf, hf] at k
  exact k

/-- What the start record's rest shows stays with it. -/
theorem start_of_same {β : Type} {s t : State} (h : Part.same s t .start) (f : Start → β)
    (hf : ∀ v : Start, f { v with logOpen := true } = f v) : f t.start = f s.start := by
  have k := congrArg f h
  rw [hf, hf] at k
  exact k

/-- What the host port's rest shows stays with it. -/
theorem host_of_same {β : Type} {s t : State} (h : Part.same s t .host) (f : HostPort → β)
    (hf : ∀ v : HostPort, f { v with vecPend := [] } = f v) : f t.host = f s.host := by
  have k := congrArg f h
  rw [hf, hf] at k
  exact k

/-- The newest record of a state is one with these fields. -/
def State.topIs (t s : State) (cls ident sev code : Nat) (st : Status) (pl : List Word) : Prop :=
  ∃ r, t.log.ring.head? = some r ∧ r.number + 1 = t.log.next ∧ r.etc = s.etc ∧ r.epoch = s.nv.epoch ∧ r.cls = cls ∧
    r.ident = ident ∧ r.severity = sev ∧ r.code = code ∧ r.status = st ∧ r.payload = (pl ++ List.replicate 6 0).take 6

theorem State.raise_sameLog (s : State) (v : Nat) : (s.raise v).log = s.log := raise_moves.frame .log (by decide)

theorem State.bump_sameLog (s : State) (o l n : Nat) : (s.bump o l n).log = s.log := rfl

/-- A new record is the newest of the ring; no window opens or closes. -/
theorem State.writeRec_top (s : State) (cls ident sev code : Nat) (st : Status) (pl : List Word) :
    (s.writeRec cls ident sev code st pl).topIs s cls ident sev code st pl ∧
    (s.writeRec cls ident sev code st pl).log.windows = s.log.windows := by
  unfold State.writeRec
  extract_lets l r0 r full old gone l' src nv s1 s2
  have k : s2.log = l' := by
    dsimp only [s2]
    split <;> rfl
  have e : (if decide (s2.fld 0x270 8 1 = 1) && decide (s2.fld 0x270 9 2 ≤ sev) then s2.raise (s2.fld 0x270 0 8) else s2).log = l' := by
    split
    · rw [State.raise_sameLog, k]
    · exact k
  unfold State.topIs
  rw [e]
  exact ⟨⟨r, rfl, rfl, rfl, rfl, rfl, rfl, rfl, rfl, rfl, rfl⟩, rfl⟩

/-- Reporting a loss writes LOG_LOSS, which opens no window. -/
theorem State.reportLoss_windows (s : State) : s.reportLoss.log.windows = s.log.windows := by
  unfold State.reportLoss
  split
  · split
    · exact (State.writeRec_top _ _ _ _ _ _ _).2
    · rfl
  · rfl

theorem State.record_top (s : State) (cls ident sev code : Nat) (st : Status) (pl : List Word) :
    (s.record cls ident sev code st pl).topIs s cls ident sev code st pl ∧
    (s.record cls ident sev code st pl).log.windows =
      s.log.windows ++ (if neverSuppressed sev code then [] else [⟨code, cls, ident, st, sev, s.etc, 0⟩]) := by
  unfold State.record
  have h := State.writeRec_top s cls ident sev code st pl
  have he : (s.writeRec cls ident sev code st pl).etc = s.etc := State.writeRec_moves.frame .etc (by decide)
  extract_lets s1
  split
  · exact ⟨h.1, by rw [h.2, List.append_nil]⟩
  · refine ⟨h.1, ?_⟩
    dsimp only [s1]
    rw [h.2, he]

theorem State.emit_sameEtc (s : State) (cls ident sev code : Nat) (st : Status) (pl : List Word) :
    (s.emit cls ident sev code st pl).etc = s.etc := State.emit_moves.frame .etc (by decide)

theorem State.emit_epoch (s : State) (cls ident sev code : Nat) (st : Status) (pl : List Word) :
    (s.emit cls ident sev code st pl).nv.epoch = s.nv.epoch := by
  exact nv_of_same (State.emit_moves.frame .nv (by decide)) Nv.epoch fun _ => rfl

/-- An event that is logged is the newest record, or its window counts it. -/
theorem State.emit_recorded (s : State) (cls ident sev code : Nat) (st : Status) (pl : List Word) :
    recorded (s.emit cls ident sev code st pl) cls ident sev code st pl := by
  have ht := s.emit_sameEtc cls ident sev code st pl
  have hp := s.emit_epoch cls ident sev code st pl
  have key : (s.emit cls ident sev code st pl).topIs s cls ident sev code st pl ∨
      (neverSuppressed sev code = false ∧ ∃ w ∈ (s.emit cls ident sev code st pl).log.windows, w.hits cls ident code st = true ∧ 0 < w.count) := by
    unfold State.emit
    extract_lets s1 s2 ws src
    have e1 : s1.etc = s.etc ∧ s1.nv.epoch = s.nv.epoch := by
      dsimp only [s1]
      split
      · exact ⟨rfl, rfl⟩
      · refine ⟨State.openBoot_moves.frame .etc (by decide), ?_⟩
        exact nv_of_same (State.openBoot_moves.frame .nv (by decide)) Nv.epoch fun _ => rfl
    have e2 : s2.etc = s.etc ∧ s2.nv.epoch = s.nv.epoch := by
      refine ⟨(State.reportLoss_moves.frame .etc (by decide) : s2.etc = s1.etc).trans e1.1, ?_⟩
      exact (nv_of_same (State.reportLoss_moves.frame .nv (by decide)) Nv.epoch fun _ => rfl).trans e1.2
    split
    · rename_i h
      simp only [Bool.and_eq_true, Bool.not_eq_true', List.any_eq_true] at h
      obtain ⟨hn, w, hw, hh⟩ := h
      refine .inr ⟨hn, { w with count := w.count + 1 }, ?_, hh, Nat.succ_pos _⟩
      rw [State.bump_sameLog]
      exact List.mem_map.2 ⟨w, hw, by simp [hh]⟩
    · left
      have := (State.record_top s2 cls ident sev code st pl).1
      unfold State.topIs at this ⊢
      rw [e2.1, e2.2] at this
      exact this
  rcases key with ⟨r, h⟩ | h
  · exact .inl ⟨r, h.1, h.2.1, h.2.2.1.trans ht.symm, h.2.2.2.1.trans hp.symm, h.2.2.2.2⟩
  · exact .inr h

theorem State.writeRec_area (s : State) (cls ident sev code : Nat) (st : Status) (pl : List Word) :
    (s.writeRec cls ident sev code st pl).log.area = s.log.area := by
  unfold State.writeRec
  extract_lets l r0 r full old gone l' src nv s1 s2
  have k : s2.log = l' := by
    dsimp only [s2]
    split <;> rfl
  split
  · rw [State.raise_sameLog, k]
  · rw [k]

theorem State.record_area (s : State) (cls ident sev code : Nat) (st : Status) (pl : List Word) :
    (s.record cls ident sev code st pl).log.area = s.log.area := by
  unfold State.record
  extract_lets s1
  have h : s1.log.area = s.log.area := State.writeRec_area s cls ident sev code st pl
  split <;> exact h

/-- Logging leaves the flash's log area. -/
theorem State.emit_area (s : State) (cls ident sev code : Nat) (st : Status) (pl : List Word) :
    (s.emit cls ident sev code st pl).log.area = s.log.area := by
  unfold State.emit
  extract_lets s1 s2 ws src
  have h1 : s1.log.area = s.log.area := by
    dsimp only [s1]
    split
    · rfl
    · unfold State.openBoot
      dsimp only
      rw [State.record_area]
      split
      · rw [State.record_area]
      · rw [State.record_area]
  have h2 : s2.log.area = s1.log.area := by
    dsimp only [s2]
    unfold State.reportLoss
    split
    · split
      · rw [State.writeRec_area]
      · rfl
    · rfl
  split
  · rw [State.bump_sameLog]
    exact h2.trans h1
  · rw [State.record_area, h2, h1]

/-- What leaves the log, ETC and the boot epoch leaves a recorded event recorded. -/
theorem recorded_of_moves {ps : List Part} {s t : State} {cls ident sev code : Nat} {st : Status} {pl : List Word}
    (h : recorded s cls ident sev code st pl) (m : Moves ps s t) (hp : partsIn ps (allBut [.log, .etc, .nv]) = true) :
    recorded t cls ident sev code st pl := by
  have hl : t.log = s.log := m.frame .log fun k => absurd (mem_of_partsIn hp k) (by decide)
  have he : t.etc = s.etc := m.frame .etc fun k => absurd (mem_of_partsIn hp k) (by decide)
  have hn : Part.same s t .nv := m.frame .nv fun k => absurd (mem_of_partsIn hp k) (by decide)
  unfold recorded
  rw [hl, he, nv_of_same hn Nv.epoch fun _ => rfl]
  exact h

end Sys2Proof.Machine
end

