-- ==== Sys2Proof/Laws/PerInstr.lean ====
section
/-! SUPPORT. Laws stated for every command, one lemma per constructor. `Wordless`: the table gives no row any bits, so no table
word spells the command; it reaches the machine through its queue alone. -/

namespace Sys2Proof.Laws.Wordless

/-- No word of any length spells the command. -/
def Statement (i : Instr) : Prop := ∀ nbits w : Nat, decodeTableWord nbits w ≠ some i

theorem powerApplied : Statement .powerApplied := fun _ _ => Option.some_ne_none _ ∘ Eq.symm
theorem resetN (lowNs : Nat) (retainedGood : Bool) : Statement (.resetN lowNs retainedGood) := fun _ _ => Option.some_ne_none _ ∘ Eq.symm
theorem inputSwitchOff : Statement .inputSwitchOff := fun _ _ => Option.some_ne_none _ ∘ Eq.symm
theorem powerRestore : Statement .powerRestore := fun _ _ => Option.some_ne_none _ ∘ Eq.symm
theorem startDelayExpiry (retainedGood : Bool) : Statement (.startDelayExpiry retainedGood) := fun _ _ => Option.some_ne_none _ ∘ Eq.symm
theorem startStepComplete (r : StepReport) : Statement (.startStepComplete r) := fun _ _ => Option.some_ne_none _ ∘ Eq.symm
theorem startStepTimeout : Statement .startStepTimeout := fun _ _ => Option.some_ne_none _ ∘ Eq.symm
theorem startRetry : Statement .startRetry := fun _ _ => Option.some_ne_none _ ∘ Eq.symm
theorem lockstepMismatch : Statement .lockstepMismatch := fun _ _ => Option.some_ne_none _ ∘ Eq.symm
theorem coxWatchdogExpiry : Statement .coxWatchdogExpiry := fun _ _ => Option.some_ne_none _ ∘ Eq.symm
theorem entropyHealthFail : Statement .entropyHealthFail := fun _ _ => Option.some_ne_none _ ∘ Eq.symm
theorem islandLockLoss (i : Nat) : Statement (.islandLockLoss i) := fun _ _ => Option.some_ne_none _ ∘ Eq.symm
theorem islandRelock (i : Nat) : Statement (.islandRelock i) := fun _ _ => Option.some_ne_none _ ∘ Eq.symm
theorem islandRelockTimeout (i : Nat) : Statement (.islandRelockTimeout i) := fun _ _ => Option.some_ne_none _ ∘ Eq.symm
theorem delayLineRecal (crew : Nat) (line : Line) (margin : Nat) (tapsLeft : Bool) :
    Statement (.delayLineRecal crew line margin tapsLeft) := fun _ _ => Option.some_ne_none _ ∘ Eq.symm
theorem beatRateWindowEnd (erg : Nat) (mv : Nat) : Statement (.beatRateWindowEnd erg mv) := fun _ _ => Option.some_ne_none _ ∘ Eq.symm
theorem doorbellWrite (q : Nat) (v : Word) (req : Requester) :
    Statement (.doorbellWrite q v req) := fun _ _ => Option.some_ne_none _ ∘ Eq.symm
theorem ringFetchVisit (q : Nat) : Statement (.ringFetchVisit q) := fun _ _ => Option.some_ne_none _ ∘ Eq.symm
theorem descriptorReadComplete (q : Nat) (res : Ending) (bad : List Nat) (host : List Cell) :
    Statement (.descriptorReadComplete q res bad host) := fun _ _ => Option.some_ne_none _ ∘ Eq.symm
theorem taskTake (k : Nat) : Statement (.taskTake k) := fun _ _ => Option.some_ne_none _ ∘ Eq.symm
theorem taskSteal (k : Nat) : Statement (.taskSteal k) := fun _ _ => Option.some_ne_none _ ∘ Eq.symm
theorem taskResume (k : Nat) (t : Nat) : Statement (.taskResume k t) := fun _ _ => Option.some_ne_none _ ∘ Eq.symm
theorem scullDmaComplete (k : Nat) (x : Nat) (res : Ending) (host : List Cell) (found : List (Nat × PieceCheck)) (fixed : Nat) :
    Statement (.scullDmaComplete k x res host found fixed) := fun _ _ => Option.some_ne_none _ ∘ Eq.symm
theorem taskCommit (k : Nat) (bufferOk : Bool) : Statement (.taskCommit k bufferOk) := fun _ _ => Option.some_ne_none _ ∘ Eq.symm
theorem taskDone (t : Nat) : Statement (.taskDone t) := fun _ _ => Option.some_ne_none _ ∘ Eq.symm
theorem residueMismatch (k : Nat) (slot : Nat) (block : Nat) :
    Statement (.residueMismatch k slot block) := fun _ _ => Option.some_ne_none _ ∘ Eq.symm
theorem accEccUe (k : Nat) : Statement (.accEccUe k) := fun _ _ => Option.some_ne_none _ ∘ Eq.symm
theorem storeEccUe (k : Nat) (offset : Nat) (site : StoreUe) :
    Statement (.storeEccUe k offset site) := fun _ _ => Option.some_ne_none _ ∘ Eq.symm
theorem taskHandback (k : Nat) : Statement (.taskHandback k) := fun _ _ => Option.some_ne_none _ ∘ Eq.symm
theorem handbackTimeout (k : Nat) : Statement (.handbackTimeout k) := fun _ _ => Option.some_ne_none _ ∘ Eq.symm
theorem scullSelfTestDone (k : Nat) (pass : Bool) : Statement (.scullSelfTestDone k pass) := fun _ _ => Option.some_ne_none _ ∘ Eq.symm
theorem seifMismatch (c : Nat) : Statement (.seifMismatch c) := fun _ _ => Option.some_ne_none _ ∘ Eq.symm
theorem seifSelfTestDone (c : Nat) (pass : Bool) : Statement (.seifSelfTestDone c pass) := fun _ _ => Option.some_ne_none _ ∘ Eq.symm
theorem bowMismatch (d : Nat) : Statement (.bowMismatch d) := fun _ _ => Option.some_ne_none _ ∘ Eq.symm
theorem bowSelfTestDone (d : Nat) (pass : Bool) : Statement (.bowSelfTestDone d pass) := fun _ _ => Option.some_ne_none _ ∘ Eq.symm
theorem fenceComplete (q : Nat) : Statement (.fenceComplete q) := fun _ _ => Option.some_ne_none _ ∘ Eq.symm
theorem signal (t : Nat) : Statement (.signal t) := fun _ _ => Option.some_ne_none _ ∘ Eq.symm
theorem walkerEntryRead (t : Nat) (g : Nat) : Statement (.walkerEntryRead t g) := fun _ _ => Option.some_ne_none _ ∘ Eq.symm
theorem seifPageSuspend (t : Nat) : Statement (.seifPageSuspend t) := fun _ _ => Option.some_ne_none _ ∘ Eq.symm
theorem swapinServeComplete (res : Ending) (host : List Cell) :
    Statement (.swapinServeComplete res host) := fun _ _ => Option.some_ne_none _ ∘ Eq.symm
theorem kvRingTailWrite (r : Nat) (v : Word) (req : Requester) :
    Statement (.kvRingTailWrite r v req) := fun _ _ => Option.some_ne_none _ ∘ Eq.symm
theorem lowpEvalStart (req : Requester) : Statement (.lowpEvalStart req) := fun _ _ => Option.some_ne_none _ ∘ Eq.symm
theorem lowpEvalComplete : Statement .lowpEvalComplete := fun _ _ => Option.some_ne_none _ ∘ Eq.symm
theorem wcbEntryTimeout (s : Nat) (line : Nat) (found : List (Nat × PieceCheck)) :
    Statement (.wcbEntryTimeout s line found) := fun _ _ => Option.some_ne_none _ ∘ Eq.symm
theorem wcbFlush (s : Nat) (req : Requester) (found : List (Nat × PieceCheck)) :
    Statement (.wcbFlush s req found) := fun _ _ => Option.some_ne_none _ ∘ Eq.symm
theorem patrolScrubRead (s : Nat) (pieces : List PieceCheck) :
    Statement (.patrolScrubRead s pieces) := fun _ _ => Option.some_ne_none _ ∘ Eq.symm
theorem bandEvaluation (s : Nat) (temp : Nat) : Statement (.bandEvaluation s temp) := fun _ _ => Option.some_ne_none _ ∘ Eq.symm
theorem stackPowerRemove (s : Nat) : Statement (.stackPowerRemove s) := fun _ _ => Option.some_ne_none _ ∘ Eq.symm
theorem sramScrub (site : ScrubSite) (offset : Nat) (found : PieceCheck) :
    Statement (.sramScrub site offset found) := fun _ _ => Option.some_ne_none _ ∘ Eq.symm
theorem dunePhyCal (s : Nat) (lchan : Nat) (ok : Bool) : Statement (.dunePhyCal s lchan ok) := fun _ _ => Option.some_ne_none _ ∘ Eq.symm
theorem flashPatrol (page : Nat) (corrected : Nat) (readable : Bool) :
    Statement (.flashPatrol page corrected readable) := fun _ _ => Option.some_ne_none _ ∘ Eq.symm
theorem wearLevelling (block : Nat) (eraseCount : Nat) (least : Nat) :
    Statement (.wearLevelling block eraseCount least) := fun _ _ => Option.some_ne_none _ ∘ Eq.symm
theorem telemetrySample (readings : List (Nat × Word)) :
    Statement (.telemetrySample readings) := fun _ _ => Option.some_ne_none _ ∘ Eq.symm
theorem tierRegister (index : Nat) (req : Requester) : Statement (.tierRegister index req) := fun _ _ => Option.some_ne_none _ ∘ Eq.symm
theorem tierUnregister (index : Nat) (req : Requester) :
    Statement (.tierUnregister index req) := fun _ _ => Option.some_ne_none _ ∘ Eq.symm
theorem tierLoad (index : Nat) (req : Requester) (host : List Cell) :
    Statement (.tierLoad index req host) := fun _ _ => Option.some_ne_none _ ∘ Eq.symm
theorem tierFlush (req : Requester) : Statement (.tierFlush req) := fun _ _ => Option.some_ne_none _ ∘ Eq.symm
theorem tierPromote (index : Nat) (req : Requester) : Statement (.tierPromote index req) := fun _ _ => Option.some_ne_none _ ∘ Eq.symm
theorem tierEvict (index : Nat) (req : Requester) : Statement (.tierEvict index req) := fun _ _ => Option.some_ne_none _ ∘ Eq.symm
theorem copyInComplete (index : Nat) (ok : Bool) (host : List Cell) :
    Statement (.copyInComplete index ok host) := fun _ _ => Option.some_ne_none _ ∘ Eq.symm
theorem copyOutComplete (index : Nat) (ok : Bool) : Statement (.copyOutComplete index ok) := fun _ _ => Option.some_ne_none _ ∘ Eq.symm
theorem heatDecay : Statement .heatDecay := fun _ _ => Option.some_ne_none _ ∘ Eq.symm
theorem deadlineExpiry (k : Nat) (x : Nat) : Statement (.deadlineExpiry k x) := fun _ _ => Option.some_ne_none _ ∘ Eq.symm
theorem wakeRingTailWrite (w : Nat) (r : Nat) (v : Word) (req : Requester) :
    Statement (.wakeRingTailWrite w r v req) := fun _ _ => Option.some_ne_none _ ∘ Eq.symm
theorem wakeOpen (w : Nat) (r : Nat) (host : List Cell) : Statement (.wakeOpen w r host) := fun _ _ => Option.some_ne_none _ ∘ Eq.symm
theorem wakeRun (w : Nat) (r : Nat) (host : List Cell) : Statement (.wakeRun w r host) := fun _ _ => Option.some_ne_none _ ∘ Eq.symm
theorem wakeClose (w : Nat) (r : Nat) : Statement (.wakeClose w r) := fun _ _ => Option.some_ne_none _ ∘ Eq.symm
theorem wakeFrameDone (w : Nat) (r : Nat) (depth : Nat) (width : Nat) (height : Nat) (luma : List Nat) (cb : List Nat) (cr : List Nat) (coded : List Byte) (held : List Nat) (bad : Nat) (skipped : Nat) (host : List Cell) :
    Statement (.wakeFrameDone w r depth width height luma cb cr coded held bad skipped host) := fun _ _ => Option.some_ne_none _ ∘ Eq.symm
theorem wakeJobEnd (w : Nat) (r : Nat) (bad : Nat) (skipped : Nat) (consumed : Nat) (res : Ending) :
    Statement (.wakeJobEnd w r bad skipped consumed res) := fun _ _ => Option.some_ne_none _ ∘ Eq.symm
theorem wakeFrameWatchdog (w : Nat) (r : Nat) : Statement (.wakeFrameWatchdog w r) := fun _ _ => Option.some_ne_none _ ∘ Eq.symm
theorem wakeParityFail (w : Nat) : Statement (.wakeParityFail w) := fun _ _ => Option.some_ne_none _ ∘ Eq.symm
theorem wakeSelfTestDone (w : Nat) (pass : Bool) : Statement (.wakeSelfTestDone w pass) := fun _ _ => Option.some_ne_none _ ∘ Eq.symm
theorem portEnable (p : Nat) (v : Word) (req : Requester) : Statement (.portEnable p v req) := fun _ _ => Option.some_ne_none _ ∘ Eq.symm
theorem portDisable (p : Nat) (v : Word) (req : Requester) : Statement (.portDisable p v req) := fun _ _ => Option.some_ne_none _ ∘ Eq.symm
theorem readmit (p : Nat) (v : Word) (req : Requester) : Statement (.readmit p v req) := fun _ _ => Option.some_ne_none _ ∘ Eq.symm
theorem trainingDone (p : Nat) (lanes : BitVec 8) : Statement (.trainingDone p lanes) := fun _ _ => Option.some_ne_none _ ∘ Eq.symm
theorem trainingTimeout (p : Nat) : Statement (.trainingTimeout p) := fun _ _ => Option.some_ne_none _ ∘ Eq.symm
theorem downRetryExpiry (p : Nat) : Statement (.downRetryExpiry p) := fun _ _ => Option.some_ne_none _ ∘ Eq.symm
theorem attestTimeout (p : Nat) : Statement (.attestTimeout p) := fun _ _ => Option.some_ne_none _ ∘ Eq.symm
theorem flitReceive (p : Nat) (flit : List Byte) : Statement (.flitReceive p flit) := fun _ _ => Option.some_ne_none _ ∘ Eq.symm
theorem frameReceive (p : Nat) (f : Frame) : Statement (.frameReceive p f) := fun _ _ => Option.some_ne_none _ ∘ Eq.symm
theorem creditStarvation (p : Nat) (vc : Nat) : Statement (.creditStarvation p vc) := fun _ _ => Option.some_ne_none _ ∘ Eq.symm
theorem rekeyStart (p : Nat) : Statement (.rekeyStart p) := fun _ _ => Option.some_ne_none _ ∘ Eq.symm
theorem rekeyTimeout (p : Nat) : Statement (.rekeyTimeout p) := fun _ _ => Option.some_ne_none _ ∘ Eq.symm
theorem mgmtCert (p : Nat) (src : Nat) (index : Nat) (cert : List Byte) :
    Statement (.mgmtCert p src index cert) := fun _ _ => Option.some_ne_none _ ∘ Eq.symm
theorem mgmtKemEk (p : Nat) (ek : List Byte) (nonce : List Byte) :
    Statement (.mgmtKemEk p ek nonce) := fun _ _ => Option.some_ne_none _ ∘ Eq.symm
theorem mgmtKemCt (p : Nat) (ct : List Byte) (nonce : List Byte) :
    Statement (.mgmtKemCt p ct nonce) := fun _ _ => Option.some_ne_none _ ∘ Eq.symm
theorem mgmtSign (p : Nat) (sig : List Byte) (sender : Nat) (senderPort : Nat) :
    Statement (.mgmtSign p sig sender senderPort) := fun _ _ => Option.some_ne_none _ ∘ Eq.symm
theorem mgmtFinish (p : Nat) (hash : List Byte) (tagGood : Bool) :
    Statement (.mgmtFinish p hash tagGood) := fun _ _ => Option.some_ne_none _ ∘ Eq.symm
theorem mgmtRekeyEk (p : Nat) (ek : List Byte) (nonce : List Byte) :
    Statement (.mgmtRekeyEk p ek nonce) := fun _ _ => Option.some_ne_none _ ∘ Eq.symm
theorem mgmtRekeyCt (p : Nat) (ct : List Byte) (nonce : List Byte) :
    Statement (.mgmtRekeyCt p ct nonce) := fun _ _ => Option.some_ne_none _ ∘ Eq.symm
theorem mgmtRekeyDone (p : Nat) : Statement (.mgmtRekeyDone p) := fun _ _ => Option.some_ne_none _ ∘ Eq.symm
theorem mgmtQuoteReq (p : Nat) (nonce : List Byte) : Statement (.mgmtQuoteReq p nonce) := fun _ _ => Option.some_ne_none _ ∘ Eq.symm
theorem mgmtQuote (p : Nat) (quote : List Byte) : Statement (.mgmtQuote p quote) := fun _ _ => Option.some_ne_none _ ∘ Eq.symm
theorem mgmtLinkstat (p : Nat) (retry : Word) (err : Word) :
    Statement (.mgmtLinkstat p retry err) := fun _ _ => Option.some_ne_none _ ∘ Eq.symm
theorem linkstatSend (p : Nat) : Statement (.linkstatSend p) := fun _ _ => Option.some_ne_none _ ∘ Eq.symm
theorem rdReq (p : Nat) (m : Msg) : Statement (.rdReq p m) := fun _ _ => Option.some_ne_none _ ∘ Eq.symm
theorem rdRsp (p : Nat) (m : Msg) : Statement (.rdRsp p m) := fun _ _ => Option.some_ne_none _ ∘ Eq.symm
theorem wrReq (p : Nat) (m : Msg) : Statement (.wrReq p m) := fun _ _ => Option.some_ne_none _ ∘ Eq.symm
theorem wrAck (p : Nat) (m : Msg) : Statement (.wrAck p m) := fun _ _ => Option.some_ne_none _ ∘ Eq.symm
theorem peerTimeout (tag : Nat) : Statement (.peerTimeout tag) := fun _ _ => Option.some_ne_none _ ∘ Eq.symm
theorem collStart (p : Nat) (m : Msg) : Statement (.collStart p m) := fun _ _ => Option.some_ne_none _ ∘ Eq.symm
theorem chunkUp (p : Nat) (m : Msg) : Statement (.chunkUp p m) := fun _ _ => Option.some_ne_none _ ∘ Eq.symm
theorem chunkDown (p : Nat) (m : Msg) : Statement (.chunkDown p m) := fun _ _ => Option.some_ne_none _ ∘ Eq.symm
theorem ackUp (p : Nat) (m : Msg) : Statement (.ackUp p m) := fun _ _ => Option.some_ne_none _ ∘ Eq.symm
theorem collNote (p : Nat) (m : Msg) : Statement (.collNote p m) := fun _ _ => Option.some_ne_none _ ∘ Eq.symm
theorem collFinal (p : Nat) (m : Msg) : Statement (.collFinal p m) := fun _ _ => Option.some_ne_none _ ∘ Eq.symm
theorem flagUp (p : Nat) (m : Msg) : Statement (.flagUp p m) := fun _ _ => Option.some_ne_none _ ∘ Eq.symm
theorem flagDown (p : Nat) (m : Msg) : Statement (.flagDown p m) := fun _ _ => Option.some_ne_none _ ∘ Eq.symm
theorem phaseTimerExpiry (g : Nat) : Statement (.phaseTimerExpiry g) := fun _ _ => Option.some_ne_none _ ∘ Eq.symm
theorem memberGuardExpiry (g : Nat) : Statement (.memberGuardExpiry g) := fun _ _ => Option.some_ne_none _ ∘ Eq.symm
theorem reclaim (part : Nat) (req : Requester) : Statement (.reclaim part req) := fun _ _ => Option.some_ne_none _ ∘ Eq.symm
theorem schedReturn (part : Nat) (req : Requester) : Statement (.schedReturn part req) := fun _ _ => Option.some_ne_none _ ∘ Eq.symm
theorem drainLimitExpiry : Statement .drainLimitExpiry := fun _ _ => Option.some_ne_none _ ∘ Eq.symm
theorem beOverrun (k : Nat) : Statement (.beOverrun k) := fun _ _ => Option.some_ne_none _ ∘ Eq.symm
theorem ringEnable (q : Nat) (v : Word) (req : Requester) : Statement (.ringEnable q v req) := fun _ _ => Option.some_ne_none _ ∘ Eq.symm
theorem ringDisable (q : Nat) (v : Word) (req : Requester) : Statement (.ringDisable q v req) := fun _ _ => Option.some_ne_none _ ∘ Eq.symm
theorem cqHeadWrite (q : Nat) (v : Word) (req : Requester) : Statement (.cqHeadWrite q v req) := fun _ _ => Option.some_ne_none _ ∘ Eq.symm
theorem ringIrqHoldExpiry (q : Nat) : Statement (.ringIrqHoldExpiry q) := fun _ _ => Option.some_ne_none _ ∘ Eq.symm
theorem msixVectorUnmask (v : Option Nat) : Statement (.msixVectorUnmask v) := fun _ _ => Option.some_ne_none _ ∘ Eq.symm
theorem linkRetrain (width : Nat) (rate : Nat) (flit : Bool) :
    Statement (.linkRetrain width rate flit) := fun _ _ => Option.some_ne_none _ ∘ Eq.symm
theorem bar2Access (offset : Nat) (data : Option (List Byte)) (len : Nat) :
    Statement (.bar2Access offset data len) := fun _ _ => Option.some_ne_none _ ∘ Eq.symm
theorem cxlMemRequest (offset : Nat) (data : Option (List Byte)) (len : Nat) :
    Statement (.cxlMemRequest offset data len) := fun _ _ => Option.some_ne_none _ ∘ Eq.symm
theorem spdmRequest (request : List Byte) : Statement (.spdmRequest request) := fun _ _ => Option.some_ne_none _ ∘ Eq.symm
theorem ideKeySet (stream : Nat) : Statement (.ideKeySet stream) := fun _ _ => Option.some_ne_none _ ∘ Eq.symm
theorem ideIntegrityFail (stream : Nat) : Statement (.ideIntegrityFail stream) := fun _ _ => Option.some_ne_none _ ∘ Eq.symm
theorem devInfo (c : MbCmd) : Statement (.devInfo c) := fun _ _ => Option.some_ne_none _ ∘ Eq.symm
theorem devStatus (c : MbCmd) : Statement (.devStatus c) := fun _ _ => Option.some_ne_none _ ∘ Eq.symm
theorem capRead (c : MbCmd) : Statement (.capRead c) := fun _ _ => Option.some_ne_none _ ∘ Eq.symm
theorem devRun (c : MbCmd) : Statement (.devRun c) := fun _ _ => Option.some_ne_none _ ∘ Eq.symm
theorem devQuiesce (c : MbCmd) : Statement (.devQuiesce c) := fun _ _ => Option.some_ne_none _ ∘ Eq.symm
theorem quiesceComplete : Statement .quiesceComplete := fun _ _ => Option.some_ne_none _ ∘ Eq.symm
theorem devConfig (c : MbCmd) : Statement (.devConfig c) := fun _ _ => Option.some_ne_none _ ∘ Eq.symm
theorem devRestart (c : MbCmd) : Statement (.devRestart c) := fun _ _ => Option.some_ne_none _ ∘ Eq.symm
theorem pwrGet (c : MbCmd) : Statement (.pwrGet c) := fun _ _ => Option.some_ne_none _ ∘ Eq.symm
theorem pwrCapSet (c : MbCmd) (interrupted : Bool) : Statement (.pwrCapSet c interrupted) := fun _ _ => Option.some_ne_none _ ∘ Eq.symm
theorem logInfo (c : MbCmd) : Statement (.logInfo c) := fun _ _ => Option.some_ne_none _ ∘ Eq.symm
theorem logRead (c : MbCmd) : Statement (.logRead c) := fun _ _ => Option.some_ne_none _ ∘ Eq.symm
theorem sensorRead (c : MbCmd) : Statement (.sensorRead c) := fun _ _ => Option.some_ne_none _ ∘ Eq.symm
theorem fwInfo (c : MbCmd) : Statement (.fwInfo c) := fun _ _ => Option.some_ne_none _ ∘ Eq.symm
theorem fwStage (c : MbCmd) : Statement (.fwStage c) := fun _ _ => Option.some_ne_none _ ∘ Eq.symm
theorem fwActivate (c : MbCmd) : Statement (.fwActivate c) := fun _ _ => Option.some_ne_none _ ∘ Eq.symm
theorem attestQuote (c : MbCmd) : Statement (.attestQuote c) := fun _ _ => Option.some_ne_none _ ∘ Eq.symm
theorem certRead (c : MbCmd) : Statement (.certRead c) := fun _ _ => Option.some_ne_none _ ∘ Eq.symm
theorem lcTransition (c : MbCmd) : Statement (.lcTransition c) := fun _ _ => Option.some_ne_none _ ∘ Eq.symm
theorem cairnRegister (c : MbCmd) (host : List Cell) : Statement (.cairnRegister c host) := fun _ _ => Option.some_ne_none _ ∘ Eq.symm
theorem cairnTake (c : MbCmd) : Statement (.cairnTake c) := fun _ _ => Option.some_ne_none _ ∘ Eq.symm
theorem cairnRestore (c : MbCmd) : Statement (.cairnRestore c) := fun _ _ => Option.some_ne_none _ ∘ Eq.symm
theorem cairnStatus (c : MbCmd) : Statement (.cairnStatus c) := fun _ _ => Option.some_ne_none _ ∘ Eq.symm
theorem cairnDrainUsExpiry : Statement .cairnDrainUsExpiry := fun _ _ => Option.some_ne_none _ ∘ Eq.symm
theorem cairnStopDrained : Statement .cairnStopDrained := fun _ _ => Option.some_ne_none _ ∘ Eq.symm
theorem cairnCopyComplete : Statement .cairnCopyComplete := fun _ _ => Option.some_ne_none _ ∘ Eq.symm
theorem cairnDrainComplete (ok : Bool) : Statement (.cairnDrainComplete ok) := fun _ _ => Option.some_ne_none _ ∘ Eq.symm
theorem cairnLossReady : Statement .cairnLossReady := fun _ _ => Option.some_ne_none _ ∘ Eq.symm
theorem cairnReplayVerdict : Statement .cairnReplayVerdict := fun _ _ => Option.some_ne_none _ ∘ Eq.symm
theorem guardValueWrite (reg : Nat) (v : Word) (req : Requester) :
    Statement (.guardValueWrite reg v req) := fun _ _ => Option.some_ne_none _ ∘ Eq.symm
theorem guardPendingTimeout (reg : Nat) : Statement (.guardPendingTimeout reg) := fun _ _ => Option.some_ne_none _ ∘ Eq.symm
theorem globalGReset (twin : Word) (req : Requester) : Statement (.globalGReset twin req) := fun _ _ => Option.some_ne_none _ ∘ Eq.symm
theorem globalGPwrCap (twin : Word) (req : Requester) : Statement (.globalGPwrCap twin req) := fun _ _ => Option.some_ne_none _ ∘ Eq.symm
theorem globalGVlimit (twin : Word) (req : Requester) : Statement (.globalGVlimit twin req) := fun _ _ => Option.some_ne_none _ ∘ Eq.symm
theorem globalGRemapRow (twin : Word) (req : Requester) :
    Statement (.globalGRemapRow twin req) := fun _ _ => Option.some_ne_none _ ∘ Eq.symm
theorem globalGRemapCh (twin : Word) (req : Requester) : Statement (.globalGRemapCh twin req) := fun _ _ => Option.some_ne_none _ ∘ Eq.symm
theorem globalGPortDis (twin : Word) (req : Requester) : Statement (.globalGPortDis twin req) := fun _ _ => Option.some_ne_none _ ∘ Eq.symm
theorem globalGFuse (twin : Word) (req : Requester) : Statement (.globalGFuse twin req) := fun _ _ => Option.some_ne_none _ ∘ Eq.symm
theorem globalApply (mask : Word) (req : Requester) : Statement (.globalApply mask req) := fun _ _ => Option.some_ne_none _ ∘ Eq.symm
theorem globalSnap (mask : Word) (req : Requester) : Statement (.globalSnap mask req) := fun _ _ => Option.some_ne_none _ ∘ Eq.symm
theorem bitAliasWrite (offset : Nat) (bit : Nat) (v : Word) (req : Requester) :
    Statement (.bitAliasWrite offset bit v req) := fun _ _ => Option.some_ne_none _ ∘ Eq.symm
theorem w1cClear (offset : Nat) (v : Word) (req : Requester) :
    Statement (.w1cClear offset v req) := fun _ _ => Option.some_ne_none _ ∘ Eq.symm
theorem registerWrite (offset : Nat) (v : Word) (be : BitVec 4) (req : Requester) :
    Statement (.registerWrite offset v be req) := fun _ _ => Option.some_ne_none _ ∘ Eq.symm
theorem registerAccessTimeout (offset : Nat) (write : Option Word) (req : Requester) :
    Statement (.registerAccessTimeout offset write req) := fun _ _ => Option.some_ne_none _ ∘ Eq.symm
theorem powerControlTick (p : PowerSample) : Statement (.powerControlTick p) := fun _ _ => Option.some_ne_none _ ∘ Eq.symm
theorem flowLimitEval (flow : Nat) : Statement (.flowLimitEval flow) := fun _ _ => Option.some_ne_none _ ∘ Eq.symm
theorem lowFlowSwitchOff : Statement .lowFlowSwitchOff := fun _ _ => Option.some_ne_none _ ∘ Eq.symm
theorem thermalPowerRemove : Statement .thermalPowerRemove := fun _ _ => Option.some_ne_none _ ∘ Eq.symm
theorem logPersist : Statement .logPersist := fun _ _ => Option.some_ne_none _ ∘ Eq.symm
theorem suppressionWindowClose (i : Nat) : Statement (.suppressionWindowClose i) := fun _ _ => Option.some_ne_none _ ∘ Eq.symm
theorem unknownOpcode (c : MbCmd) (opcode : BitVec 16) : Statement (.unknownOpcode c opcode) := fun _ _ => Option.some_ne_none _ ∘ Eq.symm
theorem tierCmdComplete (ok : Bool) : Statement (.tierCmdComplete ok) := fun _ _ => Option.some_ne_none _ ∘ Eq.symm
theorem cairnRestoreCopyComplete (res : Ending) (host : List Cell) :
    Statement (.cairnRestoreCopyComplete res host) := fun _ _ => Option.some_ne_none _ ∘ Eq.symm

end Sys2Proof.Laws.Wordless
end

