-- ==== Sys2Proof/Laws/Reads.lean ====
section
/-! SUPPORT. What stays the same across the operations that log, raise vectors and count: one law per field and per unit, so
that no later proof unfolds them. -/

namespace Sys2Proof.Machine

open Sys2Proof.Laws Sys2Proof.Safety

@[simp] theorem State.raise_pending (s : State) (v : Nat) : (State.raise s v).pending = s.pending :=
  State.raise_moves.frame .queue (by decide)
@[simp] theorem State.raise_fresh (s : State) (v : Nat) : (State.raise s v).fresh = s.fresh :=
  State.raise_moves.frame .fresh (by decide)
@[simp] theorem State.raise_power (s : State) (v : Nat) : (State.raise s v).power = s.power :=
  State.raise_moves.frame .power (by decide)
@[simp] theorem State.raise_pwrGood (s : State) (v : Nat) : (State.raise s v).pwrGood = s.pwrGood :=
  State.raise_moves.frame .pwrGood (by decide)
@[simp] theorem State.raise_etc (s : State) (v : Nat) : (State.raise s v).etc = s.etc :=
  State.raise_moves.frame .etc (by decide)
@[simp] theorem State.raise_timer (s : State) (v : Nat) : (State.raise s v).timer = s.timer :=
  State.raise_moves.frame .timer (by decide)
@[simp] theorem State.raise_dev (s : State) (v : Nat) : (State.raise s v).dev = s.dev :=
  State.raise_moves.frame .dev (by decide)
@[simp] theorem State.raise_fault (s : State) (v : Nat) : (State.raise s v).fault = s.fault :=
  State.raise_moves.frame .fault (by decide)
@[simp] theorem State.raise_sec (s : State) (v : Nat) : (State.raise s v).sec = s.sec :=
  State.raise_moves.frame .sec (by decide)
@[simp] theorem State.raise_log (s : State) (v : Nat) : (State.raise s v).log = s.log :=
  State.raise_moves.frame .log (by decide)
@[simp] theorem State.raise_crash (s : State) (v : Nat) : (State.raise s v).crash = s.crash :=
  State.raise_moves.frame .crash (by decide)
@[simp] theorem State.raise_staged5 (s : State) (v : Nat) : (State.raise s v).staged5 = s.staged5 :=
  State.raise_moves.frame .staged5 (by decide)
@[simp] theorem State.raise_staged3 (s : State) (v : Nat) : (State.raise s v).staged3 = s.staged3 :=
  State.raise_moves.frame .staged3 (by decide)
@[simp] theorem State.raise_seeded (s : State) (v : Nat) : (State.raise s v).seeded = s.seeded :=
  State.raise_moves.frame .seeded (by decide)
@[simp] theorem State.raise_holding (s : State) (v : Nat) : (State.raise s v).holding = s.holding :=
  State.raise_moves.frame .holding (by decide)
@[simp] theorem State.raise_guards (s : State) (v : Nat) : (State.raise s v).guards = s.guards :=
  State.raise_moves.frame .guards (by decide)
@[simp] theorem State.raise_mem (s : State) (v : Nat) : (State.raise s v).mem = s.mem :=
  State.raise_moves.frame .mem (by decide)
@[simp] theorem State.raise_poison (s : State) (v : Nat) : (State.raise s v).poison = s.poison :=
  State.raise_moves.frame .poison (by decide)
@[simp] theorem State.raise_sculls (s : State) (v : Nat) : (State.raise s v).sculls = s.sculls :=
  State.raise_moves.frame .sculls (by decide)
@[simp] theorem State.raise_crews (s : State) (v : Nat) : (State.raise s v).crews = s.crews :=
  State.raise_moves.frame .crews (by decide)
@[simp] theorem State.raise_ergs (s : State) (v : Nat) : (State.raise s v).ergs = s.ergs :=
  State.raise_moves.frame .ergs (by decide)
@[simp] theorem State.raise_ctrs (s : State) (v : Nat) : (State.raise s v).ctrs = s.ctrs :=
  State.raise_moves.frame .ctrs (by decide)
@[simp] theorem State.raise_tasks (s : State) (v : Nat) : (State.raise s v).tasks = s.tasks :=
  State.raise_moves.frame .tasks (by decide)
@[simp] theorem State.raise_rings (s : State) (v : Nat) : (State.raise s v).rings = s.rings :=
  State.raise_moves.frame .rings (by decide)
@[simp] theorem State.raise_lastRing (s : State) (v : Nat) : (State.raise s v).lastRing = s.lastRing :=
  State.raise_moves.frame .lastRing (by decide)
@[simp] theorem State.raise_mbs (s : State) (v : Nat) : (State.raise s v).mbs = s.mbs :=
  State.raise_moves.frame .mbs (by decide)
@[simp] theorem State.raise_stateMb (s : State) (v : Nat) : (State.raise s v).stateMb = s.stateMb :=
  State.raise_moves.frame .stateMb (by decide)
@[simp] theorem State.raise_mbQueue (s : State) (v : Nat) : (State.raise s v).mbQueue = s.mbQueue :=
  State.raise_moves.frame .mbQueue (by decide)
@[simp] theorem State.raise_dunes (s : State) (v : Nat) : (State.raise s v).dunes = s.dunes :=
  State.raise_moves.frame .dunes (by decide)
@[simp] theorem State.raise_tier (s : State) (v : Nat) : (State.raise s v).tier = s.tier :=
  State.raise_moves.frame .tier (by decide)
@[simp] theorem State.raise_kv (s : State) (v : Nat) : (State.raise s v).kv = s.kv :=
  State.raise_moves.frame .kv (by decide)
@[simp] theorem State.raise_lowp (s : State) (v : Nat) : (State.raise s v).lowp = s.lowp :=
  State.raise_moves.frame .lowp (by decide)
@[simp] theorem State.raise_wakes (s : State) (v : Nat) : (State.raise s v).wakes = s.wakes :=
  State.raise_moves.frame .wakes (by decide)
@[simp] theorem State.raise_ports (s : State) (v : Nat) : (State.raise s v).ports = s.ports :=
  State.raise_moves.frame .ports (by decide)
@[simp] theorem State.raise_rigger (s : State) (v : Nat) : (State.raise s v).rigger = s.rigger :=
  State.raise_moves.frame .rigger (by decide)
@[simp] theorem State.raise_colls (s : State) (v : Nat) : (State.raise s v).colls = s.colls :=
  State.raise_moves.frame .colls (by decide)
@[simp] theorem State.raise_peers (s : State) (v : Nat) : (State.raise s v).peers = s.peers :=
  State.raise_moves.frame .peers (by decide)
@[simp] theorem State.raise_sched (s : State) (v : Nat) : (State.raise s v).sched = s.sched :=
  State.raise_moves.frame .sched (by decide)
@[simp] theorem State.raise_islands (s : State) (v : Nat) : (State.raise s v).islands = s.islands :=
  State.raise_moves.frame .islands (by decide)
@[simp] theorem State.raise_flashGone (s : State) (v : Nat) : (State.raise s v).flashGone = s.flashGone :=
  State.raise_moves.frame .flashGone (by decide)
@[simp] theorem State.raise_pwr (s : State) (v : Nat) : (State.raise s v).pwr = s.pwr :=
  State.raise_moves.frame .pwr (by decide)
@[simp] theorem State.raise_cairn (s : State) (v : Nat) : (State.raise s v).cairn = s.cairn :=
  State.raise_moves.frame .cairn (by decide)
@[simp] theorem State.raise_scull (s : State) (v : Nat) (j : Nat) : (State.raise s v).scull j = s.scull j := by
  simp only [State.scull, State.raise_sculls]
@[simp] theorem State.raise_crew (s : State) (v : Nat) (j : Nat) : (State.raise s v).crew j = s.crew j := by
  simp only [State.crew, State.raise_crews]
@[simp] theorem State.raise_erg (s : State) (v : Nat) (j : Nat) : (State.raise s v).erg j = s.erg j := by
  simp only [State.erg, State.raise_ergs]
@[simp] theorem State.raise_task (s : State) (v : Nat) (j : Nat) : (State.raise s v).task j = s.task j := by
  simp only [State.task, State.raise_tasks]
@[simp] theorem State.raise_ring (s : State) (v : Nat) (j : Nat) : (State.raise s v).ring j = s.ring j := by
  simp only [State.ring, State.raise_rings]
@[simp] theorem State.raise_mb (s : State) (v : Nat) (j : Nat) : (State.raise s v).mb j = s.mb j := by
  simp only [State.mb, State.raise_mbs]
@[simp] theorem State.raise_dune (s : State) (v : Nat) (j : Nat) : (State.raise s v).dune j = s.dune j := by
  simp only [State.dune, State.raise_dunes]
@[simp] theorem State.raise_wake (s : State) (v : Nat) (j : Nat) : (State.raise s v).wake j = s.wake j := by
  simp only [State.wake, State.raise_wakes]
@[simp] theorem State.raise_port (s : State) (v : Nat) (j : Nat) : (State.raise s v).port j = s.port j := by
  simp only [State.port, State.raise_ports]
@[simp] theorem State.raise_ctr (s : State) (v : Nat) (j : Nat) : (State.raise s v).ctr j = s.ctr j := by
  simp only [State.ctr, State.raise_ctrs]
@[simp] theorem State.raise_tensor (s : State) (v : Nat) (j : Nat) : (State.raise s v).tensor j = s.tensor j := by
  simp only [State.tensor, State.raise_tier]
@[simp] theorem State.raise_byte (s : State) (v : Nat) (j : Nat) : (State.raise s v).byte j = s.byte j := by
  simp only [State.byte, State.raise_mem]
@[simp] theorem State.raise_guard (s : State) (v : Nat) (j : Nat) : (State.raise s v).guard j = s.guard j := by
  simp only [State.guard, State.raise_guards]
theorem State.raise_reg (s : State) (v : Nat) (j : Nat) (h1 : j ≠ 0x264) (h2 : j ≠ 0x278) : (State.raise s v).reg j = s.reg j :=
  State.raise_moves.frame .regs (by decide) j h1 h2
@[simp] theorem State.raise_regs_all (s : State) (v : Nat) (j : Nat) : (State.raise s v).reg j = s.reg j := by
  by_cases h1 : j = 0x264
  · subst h1; exact (State.raise_moves.frame .lossCounts (by decide)).1
  · by_cases h2 : j = 0x278
    · subst h2; exact (State.raise_moves.frame .lossCounts (by decide)).2
    · exact State.raise_moves.frame .regs (by decide) j h1 h2
@[simp] theorem State.raise_nv_variant (s : State) (v : Nat) : (State.raise s v).nv.variant = s.nv.variant :=
  (State.raise_moves.frame .ident (by decide)).1
@[simp] theorem State.raise_nv_serial (s : State) (v : Nat) : (State.raise s v).nv.serial = s.nv.serial :=
  (State.raise_moves.frame .ident (by decide)).2

@[simp] theorem State.raiseReg_pending (s : State) (off : Nat) (en : Nat) : (State.raiseReg s off en).pending = s.pending :=
  State.raiseReg_moves.frame .queue (by decide)
@[simp] theorem State.raiseReg_fresh (s : State) (off : Nat) (en : Nat) : (State.raiseReg s off en).fresh = s.fresh :=
  State.raiseReg_moves.frame .fresh (by decide)
@[simp] theorem State.raiseReg_power (s : State) (off : Nat) (en : Nat) : (State.raiseReg s off en).power = s.power :=
  State.raiseReg_moves.frame .power (by decide)
@[simp] theorem State.raiseReg_pwrGood (s : State) (off : Nat) (en : Nat) : (State.raiseReg s off en).pwrGood = s.pwrGood :=
  State.raiseReg_moves.frame .pwrGood (by decide)
@[simp] theorem State.raiseReg_etc (s : State) (off : Nat) (en : Nat) : (State.raiseReg s off en).etc = s.etc :=
  State.raiseReg_moves.frame .etc (by decide)
@[simp] theorem State.raiseReg_timer (s : State) (off : Nat) (en : Nat) : (State.raiseReg s off en).timer = s.timer :=
  State.raiseReg_moves.frame .timer (by decide)
@[simp] theorem State.raiseReg_dev (s : State) (off : Nat) (en : Nat) : (State.raiseReg s off en).dev = s.dev :=
  State.raiseReg_moves.frame .dev (by decide)
@[simp] theorem State.raiseReg_fault (s : State) (off : Nat) (en : Nat) : (State.raiseReg s off en).fault = s.fault :=
  State.raiseReg_moves.frame .fault (by decide)
@[simp] theorem State.raiseReg_sec (s : State) (off : Nat) (en : Nat) : (State.raiseReg s off en).sec = s.sec :=
  State.raiseReg_moves.frame .sec (by decide)
@[simp] theorem State.raiseReg_log (s : State) (off : Nat) (en : Nat) : (State.raiseReg s off en).log = s.log :=
  State.raiseReg_moves.frame .log (by decide)
@[simp] theorem State.raiseReg_crash (s : State) (off : Nat) (en : Nat) : (State.raiseReg s off en).crash = s.crash :=
  State.raiseReg_moves.frame .crash (by decide)
@[simp] theorem State.raiseReg_staged5 (s : State) (off : Nat) (en : Nat) : (State.raiseReg s off en).staged5 = s.staged5 :=
  State.raiseReg_moves.frame .staged5 (by decide)
@[simp] theorem State.raiseReg_staged3 (s : State) (off : Nat) (en : Nat) : (State.raiseReg s off en).staged3 = s.staged3 :=
  State.raiseReg_moves.frame .staged3 (by decide)
@[simp] theorem State.raiseReg_seeded (s : State) (off : Nat) (en : Nat) : (State.raiseReg s off en).seeded = s.seeded :=
  State.raiseReg_moves.frame .seeded (by decide)
@[simp] theorem State.raiseReg_holding (s : State) (off : Nat) (en : Nat) : (State.raiseReg s off en).holding = s.holding :=
  State.raiseReg_moves.frame .holding (by decide)
@[simp] theorem State.raiseReg_guards (s : State) (off : Nat) (en : Nat) : (State.raiseReg s off en).guards = s.guards :=
  State.raiseReg_moves.frame .guards (by decide)
@[simp] theorem State.raiseReg_mem (s : State) (off : Nat) (en : Nat) : (State.raiseReg s off en).mem = s.mem :=
  State.raiseReg_moves.frame .mem (by decide)
@[simp] theorem State.raiseReg_poison (s : State) (off : Nat) (en : Nat) : (State.raiseReg s off en).poison = s.poison :=
  State.raiseReg_moves.frame .poison (by decide)
@[simp] theorem State.raiseReg_sculls (s : State) (off : Nat) (en : Nat) : (State.raiseReg s off en).sculls = s.sculls :=
  State.raiseReg_moves.frame .sculls (by decide)
@[simp] theorem State.raiseReg_crews (s : State) (off : Nat) (en : Nat) : (State.raiseReg s off en).crews = s.crews :=
  State.raiseReg_moves.frame .crews (by decide)
@[simp] theorem State.raiseReg_ergs (s : State) (off : Nat) (en : Nat) : (State.raiseReg s off en).ergs = s.ergs :=
  State.raiseReg_moves.frame .ergs (by decide)
@[simp] theorem State.raiseReg_ctrs (s : State) (off : Nat) (en : Nat) : (State.raiseReg s off en).ctrs = s.ctrs :=
  State.raiseReg_moves.frame .ctrs (by decide)
@[simp] theorem State.raiseReg_tasks (s : State) (off : Nat) (en : Nat) : (State.raiseReg s off en).tasks = s.tasks :=
  State.raiseReg_moves.frame .tasks (by decide)
@[simp] theorem State.raiseReg_rings (s : State) (off : Nat) (en : Nat) : (State.raiseReg s off en).rings = s.rings :=
  State.raiseReg_moves.frame .rings (by decide)
@[simp] theorem State.raiseReg_lastRing (s : State) (off : Nat) (en : Nat) : (State.raiseReg s off en).lastRing = s.lastRing :=
  State.raiseReg_moves.frame .lastRing (by decide)
@[simp] theorem State.raiseReg_mbs (s : State) (off : Nat) (en : Nat) : (State.raiseReg s off en).mbs = s.mbs :=
  State.raiseReg_moves.frame .mbs (by decide)
@[simp] theorem State.raiseReg_stateMb (s : State) (off : Nat) (en : Nat) : (State.raiseReg s off en).stateMb = s.stateMb :=
  State.raiseReg_moves.frame .stateMb (by decide)
@[simp] theorem State.raiseReg_mbQueue (s : State) (off : Nat) (en : Nat) : (State.raiseReg s off en).mbQueue = s.mbQueue :=
  State.raiseReg_moves.frame .mbQueue (by decide)
@[simp] theorem State.raiseReg_dunes (s : State) (off : Nat) (en : Nat) : (State.raiseReg s off en).dunes = s.dunes :=
  State.raiseReg_moves.frame .dunes (by decide)
@[simp] theorem State.raiseReg_tier (s : State) (off : Nat) (en : Nat) : (State.raiseReg s off en).tier = s.tier :=
  State.raiseReg_moves.frame .tier (by decide)
@[simp] theorem State.raiseReg_kv (s : State) (off : Nat) (en : Nat) : (State.raiseReg s off en).kv = s.kv :=
  State.raiseReg_moves.frame .kv (by decide)
@[simp] theorem State.raiseReg_lowp (s : State) (off : Nat) (en : Nat) : (State.raiseReg s off en).lowp = s.lowp :=
  State.raiseReg_moves.frame .lowp (by decide)
@[simp] theorem State.raiseReg_wakes (s : State) (off : Nat) (en : Nat) : (State.raiseReg s off en).wakes = s.wakes :=
  State.raiseReg_moves.frame .wakes (by decide)
@[simp] theorem State.raiseReg_ports (s : State) (off : Nat) (en : Nat) : (State.raiseReg s off en).ports = s.ports :=
  State.raiseReg_moves.frame .ports (by decide)
@[simp] theorem State.raiseReg_rigger (s : State) (off : Nat) (en : Nat) : (State.raiseReg s off en).rigger = s.rigger :=
  State.raiseReg_moves.frame .rigger (by decide)
@[simp] theorem State.raiseReg_colls (s : State) (off : Nat) (en : Nat) : (State.raiseReg s off en).colls = s.colls :=
  State.raiseReg_moves.frame .colls (by decide)
@[simp] theorem State.raiseReg_peers (s : State) (off : Nat) (en : Nat) : (State.raiseReg s off en).peers = s.peers :=
  State.raiseReg_moves.frame .peers (by decide)
@[simp] theorem State.raiseReg_sched (s : State) (off : Nat) (en : Nat) : (State.raiseReg s off en).sched = s.sched :=
  State.raiseReg_moves.frame .sched (by decide)
@[simp] theorem State.raiseReg_islands (s : State) (off : Nat) (en : Nat) : (State.raiseReg s off en).islands = s.islands :=
  State.raiseReg_moves.frame .islands (by decide)
@[simp] theorem State.raiseReg_flashGone (s : State) (off : Nat) (en : Nat) : (State.raiseReg s off en).flashGone = s.flashGone :=
  State.raiseReg_moves.frame .flashGone (by decide)
@[simp] theorem State.raiseReg_pwr (s : State) (off : Nat) (en : Nat) : (State.raiseReg s off en).pwr = s.pwr :=
  State.raiseReg_moves.frame .pwr (by decide)
@[simp] theorem State.raiseReg_cairn (s : State) (off : Nat) (en : Nat) : (State.raiseReg s off en).cairn = s.cairn :=
  State.raiseReg_moves.frame .cairn (by decide)
@[simp] theorem State.raiseReg_scull (s : State) (off : Nat) (en : Nat) (j : Nat) : (State.raiseReg s off en).scull j = s.scull j := by
  simp only [State.scull, State.raiseReg_sculls]
@[simp] theorem State.raiseReg_crew (s : State) (off : Nat) (en : Nat) (j : Nat) : (State.raiseReg s off en).crew j = s.crew j := by
  simp only [State.crew, State.raiseReg_crews]
@[simp] theorem State.raiseReg_erg (s : State) (off : Nat) (en : Nat) (j : Nat) : (State.raiseReg s off en).erg j = s.erg j := by
  simp only [State.erg, State.raiseReg_ergs]
@[simp] theorem State.raiseReg_task (s : State) (off : Nat) (en : Nat) (j : Nat) : (State.raiseReg s off en).task j = s.task j := by
  simp only [State.task, State.raiseReg_tasks]
@[simp] theorem State.raiseReg_ring (s : State) (off : Nat) (en : Nat) (j : Nat) : (State.raiseReg s off en).ring j = s.ring j := by
  simp only [State.ring, State.raiseReg_rings]
@[simp] theorem State.raiseReg_mb (s : State) (off : Nat) (en : Nat) (j : Nat) : (State.raiseReg s off en).mb j = s.mb j := by
  simp only [State.mb, State.raiseReg_mbs]
@[simp] theorem State.raiseReg_dune (s : State) (off : Nat) (en : Nat) (j : Nat) : (State.raiseReg s off en).dune j = s.dune j := by
  simp only [State.dune, State.raiseReg_dunes]
@[simp] theorem State.raiseReg_wake (s : State) (off : Nat) (en : Nat) (j : Nat) : (State.raiseReg s off en).wake j = s.wake j := by
  simp only [State.wake, State.raiseReg_wakes]
@[simp] theorem State.raiseReg_port (s : State) (off : Nat) (en : Nat) (j : Nat) : (State.raiseReg s off en).port j = s.port j := by
  simp only [State.port, State.raiseReg_ports]
@[simp] theorem State.raiseReg_ctr (s : State) (off : Nat) (en : Nat) (j : Nat) : (State.raiseReg s off en).ctr j = s.ctr j := by
  simp only [State.ctr, State.raiseReg_ctrs]
@[simp] theorem State.raiseReg_tensor (s : State) (off : Nat) (en : Nat) (j : Nat) : (State.raiseReg s off en).tensor j = s.tensor j := by
  simp only [State.tensor, State.raiseReg_tier]
@[simp] theorem State.raiseReg_byte (s : State) (off : Nat) (en : Nat) (j : Nat) : (State.raiseReg s off en).byte j = s.byte j := by
  simp only [State.byte, State.raiseReg_mem]
@[simp] theorem State.raiseReg_guard (s : State) (off : Nat) (en : Nat) (j : Nat) : (State.raiseReg s off en).guard j = s.guard j := by
  simp only [State.guard, State.raiseReg_guards]
theorem State.raiseReg_reg (s : State) (off : Nat) (en : Nat) (j : Nat) (h1 : j ≠ 0x264) (h2 : j ≠ 0x278) : (State.raiseReg s off en).reg j = s.reg j :=
  State.raiseReg_moves.frame .regs (by decide) j h1 h2
@[simp] theorem State.raiseReg_regs_all (s : State) (off : Nat) (en : Nat) (j : Nat) : (State.raiseReg s off en).reg j = s.reg j := by
  by_cases h1 : j = 0x264
  · subst h1; exact (State.raiseReg_moves.frame .lossCounts (by decide)).1
  · by_cases h2 : j = 0x278
    · subst h2; exact (State.raiseReg_moves.frame .lossCounts (by decide)).2
    · exact State.raiseReg_moves.frame .regs (by decide) j h1 h2
@[simp] theorem State.raiseReg_nv_variant (s : State) (off : Nat) (en : Nat) : (State.raiseReg s off en).nv.variant = s.nv.variant :=
  (State.raiseReg_moves.frame .ident (by decide)).1
@[simp] theorem State.raiseReg_nv_serial (s : State) (off : Nat) (en : Nat) : (State.raiseReg s off en).nv.serial = s.nv.serial :=
  (State.raiseReg_moves.frame .ident (by decide)).2

@[simp] theorem State.emit_pending (s : State) (cls : Nat) (ident : Nat) (sev : Nat) (code : Nat) (st : Status) (pl : List Word) : (State.emit s cls ident sev code st pl).pending = s.pending :=
  State.emit_moves.frame .queue (by decide)
@[simp] theorem State.emit_fresh (s : State) (cls : Nat) (ident : Nat) (sev : Nat) (code : Nat) (st : Status) (pl : List Word) : (State.emit s cls ident sev code st pl).fresh = s.fresh :=
  State.emit_moves.frame .fresh (by decide)
@[simp] theorem State.emit_power (s : State) (cls : Nat) (ident : Nat) (sev : Nat) (code : Nat) (st : Status) (pl : List Word) : (State.emit s cls ident sev code st pl).power = s.power :=
  State.emit_moves.frame .power (by decide)
@[simp] theorem State.emit_pwrGood (s : State) (cls : Nat) (ident : Nat) (sev : Nat) (code : Nat) (st : Status) (pl : List Word) : (State.emit s cls ident sev code st pl).pwrGood = s.pwrGood :=
  State.emit_moves.frame .pwrGood (by decide)
@[simp] theorem State.emit_etc (s : State) (cls : Nat) (ident : Nat) (sev : Nat) (code : Nat) (st : Status) (pl : List Word) : (State.emit s cls ident sev code st pl).etc = s.etc :=
  State.emit_moves.frame .etc (by decide)
@[simp] theorem State.emit_timer (s : State) (cls : Nat) (ident : Nat) (sev : Nat) (code : Nat) (st : Status) (pl : List Word) : (State.emit s cls ident sev code st pl).timer = s.timer :=
  State.emit_moves.frame .timer (by decide)
@[simp] theorem State.emit_dev (s : State) (cls : Nat) (ident : Nat) (sev : Nat) (code : Nat) (st : Status) (pl : List Word) : (State.emit s cls ident sev code st pl).dev = s.dev :=
  State.emit_moves.frame .dev (by decide)
@[simp] theorem State.emit_fault (s : State) (cls : Nat) (ident : Nat) (sev : Nat) (code : Nat) (st : Status) (pl : List Word) : (State.emit s cls ident sev code st pl).fault = s.fault :=
  State.emit_moves.frame .fault (by decide)
@[simp] theorem State.emit_sec (s : State) (cls : Nat) (ident : Nat) (sev : Nat) (code : Nat) (st : Status) (pl : List Word) : (State.emit s cls ident sev code st pl).sec = s.sec :=
  State.emit_moves.frame .sec (by decide)
@[simp] theorem State.emit_crash (s : State) (cls : Nat) (ident : Nat) (sev : Nat) (code : Nat) (st : Status) (pl : List Word) : (State.emit s cls ident sev code st pl).crash = s.crash :=
  State.emit_moves.frame .crash (by decide)
@[simp] theorem State.emit_staged5 (s : State) (cls : Nat) (ident : Nat) (sev : Nat) (code : Nat) (st : Status) (pl : List Word) : (State.emit s cls ident sev code st pl).staged5 = s.staged5 :=
  State.emit_moves.frame .staged5 (by decide)
@[simp] theorem State.emit_staged3 (s : State) (cls : Nat) (ident : Nat) (sev : Nat) (code : Nat) (st : Status) (pl : List Word) : (State.emit s cls ident sev code st pl).staged3 = s.staged3 :=
  State.emit_moves.frame .staged3 (by decide)
@[simp] theorem State.emit_seeded (s : State) (cls : Nat) (ident : Nat) (sev : Nat) (code : Nat) (st : Status) (pl : List Word) : (State.emit s cls ident sev code st pl).seeded = s.seeded :=
  State.emit_moves.frame .seeded (by decide)
@[simp] theorem State.emit_holding (s : State) (cls : Nat) (ident : Nat) (sev : Nat) (code : Nat) (st : Status) (pl : List Word) : (State.emit s cls ident sev code st pl).holding = s.holding :=
  State.emit_moves.frame .holding (by decide)
@[simp] theorem State.emit_guards (s : State) (cls : Nat) (ident : Nat) (sev : Nat) (code : Nat) (st : Status) (pl : List Word) : (State.emit s cls ident sev code st pl).guards = s.guards :=
  State.emit_moves.frame .guards (by decide)
@[simp] theorem State.emit_mem (s : State) (cls : Nat) (ident : Nat) (sev : Nat) (code : Nat) (st : Status) (pl : List Word) : (State.emit s cls ident sev code st pl).mem = s.mem :=
  State.emit_moves.frame .mem (by decide)
@[simp] theorem State.emit_poison (s : State) (cls : Nat) (ident : Nat) (sev : Nat) (code : Nat) (st : Status) (pl : List Word) : (State.emit s cls ident sev code st pl).poison = s.poison :=
  State.emit_moves.frame .poison (by decide)
@[simp] theorem State.emit_sculls (s : State) (cls : Nat) (ident : Nat) (sev : Nat) (code : Nat) (st : Status) (pl : List Word) : (State.emit s cls ident sev code st pl).sculls = s.sculls :=
  State.emit_moves.frame .sculls (by decide)
@[simp] theorem State.emit_crews (s : State) (cls : Nat) (ident : Nat) (sev : Nat) (code : Nat) (st : Status) (pl : List Word) : (State.emit s cls ident sev code st pl).crews = s.crews :=
  State.emit_moves.frame .crews (by decide)
@[simp] theorem State.emit_ergs (s : State) (cls : Nat) (ident : Nat) (sev : Nat) (code : Nat) (st : Status) (pl : List Word) : (State.emit s cls ident sev code st pl).ergs = s.ergs :=
  State.emit_moves.frame .ergs (by decide)
@[simp] theorem State.emit_ctrs (s : State) (cls : Nat) (ident : Nat) (sev : Nat) (code : Nat) (st : Status) (pl : List Word) : (State.emit s cls ident sev code st pl).ctrs = s.ctrs :=
  State.emit_moves.frame .ctrs (by decide)
@[simp] theorem State.emit_tasks (s : State) (cls : Nat) (ident : Nat) (sev : Nat) (code : Nat) (st : Status) (pl : List Word) : (State.emit s cls ident sev code st pl).tasks = s.tasks :=
  State.emit_moves.frame .tasks (by decide)
@[simp] theorem State.emit_rings (s : State) (cls : Nat) (ident : Nat) (sev : Nat) (code : Nat) (st : Status) (pl : List Word) : (State.emit s cls ident sev code st pl).rings = s.rings :=
  State.emit_moves.frame .rings (by decide)
@[simp] theorem State.emit_lastRing (s : State) (cls : Nat) (ident : Nat) (sev : Nat) (code : Nat) (st : Status) (pl : List Word) : (State.emit s cls ident sev code st pl).lastRing = s.lastRing :=
  State.emit_moves.frame .lastRing (by decide)
@[simp] theorem State.emit_mbs (s : State) (cls : Nat) (ident : Nat) (sev : Nat) (code : Nat) (st : Status) (pl : List Word) : (State.emit s cls ident sev code st pl).mbs = s.mbs :=
  State.emit_moves.frame .mbs (by decide)
@[simp] theorem State.emit_stateMb (s : State) (cls : Nat) (ident : Nat) (sev : Nat) (code : Nat) (st : Status) (pl : List Word) : (State.emit s cls ident sev code st pl).stateMb = s.stateMb :=
  State.emit_moves.frame .stateMb (by decide)
@[simp] theorem State.emit_mbQueue (s : State) (cls : Nat) (ident : Nat) (sev : Nat) (code : Nat) (st : Status) (pl : List Word) : (State.emit s cls ident sev code st pl).mbQueue = s.mbQueue :=
  State.emit_moves.frame .mbQueue (by decide)
@[simp] theorem State.emit_dunes (s : State) (cls : Nat) (ident : Nat) (sev : Nat) (code : Nat) (st : Status) (pl : List Word) : (State.emit s cls ident sev code st pl).dunes = s.dunes :=
  State.emit_moves.frame .dunes (by decide)
@[simp] theorem State.emit_tier (s : State) (cls : Nat) (ident : Nat) (sev : Nat) (code : Nat) (st : Status) (pl : List Word) : (State.emit s cls ident sev code st pl).tier = s.tier :=
  State.emit_moves.frame .tier (by decide)
@[simp] theorem State.emit_kv (s : State) (cls : Nat) (ident : Nat) (sev : Nat) (code : Nat) (st : Status) (pl : List Word) : (State.emit s cls ident sev code st pl).kv = s.kv :=
  State.emit_moves.frame .kv (by decide)
@[simp] theorem State.emit_lowp (s : State) (cls : Nat) (ident : Nat) (sev : Nat) (code : Nat) (st : Status) (pl : List Word) : (State.emit s cls ident sev code st pl).lowp = s.lowp :=
  State.emit_moves.frame .lowp (by decide)
@[simp] theorem State.emit_wakes (s : State) (cls : Nat) (ident : Nat) (sev : Nat) (code : Nat) (st : Status) (pl : List Word) : (State.emit s cls ident sev code st pl).wakes = s.wakes :=
  State.emit_moves.frame .wakes (by decide)
@[simp] theorem State.emit_ports (s : State) (cls : Nat) (ident : Nat) (sev : Nat) (code : Nat) (st : Status) (pl : List Word) : (State.emit s cls ident sev code st pl).ports = s.ports :=
  State.emit_moves.frame .ports (by decide)
@[simp] theorem State.emit_rigger (s : State) (cls : Nat) (ident : Nat) (sev : Nat) (code : Nat) (st : Status) (pl : List Word) : (State.emit s cls ident sev code st pl).rigger = s.rigger :=
  State.emit_moves.frame .rigger (by decide)
@[simp] theorem State.emit_colls (s : State) (cls : Nat) (ident : Nat) (sev : Nat) (code : Nat) (st : Status) (pl : List Word) : (State.emit s cls ident sev code st pl).colls = s.colls :=
  State.emit_moves.frame .colls (by decide)
@[simp] theorem State.emit_peers (s : State) (cls : Nat) (ident : Nat) (sev : Nat) (code : Nat) (st : Status) (pl : List Word) : (State.emit s cls ident sev code st pl).peers = s.peers :=
  State.emit_moves.frame .peers (by decide)
@[simp] theorem State.emit_sched (s : State) (cls : Nat) (ident : Nat) (sev : Nat) (code : Nat) (st : Status) (pl : List Word) : (State.emit s cls ident sev code st pl).sched = s.sched :=
  State.emit_moves.frame .sched (by decide)
@[simp] theorem State.emit_islands (s : State) (cls : Nat) (ident : Nat) (sev : Nat) (code : Nat) (st : Status) (pl : List Word) : (State.emit s cls ident sev code st pl).islands = s.islands :=
  State.emit_moves.frame .islands (by decide)
@[simp] theorem State.emit_flashGone (s : State) (cls : Nat) (ident : Nat) (sev : Nat) (code : Nat) (st : Status) (pl : List Word) : (State.emit s cls ident sev code st pl).flashGone = s.flashGone :=
  State.emit_moves.frame .flashGone (by decide)
@[simp] theorem State.emit_pwr (s : State) (cls : Nat) (ident : Nat) (sev : Nat) (code : Nat) (st : Status) (pl : List Word) : (State.emit s cls ident sev code st pl).pwr = s.pwr :=
  State.emit_moves.frame .pwr (by decide)
@[simp] theorem State.emit_cairn (s : State) (cls : Nat) (ident : Nat) (sev : Nat) (code : Nat) (st : Status) (pl : List Word) : (State.emit s cls ident sev code st pl).cairn = s.cairn :=
  State.emit_moves.frame .cairn (by decide)
@[simp] theorem State.emit_scull (s : State) (cls : Nat) (ident : Nat) (sev : Nat) (code : Nat) (st : Status) (pl : List Word) (j : Nat) : (State.emit s cls ident sev code st pl).scull j = s.scull j := by
  simp only [State.scull, State.emit_sculls]
@[simp] theorem State.emit_crew (s : State) (cls : Nat) (ident : Nat) (sev : Nat) (code : Nat) (st : Status) (pl : List Word) (j : Nat) : (State.emit s cls ident sev code st pl).crew j = s.crew j := by
  simp only [State.crew, State.emit_crews]
@[simp] theorem State.emit_erg (s : State) (cls : Nat) (ident : Nat) (sev : Nat) (code : Nat) (st : Status) (pl : List Word) (j : Nat) : (State.emit s cls ident sev code st pl).erg j = s.erg j := by
  simp only [State.erg, State.emit_ergs]
@[simp] theorem State.emit_task (s : State) (cls : Nat) (ident : Nat) (sev : Nat) (code : Nat) (st : Status) (pl : List Word) (j : Nat) : (State.emit s cls ident sev code st pl).task j = s.task j := by
  simp only [State.task, State.emit_tasks]
@[simp] theorem State.emit_ring (s : State) (cls : Nat) (ident : Nat) (sev : Nat) (code : Nat) (st : Status) (pl : List Word) (j : Nat) : (State.emit s cls ident sev code st pl).ring j = s.ring j := by
  simp only [State.ring, State.emit_rings]
@[simp] theorem State.emit_mb (s : State) (cls : Nat) (ident : Nat) (sev : Nat) (code : Nat) (st : Status) (pl : List Word) (j : Nat) : (State.emit s cls ident sev code st pl).mb j = s.mb j := by
  simp only [State.mb, State.emit_mbs]
@[simp] theorem State.emit_dune (s : State) (cls : Nat) (ident : Nat) (sev : Nat) (code : Nat) (st : Status) (pl : List Word) (j : Nat) : (State.emit s cls ident sev code st pl).dune j = s.dune j := by
  simp only [State.dune, State.emit_dunes]
@[simp] theorem State.emit_wake (s : State) (cls : Nat) (ident : Nat) (sev : Nat) (code : Nat) (st : Status) (pl : List Word) (j : Nat) : (State.emit s cls ident sev code st pl).wake j = s.wake j := by
  simp only [State.wake, State.emit_wakes]
@[simp] theorem State.emit_port (s : State) (cls : Nat) (ident : Nat) (sev : Nat) (code : Nat) (st : Status) (pl : List Word) (j : Nat) : (State.emit s cls ident sev code st pl).port j = s.port j := by
  simp only [State.port, State.emit_ports]
@[simp] theorem State.emit_ctr (s : State) (cls : Nat) (ident : Nat) (sev : Nat) (code : Nat) (st : Status) (pl : List Word) (j : Nat) : (State.emit s cls ident sev code st pl).ctr j = s.ctr j := by
  simp only [State.ctr, State.emit_ctrs]
@[simp] theorem State.emit_tensor (s : State) (cls : Nat) (ident : Nat) (sev : Nat) (code : Nat) (st : Status) (pl : List Word) (j : Nat) : (State.emit s cls ident sev code st pl).tensor j = s.tensor j := by
  simp only [State.tensor, State.emit_tier]
@[simp] theorem State.emit_byte (s : State) (cls : Nat) (ident : Nat) (sev : Nat) (code : Nat) (st : Status) (pl : List Word) (j : Nat) : (State.emit s cls ident sev code st pl).byte j = s.byte j := by
  simp only [State.byte, State.emit_mem]
@[simp] theorem State.emit_guard (s : State) (cls : Nat) (ident : Nat) (sev : Nat) (code : Nat) (st : Status) (pl : List Word) (j : Nat) : (State.emit s cls ident sev code st pl).guard j = s.guard j := by
  simp only [State.guard, State.emit_guards]
theorem State.emit_reg (s : State) (cls : Nat) (ident : Nat) (sev : Nat) (code : Nat) (st : Status) (pl : List Word) (j : Nat) (h1 : j ≠ 0x264) (h2 : j ≠ 0x278) : (State.emit s cls ident sev code st pl).reg j = s.reg j :=
  State.emit_moves.frame .regs (by decide) j h1 h2
@[simp] theorem State.emit_nv_variant (s : State) (cls : Nat) (ident : Nat) (sev : Nat) (code : Nat) (st : Status) (pl : List Word) : (State.emit s cls ident sev code st pl).nv.variant = s.nv.variant :=
  (State.emit_moves.frame .ident (by decide)).1
@[simp] theorem State.emit_nv_serial (s : State) (cls : Nat) (ident : Nat) (sev : Nat) (code : Nat) (st : Status) (pl : List Word) : (State.emit s cls ident sev code st pl).nv.serial = s.nv.serial :=
  (State.emit_moves.frame .ident (by decide)).2

@[simp] theorem State.emitUnit_pending (s : State) (kind : Nat) (index : Nat) (sev : Nat) (code : Nat) (st : Status) (pl : List Word) : (State.emitUnit s kind index sev code st pl).pending = s.pending :=
  State.emitUnit_moves.frame .queue (by decide)
@[simp] theorem State.emitUnit_fresh (s : State) (kind : Nat) (index : Nat) (sev : Nat) (code : Nat) (st : Status) (pl : List Word) : (State.emitUnit s kind index sev code st pl).fresh = s.fresh :=
  State.emitUnit_moves.frame .fresh (by decide)
@[simp] theorem State.emitUnit_power (s : State) (kind : Nat) (index : Nat) (sev : Nat) (code : Nat) (st : Status) (pl : List Word) : (State.emitUnit s kind index sev code st pl).power = s.power :=
  State.emitUnit_moves.frame .power (by decide)
@[simp] theorem State.emitUnit_pwrGood (s : State) (kind : Nat) (index : Nat) (sev : Nat) (code : Nat) (st : Status) (pl : List Word) : (State.emitUnit s kind index sev code st pl).pwrGood = s.pwrGood :=
  State.emitUnit_moves.frame .pwrGood (by decide)
@[simp] theorem State.emitUnit_etc (s : State) (kind : Nat) (index : Nat) (sev : Nat) (code : Nat) (st : Status) (pl : List Word) : (State.emitUnit s kind index sev code st pl).etc = s.etc :=
  State.emitUnit_moves.frame .etc (by decide)
@[simp] theorem State.emitUnit_timer (s : State) (kind : Nat) (index : Nat) (sev : Nat) (code : Nat) (st : Status) (pl : List Word) : (State.emitUnit s kind index sev code st pl).timer = s.timer :=
  State.emitUnit_moves.frame .timer (by decide)
@[simp] theorem State.emitUnit_dev (s : State) (kind : Nat) (index : Nat) (sev : Nat) (code : Nat) (st : Status) (pl : List Word) : (State.emitUnit s kind index sev code st pl).dev = s.dev :=
  State.emitUnit_moves.frame .dev (by decide)
@[simp] theorem State.emitUnit_fault (s : State) (kind : Nat) (index : Nat) (sev : Nat) (code : Nat) (st : Status) (pl : List Word) : (State.emitUnit s kind index sev code st pl).fault = s.fault :=
  State.emitUnit_moves.frame .fault (by decide)
@[simp] theorem State.emitUnit_sec (s : State) (kind : Nat) (index : Nat) (sev : Nat) (code : Nat) (st : Status) (pl : List Word) : (State.emitUnit s kind index sev code st pl).sec = s.sec :=
  State.emitUnit_moves.frame .sec (by decide)
@[simp] theorem State.emitUnit_crash (s : State) (kind : Nat) (index : Nat) (sev : Nat) (code : Nat) (st : Status) (pl : List Word) : (State.emitUnit s kind index sev code st pl).crash = s.crash :=
  State.emitUnit_moves.frame .crash (by decide)
@[simp] theorem State.emitUnit_staged5 (s : State) (kind : Nat) (index : Nat) (sev : Nat) (code : Nat) (st : Status) (pl : List Word) : (State.emitUnit s kind index sev code st pl).staged5 = s.staged5 :=
  State.emitUnit_moves.frame .staged5 (by decide)
@[simp] theorem State.emitUnit_staged3 (s : State) (kind : Nat) (index : Nat) (sev : Nat) (code : Nat) (st : Status) (pl : List Word) : (State.emitUnit s kind index sev code st pl).staged3 = s.staged3 :=
  State.emitUnit_moves.frame .staged3 (by decide)
@[simp] theorem State.emitUnit_seeded (s : State) (kind : Nat) (index : Nat) (sev : Nat) (code : Nat) (st : Status) (pl : List Word) : (State.emitUnit s kind index sev code st pl).seeded = s.seeded :=
  State.emitUnit_moves.frame .seeded (by decide)
@[simp] theorem State.emitUnit_holding (s : State) (kind : Nat) (index : Nat) (sev : Nat) (code : Nat) (st : Status) (pl : List Word) : (State.emitUnit s kind index sev code st pl).holding = s.holding :=
  State.emitUnit_moves.frame .holding (by decide)
@[simp] theorem State.emitUnit_guards (s : State) (kind : Nat) (index : Nat) (sev : Nat) (code : Nat) (st : Status) (pl : List Word) : (State.emitUnit s kind index sev code st pl).guards = s.guards :=
  State.emitUnit_moves.frame .guards (by decide)
@[simp] theorem State.emitUnit_mem (s : State) (kind : Nat) (index : Nat) (sev : Nat) (code : Nat) (st : Status) (pl : List Word) : (State.emitUnit s kind index sev code st pl).mem = s.mem :=
  State.emitUnit_moves.frame .mem (by decide)
@[simp] theorem State.emitUnit_poison (s : State) (kind : Nat) (index : Nat) (sev : Nat) (code : Nat) (st : Status) (pl : List Word) : (State.emitUnit s kind index sev code st pl).poison = s.poison :=
  State.emitUnit_moves.frame .poison (by decide)
@[simp] theorem State.emitUnit_sculls (s : State) (kind : Nat) (index : Nat) (sev : Nat) (code : Nat) (st : Status) (pl : List Word) : (State.emitUnit s kind index sev code st pl).sculls = s.sculls :=
  State.emitUnit_moves.frame .sculls (by decide)
@[simp] theorem State.emitUnit_crews (s : State) (kind : Nat) (index : Nat) (sev : Nat) (code : Nat) (st : Status) (pl : List Word) : (State.emitUnit s kind index sev code st pl).crews = s.crews :=
  State.emitUnit_moves.frame .crews (by decide)
@[simp] theorem State.emitUnit_ergs (s : State) (kind : Nat) (index : Nat) (sev : Nat) (code : Nat) (st : Status) (pl : List Word) : (State.emitUnit s kind index sev code st pl).ergs = s.ergs :=
  State.emitUnit_moves.frame .ergs (by decide)
@[simp] theorem State.emitUnit_ctrs (s : State) (kind : Nat) (index : Nat) (sev : Nat) (code : Nat) (st : Status) (pl : List Word) : (State.emitUnit s kind index sev code st pl).ctrs = s.ctrs :=
  State.emitUnit_moves.frame .ctrs (by decide)
@[simp] theorem State.emitUnit_tasks (s : State) (kind : Nat) (index : Nat) (sev : Nat) (code : Nat) (st : Status) (pl : List Word) : (State.emitUnit s kind index sev code st pl).tasks = s.tasks :=
  State.emitUnit_moves.frame .tasks (by decide)
@[simp] theorem State.emitUnit_rings (s : State) (kind : Nat) (index : Nat) (sev : Nat) (code : Nat) (st : Status) (pl : List Word) : (State.emitUnit s kind index sev code st pl).rings = s.rings :=
  State.emitUnit_moves.frame .rings (by decide)
@[simp] theorem State.emitUnit_lastRing (s : State) (kind : Nat) (index : Nat) (sev : Nat) (code : Nat) (st : Status) (pl : List Word) : (State.emitUnit s kind index sev code st pl).lastRing = s.lastRing :=
  State.emitUnit_moves.frame .lastRing (by decide)
@[simp] theorem State.emitUnit_mbs (s : State) (kind : Nat) (index : Nat) (sev : Nat) (code : Nat) (st : Status) (pl : List Word) : (State.emitUnit s kind index sev code st pl).mbs = s.mbs :=
  State.emitUnit_moves.frame .mbs (by decide)
@[simp] theorem State.emitUnit_stateMb (s : State) (kind : Nat) (index : Nat) (sev : Nat) (code : Nat) (st : Status) (pl : List Word) : (State.emitUnit s kind index sev code st pl).stateMb = s.stateMb :=
  State.emitUnit_moves.frame .stateMb (by decide)
@[simp] theorem State.emitUnit_mbQueue (s : State) (kind : Nat) (index : Nat) (sev : Nat) (code : Nat) (st : Status) (pl : List Word) : (State.emitUnit s kind index sev code st pl).mbQueue = s.mbQueue :=
  State.emitUnit_moves.frame .mbQueue (by decide)
@[simp] theorem State.emitUnit_dunes (s : State) (kind : Nat) (index : Nat) (sev : Nat) (code : Nat) (st : Status) (pl : List Word) : (State.emitUnit s kind index sev code st pl).dunes = s.dunes :=
  State.emitUnit_moves.frame .dunes (by decide)
@[simp] theorem State.emitUnit_tier (s : State) (kind : Nat) (index : Nat) (sev : Nat) (code : Nat) (st : Status) (pl : List Word) : (State.emitUnit s kind index sev code st pl).tier = s.tier :=
  State.emitUnit_moves.frame .tier (by decide)
@[simp] theorem State.emitUnit_kv (s : State) (kind : Nat) (index : Nat) (sev : Nat) (code : Nat) (st : Status) (pl : List Word) : (State.emitUnit s kind index sev code st pl).kv = s.kv :=
  State.emitUnit_moves.frame .kv (by decide)
@[simp] theorem State.emitUnit_lowp (s : State) (kind : Nat) (index : Nat) (sev : Nat) (code : Nat) (st : Status) (pl : List Word) : (State.emitUnit s kind index sev code st pl).lowp = s.lowp :=
  State.emitUnit_moves.frame .lowp (by decide)
@[simp] theorem State.emitUnit_wakes (s : State) (kind : Nat) (index : Nat) (sev : Nat) (code : Nat) (st : Status) (pl : List Word) : (State.emitUnit s kind index sev code st pl).wakes = s.wakes :=
  State.emitUnit_moves.frame .wakes (by decide)
@[simp] theorem State.emitUnit_ports (s : State) (kind : Nat) (index : Nat) (sev : Nat) (code : Nat) (st : Status) (pl : List Word) : (State.emitUnit s kind index sev code st pl).ports = s.ports :=
  State.emitUnit_moves.frame .ports (by decide)
@[simp] theorem State.emitUnit_rigger (s : State) (kind : Nat) (index : Nat) (sev : Nat) (code : Nat) (st : Status) (pl : List Word) : (State.emitUnit s kind index sev code st pl).rigger = s.rigger :=
  State.emitUnit_moves.frame .rigger (by decide)
@[simp] theorem State.emitUnit_colls (s : State) (kind : Nat) (index : Nat) (sev : Nat) (code : Nat) (st : Status) (pl : List Word) : (State.emitUnit s kind index sev code st pl).colls = s.colls :=
  State.emitUnit_moves.frame .colls (by decide)
@[simp] theorem State.emitUnit_peers (s : State) (kind : Nat) (index : Nat) (sev : Nat) (code : Nat) (st : Status) (pl : List Word) : (State.emitUnit s kind index sev code st pl).peers = s.peers :=
  State.emitUnit_moves.frame .peers (by decide)
@[simp] theorem State.emitUnit_sched (s : State) (kind : Nat) (index : Nat) (sev : Nat) (code : Nat) (st : Status) (pl : List Word) : (State.emitUnit s kind index sev code st pl).sched = s.sched :=
  State.emitUnit_moves.frame .sched (by decide)
@[simp] theorem State.emitUnit_islands (s : State) (kind : Nat) (index : Nat) (sev : Nat) (code : Nat) (st : Status) (pl : List Word) : (State.emitUnit s kind index sev code st pl).islands = s.islands :=
  State.emitUnit_moves.frame .islands (by decide)
@[simp] theorem State.emitUnit_flashGone (s : State) (kind : Nat) (index : Nat) (sev : Nat) (code : Nat) (st : Status) (pl : List Word) : (State.emitUnit s kind index sev code st pl).flashGone = s.flashGone :=
  State.emitUnit_moves.frame .flashGone (by decide)
@[simp] theorem State.emitUnit_pwr (s : State) (kind : Nat) (index : Nat) (sev : Nat) (code : Nat) (st : Status) (pl : List Word) : (State.emitUnit s kind index sev code st pl).pwr = s.pwr :=
  State.emitUnit_moves.frame .pwr (by decide)
@[simp] theorem State.emitUnit_cairn (s : State) (kind : Nat) (index : Nat) (sev : Nat) (code : Nat) (st : Status) (pl : List Word) : (State.emitUnit s kind index sev code st pl).cairn = s.cairn :=
  State.emitUnit_moves.frame .cairn (by decide)
@[simp] theorem State.emitUnit_scull (s : State) (kind : Nat) (index : Nat) (sev : Nat) (code : Nat) (st : Status) (pl : List Word) (j : Nat) : (State.emitUnit s kind index sev code st pl).scull j = s.scull j := by
  simp only [State.scull, State.emitUnit_sculls]
@[simp] theorem State.emitUnit_crew (s : State) (kind : Nat) (index : Nat) (sev : Nat) (code : Nat) (st : Status) (pl : List Word) (j : Nat) : (State.emitUnit s kind index sev code st pl).crew j = s.crew j := by
  simp only [State.crew, State.emitUnit_crews]
@[simp] theorem State.emitUnit_erg (s : State) (kind : Nat) (index : Nat) (sev : Nat) (code : Nat) (st : Status) (pl : List Word) (j : Nat) : (State.emitUnit s kind index sev code st pl).erg j = s.erg j := by
  simp only [State.erg, State.emitUnit_ergs]
@[simp] theorem State.emitUnit_task (s : State) (kind : Nat) (index : Nat) (sev : Nat) (code : Nat) (st : Status) (pl : List Word) (j : Nat) : (State.emitUnit s kind index sev code st pl).task j = s.task j := by
  simp only [State.task, State.emitUnit_tasks]
@[simp] theorem State.emitUnit_ring (s : State) (kind : Nat) (index : Nat) (sev : Nat) (code : Nat) (st : Status) (pl : List Word) (j : Nat) : (State.emitUnit s kind index sev code st pl).ring j = s.ring j := by
  simp only [State.ring, State.emitUnit_rings]
@[simp] theorem State.emitUnit_mb (s : State) (kind : Nat) (index : Nat) (sev : Nat) (code : Nat) (st : Status) (pl : List Word) (j : Nat) : (State.emitUnit s kind index sev code st pl).mb j = s.mb j := by
  simp only [State.mb, State.emitUnit_mbs]
@[simp] theorem State.emitUnit_dune (s : State) (kind : Nat) (index : Nat) (sev : Nat) (code : Nat) (st : Status) (pl : List Word) (j : Nat) : (State.emitUnit s kind index sev code st pl).dune j = s.dune j := by
  simp only [State.dune, State.emitUnit_dunes]
@[simp] theorem State.emitUnit_wake (s : State) (kind : Nat) (index : Nat) (sev : Nat) (code : Nat) (st : Status) (pl : List Word) (j : Nat) : (State.emitUnit s kind index sev code st pl).wake j = s.wake j := by
  simp only [State.wake, State.emitUnit_wakes]
@[simp] theorem State.emitUnit_port (s : State) (kind : Nat) (index : Nat) (sev : Nat) (code : Nat) (st : Status) (pl : List Word) (j : Nat) : (State.emitUnit s kind index sev code st pl).port j = s.port j := by
  simp only [State.port, State.emitUnit_ports]
@[simp] theorem State.emitUnit_ctr (s : State) (kind : Nat) (index : Nat) (sev : Nat) (code : Nat) (st : Status) (pl : List Word) (j : Nat) : (State.emitUnit s kind index sev code st pl).ctr j = s.ctr j := by
  simp only [State.ctr, State.emitUnit_ctrs]
@[simp] theorem State.emitUnit_tensor (s : State) (kind : Nat) (index : Nat) (sev : Nat) (code : Nat) (st : Status) (pl : List Word) (j : Nat) : (State.emitUnit s kind index sev code st pl).tensor j = s.tensor j := by
  simp only [State.tensor, State.emitUnit_tier]
@[simp] theorem State.emitUnit_byte (s : State) (kind : Nat) (index : Nat) (sev : Nat) (code : Nat) (st : Status) (pl : List Word) (j : Nat) : (State.emitUnit s kind index sev code st pl).byte j = s.byte j := by
  simp only [State.byte, State.emitUnit_mem]
@[simp] theorem State.emitUnit_guard (s : State) (kind : Nat) (index : Nat) (sev : Nat) (code : Nat) (st : Status) (pl : List Word) (j : Nat) : (State.emitUnit s kind index sev code st pl).guard j = s.guard j := by
  simp only [State.guard, State.emitUnit_guards]
theorem State.emitUnit_reg (s : State) (kind : Nat) (index : Nat) (sev : Nat) (code : Nat) (st : Status) (pl : List Word) (j : Nat) (h1 : j ≠ 0x264) (h2 : j ≠ 0x278) : (State.emitUnit s kind index sev code st pl).reg j = s.reg j :=
  State.emitUnit_moves.frame .regs (by decide) j h1 h2
@[simp] theorem State.emitUnit_nv_variant (s : State) (kind : Nat) (index : Nat) (sev : Nat) (code : Nat) (st : Status) (pl : List Word) : (State.emitUnit s kind index sev code st pl).nv.variant = s.nv.variant :=
  (State.emitUnit_moves.frame .ident (by decide)).1
@[simp] theorem State.emitUnit_nv_serial (s : State) (kind : Nat) (index : Nat) (sev : Nat) (code : Nat) (st : Status) (pl : List Word) : (State.emitUnit s kind index sev code st pl).nv.serial = s.nv.serial :=
  (State.emitUnit_moves.frame .ident (by decide)).2

@[simp] theorem State.emitFw_pending (s : State) (sev : Nat) (code : Nat) (st : Status) (pl : List Word) : (State.emitFw s sev code st pl).pending = s.pending :=
  State.emitFw_moves.frame .queue (by decide)
@[simp] theorem State.emitFw_fresh (s : State) (sev : Nat) (code : Nat) (st : Status) (pl : List Word) : (State.emitFw s sev code st pl).fresh = s.fresh :=
  State.emitFw_moves.frame .fresh (by decide)
@[simp] theorem State.emitFw_power (s : State) (sev : Nat) (code : Nat) (st : Status) (pl : List Word) : (State.emitFw s sev code st pl).power = s.power :=
  State.emitFw_moves.frame .power (by decide)
@[simp] theorem State.emitFw_pwrGood (s : State) (sev : Nat) (code : Nat) (st : Status) (pl : List Word) : (State.emitFw s sev code st pl).pwrGood = s.pwrGood :=
  State.emitFw_moves.frame .pwrGood (by decide)
@[simp] theorem State.emitFw_etc (s : State) (sev : Nat) (code : Nat) (st : Status) (pl : List Word) : (State.emitFw s sev code st pl).etc = s.etc :=
  State.emitFw_moves.frame .etc (by decide)
@[simp] theorem State.emitFw_timer (s : State) (sev : Nat) (code : Nat) (st : Status) (pl : List Word) : (State.emitFw s sev code st pl).timer = s.timer :=
  State.emitFw_moves.frame .timer (by decide)
@[simp] theorem State.emitFw_dev (s : State) (sev : Nat) (code : Nat) (st : Status) (pl : List Word) : (State.emitFw s sev code st pl).dev = s.dev :=
  State.emitFw_moves.frame .dev (by decide)
@[simp] theorem State.emitFw_fault (s : State) (sev : Nat) (code : Nat) (st : Status) (pl : List Word) : (State.emitFw s sev code st pl).fault = s.fault :=
  State.emitFw_moves.frame .fault (by decide)
@[simp] theorem State.emitFw_sec (s : State) (sev : Nat) (code : Nat) (st : Status) (pl : List Word) : (State.emitFw s sev code st pl).sec = s.sec :=
  State.emitFw_moves.frame .sec (by decide)
@[simp] theorem State.emitFw_crash (s : State) (sev : Nat) (code : Nat) (st : Status) (pl : List Word) : (State.emitFw s sev code st pl).crash = s.crash :=
  State.emitFw_moves.frame .crash (by decide)
@[simp] theorem State.emitFw_staged5 (s : State) (sev : Nat) (code : Nat) (st : Status) (pl : List Word) : (State.emitFw s sev code st pl).staged5 = s.staged5 :=
  State.emitFw_moves.frame .staged5 (by decide)
@[simp] theorem State.emitFw_staged3 (s : State) (sev : Nat) (code : Nat) (st : Status) (pl : List Word) : (State.emitFw s sev code st pl).staged3 = s.staged3 :=
  State.emitFw_moves.frame .staged3 (by decide)
@[simp] theorem State.emitFw_seeded (s : State) (sev : Nat) (code : Nat) (st : Status) (pl : List Word) : (State.emitFw s sev code st pl).seeded = s.seeded :=
  State.emitFw_moves.frame .seeded (by decide)
@[simp] theorem State.emitFw_holding (s : State) (sev : Nat) (code : Nat) (st : Status) (pl : List Word) : (State.emitFw s sev code st pl).holding = s.holding :=
  State.emitFw_moves.frame .holding (by decide)
@[simp] theorem State.emitFw_guards (s : State) (sev : Nat) (code : Nat) (st : Status) (pl : List Word) : (State.emitFw s sev code st pl).guards = s.guards :=
  State.emitFw_moves.frame .guards (by decide)
@[simp] theorem State.emitFw_mem (s : State) (sev : Nat) (code : Nat) (st : Status) (pl : List Word) : (State.emitFw s sev code st pl).mem = s.mem :=
  State.emitFw_moves.frame .mem (by decide)
@[simp] theorem State.emitFw_poison (s : State) (sev : Nat) (code : Nat) (st : Status) (pl : List Word) : (State.emitFw s sev code st pl).poison = s.poison :=
  State.emitFw_moves.frame .poison (by decide)
@[simp] theorem State.emitFw_sculls (s : State) (sev : Nat) (code : Nat) (st : Status) (pl : List Word) : (State.emitFw s sev code st pl).sculls = s.sculls :=
  State.emitFw_moves.frame .sculls (by decide)
@[simp] theorem State.emitFw_crews (s : State) (sev : Nat) (code : Nat) (st : Status) (pl : List Word) : (State.emitFw s sev code st pl).crews = s.crews :=
  State.emitFw_moves.frame .crews (by decide)
@[simp] theorem State.emitFw_ergs (s : State) (sev : Nat) (code : Nat) (st : Status) (pl : List Word) : (State.emitFw s sev code st pl).ergs = s.ergs :=
  State.emitFw_moves.frame .ergs (by decide)
@[simp] theorem State.emitFw_ctrs (s : State) (sev : Nat) (code : Nat) (st : Status) (pl : List Word) : (State.emitFw s sev code st pl).ctrs = s.ctrs :=
  State.emitFw_moves.frame .ctrs (by decide)
@[simp] theorem State.emitFw_tasks (s : State) (sev : Nat) (code : Nat) (st : Status) (pl : List Word) : (State.emitFw s sev code st pl).tasks = s.tasks :=
  State.emitFw_moves.frame .tasks (by decide)
@[simp] theorem State.emitFw_rings (s : State) (sev : Nat) (code : Nat) (st : Status) (pl : List Word) : (State.emitFw s sev code st pl).rings = s.rings :=
  State.emitFw_moves.frame .rings (by decide)
@[simp] theorem State.emitFw_lastRing (s : State) (sev : Nat) (code : Nat) (st : Status) (pl : List Word) : (State.emitFw s sev code st pl).lastRing = s.lastRing :=
  State.emitFw_moves.frame .lastRing (by decide)
@[simp] theorem State.emitFw_mbs (s : State) (sev : Nat) (code : Nat) (st : Status) (pl : List Word) : (State.emitFw s sev code st pl).mbs = s.mbs :=
  State.emitFw_moves.frame .mbs (by decide)
@[simp] theorem State.emitFw_stateMb (s : State) (sev : Nat) (code : Nat) (st : Status) (pl : List Word) : (State.emitFw s sev code st pl).stateMb = s.stateMb :=
  State.emitFw_moves.frame .stateMb (by decide)
@[simp] theorem State.emitFw_mbQueue (s : State) (sev : Nat) (code : Nat) (st : Status) (pl : List Word) : (State.emitFw s sev code st pl).mbQueue = s.mbQueue :=
  State.emitFw_moves.frame .mbQueue (by decide)
@[simp] theorem State.emitFw_dunes (s : State) (sev : Nat) (code : Nat) (st : Status) (pl : List Word) : (State.emitFw s sev code st pl).dunes = s.dunes :=
  State.emitFw_moves.frame .dunes (by decide)
@[simp] theorem State.emitFw_tier (s : State) (sev : Nat) (code : Nat) (st : Status) (pl : List Word) : (State.emitFw s sev code st pl).tier = s.tier :=
  State.emitFw_moves.frame .tier (by decide)
@[simp] theorem State.emitFw_kv (s : State) (sev : Nat) (code : Nat) (st : Status) (pl : List Word) : (State.emitFw s sev code st pl).kv = s.kv :=
  State.emitFw_moves.frame .kv (by decide)
@[simp] theorem State.emitFw_lowp (s : State) (sev : Nat) (code : Nat) (st : Status) (pl : List Word) : (State.emitFw s sev code st pl).lowp = s.lowp :=
  State.emitFw_moves.frame .lowp (by decide)
@[simp] theorem State.emitFw_wakes (s : State) (sev : Nat) (code : Nat) (st : Status) (pl : List Word) : (State.emitFw s sev code st pl).wakes = s.wakes :=
  State.emitFw_moves.frame .wakes (by decide)
@[simp] theorem State.emitFw_ports (s : State) (sev : Nat) (code : Nat) (st : Status) (pl : List Word) : (State.emitFw s sev code st pl).ports = s.ports :=
  State.emitFw_moves.frame .ports (by decide)
@[simp] theorem State.emitFw_rigger (s : State) (sev : Nat) (code : Nat) (st : Status) (pl : List Word) : (State.emitFw s sev code st pl).rigger = s.rigger :=
  State.emitFw_moves.frame .rigger (by decide)
@[simp] theorem State.emitFw_colls (s : State) (sev : Nat) (code : Nat) (st : Status) (pl : List Word) : (State.emitFw s sev code st pl).colls = s.colls :=
  State.emitFw_moves.frame .colls (by decide)
@[simp] theorem State.emitFw_peers (s : State) (sev : Nat) (code : Nat) (st : Status) (pl : List Word) : (State.emitFw s sev code st pl).peers = s.peers :=
  State.emitFw_moves.frame .peers (by decide)
@[simp] theorem State.emitFw_sched (s : State) (sev : Nat) (code : Nat) (st : Status) (pl : List Word) : (State.emitFw s sev code st pl).sched = s.sched :=
  State.emitFw_moves.frame .sched (by decide)
@[simp] theorem State.emitFw_islands (s : State) (sev : Nat) (code : Nat) (st : Status) (pl : List Word) : (State.emitFw s sev code st pl).islands = s.islands :=
  State.emitFw_moves.frame .islands (by decide)
@[simp] theorem State.emitFw_flashGone (s : State) (sev : Nat) (code : Nat) (st : Status) (pl : List Word) : (State.emitFw s sev code st pl).flashGone = s.flashGone :=
  State.emitFw_moves.frame .flashGone (by decide)
@[simp] theorem State.emitFw_pwr (s : State) (sev : Nat) (code : Nat) (st : Status) (pl : List Word) : (State.emitFw s sev code st pl).pwr = s.pwr :=
  State.emitFw_moves.frame .pwr (by decide)
@[simp] theorem State.emitFw_cairn (s : State) (sev : Nat) (code : Nat) (st : Status) (pl : List Word) : (State.emitFw s sev code st pl).cairn = s.cairn :=
  State.emitFw_moves.frame .cairn (by decide)
@[simp] theorem State.emitFw_scull (s : State) (sev : Nat) (code : Nat) (st : Status) (pl : List Word) (j : Nat) : (State.emitFw s sev code st pl).scull j = s.scull j := by
  simp only [State.scull, State.emitFw_sculls]
@[simp] theorem State.emitFw_crew (s : State) (sev : Nat) (code : Nat) (st : Status) (pl : List Word) (j : Nat) : (State.emitFw s sev code st pl).crew j = s.crew j := by
  simp only [State.crew, State.emitFw_crews]
@[simp] theorem State.emitFw_erg (s : State) (sev : Nat) (code : Nat) (st : Status) (pl : List Word) (j : Nat) : (State.emitFw s sev code st pl).erg j = s.erg j := by
  simp only [State.erg, State.emitFw_ergs]
@[simp] theorem State.emitFw_task (s : State) (sev : Nat) (code : Nat) (st : Status) (pl : List Word) (j : Nat) : (State.emitFw s sev code st pl).task j = s.task j := by
  simp only [State.task, State.emitFw_tasks]
@[simp] theorem State.emitFw_ring (s : State) (sev : Nat) (code : Nat) (st : Status) (pl : List Word) (j : Nat) : (State.emitFw s sev code st pl).ring j = s.ring j := by
  simp only [State.ring, State.emitFw_rings]
@[simp] theorem State.emitFw_mb (s : State) (sev : Nat) (code : Nat) (st : Status) (pl : List Word) (j : Nat) : (State.emitFw s sev code st pl).mb j = s.mb j := by
  simp only [State.mb, State.emitFw_mbs]
@[simp] theorem State.emitFw_dune (s : State) (sev : Nat) (code : Nat) (st : Status) (pl : List Word) (j : Nat) : (State.emitFw s sev code st pl).dune j = s.dune j := by
  simp only [State.dune, State.emitFw_dunes]
@[simp] theorem State.emitFw_wake (s : State) (sev : Nat) (code : Nat) (st : Status) (pl : List Word) (j : Nat) : (State.emitFw s sev code st pl).wake j = s.wake j := by
  simp only [State.wake, State.emitFw_wakes]
@[simp] theorem State.emitFw_port (s : State) (sev : Nat) (code : Nat) (st : Status) (pl : List Word) (j : Nat) : (State.emitFw s sev code st pl).port j = s.port j := by
  simp only [State.port, State.emitFw_ports]
@[simp] theorem State.emitFw_ctr (s : State) (sev : Nat) (code : Nat) (st : Status) (pl : List Word) (j : Nat) : (State.emitFw s sev code st pl).ctr j = s.ctr j := by
  simp only [State.ctr, State.emitFw_ctrs]
@[simp] theorem State.emitFw_tensor (s : State) (sev : Nat) (code : Nat) (st : Status) (pl : List Word) (j : Nat) : (State.emitFw s sev code st pl).tensor j = s.tensor j := by
  simp only [State.tensor, State.emitFw_tier]
@[simp] theorem State.emitFw_byte (s : State) (sev : Nat) (code : Nat) (st : Status) (pl : List Word) (j : Nat) : (State.emitFw s sev code st pl).byte j = s.byte j := by
  simp only [State.byte, State.emitFw_mem]
@[simp] theorem State.emitFw_guard (s : State) (sev : Nat) (code : Nat) (st : Status) (pl : List Word) (j : Nat) : (State.emitFw s sev code st pl).guard j = s.guard j := by
  simp only [State.guard, State.emitFw_guards]
theorem State.emitFw_reg (s : State) (sev : Nat) (code : Nat) (st : Status) (pl : List Word) (j : Nat) (h1 : j ≠ 0x264) (h2 : j ≠ 0x278) : (State.emitFw s sev code st pl).reg j = s.reg j :=
  State.emitFw_moves.frame .regs (by decide) j h1 h2
@[simp] theorem State.emitFw_nv_variant (s : State) (sev : Nat) (code : Nat) (st : Status) (pl : List Word) : (State.emitFw s sev code st pl).nv.variant = s.nv.variant :=
  (State.emitFw_moves.frame .ident (by decide)).1
@[simp] theorem State.emitFw_nv_serial (s : State) (sev : Nat) (code : Nat) (st : Status) (pl : List Word) : (State.emitFw s sev code st pl).nv.serial = s.nv.serial :=
  (State.emitFw_moves.frame .ident (by decide)).2

@[simp] theorem State.logWrite_pending (s : State) (req : Requester) (off : Nat) (old : Word) (new : Word) : (State.logWrite s req off old new).pending = s.pending :=
  State.logWrite_moves.frame .queue (by decide)
@[simp] theorem State.logWrite_fresh (s : State) (req : Requester) (off : Nat) (old : Word) (new : Word) : (State.logWrite s req off old new).fresh = s.fresh :=
  State.logWrite_moves.frame .fresh (by decide)
@[simp] theorem State.logWrite_power (s : State) (req : Requester) (off : Nat) (old : Word) (new : Word) : (State.logWrite s req off old new).power = s.power :=
  State.logWrite_moves.frame .power (by decide)
@[simp] theorem State.logWrite_pwrGood (s : State) (req : Requester) (off : Nat) (old : Word) (new : Word) : (State.logWrite s req off old new).pwrGood = s.pwrGood :=
  State.logWrite_moves.frame .pwrGood (by decide)
@[simp] theorem State.logWrite_etc (s : State) (req : Requester) (off : Nat) (old : Word) (new : Word) : (State.logWrite s req off old new).etc = s.etc :=
  State.logWrite_moves.frame .etc (by decide)
@[simp] theorem State.logWrite_timer (s : State) (req : Requester) (off : Nat) (old : Word) (new : Word) : (State.logWrite s req off old new).timer = s.timer :=
  State.logWrite_moves.frame .timer (by decide)
@[simp] theorem State.logWrite_dev (s : State) (req : Requester) (off : Nat) (old : Word) (new : Word) : (State.logWrite s req off old new).dev = s.dev :=
  State.logWrite_moves.frame .dev (by decide)
@[simp] theorem State.logWrite_fault (s : State) (req : Requester) (off : Nat) (old : Word) (new : Word) : (State.logWrite s req off old new).fault = s.fault :=
  State.logWrite_moves.frame .fault (by decide)
@[simp] theorem State.logWrite_sec (s : State) (req : Requester) (off : Nat) (old : Word) (new : Word) : (State.logWrite s req off old new).sec = s.sec :=
  State.logWrite_moves.frame .sec (by decide)
@[simp] theorem State.logWrite_crash (s : State) (req : Requester) (off : Nat) (old : Word) (new : Word) : (State.logWrite s req off old new).crash = s.crash :=
  State.logWrite_moves.frame .crash (by decide)
@[simp] theorem State.logWrite_staged5 (s : State) (req : Requester) (off : Nat) (old : Word) (new : Word) : (State.logWrite s req off old new).staged5 = s.staged5 :=
  State.logWrite_moves.frame .staged5 (by decide)
@[simp] theorem State.logWrite_staged3 (s : State) (req : Requester) (off : Nat) (old : Word) (new : Word) : (State.logWrite s req off old new).staged3 = s.staged3 :=
  State.logWrite_moves.frame .staged3 (by decide)
@[simp] theorem State.logWrite_seeded (s : State) (req : Requester) (off : Nat) (old : Word) (new : Word) : (State.logWrite s req off old new).seeded = s.seeded :=
  State.logWrite_moves.frame .seeded (by decide)
@[simp] theorem State.logWrite_holding (s : State) (req : Requester) (off : Nat) (old : Word) (new : Word) : (State.logWrite s req off old new).holding = s.holding :=
  State.logWrite_moves.frame .holding (by decide)
@[simp] theorem State.logWrite_guards (s : State) (req : Requester) (off : Nat) (old : Word) (new : Word) : (State.logWrite s req off old new).guards = s.guards :=
  State.logWrite_moves.frame .guards (by decide)
@[simp] theorem State.logWrite_mem (s : State) (req : Requester) (off : Nat) (old : Word) (new : Word) : (State.logWrite s req off old new).mem = s.mem :=
  State.logWrite_moves.frame .mem (by decide)
@[simp] theorem State.logWrite_poison (s : State) (req : Requester) (off : Nat) (old : Word) (new : Word) : (State.logWrite s req off old new).poison = s.poison :=
  State.logWrite_moves.frame .poison (by decide)
@[simp] theorem State.logWrite_sculls (s : State) (req : Requester) (off : Nat) (old : Word) (new : Word) : (State.logWrite s req off old new).sculls = s.sculls :=
  State.logWrite_moves.frame .sculls (by decide)
@[simp] theorem State.logWrite_crews (s : State) (req : Requester) (off : Nat) (old : Word) (new : Word) : (State.logWrite s req off old new).crews = s.crews :=
  State.logWrite_moves.frame .crews (by decide)
@[simp] theorem State.logWrite_ergs (s : State) (req : Requester) (off : Nat) (old : Word) (new : Word) : (State.logWrite s req off old new).ergs = s.ergs :=
  State.logWrite_moves.frame .ergs (by decide)
@[simp] theorem State.logWrite_ctrs (s : State) (req : Requester) (off : Nat) (old : Word) (new : Word) : (State.logWrite s req off old new).ctrs = s.ctrs :=
  State.logWrite_moves.frame .ctrs (by decide)
@[simp] theorem State.logWrite_tasks (s : State) (req : Requester) (off : Nat) (old : Word) (new : Word) : (State.logWrite s req off old new).tasks = s.tasks :=
  State.logWrite_moves.frame .tasks (by decide)
@[simp] theorem State.logWrite_rings (s : State) (req : Requester) (off : Nat) (old : Word) (new : Word) : (State.logWrite s req off old new).rings = s.rings :=
  State.logWrite_moves.frame .rings (by decide)
@[simp] theorem State.logWrite_lastRing (s : State) (req : Requester) (off : Nat) (old : Word) (new : Word) : (State.logWrite s req off old new).lastRing = s.lastRing :=
  State.logWrite_moves.frame .lastRing (by decide)
@[simp] theorem State.logWrite_mbs (s : State) (req : Requester) (off : Nat) (old : Word) (new : Word) : (State.logWrite s req off old new).mbs = s.mbs :=
  State.logWrite_moves.frame .mbs (by decide)
@[simp] theorem State.logWrite_stateMb (s : State) (req : Requester) (off : Nat) (old : Word) (new : Word) : (State.logWrite s req off old new).stateMb = s.stateMb :=
  State.logWrite_moves.frame .stateMb (by decide)
@[simp] theorem State.logWrite_mbQueue (s : State) (req : Requester) (off : Nat) (old : Word) (new : Word) : (State.logWrite s req off old new).mbQueue = s.mbQueue :=
  State.logWrite_moves.frame .mbQueue (by decide)
@[simp] theorem State.logWrite_dunes (s : State) (req : Requester) (off : Nat) (old : Word) (new : Word) : (State.logWrite s req off old new).dunes = s.dunes :=
  State.logWrite_moves.frame .dunes (by decide)
@[simp] theorem State.logWrite_tier (s : State) (req : Requester) (off : Nat) (old : Word) (new : Word) : (State.logWrite s req off old new).tier = s.tier :=
  State.logWrite_moves.frame .tier (by decide)
@[simp] theorem State.logWrite_kv (s : State) (req : Requester) (off : Nat) (old : Word) (new : Word) : (State.logWrite s req off old new).kv = s.kv :=
  State.logWrite_moves.frame .kv (by decide)
@[simp] theorem State.logWrite_lowp (s : State) (req : Requester) (off : Nat) (old : Word) (new : Word) : (State.logWrite s req off old new).lowp = s.lowp :=
  State.logWrite_moves.frame .lowp (by decide)
@[simp] theorem State.logWrite_wakes (s : State) (req : Requester) (off : Nat) (old : Word) (new : Word) : (State.logWrite s req off old new).wakes = s.wakes :=
  State.logWrite_moves.frame .wakes (by decide)
@[simp] theorem State.logWrite_ports (s : State) (req : Requester) (off : Nat) (old : Word) (new : Word) : (State.logWrite s req off old new).ports = s.ports :=
  State.logWrite_moves.frame .ports (by decide)
@[simp] theorem State.logWrite_rigger (s : State) (req : Requester) (off : Nat) (old : Word) (new : Word) : (State.logWrite s req off old new).rigger = s.rigger :=
  State.logWrite_moves.frame .rigger (by decide)
@[simp] theorem State.logWrite_colls (s : State) (req : Requester) (off : Nat) (old : Word) (new : Word) : (State.logWrite s req off old new).colls = s.colls :=
  State.logWrite_moves.frame .colls (by decide)
@[simp] theorem State.logWrite_peers (s : State) (req : Requester) (off : Nat) (old : Word) (new : Word) : (State.logWrite s req off old new).peers = s.peers :=
  State.logWrite_moves.frame .peers (by decide)
@[simp] theorem State.logWrite_sched (s : State) (req : Requester) (off : Nat) (old : Word) (new : Word) : (State.logWrite s req off old new).sched = s.sched :=
  State.logWrite_moves.frame .sched (by decide)
@[simp] theorem State.logWrite_islands (s : State) (req : Requester) (off : Nat) (old : Word) (new : Word) : (State.logWrite s req off old new).islands = s.islands :=
  State.logWrite_moves.frame .islands (by decide)
@[simp] theorem State.logWrite_flashGone (s : State) (req : Requester) (off : Nat) (old : Word) (new : Word) : (State.logWrite s req off old new).flashGone = s.flashGone :=
  State.logWrite_moves.frame .flashGone (by decide)
@[simp] theorem State.logWrite_pwr (s : State) (req : Requester) (off : Nat) (old : Word) (new : Word) : (State.logWrite s req off old new).pwr = s.pwr :=
  State.logWrite_moves.frame .pwr (by decide)
@[simp] theorem State.logWrite_cairn (s : State) (req : Requester) (off : Nat) (old : Word) (new : Word) : (State.logWrite s req off old new).cairn = s.cairn :=
  State.logWrite_moves.frame .cairn (by decide)
@[simp] theorem State.logWrite_scull (s : State) (req : Requester) (off : Nat) (old : Word) (new : Word) (j : Nat) : (State.logWrite s req off old new).scull j = s.scull j := by
  simp only [State.scull, State.logWrite_sculls]
@[simp] theorem State.logWrite_crew (s : State) (req : Requester) (off : Nat) (old : Word) (new : Word) (j : Nat) : (State.logWrite s req off old new).crew j = s.crew j := by
  simp only [State.crew, State.logWrite_crews]
@[simp] theorem State.logWrite_erg (s : State) (req : Requester) (off : Nat) (old : Word) (new : Word) (j : Nat) : (State.logWrite s req off old new).erg j = s.erg j := by
  simp only [State.erg, State.logWrite_ergs]
@[simp] theorem State.logWrite_task (s : State) (req : Requester) (off : Nat) (old : Word) (new : Word) (j : Nat) : (State.logWrite s req off old new).task j = s.task j := by
  simp only [State.task, State.logWrite_tasks]
@[simp] theorem State.logWrite_ring (s : State) (req : Requester) (off : Nat) (old : Word) (new : Word) (j : Nat) : (State.logWrite s req off old new).ring j = s.ring j := by
  simp only [State.ring, State.logWrite_rings]
@[simp] theorem State.logWrite_mb (s : State) (req : Requester) (off : Nat) (old : Word) (new : Word) (j : Nat) : (State.logWrite s req off old new).mb j = s.mb j := by
  simp only [State.mb, State.logWrite_mbs]
@[simp] theorem State.logWrite_dune (s : State) (req : Requester) (off : Nat) (old : Word) (new : Word) (j : Nat) : (State.logWrite s req off old new).dune j = s.dune j := by
  simp only [State.dune, State.logWrite_dunes]
@[simp] theorem State.logWrite_wake (s : State) (req : Requester) (off : Nat) (old : Word) (new : Word) (j : Nat) : (State.logWrite s req off old new).wake j = s.wake j := by
  simp only [State.wake, State.logWrite_wakes]
@[simp] theorem State.logWrite_port (s : State) (req : Requester) (off : Nat) (old : Word) (new : Word) (j : Nat) : (State.logWrite s req off old new).port j = s.port j := by
  simp only [State.port, State.logWrite_ports]
@[simp] theorem State.logWrite_ctr (s : State) (req : Requester) (off : Nat) (old : Word) (new : Word) (j : Nat) : (State.logWrite s req off old new).ctr j = s.ctr j := by
  simp only [State.ctr, State.logWrite_ctrs]
@[simp] theorem State.logWrite_tensor (s : State) (req : Requester) (off : Nat) (old : Word) (new : Word) (j : Nat) : (State.logWrite s req off old new).tensor j = s.tensor j := by
  simp only [State.tensor, State.logWrite_tier]
@[simp] theorem State.logWrite_byte (s : State) (req : Requester) (off : Nat) (old : Word) (new : Word) (j : Nat) : (State.logWrite s req off old new).byte j = s.byte j := by
  simp only [State.byte, State.logWrite_mem]
@[simp] theorem State.logWrite_guard (s : State) (req : Requester) (off : Nat) (old : Word) (new : Word) (j : Nat) : (State.logWrite s req off old new).guard j = s.guard j := by
  simp only [State.guard, State.logWrite_guards]
theorem State.logWrite_reg (s : State) (req : Requester) (off : Nat) (old : Word) (new : Word) (j : Nat) (h1 : j ≠ 0x264) (h2 : j ≠ 0x278) : (State.logWrite s req off old new).reg j = s.reg j :=
  State.logWrite_moves.frame .regs (by decide) j h1 h2
@[simp] theorem State.logWrite_nv_variant (s : State) (req : Requester) (off : Nat) (old : Word) (new : Word) : (State.logWrite s req off old new).nv.variant = s.nv.variant :=
  (State.logWrite_moves.frame .ident (by decide)).1
@[simp] theorem State.logWrite_nv_serial (s : State) (req : Requester) (off : Nat) (old : Word) (new : Word) : (State.logWrite s req off old new).nv.serial = s.nv.serial :=
  (State.logWrite_moves.frame .ident (by decide)).2

@[simp] theorem State.logRefused_pending (s : State) (req : Requester) (off : Nat) (st : Status) (held : Word) (tried : Word) : (State.logRefused s req off st held tried).pending = s.pending :=
  State.logRefused_moves.frame .queue (by decide)
@[simp] theorem State.logRefused_fresh (s : State) (req : Requester) (off : Nat) (st : Status) (held : Word) (tried : Word) : (State.logRefused s req off st held tried).fresh = s.fresh :=
  State.logRefused_moves.frame .fresh (by decide)
@[simp] theorem State.logRefused_power (s : State) (req : Requester) (off : Nat) (st : Status) (held : Word) (tried : Word) : (State.logRefused s req off st held tried).power = s.power :=
  State.logRefused_moves.frame .power (by decide)
@[simp] theorem State.logRefused_pwrGood (s : State) (req : Requester) (off : Nat) (st : Status) (held : Word) (tried : Word) : (State.logRefused s req off st held tried).pwrGood = s.pwrGood :=
  State.logRefused_moves.frame .pwrGood (by decide)
@[simp] theorem State.logRefused_etc (s : State) (req : Requester) (off : Nat) (st : Status) (held : Word) (tried : Word) : (State.logRefused s req off st held tried).etc = s.etc :=
  State.logRefused_moves.frame .etc (by decide)
@[simp] theorem State.logRefused_timer (s : State) (req : Requester) (off : Nat) (st : Status) (held : Word) (tried : Word) : (State.logRefused s req off st held tried).timer = s.timer :=
  State.logRefused_moves.frame .timer (by decide)
@[simp] theorem State.logRefused_dev (s : State) (req : Requester) (off : Nat) (st : Status) (held : Word) (tried : Word) : (State.logRefused s req off st held tried).dev = s.dev :=
  State.logRefused_moves.frame .dev (by decide)
@[simp] theorem State.logRefused_fault (s : State) (req : Requester) (off : Nat) (st : Status) (held : Word) (tried : Word) : (State.logRefused s req off st held tried).fault = s.fault :=
  State.logRefused_moves.frame .fault (by decide)
@[simp] theorem State.logRefused_sec (s : State) (req : Requester) (off : Nat) (st : Status) (held : Word) (tried : Word) : (State.logRefused s req off st held tried).sec = s.sec :=
  State.logRefused_moves.frame .sec (by decide)
@[simp] theorem State.logRefused_crash (s : State) (req : Requester) (off : Nat) (st : Status) (held : Word) (tried : Word) : (State.logRefused s req off st held tried).crash = s.crash :=
  State.logRefused_moves.frame .crash (by decide)
@[simp] theorem State.logRefused_staged5 (s : State) (req : Requester) (off : Nat) (st : Status) (held : Word) (tried : Word) : (State.logRefused s req off st held tried).staged5 = s.staged5 :=
  State.logRefused_moves.frame .staged5 (by decide)
@[simp] theorem State.logRefused_staged3 (s : State) (req : Requester) (off : Nat) (st : Status) (held : Word) (tried : Word) : (State.logRefused s req off st held tried).staged3 = s.staged3 :=
  State.logRefused_moves.frame .staged3 (by decide)
@[simp] theorem State.logRefused_seeded (s : State) (req : Requester) (off : Nat) (st : Status) (held : Word) (tried : Word) : (State.logRefused s req off st held tried).seeded = s.seeded :=
  State.logRefused_moves.frame .seeded (by decide)
@[simp] theorem State.logRefused_holding (s : State) (req : Requester) (off : Nat) (st : Status) (held : Word) (tried : Word) : (State.logRefused s req off st held tried).holding = s.holding :=
  State.logRefused_moves.frame .holding (by decide)
@[simp] theorem State.logRefused_guards (s : State) (req : Requester) (off : Nat) (st : Status) (held : Word) (tried : Word) : (State.logRefused s req off st held tried).guards = s.guards :=
  State.logRefused_moves.frame .guards (by decide)
@[simp] theorem State.logRefused_mem (s : State) (req : Requester) (off : Nat) (st : Status) (held : Word) (tried : Word) : (State.logRefused s req off st held tried).mem = s.mem :=
  State.logRefused_moves.frame .mem (by decide)
@[simp] theorem State.logRefused_poison (s : State) (req : Requester) (off : Nat) (st : Status) (held : Word) (tried : Word) : (State.logRefused s req off st held tried).poison = s.poison :=
  State.logRefused_moves.frame .poison (by decide)
@[simp] theorem State.logRefused_sculls (s : State) (req : Requester) (off : Nat) (st : Status) (held : Word) (tried : Word) : (State.logRefused s req off st held tried).sculls = s.sculls :=
  State.logRefused_moves.frame .sculls (by decide)
@[simp] theorem State.logRefused_crews (s : State) (req : Requester) (off : Nat) (st : Status) (held : Word) (tried : Word) : (State.logRefused s req off st held tried).crews = s.crews :=
  State.logRefused_moves.frame .crews (by decide)
@[simp] theorem State.logRefused_ergs (s : State) (req : Requester) (off : Nat) (st : Status) (held : Word) (tried : Word) : (State.logRefused s req off st held tried).ergs = s.ergs :=
  State.logRefused_moves.frame .ergs (by decide)
@[simp] theorem State.logRefused_ctrs (s : State) (req : Requester) (off : Nat) (st : Status) (held : Word) (tried : Word) : (State.logRefused s req off st held tried).ctrs = s.ctrs :=
  State.logRefused_moves.frame .ctrs (by decide)
@[simp] theorem State.logRefused_tasks (s : State) (req : Requester) (off : Nat) (st : Status) (held : Word) (tried : Word) : (State.logRefused s req off st held tried).tasks = s.tasks :=
  State.logRefused_moves.frame .tasks (by decide)
@[simp] theorem State.logRefused_rings (s : State) (req : Requester) (off : Nat) (st : Status) (held : Word) (tried : Word) : (State.logRefused s req off st held tried).rings = s.rings :=
  State.logRefused_moves.frame .rings (by decide)
@[simp] theorem State.logRefused_lastRing (s : State) (req : Requester) (off : Nat) (st : Status) (held : Word) (tried : Word) : (State.logRefused s req off st held tried).lastRing = s.lastRing :=
  State.logRefused_moves.frame .lastRing (by decide)
@[simp] theorem State.logRefused_mbs (s : State) (req : Requester) (off : Nat) (st : Status) (held : Word) (tried : Word) : (State.logRefused s req off st held tried).mbs = s.mbs :=
  State.logRefused_moves.frame .mbs (by decide)
@[simp] theorem State.logRefused_stateMb (s : State) (req : Requester) (off : Nat) (st : Status) (held : Word) (tried : Word) : (State.logRefused s req off st held tried).stateMb = s.stateMb :=
  State.logRefused_moves.frame .stateMb (by decide)
@[simp] theorem State.logRefused_mbQueue (s : State) (req : Requester) (off : Nat) (st : Status) (held : Word) (tried : Word) : (State.logRefused s req off st held tried).mbQueue = s.mbQueue :=
  State.logRefused_moves.frame .mbQueue (by decide)
@[simp] theorem State.logRefused_dunes (s : State) (req : Requester) (off : Nat) (st : Status) (held : Word) (tried : Word) : (State.logRefused s req off st held tried).dunes = s.dunes :=
  State.logRefused_moves.frame .dunes (by decide)
@[simp] theorem State.logRefused_tier (s : State) (req : Requester) (off : Nat) (st : Status) (held : Word) (tried : Word) : (State.logRefused s req off st held tried).tier = s.tier :=
  State.logRefused_moves.frame .tier (by decide)
@[simp] theorem State.logRefused_kv (s : State) (req : Requester) (off : Nat) (st : Status) (held : Word) (tried : Word) : (State.logRefused s req off st held tried).kv = s.kv :=
  State.logRefused_moves.frame .kv (by decide)
@[simp] theorem State.logRefused_lowp (s : State) (req : Requester) (off : Nat) (st : Status) (held : Word) (tried : Word) : (State.logRefused s req off st held tried).lowp = s.lowp :=
  State.logRefused_moves.frame .lowp (by decide)
@[simp] theorem State.logRefused_wakes (s : State) (req : Requester) (off : Nat) (st : Status) (held : Word) (tried : Word) : (State.logRefused s req off st held tried).wakes = s.wakes :=
  State.logRefused_moves.frame .wakes (by decide)
@[simp] theorem State.logRefused_ports (s : State) (req : Requester) (off : Nat) (st : Status) (held : Word) (tried : Word) : (State.logRefused s req off st held tried).ports = s.ports :=
  State.logRefused_moves.frame .ports (by decide)
@[simp] theorem State.logRefused_rigger (s : State) (req : Requester) (off : Nat) (st : Status) (held : Word) (tried : Word) : (State.logRefused s req off st held tried).rigger = s.rigger :=
  State.logRefused_moves.frame .rigger (by decide)
@[simp] theorem State.logRefused_colls (s : State) (req : Requester) (off : Nat) (st : Status) (held : Word) (tried : Word) : (State.logRefused s req off st held tried).colls = s.colls :=
  State.logRefused_moves.frame .colls (by decide)
@[simp] theorem State.logRefused_peers (s : State) (req : Requester) (off : Nat) (st : Status) (held : Word) (tried : Word) : (State.logRefused s req off st held tried).peers = s.peers :=
  State.logRefused_moves.frame .peers (by decide)
@[simp] theorem State.logRefused_sched (s : State) (req : Requester) (off : Nat) (st : Status) (held : Word) (tried : Word) : (State.logRefused s req off st held tried).sched = s.sched :=
  State.logRefused_moves.frame .sched (by decide)
@[simp] theorem State.logRefused_islands (s : State) (req : Requester) (off : Nat) (st : Status) (held : Word) (tried : Word) : (State.logRefused s req off st held tried).islands = s.islands :=
  State.logRefused_moves.frame .islands (by decide)
@[simp] theorem State.logRefused_flashGone (s : State) (req : Requester) (off : Nat) (st : Status) (held : Word) (tried : Word) : (State.logRefused s req off st held tried).flashGone = s.flashGone :=
  State.logRefused_moves.frame .flashGone (by decide)
@[simp] theorem State.logRefused_pwr (s : State) (req : Requester) (off : Nat) (st : Status) (held : Word) (tried : Word) : (State.logRefused s req off st held tried).pwr = s.pwr :=
  State.logRefused_moves.frame .pwr (by decide)
@[simp] theorem State.logRefused_cairn (s : State) (req : Requester) (off : Nat) (st : Status) (held : Word) (tried : Word) : (State.logRefused s req off st held tried).cairn = s.cairn :=
  State.logRefused_moves.frame .cairn (by decide)
@[simp] theorem State.logRefused_scull (s : State) (req : Requester) (off : Nat) (st : Status) (held : Word) (tried : Word) (j : Nat) : (State.logRefused s req off st held tried).scull j = s.scull j := by
  simp only [State.scull, State.logRefused_sculls]
@[simp] theorem State.logRefused_crew (s : State) (req : Requester) (off : Nat) (st : Status) (held : Word) (tried : Word) (j : Nat) : (State.logRefused s req off st held tried).crew j = s.crew j := by
  simp only [State.crew, State.logRefused_crews]
@[simp] theorem State.logRefused_erg (s : State) (req : Requester) (off : Nat) (st : Status) (held : Word) (tried : Word) (j : Nat) : (State.logRefused s req off st held tried).erg j = s.erg j := by
  simp only [State.erg, State.logRefused_ergs]
@[simp] theorem State.logRefused_task (s : State) (req : Requester) (off : Nat) (st : Status) (held : Word) (tried : Word) (j : Nat) : (State.logRefused s req off st held tried).task j = s.task j := by
  simp only [State.task, State.logRefused_tasks]
@[simp] theorem State.logRefused_ring (s : State) (req : Requester) (off : Nat) (st : Status) (held : Word) (tried : Word) (j : Nat) : (State.logRefused s req off st held tried).ring j = s.ring j := by
  simp only [State.ring, State.logRefused_rings]
@[simp] theorem State.logRefused_mb (s : State) (req : Requester) (off : Nat) (st : Status) (held : Word) (tried : Word) (j : Nat) : (State.logRefused s req off st held tried).mb j = s.mb j := by
  simp only [State.mb, State.logRefused_mbs]
@[simp] theorem State.logRefused_dune (s : State) (req : Requester) (off : Nat) (st : Status) (held : Word) (tried : Word) (j : Nat) : (State.logRefused s req off st held tried).dune j = s.dune j := by
  simp only [State.dune, State.logRefused_dunes]
@[simp] theorem State.logRefused_wake (s : State) (req : Requester) (off : Nat) (st : Status) (held : Word) (tried : Word) (j : Nat) : (State.logRefused s req off st held tried).wake j = s.wake j := by
  simp only [State.wake, State.logRefused_wakes]
@[simp] theorem State.logRefused_port (s : State) (req : Requester) (off : Nat) (st : Status) (held : Word) (tried : Word) (j : Nat) : (State.logRefused s req off st held tried).port j = s.port j := by
  simp only [State.port, State.logRefused_ports]
@[simp] theorem State.logRefused_ctr (s : State) (req : Requester) (off : Nat) (st : Status) (held : Word) (tried : Word) (j : Nat) : (State.logRefused s req off st held tried).ctr j = s.ctr j := by
  simp only [State.ctr, State.logRefused_ctrs]
@[simp] theorem State.logRefused_tensor (s : State) (req : Requester) (off : Nat) (st : Status) (held : Word) (tried : Word) (j : Nat) : (State.logRefused s req off st held tried).tensor j = s.tensor j := by
  simp only [State.tensor, State.logRefused_tier]
@[simp] theorem State.logRefused_byte (s : State) (req : Requester) (off : Nat) (st : Status) (held : Word) (tried : Word) (j : Nat) : (State.logRefused s req off st held tried).byte j = s.byte j := by
  simp only [State.byte, State.logRefused_mem]
@[simp] theorem State.logRefused_guard (s : State) (req : Requester) (off : Nat) (st : Status) (held : Word) (tried : Word) (j : Nat) : (State.logRefused s req off st held tried).guard j = s.guard j := by
  simp only [State.guard, State.logRefused_guards]
theorem State.logRefused_reg (s : State) (req : Requester) (off : Nat) (st : Status) (held : Word) (tried : Word) (j : Nat) (h1 : j ≠ 0x264) (h2 : j ≠ 0x278) : (State.logRefused s req off st held tried).reg j = s.reg j :=
  State.logRefused_moves.frame .regs (by decide) j h1 h2
@[simp] theorem State.logRefused_nv_variant (s : State) (req : Requester) (off : Nat) (st : Status) (held : Word) (tried : Word) : (State.logRefused s req off st held tried).nv.variant = s.nv.variant :=
  (State.logRefused_moves.frame .ident (by decide)).1
@[simp] theorem State.logRefused_nv_serial (s : State) (req : Requester) (off : Nat) (st : Status) (held : Word) (tried : Word) : (State.logRefused s req off st held tried).nv.serial = s.nv.serial :=
  (State.logRefused_moves.frame .ident (by decide)).2

@[simp] theorem State.setDev_pending (s : State) (d : DevState) (cause : Nat) : (State.setDev s d cause).pending = s.pending :=
  State.setDev_moves.frame .queue (by decide)
@[simp] theorem State.setDev_fresh (s : State) (d : DevState) (cause : Nat) : (State.setDev s d cause).fresh = s.fresh :=
  State.setDev_moves.frame .fresh (by decide)
@[simp] theorem State.setDev_power (s : State) (d : DevState) (cause : Nat) : (State.setDev s d cause).power = s.power :=
  State.setDev_moves.frame .power (by decide)
@[simp] theorem State.setDev_pwrGood (s : State) (d : DevState) (cause : Nat) : (State.setDev s d cause).pwrGood = s.pwrGood :=
  State.setDev_moves.frame .pwrGood (by decide)
@[simp] theorem State.setDev_etc (s : State) (d : DevState) (cause : Nat) : (State.setDev s d cause).etc = s.etc :=
  State.setDev_moves.frame .etc (by decide)
@[simp] theorem State.setDev_timer (s : State) (d : DevState) (cause : Nat) : (State.setDev s d cause).timer = s.timer :=
  State.setDev_moves.frame .timer (by decide)
@[simp] theorem State.setDev_fault (s : State) (d : DevState) (cause : Nat) : (State.setDev s d cause).fault = s.fault :=
  State.setDev_moves.frame .fault (by decide)
@[simp] theorem State.setDev_sec (s : State) (d : DevState) (cause : Nat) : (State.setDev s d cause).sec = s.sec :=
  State.setDev_moves.frame .sec (by decide)
@[simp] theorem State.setDev_crash (s : State) (d : DevState) (cause : Nat) : (State.setDev s d cause).crash = s.crash :=
  State.setDev_moves.frame .crash (by decide)
@[simp] theorem State.setDev_staged5 (s : State) (d : DevState) (cause : Nat) : (State.setDev s d cause).staged5 = s.staged5 :=
  State.setDev_moves.frame .staged5 (by decide)
@[simp] theorem State.setDev_staged3 (s : State) (d : DevState) (cause : Nat) : (State.setDev s d cause).staged3 = s.staged3 :=
  State.setDev_moves.frame .staged3 (by decide)
@[simp] theorem State.setDev_seeded (s : State) (d : DevState) (cause : Nat) : (State.setDev s d cause).seeded = s.seeded :=
  State.setDev_moves.frame .seeded (by decide)
@[simp] theorem State.setDev_holding (s : State) (d : DevState) (cause : Nat) : (State.setDev s d cause).holding = s.holding :=
  State.setDev_moves.frame .holding (by decide)
@[simp] theorem State.setDev_guards (s : State) (d : DevState) (cause : Nat) : (State.setDev s d cause).guards = s.guards :=
  State.setDev_moves.frame .guards (by decide)
@[simp] theorem State.setDev_mem (s : State) (d : DevState) (cause : Nat) : (State.setDev s d cause).mem = s.mem :=
  State.setDev_moves.frame .mem (by decide)
@[simp] theorem State.setDev_poison (s : State) (d : DevState) (cause : Nat) : (State.setDev s d cause).poison = s.poison :=
  State.setDev_moves.frame .poison (by decide)
@[simp] theorem State.setDev_sculls (s : State) (d : DevState) (cause : Nat) : (State.setDev s d cause).sculls = s.sculls :=
  State.setDev_moves.frame .sculls (by decide)
@[simp] theorem State.setDev_crews (s : State) (d : DevState) (cause : Nat) : (State.setDev s d cause).crews = s.crews :=
  State.setDev_moves.frame .crews (by decide)
@[simp] theorem State.setDev_ergs (s : State) (d : DevState) (cause : Nat) : (State.setDev s d cause).ergs = s.ergs :=
  State.setDev_moves.frame .ergs (by decide)
@[simp] theorem State.setDev_ctrs (s : State) (d : DevState) (cause : Nat) : (State.setDev s d cause).ctrs = s.ctrs :=
  State.setDev_moves.frame .ctrs (by decide)
@[simp] theorem State.setDev_tasks (s : State) (d : DevState) (cause : Nat) : (State.setDev s d cause).tasks = s.tasks :=
  State.setDev_moves.frame .tasks (by decide)
@[simp] theorem State.setDev_rings (s : State) (d : DevState) (cause : Nat) : (State.setDev s d cause).rings = s.rings :=
  State.setDev_moves.frame .rings (by decide)
@[simp] theorem State.setDev_lastRing (s : State) (d : DevState) (cause : Nat) : (State.setDev s d cause).lastRing = s.lastRing :=
  State.setDev_moves.frame .lastRing (by decide)
@[simp] theorem State.setDev_mbs (s : State) (d : DevState) (cause : Nat) : (State.setDev s d cause).mbs = s.mbs :=
  State.setDev_moves.frame .mbs (by decide)
@[simp] theorem State.setDev_stateMb (s : State) (d : DevState) (cause : Nat) : (State.setDev s d cause).stateMb = s.stateMb :=
  State.setDev_moves.frame .stateMb (by decide)
@[simp] theorem State.setDev_mbQueue (s : State) (d : DevState) (cause : Nat) : (State.setDev s d cause).mbQueue = s.mbQueue :=
  State.setDev_moves.frame .mbQueue (by decide)
@[simp] theorem State.setDev_dunes (s : State) (d : DevState) (cause : Nat) : (State.setDev s d cause).dunes = s.dunes :=
  State.setDev_moves.frame .dunes (by decide)
@[simp] theorem State.setDev_tier (s : State) (d : DevState) (cause : Nat) : (State.setDev s d cause).tier = s.tier :=
  State.setDev_moves.frame .tier (by decide)
@[simp] theorem State.setDev_kv (s : State) (d : DevState) (cause : Nat) : (State.setDev s d cause).kv = s.kv :=
  State.setDev_moves.frame .kv (by decide)
@[simp] theorem State.setDev_lowp (s : State) (d : DevState) (cause : Nat) : (State.setDev s d cause).lowp = s.lowp :=
  State.setDev_moves.frame .lowp (by decide)
@[simp] theorem State.setDev_wakes (s : State) (d : DevState) (cause : Nat) : (State.setDev s d cause).wakes = s.wakes :=
  State.setDev_moves.frame .wakes (by decide)
@[simp] theorem State.setDev_ports (s : State) (d : DevState) (cause : Nat) : (State.setDev s d cause).ports = s.ports :=
  State.setDev_moves.frame .ports (by decide)
@[simp] theorem State.setDev_rigger (s : State) (d : DevState) (cause : Nat) : (State.setDev s d cause).rigger = s.rigger :=
  State.setDev_moves.frame .rigger (by decide)
@[simp] theorem State.setDev_colls (s : State) (d : DevState) (cause : Nat) : (State.setDev s d cause).colls = s.colls :=
  State.setDev_moves.frame .colls (by decide)
@[simp] theorem State.setDev_peers (s : State) (d : DevState) (cause : Nat) : (State.setDev s d cause).peers = s.peers :=
  State.setDev_moves.frame .peers (by decide)
@[simp] theorem State.setDev_sched (s : State) (d : DevState) (cause : Nat) : (State.setDev s d cause).sched = s.sched :=
  State.setDev_moves.frame .sched (by decide)
@[simp] theorem State.setDev_islands (s : State) (d : DevState) (cause : Nat) : (State.setDev s d cause).islands = s.islands :=
  State.setDev_moves.frame .islands (by decide)
@[simp] theorem State.setDev_flashGone (s : State) (d : DevState) (cause : Nat) : (State.setDev s d cause).flashGone = s.flashGone :=
  State.setDev_moves.frame .flashGone (by decide)
@[simp] theorem State.setDev_pwr (s : State) (d : DevState) (cause : Nat) : (State.setDev s d cause).pwr = s.pwr :=
  State.setDev_moves.frame .pwr (by decide)
@[simp] theorem State.setDev_cairn (s : State) (d : DevState) (cause : Nat) : (State.setDev s d cause).cairn = s.cairn :=
  State.setDev_moves.frame .cairn (by decide)
@[simp] theorem State.setDev_scull (s : State) (d : DevState) (cause : Nat) (j : Nat) : (State.setDev s d cause).scull j = s.scull j := by
  simp only [State.scull, State.setDev_sculls]
@[simp] theorem State.setDev_crew (s : State) (d : DevState) (cause : Nat) (j : Nat) : (State.setDev s d cause).crew j = s.crew j := by
  simp only [State.crew, State.setDev_crews]
@[simp] theorem State.setDev_erg (s : State) (d : DevState) (cause : Nat) (j : Nat) : (State.setDev s d cause).erg j = s.erg j := by
  simp only [State.erg, State.setDev_ergs]
@[simp] theorem State.setDev_task (s : State) (d : DevState) (cause : Nat) (j : Nat) : (State.setDev s d cause).task j = s.task j := by
  simp only [State.task, State.setDev_tasks]
@[simp] theorem State.setDev_ring (s : State) (d : DevState) (cause : Nat) (j : Nat) : (State.setDev s d cause).ring j = s.ring j := by
  simp only [State.ring, State.setDev_rings]
@[simp] theorem State.setDev_mb (s : State) (d : DevState) (cause : Nat) (j : Nat) : (State.setDev s d cause).mb j = s.mb j := by
  simp only [State.mb, State.setDev_mbs]
@[simp] theorem State.setDev_dune (s : State) (d : DevState) (cause : Nat) (j : Nat) : (State.setDev s d cause).dune j = s.dune j := by
  simp only [State.dune, State.setDev_dunes]
@[simp] theorem State.setDev_wake (s : State) (d : DevState) (cause : Nat) (j : Nat) : (State.setDev s d cause).wake j = s.wake j := by
  simp only [State.wake, State.setDev_wakes]
@[simp] theorem State.setDev_port (s : State) (d : DevState) (cause : Nat) (j : Nat) : (State.setDev s d cause).port j = s.port j := by
  simp only [State.port, State.setDev_ports]
@[simp] theorem State.setDev_ctr (s : State) (d : DevState) (cause : Nat) (j : Nat) : (State.setDev s d cause).ctr j = s.ctr j := by
  simp only [State.ctr, State.setDev_ctrs]
@[simp] theorem State.setDev_tensor (s : State) (d : DevState) (cause : Nat) (j : Nat) : (State.setDev s d cause).tensor j = s.tensor j := by
  simp only [State.tensor, State.setDev_tier]
@[simp] theorem State.setDev_byte (s : State) (d : DevState) (cause : Nat) (j : Nat) : (State.setDev s d cause).byte j = s.byte j := by
  simp only [State.byte, State.setDev_mem]
@[simp] theorem State.setDev_guard (s : State) (d : DevState) (cause : Nat) (j : Nat) : (State.setDev s d cause).guard j = s.guard j := by
  simp only [State.guard, State.setDev_guards]
theorem State.setDev_reg (s : State) (d : DevState) (cause : Nat) (j : Nat) (h1 : j ≠ 0x264) (h2 : j ≠ 0x278) : (State.setDev s d cause).reg j = s.reg j :=
  State.setDev_moves.frame .regs (by decide) j h1 h2
@[simp] theorem State.setDev_nv_variant (s : State) (d : DevState) (cause : Nat) : (State.setDev s d cause).nv.variant = s.nv.variant :=
  (State.setDev_moves.frame .ident (by decide)).1
@[simp] theorem State.setDev_nv_serial (s : State) (d : DevState) (cause : Nat) : (State.setDev s d cause).nv.serial = s.nv.serial :=
  (State.setDev_moves.frame .ident (by decide)).2

@[simp] theorem State.emitPort_pending (s : State) (p : Nat) (sev : Nat) (code : Nat) (st : Status) (pl : List Word) : (State.emitPort s p sev code st pl).pending = s.pending :=
  State.emitPort_moves.frame .queue (by decide)
@[simp] theorem State.emitPort_fresh (s : State) (p : Nat) (sev : Nat) (code : Nat) (st : Status) (pl : List Word) : (State.emitPort s p sev code st pl).fresh = s.fresh :=
  State.emitPort_moves.frame .fresh (by decide)
@[simp] theorem State.emitPort_power (s : State) (p : Nat) (sev : Nat) (code : Nat) (st : Status) (pl : List Word) : (State.emitPort s p sev code st pl).power = s.power :=
  State.emitPort_moves.frame .power (by decide)
@[simp] theorem State.emitPort_pwrGood (s : State) (p : Nat) (sev : Nat) (code : Nat) (st : Status) (pl : List Word) : (State.emitPort s p sev code st pl).pwrGood = s.pwrGood :=
  State.emitPort_moves.frame .pwrGood (by decide)
@[simp] theorem State.emitPort_etc (s : State) (p : Nat) (sev : Nat) (code : Nat) (st : Status) (pl : List Word) : (State.emitPort s p sev code st pl).etc = s.etc :=
  State.emitPort_moves.frame .etc (by decide)
@[simp] theorem State.emitPort_timer (s : State) (p : Nat) (sev : Nat) (code : Nat) (st : Status) (pl : List Word) : (State.emitPort s p sev code st pl).timer = s.timer :=
  State.emitPort_moves.frame .timer (by decide)
@[simp] theorem State.emitPort_dev (s : State) (p : Nat) (sev : Nat) (code : Nat) (st : Status) (pl : List Word) : (State.emitPort s p sev code st pl).dev = s.dev :=
  State.emitPort_moves.frame .dev (by decide)
@[simp] theorem State.emitPort_fault (s : State) (p : Nat) (sev : Nat) (code : Nat) (st : Status) (pl : List Word) : (State.emitPort s p sev code st pl).fault = s.fault :=
  State.emitPort_moves.frame .fault (by decide)
@[simp] theorem State.emitPort_sec (s : State) (p : Nat) (sev : Nat) (code : Nat) (st : Status) (pl : List Word) : (State.emitPort s p sev code st pl).sec = s.sec :=
  State.emitPort_moves.frame .sec (by decide)
@[simp] theorem State.emitPort_crash (s : State) (p : Nat) (sev : Nat) (code : Nat) (st : Status) (pl : List Word) : (State.emitPort s p sev code st pl).crash = s.crash :=
  State.emitPort_moves.frame .crash (by decide)
@[simp] theorem State.emitPort_staged5 (s : State) (p : Nat) (sev : Nat) (code : Nat) (st : Status) (pl : List Word) : (State.emitPort s p sev code st pl).staged5 = s.staged5 :=
  State.emitPort_moves.frame .staged5 (by decide)
@[simp] theorem State.emitPort_staged3 (s : State) (p : Nat) (sev : Nat) (code : Nat) (st : Status) (pl : List Word) : (State.emitPort s p sev code st pl).staged3 = s.staged3 :=
  State.emitPort_moves.frame .staged3 (by decide)
@[simp] theorem State.emitPort_seeded (s : State) (p : Nat) (sev : Nat) (code : Nat) (st : Status) (pl : List Word) : (State.emitPort s p sev code st pl).seeded = s.seeded :=
  State.emitPort_moves.frame .seeded (by decide)
@[simp] theorem State.emitPort_holding (s : State) (p : Nat) (sev : Nat) (code : Nat) (st : Status) (pl : List Word) : (State.emitPort s p sev code st pl).holding = s.holding :=
  State.emitPort_moves.frame .holding (by decide)
@[simp] theorem State.emitPort_guards (s : State) (p : Nat) (sev : Nat) (code : Nat) (st : Status) (pl : List Word) : (State.emitPort s p sev code st pl).guards = s.guards :=
  State.emitPort_moves.frame .guards (by decide)
@[simp] theorem State.emitPort_mem (s : State) (p : Nat) (sev : Nat) (code : Nat) (st : Status) (pl : List Word) : (State.emitPort s p sev code st pl).mem = s.mem :=
  State.emitPort_moves.frame .mem (by decide)
@[simp] theorem State.emitPort_poison (s : State) (p : Nat) (sev : Nat) (code : Nat) (st : Status) (pl : List Word) : (State.emitPort s p sev code st pl).poison = s.poison :=
  State.emitPort_moves.frame .poison (by decide)
@[simp] theorem State.emitPort_sculls (s : State) (p : Nat) (sev : Nat) (code : Nat) (st : Status) (pl : List Word) : (State.emitPort s p sev code st pl).sculls = s.sculls :=
  State.emitPort_moves.frame .sculls (by decide)
@[simp] theorem State.emitPort_crews (s : State) (p : Nat) (sev : Nat) (code : Nat) (st : Status) (pl : List Word) : (State.emitPort s p sev code st pl).crews = s.crews :=
  State.emitPort_moves.frame .crews (by decide)
@[simp] theorem State.emitPort_ergs (s : State) (p : Nat) (sev : Nat) (code : Nat) (st : Status) (pl : List Word) : (State.emitPort s p sev code st pl).ergs = s.ergs :=
  State.emitPort_moves.frame .ergs (by decide)
@[simp] theorem State.emitPort_ctrs (s : State) (p : Nat) (sev : Nat) (code : Nat) (st : Status) (pl : List Word) : (State.emitPort s p sev code st pl).ctrs = s.ctrs :=
  State.emitPort_moves.frame .ctrs (by decide)
@[simp] theorem State.emitPort_tasks (s : State) (p : Nat) (sev : Nat) (code : Nat) (st : Status) (pl : List Word) : (State.emitPort s p sev code st pl).tasks = s.tasks :=
  State.emitPort_moves.frame .tasks (by decide)
@[simp] theorem State.emitPort_rings (s : State) (p : Nat) (sev : Nat) (code : Nat) (st : Status) (pl : List Word) : (State.emitPort s p sev code st pl).rings = s.rings :=
  State.emitPort_moves.frame .rings (by decide)
@[simp] theorem State.emitPort_lastRing (s : State) (p : Nat) (sev : Nat) (code : Nat) (st : Status) (pl : List Word) : (State.emitPort s p sev code st pl).lastRing = s.lastRing :=
  State.emitPort_moves.frame .lastRing (by decide)
@[simp] theorem State.emitPort_mbs (s : State) (p : Nat) (sev : Nat) (code : Nat) (st : Status) (pl : List Word) : (State.emitPort s p sev code st pl).mbs = s.mbs :=
  State.emitPort_moves.frame .mbs (by decide)
@[simp] theorem State.emitPort_stateMb (s : State) (p : Nat) (sev : Nat) (code : Nat) (st : Status) (pl : List Word) : (State.emitPort s p sev code st pl).stateMb = s.stateMb :=
  State.emitPort_moves.frame .stateMb (by decide)
@[simp] theorem State.emitPort_mbQueue (s : State) (p : Nat) (sev : Nat) (code : Nat) (st : Status) (pl : List Word) : (State.emitPort s p sev code st pl).mbQueue = s.mbQueue :=
  State.emitPort_moves.frame .mbQueue (by decide)
@[simp] theorem State.emitPort_dunes (s : State) (p : Nat) (sev : Nat) (code : Nat) (st : Status) (pl : List Word) : (State.emitPort s p sev code st pl).dunes = s.dunes :=
  State.emitPort_moves.frame .dunes (by decide)
@[simp] theorem State.emitPort_tier (s : State) (p : Nat) (sev : Nat) (code : Nat) (st : Status) (pl : List Word) : (State.emitPort s p sev code st pl).tier = s.tier :=
  State.emitPort_moves.frame .tier (by decide)
@[simp] theorem State.emitPort_kv (s : State) (p : Nat) (sev : Nat) (code : Nat) (st : Status) (pl : List Word) : (State.emitPort s p sev code st pl).kv = s.kv :=
  State.emitPort_moves.frame .kv (by decide)
@[simp] theorem State.emitPort_lowp (s : State) (p : Nat) (sev : Nat) (code : Nat) (st : Status) (pl : List Word) : (State.emitPort s p sev code st pl).lowp = s.lowp :=
  State.emitPort_moves.frame .lowp (by decide)
@[simp] theorem State.emitPort_wakes (s : State) (p : Nat) (sev : Nat) (code : Nat) (st : Status) (pl : List Word) : (State.emitPort s p sev code st pl).wakes = s.wakes :=
  State.emitPort_moves.frame .wakes (by decide)
@[simp] theorem State.emitPort_ports (s : State) (p : Nat) (sev : Nat) (code : Nat) (st : Status) (pl : List Word) : (State.emitPort s p sev code st pl).ports = s.ports :=
  State.emitPort_moves.frame .ports (by decide)
@[simp] theorem State.emitPort_rigger (s : State) (p : Nat) (sev : Nat) (code : Nat) (st : Status) (pl : List Word) : (State.emitPort s p sev code st pl).rigger = s.rigger :=
  State.emitPort_moves.frame .rigger (by decide)
@[simp] theorem State.emitPort_colls (s : State) (p : Nat) (sev : Nat) (code : Nat) (st : Status) (pl : List Word) : (State.emitPort s p sev code st pl).colls = s.colls :=
  State.emitPort_moves.frame .colls (by decide)
@[simp] theorem State.emitPort_peers (s : State) (p : Nat) (sev : Nat) (code : Nat) (st : Status) (pl : List Word) : (State.emitPort s p sev code st pl).peers = s.peers :=
  State.emitPort_moves.frame .peers (by decide)
@[simp] theorem State.emitPort_sched (s : State) (p : Nat) (sev : Nat) (code : Nat) (st : Status) (pl : List Word) : (State.emitPort s p sev code st pl).sched = s.sched :=
  State.emitPort_moves.frame .sched (by decide)
@[simp] theorem State.emitPort_islands (s : State) (p : Nat) (sev : Nat) (code : Nat) (st : Status) (pl : List Word) : (State.emitPort s p sev code st pl).islands = s.islands :=
  State.emitPort_moves.frame .islands (by decide)
@[simp] theorem State.emitPort_flashGone (s : State) (p : Nat) (sev : Nat) (code : Nat) (st : Status) (pl : List Word) : (State.emitPort s p sev code st pl).flashGone = s.flashGone :=
  State.emitPort_moves.frame .flashGone (by decide)
@[simp] theorem State.emitPort_pwr (s : State) (p : Nat) (sev : Nat) (code : Nat) (st : Status) (pl : List Word) : (State.emitPort s p sev code st pl).pwr = s.pwr :=
  State.emitPort_moves.frame .pwr (by decide)
@[simp] theorem State.emitPort_cairn (s : State) (p : Nat) (sev : Nat) (code : Nat) (st : Status) (pl : List Word) : (State.emitPort s p sev code st pl).cairn = s.cairn :=
  State.emitPort_moves.frame .cairn (by decide)
@[simp] theorem State.emitPort_scull (s : State) (p : Nat) (sev : Nat) (code : Nat) (st : Status) (pl : List Word) (j : Nat) : (State.emitPort s p sev code st pl).scull j = s.scull j := by
  simp only [State.scull, State.emitPort_sculls]
@[simp] theorem State.emitPort_crew (s : State) (p : Nat) (sev : Nat) (code : Nat) (st : Status) (pl : List Word) (j : Nat) : (State.emitPort s p sev code st pl).crew j = s.crew j := by
  simp only [State.crew, State.emitPort_crews]
@[simp] theorem State.emitPort_erg (s : State) (p : Nat) (sev : Nat) (code : Nat) (st : Status) (pl : List Word) (j : Nat) : (State.emitPort s p sev code st pl).erg j = s.erg j := by
  simp only [State.erg, State.emitPort_ergs]
@[simp] theorem State.emitPort_task (s : State) (p : Nat) (sev : Nat) (code : Nat) (st : Status) (pl : List Word) (j : Nat) : (State.emitPort s p sev code st pl).task j = s.task j := by
  simp only [State.task, State.emitPort_tasks]
@[simp] theorem State.emitPort_ring (s : State) (p : Nat) (sev : Nat) (code : Nat) (st : Status) (pl : List Word) (j : Nat) : (State.emitPort s p sev code st pl).ring j = s.ring j := by
  simp only [State.ring, State.emitPort_rings]
@[simp] theorem State.emitPort_mb (s : State) (p : Nat) (sev : Nat) (code : Nat) (st : Status) (pl : List Word) (j : Nat) : (State.emitPort s p sev code st pl).mb j = s.mb j := by
  simp only [State.mb, State.emitPort_mbs]
@[simp] theorem State.emitPort_dune (s : State) (p : Nat) (sev : Nat) (code : Nat) (st : Status) (pl : List Word) (j : Nat) : (State.emitPort s p sev code st pl).dune j = s.dune j := by
  simp only [State.dune, State.emitPort_dunes]
@[simp] theorem State.emitPort_wake (s : State) (p : Nat) (sev : Nat) (code : Nat) (st : Status) (pl : List Word) (j : Nat) : (State.emitPort s p sev code st pl).wake j = s.wake j := by
  simp only [State.wake, State.emitPort_wakes]
@[simp] theorem State.emitPort_port (s : State) (p : Nat) (sev : Nat) (code : Nat) (st : Status) (pl : List Word) (j : Nat) : (State.emitPort s p sev code st pl).port j = s.port j := by
  simp only [State.port, State.emitPort_ports]
@[simp] theorem State.emitPort_ctr (s : State) (p : Nat) (sev : Nat) (code : Nat) (st : Status) (pl : List Word) (j : Nat) : (State.emitPort s p sev code st pl).ctr j = s.ctr j := by
  simp only [State.ctr, State.emitPort_ctrs]
@[simp] theorem State.emitPort_tensor (s : State) (p : Nat) (sev : Nat) (code : Nat) (st : Status) (pl : List Word) (j : Nat) : (State.emitPort s p sev code st pl).tensor j = s.tensor j := by
  simp only [State.tensor, State.emitPort_tier]
@[simp] theorem State.emitPort_byte (s : State) (p : Nat) (sev : Nat) (code : Nat) (st : Status) (pl : List Word) (j : Nat) : (State.emitPort s p sev code st pl).byte j = s.byte j := by
  simp only [State.byte, State.emitPort_mem]
@[simp] theorem State.emitPort_guard (s : State) (p : Nat) (sev : Nat) (code : Nat) (st : Status) (pl : List Word) (j : Nat) : (State.emitPort s p sev code st pl).guard j = s.guard j := by
  simp only [State.guard, State.emitPort_guards]
theorem State.emitPort_reg (s : State) (p : Nat) (sev : Nat) (code : Nat) (st : Status) (pl : List Word) (j : Nat) (h1 : j ≠ 0x264) (h2 : j ≠ 0x278) : (State.emitPort s p sev code st pl).reg j = s.reg j :=
  State.emitPort_moves.frame .regs (by decide) j h1 h2
@[simp] theorem State.emitPort_nv_variant (s : State) (p : Nat) (sev : Nat) (code : Nat) (st : Status) (pl : List Word) : (State.emitPort s p sev code st pl).nv.variant = s.nv.variant :=
  (State.emitPort_moves.frame .ident (by decide)).1
@[simp] theorem State.emitPort_nv_serial (s : State) (p : Nat) (sev : Nat) (code : Nat) (st : Status) (pl : List Word) : (State.emitPort s p sev code st pl).nv.serial = s.nv.serial :=
  (State.emitPort_moves.frame .ident (by decide)).2

@[simp] theorem State.emitChan_pending (s : State) (n : Nat) (lchan : Nat) (sev : Nat) (code : Nat) (st : Status) (pl : List Word) : (State.emitChan s n lchan sev code st pl).pending = s.pending :=
  State.emitChan_moves.frame .queue (by decide)
@[simp] theorem State.emitChan_fresh (s : State) (n : Nat) (lchan : Nat) (sev : Nat) (code : Nat) (st : Status) (pl : List Word) : (State.emitChan s n lchan sev code st pl).fresh = s.fresh :=
  State.emitChan_moves.frame .fresh (by decide)
@[simp] theorem State.emitChan_power (s : State) (n : Nat) (lchan : Nat) (sev : Nat) (code : Nat) (st : Status) (pl : List Word) : (State.emitChan s n lchan sev code st pl).power = s.power :=
  State.emitChan_moves.frame .power (by decide)
@[simp] theorem State.emitChan_pwrGood (s : State) (n : Nat) (lchan : Nat) (sev : Nat) (code : Nat) (st : Status) (pl : List Word) : (State.emitChan s n lchan sev code st pl).pwrGood = s.pwrGood :=
  State.emitChan_moves.frame .pwrGood (by decide)
@[simp] theorem State.emitChan_etc (s : State) (n : Nat) (lchan : Nat) (sev : Nat) (code : Nat) (st : Status) (pl : List Word) : (State.emitChan s n lchan sev code st pl).etc = s.etc :=
  State.emitChan_moves.frame .etc (by decide)
@[simp] theorem State.emitChan_timer (s : State) (n : Nat) (lchan : Nat) (sev : Nat) (code : Nat) (st : Status) (pl : List Word) : (State.emitChan s n lchan sev code st pl).timer = s.timer :=
  State.emitChan_moves.frame .timer (by decide)
@[simp] theorem State.emitChan_dev (s : State) (n : Nat) (lchan : Nat) (sev : Nat) (code : Nat) (st : Status) (pl : List Word) : (State.emitChan s n lchan sev code st pl).dev = s.dev :=
  State.emitChan_moves.frame .dev (by decide)
@[simp] theorem State.emitChan_fault (s : State) (n : Nat) (lchan : Nat) (sev : Nat) (code : Nat) (st : Status) (pl : List Word) : (State.emitChan s n lchan sev code st pl).fault = s.fault :=
  State.emitChan_moves.frame .fault (by decide)
@[simp] theorem State.emitChan_sec (s : State) (n : Nat) (lchan : Nat) (sev : Nat) (code : Nat) (st : Status) (pl : List Word) : (State.emitChan s n lchan sev code st pl).sec = s.sec :=
  State.emitChan_moves.frame .sec (by decide)
@[simp] theorem State.emitChan_crash (s : State) (n : Nat) (lchan : Nat) (sev : Nat) (code : Nat) (st : Status) (pl : List Word) : (State.emitChan s n lchan sev code st pl).crash = s.crash :=
  State.emitChan_moves.frame .crash (by decide)
@[simp] theorem State.emitChan_staged5 (s : State) (n : Nat) (lchan : Nat) (sev : Nat) (code : Nat) (st : Status) (pl : List Word) : (State.emitChan s n lchan sev code st pl).staged5 = s.staged5 :=
  State.emitChan_moves.frame .staged5 (by decide)
@[simp] theorem State.emitChan_staged3 (s : State) (n : Nat) (lchan : Nat) (sev : Nat) (code : Nat) (st : Status) (pl : List Word) : (State.emitChan s n lchan sev code st pl).staged3 = s.staged3 :=
  State.emitChan_moves.frame .staged3 (by decide)
@[simp] theorem State.emitChan_seeded (s : State) (n : Nat) (lchan : Nat) (sev : Nat) (code : Nat) (st : Status) (pl : List Word) : (State.emitChan s n lchan sev code st pl).seeded = s.seeded :=
  State.emitChan_moves.frame .seeded (by decide)
@[simp] theorem State.emitChan_holding (s : State) (n : Nat) (lchan : Nat) (sev : Nat) (code : Nat) (st : Status) (pl : List Word) : (State.emitChan s n lchan sev code st pl).holding = s.holding :=
  State.emitChan_moves.frame .holding (by decide)
@[simp] theorem State.emitChan_guards (s : State) (n : Nat) (lchan : Nat) (sev : Nat) (code : Nat) (st : Status) (pl : List Word) : (State.emitChan s n lchan sev code st pl).guards = s.guards :=
  State.emitChan_moves.frame .guards (by decide)
@[simp] theorem State.emitChan_mem (s : State) (n : Nat) (lchan : Nat) (sev : Nat) (code : Nat) (st : Status) (pl : List Word) : (State.emitChan s n lchan sev code st pl).mem = s.mem :=
  State.emitChan_moves.frame .mem (by decide)
@[simp] theorem State.emitChan_poison (s : State) (n : Nat) (lchan : Nat) (sev : Nat) (code : Nat) (st : Status) (pl : List Word) : (State.emitChan s n lchan sev code st pl).poison = s.poison :=
  State.emitChan_moves.frame .poison (by decide)
@[simp] theorem State.emitChan_sculls (s : State) (n : Nat) (lchan : Nat) (sev : Nat) (code : Nat) (st : Status) (pl : List Word) : (State.emitChan s n lchan sev code st pl).sculls = s.sculls :=
  State.emitChan_moves.frame .sculls (by decide)
@[simp] theorem State.emitChan_crews (s : State) (n : Nat) (lchan : Nat) (sev : Nat) (code : Nat) (st : Status) (pl : List Word) : (State.emitChan s n lchan sev code st pl).crews = s.crews :=
  State.emitChan_moves.frame .crews (by decide)
@[simp] theorem State.emitChan_ergs (s : State) (n : Nat) (lchan : Nat) (sev : Nat) (code : Nat) (st : Status) (pl : List Word) : (State.emitChan s n lchan sev code st pl).ergs = s.ergs :=
  State.emitChan_moves.frame .ergs (by decide)
@[simp] theorem State.emitChan_ctrs (s : State) (n : Nat) (lchan : Nat) (sev : Nat) (code : Nat) (st : Status) (pl : List Word) : (State.emitChan s n lchan sev code st pl).ctrs = s.ctrs :=
  State.emitChan_moves.frame .ctrs (by decide)
@[simp] theorem State.emitChan_tasks (s : State) (n : Nat) (lchan : Nat) (sev : Nat) (code : Nat) (st : Status) (pl : List Word) : (State.emitChan s n lchan sev code st pl).tasks = s.tasks :=
  State.emitChan_moves.frame .tasks (by decide)
@[simp] theorem State.emitChan_rings (s : State) (n : Nat) (lchan : Nat) (sev : Nat) (code : Nat) (st : Status) (pl : List Word) : (State.emitChan s n lchan sev code st pl).rings = s.rings :=
  State.emitChan_moves.frame .rings (by decide)
@[simp] theorem State.emitChan_lastRing (s : State) (n : Nat) (lchan : Nat) (sev : Nat) (code : Nat) (st : Status) (pl : List Word) : (State.emitChan s n lchan sev code st pl).lastRing = s.lastRing :=
  State.emitChan_moves.frame .lastRing (by decide)
@[simp] theorem State.emitChan_mbs (s : State) (n : Nat) (lchan : Nat) (sev : Nat) (code : Nat) (st : Status) (pl : List Word) : (State.emitChan s n lchan sev code st pl).mbs = s.mbs :=
  State.emitChan_moves.frame .mbs (by decide)
@[simp] theorem State.emitChan_stateMb (s : State) (n : Nat) (lchan : Nat) (sev : Nat) (code : Nat) (st : Status) (pl : List Word) : (State.emitChan s n lchan sev code st pl).stateMb = s.stateMb :=
  State.emitChan_moves.frame .stateMb (by decide)
@[simp] theorem State.emitChan_mbQueue (s : State) (n : Nat) (lchan : Nat) (sev : Nat) (code : Nat) (st : Status) (pl : List Word) : (State.emitChan s n lchan sev code st pl).mbQueue = s.mbQueue :=
  State.emitChan_moves.frame .mbQueue (by decide)
@[simp] theorem State.emitChan_dunes (s : State) (n : Nat) (lchan : Nat) (sev : Nat) (code : Nat) (st : Status) (pl : List Word) : (State.emitChan s n lchan sev code st pl).dunes = s.dunes :=
  State.emitChan_moves.frame .dunes (by decide)
@[simp] theorem State.emitChan_tier (s : State) (n : Nat) (lchan : Nat) (sev : Nat) (code : Nat) (st : Status) (pl : List Word) : (State.emitChan s n lchan sev code st pl).tier = s.tier :=
  State.emitChan_moves.frame .tier (by decide)
@[simp] theorem State.emitChan_kv (s : State) (n : Nat) (lchan : Nat) (sev : Nat) (code : Nat) (st : Status) (pl : List Word) : (State.emitChan s n lchan sev code st pl).kv = s.kv :=
  State.emitChan_moves.frame .kv (by decide)
@[simp] theorem State.emitChan_lowp (s : State) (n : Nat) (lchan : Nat) (sev : Nat) (code : Nat) (st : Status) (pl : List Word) : (State.emitChan s n lchan sev code st pl).lowp = s.lowp :=
  State.emitChan_moves.frame .lowp (by decide)
@[simp] theorem State.emitChan_wakes (s : State) (n : Nat) (lchan : Nat) (sev : Nat) (code : Nat) (st : Status) (pl : List Word) : (State.emitChan s n lchan sev code st pl).wakes = s.wakes :=
  State.emitChan_moves.frame .wakes (by decide)
@[simp] theorem State.emitChan_ports (s : State) (n : Nat) (lchan : Nat) (sev : Nat) (code : Nat) (st : Status) (pl : List Word) : (State.emitChan s n lchan sev code st pl).ports = s.ports :=
  State.emitChan_moves.frame .ports (by decide)
@[simp] theorem State.emitChan_rigger (s : State) (n : Nat) (lchan : Nat) (sev : Nat) (code : Nat) (st : Status) (pl : List Word) : (State.emitChan s n lchan sev code st pl).rigger = s.rigger :=
  State.emitChan_moves.frame .rigger (by decide)
@[simp] theorem State.emitChan_colls (s : State) (n : Nat) (lchan : Nat) (sev : Nat) (code : Nat) (st : Status) (pl : List Word) : (State.emitChan s n lchan sev code st pl).colls = s.colls :=
  State.emitChan_moves.frame .colls (by decide)
@[simp] theorem State.emitChan_peers (s : State) (n : Nat) (lchan : Nat) (sev : Nat) (code : Nat) (st : Status) (pl : List Word) : (State.emitChan s n lchan sev code st pl).peers = s.peers :=
  State.emitChan_moves.frame .peers (by decide)
@[simp] theorem State.emitChan_sched (s : State) (n : Nat) (lchan : Nat) (sev : Nat) (code : Nat) (st : Status) (pl : List Word) : (State.emitChan s n lchan sev code st pl).sched = s.sched :=
  State.emitChan_moves.frame .sched (by decide)
@[simp] theorem State.emitChan_islands (s : State) (n : Nat) (lchan : Nat) (sev : Nat) (code : Nat) (st : Status) (pl : List Word) : (State.emitChan s n lchan sev code st pl).islands = s.islands :=
  State.emitChan_moves.frame .islands (by decide)
@[simp] theorem State.emitChan_flashGone (s : State) (n : Nat) (lchan : Nat) (sev : Nat) (code : Nat) (st : Status) (pl : List Word) : (State.emitChan s n lchan sev code st pl).flashGone = s.flashGone :=
  State.emitChan_moves.frame .flashGone (by decide)
@[simp] theorem State.emitChan_pwr (s : State) (n : Nat) (lchan : Nat) (sev : Nat) (code : Nat) (st : Status) (pl : List Word) : (State.emitChan s n lchan sev code st pl).pwr = s.pwr :=
  State.emitChan_moves.frame .pwr (by decide)
@[simp] theorem State.emitChan_cairn (s : State) (n : Nat) (lchan : Nat) (sev : Nat) (code : Nat) (st : Status) (pl : List Word) : (State.emitChan s n lchan sev code st pl).cairn = s.cairn :=
  State.emitChan_moves.frame .cairn (by decide)
@[simp] theorem State.emitChan_scull (s : State) (n : Nat) (lchan : Nat) (sev : Nat) (code : Nat) (st : Status) (pl : List Word) (j : Nat) : (State.emitChan s n lchan sev code st pl).scull j = s.scull j := by
  simp only [State.scull, State.emitChan_sculls]
@[simp] theorem State.emitChan_crew (s : State) (n : Nat) (lchan : Nat) (sev : Nat) (code : Nat) (st : Status) (pl : List Word) (j : Nat) : (State.emitChan s n lchan sev code st pl).crew j = s.crew j := by
  simp only [State.crew, State.emitChan_crews]
@[simp] theorem State.emitChan_erg (s : State) (n : Nat) (lchan : Nat) (sev : Nat) (code : Nat) (st : Status) (pl : List Word) (j : Nat) : (State.emitChan s n lchan sev code st pl).erg j = s.erg j := by
  simp only [State.erg, State.emitChan_ergs]
@[simp] theorem State.emitChan_task (s : State) (n : Nat) (lchan : Nat) (sev : Nat) (code : Nat) (st : Status) (pl : List Word) (j : Nat) : (State.emitChan s n lchan sev code st pl).task j = s.task j := by
  simp only [State.task, State.emitChan_tasks]
@[simp] theorem State.emitChan_ring (s : State) (n : Nat) (lchan : Nat) (sev : Nat) (code : Nat) (st : Status) (pl : List Word) (j : Nat) : (State.emitChan s n lchan sev code st pl).ring j = s.ring j := by
  simp only [State.ring, State.emitChan_rings]
@[simp] theorem State.emitChan_mb (s : State) (n : Nat) (lchan : Nat) (sev : Nat) (code : Nat) (st : Status) (pl : List Word) (j : Nat) : (State.emitChan s n lchan sev code st pl).mb j = s.mb j := by
  simp only [State.mb, State.emitChan_mbs]
@[simp] theorem State.emitChan_dune (s : State) (n : Nat) (lchan : Nat) (sev : Nat) (code : Nat) (st : Status) (pl : List Word) (j : Nat) : (State.emitChan s n lchan sev code st pl).dune j = s.dune j := by
  simp only [State.dune, State.emitChan_dunes]
@[simp] theorem State.emitChan_wake (s : State) (n : Nat) (lchan : Nat) (sev : Nat) (code : Nat) (st : Status) (pl : List Word) (j : Nat) : (State.emitChan s n lchan sev code st pl).wake j = s.wake j := by
  simp only [State.wake, State.emitChan_wakes]
@[simp] theorem State.emitChan_port (s : State) (n : Nat) (lchan : Nat) (sev : Nat) (code : Nat) (st : Status) (pl : List Word) (j : Nat) : (State.emitChan s n lchan sev code st pl).port j = s.port j := by
  simp only [State.port, State.emitChan_ports]
@[simp] theorem State.emitChan_ctr (s : State) (n : Nat) (lchan : Nat) (sev : Nat) (code : Nat) (st : Status) (pl : List Word) (j : Nat) : (State.emitChan s n lchan sev code st pl).ctr j = s.ctr j := by
  simp only [State.ctr, State.emitChan_ctrs]
@[simp] theorem State.emitChan_tensor (s : State) (n : Nat) (lchan : Nat) (sev : Nat) (code : Nat) (st : Status) (pl : List Word) (j : Nat) : (State.emitChan s n lchan sev code st pl).tensor j = s.tensor j := by
  simp only [State.tensor, State.emitChan_tier]
@[simp] theorem State.emitChan_byte (s : State) (n : Nat) (lchan : Nat) (sev : Nat) (code : Nat) (st : Status) (pl : List Word) (j : Nat) : (State.emitChan s n lchan sev code st pl).byte j = s.byte j := by
  simp only [State.byte, State.emitChan_mem]
@[simp] theorem State.emitChan_guard (s : State) (n : Nat) (lchan : Nat) (sev : Nat) (code : Nat) (st : Status) (pl : List Word) (j : Nat) : (State.emitChan s n lchan sev code st pl).guard j = s.guard j := by
  simp only [State.guard, State.emitChan_guards]
theorem State.emitChan_reg (s : State) (n : Nat) (lchan : Nat) (sev : Nat) (code : Nat) (st : Status) (pl : List Word) (j : Nat) (h1 : j ≠ 0x264) (h2 : j ≠ 0x278) : (State.emitChan s n lchan sev code st pl).reg j = s.reg j :=
  State.emitChan_moves.frame .regs (by decide) j h1 h2
@[simp] theorem State.emitChan_nv_variant (s : State) (n : Nat) (lchan : Nat) (sev : Nat) (code : Nat) (st : Status) (pl : List Word) : (State.emitChan s n lchan sev code st pl).nv.variant = s.nv.variant :=
  (State.emitChan_moves.frame .ident (by decide)).1
@[simp] theorem State.emitChan_nv_serial (s : State) (n : Nat) (lchan : Nat) (sev : Nat) (code : Nat) (st : Status) (pl : List Word) : (State.emitChan s n lchan sev code st pl).nv.serial = s.nv.serial :=
  (State.emitChan_moves.frame .ident (by decide)).2

@[simp] theorem State.secFail_pending (s : State) (st : Status) (sub : Nat) : (State.secFail s st sub).pending = s.pending :=
  State.secFail_moves.frame .queue (by decide)
@[simp] theorem State.secFail_fresh (s : State) (st : Status) (sub : Nat) : (State.secFail s st sub).fresh = s.fresh :=
  State.secFail_moves.frame .fresh (by decide)
@[simp] theorem State.secFail_power (s : State) (st : Status) (sub : Nat) : (State.secFail s st sub).power = s.power :=
  State.secFail_moves.frame .power (by decide)
@[simp] theorem State.secFail_pwrGood (s : State) (st : Status) (sub : Nat) : (State.secFail s st sub).pwrGood = s.pwrGood :=
  State.secFail_moves.frame .pwrGood (by decide)
@[simp] theorem State.secFail_etc (s : State) (st : Status) (sub : Nat) : (State.secFail s st sub).etc = s.etc :=
  State.secFail_moves.frame .etc (by decide)
@[simp] theorem State.secFail_timer (s : State) (st : Status) (sub : Nat) : (State.secFail s st sub).timer = s.timer :=
  State.secFail_moves.frame .timer (by decide)
@[simp] theorem State.secFail_dev (s : State) (st : Status) (sub : Nat) : (State.secFail s st sub).dev = s.dev :=
  State.secFail_moves.frame .dev (by decide)
@[simp] theorem State.secFail_fault (s : State) (st : Status) (sub : Nat) : (State.secFail s st sub).fault = s.fault :=
  State.secFail_moves.frame .fault (by decide)
@[simp] theorem State.secFail_sec (s : State) (st : Status) (sub : Nat) : (State.secFail s st sub).sec = s.sec :=
  State.secFail_moves.frame .sec (by decide)
@[simp] theorem State.secFail_crash (s : State) (st : Status) (sub : Nat) : (State.secFail s st sub).crash = s.crash :=
  State.secFail_moves.frame .crash (by decide)
@[simp] theorem State.secFail_staged5 (s : State) (st : Status) (sub : Nat) : (State.secFail s st sub).staged5 = s.staged5 :=
  State.secFail_moves.frame .staged5 (by decide)
@[simp] theorem State.secFail_staged3 (s : State) (st : Status) (sub : Nat) : (State.secFail s st sub).staged3 = s.staged3 :=
  State.secFail_moves.frame .staged3 (by decide)
@[simp] theorem State.secFail_seeded (s : State) (st : Status) (sub : Nat) : (State.secFail s st sub).seeded = s.seeded :=
  State.secFail_moves.frame .seeded (by decide)
@[simp] theorem State.secFail_holding (s : State) (st : Status) (sub : Nat) : (State.secFail s st sub).holding = s.holding :=
  State.secFail_moves.frame .holding (by decide)
@[simp] theorem State.secFail_guards (s : State) (st : Status) (sub : Nat) : (State.secFail s st sub).guards = s.guards :=
  State.secFail_moves.frame .guards (by decide)
@[simp] theorem State.secFail_mem (s : State) (st : Status) (sub : Nat) : (State.secFail s st sub).mem = s.mem :=
  State.secFail_moves.frame .mem (by decide)
@[simp] theorem State.secFail_poison (s : State) (st : Status) (sub : Nat) : (State.secFail s st sub).poison = s.poison :=
  State.secFail_moves.frame .poison (by decide)
@[simp] theorem State.secFail_sculls (s : State) (st : Status) (sub : Nat) : (State.secFail s st sub).sculls = s.sculls :=
  State.secFail_moves.frame .sculls (by decide)
@[simp] theorem State.secFail_crews (s : State) (st : Status) (sub : Nat) : (State.secFail s st sub).crews = s.crews :=
  State.secFail_moves.frame .crews (by decide)
@[simp] theorem State.secFail_ergs (s : State) (st : Status) (sub : Nat) : (State.secFail s st sub).ergs = s.ergs :=
  State.secFail_moves.frame .ergs (by decide)
@[simp] theorem State.secFail_ctrs (s : State) (st : Status) (sub : Nat) : (State.secFail s st sub).ctrs = s.ctrs :=
  State.secFail_moves.frame .ctrs (by decide)
@[simp] theorem State.secFail_tasks (s : State) (st : Status) (sub : Nat) : (State.secFail s st sub).tasks = s.tasks :=
  State.secFail_moves.frame .tasks (by decide)
@[simp] theorem State.secFail_rings (s : State) (st : Status) (sub : Nat) : (State.secFail s st sub).rings = s.rings :=
  State.secFail_moves.frame .rings (by decide)
@[simp] theorem State.secFail_lastRing (s : State) (st : Status) (sub : Nat) : (State.secFail s st sub).lastRing = s.lastRing :=
  State.secFail_moves.frame .lastRing (by decide)
@[simp] theorem State.secFail_mbs (s : State) (st : Status) (sub : Nat) : (State.secFail s st sub).mbs = s.mbs :=
  State.secFail_moves.frame .mbs (by decide)
@[simp] theorem State.secFail_stateMb (s : State) (st : Status) (sub : Nat) : (State.secFail s st sub).stateMb = s.stateMb :=
  State.secFail_moves.frame .stateMb (by decide)
@[simp] theorem State.secFail_mbQueue (s : State) (st : Status) (sub : Nat) : (State.secFail s st sub).mbQueue = s.mbQueue :=
  State.secFail_moves.frame .mbQueue (by decide)
@[simp] theorem State.secFail_dunes (s : State) (st : Status) (sub : Nat) : (State.secFail s st sub).dunes = s.dunes :=
  State.secFail_moves.frame .dunes (by decide)
@[simp] theorem State.secFail_tier (s : State) (st : Status) (sub : Nat) : (State.secFail s st sub).tier = s.tier :=
  State.secFail_moves.frame .tier (by decide)
@[simp] theorem State.secFail_kv (s : State) (st : Status) (sub : Nat) : (State.secFail s st sub).kv = s.kv :=
  State.secFail_moves.frame .kv (by decide)
@[simp] theorem State.secFail_lowp (s : State) (st : Status) (sub : Nat) : (State.secFail s st sub).lowp = s.lowp :=
  State.secFail_moves.frame .lowp (by decide)
@[simp] theorem State.secFail_wakes (s : State) (st : Status) (sub : Nat) : (State.secFail s st sub).wakes = s.wakes :=
  State.secFail_moves.frame .wakes (by decide)
@[simp] theorem State.secFail_ports (s : State) (st : Status) (sub : Nat) : (State.secFail s st sub).ports = s.ports :=
  State.secFail_moves.frame .ports (by decide)
@[simp] theorem State.secFail_rigger (s : State) (st : Status) (sub : Nat) : (State.secFail s st sub).rigger = s.rigger :=
  State.secFail_moves.frame .rigger (by decide)
@[simp] theorem State.secFail_colls (s : State) (st : Status) (sub : Nat) : (State.secFail s st sub).colls = s.colls :=
  State.secFail_moves.frame .colls (by decide)
@[simp] theorem State.secFail_peers (s : State) (st : Status) (sub : Nat) : (State.secFail s st sub).peers = s.peers :=
  State.secFail_moves.frame .peers (by decide)
@[simp] theorem State.secFail_sched (s : State) (st : Status) (sub : Nat) : (State.secFail s st sub).sched = s.sched :=
  State.secFail_moves.frame .sched (by decide)
@[simp] theorem State.secFail_islands (s : State) (st : Status) (sub : Nat) : (State.secFail s st sub).islands = s.islands :=
  State.secFail_moves.frame .islands (by decide)
@[simp] theorem State.secFail_flashGone (s : State) (st : Status) (sub : Nat) : (State.secFail s st sub).flashGone = s.flashGone :=
  State.secFail_moves.frame .flashGone (by decide)
@[simp] theorem State.secFail_pwr (s : State) (st : Status) (sub : Nat) : (State.secFail s st sub).pwr = s.pwr :=
  State.secFail_moves.frame .pwr (by decide)
@[simp] theorem State.secFail_cairn (s : State) (st : Status) (sub : Nat) : (State.secFail s st sub).cairn = s.cairn :=
  State.secFail_moves.frame .cairn (by decide)
@[simp] theorem State.secFail_scull (s : State) (st : Status) (sub : Nat) (j : Nat) : (State.secFail s st sub).scull j = s.scull j := by
  simp only [State.scull, State.secFail_sculls]
@[simp] theorem State.secFail_crew (s : State) (st : Status) (sub : Nat) (j : Nat) : (State.secFail s st sub).crew j = s.crew j := by
  simp only [State.crew, State.secFail_crews]
@[simp] theorem State.secFail_erg (s : State) (st : Status) (sub : Nat) (j : Nat) : (State.secFail s st sub).erg j = s.erg j := by
  simp only [State.erg, State.secFail_ergs]
@[simp] theorem State.secFail_task (s : State) (st : Status) (sub : Nat) (j : Nat) : (State.secFail s st sub).task j = s.task j := by
  simp only [State.task, State.secFail_tasks]
@[simp] theorem State.secFail_ring (s : State) (st : Status) (sub : Nat) (j : Nat) : (State.secFail s st sub).ring j = s.ring j := by
  simp only [State.ring, State.secFail_rings]
@[simp] theorem State.secFail_mb (s : State) (st : Status) (sub : Nat) (j : Nat) : (State.secFail s st sub).mb j = s.mb j := by
  simp only [State.mb, State.secFail_mbs]
@[simp] theorem State.secFail_dune (s : State) (st : Status) (sub : Nat) (j : Nat) : (State.secFail s st sub).dune j = s.dune j := by
  simp only [State.dune, State.secFail_dunes]
@[simp] theorem State.secFail_wake (s : State) (st : Status) (sub : Nat) (j : Nat) : (State.secFail s st sub).wake j = s.wake j := by
  simp only [State.wake, State.secFail_wakes]
@[simp] theorem State.secFail_port (s : State) (st : Status) (sub : Nat) (j : Nat) : (State.secFail s st sub).port j = s.port j := by
  simp only [State.port, State.secFail_ports]
@[simp] theorem State.secFail_ctr (s : State) (st : Status) (sub : Nat) (j : Nat) : (State.secFail s st sub).ctr j = s.ctr j := by
  simp only [State.ctr, State.secFail_ctrs]
@[simp] theorem State.secFail_tensor (s : State) (st : Status) (sub : Nat) (j : Nat) : (State.secFail s st sub).tensor j = s.tensor j := by
  simp only [State.tensor, State.secFail_tier]
@[simp] theorem State.secFail_byte (s : State) (st : Status) (sub : Nat) (j : Nat) : (State.secFail s st sub).byte j = s.byte j := by
  simp only [State.byte, State.secFail_mem]
@[simp] theorem State.secFail_guard (s : State) (st : Status) (sub : Nat) (j : Nat) : (State.secFail s st sub).guard j = s.guard j := by
  simp only [State.guard, State.secFail_guards]
@[simp] theorem State.secFail_nv_variant (s : State) (st : Status) (sub : Nat) : (State.secFail s st sub).nv.variant = s.nv.variant :=
  (State.secFail_moves.frame .ident (by decide)).1
@[simp] theorem State.secFail_nv_serial (s : State) (st : Status) (sub : Nat) : (State.secFail s st sub).nv.serial = s.nv.serial :=
  (State.secFail_moves.frame .ident (by decide)).2

@[simp] theorem State.burnFuse_pending (s : State) (purpose : Nat) (v : Nat) : (State.burnFuse s purpose v).pending = s.pending :=
  State.burnFuse_moves.frame .queue (by decide)
@[simp] theorem State.burnFuse_power (s : State) (purpose : Nat) (v : Nat) : (State.burnFuse s purpose v).power = s.power :=
  State.burnFuse_moves.frame .power (by decide)
@[simp] theorem State.burnFuse_pwrGood (s : State) (purpose : Nat) (v : Nat) : (State.burnFuse s purpose v).pwrGood = s.pwrGood :=
  State.burnFuse_moves.frame .pwrGood (by decide)
@[simp] theorem State.burnFuse_etc (s : State) (purpose : Nat) (v : Nat) : (State.burnFuse s purpose v).etc = s.etc :=
  State.burnFuse_moves.frame .etc (by decide)
@[simp] theorem State.burnFuse_timer (s : State) (purpose : Nat) (v : Nat) : (State.burnFuse s purpose v).timer = s.timer :=
  State.burnFuse_moves.frame .timer (by decide)
@[simp] theorem State.burnFuse_dev (s : State) (purpose : Nat) (v : Nat) : (State.burnFuse s purpose v).dev = s.dev :=
  State.burnFuse_moves.frame .dev (by decide)
@[simp] theorem State.burnFuse_fault (s : State) (purpose : Nat) (v : Nat) : (State.burnFuse s purpose v).fault = s.fault :=
  State.burnFuse_moves.frame .fault (by decide)
@[simp] theorem State.burnFuse_sec (s : State) (purpose : Nat) (v : Nat) : (State.burnFuse s purpose v).sec = s.sec :=
  State.burnFuse_moves.frame .sec (by decide)
@[simp] theorem State.burnFuse_crash (s : State) (purpose : Nat) (v : Nat) : (State.burnFuse s purpose v).crash = s.crash :=
  State.burnFuse_moves.frame .crash (by decide)
@[simp] theorem State.burnFuse_staged5 (s : State) (purpose : Nat) (v : Nat) : (State.burnFuse s purpose v).staged5 = s.staged5 :=
  State.burnFuse_moves.frame .staged5 (by decide)
@[simp] theorem State.burnFuse_staged3 (s : State) (purpose : Nat) (v : Nat) : (State.burnFuse s purpose v).staged3 = s.staged3 :=
  State.burnFuse_moves.frame .staged3 (by decide)
@[simp] theorem State.burnFuse_seeded (s : State) (purpose : Nat) (v : Nat) : (State.burnFuse s purpose v).seeded = s.seeded :=
  State.burnFuse_moves.frame .seeded (by decide)
@[simp] theorem State.burnFuse_holding (s : State) (purpose : Nat) (v : Nat) : (State.burnFuse s purpose v).holding = s.holding :=
  State.burnFuse_moves.frame .holding (by decide)
@[simp] theorem State.burnFuse_guards (s : State) (purpose : Nat) (v : Nat) : (State.burnFuse s purpose v).guards = s.guards :=
  State.burnFuse_moves.frame .guards (by decide)
@[simp] theorem State.burnFuse_mem (s : State) (purpose : Nat) (v : Nat) : (State.burnFuse s purpose v).mem = s.mem :=
  State.burnFuse_moves.frame .mem (by decide)
@[simp] theorem State.burnFuse_poison (s : State) (purpose : Nat) (v : Nat) : (State.burnFuse s purpose v).poison = s.poison :=
  State.burnFuse_moves.frame .poison (by decide)
@[simp] theorem State.burnFuse_sculls (s : State) (purpose : Nat) (v : Nat) : (State.burnFuse s purpose v).sculls = s.sculls :=
  State.burnFuse_moves.frame .sculls (by decide)
@[simp] theorem State.burnFuse_crews (s : State) (purpose : Nat) (v : Nat) : (State.burnFuse s purpose v).crews = s.crews :=
  State.burnFuse_moves.frame .crews (by decide)
@[simp] theorem State.burnFuse_ergs (s : State) (purpose : Nat) (v : Nat) : (State.burnFuse s purpose v).ergs = s.ergs :=
  State.burnFuse_moves.frame .ergs (by decide)
@[simp] theorem State.burnFuse_ctrs (s : State) (purpose : Nat) (v : Nat) : (State.burnFuse s purpose v).ctrs = s.ctrs :=
  State.burnFuse_moves.frame .ctrs (by decide)
@[simp] theorem State.burnFuse_tasks (s : State) (purpose : Nat) (v : Nat) : (State.burnFuse s purpose v).tasks = s.tasks :=
  State.burnFuse_moves.frame .tasks (by decide)
@[simp] theorem State.burnFuse_rings (s : State) (purpose : Nat) (v : Nat) : (State.burnFuse s purpose v).rings = s.rings :=
  State.burnFuse_moves.frame .rings (by decide)
@[simp] theorem State.burnFuse_lastRing (s : State) (purpose : Nat) (v : Nat) : (State.burnFuse s purpose v).lastRing = s.lastRing :=
  State.burnFuse_moves.frame .lastRing (by decide)
@[simp] theorem State.burnFuse_mbs (s : State) (purpose : Nat) (v : Nat) : (State.burnFuse s purpose v).mbs = s.mbs :=
  State.burnFuse_moves.frame .mbs (by decide)
@[simp] theorem State.burnFuse_stateMb (s : State) (purpose : Nat) (v : Nat) : (State.burnFuse s purpose v).stateMb = s.stateMb :=
  State.burnFuse_moves.frame .stateMb (by decide)
@[simp] theorem State.burnFuse_mbQueue (s : State) (purpose : Nat) (v : Nat) : (State.burnFuse s purpose v).mbQueue = s.mbQueue :=
  State.burnFuse_moves.frame .mbQueue (by decide)
@[simp] theorem State.burnFuse_dunes (s : State) (purpose : Nat) (v : Nat) : (State.burnFuse s purpose v).dunes = s.dunes :=
  State.burnFuse_moves.frame .dunes (by decide)
@[simp] theorem State.burnFuse_tier (s : State) (purpose : Nat) (v : Nat) : (State.burnFuse s purpose v).tier = s.tier :=
  State.burnFuse_moves.frame .tier (by decide)
@[simp] theorem State.burnFuse_kv (s : State) (purpose : Nat) (v : Nat) : (State.burnFuse s purpose v).kv = s.kv :=
  State.burnFuse_moves.frame .kv (by decide)
@[simp] theorem State.burnFuse_lowp (s : State) (purpose : Nat) (v : Nat) : (State.burnFuse s purpose v).lowp = s.lowp :=
  State.burnFuse_moves.frame .lowp (by decide)
@[simp] theorem State.burnFuse_wakes (s : State) (purpose : Nat) (v : Nat) : (State.burnFuse s purpose v).wakes = s.wakes :=
  State.burnFuse_moves.frame .wakes (by decide)
@[simp] theorem State.burnFuse_ports (s : State) (purpose : Nat) (v : Nat) : (State.burnFuse s purpose v).ports = s.ports :=
  State.burnFuse_moves.frame .ports (by decide)
@[simp] theorem State.burnFuse_rigger (s : State) (purpose : Nat) (v : Nat) : (State.burnFuse s purpose v).rigger = s.rigger :=
  State.burnFuse_moves.frame .rigger (by decide)
@[simp] theorem State.burnFuse_colls (s : State) (purpose : Nat) (v : Nat) : (State.burnFuse s purpose v).colls = s.colls :=
  State.burnFuse_moves.frame .colls (by decide)
@[simp] theorem State.burnFuse_peers (s : State) (purpose : Nat) (v : Nat) : (State.burnFuse s purpose v).peers = s.peers :=
  State.burnFuse_moves.frame .peers (by decide)
@[simp] theorem State.burnFuse_sched (s : State) (purpose : Nat) (v : Nat) : (State.burnFuse s purpose v).sched = s.sched :=
  State.burnFuse_moves.frame .sched (by decide)
@[simp] theorem State.burnFuse_islands (s : State) (purpose : Nat) (v : Nat) : (State.burnFuse s purpose v).islands = s.islands :=
  State.burnFuse_moves.frame .islands (by decide)
@[simp] theorem State.burnFuse_flashGone (s : State) (purpose : Nat) (v : Nat) : (State.burnFuse s purpose v).flashGone = s.flashGone :=
  State.burnFuse_moves.frame .flashGone (by decide)
@[simp] theorem State.burnFuse_pwr (s : State) (purpose : Nat) (v : Nat) : (State.burnFuse s purpose v).pwr = s.pwr :=
  State.burnFuse_moves.frame .pwr (by decide)
@[simp] theorem State.burnFuse_cairn (s : State) (purpose : Nat) (v : Nat) : (State.burnFuse s purpose v).cairn = s.cairn :=
  State.burnFuse_moves.frame .cairn (by decide)
@[simp] theorem State.burnFuse_scull (s : State) (purpose : Nat) (v : Nat) (j : Nat) : (State.burnFuse s purpose v).scull j = s.scull j := by
  simp only [State.scull, State.burnFuse_sculls]
@[simp] theorem State.burnFuse_crew (s : State) (purpose : Nat) (v : Nat) (j : Nat) : (State.burnFuse s purpose v).crew j = s.crew j := by
  simp only [State.crew, State.burnFuse_crews]
@[simp] theorem State.burnFuse_erg (s : State) (purpose : Nat) (v : Nat) (j : Nat) : (State.burnFuse s purpose v).erg j = s.erg j := by
  simp only [State.erg, State.burnFuse_ergs]
@[simp] theorem State.burnFuse_task (s : State) (purpose : Nat) (v : Nat) (j : Nat) : (State.burnFuse s purpose v).task j = s.task j := by
  simp only [State.task, State.burnFuse_tasks]
@[simp] theorem State.burnFuse_ring (s : State) (purpose : Nat) (v : Nat) (j : Nat) : (State.burnFuse s purpose v).ring j = s.ring j := by
  simp only [State.ring, State.burnFuse_rings]
@[simp] theorem State.burnFuse_mb (s : State) (purpose : Nat) (v : Nat) (j : Nat) : (State.burnFuse s purpose v).mb j = s.mb j := by
  simp only [State.mb, State.burnFuse_mbs]
@[simp] theorem State.burnFuse_dune (s : State) (purpose : Nat) (v : Nat) (j : Nat) : (State.burnFuse s purpose v).dune j = s.dune j := by
  simp only [State.dune, State.burnFuse_dunes]
@[simp] theorem State.burnFuse_wake (s : State) (purpose : Nat) (v : Nat) (j : Nat) : (State.burnFuse s purpose v).wake j = s.wake j := by
  simp only [State.wake, State.burnFuse_wakes]
@[simp] theorem State.burnFuse_port (s : State) (purpose : Nat) (v : Nat) (j : Nat) : (State.burnFuse s purpose v).port j = s.port j := by
  simp only [State.port, State.burnFuse_ports]
@[simp] theorem State.burnFuse_ctr (s : State) (purpose : Nat) (v : Nat) (j : Nat) : (State.burnFuse s purpose v).ctr j = s.ctr j := by
  simp only [State.ctr, State.burnFuse_ctrs]
@[simp] theorem State.burnFuse_tensor (s : State) (purpose : Nat) (v : Nat) (j : Nat) : (State.burnFuse s purpose v).tensor j = s.tensor j := by
  simp only [State.tensor, State.burnFuse_tier]
@[simp] theorem State.burnFuse_byte (s : State) (purpose : Nat) (v : Nat) (j : Nat) : (State.burnFuse s purpose v).byte j = s.byte j := by
  simp only [State.byte, State.burnFuse_mem]
@[simp] theorem State.burnFuse_guard (s : State) (purpose : Nat) (v : Nat) (j : Nat) : (State.burnFuse s purpose v).guard j = s.guard j := by
  simp only [State.guard, State.burnFuse_guards]
@[simp] theorem State.burnFuse_nv_variant (s : State) (purpose : Nat) (v : Nat) : (State.burnFuse s purpose v).nv.variant = s.nv.variant :=
  (State.burnFuse_moves.frame .ident (by decide)).1
@[simp] theorem State.burnFuse_nv_serial (s : State) (purpose : Nat) (v : Nat) : (State.burnFuse s purpose v).nv.serial = s.nv.serial :=
  (State.burnFuse_moves.frame .ident (by decide)).2

@[simp] theorem State.bump_pending (s : State) (off : Nat) (lo : Nat) (n : Nat) : (State.bump s off lo n).pending = s.pending :=
  State.bump_moves.frame .queue (by decide)
@[simp] theorem State.bump_fresh (s : State) (off : Nat) (lo : Nat) (n : Nat) : (State.bump s off lo n).fresh = s.fresh :=
  State.bump_moves.frame .fresh (by decide)
@[simp] theorem State.bump_tx (s : State) (off : Nat) (lo : Nat) (n : Nat) : (State.bump s off lo n).tx = s.tx :=
  State.bump_moves.frame .sent (by decide)
@[simp] theorem State.bump_power (s : State) (off : Nat) (lo : Nat) (n : Nat) : (State.bump s off lo n).power = s.power :=
  State.bump_moves.frame .power (by decide)
@[simp] theorem State.bump_pwrGood (s : State) (off : Nat) (lo : Nat) (n : Nat) : (State.bump s off lo n).pwrGood = s.pwrGood :=
  State.bump_moves.frame .pwrGood (by decide)
@[simp] theorem State.bump_etc (s : State) (off : Nat) (lo : Nat) (n : Nat) : (State.bump s off lo n).etc = s.etc :=
  State.bump_moves.frame .etc (by decide)
@[simp] theorem State.bump_timer (s : State) (off : Nat) (lo : Nat) (n : Nat) : (State.bump s off lo n).timer = s.timer :=
  State.bump_moves.frame .timer (by decide)
@[simp] theorem State.bump_dev (s : State) (off : Nat) (lo : Nat) (n : Nat) : (State.bump s off lo n).dev = s.dev :=
  State.bump_moves.frame .dev (by decide)
@[simp] theorem State.bump_fault (s : State) (off : Nat) (lo : Nat) (n : Nat) : (State.bump s off lo n).fault = s.fault :=
  State.bump_moves.frame .fault (by decide)
@[simp] theorem State.bump_sec (s : State) (off : Nat) (lo : Nat) (n : Nat) : (State.bump s off lo n).sec = s.sec :=
  State.bump_moves.frame .sec (by decide)
@[simp] theorem State.bump_log (s : State) (off : Nat) (lo : Nat) (n : Nat) : (State.bump s off lo n).log = s.log :=
  State.bump_moves.frame .log (by decide)
@[simp] theorem State.bump_crash (s : State) (off : Nat) (lo : Nat) (n : Nat) : (State.bump s off lo n).crash = s.crash :=
  State.bump_moves.frame .crash (by decide)
@[simp] theorem State.bump_staged5 (s : State) (off : Nat) (lo : Nat) (n : Nat) : (State.bump s off lo n).staged5 = s.staged5 :=
  State.bump_moves.frame .staged5 (by decide)
@[simp] theorem State.bump_staged3 (s : State) (off : Nat) (lo : Nat) (n : Nat) : (State.bump s off lo n).staged3 = s.staged3 :=
  State.bump_moves.frame .staged3 (by decide)
@[simp] theorem State.bump_seeded (s : State) (off : Nat) (lo : Nat) (n : Nat) : (State.bump s off lo n).seeded = s.seeded :=
  State.bump_moves.frame .seeded (by decide)
@[simp] theorem State.bump_holding (s : State) (off : Nat) (lo : Nat) (n : Nat) : (State.bump s off lo n).holding = s.holding :=
  State.bump_moves.frame .holding (by decide)
@[simp] theorem State.bump_guards (s : State) (off : Nat) (lo : Nat) (n : Nat) : (State.bump s off lo n).guards = s.guards :=
  State.bump_moves.frame .guards (by decide)
@[simp] theorem State.bump_mem (s : State) (off : Nat) (lo : Nat) (n : Nat) : (State.bump s off lo n).mem = s.mem :=
  State.bump_moves.frame .mem (by decide)
@[simp] theorem State.bump_poison (s : State) (off : Nat) (lo : Nat) (n : Nat) : (State.bump s off lo n).poison = s.poison :=
  State.bump_moves.frame .poison (by decide)
@[simp] theorem State.bump_sculls (s : State) (off : Nat) (lo : Nat) (n : Nat) : (State.bump s off lo n).sculls = s.sculls :=
  State.bump_moves.frame .sculls (by decide)
@[simp] theorem State.bump_crews (s : State) (off : Nat) (lo : Nat) (n : Nat) : (State.bump s off lo n).crews = s.crews :=
  State.bump_moves.frame .crews (by decide)
@[simp] theorem State.bump_ergs (s : State) (off : Nat) (lo : Nat) (n : Nat) : (State.bump s off lo n).ergs = s.ergs :=
  State.bump_moves.frame .ergs (by decide)
@[simp] theorem State.bump_ctrs (s : State) (off : Nat) (lo : Nat) (n : Nat) : (State.bump s off lo n).ctrs = s.ctrs :=
  State.bump_moves.frame .ctrs (by decide)
@[simp] theorem State.bump_tasks (s : State) (off : Nat) (lo : Nat) (n : Nat) : (State.bump s off lo n).tasks = s.tasks :=
  State.bump_moves.frame .tasks (by decide)
@[simp] theorem State.bump_rings (s : State) (off : Nat) (lo : Nat) (n : Nat) : (State.bump s off lo n).rings = s.rings :=
  State.bump_moves.frame .rings (by decide)
@[simp] theorem State.bump_lastRing (s : State) (off : Nat) (lo : Nat) (n : Nat) : (State.bump s off lo n).lastRing = s.lastRing :=
  State.bump_moves.frame .lastRing (by decide)
@[simp] theorem State.bump_mbs (s : State) (off : Nat) (lo : Nat) (n : Nat) : (State.bump s off lo n).mbs = s.mbs :=
  State.bump_moves.frame .mbs (by decide)
@[simp] theorem State.bump_stateMb (s : State) (off : Nat) (lo : Nat) (n : Nat) : (State.bump s off lo n).stateMb = s.stateMb :=
  State.bump_moves.frame .stateMb (by decide)
@[simp] theorem State.bump_mbQueue (s : State) (off : Nat) (lo : Nat) (n : Nat) : (State.bump s off lo n).mbQueue = s.mbQueue :=
  State.bump_moves.frame .mbQueue (by decide)
@[simp] theorem State.bump_dunes (s : State) (off : Nat) (lo : Nat) (n : Nat) : (State.bump s off lo n).dunes = s.dunes :=
  State.bump_moves.frame .dunes (by decide)
@[simp] theorem State.bump_tier (s : State) (off : Nat) (lo : Nat) (n : Nat) : (State.bump s off lo n).tier = s.tier :=
  State.bump_moves.frame .tier (by decide)
@[simp] theorem State.bump_kv (s : State) (off : Nat) (lo : Nat) (n : Nat) : (State.bump s off lo n).kv = s.kv :=
  State.bump_moves.frame .kv (by decide)
@[simp] theorem State.bump_lowp (s : State) (off : Nat) (lo : Nat) (n : Nat) : (State.bump s off lo n).lowp = s.lowp :=
  State.bump_moves.frame .lowp (by decide)
@[simp] theorem State.bump_wakes (s : State) (off : Nat) (lo : Nat) (n : Nat) : (State.bump s off lo n).wakes = s.wakes :=
  State.bump_moves.frame .wakes (by decide)
@[simp] theorem State.bump_ports (s : State) (off : Nat) (lo : Nat) (n : Nat) : (State.bump s off lo n).ports = s.ports :=
  State.bump_moves.frame .ports (by decide)
@[simp] theorem State.bump_rigger (s : State) (off : Nat) (lo : Nat) (n : Nat) : (State.bump s off lo n).rigger = s.rigger :=
  State.bump_moves.frame .rigger (by decide)
@[simp] theorem State.bump_colls (s : State) (off : Nat) (lo : Nat) (n : Nat) : (State.bump s off lo n).colls = s.colls :=
  State.bump_moves.frame .colls (by decide)
@[simp] theorem State.bump_peers (s : State) (off : Nat) (lo : Nat) (n : Nat) : (State.bump s off lo n).peers = s.peers :=
  State.bump_moves.frame .peers (by decide)
@[simp] theorem State.bump_sched (s : State) (off : Nat) (lo : Nat) (n : Nat) : (State.bump s off lo n).sched = s.sched :=
  State.bump_moves.frame .sched (by decide)
@[simp] theorem State.bump_islands (s : State) (off : Nat) (lo : Nat) (n : Nat) : (State.bump s off lo n).islands = s.islands :=
  State.bump_moves.frame .islands (by decide)
@[simp] theorem State.bump_flashGone (s : State) (off : Nat) (lo : Nat) (n : Nat) : (State.bump s off lo n).flashGone = s.flashGone :=
  State.bump_moves.frame .flashGone (by decide)
@[simp] theorem State.bump_pwr (s : State) (off : Nat) (lo : Nat) (n : Nat) : (State.bump s off lo n).pwr = s.pwr :=
  State.bump_moves.frame .pwr (by decide)
@[simp] theorem State.bump_cairn (s : State) (off : Nat) (lo : Nat) (n : Nat) : (State.bump s off lo n).cairn = s.cairn :=
  State.bump_moves.frame .cairn (by decide)
@[simp] theorem State.bump_scull (s : State) (off : Nat) (lo : Nat) (n : Nat) (j : Nat) : (State.bump s off lo n).scull j = s.scull j := by
  simp only [State.scull, State.bump_sculls]
@[simp] theorem State.bump_crew (s : State) (off : Nat) (lo : Nat) (n : Nat) (j : Nat) : (State.bump s off lo n).crew j = s.crew j := by
  simp only [State.crew, State.bump_crews]
@[simp] theorem State.bump_erg (s : State) (off : Nat) (lo : Nat) (n : Nat) (j : Nat) : (State.bump s off lo n).erg j = s.erg j := by
  simp only [State.erg, State.bump_ergs]
@[simp] theorem State.bump_task (s : State) (off : Nat) (lo : Nat) (n : Nat) (j : Nat) : (State.bump s off lo n).task j = s.task j := by
  simp only [State.task, State.bump_tasks]
@[simp] theorem State.bump_ring (s : State) (off : Nat) (lo : Nat) (n : Nat) (j : Nat) : (State.bump s off lo n).ring j = s.ring j := by
  simp only [State.ring, State.bump_rings]
@[simp] theorem State.bump_mb (s : State) (off : Nat) (lo : Nat) (n : Nat) (j : Nat) : (State.bump s off lo n).mb j = s.mb j := by
  simp only [State.mb, State.bump_mbs]
@[simp] theorem State.bump_dune (s : State) (off : Nat) (lo : Nat) (n : Nat) (j : Nat) : (State.bump s off lo n).dune j = s.dune j := by
  simp only [State.dune, State.bump_dunes]
@[simp] theorem State.bump_wake (s : State) (off : Nat) (lo : Nat) (n : Nat) (j : Nat) : (State.bump s off lo n).wake j = s.wake j := by
  simp only [State.wake, State.bump_wakes]
@[simp] theorem State.bump_port (s : State) (off : Nat) (lo : Nat) (n : Nat) (j : Nat) : (State.bump s off lo n).port j = s.port j := by
  simp only [State.port, State.bump_ports]
@[simp] theorem State.bump_ctr (s : State) (off : Nat) (lo : Nat) (n : Nat) (j : Nat) : (State.bump s off lo n).ctr j = s.ctr j := by
  simp only [State.ctr, State.bump_ctrs]
@[simp] theorem State.bump_tensor (s : State) (off : Nat) (lo : Nat) (n : Nat) (j : Nat) : (State.bump s off lo n).tensor j = s.tensor j := by
  simp only [State.tensor, State.bump_tier]
@[simp] theorem State.bump_byte (s : State) (off : Nat) (lo : Nat) (n : Nat) (j : Nat) : (State.bump s off lo n).byte j = s.byte j := by
  simp only [State.byte, State.bump_mem]
@[simp] theorem State.bump_guard (s : State) (off : Nat) (lo : Nat) (n : Nat) (j : Nat) : (State.bump s off lo n).guard j = s.guard j := by
  simp only [State.guard, State.bump_guards]
@[simp] theorem State.bump_nv_variant (s : State) (off : Nat) (lo : Nat) (n : Nat) : (State.bump s off lo n).nv.variant = s.nv.variant :=
  (State.bump_moves.frame .ident (by decide)).1
@[simp] theorem State.bump_nv_serial (s : State) (off : Nat) (lo : Nat) (n : Nat) : (State.bump s off lo n).nv.serial = s.nv.serial :=
  (State.bump_moves.frame .ident (by decide)).2

@[simp] theorem State.bumpBy_pending (s : State) (off : Nat) (lo : Nat) (n : Nat) (k : Nat) : (State.bumpBy s off lo n k).pending = s.pending :=
  State.bumpBy_moves.frame .queue (by decide)
@[simp] theorem State.bumpBy_fresh (s : State) (off : Nat) (lo : Nat) (n : Nat) (k : Nat) : (State.bumpBy s off lo n k).fresh = s.fresh :=
  State.bumpBy_moves.frame .fresh (by decide)
@[simp] theorem State.bumpBy_tx (s : State) (off : Nat) (lo : Nat) (n : Nat) (k : Nat) : (State.bumpBy s off lo n k).tx = s.tx :=
  State.bumpBy_moves.frame .sent (by decide)
@[simp] theorem State.bumpBy_power (s : State) (off : Nat) (lo : Nat) (n : Nat) (k : Nat) : (State.bumpBy s off lo n k).power = s.power :=
  State.bumpBy_moves.frame .power (by decide)
@[simp] theorem State.bumpBy_pwrGood (s : State) (off : Nat) (lo : Nat) (n : Nat) (k : Nat) : (State.bumpBy s off lo n k).pwrGood = s.pwrGood :=
  State.bumpBy_moves.frame .pwrGood (by decide)
@[simp] theorem State.bumpBy_etc (s : State) (off : Nat) (lo : Nat) (n : Nat) (k : Nat) : (State.bumpBy s off lo n k).etc = s.etc :=
  State.bumpBy_moves.frame .etc (by decide)
@[simp] theorem State.bumpBy_timer (s : State) (off : Nat) (lo : Nat) (n : Nat) (k : Nat) : (State.bumpBy s off lo n k).timer = s.timer :=
  State.bumpBy_moves.frame .timer (by decide)
@[simp] theorem State.bumpBy_dev (s : State) (off : Nat) (lo : Nat) (n : Nat) (k : Nat) : (State.bumpBy s off lo n k).dev = s.dev :=
  State.bumpBy_moves.frame .dev (by decide)
@[simp] theorem State.bumpBy_fault (s : State) (off : Nat) (lo : Nat) (n : Nat) (k : Nat) : (State.bumpBy s off lo n k).fault = s.fault :=
  State.bumpBy_moves.frame .fault (by decide)
@[simp] theorem State.bumpBy_sec (s : State) (off : Nat) (lo : Nat) (n : Nat) (k : Nat) : (State.bumpBy s off lo n k).sec = s.sec :=
  State.bumpBy_moves.frame .sec (by decide)
@[simp] theorem State.bumpBy_log (s : State) (off : Nat) (lo : Nat) (n : Nat) (k : Nat) : (State.bumpBy s off lo n k).log = s.log :=
  State.bumpBy_moves.frame .log (by decide)
@[simp] theorem State.bumpBy_crash (s : State) (off : Nat) (lo : Nat) (n : Nat) (k : Nat) : (State.bumpBy s off lo n k).crash = s.crash :=
  State.bumpBy_moves.frame .crash (by decide)
@[simp] theorem State.bumpBy_staged5 (s : State) (off : Nat) (lo : Nat) (n : Nat) (k : Nat) : (State.bumpBy s off lo n k).staged5 = s.staged5 :=
  State.bumpBy_moves.frame .staged5 (by decide)
@[simp] theorem State.bumpBy_staged3 (s : State) (off : Nat) (lo : Nat) (n : Nat) (k : Nat) : (State.bumpBy s off lo n k).staged3 = s.staged3 :=
  State.bumpBy_moves.frame .staged3 (by decide)
@[simp] theorem State.bumpBy_seeded (s : State) (off : Nat) (lo : Nat) (n : Nat) (k : Nat) : (State.bumpBy s off lo n k).seeded = s.seeded :=
  State.bumpBy_moves.frame .seeded (by decide)
@[simp] theorem State.bumpBy_holding (s : State) (off : Nat) (lo : Nat) (n : Nat) (k : Nat) : (State.bumpBy s off lo n k).holding = s.holding :=
  State.bumpBy_moves.frame .holding (by decide)
@[simp] theorem State.bumpBy_guards (s : State) (off : Nat) (lo : Nat) (n : Nat) (k : Nat) : (State.bumpBy s off lo n k).guards = s.guards :=
  State.bumpBy_moves.frame .guards (by decide)
@[simp] theorem State.bumpBy_mem (s : State) (off : Nat) (lo : Nat) (n : Nat) (k : Nat) : (State.bumpBy s off lo n k).mem = s.mem :=
  State.bumpBy_moves.frame .mem (by decide)
@[simp] theorem State.bumpBy_poison (s : State) (off : Nat) (lo : Nat) (n : Nat) (k : Nat) : (State.bumpBy s off lo n k).poison = s.poison :=
  State.bumpBy_moves.frame .poison (by decide)
@[simp] theorem State.bumpBy_sculls (s : State) (off : Nat) (lo : Nat) (n : Nat) (k : Nat) : (State.bumpBy s off lo n k).sculls = s.sculls :=
  State.bumpBy_moves.frame .sculls (by decide)
@[simp] theorem State.bumpBy_crews (s : State) (off : Nat) (lo : Nat) (n : Nat) (k : Nat) : (State.bumpBy s off lo n k).crews = s.crews :=
  State.bumpBy_moves.frame .crews (by decide)
@[simp] theorem State.bumpBy_ergs (s : State) (off : Nat) (lo : Nat) (n : Nat) (k : Nat) : (State.bumpBy s off lo n k).ergs = s.ergs :=
  State.bumpBy_moves.frame .ergs (by decide)
@[simp] theorem State.bumpBy_ctrs (s : State) (off : Nat) (lo : Nat) (n : Nat) (k : Nat) : (State.bumpBy s off lo n k).ctrs = s.ctrs :=
  State.bumpBy_moves.frame .ctrs (by decide)
@[simp] theorem State.bumpBy_tasks (s : State) (off : Nat) (lo : Nat) (n : Nat) (k : Nat) : (State.bumpBy s off lo n k).tasks = s.tasks :=
  State.bumpBy_moves.frame .tasks (by decide)
@[simp] theorem State.bumpBy_rings (s : State) (off : Nat) (lo : Nat) (n : Nat) (k : Nat) : (State.bumpBy s off lo n k).rings = s.rings :=
  State.bumpBy_moves.frame .rings (by decide)
@[simp] theorem State.bumpBy_lastRing (s : State) (off : Nat) (lo : Nat) (n : Nat) (k : Nat) : (State.bumpBy s off lo n k).lastRing = s.lastRing :=
  State.bumpBy_moves.frame .lastRing (by decide)
@[simp] theorem State.bumpBy_mbs (s : State) (off : Nat) (lo : Nat) (n : Nat) (k : Nat) : (State.bumpBy s off lo n k).mbs = s.mbs :=
  State.bumpBy_moves.frame .mbs (by decide)
@[simp] theorem State.bumpBy_stateMb (s : State) (off : Nat) (lo : Nat) (n : Nat) (k : Nat) : (State.bumpBy s off lo n k).stateMb = s.stateMb :=
  State.bumpBy_moves.frame .stateMb (by decide)
@[simp] theorem State.bumpBy_mbQueue (s : State) (off : Nat) (lo : Nat) (n : Nat) (k : Nat) : (State.bumpBy s off lo n k).mbQueue = s.mbQueue :=
  State.bumpBy_moves.frame .mbQueue (by decide)
@[simp] theorem State.bumpBy_dunes (s : State) (off : Nat) (lo : Nat) (n : Nat) (k : Nat) : (State.bumpBy s off lo n k).dunes = s.dunes :=
  State.bumpBy_moves.frame .dunes (by decide)
@[simp] theorem State.bumpBy_tier (s : State) (off : Nat) (lo : Nat) (n : Nat) (k : Nat) : (State.bumpBy s off lo n k).tier = s.tier :=
  State.bumpBy_moves.frame .tier (by decide)
@[simp] theorem State.bumpBy_kv (s : State) (off : Nat) (lo : Nat) (n : Nat) (k : Nat) : (State.bumpBy s off lo n k).kv = s.kv :=
  State.bumpBy_moves.frame .kv (by decide)
@[simp] theorem State.bumpBy_lowp (s : State) (off : Nat) (lo : Nat) (n : Nat) (k : Nat) : (State.bumpBy s off lo n k).lowp = s.lowp :=
  State.bumpBy_moves.frame .lowp (by decide)
@[simp] theorem State.bumpBy_wakes (s : State) (off : Nat) (lo : Nat) (n : Nat) (k : Nat) : (State.bumpBy s off lo n k).wakes = s.wakes :=
  State.bumpBy_moves.frame .wakes (by decide)
@[simp] theorem State.bumpBy_ports (s : State) (off : Nat) (lo : Nat) (n : Nat) (k : Nat) : (State.bumpBy s off lo n k).ports = s.ports :=
  State.bumpBy_moves.frame .ports (by decide)
@[simp] theorem State.bumpBy_rigger (s : State) (off : Nat) (lo : Nat) (n : Nat) (k : Nat) : (State.bumpBy s off lo n k).rigger = s.rigger :=
  State.bumpBy_moves.frame .rigger (by decide)
@[simp] theorem State.bumpBy_colls (s : State) (off : Nat) (lo : Nat) (n : Nat) (k : Nat) : (State.bumpBy s off lo n k).colls = s.colls :=
  State.bumpBy_moves.frame .colls (by decide)
@[simp] theorem State.bumpBy_peers (s : State) (off : Nat) (lo : Nat) (n : Nat) (k : Nat) : (State.bumpBy s off lo n k).peers = s.peers :=
  State.bumpBy_moves.frame .peers (by decide)
@[simp] theorem State.bumpBy_sched (s : State) (off : Nat) (lo : Nat) (n : Nat) (k : Nat) : (State.bumpBy s off lo n k).sched = s.sched :=
  State.bumpBy_moves.frame .sched (by decide)
@[simp] theorem State.bumpBy_islands (s : State) (off : Nat) (lo : Nat) (n : Nat) (k : Nat) : (State.bumpBy s off lo n k).islands = s.islands :=
  State.bumpBy_moves.frame .islands (by decide)
@[simp] theorem State.bumpBy_flashGone (s : State) (off : Nat) (lo : Nat) (n : Nat) (k : Nat) : (State.bumpBy s off lo n k).flashGone = s.flashGone :=
  State.bumpBy_moves.frame .flashGone (by decide)
@[simp] theorem State.bumpBy_pwr (s : State) (off : Nat) (lo : Nat) (n : Nat) (k : Nat) : (State.bumpBy s off lo n k).pwr = s.pwr :=
  State.bumpBy_moves.frame .pwr (by decide)
@[simp] theorem State.bumpBy_cairn (s : State) (off : Nat) (lo : Nat) (n : Nat) (k : Nat) : (State.bumpBy s off lo n k).cairn = s.cairn :=
  State.bumpBy_moves.frame .cairn (by decide)
@[simp] theorem State.bumpBy_scull (s : State) (off : Nat) (lo : Nat) (n : Nat) (k : Nat) (j : Nat) : (State.bumpBy s off lo n k).scull j = s.scull j := by
  simp only [State.scull, State.bumpBy_sculls]
@[simp] theorem State.bumpBy_crew (s : State) (off : Nat) (lo : Nat) (n : Nat) (k : Nat) (j : Nat) : (State.bumpBy s off lo n k).crew j = s.crew j := by
  simp only [State.crew, State.bumpBy_crews]
@[simp] theorem State.bumpBy_erg (s : State) (off : Nat) (lo : Nat) (n : Nat) (k : Nat) (j : Nat) : (State.bumpBy s off lo n k).erg j = s.erg j := by
  simp only [State.erg, State.bumpBy_ergs]
@[simp] theorem State.bumpBy_task (s : State) (off : Nat) (lo : Nat) (n : Nat) (k : Nat) (j : Nat) : (State.bumpBy s off lo n k).task j = s.task j := by
  simp only [State.task, State.bumpBy_tasks]
@[simp] theorem State.bumpBy_ring (s : State) (off : Nat) (lo : Nat) (n : Nat) (k : Nat) (j : Nat) : (State.bumpBy s off lo n k).ring j = s.ring j := by
  simp only [State.ring, State.bumpBy_rings]
@[simp] theorem State.bumpBy_mb (s : State) (off : Nat) (lo : Nat) (n : Nat) (k : Nat) (j : Nat) : (State.bumpBy s off lo n k).mb j = s.mb j := by
  simp only [State.mb, State.bumpBy_mbs]
@[simp] theorem State.bumpBy_dune (s : State) (off : Nat) (lo : Nat) (n : Nat) (k : Nat) (j : Nat) : (State.bumpBy s off lo n k).dune j = s.dune j := by
  simp only [State.dune, State.bumpBy_dunes]
@[simp] theorem State.bumpBy_wake (s : State) (off : Nat) (lo : Nat) (n : Nat) (k : Nat) (j : Nat) : (State.bumpBy s off lo n k).wake j = s.wake j := by
  simp only [State.wake, State.bumpBy_wakes]
@[simp] theorem State.bumpBy_port (s : State) (off : Nat) (lo : Nat) (n : Nat) (k : Nat) (j : Nat) : (State.bumpBy s off lo n k).port j = s.port j := by
  simp only [State.port, State.bumpBy_ports]
@[simp] theorem State.bumpBy_ctr (s : State) (off : Nat) (lo : Nat) (n : Nat) (k : Nat) (j : Nat) : (State.bumpBy s off lo n k).ctr j = s.ctr j := by
  simp only [State.ctr, State.bumpBy_ctrs]
@[simp] theorem State.bumpBy_tensor (s : State) (off : Nat) (lo : Nat) (n : Nat) (k : Nat) (j : Nat) : (State.bumpBy s off lo n k).tensor j = s.tensor j := by
  simp only [State.tensor, State.bumpBy_tier]
@[simp] theorem State.bumpBy_byte (s : State) (off : Nat) (lo : Nat) (n : Nat) (k : Nat) (j : Nat) : (State.bumpBy s off lo n k).byte j = s.byte j := by
  simp only [State.byte, State.bumpBy_mem]
@[simp] theorem State.bumpBy_guard (s : State) (off : Nat) (lo : Nat) (n : Nat) (k : Nat) (j : Nat) : (State.bumpBy s off lo n k).guard j = s.guard j := by
  simp only [State.guard, State.bumpBy_guards]
@[simp] theorem State.bumpBy_nv_variant (s : State) (off : Nat) (lo : Nat) (n : Nat) (k : Nat) : (State.bumpBy s off lo n k).nv.variant = s.nv.variant :=
  (State.bumpBy_moves.frame .ident (by decide)).1
@[simp] theorem State.bumpBy_nv_serial (s : State) (off : Nat) (lo : Nat) (n : Nat) (k : Nat) : (State.bumpBy s off lo n k).nv.serial = s.nv.serial :=
  (State.bumpBy_moves.frame .ident (by decide)).2

@[simp] theorem State.bump64_pending (s : State) (off : Nat) (k : Nat) : (State.bump64 s off k).pending = s.pending :=
  State.bump64_moves.frame .queue (by decide)
@[simp] theorem State.bump64_fresh (s : State) (off : Nat) (k : Nat) : (State.bump64 s off k).fresh = s.fresh :=
  State.bump64_moves.frame .fresh (by decide)
@[simp] theorem State.bump64_tx (s : State) (off : Nat) (k : Nat) : (State.bump64 s off k).tx = s.tx :=
  State.bump64_moves.frame .sent (by decide)
@[simp] theorem State.bump64_power (s : State) (off : Nat) (k : Nat) : (State.bump64 s off k).power = s.power :=
  State.bump64_moves.frame .power (by decide)
@[simp] theorem State.bump64_pwrGood (s : State) (off : Nat) (k : Nat) : (State.bump64 s off k).pwrGood = s.pwrGood :=
  State.bump64_moves.frame .pwrGood (by decide)
@[simp] theorem State.bump64_etc (s : State) (off : Nat) (k : Nat) : (State.bump64 s off k).etc = s.etc :=
  State.bump64_moves.frame .etc (by decide)
@[simp] theorem State.bump64_timer (s : State) (off : Nat) (k : Nat) : (State.bump64 s off k).timer = s.timer :=
  State.bump64_moves.frame .timer (by decide)
@[simp] theorem State.bump64_dev (s : State) (off : Nat) (k : Nat) : (State.bump64 s off k).dev = s.dev :=
  State.bump64_moves.frame .dev (by decide)
@[simp] theorem State.bump64_fault (s : State) (off : Nat) (k : Nat) : (State.bump64 s off k).fault = s.fault :=
  State.bump64_moves.frame .fault (by decide)
@[simp] theorem State.bump64_sec (s : State) (off : Nat) (k : Nat) : (State.bump64 s off k).sec = s.sec :=
  State.bump64_moves.frame .sec (by decide)
@[simp] theorem State.bump64_log (s : State) (off : Nat) (k : Nat) : (State.bump64 s off k).log = s.log :=
  State.bump64_moves.frame .log (by decide)
@[simp] theorem State.bump64_crash (s : State) (off : Nat) (k : Nat) : (State.bump64 s off k).crash = s.crash :=
  State.bump64_moves.frame .crash (by decide)
@[simp] theorem State.bump64_staged5 (s : State) (off : Nat) (k : Nat) : (State.bump64 s off k).staged5 = s.staged5 :=
  State.bump64_moves.frame .staged5 (by decide)
@[simp] theorem State.bump64_staged3 (s : State) (off : Nat) (k : Nat) : (State.bump64 s off k).staged3 = s.staged3 :=
  State.bump64_moves.frame .staged3 (by decide)
@[simp] theorem State.bump64_seeded (s : State) (off : Nat) (k : Nat) : (State.bump64 s off k).seeded = s.seeded :=
  State.bump64_moves.frame .seeded (by decide)
@[simp] theorem State.bump64_holding (s : State) (off : Nat) (k : Nat) : (State.bump64 s off k).holding = s.holding :=
  State.bump64_moves.frame .holding (by decide)
@[simp] theorem State.bump64_guards (s : State) (off : Nat) (k : Nat) : (State.bump64 s off k).guards = s.guards :=
  State.bump64_moves.frame .guards (by decide)
@[simp] theorem State.bump64_mem (s : State) (off : Nat) (k : Nat) : (State.bump64 s off k).mem = s.mem :=
  State.bump64_moves.frame .mem (by decide)
@[simp] theorem State.bump64_poison (s : State) (off : Nat) (k : Nat) : (State.bump64 s off k).poison = s.poison :=
  State.bump64_moves.frame .poison (by decide)
@[simp] theorem State.bump64_sculls (s : State) (off : Nat) (k : Nat) : (State.bump64 s off k).sculls = s.sculls :=
  State.bump64_moves.frame .sculls (by decide)
@[simp] theorem State.bump64_crews (s : State) (off : Nat) (k : Nat) : (State.bump64 s off k).crews = s.crews :=
  State.bump64_moves.frame .crews (by decide)
@[simp] theorem State.bump64_ergs (s : State) (off : Nat) (k : Nat) : (State.bump64 s off k).ergs = s.ergs :=
  State.bump64_moves.frame .ergs (by decide)
@[simp] theorem State.bump64_ctrs (s : State) (off : Nat) (k : Nat) : (State.bump64 s off k).ctrs = s.ctrs :=
  State.bump64_moves.frame .ctrs (by decide)
@[simp] theorem State.bump64_tasks (s : State) (off : Nat) (k : Nat) : (State.bump64 s off k).tasks = s.tasks :=
  State.bump64_moves.frame .tasks (by decide)
@[simp] theorem State.bump64_rings (s : State) (off : Nat) (k : Nat) : (State.bump64 s off k).rings = s.rings :=
  State.bump64_moves.frame .rings (by decide)
@[simp] theorem State.bump64_lastRing (s : State) (off : Nat) (k : Nat) : (State.bump64 s off k).lastRing = s.lastRing :=
  State.bump64_moves.frame .lastRing (by decide)
@[simp] theorem State.bump64_mbs (s : State) (off : Nat) (k : Nat) : (State.bump64 s off k).mbs = s.mbs :=
  State.bump64_moves.frame .mbs (by decide)
@[simp] theorem State.bump64_stateMb (s : State) (off : Nat) (k : Nat) : (State.bump64 s off k).stateMb = s.stateMb :=
  State.bump64_moves.frame .stateMb (by decide)
@[simp] theorem State.bump64_mbQueue (s : State) (off : Nat) (k : Nat) : (State.bump64 s off k).mbQueue = s.mbQueue :=
  State.bump64_moves.frame .mbQueue (by decide)
@[simp] theorem State.bump64_dunes (s : State) (off : Nat) (k : Nat) : (State.bump64 s off k).dunes = s.dunes :=
  State.bump64_moves.frame .dunes (by decide)
@[simp] theorem State.bump64_tier (s : State) (off : Nat) (k : Nat) : (State.bump64 s off k).tier = s.tier :=
  State.bump64_moves.frame .tier (by decide)
@[simp] theorem State.bump64_kv (s : State) (off : Nat) (k : Nat) : (State.bump64 s off k).kv = s.kv :=
  State.bump64_moves.frame .kv (by decide)
@[simp] theorem State.bump64_lowp (s : State) (off : Nat) (k : Nat) : (State.bump64 s off k).lowp = s.lowp :=
  State.bump64_moves.frame .lowp (by decide)
@[simp] theorem State.bump64_wakes (s : State) (off : Nat) (k : Nat) : (State.bump64 s off k).wakes = s.wakes :=
  State.bump64_moves.frame .wakes (by decide)
@[simp] theorem State.bump64_ports (s : State) (off : Nat) (k : Nat) : (State.bump64 s off k).ports = s.ports :=
  State.bump64_moves.frame .ports (by decide)
@[simp] theorem State.bump64_rigger (s : State) (off : Nat) (k : Nat) : (State.bump64 s off k).rigger = s.rigger :=
  State.bump64_moves.frame .rigger (by decide)
@[simp] theorem State.bump64_colls (s : State) (off : Nat) (k : Nat) : (State.bump64 s off k).colls = s.colls :=
  State.bump64_moves.frame .colls (by decide)
@[simp] theorem State.bump64_peers (s : State) (off : Nat) (k : Nat) : (State.bump64 s off k).peers = s.peers :=
  State.bump64_moves.frame .peers (by decide)
@[simp] theorem State.bump64_sched (s : State) (off : Nat) (k : Nat) : (State.bump64 s off k).sched = s.sched :=
  State.bump64_moves.frame .sched (by decide)
@[simp] theorem State.bump64_islands (s : State) (off : Nat) (k : Nat) : (State.bump64 s off k).islands = s.islands :=
  State.bump64_moves.frame .islands (by decide)
@[simp] theorem State.bump64_flashGone (s : State) (off : Nat) (k : Nat) : (State.bump64 s off k).flashGone = s.flashGone :=
  State.bump64_moves.frame .flashGone (by decide)
@[simp] theorem State.bump64_pwr (s : State) (off : Nat) (k : Nat) : (State.bump64 s off k).pwr = s.pwr :=
  State.bump64_moves.frame .pwr (by decide)
@[simp] theorem State.bump64_cairn (s : State) (off : Nat) (k : Nat) : (State.bump64 s off k).cairn = s.cairn :=
  State.bump64_moves.frame .cairn (by decide)
@[simp] theorem State.bump64_scull (s : State) (off : Nat) (k : Nat) (j : Nat) : (State.bump64 s off k).scull j = s.scull j := by
  simp only [State.scull, State.bump64_sculls]
@[simp] theorem State.bump64_crew (s : State) (off : Nat) (k : Nat) (j : Nat) : (State.bump64 s off k).crew j = s.crew j := by
  simp only [State.crew, State.bump64_crews]
@[simp] theorem State.bump64_erg (s : State) (off : Nat) (k : Nat) (j : Nat) : (State.bump64 s off k).erg j = s.erg j := by
  simp only [State.erg, State.bump64_ergs]
@[simp] theorem State.bump64_task (s : State) (off : Nat) (k : Nat) (j : Nat) : (State.bump64 s off k).task j = s.task j := by
  simp only [State.task, State.bump64_tasks]
@[simp] theorem State.bump64_ring (s : State) (off : Nat) (k : Nat) (j : Nat) : (State.bump64 s off k).ring j = s.ring j := by
  simp only [State.ring, State.bump64_rings]
@[simp] theorem State.bump64_mb (s : State) (off : Nat) (k : Nat) (j : Nat) : (State.bump64 s off k).mb j = s.mb j := by
  simp only [State.mb, State.bump64_mbs]
@[simp] theorem State.bump64_dune (s : State) (off : Nat) (k : Nat) (j : Nat) : (State.bump64 s off k).dune j = s.dune j := by
  simp only [State.dune, State.bump64_dunes]
@[simp] theorem State.bump64_wake (s : State) (off : Nat) (k : Nat) (j : Nat) : (State.bump64 s off k).wake j = s.wake j := by
  simp only [State.wake, State.bump64_wakes]
@[simp] theorem State.bump64_port (s : State) (off : Nat) (k : Nat) (j : Nat) : (State.bump64 s off k).port j = s.port j := by
  simp only [State.port, State.bump64_ports]
@[simp] theorem State.bump64_ctr (s : State) (off : Nat) (k : Nat) (j : Nat) : (State.bump64 s off k).ctr j = s.ctr j := by
  simp only [State.ctr, State.bump64_ctrs]
@[simp] theorem State.bump64_tensor (s : State) (off : Nat) (k : Nat) (j : Nat) : (State.bump64 s off k).tensor j = s.tensor j := by
  simp only [State.tensor, State.bump64_tier]
@[simp] theorem State.bump64_byte (s : State) (off : Nat) (k : Nat) (j : Nat) : (State.bump64 s off k).byte j = s.byte j := by
  simp only [State.byte, State.bump64_mem]
@[simp] theorem State.bump64_guard (s : State) (off : Nat) (k : Nat) (j : Nat) : (State.bump64 s off k).guard j = s.guard j := by
  simp only [State.guard, State.bump64_guards]
@[simp] theorem State.bump64_nv_variant (s : State) (off : Nat) (k : Nat) : (State.bump64 s off k).nv.variant = s.nv.variant :=
  (State.bump64_moves.frame .ident (by decide)).1
@[simp] theorem State.bump64_nv_serial (s : State) (off : Nat) (k : Nat) : (State.bump64 s off k).nv.serial = s.nv.serial :=
  (State.bump64_moves.frame .ident (by decide)).2

@[simp] theorem State.setFld_pending (s : State) (off : Nat) (lo : Nat) (n : Nat) (v : Nat) : (State.setFld s off lo n v).pending = s.pending :=
  State.setFld_moves.frame .queue (by decide)
@[simp] theorem State.setFld_fresh (s : State) (off : Nat) (lo : Nat) (n : Nat) (v : Nat) : (State.setFld s off lo n v).fresh = s.fresh :=
  State.setFld_moves.frame .fresh (by decide)
@[simp] theorem State.setFld_tx (s : State) (off : Nat) (lo : Nat) (n : Nat) (v : Nat) : (State.setFld s off lo n v).tx = s.tx :=
  State.setFld_moves.frame .sent (by decide)
@[simp] theorem State.setFld_power (s : State) (off : Nat) (lo : Nat) (n : Nat) (v : Nat) : (State.setFld s off lo n v).power = s.power :=
  State.setFld_moves.frame .power (by decide)
@[simp] theorem State.setFld_pwrGood (s : State) (off : Nat) (lo : Nat) (n : Nat) (v : Nat) : (State.setFld s off lo n v).pwrGood = s.pwrGood :=
  State.setFld_moves.frame .pwrGood (by decide)
@[simp] theorem State.setFld_etc (s : State) (off : Nat) (lo : Nat) (n : Nat) (v : Nat) : (State.setFld s off lo n v).etc = s.etc :=
  State.setFld_moves.frame .etc (by decide)
@[simp] theorem State.setFld_timer (s : State) (off : Nat) (lo : Nat) (n : Nat) (v : Nat) : (State.setFld s off lo n v).timer = s.timer :=
  State.setFld_moves.frame .timer (by decide)
@[simp] theorem State.setFld_dev (s : State) (off : Nat) (lo : Nat) (n : Nat) (v : Nat) : (State.setFld s off lo n v).dev = s.dev :=
  State.setFld_moves.frame .dev (by decide)
@[simp] theorem State.setFld_fault (s : State) (off : Nat) (lo : Nat) (n : Nat) (v : Nat) : (State.setFld s off lo n v).fault = s.fault :=
  State.setFld_moves.frame .fault (by decide)
@[simp] theorem State.setFld_sec (s : State) (off : Nat) (lo : Nat) (n : Nat) (v : Nat) : (State.setFld s off lo n v).sec = s.sec :=
  State.setFld_moves.frame .sec (by decide)
@[simp] theorem State.setFld_log (s : State) (off : Nat) (lo : Nat) (n : Nat) (v : Nat) : (State.setFld s off lo n v).log = s.log :=
  State.setFld_moves.frame .log (by decide)
@[simp] theorem State.setFld_crash (s : State) (off : Nat) (lo : Nat) (n : Nat) (v : Nat) : (State.setFld s off lo n v).crash = s.crash :=
  State.setFld_moves.frame .crash (by decide)
@[simp] theorem State.setFld_staged5 (s : State) (off : Nat) (lo : Nat) (n : Nat) (v : Nat) : (State.setFld s off lo n v).staged5 = s.staged5 :=
  State.setFld_moves.frame .staged5 (by decide)
@[simp] theorem State.setFld_staged3 (s : State) (off : Nat) (lo : Nat) (n : Nat) (v : Nat) : (State.setFld s off lo n v).staged3 = s.staged3 :=
  State.setFld_moves.frame .staged3 (by decide)
@[simp] theorem State.setFld_seeded (s : State) (off : Nat) (lo : Nat) (n : Nat) (v : Nat) : (State.setFld s off lo n v).seeded = s.seeded :=
  State.setFld_moves.frame .seeded (by decide)
@[simp] theorem State.setFld_holding (s : State) (off : Nat) (lo : Nat) (n : Nat) (v : Nat) : (State.setFld s off lo n v).holding = s.holding :=
  State.setFld_moves.frame .holding (by decide)
@[simp] theorem State.setFld_guards (s : State) (off : Nat) (lo : Nat) (n : Nat) (v : Nat) : (State.setFld s off lo n v).guards = s.guards :=
  State.setFld_moves.frame .guards (by decide)
@[simp] theorem State.setFld_mem (s : State) (off : Nat) (lo : Nat) (n : Nat) (v : Nat) : (State.setFld s off lo n v).mem = s.mem :=
  State.setFld_moves.frame .mem (by decide)
@[simp] theorem State.setFld_poison (s : State) (off : Nat) (lo : Nat) (n : Nat) (v : Nat) : (State.setFld s off lo n v).poison = s.poison :=
  State.setFld_moves.frame .poison (by decide)
@[simp] theorem State.setFld_sculls (s : State) (off : Nat) (lo : Nat) (n : Nat) (v : Nat) : (State.setFld s off lo n v).sculls = s.sculls :=
  State.setFld_moves.frame .sculls (by decide)
@[simp] theorem State.setFld_crews (s : State) (off : Nat) (lo : Nat) (n : Nat) (v : Nat) : (State.setFld s off lo n v).crews = s.crews :=
  State.setFld_moves.frame .crews (by decide)
@[simp] theorem State.setFld_ergs (s : State) (off : Nat) (lo : Nat) (n : Nat) (v : Nat) : (State.setFld s off lo n v).ergs = s.ergs :=
  State.setFld_moves.frame .ergs (by decide)
@[simp] theorem State.setFld_ctrs (s : State) (off : Nat) (lo : Nat) (n : Nat) (v : Nat) : (State.setFld s off lo n v).ctrs = s.ctrs :=
  State.setFld_moves.frame .ctrs (by decide)
@[simp] theorem State.setFld_tasks (s : State) (off : Nat) (lo : Nat) (n : Nat) (v : Nat) : (State.setFld s off lo n v).tasks = s.tasks :=
  State.setFld_moves.frame .tasks (by decide)
@[simp] theorem State.setFld_rings (s : State) (off : Nat) (lo : Nat) (n : Nat) (v : Nat) : (State.setFld s off lo n v).rings = s.rings :=
  State.setFld_moves.frame .rings (by decide)
@[simp] theorem State.setFld_lastRing (s : State) (off : Nat) (lo : Nat) (n : Nat) (v : Nat) : (State.setFld s off lo n v).lastRing = s.lastRing :=
  State.setFld_moves.frame .lastRing (by decide)
@[simp] theorem State.setFld_mbs (s : State) (off : Nat) (lo : Nat) (n : Nat) (v : Nat) : (State.setFld s off lo n v).mbs = s.mbs :=
  State.setFld_moves.frame .mbs (by decide)
@[simp] theorem State.setFld_stateMb (s : State) (off : Nat) (lo : Nat) (n : Nat) (v : Nat) : (State.setFld s off lo n v).stateMb = s.stateMb :=
  State.setFld_moves.frame .stateMb (by decide)
@[simp] theorem State.setFld_mbQueue (s : State) (off : Nat) (lo : Nat) (n : Nat) (v : Nat) : (State.setFld s off lo n v).mbQueue = s.mbQueue :=
  State.setFld_moves.frame .mbQueue (by decide)
@[simp] theorem State.setFld_dunes (s : State) (off : Nat) (lo : Nat) (n : Nat) (v : Nat) : (State.setFld s off lo n v).dunes = s.dunes :=
  State.setFld_moves.frame .dunes (by decide)
@[simp] theorem State.setFld_tier (s : State) (off : Nat) (lo : Nat) (n : Nat) (v : Nat) : (State.setFld s off lo n v).tier = s.tier :=
  State.setFld_moves.frame .tier (by decide)
@[simp] theorem State.setFld_kv (s : State) (off : Nat) (lo : Nat) (n : Nat) (v : Nat) : (State.setFld s off lo n v).kv = s.kv :=
  State.setFld_moves.frame .kv (by decide)
@[simp] theorem State.setFld_lowp (s : State) (off : Nat) (lo : Nat) (n : Nat) (v : Nat) : (State.setFld s off lo n v).lowp = s.lowp :=
  State.setFld_moves.frame .lowp (by decide)
@[simp] theorem State.setFld_wakes (s : State) (off : Nat) (lo : Nat) (n : Nat) (v : Nat) : (State.setFld s off lo n v).wakes = s.wakes :=
  State.setFld_moves.frame .wakes (by decide)
@[simp] theorem State.setFld_ports (s : State) (off : Nat) (lo : Nat) (n : Nat) (v : Nat) : (State.setFld s off lo n v).ports = s.ports :=
  State.setFld_moves.frame .ports (by decide)
@[simp] theorem State.setFld_rigger (s : State) (off : Nat) (lo : Nat) (n : Nat) (v : Nat) : (State.setFld s off lo n v).rigger = s.rigger :=
  State.setFld_moves.frame .rigger (by decide)
@[simp] theorem State.setFld_colls (s : State) (off : Nat) (lo : Nat) (n : Nat) (v : Nat) : (State.setFld s off lo n v).colls = s.colls :=
  State.setFld_moves.frame .colls (by decide)
@[simp] theorem State.setFld_peers (s : State) (off : Nat) (lo : Nat) (n : Nat) (v : Nat) : (State.setFld s off lo n v).peers = s.peers :=
  State.setFld_moves.frame .peers (by decide)
@[simp] theorem State.setFld_sched (s : State) (off : Nat) (lo : Nat) (n : Nat) (v : Nat) : (State.setFld s off lo n v).sched = s.sched :=
  State.setFld_moves.frame .sched (by decide)
@[simp] theorem State.setFld_islands (s : State) (off : Nat) (lo : Nat) (n : Nat) (v : Nat) : (State.setFld s off lo n v).islands = s.islands :=
  State.setFld_moves.frame .islands (by decide)
@[simp] theorem State.setFld_flashGone (s : State) (off : Nat) (lo : Nat) (n : Nat) (v : Nat) : (State.setFld s off lo n v).flashGone = s.flashGone :=
  State.setFld_moves.frame .flashGone (by decide)
@[simp] theorem State.setFld_pwr (s : State) (off : Nat) (lo : Nat) (n : Nat) (v : Nat) : (State.setFld s off lo n v).pwr = s.pwr :=
  State.setFld_moves.frame .pwr (by decide)
@[simp] theorem State.setFld_cairn (s : State) (off : Nat) (lo : Nat) (n : Nat) (v : Nat) : (State.setFld s off lo n v).cairn = s.cairn :=
  State.setFld_moves.frame .cairn (by decide)
@[simp] theorem State.setFld_scull (s : State) (off : Nat) (lo : Nat) (n : Nat) (v : Nat) (j : Nat) : (State.setFld s off lo n v).scull j = s.scull j := by
  simp only [State.scull, State.setFld_sculls]
@[simp] theorem State.setFld_crew (s : State) (off : Nat) (lo : Nat) (n : Nat) (v : Nat) (j : Nat) : (State.setFld s off lo n v).crew j = s.crew j := by
  simp only [State.crew, State.setFld_crews]
@[simp] theorem State.setFld_erg (s : State) (off : Nat) (lo : Nat) (n : Nat) (v : Nat) (j : Nat) : (State.setFld s off lo n v).erg j = s.erg j := by
  simp only [State.erg, State.setFld_ergs]
@[simp] theorem State.setFld_task (s : State) (off : Nat) (lo : Nat) (n : Nat) (v : Nat) (j : Nat) : (State.setFld s off lo n v).task j = s.task j := by
  simp only [State.task, State.setFld_tasks]
@[simp] theorem State.setFld_ring (s : State) (off : Nat) (lo : Nat) (n : Nat) (v : Nat) (j : Nat) : (State.setFld s off lo n v).ring j = s.ring j := by
  simp only [State.ring, State.setFld_rings]
@[simp] theorem State.setFld_mb (s : State) (off : Nat) (lo : Nat) (n : Nat) (v : Nat) (j : Nat) : (State.setFld s off lo n v).mb j = s.mb j := by
  simp only [State.mb, State.setFld_mbs]
@[simp] theorem State.setFld_dune (s : State) (off : Nat) (lo : Nat) (n : Nat) (v : Nat) (j : Nat) : (State.setFld s off lo n v).dune j = s.dune j := by
  simp only [State.dune, State.setFld_dunes]
@[simp] theorem State.setFld_wake (s : State) (off : Nat) (lo : Nat) (n : Nat) (v : Nat) (j : Nat) : (State.setFld s off lo n v).wake j = s.wake j := by
  simp only [State.wake, State.setFld_wakes]
@[simp] theorem State.setFld_port (s : State) (off : Nat) (lo : Nat) (n : Nat) (v : Nat) (j : Nat) : (State.setFld s off lo n v).port j = s.port j := by
  simp only [State.port, State.setFld_ports]
@[simp] theorem State.setFld_ctr (s : State) (off : Nat) (lo : Nat) (n : Nat) (v : Nat) (j : Nat) : (State.setFld s off lo n v).ctr j = s.ctr j := by
  simp only [State.ctr, State.setFld_ctrs]
@[simp] theorem State.setFld_tensor (s : State) (off : Nat) (lo : Nat) (n : Nat) (v : Nat) (j : Nat) : (State.setFld s off lo n v).tensor j = s.tensor j := by
  simp only [State.tensor, State.setFld_tier]
@[simp] theorem State.setFld_byte (s : State) (off : Nat) (lo : Nat) (n : Nat) (v : Nat) (j : Nat) : (State.setFld s off lo n v).byte j = s.byte j := by
  simp only [State.byte, State.setFld_mem]
@[simp] theorem State.setFld_guard (s : State) (off : Nat) (lo : Nat) (n : Nat) (v : Nat) (j : Nat) : (State.setFld s off lo n v).guard j = s.guard j := by
  simp only [State.guard, State.setFld_guards]
@[simp] theorem State.setFld_nv_variant (s : State) (off : Nat) (lo : Nat) (n : Nat) (v : Nat) : (State.setFld s off lo n v).nv.variant = s.nv.variant :=
  (State.setFld_moves.frame .ident (by decide)).1
@[simp] theorem State.setFld_nv_serial (s : State) (off : Nat) (lo : Nat) (n : Nat) (v : Nat) : (State.setFld s off lo n v).nv.serial = s.nv.serial :=
  (State.setFld_moves.frame .ident (by decide)).2

@[simp] theorem State.stick_pending (s : State) (off : Nat) (v : Nat) : (State.stick s off v).pending = s.pending :=
  State.stick_moves.frame .queue (by decide)
@[simp] theorem State.stick_fresh (s : State) (off : Nat) (v : Nat) : (State.stick s off v).fresh = s.fresh :=
  State.stick_moves.frame .fresh (by decide)
@[simp] theorem State.stick_tx (s : State) (off : Nat) (v : Nat) : (State.stick s off v).tx = s.tx :=
  State.stick_moves.frame .sent (by decide)
@[simp] theorem State.stick_power (s : State) (off : Nat) (v : Nat) : (State.stick s off v).power = s.power :=
  State.stick_moves.frame .power (by decide)
@[simp] theorem State.stick_pwrGood (s : State) (off : Nat) (v : Nat) : (State.stick s off v).pwrGood = s.pwrGood :=
  State.stick_moves.frame .pwrGood (by decide)
@[simp] theorem State.stick_etc (s : State) (off : Nat) (v : Nat) : (State.stick s off v).etc = s.etc :=
  State.stick_moves.frame .etc (by decide)
@[simp] theorem State.stick_timer (s : State) (off : Nat) (v : Nat) : (State.stick s off v).timer = s.timer :=
  State.stick_moves.frame .timer (by decide)
@[simp] theorem State.stick_dev (s : State) (off : Nat) (v : Nat) : (State.stick s off v).dev = s.dev :=
  State.stick_moves.frame .dev (by decide)
@[simp] theorem State.stick_fault (s : State) (off : Nat) (v : Nat) : (State.stick s off v).fault = s.fault :=
  State.stick_moves.frame .fault (by decide)
@[simp] theorem State.stick_sec (s : State) (off : Nat) (v : Nat) : (State.stick s off v).sec = s.sec :=
  State.stick_moves.frame .sec (by decide)
@[simp] theorem State.stick_log (s : State) (off : Nat) (v : Nat) : (State.stick s off v).log = s.log :=
  State.stick_moves.frame .log (by decide)
@[simp] theorem State.stick_crash (s : State) (off : Nat) (v : Nat) : (State.stick s off v).crash = s.crash :=
  State.stick_moves.frame .crash (by decide)
@[simp] theorem State.stick_staged5 (s : State) (off : Nat) (v : Nat) : (State.stick s off v).staged5 = s.staged5 :=
  State.stick_moves.frame .staged5 (by decide)
@[simp] theorem State.stick_staged3 (s : State) (off : Nat) (v : Nat) : (State.stick s off v).staged3 = s.staged3 :=
  State.stick_moves.frame .staged3 (by decide)
@[simp] theorem State.stick_seeded (s : State) (off : Nat) (v : Nat) : (State.stick s off v).seeded = s.seeded :=
  State.stick_moves.frame .seeded (by decide)
@[simp] theorem State.stick_holding (s : State) (off : Nat) (v : Nat) : (State.stick s off v).holding = s.holding :=
  State.stick_moves.frame .holding (by decide)
@[simp] theorem State.stick_guards (s : State) (off : Nat) (v : Nat) : (State.stick s off v).guards = s.guards :=
  State.stick_moves.frame .guards (by decide)
@[simp] theorem State.stick_mem (s : State) (off : Nat) (v : Nat) : (State.stick s off v).mem = s.mem :=
  State.stick_moves.frame .mem (by decide)
@[simp] theorem State.stick_poison (s : State) (off : Nat) (v : Nat) : (State.stick s off v).poison = s.poison :=
  State.stick_moves.frame .poison (by decide)
@[simp] theorem State.stick_sculls (s : State) (off : Nat) (v : Nat) : (State.stick s off v).sculls = s.sculls :=
  State.stick_moves.frame .sculls (by decide)
@[simp] theorem State.stick_crews (s : State) (off : Nat) (v : Nat) : (State.stick s off v).crews = s.crews :=
  State.stick_moves.frame .crews (by decide)
@[simp] theorem State.stick_ergs (s : State) (off : Nat) (v : Nat) : (State.stick s off v).ergs = s.ergs :=
  State.stick_moves.frame .ergs (by decide)
@[simp] theorem State.stick_ctrs (s : State) (off : Nat) (v : Nat) : (State.stick s off v).ctrs = s.ctrs :=
  State.stick_moves.frame .ctrs (by decide)
@[simp] theorem State.stick_tasks (s : State) (off : Nat) (v : Nat) : (State.stick s off v).tasks = s.tasks :=
  State.stick_moves.frame .tasks (by decide)
@[simp] theorem State.stick_rings (s : State) (off : Nat) (v : Nat) : (State.stick s off v).rings = s.rings :=
  State.stick_moves.frame .rings (by decide)
@[simp] theorem State.stick_lastRing (s : State) (off : Nat) (v : Nat) : (State.stick s off v).lastRing = s.lastRing :=
  State.stick_moves.frame .lastRing (by decide)
@[simp] theorem State.stick_mbs (s : State) (off : Nat) (v : Nat) : (State.stick s off v).mbs = s.mbs :=
  State.stick_moves.frame .mbs (by decide)
@[simp] theorem State.stick_stateMb (s : State) (off : Nat) (v : Nat) : (State.stick s off v).stateMb = s.stateMb :=
  State.stick_moves.frame .stateMb (by decide)
@[simp] theorem State.stick_mbQueue (s : State) (off : Nat) (v : Nat) : (State.stick s off v).mbQueue = s.mbQueue :=
  State.stick_moves.frame .mbQueue (by decide)
@[simp] theorem State.stick_dunes (s : State) (off : Nat) (v : Nat) : (State.stick s off v).dunes = s.dunes :=
  State.stick_moves.frame .dunes (by decide)
@[simp] theorem State.stick_tier (s : State) (off : Nat) (v : Nat) : (State.stick s off v).tier = s.tier :=
  State.stick_moves.frame .tier (by decide)
@[simp] theorem State.stick_kv (s : State) (off : Nat) (v : Nat) : (State.stick s off v).kv = s.kv :=
  State.stick_moves.frame .kv (by decide)
@[simp] theorem State.stick_lowp (s : State) (off : Nat) (v : Nat) : (State.stick s off v).lowp = s.lowp :=
  State.stick_moves.frame .lowp (by decide)
@[simp] theorem State.stick_wakes (s : State) (off : Nat) (v : Nat) : (State.stick s off v).wakes = s.wakes :=
  State.stick_moves.frame .wakes (by decide)
@[simp] theorem State.stick_ports (s : State) (off : Nat) (v : Nat) : (State.stick s off v).ports = s.ports :=
  State.stick_moves.frame .ports (by decide)
@[simp] theorem State.stick_rigger (s : State) (off : Nat) (v : Nat) : (State.stick s off v).rigger = s.rigger :=
  State.stick_moves.frame .rigger (by decide)
@[simp] theorem State.stick_colls (s : State) (off : Nat) (v : Nat) : (State.stick s off v).colls = s.colls :=
  State.stick_moves.frame .colls (by decide)
@[simp] theorem State.stick_peers (s : State) (off : Nat) (v : Nat) : (State.stick s off v).peers = s.peers :=
  State.stick_moves.frame .peers (by decide)
@[simp] theorem State.stick_sched (s : State) (off : Nat) (v : Nat) : (State.stick s off v).sched = s.sched :=
  State.stick_moves.frame .sched (by decide)
@[simp] theorem State.stick_islands (s : State) (off : Nat) (v : Nat) : (State.stick s off v).islands = s.islands :=
  State.stick_moves.frame .islands (by decide)
@[simp] theorem State.stick_flashGone (s : State) (off : Nat) (v : Nat) : (State.stick s off v).flashGone = s.flashGone :=
  State.stick_moves.frame .flashGone (by decide)
@[simp] theorem State.stick_pwr (s : State) (off : Nat) (v : Nat) : (State.stick s off v).pwr = s.pwr :=
  State.stick_moves.frame .pwr (by decide)
@[simp] theorem State.stick_cairn (s : State) (off : Nat) (v : Nat) : (State.stick s off v).cairn = s.cairn :=
  State.stick_moves.frame .cairn (by decide)
@[simp] theorem State.stick_scull (s : State) (off : Nat) (v : Nat) (j : Nat) : (State.stick s off v).scull j = s.scull j := by
  simp only [State.scull, State.stick_sculls]
@[simp] theorem State.stick_crew (s : State) (off : Nat) (v : Nat) (j : Nat) : (State.stick s off v).crew j = s.crew j := by
  simp only [State.crew, State.stick_crews]
@[simp] theorem State.stick_erg (s : State) (off : Nat) (v : Nat) (j : Nat) : (State.stick s off v).erg j = s.erg j := by
  simp only [State.erg, State.stick_ergs]
@[simp] theorem State.stick_task (s : State) (off : Nat) (v : Nat) (j : Nat) : (State.stick s off v).task j = s.task j := by
  simp only [State.task, State.stick_tasks]
@[simp] theorem State.stick_ring (s : State) (off : Nat) (v : Nat) (j : Nat) : (State.stick s off v).ring j = s.ring j := by
  simp only [State.ring, State.stick_rings]
@[simp] theorem State.stick_mb (s : State) (off : Nat) (v : Nat) (j : Nat) : (State.stick s off v).mb j = s.mb j := by
  simp only [State.mb, State.stick_mbs]
@[simp] theorem State.stick_dune (s : State) (off : Nat) (v : Nat) (j : Nat) : (State.stick s off v).dune j = s.dune j := by
  simp only [State.dune, State.stick_dunes]
@[simp] theorem State.stick_wake (s : State) (off : Nat) (v : Nat) (j : Nat) : (State.stick s off v).wake j = s.wake j := by
  simp only [State.wake, State.stick_wakes]
@[simp] theorem State.stick_port (s : State) (off : Nat) (v : Nat) (j : Nat) : (State.stick s off v).port j = s.port j := by
  simp only [State.port, State.stick_ports]
@[simp] theorem State.stick_ctr (s : State) (off : Nat) (v : Nat) (j : Nat) : (State.stick s off v).ctr j = s.ctr j := by
  simp only [State.ctr, State.stick_ctrs]
@[simp] theorem State.stick_tensor (s : State) (off : Nat) (v : Nat) (j : Nat) : (State.stick s off v).tensor j = s.tensor j := by
  simp only [State.tensor, State.stick_tier]
@[simp] theorem State.stick_byte (s : State) (off : Nat) (v : Nat) (j : Nat) : (State.stick s off v).byte j = s.byte j := by
  simp only [State.byte, State.stick_mem]
@[simp] theorem State.stick_guard (s : State) (off : Nat) (v : Nat) (j : Nat) : (State.stick s off v).guard j = s.guard j := by
  simp only [State.guard, State.stick_guards]
@[simp] theorem State.stick_nv_variant (s : State) (off : Nat) (v : Nat) : (State.stick s off v).nv.variant = s.nv.variant :=
  (State.stick_moves.frame .ident (by decide)).1
@[simp] theorem State.stick_nv_serial (s : State) (off : Nat) (v : Nat) : (State.stick s off v).nv.serial = s.nv.serial :=
  (State.stick_moves.frame .ident (by decide)).2

@[simp] theorem State.setReg_scull (s : State) (off : Nat) (v : Word) (j : Nat) : (s.setReg off v).scull j = s.scull j := rfl
@[simp] theorem State.setReg_crew (s : State) (off : Nat) (v : Word) (j : Nat) : (s.setReg off v).crew j = s.crew j := rfl
@[simp] theorem State.setReg_erg (s : State) (off : Nat) (v : Word) (j : Nat) : (s.setReg off v).erg j = s.erg j := rfl
@[simp] theorem State.setReg_task (s : State) (off : Nat) (v : Word) (j : Nat) : (s.setReg off v).task j = s.task j := rfl
@[simp] theorem State.setReg_ring (s : State) (off : Nat) (v : Word) (j : Nat) : (s.setReg off v).ring j = s.ring j := rfl
@[simp] theorem State.setReg_mb (s : State) (off : Nat) (v : Word) (j : Nat) : (s.setReg off v).mb j = s.mb j := rfl
@[simp] theorem State.setReg_dune (s : State) (off : Nat) (v : Word) (j : Nat) : (s.setReg off v).dune j = s.dune j := rfl
@[simp] theorem State.setReg_wake (s : State) (off : Nat) (v : Word) (j : Nat) : (s.setReg off v).wake j = s.wake j := rfl
@[simp] theorem State.setReg_port (s : State) (off : Nat) (v : Word) (j : Nat) : (s.setReg off v).port j = s.port j := rfl
@[simp] theorem State.setReg_ctr (s : State) (off : Nat) (v : Word) (j : Nat) : (s.setReg off v).ctr j = s.ctr j := rfl
@[simp] theorem State.setReg_tensor (s : State) (off : Nat) (v : Word) (j : Nat) : (s.setReg off v).tensor j = s.tensor j := rfl
@[simp] theorem State.setReg_byte (s : State) (off : Nat) (v : Word) (j : Nat) : (s.setReg off v).byte j = s.byte j := rfl
@[simp] theorem State.setReg_guard (s : State) (off : Nat) (v : Word) (j : Nat) : (s.setReg off v).guard j = s.guard j := rfl
@[simp] theorem State.setScull_crew (s : State) (k : Nat) (v : Scull) (j : Nat) : (s.setScull k v).crew j = s.crew j := rfl
@[simp] theorem State.setScull_erg (s : State) (k : Nat) (v : Scull) (j : Nat) : (s.setScull k v).erg j = s.erg j := rfl
@[simp] theorem State.setScull_task (s : State) (k : Nat) (v : Scull) (j : Nat) : (s.setScull k v).task j = s.task j := rfl
@[simp] theorem State.setScull_ring (s : State) (k : Nat) (v : Scull) (j : Nat) : (s.setScull k v).ring j = s.ring j := rfl
@[simp] theorem State.setScull_mb (s : State) (k : Nat) (v : Scull) (j : Nat) : (s.setScull k v).mb j = s.mb j := rfl
@[simp] theorem State.setScull_dune (s : State) (k : Nat) (v : Scull) (j : Nat) : (s.setScull k v).dune j = s.dune j := rfl
@[simp] theorem State.setScull_wake (s : State) (k : Nat) (v : Scull) (j : Nat) : (s.setScull k v).wake j = s.wake j := rfl
@[simp] theorem State.setScull_port (s : State) (k : Nat) (v : Scull) (j : Nat) : (s.setScull k v).port j = s.port j := rfl
@[simp] theorem State.setScull_ctr (s : State) (k : Nat) (v : Scull) (j : Nat) : (s.setScull k v).ctr j = s.ctr j := rfl
@[simp] theorem State.setScull_tensor (s : State) (k : Nat) (v : Scull) (j : Nat) : (s.setScull k v).tensor j = s.tensor j := rfl
@[simp] theorem State.setScull_byte (s : State) (k : Nat) (v : Scull) (j : Nat) : (s.setScull k v).byte j = s.byte j := rfl
@[simp] theorem State.setScull_guard (s : State) (k : Nat) (v : Scull) (j : Nat) : (s.setScull k v).guard j = s.guard j := rfl
@[simp] theorem State.setScull_reg (s : State) (k : Nat) (v : Scull) (j : Nat) : (s.setScull k v).reg j = s.reg j := rfl
@[simp] theorem State.setScull_fld (s : State) (k : Nat) (v : Scull) (j lo m : Nat) : (s.setScull k v).fld j lo m = s.fld j lo m := rfl
@[simp] theorem State.setCrew_scull (s : State) (k : Nat) (v : Crew) (j : Nat) : (s.setCrew k v).scull j = s.scull j := rfl
@[simp] theorem State.setCrew_erg (s : State) (k : Nat) (v : Crew) (j : Nat) : (s.setCrew k v).erg j = s.erg j := rfl
@[simp] theorem State.setCrew_task (s : State) (k : Nat) (v : Crew) (j : Nat) : (s.setCrew k v).task j = s.task j := rfl
@[simp] theorem State.setCrew_ring (s : State) (k : Nat) (v : Crew) (j : Nat) : (s.setCrew k v).ring j = s.ring j := rfl
@[simp] theorem State.setCrew_mb (s : State) (k : Nat) (v : Crew) (j : Nat) : (s.setCrew k v).mb j = s.mb j := rfl
@[simp] theorem State.setCrew_dune (s : State) (k : Nat) (v : Crew) (j : Nat) : (s.setCrew k v).dune j = s.dune j := rfl
@[simp] theorem State.setCrew_wake (s : State) (k : Nat) (v : Crew) (j : Nat) : (s.setCrew k v).wake j = s.wake j := rfl
@[simp] theorem State.setCrew_port (s : State) (k : Nat) (v : Crew) (j : Nat) : (s.setCrew k v).port j = s.port j := rfl
@[simp] theorem State.setCrew_ctr (s : State) (k : Nat) (v : Crew) (j : Nat) : (s.setCrew k v).ctr j = s.ctr j := rfl
@[simp] theorem State.setCrew_tensor (s : State) (k : Nat) (v : Crew) (j : Nat) : (s.setCrew k v).tensor j = s.tensor j := rfl
@[simp] theorem State.setCrew_byte (s : State) (k : Nat) (v : Crew) (j : Nat) : (s.setCrew k v).byte j = s.byte j := rfl
@[simp] theorem State.setCrew_guard (s : State) (k : Nat) (v : Crew) (j : Nat) : (s.setCrew k v).guard j = s.guard j := rfl
@[simp] theorem State.setCrew_reg (s : State) (k : Nat) (v : Crew) (j : Nat) : (s.setCrew k v).reg j = s.reg j := rfl
@[simp] theorem State.setCrew_fld (s : State) (k : Nat) (v : Crew) (j lo m : Nat) : (s.setCrew k v).fld j lo m = s.fld j lo m := rfl
@[simp] theorem State.setErg_scull (s : State) (k : Nat) (v : Erg) (j : Nat) : (s.setErg k v).scull j = s.scull j := rfl
@[simp] theorem State.setErg_crew (s : State) (k : Nat) (v : Erg) (j : Nat) : (s.setErg k v).crew j = s.crew j := rfl
@[simp] theorem State.setErg_task (s : State) (k : Nat) (v : Erg) (j : Nat) : (s.setErg k v).task j = s.task j := rfl
@[simp] theorem State.setErg_ring (s : State) (k : Nat) (v : Erg) (j : Nat) : (s.setErg k v).ring j = s.ring j := rfl
@[simp] theorem State.setErg_mb (s : State) (k : Nat) (v : Erg) (j : Nat) : (s.setErg k v).mb j = s.mb j := rfl
@[simp] theorem State.setErg_dune (s : State) (k : Nat) (v : Erg) (j : Nat) : (s.setErg k v).dune j = s.dune j := rfl
@[simp] theorem State.setErg_wake (s : State) (k : Nat) (v : Erg) (j : Nat) : (s.setErg k v).wake j = s.wake j := rfl
@[simp] theorem State.setErg_port (s : State) (k : Nat) (v : Erg) (j : Nat) : (s.setErg k v).port j = s.port j := rfl
@[simp] theorem State.setErg_ctr (s : State) (k : Nat) (v : Erg) (j : Nat) : (s.setErg k v).ctr j = s.ctr j := rfl
@[simp] theorem State.setErg_tensor (s : State) (k : Nat) (v : Erg) (j : Nat) : (s.setErg k v).tensor j = s.tensor j := rfl
@[simp] theorem State.setErg_byte (s : State) (k : Nat) (v : Erg) (j : Nat) : (s.setErg k v).byte j = s.byte j := rfl
@[simp] theorem State.setErg_guard (s : State) (k : Nat) (v : Erg) (j : Nat) : (s.setErg k v).guard j = s.guard j := rfl
@[simp] theorem State.setErg_reg (s : State) (k : Nat) (v : Erg) (j : Nat) : (s.setErg k v).reg j = s.reg j := rfl
@[simp] theorem State.setErg_fld (s : State) (k : Nat) (v : Erg) (j lo m : Nat) : (s.setErg k v).fld j lo m = s.fld j lo m := rfl
@[simp] theorem State.setTask_scull (s : State) (k : Nat) (v : Task) (j : Nat) : (s.setTask k v).scull j = s.scull j := rfl
@[simp] theorem State.setTask_crew (s : State) (k : Nat) (v : Task) (j : Nat) : (s.setTask k v).crew j = s.crew j := rfl
@[simp] theorem State.setTask_erg (s : State) (k : Nat) (v : Task) (j : Nat) : (s.setTask k v).erg j = s.erg j := rfl
@[simp] theorem State.setTask_ring (s : State) (k : Nat) (v : Task) (j : Nat) : (s.setTask k v).ring j = s.ring j := rfl
@[simp] theorem State.setTask_mb (s : State) (k : Nat) (v : Task) (j : Nat) : (s.setTask k v).mb j = s.mb j := rfl
@[simp] theorem State.setTask_dune (s : State) (k : Nat) (v : Task) (j : Nat) : (s.setTask k v).dune j = s.dune j := rfl
@[simp] theorem State.setTask_wake (s : State) (k : Nat) (v : Task) (j : Nat) : (s.setTask k v).wake j = s.wake j := rfl
@[simp] theorem State.setTask_port (s : State) (k : Nat) (v : Task) (j : Nat) : (s.setTask k v).port j = s.port j := rfl
@[simp] theorem State.setTask_ctr (s : State) (k : Nat) (v : Task) (j : Nat) : (s.setTask k v).ctr j = s.ctr j := rfl
@[simp] theorem State.setTask_tensor (s : State) (k : Nat) (v : Task) (j : Nat) : (s.setTask k v).tensor j = s.tensor j := rfl
@[simp] theorem State.setTask_byte (s : State) (k : Nat) (v : Task) (j : Nat) : (s.setTask k v).byte j = s.byte j := rfl
@[simp] theorem State.setTask_guard (s : State) (k : Nat) (v : Task) (j : Nat) : (s.setTask k v).guard j = s.guard j := rfl
@[simp] theorem State.setTask_reg (s : State) (k : Nat) (v : Task) (j : Nat) : (s.setTask k v).reg j = s.reg j := rfl
@[simp] theorem State.setTask_fld (s : State) (k : Nat) (v : Task) (j lo m : Nat) : (s.setTask k v).fld j lo m = s.fld j lo m := rfl
@[simp] theorem State.setRing_scull (s : State) (k : Nat) (v : Ring) (j : Nat) : (s.setRing k v).scull j = s.scull j := rfl
@[simp] theorem State.setRing_crew (s : State) (k : Nat) (v : Ring) (j : Nat) : (s.setRing k v).crew j = s.crew j := rfl
@[simp] theorem State.setRing_erg (s : State) (k : Nat) (v : Ring) (j : Nat) : (s.setRing k v).erg j = s.erg j := rfl
@[simp] theorem State.setRing_task (s : State) (k : Nat) (v : Ring) (j : Nat) : (s.setRing k v).task j = s.task j := rfl
@[simp] theorem State.setRing_mb (s : State) (k : Nat) (v : Ring) (j : Nat) : (s.setRing k v).mb j = s.mb j := rfl
@[simp] theorem State.setRing_dune (s : State) (k : Nat) (v : Ring) (j : Nat) : (s.setRing k v).dune j = s.dune j := rfl
@[simp] theorem State.setRing_wake (s : State) (k : Nat) (v : Ring) (j : Nat) : (s.setRing k v).wake j = s.wake j := rfl
@[simp] theorem State.setRing_port (s : State) (k : Nat) (v : Ring) (j : Nat) : (s.setRing k v).port j = s.port j := rfl
@[simp] theorem State.setRing_ctr (s : State) (k : Nat) (v : Ring) (j : Nat) : (s.setRing k v).ctr j = s.ctr j := rfl
@[simp] theorem State.setRing_tensor (s : State) (k : Nat) (v : Ring) (j : Nat) : (s.setRing k v).tensor j = s.tensor j := rfl
@[simp] theorem State.setRing_byte (s : State) (k : Nat) (v : Ring) (j : Nat) : (s.setRing k v).byte j = s.byte j := rfl
@[simp] theorem State.setRing_guard (s : State) (k : Nat) (v : Ring) (j : Nat) : (s.setRing k v).guard j = s.guard j := rfl
@[simp] theorem State.setRing_reg (s : State) (k : Nat) (v : Ring) (j : Nat) : (s.setRing k v).reg j = s.reg j := rfl
@[simp] theorem State.setRing_fld (s : State) (k : Nat) (v : Ring) (j lo m : Nat) : (s.setRing k v).fld j lo m = s.fld j lo m := rfl
@[simp] theorem State.setMb_scull (s : State) (k : Nat) (v : Mailbox) (j : Nat) : (s.setMb k v).scull j = s.scull j := rfl
@[simp] theorem State.setMb_crew (s : State) (k : Nat) (v : Mailbox) (j : Nat) : (s.setMb k v).crew j = s.crew j := rfl
@[simp] theorem State.setMb_erg (s : State) (k : Nat) (v : Mailbox) (j : Nat) : (s.setMb k v).erg j = s.erg j := rfl
@[simp] theorem State.setMb_task (s : State) (k : Nat) (v : Mailbox) (j : Nat) : (s.setMb k v).task j = s.task j := rfl
@[simp] theorem State.setMb_ring (s : State) (k : Nat) (v : Mailbox) (j : Nat) : (s.setMb k v).ring j = s.ring j := rfl
@[simp] theorem State.setMb_dune (s : State) (k : Nat) (v : Mailbox) (j : Nat) : (s.setMb k v).dune j = s.dune j := rfl
@[simp] theorem State.setMb_wake (s : State) (k : Nat) (v : Mailbox) (j : Nat) : (s.setMb k v).wake j = s.wake j := rfl
@[simp] theorem State.setMb_port (s : State) (k : Nat) (v : Mailbox) (j : Nat) : (s.setMb k v).port j = s.port j := rfl
@[simp] theorem State.setMb_ctr (s : State) (k : Nat) (v : Mailbox) (j : Nat) : (s.setMb k v).ctr j = s.ctr j := rfl
@[simp] theorem State.setMb_tensor (s : State) (k : Nat) (v : Mailbox) (j : Nat) : (s.setMb k v).tensor j = s.tensor j := rfl
@[simp] theorem State.setMb_byte (s : State) (k : Nat) (v : Mailbox) (j : Nat) : (s.setMb k v).byte j = s.byte j := rfl
@[simp] theorem State.setMb_guard (s : State) (k : Nat) (v : Mailbox) (j : Nat) : (s.setMb k v).guard j = s.guard j := rfl
@[simp] theorem State.setMb_reg (s : State) (k : Nat) (v : Mailbox) (j : Nat) : (s.setMb k v).reg j = s.reg j := rfl
@[simp] theorem State.setMb_fld (s : State) (k : Nat) (v : Mailbox) (j lo m : Nat) : (s.setMb k v).fld j lo m = s.fld j lo m := rfl
@[simp] theorem State.setDune_scull (s : State) (k : Nat) (v : Stack) (j : Nat) : (s.setDune k v).scull j = s.scull j := rfl
@[simp] theorem State.setDune_crew (s : State) (k : Nat) (v : Stack) (j : Nat) : (s.setDune k v).crew j = s.crew j := rfl
@[simp] theorem State.setDune_erg (s : State) (k : Nat) (v : Stack) (j : Nat) : (s.setDune k v).erg j = s.erg j := rfl
@[simp] theorem State.setDune_task (s : State) (k : Nat) (v : Stack) (j : Nat) : (s.setDune k v).task j = s.task j := rfl
@[simp] theorem State.setDune_ring (s : State) (k : Nat) (v : Stack) (j : Nat) : (s.setDune k v).ring j = s.ring j := rfl
@[simp] theorem State.setDune_mb (s : State) (k : Nat) (v : Stack) (j : Nat) : (s.setDune k v).mb j = s.mb j := rfl
@[simp] theorem State.setDune_wake (s : State) (k : Nat) (v : Stack) (j : Nat) : (s.setDune k v).wake j = s.wake j := rfl
@[simp] theorem State.setDune_port (s : State) (k : Nat) (v : Stack) (j : Nat) : (s.setDune k v).port j = s.port j := rfl
@[simp] theorem State.setDune_ctr (s : State) (k : Nat) (v : Stack) (j : Nat) : (s.setDune k v).ctr j = s.ctr j := rfl
@[simp] theorem State.setDune_tensor (s : State) (k : Nat) (v : Stack) (j : Nat) : (s.setDune k v).tensor j = s.tensor j := rfl
@[simp] theorem State.setDune_byte (s : State) (k : Nat) (v : Stack) (j : Nat) : (s.setDune k v).byte j = s.byte j := rfl
@[simp] theorem State.setDune_guard (s : State) (k : Nat) (v : Stack) (j : Nat) : (s.setDune k v).guard j = s.guard j := rfl
@[simp] theorem State.setDune_reg (s : State) (k : Nat) (v : Stack) (j : Nat) : (s.setDune k v).reg j = s.reg j := rfl
@[simp] theorem State.setDune_fld (s : State) (k : Nat) (v : Stack) (j lo m : Nat) : (s.setDune k v).fld j lo m = s.fld j lo m := rfl
@[simp] theorem State.setWake_scull (s : State) (k : Nat) (v : Wake) (j : Nat) : (s.setWake k v).scull j = s.scull j := rfl
@[simp] theorem State.setWake_crew (s : State) (k : Nat) (v : Wake) (j : Nat) : (s.setWake k v).crew j = s.crew j := rfl
@[simp] theorem State.setWake_erg (s : State) (k : Nat) (v : Wake) (j : Nat) : (s.setWake k v).erg j = s.erg j := rfl
@[simp] theorem State.setWake_task (s : State) (k : Nat) (v : Wake) (j : Nat) : (s.setWake k v).task j = s.task j := rfl
@[simp] theorem State.setWake_ring (s : State) (k : Nat) (v : Wake) (j : Nat) : (s.setWake k v).ring j = s.ring j := rfl
@[simp] theorem State.setWake_mb (s : State) (k : Nat) (v : Wake) (j : Nat) : (s.setWake k v).mb j = s.mb j := rfl
@[simp] theorem State.setWake_dune (s : State) (k : Nat) (v : Wake) (j : Nat) : (s.setWake k v).dune j = s.dune j := rfl
@[simp] theorem State.setWake_port (s : State) (k : Nat) (v : Wake) (j : Nat) : (s.setWake k v).port j = s.port j := rfl
@[simp] theorem State.setWake_ctr (s : State) (k : Nat) (v : Wake) (j : Nat) : (s.setWake k v).ctr j = s.ctr j := rfl
@[simp] theorem State.setWake_tensor (s : State) (k : Nat) (v : Wake) (j : Nat) : (s.setWake k v).tensor j = s.tensor j := rfl
@[simp] theorem State.setWake_byte (s : State) (k : Nat) (v : Wake) (j : Nat) : (s.setWake k v).byte j = s.byte j := rfl
@[simp] theorem State.setWake_guard (s : State) (k : Nat) (v : Wake) (j : Nat) : (s.setWake k v).guard j = s.guard j := rfl
@[simp] theorem State.setWake_reg (s : State) (k : Nat) (v : Wake) (j : Nat) : (s.setWake k v).reg j = s.reg j := rfl
@[simp] theorem State.setWake_fld (s : State) (k : Nat) (v : Wake) (j lo m : Nat) : (s.setWake k v).fld j lo m = s.fld j lo m := rfl
@[simp] theorem State.setPort_scull (s : State) (k : Nat) (v : Port) (j : Nat) : (s.setPort k v).scull j = s.scull j := rfl
@[simp] theorem State.setPort_crew (s : State) (k : Nat) (v : Port) (j : Nat) : (s.setPort k v).crew j = s.crew j := rfl
@[simp] theorem State.setPort_erg (s : State) (k : Nat) (v : Port) (j : Nat) : (s.setPort k v).erg j = s.erg j := rfl
@[simp] theorem State.setPort_task (s : State) (k : Nat) (v : Port) (j : Nat) : (s.setPort k v).task j = s.task j := rfl
@[simp] theorem State.setPort_ring (s : State) (k : Nat) (v : Port) (j : Nat) : (s.setPort k v).ring j = s.ring j := rfl
@[simp] theorem State.setPort_mb (s : State) (k : Nat) (v : Port) (j : Nat) : (s.setPort k v).mb j = s.mb j := rfl
@[simp] theorem State.setPort_dune (s : State) (k : Nat) (v : Port) (j : Nat) : (s.setPort k v).dune j = s.dune j := rfl
@[simp] theorem State.setPort_wake (s : State) (k : Nat) (v : Port) (j : Nat) : (s.setPort k v).wake j = s.wake j := rfl
@[simp] theorem State.setPort_ctr (s : State) (k : Nat) (v : Port) (j : Nat) : (s.setPort k v).ctr j = s.ctr j := rfl
@[simp] theorem State.setPort_tensor (s : State) (k : Nat) (v : Port) (j : Nat) : (s.setPort k v).tensor j = s.tensor j := rfl
@[simp] theorem State.setPort_byte (s : State) (k : Nat) (v : Port) (j : Nat) : (s.setPort k v).byte j = s.byte j := rfl
@[simp] theorem State.setPort_guard (s : State) (k : Nat) (v : Port) (j : Nat) : (s.setPort k v).guard j = s.guard j := rfl
@[simp] theorem State.setPort_reg (s : State) (k : Nat) (v : Port) (j : Nat) : (s.setPort k v).reg j = s.reg j := rfl
@[simp] theorem State.setPort_fld (s : State) (k : Nat) (v : Port) (j lo m : Nat) : (s.setPort k v).fld j lo m = s.fld j lo m := rfl
@[simp] theorem State.setCtr_scull (s : State) (k : Nat) (v : Word) (j : Nat) : (s.setCtr k v).scull j = s.scull j := rfl
@[simp] theorem State.setCtr_crew (s : State) (k : Nat) (v : Word) (j : Nat) : (s.setCtr k v).crew j = s.crew j := rfl
@[simp] theorem State.setCtr_erg (s : State) (k : Nat) (v : Word) (j : Nat) : (s.setCtr k v).erg j = s.erg j := rfl
@[simp] theorem State.setCtr_task (s : State) (k : Nat) (v : Word) (j : Nat) : (s.setCtr k v).task j = s.task j := rfl
@[simp] theorem State.setCtr_ring (s : State) (k : Nat) (v : Word) (j : Nat) : (s.setCtr k v).ring j = s.ring j := rfl
@[simp] theorem State.setCtr_mb (s : State) (k : Nat) (v : Word) (j : Nat) : (s.setCtr k v).mb j = s.mb j := rfl
@[simp] theorem State.setCtr_dune (s : State) (k : Nat) (v : Word) (j : Nat) : (s.setCtr k v).dune j = s.dune j := rfl
@[simp] theorem State.setCtr_wake (s : State) (k : Nat) (v : Word) (j : Nat) : (s.setCtr k v).wake j = s.wake j := rfl
@[simp] theorem State.setCtr_port (s : State) (k : Nat) (v : Word) (j : Nat) : (s.setCtr k v).port j = s.port j := rfl
@[simp] theorem State.setCtr_tensor (s : State) (k : Nat) (v : Word) (j : Nat) : (s.setCtr k v).tensor j = s.tensor j := rfl
@[simp] theorem State.setCtr_byte (s : State) (k : Nat) (v : Word) (j : Nat) : (s.setCtr k v).byte j = s.byte j := rfl
@[simp] theorem State.setCtr_guard (s : State) (k : Nat) (v : Word) (j : Nat) : (s.setCtr k v).guard j = s.guard j := rfl
@[simp] theorem State.setCtr_reg (s : State) (k : Nat) (v : Word) (j : Nat) : (s.setCtr k v).reg j = s.reg j := rfl
@[simp] theorem State.setCtr_fld (s : State) (k : Nat) (v : Word) (j lo m : Nat) : (s.setCtr k v).fld j lo m = s.fld j lo m := rfl
@[simp] theorem State.setTensor_scull (s : State) (k : Nat) (v : Tensor) (j : Nat) : (s.setTensor k v).scull j = s.scull j := rfl
@[simp] theorem State.setTensor_crew (s : State) (k : Nat) (v : Tensor) (j : Nat) : (s.setTensor k v).crew j = s.crew j := rfl
@[simp] theorem State.setTensor_erg (s : State) (k : Nat) (v : Tensor) (j : Nat) : (s.setTensor k v).erg j = s.erg j := rfl
@[simp] theorem State.setTensor_task (s : State) (k : Nat) (v : Tensor) (j : Nat) : (s.setTensor k v).task j = s.task j := rfl
@[simp] theorem State.setTensor_ring (s : State) (k : Nat) (v : Tensor) (j : Nat) : (s.setTensor k v).ring j = s.ring j := rfl
@[simp] theorem State.setTensor_mb (s : State) (k : Nat) (v : Tensor) (j : Nat) : (s.setTensor k v).mb j = s.mb j := rfl
@[simp] theorem State.setTensor_dune (s : State) (k : Nat) (v : Tensor) (j : Nat) : (s.setTensor k v).dune j = s.dune j := rfl
@[simp] theorem State.setTensor_wake (s : State) (k : Nat) (v : Tensor) (j : Nat) : (s.setTensor k v).wake j = s.wake j := rfl
@[simp] theorem State.setTensor_port (s : State) (k : Nat) (v : Tensor) (j : Nat) : (s.setTensor k v).port j = s.port j := rfl
@[simp] theorem State.setTensor_ctr (s : State) (k : Nat) (v : Tensor) (j : Nat) : (s.setTensor k v).ctr j = s.ctr j := rfl
@[simp] theorem State.setTensor_byte (s : State) (k : Nat) (v : Tensor) (j : Nat) : (s.setTensor k v).byte j = s.byte j := rfl
@[simp] theorem State.setTensor_guard (s : State) (k : Nat) (v : Tensor) (j : Nat) : (s.setTensor k v).guard j = s.guard j := rfl
@[simp] theorem State.setTensor_reg (s : State) (k : Nat) (v : Tensor) (j : Nat) : (s.setTensor k v).reg j = s.reg j := rfl
@[simp] theorem State.setTensor_fld (s : State) (k : Nat) (v : Tensor) (j lo m : Nat) : (s.setTensor k v).fld j lo m = s.fld j lo m := rfl
@[simp] theorem State.setByte_scull (s : State) (k : Nat) (v : Byte) (j : Nat) : (s.setByte k v).scull j = s.scull j := rfl
@[simp] theorem State.setByte_crew (s : State) (k : Nat) (v : Byte) (j : Nat) : (s.setByte k v).crew j = s.crew j := rfl
@[simp] theorem State.setByte_erg (s : State) (k : Nat) (v : Byte) (j : Nat) : (s.setByte k v).erg j = s.erg j := rfl
@[simp] theorem State.setByte_task (s : State) (k : Nat) (v : Byte) (j : Nat) : (s.setByte k v).task j = s.task j := rfl
@[simp] theorem State.setByte_ring (s : State) (k : Nat) (v : Byte) (j : Nat) : (s.setByte k v).ring j = s.ring j := rfl
@[simp] theorem State.setByte_mb (s : State) (k : Nat) (v : Byte) (j : Nat) : (s.setByte k v).mb j = s.mb j := rfl
@[simp] theorem State.setByte_dune (s : State) (k : Nat) (v : Byte) (j : Nat) : (s.setByte k v).dune j = s.dune j := rfl
@[simp] theorem State.setByte_wake (s : State) (k : Nat) (v : Byte) (j : Nat) : (s.setByte k v).wake j = s.wake j := rfl
@[simp] theorem State.setByte_port (s : State) (k : Nat) (v : Byte) (j : Nat) : (s.setByte k v).port j = s.port j := rfl
@[simp] theorem State.setByte_ctr (s : State) (k : Nat) (v : Byte) (j : Nat) : (s.setByte k v).ctr j = s.ctr j := rfl
@[simp] theorem State.setByte_tensor (s : State) (k : Nat) (v : Byte) (j : Nat) : (s.setByte k v).tensor j = s.tensor j := rfl
@[simp] theorem State.setByte_guard (s : State) (k : Nat) (v : Byte) (j : Nat) : (s.setByte k v).guard j = s.guard j := rfl
@[simp] theorem State.setByte_reg (s : State) (k : Nat) (v : Byte) (j : Nat) : (s.setByte k v).reg j = s.reg j := rfl
@[simp] theorem State.setByte_fld (s : State) (k : Nat) (v : Byte) (j lo m : Nat) : (s.setByte k v).fld j lo m = s.fld j lo m := rfl

end Sys2Proof.Machine
end

