-- ==== Sys2Proof/Laws/Starts.lean ====
section
/-! SUPPORT. What the beginning of a start and the loss of power leave of the state. -/

namespace Sys2Proof.Machine

open Sys2Proof.Laws Sys2Proof.Safety

/-- A key that a table does not list reads as the default. -/
theorem Tab.get_of_not {α : Type} (d : α) (t : Tab α) (k : Nat) (h : ∀ e ∈ t, e.1 ≠ k) : Tab.get d t k = d := by
  induction t with
  | nil => rfl
  | cons e r ih =>
    unfold Tab.get
    rw [if_neg (h e (by simp))]
    exact ih fun x hx => h x (by simp [hx])

/-- A stack keeps its repair fuses across a start and nothing else (R296). -/
theorem get_keptStacks (d : Tab Stack) (h : Tab.wf Stack.init d = true) (n : Nat) :
    Tab.get Stack.init (keptStacks d) n = { Stack.init with burnt := (Tab.get Stack.init d n).burnt } := by
  have key : ∀ (l a : Tab Stack), l.Pairwise (fun x y => x.1 < y.1) → Tab.wf Stack.init a = true →
      Tab.get Stack.init (l.foldl (fun a e => Tab.put Stack.init a e.1 { Stack.init with burnt := e.2.burnt }) a) n =
      if n ∈ l.map (·.1) then { Stack.init with burnt := (Tab.get Stack.init l n).burnt } else Tab.get Stack.init a n := by
    intro l
    induction l with
    | nil => intro a _ _; rfl
    | cons e r ih =>
      intro a hl ha
      rw [List.foldl_cons, ih _ (List.pairwise_cons.1 hl).2 (by rw [Tab.wf_iff]; exact Tab.okBy_put (fun _ => Stack.init) _ _ _ ((Tab.wf_iff _ _).1 ha))]
      by_cases hn : n ∈ r.map (·.1)
      · have : e.1 ≠ n := by
          obtain ⟨x, hx, rfl⟩ := List.mem_map.1 hn
          exact Nat.ne_of_lt ((List.pairwise_cons.1 hl).1 x hx)
        simp [hn, Tab.get, this]
      · by_cases he : e.1 = n
        · subst he
          have := Tab.get_put_self (fun _ => Stack.init) a e.1 { Stack.init with burnt := e.2.burnt } ((Tab.wf_iff _ _).1 ha)
          simp [hn, Tab.get, this]
        · have he' : n ≠ e.1 := fun h => he h.symm
          rw [if_neg hn, Tab.get_put_of_ne _ _ _ _ _ _ he]
          simp [hn, he']
  have hw := (Tab.wf_iff _ _).1 h
  unfold keptStacks
  rw [key d [] hw.1 rfl]
  split
  · rfl
  · rename_i hn
    have : Tab.get Stack.init d n = Stack.init := by
      clear key hw h
      induction d with
      | nil => rfl
      | cons e r ih =>
        simp at hn
        unfold Tab.get
        rw [if_neg (fun h => hn.1 h.symm)]
        exact ih (by simpa using hn.2)
    rw [this]; rfl

theorem get_absentErgs (v : Variant) (k : Nat) :
    (Tab.get Erg.init (absentErgs v) k).bow = (if v = .yd1e ∧ k < 16 then .absent else .good) := by
  unfold absentErgs
  by_cases hv : v = .yd1e
  · simp only [hv, if_true, true_and]
    by_cases hk : k < 16
    · interval_cases k <;> rfl
    · rw [if_neg hk, Tab.get_of_not]
      · rfl
      · simp only [List.mem_map, List.mem_range]
        rintro e ⟨x, hx, rfl⟩
        dsimp only
        omega
  · simp [hv]; rfl

theorem get_absentWakes (v : Variant) (k : Nat) :
    (Tab.get Wake.init (absentWakes v) k).state = (if v ≠ .yd1f ∧ k < 8 then .absent else .good) := by
  unfold absentWakes
  by_cases hv : v = .yd1f
  · simp [hv]; rfl
  · simp only [hv, if_false, ne_eq, not_false_eq_true, true_and]
    by_cases hk : k < 8
    · interval_cases k <;> rfl
    · rw [if_neg hk, Tab.get_of_not]
      · rfl
      · simp only [List.mem_map, List.mem_range]
        rintro e ⟨x, hx, rfl⟩
        dsimp only
        omega

theorem State.closeWindow_area (s : State) (i : Nat) : (s.closeWindow i).log.area = s.log.area := by
  unfold State.closeWindow
  split
  · extract_lets s1
    split
    · rfl
    · rw [State.emit_area]
  · rfl

theorem State.closeWindows_area (s : State) (n : Nat) : (s.closeWindows n).log.area = s.log.area := by
  induction n generalizing s with
  | zero => rfl
  | succ n ih =>
    unfold State.closeWindows
    split
    · rfl
    · rw [ih, State.closeWindow_area]

/-- An event that no window can suppress leaves the windows as they are, once the log is open. -/
theorem State.emit_windows (s : State) (cls ident sev code : Nat) (st : Status) (pl : List Word) (ho : s.start.logOpen = true)
    (hn : neverSuppressed sev code = true) : (s.emit cls ident sev code st pl).log.windows = s.log.windows := by
  unfold State.emit
  extract_lets s1 s2 ws src
  have e : s2.log.windows = s.log.windows := by
    dsimp only [s2]
    rw [State.reportLoss_windows]
    dsimp only [s1]
    rw [if_pos ho]
  rw [hn]
  simp only [Bool.not_true, Bool.false_and, Bool.false_eq_true, if_false]
  rw [(State.record_top s2 cls ident sev code st pl).2, hn, e]
  simp

/-- An event that no window matches is written, once the log is open. -/
theorem State.emit_top (s : State) (cls ident sev code : Nat) (st : Status) (pl : List Word) (ho : s.start.logOpen = true)
    (hw : s.log.windows = []) : (s.emit cls ident sev code st pl).topIs s cls ident sev code st pl := by
  unfold State.emit
  extract_lets s1 s2 ws src
  have e1 : s1 = s := by
    dsimp only [s1]
    rw [if_pos ho]
  have e : s2.log.windows = [] := by
    dsimp only [s2]
    rw [State.reportLoss_windows, e1, hw]
  have et : s2.etc = s.etc := by
    rw [← e1]
    exact State.reportLoss_moves.frame .etc (by decide)
  have ep : s2.nv.epoch = s.nv.epoch := by
    rw [← e1]
    exact nv_of_same (State.reportLoss_moves.frame .nv (by decide)) Nv.epoch fun _ => rfl
  rw [e]
  simp only [List.any_nil, Bool.and_false, Bool.false_eq_true, if_false]
  have := (State.record_top s2 cls ident sev code st pl).1
  unfold State.topIs at this ⊢
  rw [et, ep] at this
  exact this

/-- An open log stays open. -/
theorem State.emit_open (s : State) (cls ident sev code : Nat) (st : Status) (pl : List Word) (ho : s.start.logOpen = true) :
    (s.emit cls ident sev code st pl).start.logOpen = true := by
  unfold State.emit
  extract_lets s1 s2 ws src
  have e1 : s1 = s := by
    dsimp only [s1]
    rw [if_pos ho]
  have e : s2.start.logOpen = true := by
    rw [State.reportLoss_moves.frame .logOpen (by decide), e1]
    exact ho
  split
  · exact e
  · rw [State.record_moves.frame .logOpen (by decide)]
    exact e

/-- A close takes one window away. -/
theorem State.closeWindow_windows (s : State) (ho : s.start.logOpen = true) :
    (s.closeWindow 0).log.windows = s.log.windows.tail ∧ (s.closeWindow 0).start.logOpen = true := by
  unfold State.closeWindow
  split
  · rename_i w h
    obtain ⟨r, hr⟩ : ∃ r, s.log.windows = w :: r := by
      cases hl : s.log.windows with
      | nil => simp [hl] at h
      | cons a r => exact ⟨r, by simpa [hl] using h⟩
    extract_lets src s1
    have k : s1.log.windows = s.log.windows.tail := by
      dsimp only [s1]
      rw [hr]
      rfl
    split
    · exact ⟨k, ho⟩
    · refine ⟨?_, ?_⟩
      · rw [State.emit_windows _ _ _ _ _ _ _ (by exact ho) (by simp [neverSuppressed]), k]
      · exact State.emit_open _ _ _ _ _ _ _ ho
  · rename_i h
    refine ⟨?_, ho⟩
    cases hl : s.log.windows with
    | nil => rfl
    | cons a r => simp [hl] at h

theorem begun_of_eq {s s1 t : State} {kind cause fb : Nat} (c : canonical s)
    (hm : Moves (logged []) s s1)
    (h : ∃ st lg cr pw, st.step = 1 ∧ st.kind = kind ∧ st.cause = cause ∧ st.fallback = fb ∧ st.delayed = none ∧ st.rom = true ∧
      st.logOpen = false ∧ st.lastGood = false ∧ lg.area = s.log.area ∧ lg.windows = [] ∧
      t = { State.reset with
        pending := s1.pending, fresh := s1.fresh, tx := t.tx, start := st
        nv := { s1.nv with epoch := (s1.nv.epoch + 1) % 2 ^ 32 }
        log := lg, crash := cr, mem := s1.mem, poison := s1.poison
        dunes := keptStacks s1.dunes, ergs := absentErgs s1.nv.variant, wakes := absentWakes s1.nv.variant, pwr := pw }) :
    begun s t kind cause fb := by
  obtain ⟨st, lg, cr, pw, h1, h2, h3, h4, h5, h6, h7, h8, h9, h10, ht⟩ := h
  have ev : s1.nv.variant = s.nv.variant := (hm.frame .ident (by decide)).1
  have en : ({ s1.nv with reserved := s.nv.reserved } : Nv) = s.nv := by
    have a := hm.frame .nv (by decide)
    have b := hm.frame .ident (by decide)
    have d := hm.frame .life (by decide)
    simp only [Part.same] at a b d
    generalize s1.nv = x at a b d ⊢
    generalize s.nv = y at a b d ⊢
    cases x; cases y; simp_all
  have em : s1.mem = s.mem := hm.frame .mem (by decide)
  have ep : s1.poison = s.poison := hm.frame .poison (by decide)
  have ed : s1.dunes = s.dunes := hm.frame .dunes (by decide)
  have eq : s1.pending = s.pending := hm.frame .queue (by decide)
  have ef : s1.fresh = s.fresh := hm.frame .fresh (by decide)
  generalize t.tx = tx at ht
  subst ht
  refine ⟨⟨rfl, rfl, rfl, rfl⟩, ⟨rfl, rfl⟩, ⟨h1, h2, h3, h4, h5⟩, ⟨h6, h7, h8⟩, ?_, ?_, ⟨h9, h10⟩, ⟨em, ep⟩, fun _ => rfl,
    ⟨rfl, rfl, rfl, rfl⟩, fun _ => ⟨rfl, rfl, rfl, rfl, rfl, rfl, rfl, rfl⟩, fun k => ⟨?_, ?_⟩, fun n => ?_,
    ⟨rfl, rfl, rfl, rfl, rfl, rfl⟩, ⟨rfl, rfl, rfl, rfl⟩, ⟨eq, ef⟩⟩
  · show (s1.nv.epoch + 1) % 2 ^ 32 = _
    rw [← en]
  · rw [← en]
  · rw [← ev]; exact get_absentErgs _ k
  · rw [← ev]; exact get_absentWakes _ k
  · rw [State.dune, State.dune, ← ed]
    exact get_keptStacks s1.dunes (by rw [ed]; exact c.dunes) n

/-- What the beginning of a start leaves (R448, R449, R453, R454). -/
theorem State.beginStart_begun (s : State) (c : canonical s) (kind : StartKind) (cause : Nat) (good : Bool) :
    begun s (s.beginStart kind cause good) (if kind = .warm then (if s.fallback good = 0 then 1 else 2) else 0) cause
      (if kind = .warm then s.fallback good else 0) := by
  unfold State.beginStart
  extract_lets +onlyGivenNames fb warm crash s1 src st
  refine begun_of_eq (s1 := s1) c ?_ ⟨st, _, _, _, rfl, ?_, rfl, rfl, rfl, rfl, rfl, rfl, ?_, ?_, rfl⟩
  · dsimp only [s1]
    split
    · exact State.closeWindows_moves.via State.emit_moves (by decide)
    · exact Moves.refl _ _
  · dsimp only [st, warm, fb]
    cases kind <;> simp
  · have h : s1.log.area = s.log.area := by
      dsimp only [s1]
      split
      · rw [State.emit_area, State.closeWindows_area]
      · rfl
    split <;> exact h
  · split <;> rfl

end Sys2Proof.Machine
end

