-- ==== Sys2Proof/Tests/Slice0.lean ====
section
/-! SUPPORT. Tests. The checks of Instr.wf refuse ill-formed commands; one step on small states, with results taken from the rules
named; and for each statement of Certificates/Slice0 concrete states and operands that meet its hypotheses, clause by clause (a
hypothesis on the value of an opaque primitive is left out where it is named). -/

namespace Sys2Proof.Tests

set_option Elab.async false
set_option linter.unusedTactic false
set_option linter.unreachableTactic false
set_option linter.unusedVariables false
set_option maxRecDepth 100000

open Sys2Proof.Machine Sys2Proof.Safety

/-- `canonical` as a Boolean. -/
def canonB (s : State) : Bool :=
  Tab.wf (0 : Byte) s.mem && decide (s.poison.Pairwise (· < ·)) &&
  (decide (s.regs.Pairwise fun a b => a.1 < b.1) && decide (∀ e ∈ s.regs, e.2 ≠ resetAt e.1)) && Tab.wf (0 : Word) s.ctrs &&
  (decide (s.guards.Pairwise fun a b => a.1 < b.1) && decide (∀ e ∈ s.guards, e.2 ≠ ⟨guardReset e.1, none⟩)) &&
  Tab.wf Scull.init s.sculls && Tab.wf Crew.init s.crews && Tab.wf Erg.init s.ergs && Tab.wf Task.none s.tasks &&
  Tab.wf Ring.init s.rings && Tab.wf Mailbox.init s.mbs && Tab.wf Stack.init s.dunes && Tab.wf Wake.init s.wakes &&
  Tab.wf Port.init s.ports

theorem canonB_ok {s : State} (h : canonB s = true) : canonical s := by
  simp only [canonB, Bool.and_eq_true, decide_eq_true_eq] at h
  obtain ⟨⟨⟨⟨⟨⟨⟨⟨⟨⟨⟨⟨⟨a, b⟩, c⟩, d⟩, e⟩, f⟩, g⟩, i⟩, j⟩, k⟩, l⟩, m⟩, n⟩, o⟩ := h
  exact ⟨⟨a, b⟩, c, d, e, f, g, i, j, k, l, m, n, o⟩

theorem reachesB_ok {s : State} {off : Nat} (h : (decide (s.power = .on) && !s.absentAt off && s.answers off) = true) :
    reaches s .coxswain off := by
  simp only [Bool.and_eq_true, decide_eq_true_eq, Bool.not_eq_true'] at h
  exact ⟨h.1.1, h.1.2, h.2, fun _ e => by cases e⟩

theorem settledB_ok {s : State} (h : (s.crews.all (fun e => decide (e.2.parked = [])) && s.rings.all (fun e => decide (e.2.waiting = [])) &&
    !s.sched.busy) = true) : settled s := by
  simp only [Bool.and_eq_true, List.all_eq_true, decide_eq_true_eq, Bool.not_eq_true'] at h
  exact ⟨h.1.1, h.1.2, h.2⟩

theorem noneWaits_ok {s : State} (h : s.tier.cmd = none) : noneWaits s := fun _ => by simp [h]

/-- A device in RUNNING with its host link up and its mailboxes served. -/
def up : State :=
  { State.reset with
    dev := .running, etc := 5000000, start := { Start.init with step := 0, lastGood := true, logOpen := true, rom := false, held := true }
    host := { HostPort.init with width := 16, rate := 6, ideIo := true, ideMem := true }
    sec := { Sec.init with attReady := true }
    mbs := (List.range 9).map fun m => (m, { Mailbox.init with phase := .idle }) }

/-- A module without power. -/
def off : State := { State.reset with power := .off }

/-- A start in step n. -/
def starting (n : Nat) : State := { State.reset with start := { Start.init with step := n } }

/-- Crew 0 serves partition 0. -/
def up0 : State := { up with regs := [(0x1040020, 8), (0x02070000, 1)] }

/-- A COPY of 256 bytes from 0x1000 to 0x2000, taken from ring 0. -/
def copy : Task :=
  { Task.none with
    ring := some 0, words := [0x106, 0, 0x10000, 0xFFFFFFFF, 0, 0, 0, 0, 0x1000, 0, 0x2000, 0, 256, 1, 256, 256], state := .queued,
    placed := true }

/-- An ATTEND of one query block and one key block, whose page list has its descriptor at 0x1000. -/
def attend : Task :=
  { copy with words := [0x104, 0, 0, 0xFFFFFFFF, 0, 0, 0, 0, 0, 0, 1, 0, 0x1000, 0, 0, 0], nk := 64, chunksOut := true, state := .running }

/-- A SIGNAL of counter 0 without a start fence. -/
def sig : Task := { copy with words := [0x10B, 0, 0, 0xFFFFFFFF, 0, 0, 0, 0, 0, 0, 0, 0, 0, 0, 0, 0] }

/-- A state with one task, which scull 0 runs. -/
def with_ (t : Task) : State :=
  { up0 with
    sculls := [(0, { Scull.init with task := some 0 })], tasks := [(0, { t with scull := some 0 })]
    crews := [(0, { Crew.init with ctxHeld := [0] })], rings := [(0, { Ring.init with state := .active, live := [0] })] }

/-- A state with one task, which waits in the queue of crew 0. -/
def queued_ (t : Task) : State :=
  { up0 with
    crews := [(0, { Crew.init with queue := [0] })], rings := [(0, { Ring.init with state := .active, live := [0] })], tasks := [(0, t)] }

/-- The COPY waits in the queue of crew 1, and crew 0 takes from a queue of one. -/
def stealS : State :=
  { queued_ { copy with home := 1 } with
    crews := [(1, { Crew.init with queue := [0] })], regs := [(0x1000140, 1), (0x1040020, 8), (0x1040120, 8), (0x02070000, 1)] }

/-- The COPY runs on scull 0. -/
def running : State := with_ { copy with state := .running }

/-- A transfer of a run: 64 bytes at an address. -/
def xfer (da : Nat) : Xfer := ⟨.load, 0, da, 64, 1, 0, 0, 0, 0, [], false, false, 4000000, none, [(da, da, 64)]⟩

theorem xfer_covers {d a : Nat} (h1 : d ≤ a) (h2 : a < d + 64) : (xfer d).covers a = true := by
  simp [Xfer.covers, Xfer.ranges, xfer, h1, h2]

/-- A running task in front of an expired deadline of tensor 0. -/
def lateS (t : Task) (w : Bool) (x : Tensor) : State :=
  { with_ { t with state := .running, flying := [{ xfer 0x5000 with weight := w, home := some 0 }] } with
    regs := [(0x1040020, 8), (0x02030040, 10), (0x02030100, 0x20000), (0x02070000, 1)]
    tier := { Tier.init with tensors := [(0, { x with state := .atHome, size := 0x200000 })] } }

/-- A swap-in request for page 0 of the list at 0x1000, whose entry names a host slot; ring 0 of frames holds frame 0. -/
def swapS : State :=
  { up with
    regs := [(0x02010000, 0x8000), (0x02010008, 0x20), (0x02010104, 1)], mem := [(3, 0x40), (0x1008, 1)]
    kv := { Kv.init with tail := [(0, 1)], swaps := [⟨0x1000, 0, [], false, true⟩] } }

/-- One descriptor read of ring 0 is out. -/
def descS : State := { up0 with rings := [(0, { Ring.init with state := .active, reads := [(0, 1)] })] }

/-- The host holds the COPY's descriptor in slot 0. -/
def copyHost : List Cell := wordCells hostBase copy.words

/-- A session record of 16 × 16 in FP16 with its tensor at 0x10000, and one of a single position. -/
def ses16 : List Byte := leBytes 4 0 ++ leBytes 8 0x10001000100010 ++ leBytes 4 0 ++ leBytes 8 0x10000 ++ leBytes 4 1 ++ List.replicate 228 0
def ses1 : Session := ⟨leBytes 4 0 ++ leBytes 8 0x1000100010001 ++ leBytes 4 0 ++ leBytes 8 0x10000 ++ leBytes 4 1 ++ List.replicate 228 0, 0, 0, none⟩

/-- Engine 0 with one job in its ring 0, and a session record at 0x1000. -/
def wakeS (st : UnitState) (job : List Word) (ss : Tab (Option Session)) : State :=
  State.store { up with
    regs := [(0x340000C, 1), (0x3400028, 0x24)], wakes := [(0, { Wake.init with state := st, tail := [(0, 1)], sessions := ss })] }
    (wordCells 0 job ++ cellsAt 0x1000 ses16)

/-- Engine 0 runs a job of pipe r. -/
def wakeJ (r : Nat) (ends : Option Status) : State :=
  { up with wakes := [(0, { Wake.init with sessions := [(r, some ses1)], jobs := [(r, some ⟨[2], 0, 0, 0, ends, true, [], 0, 0⟩)] })] }

/-- An encoder's session of a single position with two pool buffers. -/
def sesE : Session := ⟨leBytes 4 0x30001 ++ ses1.record.drop 4, 0, 0, none⟩

/-- Engine 0 with a RUN of one frame in its ring 1. -/
def wakeE : State :=
  State.store { up with
    regs := [(0x340000C, 1), (0x3400048, 0x24)], wakes := [(0, { Wake.init with tail := [(1, 1)], sessions := [(1, some sesE)] })] }
    (wordCells 0 [2, 0, 0, 0xFFFFFFFF, 0, 0, 0x1000, 0, 256, 1, 0, 3, 0, 0, 0, 0])

/-- What a step answers. -/
def nextOf : Host.Outcome State Fault Refusal → State
  | .next t => t
  | _ => State.reset

theorem nextOf_eq {o : Host.Outcome State Fault Refusal} (h : (match o with | .next _ => true | _ => false) = true) : o = .next (nextOf o) := by
  cases o <;> first | rfl | cases h

/-- A port in a state. -/
def port_ (st : PortState) : State := { up with ports := [(0, { Port.init with state := st, peer := 1 })] }

/-- A flit with a header of 8 bytes and its CRC. -/
def flitOf (h : Nat) : List Byte :=
  let b := leBytes 8 h ++ List.replicate 244 0
  b ++ leBytes 4 (crc32 b).toNat

/-- A read request of no data to module d. -/
def frame_ (d : Nat) : Frame := ⟨[0x20, 0, 0, 0, BitVec.ofNat 8 d] ++ List.replicate 11 0 ++ leBytes 8 1 ++ List.replicate 8 0, [], [], 1, true⟩

/-- A message from module 1 over `n` bytes at 0. -/
def msg_ (n : Nat) (data : List Byte) : Msg := ⟨1, false, false, 0, 0, 0, 0, 7, 0, n, data⟩

/-- Port 0 is ADMITTED, and the first 2 MiB are open to every module. -/
def openS : State := { port_ .admitted with regs := [(expReg 0 4, 1), (expReg 0 8, 0x1E000)] }

/-- An epoch runs under key 0, and port 0 is ADMITTED. -/
def collS (c : Coll) : State := { port_ .admitted with colls := ⟨[(0, c)], [], []⟩ }

/-- An epoch of group 0 runs under key 7. -/
def collT (c : Coll) : State := { up with colls := ⟨[(7, c)], [], []⟩ }

/-- Group 0 has two members; this module has rank 1, module 1 is its parent, and `w` more is in its second word. -/
def groupS (w : Byte) : State := State.store (port_ .admitted) [(0, 2), (2, 1), (3, 0x80), (4, 1), (5, w), (8, 3)]

/-- A message of epoch 1. -/
def msg1 : Msg := { msg_ 0 [] with epoch := 1 }

/-- Partition 1 may reclaim crew 0 from the best-effort partition 0, which keeps crew 1. -/
def loanS : State := { up with regs := [(0x1040020, 0x98), (0x1040120, 8), (0x02070000, 3), (0x02070010, 1)] }

/-- Partition 1 has taken crew 0 on loan. -/
def lentS : State := { loanS with crews := [(0, { Crew.init with serving := some 1 })] }

theorem reachesH_ok {s : State} {id : BitVec 16} {off : Nat} (h : (decide (s.power = .on) && !s.absentAt off && s.answers off &&
    decide (s.host.rate ≠ 0) && s.locked 25 && s.ideOpen) = true) : reaches s (.host id) off := by
  simp only [Bool.and_eq_true, decide_eq_true_eq, Bool.not_eq_true'] at h
  exact ⟨h.1.1.1.1.1, h.1.1.1.1.2, h.1.1.1.2, fun _ _ => ⟨h.1.1.2, h.1.2, h.2⟩⟩

theorem one_key {α : Type} {d v : α} {j : Nat} (h : j ≠ 0) : Tab.get d [(0, v)] j = d := by simp [Tab.get, h.symm]

/-- A mailbox command with a payload, from host function 5. -/
def cmd_ (p : List Byte) : MbCmd := ⟨0, 5, 0, 7, BitVec.ofNat 32 p.length, 0, p⟩

/-- A device in a state. -/
def in_ (d : DevState) : State := { up with dev := d }

/-- A Cairn registration of one range. -/
def cairn_ : Cairn :=
  { Cairn.init with registered := true, parts := 1, entries := [(0x10000, 256, 0x20000)], target0 := hostBase, target1 := hostBase + 0x100000 }

/-- A registered device with its Cairn engine in a phase. -/
def cairnS (p : CairnPhase) : State := { up with cairn := { cairn_ with phase := p } }

/-- The registration record of that range. -/
def cairnRec : List Byte :=
  [1, 0] ++ leBytes 2 1 ++ leBytes 4 0 ++ leBytes 8 hostBase ++ leBytes 8 (hostBase + 0x100000) ++ leBytes 8 0 ++ leBytes 8 0x10000 ++
    leBytes 8 256 ++ leBytes 8 0x20000 ++ leBytes 8 0

/-- A device in READY whose target 0 holds a checkpoint. -/
def savedS : State :=
  State.store { in_ .ready with cairn := cairn_ } [(hostBase, 1), (hostBase + 4, 1), (hostBase + 12, 1), (hostBase + 0x41, 1)]

/-- A pending value of a guarded pair. -/
def gS (r : Nat) (v : Word) (armer : Requester) : State := { up with guards := [(r, ⟨guardReset r, some (v, armer, 0)⟩)] }

/-- A measurement. -/
def sample_ (vin : Nat) : PowerSample := ⟨9000, vin, List.replicate 16 750, List.replicate 16 700, List.replicate 16 60, List.replicate 4 60, false⟩

/-- The rows whose span may reach the crews' block. -/
def crewRows : List RegDef := regTable.filter fun d => decide (d.base < 0x2000000) && decide (0x1040000 ≤ d.base + d.n1 * d.s1 + d.n2 * d.s2)

theorem has_span {d : RegDef} {off : Nat} (h : d.has off = true) : d.base ≤ off ∧ off ≤ d.base + d.n1 * d.s1 + d.n2 * d.s2 := by
  simp only [RegDef.has, Bool.and_eq_true, decide_eq_true_eq] at h
  obtain ⟨⟨⟨a, b⟩, c⟩, e⟩ := h
  refine ⟨a, ?_⟩
  have lt : ∀ {x q n : Nat}, x / q < n → x % q + q * (x / q) = x → x ≤ n * q + x % q := fun {x q n} h e => by
    have := Nat.mul_le_mul_right q h.le
    rw [Nat.mul_comm q] at e; omega
  split_ifs at b c e
  · omega
  · have := lt c (Nat.mod_add_div _ _); omega
  · have := lt b (Nat.mod_add_div _ _); omega
  · have h1 := lt b (Nat.mod_add_div _ _); have h2 := lt c (Nat.mod_add_div _ _); omega

theorem regDef_crew {off : Nat} (h1 : 0x1040000 ≤ off) (h2 : off < 0x2000000) : regDef off = crewRows.find? (·.has off) := by
  rw [regDef, crewRows, List.find?_filter]
  congr 1; funext d
  cases h : d.has off
  · simp
  · have := has_span h
    simp; omega

theorem loan_bits (c : Nat) (h : c < 768) : loanS.fld (crewReg c 0x20) 7 1 = if c = 0 then 1 else 0 := by
  have e : loanS.fld (crewReg c 0x20) 7 1 =
      bits (Tab.get (((crewRows.find? (·.has (crewReg c 0x20))).map RegDef.resetWord).getD 0) loanS.regs (crewReg c 0x20)) 7 1 := by
    rw [State.fld, State.reg, resetAt, regDef_crew] <;> unfold crewReg <;> omega
  rw [e]
  have : ∀ c, c < 768 → bits (Tab.get (((crewRows.find? (·.has (crewReg c 0x20))).map RegDef.resetWord).getD 0) loanS.regs (crewReg c 0x20)) 7 1
    = if c = 0 then 1 else 0 := by decide +kernel
  exact this c h

/-- Whatever crew 0 has to do, it is the one crew that a RECLAIM of partition 1 moves. -/
theorem movers_loan {s : State} (h : s.regs = loanS.regs) (g : s.reclaimable 1 0 = true) : s.movers 1 1 = [0] := by
  have e : s.movers 1 1 = (List.range 768).filter fun c => c == 0 := by
    unfold State.movers
    apply List.filter_congr
    intro c hc
    by_cases z : c = 0
    · subst z; simpa using g
    · have b := loan_bits c (List.mem_range.mp hc)
      rw [if_neg z] at b
      have b' : s.fld (crewReg c 0x20) 7 1 = 0 := by rw [← b]; simp only [State.fld, State.reg, h]
      simp [State.reclaimable, b', z]
  rw [e]; decide +kernel

theorem hyps_coldStartBegins :
    (∃ (s : State), canonical s ∧ s.power ≠ .on) ∧
    (∃ (s : State), canonical s ∧ s.power = .off) ∧
    (∃ (s : State) (k : _) (c : _) (due : _), canonical s ∧ s.power = .on ∧ s.start.delayed = some (k, c, due) ∧ s.start.retryAt = true ∧ due ≤ s.etc) ∧
    (∃ (s : State), s.power = .on) ∧
    (∃ (s : State), s.power ≠ .off) := by
  refine ⟨⟨off, ?_⟩,
    ⟨off, ?_⟩,
    ⟨{ up with start := { up.start with delayed := some (.cold, 3, 10), retryAt := true } }, .cold, 3, 10, ?_⟩,
    ⟨up, ?_⟩,
    ⟨up, ?_⟩⟩ <;>
  repeat' first | exact canonB_ok (by decide +kernel) | decide +kernel | exact reachesB_ok (by decide +kernel) | exact settledB_ok (by decide +kernel) | exact Or.inl ⟨by decide +kernel, reachesH_ok (by decide +kernel)⟩ | refine And.intro ?_ ?_ | rfl | (intro _ h; cases h; done) | (intro _ _ h; cases h; done) | (intro _ _ _ h; cases h; done) | exact noneWaits_ok rfl | (unfold wellFormed; decide +kernel) | exact ⟨0, by decide +kernel⟩ | exact ⟨1, by decide +kernel⟩ | exact Or.inl ⟨_, rfl⟩ | exact Or.inl (by decide +kernel) | exact Or.inr (by decide +kernel) | constructor
theorem hyps_coldStartBegins_6 : ∃ (s : State), ((∀ k c due, s.start.delayed = some (k, c, due) → s.power = .on → s.start.retryAt = true → s.etc < due)) :=
  ⟨up, by intro _ _ _ h; cases h⟩

theorem hyps_warmStartBegins :
    (∃ (s : State) (ns : _), canonical s ∧ s.power = .on ∧ 1000 ≤ ns) ∧
    (∃ (s : State) (c : _) (due : _), canonical s ∧ s.power = .on ∧ s.start.delayed = some (.warm, c, due) ∧ s.start.retryAt = false ∧ due ≤ s.etc) ∧
    (∃ (s : State) (c : _) (due : _), canonical s ∧ s.power = .on ∧ s.start.delayed = some (.cold, c, due) ∧ s.start.retryAt = false ∧ due ≤ s.etc) ∧
    (∃ (s : State), s.start.held = true ∧ s.start.changed = false ∧ s.start.lastGood = true) ∧
    (∃ (s : State), s.start.held = false) ∧
    (∃ (s : State), s.start.held = true ∧ s.start.changed = true) ∧
    (∃ (s : State), s.start.held = true ∧ s.start.changed = false ∧ s.start.lastGood = false) ∧
    (∃ (s : State) (ns : _), (s.power ≠ .on ∨ ns < 1000)) := by
  refine ⟨⟨up, 1000, ?_⟩,
    ⟨{ up with start := { up.start with delayed := some (.warm, 3, 10), retryAt := false } }, 3, 10, ?_⟩,
    ⟨{ up with start := { up.start with delayed := some (.cold, 3, 10), retryAt := false } }, 3, 10, ?_⟩,
    ⟨up, ?_⟩,
    ⟨{ up with start := { up.start with held := false } }, ?_⟩,
    ⟨{ up with start := { up.start with changed := true } }, ?_⟩,
    ⟨{ up with start := { up.start with lastGood := false } }, ?_⟩,
    ⟨up, 999, ?_⟩⟩ <;>
  repeat' first | exact canonB_ok (by decide +kernel) | decide +kernel | exact reachesB_ok (by decide +kernel) | exact settledB_ok (by decide +kernel) | exact Or.inl ⟨by decide +kernel, reachesH_ok (by decide +kernel)⟩ | refine And.intro ?_ ?_ | rfl | (intro _ h; cases h; done) | (intro _ _ h; cases h; done) | (intro _ _ _ h; cases h; done) | exact noneWaits_ok rfl | (unfold wellFormed; decide +kernel) | exact ⟨0, by decide +kernel⟩ | exact ⟨1, by decide +kernel⟩ | exact Or.inl ⟨_, rfl⟩ | exact Or.inl (by decide +kernel) | exact Or.inr (by decide +kernel) | constructor
theorem hyps_warmStartBegins_9 : ∃ (s : State), ((∀ k c due, s.start.delayed = some (k, c, due) → s.power = .on → s.start.retryAt = false → s.etc < due)) :=
  ⟨up, by intro _ _ _ h; cases h⟩

theorem hyps_powerLost :
    (∃ (s : State), canonical s ∧ s.power = .on) ∧
    (∃ (s : State) (a : _), canonical s ∧ s.power = .on ∧ s.pwr.offAt = some a ∧ a ≤ s.etc) ∧
    (∃ (s : State), s.power ≠ .on) := by
  refine ⟨⟨up, ?_⟩,
    ⟨{ up with pwr := { up.pwr with offAt := some 10 } }, 10, ?_⟩,
    ⟨off, ?_⟩⟩ <;>
  repeat' first | exact canonB_ok (by decide +kernel) | decide +kernel | exact reachesB_ok (by decide +kernel) | exact settledB_ok (by decide +kernel) | exact Or.inl ⟨by decide +kernel, reachesH_ok (by decide +kernel)⟩ | refine And.intro ?_ ?_ | rfl | (intro _ h; cases h; done) | (intro _ _ h; cases h; done) | (intro _ _ _ h; cases h; done) | exact noneWaits_ok rfl | (unfold wellFormed; decide +kernel) | exact ⟨0, by decide +kernel⟩ | exact ⟨1, by decide +kernel⟩ | exact Or.inl ⟨_, rfl⟩ | exact Or.inl (by decide +kernel) | exact Or.inr (by decide +kernel) | constructor
theorem hyps_powerLost_4 : ∃ (s : State), ((∀ a, s.pwr.offAt = some a → s.power = .on → s.etc < a)) :=
  ⟨up, by intro _ h; cases h⟩

theorem hyps_startStepsOneToFour :
    (∃ (s : State), inStep 1 s) ∧
    (∃ (s : State), inStep 2 s) ∧
    (∃ (s : State), inStep 3 s) ∧
    (∃ (s : State) (r : StepReport), inStep 4 s ∧ r.phyFail = []) ∧
    (∃ (s : State) (r : StepReport) (n : Nat) (p : Nat), inStep 4 s ∧ canonical s ∧ r.phyFail = [(n, p)]) := by
  refine ⟨⟨starting 1, ?_⟩,
    ⟨starting 2, ?_⟩,
    ⟨starting 3, ?_⟩,
    ⟨starting 4, ⟨false, false, false, false, 16, 6, true, [], [], [], [], [], [], [], []⟩, ?_⟩,
    ⟨starting 4, ⟨false, false, false, false, 16, 6, true, [(0, 1)], [], [], [], [], [], [], []⟩, 0, 1, ?_⟩⟩ <;>
  repeat' first | exact canonB_ok (by decide +kernel) | decide +kernel | exact reachesB_ok (by decide +kernel) | exact settledB_ok (by decide +kernel) | exact Or.inl ⟨by decide +kernel, reachesH_ok (by decide +kernel)⟩ | refine And.intro ?_ ?_ | rfl | (intro _ h; cases h; done) | (intro _ _ h; cases h; done) | (intro _ _ _ h; cases h; done) | exact noneWaits_ok rfl | (unfold wellFormed; decide +kernel) | exact ⟨0, by decide +kernel⟩ | exact ⟨1, by decide +kernel⟩ | exact Or.inl ⟨_, rfl⟩ | exact Or.inl (by decide +kernel) | exact Or.inr (by decide +kernel) | constructor

theorem hyps_startStepsFiveToNine :
    (∃ (s : State) (r : StepReport), inStep 5 s ∧ r.sculls = [] ∧ r.seifs = [] ∧ r.bows = [] ∧ r.wakes = [] ∧ s.nv.fused = [] ∧ s.nv.spareSculls = [] ∧ s.nv.testFails = [] ∧ ((∃ c, c < 768 ∧ (s.crew c).state = .good))) ∧
    (∃ (s : State) (r : StepReport), inStep 5 s ∧ r.sculls = [] ∧ r.seifs = [] ∧ r.bows = [] ∧ r.wakes = [] ∧ s.nv.fused = [] ∧ s.nv.spareSculls = [] ∧ s.nv.testFails = [] ∧ ((∀ c, c < 768 → (s.crew c).state ≠ .good))) ∧
    (∃ (s : State) (r : StepReport) (k : Nat), inStep 5 s ∧ r.sculls = [] ∧ r.seifs = [] ∧ r.bows = [] ∧ r.wakes = [] ∧ s.nv.fused = [k] ∧ s.nv.spareSculls = [] ∧ s.nv.testFails = [] ∧ k < 12288 ∧ k % 16 ≠ 0 ∧ (s.scull (k / 16 * 16)).state = .good ∧ ((∃ c, c < 768 ∧ (s.crew c).state = .good))) ∧
    (∃ (s : State) (r : StepReport), inStep 6 s ∧ s.nv.repairs = [] ∧ s.nv.chRepairs = [] ∧ s.nv.chReplaced = [] ∧ r.phyFail = [] ∧ s.dunes = []) ∧
    (∃ (s : State) (r : StepReport) (n : Nat) (lchan : Nat) (bank : Nat) (row : Nat), inStep 6 s ∧ n < 48 ∧ s.nv.repairs = [(n, lchan, bank, row)] ∧ s.nv.chRepairs = [] ∧ s.nv.chReplaced = [] ∧ r.phyFail = [] ∧ s.dunes = []) ∧
    (∃ (s : State), inStep 7 s) ∧
    (∃ (s : State), inStep 8 s) ∧
    (∃ (s : State), inStep 9 s ∧ s.nv.lifecycle ≠ 5 ∧ numAt s.nv.runImage 0xA 1 = 0) ∧
    (∃ (s : State), inStep 9 s ∧ s.nv.lifecycle = 5) := by
  refine ⟨⟨starting 5, ⟨false, false, false, false, 16, 6, true, [], [], [], [], [], [], [], []⟩, ?_⟩,
    ⟨{ starting 5 with crews := (List.range 768).map fun c => (c, { Crew.init with state := .retired }) }, ⟨false, false, false, false, 16, 6, true, [], [], [], [], [], [], [], []⟩, ?_⟩,
    ⟨{ starting 5 with nv := { Nv.init with fused := [1] } }, ⟨false, false, false, false, 16, 6, true, [], [], [], [], [], [], [], []⟩, 1, ?_⟩,
    ⟨starting 6, ⟨false, false, false, false, 16, 6, true, [], [], [], [], [], [], [], []⟩, ?_⟩,
    ⟨{ starting 6 with nv := { Nv.init with repairs := [(47, 127, 31, 16383)] } }, ⟨false, false, false, false, 16, 6, true, [], [], [], [], [], [], [], []⟩, 47, 127, 31, 16383, ?_⟩,
    ⟨starting 7, ?_⟩,
    ⟨starting 8, ?_⟩,
    ⟨starting 9, ?_⟩,
    ⟨{ starting 9 with nv := { Nv.init with lifecycle := 5 } }, ?_⟩⟩ <;>
  repeat' first | exact canonB_ok (by decide +kernel) | decide +kernel | exact reachesB_ok (by decide +kernel) | exact settledB_ok (by decide +kernel) | exact Or.inl ⟨by decide +kernel, reachesH_ok (by decide +kernel)⟩ | refine And.intro ?_ ?_ | rfl | (intro _ h; cases h; done) | (intro _ _ h; cases h; done) | (intro _ _ _ h; cases h; done) | exact noneWaits_ok rfl | (unfold wellFormed; decide +kernel) | exact ⟨0, by decide +kernel⟩ | exact ⟨1, by decide +kernel⟩ | exact Or.inl ⟨_, rfl⟩ | exact Or.inl (by decide +kernel) | exact Or.inr (by decide +kernel) | constructor

theorem hyps_startStepLimit :
    (∃ (s : State) (n : Nat), inStep n s ∧ 1 ≤ n ∧ n ≤ 8 ∧ s.start.at_ + stepLimit (decide (s.start.kind ≠ 1)) n * 1000 < s.etc) ∧
    (∃ (s : State), inStep 9 s ∧ s.start.keyAt + 1500000 < s.etc) ∧
    (∃ (s : State) (n : Nat), inStep n s ∧ n ≤ 8 ∧ s.etc ≤ s.start.at_ + stepLimit (decide (s.start.kind ≠ 1)) n * 1000) ∧
    (∃ (s : State), (s.power ≠ .on ∨ s.dev ≠ .starting)) := by
  refine ⟨⟨{ starting 1 with etc := 2000000000 }, 1, ?_⟩,
    ⟨{ starting 9 with etc := 1500001 }, ?_⟩,
    ⟨starting 8, 8, ?_⟩,
    ⟨up, ?_⟩⟩ <;>
  repeat' first | exact canonB_ok (by decide +kernel) | decide +kernel | exact reachesB_ok (by decide +kernel) | exact settledB_ok (by decide +kernel) | exact Or.inl ⟨by decide +kernel, reachesH_ok (by decide +kernel)⟩ | refine And.intro ?_ ?_ | rfl | (intro _ h; cases h; done) | (intro _ _ h; cases h; done) | (intro _ _ _ h; cases h; done) | exact noneWaits_ok rfl | (unfold wellFormed; decide +kernel) | exact ⟨0, by decide +kernel⟩ | exact ⟨1, by decide +kernel⟩ | exact Or.inl ⟨_, rfl⟩ | exact Or.inl (by decide +kernel) | exact Or.inr (by decide +kernel) | constructor

theorem hyps_coxswainFaults :
    (∃ (c : _) (cause : _) (s : State), (c, cause) ∈ [(Instr.lockstepMismatch, 1), (Instr.coxWatchdogExpiry, 2)] ∧ canonical s ∧ s.power = .on ∧ s.dev ∈ [DevState.ready, .running, .quiescing, .quiesced]) ∧
    (∃ (c : _) (cause : _) (s : State), (c, cause) ∈ [(Instr.lockstepMismatch, 1), (Instr.coxWatchdogExpiry, 2)] ∧ s.power = .on ∧ s.dev = .faulted) ∧
    (∃ (c : _) (cause : _) (s : State) (n : Nat), (c, cause) ∈ [(Instr.lockstepMismatch, 1), (Instr.coxWatchdogExpiry, 2)] ∧ inStep n s ∧ n ≠ 0) ∧
    (∃ (c : _) (cause : _) (s : State), (c, cause) ∈ [(Instr.lockstepMismatch, 1), (Instr.coxWatchdogExpiry, 2)] ∧ (s.power ≠ .on ∨ s.dev = .recovery ∨ s.dev = .retired ∨ s.dev = .starting ∧ s.start.step = 0)) := by
  refine ⟨⟨.lockstepMismatch, 1, up, ?_⟩,
    ⟨.coxWatchdogExpiry, 2, { up with dev := .faulted }, ?_⟩,
    ⟨.lockstepMismatch, 1, starting 1, 1, ?_⟩,
    ⟨.coxWatchdogExpiry, 2, { up with dev := .recovery }, ?_⟩⟩ <;>
  repeat' first | exact canonB_ok (by decide +kernel) | decide +kernel | exact reachesB_ok (by decide +kernel) | exact settledB_ok (by decide +kernel) | exact Or.inl ⟨by decide +kernel, reachesH_ok (by decide +kernel)⟩ | refine And.intro ?_ ?_ | rfl | (intro _ h; cases h; done) | (intro _ _ h; cases h; done) | (intro _ _ _ h; cases h; done) | exact noneWaits_ok rfl | (unfold wellFormed; decide +kernel) | exact ⟨0, by decide +kernel⟩ | exact ⟨1, by decide +kernel⟩ | exact Or.inl ⟨_, rfl⟩ | exact Or.inl (by decide +kernel) | exact Or.inr (by decide +kernel) | constructor

theorem hyps_entropyFault :
    (∃ (s : State), canonical s ∧ s.power = .on ∧ s.dev ∈ [DevState.ready, .running, .quiescing, .quiesced]) ∧
    (∃ (s : State) (n : Nat), inStep n s ∧ n ≠ 0) ∧
    (∃ (s : State), canonical s ∧ s.power = .on ∧ s.dev ∈ [DevState.recovery, .retired]) ∧
    (∃ (s : State), canonical s ∧ s.power = .on ∧ s.dev = .faulted) ∧
    (∃ (s : State), s.power ≠ .on) := by
  refine ⟨⟨{ up with dev := .quiesced }, ?_⟩,
    ⟨starting 9, 9, ?_⟩,
    ⟨{ up with dev := .retired }, ?_⟩,
    ⟨{ up with dev := .faulted }, ?_⟩,
    ⟨off, ?_⟩⟩ <;>
  repeat' first | exact canonB_ok (by decide +kernel) | decide +kernel | exact reachesB_ok (by decide +kernel) | exact settledB_ok (by decide +kernel) | exact Or.inl ⟨by decide +kernel, reachesH_ok (by decide +kernel)⟩ | refine And.intro ?_ ?_ | rfl | (intro _ h; cases h; done) | (intro _ _ h; cases h; done) | (intro _ _ _ h; cases h; done) | exact noneWaits_ok rfl | (unfold wellFormed; decide +kernel) | exact ⟨0, by decide +kernel⟩ | exact ⟨1, by decide +kernel⟩ | exact Or.inl ⟨_, rfl⟩ | exact Or.inl (by decide +kernel) | exact Or.inr (by decide +kernel) | constructor

theorem hyps_islandLoss :
    (∃ (s : State) (i : Nat), canonical s ∧ Tab.wf 0 s.islands = true ∧ s.power = .on ∧ i < 40 ∧ s.locked i = true) ∧
    (∃ (s : State) (i : Nat), (s.power ≠ .on ∨ 40 ≤ i ∨ s.locked i = false)) := by
  refine ⟨⟨up, 39, ?_⟩,
    ⟨up, 40, ?_⟩⟩ <;>
  repeat' first | exact canonB_ok (by decide +kernel) | decide +kernel | exact reachesB_ok (by decide +kernel) | exact settledB_ok (by decide +kernel) | exact Or.inl ⟨by decide +kernel, reachesH_ok (by decide +kernel)⟩ | refine And.intro ?_ ?_ | rfl | (intro _ h; cases h; done) | (intro _ _ h; cases h; done) | (intro _ _ _ h; cases h; done) | exact noneWaits_ok rfl | (unfold wellFormed; decide +kernel) | exact ⟨0, by decide +kernel⟩ | exact ⟨1, by decide +kernel⟩ | exact Or.inl ⟨_, rfl⟩ | exact Or.inl (by decide +kernel) | exact Or.inr (by decide +kernel) | constructor

theorem hyps_islandRecovery :
    (∃ (s : State), Tab.wf 0 s.islands = true ∧ s.power = .on) ∧
    (∃ (s : State) (i : Nat), canonical s ∧ s.power = .on ∧ Tab.get 0 s.islands i ≠ 0 ∧ Tab.get 0 s.islands i + 1000 ≤ s.etc) ∧
    (∃ (s : State) (i : Nat), (s.power ≠ .on ∨ Tab.get 0 s.islands i = 0 ∨ s.etc < Tab.get 0 s.islands i + 1000)) := by
  refine ⟨⟨up, ?_⟩,
    ⟨{ up with islands := [(0, 1)], etc := 1001 }, 0, ?_⟩,
    ⟨{ up with islands := [(0, 1)], etc := 1000 }, 0, ?_⟩⟩ <;>
  repeat' first | exact canonB_ok (by decide +kernel) | decide +kernel | exact reachesB_ok (by decide +kernel) | exact settledB_ok (by decide +kernel) | exact Or.inl ⟨by decide +kernel, reachesH_ok (by decide +kernel)⟩ | refine And.intro ?_ ?_ | rfl | (intro _ h; cases h; done) | (intro _ _ h; cases h; done) | (intro _ _ _ h; cases h; done) | exact noneWaits_ok rfl | (unfold wellFormed; decide +kernel) | exact ⟨0, by decide +kernel⟩ | exact ⟨1, by decide +kernel⟩ | exact Or.inl ⟨_, rfl⟩ | exact Or.inl (by decide +kernel) | exact Or.inr (by decide +kernel) | constructor

theorem hyps_delayLinesAndBeats :
    (∃ (s : State) (c : Nat) (m : Nat), canonical s ∧ s.background = true ∧ (s.crew c).state = .good ∧ 60 ≤ m) ∧
    (∃ (s : State) (c : Nat) (m : Nat), canonical s ∧ Tab.wf 0 s.nv.taps = true ∧ s.background = true ∧ (s.crew c).state = .good ∧ m < 60) ∧
    (∃ (s : State) (k : Nat) (m : Nat), canonical s ∧ s.background = true ∧ (s.crew (k / 16)).state = .good ∧ m < 60 ∧ spareable k s) ∧
    (∃ (s : State) (c : Nat) (m : Nat), canonical s ∧ s.background = true ∧ m < 60 ∧ crewIdle c s) ∧
    (∃ (s : State) (c : Nat) (m : Nat), canonical s ∧ s.background = true ∧ (s.crew c).state = .good ∧ m < 60 ∧ bowIdle (c / 48) s) ∧
    (∃ (s : State) (c : Nat), (s.background = false ∨ (s.crew c).state ≠ .good)) ∧
    (∃ (s : State) (d : Nat), canonical s ∧ s.power = .on ∧ s.timer = true ∧ s.etc % 100 = 0 ∧ (s.erg d).windows < s.etc / 100) ∧
    (∃ (s : State) (d : Nat), (s.power ≠ .on ∨ s.timer = false ∨ s.etc % 100 ≠ 0 ∨ s.etc / 100 ≤ (s.erg d).windows)) := by
  refine ⟨⟨up, 0, 60, ?_⟩,
    ⟨up, 767, 59, ?_⟩,
    ⟨up, 0, 59, ?_⟩,
    ⟨up, 0, 59, ?_⟩,
    ⟨up, 0, 59, ?_⟩,
    ⟨{ up with dev := .starting }, 0, ?_⟩,
    ⟨up, 15, ?_⟩,
    ⟨{ up with etc := 1 }, 0, ?_⟩⟩ <;>
  repeat' first | exact canonB_ok (by decide +kernel) | decide +kernel | exact reachesB_ok (by decide +kernel) | exact settledB_ok (by decide +kernel) | exact Or.inl ⟨by decide +kernel, reachesH_ok (by decide +kernel)⟩ | refine And.intro ?_ ?_ | rfl | (intro _ h; cases h; done) | (intro _ _ h; cases h; done) | (intro _ _ _ h; cases h; done) | exact noneWaits_ok rfl | (unfold wellFormed; decide +kernel) | exact ⟨0, by decide +kernel⟩ | exact ⟨1, by decide +kernel⟩ | exact Or.inl ⟨_, rfl⟩ | exact Or.inl (by decide +kernel) | exact Or.inr (by decide +kernel) | constructor

theorem hyps_scullMismatch :
    (∃ (s : State) (k : Nat) (id : Nat), runs k id s ∧ mismatches s k < s.resLimit (k / 768)) ∧
    (∃ (s : State) (k : Nat) (id : Nat), runs k id s ∧ s.resLimit (k / 768) ≤ mismatches s k ∧ (s.scull k).suspended = [] ∧ ((∃ i, i < 16 ∧ k / 16 * 16 + i ≠ k ∧ (s.scull (k / 16 * 16 + i)).state = .good))) ∧
    (∃ (s : State) (k : Nat) (id : Nat), runs k id s ∧ memErrors s k < s.ueLimit (k / 768)) ∧
    (∃ (s : State) (k : Nat) (id : Nat), runs k id s ∧ s.ueLimit (k / 768) ≤ memErrors s k ∧ (s.scull k).suspended = [] ∧ ((∃ i, i < 16 ∧ k / 16 * 16 + i ≠ k ∧ (s.scull (k / 16 * 16 + i)).state = .good))) ∧
    (∃ (s : State) (k : Nat), ((s.scull k).task = none ∨ s.power ≠ .on ∨ (s.scull k).state ≠ .good)) := by
  refine ⟨⟨running, 0, 0, ?_⟩,
    ⟨{ running with sculls := [(0, { Scull.init with task := some 0, resTimes := [5000000, 5000000, 5000000, 5000000, 5000000, 5000000, 5000000, 5000000] })] }, 0, 0, ?_⟩,
    ⟨running, 0, 0, ?_⟩,
    ⟨{ running with sculls := [(0, { Scull.init with task := some 0, ueTimes := [5000000, 5000000, 5000000, 5000000, 5000000, 5000000, 5000000, 5000000] })] }, 0, 0, ?_⟩,
    ⟨up, 0, ?_⟩⟩ <;>
  repeat' first | exact canonB_ok (by decide +kernel) | decide +kernel | exact reachesB_ok (by decide +kernel) | exact settledB_ok (by decide +kernel) | exact Or.inl ⟨by decide +kernel, reachesH_ok (by decide +kernel)⟩ | refine And.intro ?_ ?_ | rfl | (intro _ h; cases h; done) | (intro _ _ h; cases h; done) | (intro _ _ _ h; cases h; done) | exact noneWaits_ok rfl | (unfold wellFormed; decide +kernel) | exact ⟨0, by decide +kernel⟩ | exact ⟨1, by decide +kernel⟩ | exact Or.inl ⟨_, rfl⟩ | exact Or.inl (by decide +kernel) | exact Or.inr (by decide +kernel) | constructor

theorem hyps_storeError :
    (∃ (s : State) (k : Nat), canonical s ∧ s.power = .on ∧ (s.scull k).state = .good ∧ memErrors s k < s.ueLimit (k / 768)) ∧
    (∃ (s : State) (k : Nat) (id : Nat), runs k id s ∧ memErrors s k < s.ueLimit (k / 768)) ∧
    (∃ (s : State) (k : Nat) (r : Nat) (id : Nat), runs r id s ∧ (s.task id).scull = some r ∧ settled s ∧ (s.scull k).state = .good ∧ memErrors s k < s.ueLimit (k / 768)) ∧
    (∃ (s : State) (k : Nat), (s.power ≠ .on ∨ (s.scull k).state ≠ .good)) ∧
    (∃ (s : State) (k : Nat), (s.scull k).task = none) ∧
    (∃ (s : State) (id : Nat), (s.task id).state ≠ .running) := by
  refine ⟨⟨up, 12287, ?_⟩,
    ⟨running, 0, 0, ?_⟩,
    ⟨running, 5, 0, 0, ?_⟩,
    ⟨off, 0, ?_⟩,
    ⟨up, 0, ?_⟩,
    ⟨up, 0, ?_⟩⟩ <;>
  repeat' first | exact canonB_ok (by decide +kernel) | decide +kernel | exact reachesB_ok (by decide +kernel) | exact settledB_ok (by decide +kernel) | exact Or.inl ⟨by decide +kernel, reachesH_ok (by decide +kernel)⟩ | refine And.intro ?_ ?_ | rfl | (intro _ h; cases h; done) | (intro _ _ h; cases h; done) | (intro _ _ _ h; cases h; done) | exact noneWaits_ok rfl | (unfold wellFormed; decide +kernel) | exact ⟨0, by decide +kernel⟩ | exact ⟨1, by decide +kernel⟩ | exact Or.inl ⟨_, rfl⟩ | exact Or.inl (by decide +kernel) | exact Or.inr (by decide +kernel) | constructor

theorem hyps_handBack :
    (∃ (s : State) (k : Nat) (id : Nat) (p : Bool), s.power = .on ∧ handable s k = some (id, p)) ∧
    (∃ (s : State) (k : Nat) (id : Nat), canonical s ∧ settled s ∧ s.power = .on ∧ (s.scull k).task = some id ∧ (s.task id).state = .ended false ∧ (s.task id).flying = [] ∧ (s.task id).scull = some k ∧ (s.task id).runs < 3 ∧ (s.task id).claims = [] ∧ s.inSet (s.task id).part (s.task id).home = true ∧ s.bowOk (s.task id) (s.task id).home = true ∧ s.fitsErg ((s.task id).home / 48) (s.task id).lc (s.task id).holdLines = true) ∧
    (∃ (s : State) (k : Nat) (id : Nat), canonical s ∧ settled s ∧ s.power = .on ∧ (s.scull k).task = some id ∧ (s.task id).state = .ended false ∧ (s.task id).flying = [] ∧ (s.task id).scull = some k ∧ (s.task id).runs = 3 ∧ (s.task id).claims = []) ∧
    (∃ (s : State) (k : Nat), (s.power ≠ .on ∨ handable s k = none)) ∧
    (∃ (s : State) (k : Nat), (s.scull k).task = none ∧ (s.scull k).suspended = []) ∧
    (∃ (s : State) (k : Nat) (id : Nat) (p : Bool), s.power = .on ∧ stuck s k = some (id, p)) ∧
    (∃ (s : State) (k : Nat) (id : Nat), canonical s ∧ settled s ∧ s.power = .on ∧ (s.scull k).task = some id ∧ (s.task id).state = .ended false ∧ (s.task id).flying ≠ [] ∧ (s.task id).scull = some k ∧ (s.task id).startedAt + 11 ≤ s.etc ∧ (s.task id).claims = [] ∧ (s.scull k).state = .good ∧ (s.scull k).suspended = [] ∧ ((∃ i, i < 16 ∧ k / 16 * 16 + i ≠ k ∧ (s.scull (k / 16 * 16 + i)).state = .good))) ∧
    (∃ (s : State) (k : Nat), (s.power ≠ .on ∨ stuck s k = none)) := by
  refine ⟨⟨with_ { copy with state := .ended true }, 0, 0, true, ?_⟩,
    ⟨with_ { copy with state := .ended false, runs := 2 }, 0, 0, ?_⟩,
    ⟨with_ { copy with state := .ended false, runs := 3 }, 0, 0, ?_⟩,
    ⟨up, 0, ?_⟩,
    ⟨up, 0, ?_⟩,
    ⟨with_ { copy with state := .ended true, flying := [xfer 0], startedAt := 4999989 }, 0, 0, true, ?_⟩,
    ⟨with_ { copy with state := .ended false, flying := [xfer 0], startedAt := 4999989 }, 0, 0, ?_⟩,
    ⟨up, 0, ?_⟩⟩ <;>
  repeat' first | exact canonB_ok (by decide +kernel) | decide +kernel | exact reachesB_ok (by decide +kernel) | exact settledB_ok (by decide +kernel) | exact Or.inl ⟨by decide +kernel, reachesH_ok (by decide +kernel)⟩ | refine And.intro ?_ ?_ | rfl | (intro _ h; cases h; done) | (intro _ _ h; cases h; done) | (intro _ _ _ h; cases h; done) | exact noneWaits_ok rfl | (unfold wellFormed; decide +kernel) | exact ⟨0, by decide +kernel⟩ | exact ⟨1, by decide +kernel⟩ | exact Or.inl ⟨_, rfl⟩ | exact Or.inl (by decide +kernel) | exact Or.inr (by decide +kernel) | constructor

theorem hyps_selfTests :
    (∃ (s : State) (k : Nat), canonical s ∧ s.power = .on ∧ (s.scull k).state = .good ∧ (s.scull k).testing = true) ∧
    (∃ (s : State) (k : Nat), canonical s ∧ s.power = .on ∧ (s.scull k).testing = true ∧ spareable k s) ∧
    (∃ (s : State) (c : Nat), s.power = .on ∧ (s.crew c).state = .good ∧ (s.crew c).seifTest = true) ∧
    (∃ (s : State) (c : Nat), canonical s ∧ settled s ∧ s.power = .on ∧ (s.crew c).state = .good ∧ (s.crew c).seifTest = true ∧ s.crewTasks c = []) ∧
    (∃ (s : State) (c : Nat), canonical s ∧ s.power = .on ∧ (s.crew c).seifTest = true ∧ crewIdle c s) ∧
    (∃ (s : State) (d : Nat), s.power = .on ∧ (s.erg d).bow = .good ∧ (s.erg d).bowTest = true) ∧
    (∃ (s : State) (d : Nat), canonical s ∧ settled s ∧ s.power = .on ∧ (s.erg d).bow = .good ∧ (s.erg d).bowTest = true) ∧
    (∃ (s : State) (d : Nat), canonical s ∧ s.power = .on ∧ (s.erg d).bowTest = true ∧ bowIdle d s) ∧
    (∃ (s : State) (n : Nat), (s.scull n).testing = false) ∧
    (∃ (s : State) (n : Nat), (s.crew n).seifTest = false) ∧
    (∃ (s : State) (n : Nat), (s.erg n).bowTest = false) := by
  refine ⟨⟨{ up with sculls := [(0, { Scull.init with testing := true })] }, 0, ?_⟩,
    ⟨{ up with sculls := [(12287, { Scull.init with testing := true })] }, 12287, ?_⟩,
    ⟨{ up with crews := [(0, { Crew.init with seifTest := true })] }, 0, ?_⟩,
    ⟨{ up with crews := [(0, { Crew.init with seifTest := true })] }, 0, ?_⟩,
    ⟨{ up with crews := [(767, { Crew.init with seifTest := true })] }, 767, ?_⟩,
    ⟨{ up with ergs := [(0, { Erg.init with bowTest := true })] }, 0, ?_⟩,
    ⟨{ up with ergs := [(0, { Erg.init with bowTest := true })] }, 0, ?_⟩,
    ⟨{ up with ergs := [(15, { Erg.init with bowTest := true })] }, 15, ?_⟩,
    ⟨up, 0, ?_⟩,
    ⟨up, 0, ?_⟩,
    ⟨up, 0, ?_⟩⟩ <;>
  repeat' first | exact canonB_ok (by decide +kernel) | decide +kernel | exact reachesB_ok (by decide +kernel) | exact settledB_ok (by decide +kernel) | exact Or.inl ⟨by decide +kernel, reachesH_ok (by decide +kernel)⟩ | refine And.intro ?_ ?_ | rfl | (intro _ h; cases h; done) | (intro _ _ h; cases h; done) | (intro _ _ _ h; cases h; done) | exact noneWaits_ok rfl | (unfold wellFormed; decide +kernel) | exact ⟨0, by decide +kernel⟩ | exact ⟨1, by decide +kernel⟩ | exact Or.inl ⟨_, rfl⟩ | exact Or.inl (by decide +kernel) | exact Or.inr (by decide +kernel) | constructor

theorem hyps_seifAndBowMismatch :
    (∃ (s : State) (c : Nat) (id : Nat), canonical s ∧ s.power = .on ∧ (s.crew c).state = .good ∧ s.seifTask c = some id ∧ (s.recentFaults (c / 48) (s.etc :: (s.crew c).seifTimes)).length < s.resLimit (c / 48)) ∧
    (∃ (s : State) (c : Nat) (id : Nat), canonical s ∧ s.power = .on ∧ (s.crew c).state = .good ∧ s.seifTask c = some id ∧ s.resLimit (c / 48) ≤ (s.recentFaults (c / 48) (s.etc :: (s.crew c).seifTimes)).length ∧ settled s ∧ (s.crew c).queue = [] ∧ (s.crew c).parked = [] ∧ ((∀ i, i < 16 → (s.scull (16 * c + i)).suspended = [] ∧ (s.scull (16 * c + i)).task ∈ [none, some id]))) ∧
    (∃ (s : State) (d : Nat) (id : Nat), canonical s ∧ s.power = .on ∧ (s.erg d).bow = .good ∧ (s.erg d).bowTask = some id ∧ (s.task id).state = .running ∧ (s.recentFaults d (s.etc :: (s.erg d).bowTimes)).length < s.resLimit d) ∧
    (∃ (s : State) (d : Nat) (id : Nat), canonical s ∧ s.power = .on ∧ (s.erg d).bow = .good ∧ (s.erg d).bowTask = some id ∧ (s.task id).state = .running ∧ s.resLimit d ≤ (s.recentFaults d (s.etc :: (s.erg d).bowTimes)).length ∧ settled s ∧ ((∀ c, c ∈ ergCrews d → (s.crew c).queue = [] ∧ (s.crew c).parked = []))) ∧
    (∃ (s : State) (c : Nat), s.seifTask c = none) ∧
    (∃ (s : State) (d : Nat), (s.erg d).bowTask = none) := by
  refine ⟨⟨with_ attend, 0, 0, ?_⟩,
    ⟨{ with_ attend with crews := [(0, { Crew.init with ctxHeld := [0], seifTimes := [5000000, 5000000, 5000000, 5000000, 5000000, 5000000, 5000000, 5000000] })] }, 0, 0, ?_⟩,
    ⟨{ running with ergs := [(0, { Erg.init with bowTask := some 0 })] }, 0, 0, ?_⟩,
    ⟨{ running with ergs := [(0, { Erg.init with bowTask := some 0, bowTimes := [5000000, 5000000, 5000000, 5000000, 5000000, 5000000, 5000000, 5000000] })] }, 0, 0, ?_⟩,
    ⟨up, 0, ?_⟩,
    ⟨up, 0, ?_⟩⟩ <;>
  repeat' first | exact canonB_ok (by decide +kernel) | decide +kernel | exact reachesB_ok (by decide +kernel) | exact settledB_ok (by decide +kernel) | exact Or.inl ⟨by decide +kernel, reachesH_ok (by decide +kernel)⟩ | refine And.intro ?_ ?_ | rfl | (intro _ h; cases h; done) | (intro _ _ h; cases h; done) | (intro _ _ _ h; cases h; done) | exact noneWaits_ok rfl | (unfold wellFormed; decide +kernel) | exact ⟨0, by decide +kernel⟩ | exact ⟨1, by decide +kernel⟩ | exact Or.inl ⟨_, rfl⟩ | exact Or.inl (by decide +kernel) | exact Or.inr (by decide +kernel) | constructor

theorem hyps_taskTake :
    (∃ (s : State) (k : Nat) (id : Nat) (rest : List Nat), s.mayTake k = true ∧ unlimited k s ∧ (s.crew (k / 16)).queue = id :: rest ∧ s.fits k (s.task id) = true ∧ s.parkReason (k / 16) id (s.task id) = none ∧ (s.task id).kind ∉ [kSignal, kFence]) ∧
    (∃ (s : State) (k : Nat) (id : Nat) (rest : List Nat), canonical s ∧ settled s ∧ s.mayTake k = true ∧ unlimited k s ∧ (s.crew (k / 16)).queue = id :: rest ∧ s.fits k (s.task id) = true ∧ ready k id s) ∧
    (∃ (s : State) (k : Nat) (id : Nat) (rest : List Nat) (why : ParkWhy), canonical s ∧ s.mayTake k = true ∧ unlimited k s ∧ (s.crew (k / 16)).queue = id :: rest ∧ s.fits k (s.task id) = true ∧ s.parkReason (k / 16) id (s.task id) = some why ∧ (why ≠ .bow ∨ (s.task id).lc = false)) ∧
    (∃ (s : State) (k : Nat) (id : Nat) (b : Nat) (rest : List Nat), canonical s ∧ s.mayTake k = true ∧ unlimited k s ∧ (s.crew (k / 16)).queue = id :: rest ∧ s.fits k (s.task id) = true ∧ s.parkReason (k / 16) id (s.task id) = some .bow ∧ (s.task id).lc = true ∧ (s.erg (k / 768)).bowTask = some b ∧ b ≠ id ∧ (s.task b).state = .running ∧ (s.task b).lc = false) ∧
    (∃ (s : State) (k : Nat) (id : Nat) (rest : List Nat), s.mayTake k = true ∧ unlimited k s ∧ (s.crew (k / 16)).queue = id :: rest ∧ s.parkReason (k / 16) id (s.task id) = none ∧ (s.task id).kind ∈ [kSignal, kFence]) ∧
    (∃ (s : State) (k : Nat), (s.mayTake k = false ∨ s.headFits k = false)) ∧
    (∃ (s : State) (k : Nat) (id : Nat) (rest : List Nat), s.mayTake k = true ∧ (s.erg (k / 768)).issueLim = true ∧ (s.crew (k / 16)).queue = id :: rest ∧ s.fits k (s.task id) = true) := by
  refine ⟨⟨queued_ copy, 0, 0, [], ?_⟩,
    ⟨queued_ copy, 0, 0, [], ?_⟩,
    ⟨queued_ { copy with words := [0x106, 0, 0, 0xFFFF0000, 1] }, 0, 0, [], .counter, ?_⟩,
    ⟨{ queued_ copy with ergs := [(0, { Erg.init with bowTask := some 1 })], tasks := [(0, { copy with words := [0x102, 0, 0x10000, 0xFFFFFFFF, 0, 0, 0, 0, 0, 0, 2, 0, 0, 0, 0, 0], lc := true }), (1, { copy with state := .running })] }, 0, 0, 1, [], ?_⟩,
    ⟨queued_ sig, 0, 0, [], ?_⟩,
    ⟨up, 0, ?_⟩,
    ⟨{ queued_ copy with ergs := [(0, { Erg.init with issueLim := true })] }, 0, 0, [], ?_⟩⟩ <;>
  repeat' first | exact canonB_ok (by decide +kernel) | decide +kernel | exact reachesB_ok (by decide +kernel) | exact settledB_ok (by decide +kernel) | exact Or.inl ⟨by decide +kernel, reachesH_ok (by decide +kernel)⟩ | refine And.intro ?_ ?_ | rfl | (intro _ h; cases h; done) | (intro _ _ h; cases h; done) | (intro _ _ _ h; cases h; done) | exact noneWaits_ok rfl | (unfold wellFormed; decide +kernel) | exact ⟨0, by decide +kernel⟩ | exact ⟨1, by decide +kernel⟩ | exact Or.inl ⟨_, rfl⟩ | exact Or.inl (by decide +kernel) | exact Or.inr (by decide +kernel) | constructor

theorem hyps_taskSteal :
    (∃ (s : State) (k : Nat) (v : Nat) (id : Nat), s.mayTake k = true ∧ s.headFits k = false ∧ unlimited k s ∧ s.findSteal k (s.fld (ergReg (k / 768) 0x140) 0 4) (s.nearVictims k) = some (v, id)) ∧
    (∃ (s : State) (k : Nat) (v : Nat) (id : Nat), canonical s ∧ settled s ∧ s.mayTake k = true ∧ s.headFits k = false ∧ unlimited k s ∧ s.findSteal k (s.fld (ergReg (k / 768) 0x140) 0 4) (s.nearVictims k) = some (v, id) ∧ ready k id s) ∧
    (∃ (s : State) (k : Nat), (s.mayTake k = false ∨ s.headFits k = true)) := by
  refine ⟨⟨stealS, 0, 1, 0, ?_⟩,
    ⟨stealS, 0, 1, 0, ?_⟩,
    ⟨up, 0, ?_⟩⟩ <;>
  repeat' first | exact canonB_ok (by decide +kernel) | decide +kernel | exact reachesB_ok (by decide +kernel) | exact settledB_ok (by decide +kernel) | exact Or.inl ⟨by decide +kernel, reachesH_ok (by decide +kernel)⟩ | refine And.intro ?_ ?_ | rfl | (intro _ h; cases h; done) | (intro _ _ h; cases h; done) | (intro _ _ _ h; cases h; done) | exact noneWaits_ok rfl | (unfold wellFormed; decide +kernel) | exact ⟨0, by decide +kernel⟩ | exact ⟨1, by decide +kernel⟩ | exact Or.inl ⟨_, rfl⟩ | exact Or.inl (by decide +kernel) | exact Or.inr (by decide +kernel) | constructor
theorem hyps_taskSteal_3 : ∃ (s : State) (u : State) (k : Nat), s.mayTake k = true ∧ s.headFits k = false ∧ unlimited k s ∧ s.findSteal k (s.fld (ergReg (k / 768) 0x140) 0 4) (s.nearVictims k) = none ∧ u = s.setScull k { s.scull k with dryAt := some ((s.scull k).dryAt.getD s.etc) } ∧ s.etc < (s.scull k).dryAt.getD s.etc + s.fld (ergReg (k / 768) 0x140) 8 16 :=
  ⟨{ up0 with regs := [(0x1000140, 0x100), (0x1040020, 8), (0x02070000, 1)] }, (({ up0 with regs := [(0x1000140, 0x100), (0x1040020, 8), (0x02070000, 1)] }).setScull 0 { State.scull ({ up0 with regs := [(0x1000140, 0x100), (0x1040020, 8), (0x02070000, 1)] }) 0 with dryAt := some ((State.scull ({ up0 with regs := [(0x1000140, 0x100), (0x1040020, 8), (0x02070000, 1)] }) 0).dryAt.getD (State.etc ({ up0 with regs := [(0x1000140, 0x100), (0x1040020, 8), (0x02070000, 1)] }))) }), 0, by exact ⟨by decide +kernel, by decide +kernel, by unfold unlimited; decide +kernel, by decide +kernel, rfl, by decide +kernel⟩⟩
theorem hyps_taskSteal_4 : ∃ (s : State) (u : State) (k : Nat), s.mayTake k = true ∧ s.headFits k = false ∧ unlimited k s ∧ s.findSteal k (s.fld (ergReg (k / 768) 0x140) 0 4) (s.nearVictims k) = none ∧ u = s.setScull k { s.scull k with dryAt := some ((s.scull k).dryAt.getD s.etc) } ∧ (s.scull k).dryAt.getD s.etc + s.fld (ergReg (k / 768) 0x140) 8 16 ≤ s.etc ∧ u.findSteal k (s.fld (ergReg (k / 768) 0x140) 4 4) (u.farVictims k) = none :=
  ⟨{ up0 with regs := [(0x1000140, 0x10), (0x1040020, 8), (0x02070000, 1)] }, (({ up0 with regs := [(0x1000140, 0x10), (0x1040020, 8), (0x02070000, 1)] }).setScull 0 { State.scull ({ up0 with regs := [(0x1000140, 0x10), (0x1040020, 8), (0x02070000, 1)] }) 0 with dryAt := some ((State.scull ({ up0 with regs := [(0x1000140, 0x10), (0x1040020, 8), (0x02070000, 1)] }) 0).dryAt.getD (State.etc ({ up0 with regs := [(0x1000140, 0x10), (0x1040020, 8), (0x02070000, 1)] }))) }), 0, by exact ⟨by decide +kernel, by decide +kernel, by unfold unlimited; decide +kernel, by decide +kernel, rfl, by decide +kernel, by decide +kernel⟩⟩
theorem hyps_taskSteal_5 : ∃ (s : State) (u : State) (k : Nat) (v : _) (id : _), s.mayTake k = true ∧ s.headFits k = false ∧ unlimited k s ∧ s.findSteal k (s.fld (ergReg (k / 768) 0x140) 0 4) (s.nearVictims k) = none ∧ u = s.setScull k { s.scull k with dryAt := some ((s.scull k).dryAt.getD s.etc) } ∧ (s.scull k).dryAt.getD s.etc + s.fld (ergReg (k / 768) 0x140) 8 16 ≤ s.etc ∧ u.findSteal k (s.fld (ergReg (k / 768) 0x140) 4 4) (u.farVictims k) = some (v, id) :=
  ⟨{ queued_ { copy with home := 48 } with crews := [(48, { Crew.init with queue := [0] })], regs := [(0x1000140, 0x10), (0x1040020, 8), (0x1140020, 8), (0x02070000, 1)] }, (({ queued_ { copy with home := 48 } with crews := [(48, { Crew.init with queue := [0] })], regs := [(0x1000140, 0x10), (0x1040020, 8), (0x1140020, 8), (0x02070000, 1)] }).setScull 0 { State.scull ({ queued_ { copy with home := 48 } with crews := [(48, { Crew.init with queue := [0] })], regs := [(0x1000140, 0x10), (0x1040020, 8), (0x1140020, 8), (0x02070000, 1)] }) 0 with dryAt := some ((State.scull ({ queued_ { copy with home := 48 } with crews := [(48, { Crew.init with queue := [0] })], regs := [(0x1000140, 0x10), (0x1040020, 8), (0x1140020, 8), (0x02070000, 1)] }) 0).dryAt.getD (State.etc ({ queued_ { copy with home := 48 } with crews := [(48, { Crew.init with queue := [0] })], regs := [(0x1000140, 0x10), (0x1040020, 8), (0x1140020, 8), (0x02070000, 1)] }))) }), 0, 48, 0, by exact ⟨by decide +kernel, by decide +kernel, by unfold unlimited; decide +kernel, by decide +kernel, rfl, by decide +kernel, by decide +kernel⟩⟩

theorem hyps_taskResume :
    (∃ (s : State) (u : State) (k : Nat) (id : Nat), mayResume k id s ∧ u = (s.setScull k { s.scull k with task := some id, suspended := (s.scull k).suspended.filter (· != id) }).setTask id { s.task id with state := .running, startedAt := s.etc }) ∧
    (∃ (s : State) (k : Nat) (id : Nat), canonical s ∧ mayResume k id s ∧ (s.task id).scull = some k ∧ (s.task id).onArray = false ∧ ((∀ b, b ∈ (s.scull k).bank → b.task ≠ id)) ∧ (s.task id).todo = [] ∧ (s.task id).flying ≠ []) ∧
    (∃ (s : State) (k : Nat) (id : Nat), (id ∉ (s.scull k).suspended ∨ s.resumable (s.task id) = false ∨ (s.scull k).task ≠ none)) := by
  refine ⟨⟨{ with_ { copy with state := .suspended (.recompute 0), flying := [xfer 0x1000] } with sculls := [(0, { Scull.init with suspended := [0] })] }, (({ with_ { copy with state := .suspended (.recompute 0), flying := [xfer 0x1000] } with sculls := [(0, { Scull.init with suspended := [0] })] }).setScull 0 { State.scull ({ with_ { copy with state := .suspended (.recompute 0), flying := [xfer 0x1000] } with sculls := [(0, { Scull.init with suspended := [0] })] }) 0 with task := some 0, suspended := (State.scull ({ with_ { copy with state := .suspended (.recompute 0), flying := [xfer 0x1000] } with sculls := [(0, { Scull.init with suspended := [0] })] }) 0).suspended.filter (· != 0) }).setTask 0 { State.task ({ with_ { copy with state := .suspended (.recompute 0), flying := [xfer 0x1000] } with sculls := [(0, { Scull.init with suspended := [0] })] }) 0 with state := .running, startedAt := State.etc ({ with_ { copy with state := .suspended (.recompute 0), flying := [xfer 0x1000] } with sculls := [(0, { Scull.init with suspended := [0] })] }) }, 0, 0, ?_⟩,
    ⟨{ with_ { copy with state := .suspended (.recompute 0), flying := [xfer 0x1000] } with sculls := [(0, { Scull.init with suspended := [0] })] }, 0, 0, ?_⟩,
    ⟨up, 0, 0, ?_⟩⟩ <;>
  repeat' first | exact canonB_ok (by decide +kernel) | decide +kernel | exact reachesB_ok (by decide +kernel) | exact settledB_ok (by decide +kernel) | exact Or.inl ⟨by decide +kernel, reachesH_ok (by decide +kernel)⟩ | refine And.intro ?_ ?_ | rfl | (intro _ h; cases h; done) | (intro _ _ h; cases h; done) | (intro _ _ _ h; cases h; done) | exact noneWaits_ok rfl | (unfold wellFormed; decide +kernel) | exact ⟨0, by decide +kernel⟩ | exact ⟨1, by decide +kernel⟩ | exact Or.inl ⟨_, rfl⟩ | exact Or.inl (by decide +kernel) | exact Or.inr (by decide +kernel) | constructor

theorem hyps_dmaComplete :
    (∃ (s : State) (k : Nat) (i : Nat) (id : Nat) (j : Nat) (n : Nat) (x : Xfer) (fs : List (Nat × PieceCheck)) (found : List (Nat × PieceCheck)), ending k i id j x s ∧ ((s.task id).state = .running ∨ (∃ w, (s.task id).state = .suspended w)) ∧ (s.task id).hostXfer x = false ∧ fs = findings s id x found ∧ (x.isRead = false ∨ (fatal fs = false ∧ (counted s k x fs n).landsBad (s.task id) x = false))) ∧
    (∃ (s : State) (k : Nat) (i : Nat) (id : Nat) (j : Nat) (n : Nat) (x : Xfer) (fs : List (Nat × PieceCheck)) (found : List (Nat × PieceCheck)), ending k i id j x s ∧ ((s.task id).state = .running ∨ (∃ w, (s.task id).state = .suspended w)) ∧ (s.task id).hostXfer x = false ∧ fs = findings s id x found ∧ x.isRead = true ∧ (fatal fs = true ∨ (counted s k x fs n).landsBad (s.task id) x = true)) ∧
    (∃ (s : State) (k : Nat) (i : Nat) (id : Nat) (j : Nat) (x : Xfer) (fs : List (Nat × PieceCheck)) (found : List (Nat × PieceCheck)) (p : Bool), ending k i id j x s ∧ (s.task id).state = .ended p ∧ fs = findings s id x found) ∧
    (∃ (s : State) (k : Nat) (id : Nat) (i : Nat) (x : Xfer), canonical s ∧ s.power = .on ∧ (s.scull k).task = some id ∧ (s.task id).scull = some k ∧ (s.task id).onArray = false ∧ (s.task id).state = .running ∧ (s.task id).flying[i]? = some x ∧ x.kind = .load ∧ x.rows = 1 ∧ x.slen = 0 ∧ x.panel = false ∧ x.placed = [(x.da, x.da, x.len)] ∧ (regionOf x.da = some .dune ∨ regionOf x.da = some .crewStore) ∧ s.readBad x.da x.len = false ∧ (s.task id).todo = [] ∧ 2 ≤ (s.task id).flying.length) ∧
    (∃ (s : State) (k : Nat) (id : Nat) (i : Nat) (x : Xfer), canonical s ∧ settled s ∧ s.power = .on ∧ (s.scull k).task = some id ∧ (s.task id).state = .running ∧ (s.task id).flying[i]? = some x ∧ regionOf x.da = some .host ∧ (s.task id).hostXfer x = true ∧ s.hostOpen = true ∧ (s.task id).claims = [] ∧ (s.task id).scull = some k ∧ s.tier.tensors = []) ∧
    (∃ (s : State) (k : Nat) (i : Nat), (s.power ≠ .on ∨ (s.outstanding k)[i]? = none)) := by
  refine ⟨⟨with_ { copy with state := .running, flying := [xfer 0x1000, xfer 0xF000000000000] }, 0, 1, 0, 1, 0, xfer 0xF000000000000, [], [], ?_⟩,
    ⟨with_ { copy with state := .running, flying := [xfer 0x1000, xfer 0xF000000000000] }, 0, 0, 0, 0, 0, xfer 0x1000, findings (with_ { copy with state := .running, flying := [xfer 0x1000, xfer 0xF000000000000] }) 0 (xfer 0x1000) [(0x1000, .uncorrectable)], [(0x1000, .uncorrectable)], ?_⟩,
    ⟨with_ { copy with state := .ended true, flying := [xfer 0xF000000000000] }, 0, 0, 0, 0, xfer 0xF000000000000, [], [], true, ?_⟩,
    ⟨with_ { copy with state := .running, flying := [xfer 0x1000, xfer 0xF000000000000] }, 0, 0, 1, xfer 0xF000000000000, ?_⟩,
    ⟨with_ { copy with state := .running, flying := [xfer 0x1000000000000] }, 0, 0, 0, xfer 0x1000000000000, ?_⟩,
    ⟨off, 0, 0, ?_⟩⟩ <;>
  repeat' first | exact canonB_ok (by decide +kernel) | decide +kernel | exact reachesB_ok (by decide +kernel) | exact settledB_ok (by decide +kernel) | exact Or.inl ⟨by decide +kernel, reachesH_ok (by decide +kernel)⟩ | refine And.intro ?_ ?_ | rfl | (intro _ h; cases h; done) | (intro _ _ h; cases h; done) | (intro _ _ _ h; cases h; done) | exact noneWaits_ok rfl | (unfold wellFormed; decide +kernel) | exact ⟨0, by decide +kernel⟩ | exact ⟨1, by decide +kernel⟩ | exact Or.inl ⟨_, rfl⟩ | exact Or.inl (by decide +kernel) | exact Or.inr (by decide +kernel) | constructor

theorem hyps_taskCommit :
    (∃ (s : State) (k : Nat) (id : Nat), finished k id s) ∧
    (∃ (s : State) (k : Nat) (id : Nat), finished k id s) ∧
    (∃ (s : State) (k : Nat) (id : Nat), canonical s ∧ settled s ∧ finished k id s ∧ (s.task id).scull = some k ∧ (s.task id).pins = [] ∧ (s.task id).claimant = none ∧ (s.task id).recompute = none ∧ s.tier.tensors = [] ∧ ((∀ c, c ∈ (s.task id).held → c.1 < duneEnd ∧ s.served c.1 = true))) ∧
    (∃ (s : State) (k : Nat) (id : Nat), canonical s ∧ settled s ∧ finished k id s ∧ (s.task id).scull = some k ∧ (s.task id).pins = [] ∧ (s.task id).claimant = none ∧ (s.task id).recompute = none ∧ s.tier.tensors = [] ∧ ((∃ c, c ∈ (s.task id).held ∧ c.1 < duneEnd ∧ (s.dune (stackOf c.1)).state = .stopped))) ∧
    (∃ (s : State) (k : Nat) (id : Nat), canonical s ∧ settled s ∧ finished k id s ∧ (s.task id).scull = some k ∧ (s.task id).claims = [] ∧ (s.task id).held = [] ∧ (s.task id).pins = []) ∧
    (∃ (s : State) (k : Nat), (s.scull k).task = none) ∧
    (∃ (s : State) (k : Nat) (id : Nat), (s.scull k).task = some id ∧ ((s.task id).state ≠ .running ∨ (s.task id).computed = false ∨ (s.task id).todo ≠ [] ∨ (s.task id).flying ≠ [])) := by
  refine ⟨⟨with_ { copy with state := .running, computed := true }, 0, 0, ?_⟩,
    ⟨with_ { copy with state := .running, computed := true }, 0, 0, ?_⟩,
    ⟨with_ { copy with state := .running, computed := true, held := [(0x2000, 7)] }, 0, 0, ?_⟩,
    ⟨{ with_ { copy with state := .running, computed := true, held := [(0x2000, 7)] } with dunes := [(0, { Stack.init with state := .stopped })] }, 0, 0, ?_⟩,
    ⟨with_ { copy with state := .running, computed := true }, 0, 0, ?_⟩,
    ⟨up, 0, ?_⟩,
    ⟨running, 0, 0, ?_⟩⟩ <;>
  repeat' first | exact canonB_ok (by decide +kernel) | decide +kernel | exact reachesB_ok (by decide +kernel) | exact settledB_ok (by decide +kernel) | exact Or.inl ⟨by decide +kernel, reachesH_ok (by decide +kernel)⟩ | refine And.intro ?_ ?_ | rfl | (intro _ h; cases h; done) | (intro _ _ h; cases h; done) | (intro _ _ _ h; cases h; done) | exact noneWaits_ok rfl | (unfold wellFormed; decide +kernel) | exact ⟨0, by decide +kernel⟩ | exact ⟨1, by decide +kernel⟩ | exact Or.inl ⟨_, rfl⟩ | exact Or.inl (by decide +kernel) | exact Or.inr (by decide +kernel) | constructor

theorem hyps_taskEnds :
    (∃ (s : State) (id : Nat), s.power = .on ∧ (s.task id).state = .committed ∧ ((∀ p, p ∈ s.peers → p.task = id → p.write = false))) ∧
    (∃ (s : State) (id : Nat) (q : Nat), canonical s ∧ settled s ∧ s.power = .on ∧ (s.task id).state = .committed ∧ ((∀ p, p ∈ s.peers → p.task = id → p.write = false)) ∧ (s.task id).claims = [] ∧ (s.task id).recompute = none ∧ (s.task id).ring = some q ∧ (s.task id).signalCtr < 0xFFFF) ∧
    (∃ (s : State) (id : Nat), (s.power ≠ .on ∨ (s.task id).state ≠ .committed ∨ (∃ p, p ∈ s.peers ∧ p.task = id ∧ p.write = true))) ∧
    (∃ (s : State) (q : Nat) (id : Nat), fenceOpen q id s) ∧
    (∃ (s : State) (q : Nat) (id : Nat), canonical s ∧ settled s ∧ fenceOpen q id s ∧ (s.task id).claims = [] ∧ (s.task id).recompute = none ∧ (s.task id).ring = some q ∧ (s.task id).pins = [] ∧ (s.task id).scull = none) ∧
    (∃ (s : State) (q : Nat), (s.power ≠ .on ∨ (s.ring q).fence = none ∨ (∃ id, (s.ring q).fence = some id ∧ (s.firstLive id (s.task id) = false ∨ s.fenceMet (s.task id) = false)))) ∧
    (∃ (s : State) (u : State) (id : Nat), signalTurn id s ∧ s.parkReason (s.task id).home id (s.task id) = none ∧ u = (if (s.task id).sgCtr = 0xFFFF then s else s.setCtr (s.task id).sgCtr (if (s.task id).sgSet then (s.task id).sgValue else s.ctr (s.task id).sgCtr + (s.task id).sgValue))) ∧
    (∃ (s : State) (id : Nat) (q : Nat), canonical s ∧ settled s ∧ signalTurn id s ∧ s.parkReason (s.task id).home id (s.task id) = none ∧ (s.task id).sgCtr < 0xFFFF ∧ (s.task id).signalCtr = 0xFFFF ∧ (s.task id).claims = [] ∧ (s.task id).recompute = none ∧ (s.task id).ring = some q ∧ (s.task id).scull = none) ∧
    (∃ (s : State) (id : Nat) (why : ParkWhy), canonical s ∧ signalTurn id s ∧ s.parkReason (s.task id).home id (s.task id) = some why) ∧
    (∃ (s : State) (id : Nat), (s.power ≠ .on ∨ (s.task id).state ≠ .queued ∨ (s.task id).kind ≠ kSignal)) := by
  refine ⟨⟨with_ { copy with state := .committed }, 0, ?_⟩,
    ⟨with_ { copy with state := .committed, words := [0x106, 0, 0x10000, 0xFFFF] }, 0, 0, ?_⟩,
    ⟨up, 0, ?_⟩,
    ⟨{ queued_ { copy with words := [0x10A, 0, 0, 0xFFFFFFFF] } with rings := [(0, { Ring.init with state := .active, live := [0], fence := some 0 })] }, 0, 0, ?_⟩,
    ⟨{ queued_ { copy with words := [0x10A, 0, 0, 0xFFFFFFFF] } with rings := [(0, { Ring.init with state := .active, live := [0], fence := some 0 })] }, 0, 0, ?_⟩,
    ⟨up, 0, ?_⟩,
    ⟨queued_ sig, queued_ sig, 0, ?_⟩,
    ⟨queued_ sig, 0, 0, ?_⟩,
    ⟨queued_ { sig with words := [0x10B, 0, 0, 0xFFFF0000, 1] }, 0, .counter, ?_⟩,
    ⟨up, 0, ?_⟩⟩ <;>
  repeat' first | exact canonB_ok (by decide +kernel) | decide +kernel | exact reachesB_ok (by decide +kernel) | exact settledB_ok (by decide +kernel) | exact Or.inl ⟨by decide +kernel, reachesH_ok (by decide +kernel)⟩ | refine And.intro ?_ ?_ | rfl | (intro _ h; cases h; done) | (intro _ _ h; cases h; done) | (intro _ _ _ h; cases h; done) | exact noneWaits_ok rfl | (unfold wellFormed; decide +kernel) | exact ⟨0, by decide +kernel⟩ | exact ⟨1, by decide +kernel⟩ | exact Or.inl ⟨_, rfl⟩ | exact Or.inl (by decide +kernel) | exact Or.inr (by decide +kernel) | constructor

theorem hyps_walkerReads :
    (∃ (s : State) (id : Nat) (g : Nat), walking id s ∧ groupPages s id g ≠ [] ∧ s.readBad (groupDa s id g) 32 = false) ∧
    (∃ (s : State) (id : Nat) (g : Nat), walking id s ∧ groupPages s id g ≠ [] ∧ s.readBad (groupDa s id g) 32 = true) ∧
    (∃ (s : State) (id : Nat) (g : Nat) (pg : Nat) (pfn : Nat), canonical s ∧ walking id s ∧ s.readBad (groupDa s id g) 32 = false ∧ groupPages s id g = [pg] ∧ s.tier.tensors = [] ∧ s.residentPfn (s.listEntry (s.listDesc (s.task id).atList) pg) = some pfn ∧ s.pageXfers (s.task id) pg pfn ≠ [] ∧ ((∀ x, x ∈ s.pageXfers (s.task id) pg pfn → regionOf x.da = some .dune))) ∧
    (∃ (s : State) (id : Nat) (g : Nat) (pg : Nat), canonical s ∧ walking id s ∧ s.readBad (groupDa s id g) 32 = false ∧ groupPages s id g = [pg] ∧ (hostSlot (s.listEntry (s.listDesc (s.task id).atList) pg)).isSome = true ∧ (s.listDesc (s.task id).atList).host ≠ 0) ∧
    (∃ (s : State) (id : Nat) (g : Nat) (pg : Nat), canonical s ∧ settled s ∧ walking id s ∧ s.readBad (groupDa s id g) 32 = false ∧ groupPages s id g = [pg] ∧ s.residentPfn (s.listEntry (s.listDesc (s.task id).atList) pg) = none ∧ (hostSlot (s.listEntry (s.listDesc (s.task id).atList) pg) = none ∨ (s.listDesc (s.task id).atList).host = 0)) ∧
    (∃ (s : State) (id : Nat) (g : Nat), canonical s ∧ settled s ∧ walking id s ∧ groupPages s id g ≠ [] ∧ s.readBad (groupDa s id g) 32 = true) ∧
    (∃ (s : State) (id : Nat) (pg : Nat), pg ∈ s.pagesAhead (s.task id)) := by
  refine ⟨⟨with_ attend, 0, 0, ?_⟩,
    ⟨{ with_ attend with poison := [0] }, 0, 0, ?_⟩,
    ⟨{ with_ attend with regs := [(0x1040020, 8), (0x02010104, 1), (0x02070000, 1)] }, 0, 0, 0, 0, ?_⟩,
    ⟨{ with_ attend with mem := [(3, 0x40), (0x1008, 1)] }, 0, 0, 0, ?_⟩,
    ⟨with_ attend, 0, 0, 0, ?_⟩,
    ⟨{ with_ attend with poison := [0] }, 0, 0, ?_⟩,
    ⟨with_ attend, 0, 0, ?_⟩⟩ <;>
  repeat' first | exact canonB_ok (by decide +kernel) | decide +kernel | exact reachesB_ok (by decide +kernel) | exact settledB_ok (by decide +kernel) | exact Or.inl ⟨by decide +kernel, reachesH_ok (by decide +kernel)⟩ | refine And.intro ?_ ?_ | rfl | (intro _ h; cases h; done) | (intro _ _ h; cases h; done) | (intro _ _ _ h; cases h; done) | exact noneWaits_ok rfl | (unfold wellFormed; decide +kernel) | exact ⟨0, by decide +kernel⟩ | exact ⟨1, by decide +kernel⟩ | exact Or.inl ⟨_, rfl⟩ | exact Or.inl (by decide +kernel) | exact Or.inr (by decide +kernel) | constructor
theorem hyps_walkerReads_7 : ∃ (s : State) (id : Nat) (g : Nat), (¬ walking id s ∨ groupPages s id g = []) :=
  ⟨up, 0, 0, by exact Or.inl fun h => absurd h.2.1 (by decide +kernel)⟩

theorem hyps_seifSuspends :
    (∃ (s : State) (id : Nat) (k : Nat) (pg : Nat), canonical s ∧ s.power = .on ∧ (s.task id).scull = some k ∧ (s.task id).state = .running ∧ (s.task id).kind = kAttend ∧ (s.task id).chunksOut = true ∧ (s.task id).todo = [] ∧ (s.task id).flying = [] ∧ (s.pagesMissing (s.task id)).head? = some pg ∧ ((∃ x, x ∈ s.kv.swaps ∧ x.list = (s.task id).atList ∧ x.pg = pg ∧ id ∈ x.waiters))) ∧
    (∃ (s : State) (id : Nat), ((s.task id).scull = none ∨ (s.task id).state ≠ .running ∨ (s.task id).kind ≠ kAttend ∨ (s.task id).todo ≠ [] ∨ (s.task id).flying ≠ [] ∨ s.pagesMissing (s.task id) = [] ∨ s.kv.swaps = [])) := by
  refine ⟨⟨{ with_ attend with kv := { Kv.init with swaps := [⟨0x1000, 0, [0], false, true⟩] } }, 0, 0, 0, ?_⟩,
    ⟨up, 0, ?_⟩⟩ <;>
  repeat' first | exact canonB_ok (by decide +kernel) | decide +kernel | exact reachesB_ok (by decide +kernel) | exact settledB_ok (by decide +kernel) | exact Or.inl ⟨by decide +kernel, reachesH_ok (by decide +kernel)⟩ | refine And.intro ?_ ?_ | rfl | (intro _ h; cases h; done) | (intro _ _ h; cases h; done) | (intro _ _ _ h; cases h; done) | exact noneWaits_ok rfl | (unfold wellFormed; decide +kernel) | exact ⟨0, by decide +kernel⟩ | exact ⟨1, by decide +kernel⟩ | exact Or.inl ⟨_, rfl⟩ | exact Or.inl (by decide +kernel) | exact Or.inr (by decide +kernel) | constructor

theorem hyps_swapInServed :
    (∃ (s : State) (x : SwapReq) (d : ListDesc) (n : Nat) (pfn : Nat), serving s x d n pfn) ∧
    (∃ (s : State) (x : SwapReq) (d : ListDesc) (n : Nat) (pfn : Nat) (res : Ending), serving s x d n pfn ∧ settled s ∧ res ≠ .ok) ∧
    (∃ (s : State) (x : SwapReq) (d : ListDesc) (n : Nat), canonical s ∧ s.power = .on ∧ s.hostOpen = true ∧ s.kv.swaps.find? (·.due) = some x ∧ d = s.listDesc x.list ∧ hostSlot (s.listEntry d x.pg) = some n ∧ (s.fld (kvReg d.ring 8) 5 1 = 0 ∨ s.kvCount d.ring = 0)) ∧
    (∃ (s : State) (x : SwapReq), s.power = .on ∧ s.hostOpen = true ∧ s.kv.swaps.find? (·.due) = some x ∧ hostSlot (s.listEntry (s.listDesc x.list) x.pg) = none) ∧
    (∃ (s : State), (s.kv.swaps.find? (·.due) = none ∨ s.power ≠ .on ∨ s.hostOpen = false)) := by
  refine ⟨⟨swapS, ⟨0x1000, 0, [], false, true⟩, swapS.listDesc 0x1000, 0, 0, ?_⟩,
    ⟨swapS, ⟨0x1000, 0, [], false, true⟩, swapS.listDesc 0x1000, 0, 0, .aborted, ?_⟩,
    ⟨{ swapS with regs := [] }, ⟨0x1000, 0, [], false, true⟩, { swapS with regs := [] }.listDesc 0x1000, 0, ?_⟩,
    ⟨{ swapS with mem := [] }, ⟨0x1000, 0, [], false, true⟩, ?_⟩,
    ⟨up, ?_⟩⟩ <;>
  repeat' first | exact canonB_ok (by decide +kernel) | decide +kernel | exact reachesB_ok (by decide +kernel) | exact settledB_ok (by decide +kernel) | exact Or.inl ⟨by decide +kernel, reachesH_ok (by decide +kernel)⟩ | refine And.intro ?_ ?_ | rfl | (intro _ h; cases h; done) | (intro _ _ h; cases h; done) | (intro _ _ _ h; cases h; done) | exact noneWaits_ok rfl | (unfold wellFormed; decide +kernel) | exact ⟨0, by decide +kernel⟩ | exact ⟨1, by decide +kernel⟩ | exact Or.inl ⟨_, rfl⟩ | exact Or.inl (by decide +kernel) | exact Or.inr (by decide +kernel) | constructor

theorem hyps_kvRingTail :
    ∃ (s : State) (r : Nat) (req : Requester), Tab.wf 0 s.kv.tail = true ∧ reaches s req (kvReg r 0x10) := by
  refine ⟨up, 1, .coxswain, ?_⟩
  repeat' first | exact canonB_ok (by decide +kernel) | decide +kernel | exact reachesB_ok (by decide +kernel) | exact settledB_ok (by decide +kernel) | exact Or.inl ⟨by decide +kernel, reachesH_ok (by decide +kernel)⟩ | refine And.intro ?_ ?_ | rfl | (intro _ h; cases h; done) | (intro _ _ h; cases h; done) | (intro _ _ _ h; cases h; done) | exact noneWaits_ok rfl | (unfold wellFormed; decide +kernel) | exact ⟨0, by decide +kernel⟩ | exact ⟨1, by decide +kernel⟩ | exact Or.inl ⟨_, rfl⟩ | exact Or.inl (by decide +kernel) | exact Or.inr (by decide +kernel) | constructor

theorem hyps_deadlinePaths :
    (∃ (s : State) (k : Nat) (x : Nat) (id : Nat) (i : Nat) (f : Xfer) (rows : Nat × Nat × Nat), late s k x id i f ∧ f.weight = true ∧ (s.tensor i).shBase ≠ 0 ∧ (s.task id).weightRows = some rows) ∧
    (∃ (s : State) (k : Nat) (x : Nat) (id : Nat) (i : Nat) (f : Xfer), late s k x id i f ∧ settled s ∧ unshadowed s id i f ∧ (s.tensor i).recomp ≠ 0 ∧ (s.tensor i).state = .atHome ∧ (s.tensor i).pages ≤ s.freeFrames.length ∧ id ≠ recomputeId i) ∧
    (∃ (s : State) (k : Nat) (x : Nat) (id : Nat) (i : Nat) (f : Xfer), late s k x id i f ∧ unshadowed s id i f ∧ ((s.tensor i).recomp = 0 ∨ (s.tensor i).state ≠ .atHome)) ∧
    (∃ (s : State) (k : Nat) (x : Nat), (s.outstanding k)[x]? = none) ∧
    (∃ (s : State) (k : Nat) (x : Nat) (id : Nat) (j : Nat) (f : Xfer), (s.outstanding k)[x]? = some (id, j) ∧ (s.task id).flying[j]? = some f ∧ (s.power ≠ .on ∨ (s.task id).state ≠ .running ∨ f.issuedAt = noDeadline ∨ f.home = none)) := by
  refine ⟨⟨lateS { copy with words := [0x101, 0, 0, 0xFFFFFFFF] } true { Tensor.none with shBase := 8 }, 0, 0, 0, 0, { xfer 0x5000 with weight := true, home := some 0 }, (0, 0, 4), ?_⟩,
    ⟨lateS copy false { Tensor.none with recomp := 64 }, 0, 0, 0, 0, { xfer 0x5000 with weight := false, home := some 0 }, ?_⟩,
    ⟨lateS copy false Tensor.none, 0, 0, 0, 0, { xfer 0x5000 with weight := false, home := some 0 }, ?_⟩,
    ⟨up, 0, 0, ?_⟩,
    ⟨with_ { copy with state := .running, flying := [xfer 0x5000] }, 0, 0, 0, 0, xfer 0x5000, ?_⟩⟩ <;>
  repeat' first | exact canonB_ok (by decide +kernel) | decide +kernel | exact reachesB_ok (by decide +kernel) | exact settledB_ok (by decide +kernel) | exact Or.inl ⟨by decide +kernel, reachesH_ok (by decide +kernel)⟩ | refine And.intro ?_ ?_ | rfl | (intro _ h; cases h; done) | (intro _ _ h; cases h; done) | (intro _ _ _ h; cases h; done) | exact noneWaits_ok rfl | (unfold wellFormed; decide +kernel) | exact ⟨0, by decide +kernel⟩ | exact ⟨1, by decide +kernel⟩ | exact Or.inl ⟨_, rfl⟩ | exact Or.inl (by decide +kernel) | exact Or.inr (by decide +kernel) | constructor

theorem hyps_evaluationStarts :
    (∃ (s : State) (req : Requester), canonical s ∧ reaches s req 0x02020020 ∧ (s.dev = .ready ∨ s.dev = .running) ∧ s.lowp.busy = false) ∧
    (∃ (s : State) (id : Nat) (c : Task), s.tasks = [(id, c)] ∧ c.state = .committed ∧ c.status = .ok) ∧
    (∃ (s : State), ((∀ e, e ∈ s.tasks → e.2.state ≠ .committed))) ∧
    (∃ (s : State) (req : Requester), reaches s req 0x02020020 ∧ s.dev ≠ .ready ∧ s.dev ≠ .running) ∧
    (∃ (s : State) (req : Requester), reaches s req 0x02020020 ∧ (s.dev = .ready ∨ s.dev = .running) ∧ s.lowp.busy = true) := by
  refine ⟨⟨up, .coxswain, ?_⟩,
    ⟨{ up with tasks := [(0, { copy with state := .committed })] }, 0, { copy with state := .committed }, ?_⟩,
    ⟨up, ?_⟩,
    ⟨{ up with dev := .quiesced }, .coxswain, ?_⟩,
    ⟨{ up with lowp := { Lowp.init with busy := true } }, .coxswain, ?_⟩⟩ <;>
  repeat' first | exact canonB_ok (by decide +kernel) | decide +kernel | exact reachesB_ok (by decide +kernel) | exact settledB_ok (by decide +kernel) | exact Or.inl ⟨by decide +kernel, reachesH_ok (by decide +kernel)⟩ | refine And.intro ?_ ?_ | rfl | (intro _ h; cases h; done) | (intro _ _ h; cases h; done) | (intro _ _ _ h; cases h; done) | exact noneWaits_ok rfl | (unfold wellFormed; decide +kernel) | exact ⟨0, by decide +kernel⟩ | exact ⟨1, by decide +kernel⟩ | exact Or.inl ⟨_, rfl⟩ | exact Or.inl (by decide +kernel) | exact Or.inr (by decide +kernel) | constructor

theorem hyps_evaluationEnds :
    (∃ (s : State) (g : Nat) (d : Nat) (l : Nat), canonical s ∧ s.power = .on ∧ s.lowp.busy = true ∧ g = (s.lowp.tags.filter fun e => e.2.granted).length ∧ d = (s.lowp.tags.filter fun e => e.2.denied).length ∧ l = (s.lowp.tags.filter fun e => e.2.lowered).length) ∧
    (∃ (s : State), (s.power ≠ .on ∨ s.lowp.busy = false)) := by
  refine ⟨⟨{ up with lowp := { Lowp.init with busy := true, tags := [(1, { Tag.none with granted := true })] } }, 1, 0, 0, ?_⟩,
    ⟨up, ?_⟩⟩ <;>
  repeat' first | exact canonB_ok (by decide +kernel) | decide +kernel | exact reachesB_ok (by decide +kernel) | exact settledB_ok (by decide +kernel) | exact Or.inl ⟨by decide +kernel, reachesH_ok (by decide +kernel)⟩ | refine And.intro ?_ ?_ | rfl | (intro _ h; cases h; done) | (intro _ _ h; cases h; done) | (intro _ _ _ h; cases h; done) | exact noneWaits_ok rfl | (unfold wellFormed; decide +kernel) | exact ⟨0, by decide +kernel⟩ | exact ⟨1, by decide +kernel⟩ | exact Or.inl ⟨_, rfl⟩ | exact Or.inl (by decide +kernel) | exact Or.inr (by decide +kernel) | constructor

theorem hyps_beOverrun :
    (∃ (s : State) (k : Nat) (id : Nat), canonical s ∧ s.power = .on ∧ (s.scull k).task = some id ∧ (s.task id).state = .running ∧ (s.task id).lc = false ∧ (s.task id).overrun = false ∧ s.fld 0x02070090 16 16 ≠ 0 ∧ s.fld 0x02070090 16 16 < (s.task id).busyUs + (s.etc - (s.task id).startedAt)) ∧
    (∃ (s : State) (k : Nat) (id : Nat), (s.scull k).task = some id ∧ (s.power ≠ .on ∨ (s.task id).state ≠ .running ∨ (s.task id).lc = true ∨ (s.task id).overrun = true ∨ s.fld 0x02070090 16 16 = 0 ∨ (s.task id).busyUs + (s.etc - (s.task id).startedAt) ≤ s.fld 0x02070090 16 16)) := by
  refine ⟨⟨{ running with regs := [(0x1040020, 8), (0x02070000, 1), (0x02070090, 0x10000)] }, 0, 0, ?_⟩,
    ⟨with_ { copy with state := .running, overrun := true }, 0, 0, ?_⟩⟩ <;>
  repeat' first | exact canonB_ok (by decide +kernel) | decide +kernel | exact reachesB_ok (by decide +kernel) | exact settledB_ok (by decide +kernel) | exact Or.inl ⟨by decide +kernel, reachesH_ok (by decide +kernel)⟩ | refine And.intro ?_ ?_ | rfl | (intro _ h; cases h; done) | (intro _ _ h; cases h; done) | (intro _ _ _ h; cases h; done) | exact noneWaits_ok rfl | (unfold wellFormed; decide +kernel) | exact ⟨0, by decide +kernel⟩ | exact ⟨1, by decide +kernel⟩ | exact Or.inl ⟨_, rfl⟩ | exact Or.inl (by decide +kernel) | exact Or.inr (by decide +kernel) | constructor

theorem hyps_writesThatDoNotReach :
    (∃ (s : State) (c : Instr) (req : Requester) (off : Nat) (v : Word), canonical s ∧ busRow c = some (req, off, v) ∧ s.power ≠ .on) ∧
    (∃ (s : State) (c : Instr) (req : Requester) (off : Nat) (v : Word) (id : _), canonical s ∧ busRow c = some (req, off, v) ∧ req = .host id ∧ (s.host.rate = 0 ∨ s.locked 25 = false)) ∧
    (∃ (s : State) (c : Instr) (req : Requester) (off : Nat) (v : Word) (id : _), canonical s ∧ busRow c = some (req, off, v) ∧ req = .host id ∧ s.power = .on ∧ s.host.rate ≠ 0 ∧ s.locked 25 = true ∧ s.ideOpen = false) ∧
    (∃ (s : State) (c : Instr) (req : Requester) (off : Nat) (v : Word), canonical s ∧ busRow c = some (req, off, v) ∧ s.power = .on ∧ ((∀ id, req = .host id → s.host.rate ≠ 0 ∧ s.locked 25 = true ∧ s.ideOpen = true)) ∧ s.absentAt off = true) ∧
    (∃ (s : State) (c : Instr) (req : Requester) (off : Nat) (v : Word), canonical s ∧ busRow c = some (req, off, v) ∧ s.power = .on ∧ ((∀ id, req = .host id → s.host.rate ≠ 0 ∧ s.locked 25 = true ∧ s.ideOpen = true)) ∧ s.absentAt off = false ∧ s.answers off = false) := by
  refine ⟨⟨off, .globalApply 1 .coxswain, .coxswain, 0x100, 1, ?_⟩,
    ⟨{ up with host := { up.host with rate := 0 } }, .globalSnap 1 (.host 0), .host 0, 0x104, 1, 0, ?_⟩,
    ⟨{ up with host := { up.host with ideIo := false } }, .cqHeadWrite 511 1 (.host 9), .host 9, ringReg 511 0x20, 1, 9, ?_⟩,
    ⟨{ up with nv := { Nv.init with variant := .yd1t } }, .wakeRingTailWrite 0 0 1 .coxswain, .coxswain, 0x3400030, 1, ?_⟩,
    ⟨{ up with dunes := [(0, { Stack.init with state := .failed })] }, .wcbFlush 0 .coxswain [], .coxswain, duneReg 0 0x5C, 1, ?_⟩⟩ <;>
  repeat' first | exact canonB_ok (by decide +kernel) | decide +kernel | exact reachesB_ok (by decide +kernel) | exact settledB_ok (by decide +kernel) | exact Or.inl ⟨by decide +kernel, reachesH_ok (by decide +kernel)⟩ | refine And.intro ?_ ?_ | rfl | (intro _ h; cases h; done) | (intro _ _ h; cases h; done) | (intro _ _ _ h; cases h; done) | exact noneWaits_ok rfl | (unfold wellFormed; decide +kernel) | exact ⟨0, by decide +kernel⟩ | exact ⟨1, by decide +kernel⟩ | exact Or.inl ⟨_, rfl⟩ | exact Or.inl (by decide +kernel) | exact Or.inr (by decide +kernel) | constructor

theorem hyps_ringPointers :
    (∃ (s : State) (q : Nat) (v : Word) (req : Requester), canonical s ∧ reaches s req (doorbellOff q) ∧ (s.dev = .ready ∨ s.dev = .running) ∧ (v - (s.ring q).head).toNat ≤ s.ringSlots q) ∧
    (∃ (s : State) (q : Nat) (req : Requester), reaches s req (doorbellOff q) ∧ s.dev ≠ .ready ∧ s.dev ≠ .running) ∧
    (∃ (s : State) (q : Nat) (v : Word) (req : Requester), reaches s req (doorbellOff q) ∧ (s.dev = .ready ∨ s.dev = .running) ∧ s.ringSlots q < (v - (s.ring q).head).toNat) ∧
    (∃ (s : State) (q : Nat) (v : Word) (req : Requester), canonical s ∧ reaches s req (ringReg q 0x20) ∧ (v - (s.ring q).cqHead).toNat ≤ ((s.ring q).cqTail - (s.ring q).cqHead).toNat) ∧
    (∃ (s : State) (q : Nat) (v : Word) (req : Requester), reaches s req (ringReg q 0x20) ∧ ((s.ring q).cqTail - (s.ring q).cqHead).toNat < (v - (s.ring q).cqHead).toNat) := by
  refine ⟨⟨up, 0, 16, .coxswain, ?_⟩,
    ⟨{ up with dev := .quiesced }, 511, .coxswain, ?_⟩,
    ⟨up, 511, 17, .coxswain, ?_⟩,
    ⟨up, 0, 0, .coxswain, ?_⟩,
    ⟨up, 0, 1, .coxswain, ?_⟩⟩ <;>
  repeat' first | exact canonB_ok (by decide +kernel) | decide +kernel | exact reachesB_ok (by decide +kernel) | exact settledB_ok (by decide +kernel) | exact Or.inl ⟨by decide +kernel, reachesH_ok (by decide +kernel)⟩ | refine And.intro ?_ ?_ | rfl | (intro _ h; cases h; done) | (intro _ _ h; cases h; done) | (intro _ _ _ h; cases h; done) | exact noneWaits_ok rfl | (unfold wellFormed; decide +kernel) | exact ⟨0, by decide +kernel⟩ | exact ⟨1, by decide +kernel⟩ | exact Or.inl ⟨_, rfl⟩ | exact Or.inl (by decide +kernel) | exact Or.inr (by decide +kernel) | constructor

theorem hyps_ringStates :
    (∃ (s : State) (q : Nat) (v : Word) (req : Requester), canonical s ∧ q < 512 ∧ reaches s req (ringReg q 8) ∧ 4 ≤ bits v 0 5 ∧ bits v 0 5 ≤ 16 ∧ 4 ≤ bits v 5 5 ∧ bits v 5 5 ≤ 16 ∧ (s.ring q).state = .disabled) ∧
    (∃ (s : State) (q : Nat) (v : Word) (req : Requester), canonical s ∧ q < 512 ∧ reaches s req (ringReg q 8) ∧ 4 ≤ bits v 0 5 ∧ bits v 0 5 ≤ 16 ∧ 4 ≤ bits v 5 5 ∧ bits v 5 5 ≤ 16 ∧ ((s.ring q).state = .halted ∨ (s.ring q).state = .draining)) ∧
    (∃ (s : State) (q : Nat) (v : Word) (req : Requester), canonical s ∧ q < 512 ∧ reaches s req (ringReg q 8) ∧ bits v 0 10 = s.fld (ringReg q 8) 0 10 ∧ 4 ≤ bits v 0 5 ∧ bits v 0 5 ≤ 16 ∧ 4 ≤ bits v 5 5 ∧ bits v 5 5 ≤ 16 ∧ ((s.ring q).state = .active ∨ (s.ring q).state = .halted)) ∧
    (∃ (s : State) (q : Nat) (v : Word) (req : Requester), canonical s ∧ q < 512 ∧ reaches s req (ringReg q 8) ∧ (bits v 0 5 < 4 ∨ 16 < bits v 0 5 ∨ bits v 5 5 < 4 ∨ 16 < bits v 5 5)) ∧
    (∃ (s : State) (q : Nat), canonical s ∧ s.power = .on ∧ (s.ring q).deferred = true ∧ ((∀ a, (s.ring q).lastIrq = some a → a + s.fld (ringReg q 0x28) 0 16 ≤ s.etc))) ∧
    (∃ (s : State) (q : Nat), (s.power ≠ .on ∨ (s.ring q).deferred = false ∨ (∃ a, (s.ring q).lastIrq = some a ∧ s.etc < a + s.fld (ringReg q 0x28) 0 16))) := by
  refine ⟨⟨up, 511, 0x84, .coxswain, ?_⟩,
    ⟨{ up with rings := [(0, { Ring.init with state := .draining })] }, 0, 0x210, .coxswain, ?_⟩,
    ⟨{ up with rings := [(0, { Ring.init with state := .halted })] }, 0, 0x84, .coxswain, ?_⟩,
    ⟨up, 0, 0x83, .coxswain, ?_⟩,
    ⟨{ up with rings := [(0, { Ring.init with state := .active, deferred := true })] }, 0, ?_⟩,
    ⟨up, 0, ?_⟩⟩ <;>
  repeat' first | exact canonB_ok (by decide +kernel) | decide +kernel | exact reachesB_ok (by decide +kernel) | exact settledB_ok (by decide +kernel) | exact Or.inl ⟨by decide +kernel, reachesH_ok (by decide +kernel)⟩ | refine And.intro ?_ ?_ | rfl | (intro _ h; cases h; done) | (intro _ _ h; cases h; done) | (intro _ _ _ h; cases h; done) | exact noneWaits_ok rfl | (unfold wellFormed; decide +kernel) | exact ⟨0, by decide +kernel⟩ | exact ⟨1, by decide +kernel⟩ | exact Or.inl ⟨_, rfl⟩ | exact Or.inl (by decide +kernel) | exact Or.inr (by decide +kernel) | constructor

theorem hyps_ringVisit :
    (∃ (s : State) (q : Nat), canonical s ∧ s.power = .on ∧ s.dev = .running ∧ s.hostOpen = true ∧ s.nextRing = some q ∧ s.readsOut < 32) ∧
    (∃ (s : State) (q : Nat), (s.power ≠ .on ∨ s.dev ≠ .running ∨ s.hostOpen = false ∨ 32 ≤ s.readsOut ∨ s.nextRing ≠ some q)) := by
  refine ⟨⟨{ up0 with rings := [(0, { Ring.init with state := .active, tail := 1 })] }, 0, ?_⟩,
    ⟨up, 0, ?_⟩⟩ <;>
  repeat' first | exact canonB_ok (by decide +kernel) | decide +kernel | exact reachesB_ok (by decide +kernel) | exact settledB_ok (by decide +kernel) | exact Or.inl ⟨by decide +kernel, reachesH_ok (by decide +kernel)⟩ | refine And.intro ?_ ?_ | rfl | (intro _ h; cases h; done) | (intro _ _ h; cases h; done) | (intro _ _ _ h; cases h; done) | exact noneWaits_ok rfl | (unfold wellFormed; decide +kernel) | exact ⟨0, by decide +kernel⟩ | exact ⟨1, by decide +kernel⟩ | exact Or.inl ⟨_, rfl⟩ | exact Or.inl (by decide +kernel) | exact Or.inr (by decide +kernel) | constructor

theorem hyps_descriptorReads :
    (∃ (s : State) (q : Nat) (n : Nat) (first : Word) (rest : List (Word × Nat)), s.power = .on ∧ s.hostOpen = true ∧ (s.ring q).reads = (first, n) :: rest) ∧
    (∃ (s : State) (q : Nat) (seq : Word) (rest : List (Word × Nat)), canonical s ∧ s.power = .on ∧ s.hostOpen = true ∧ (s.ring q).reads = (seq, 1) :: rest ∧ (s.ring q).fence.isSome = true) ∧
    (∃ (s : State) (q : Nat) (c : Nat) (seq : Word) (rest : List (Word × Nat)) (bad : List Nat) (host : List Cell) (u : State) (v : State) (x : Task), canonical s ∧ s.power = .on ∧ s.hostOpen = true ∧ (s.ring q).reads = (seq, 1) :: rest ∧ (s.ring q).fence = none ∧ (s.ring q).waiting = [] ∧ u = fetchedFrom s q seq 1 rest bad host ∧ u.validate (u.task (taskId q seq)) = (.ok, x) ∧ v = (u.countBlocks x).setTask (taskId q seq) x ∧ v.deliverTo x = some c ∧ v.queued c < 256) ∧
    (∃ (s : State) (q : Nat) (seq : Word) (rest : List (Word × Nat)) (bad : List Nat) (host : List Cell) (u : State) (x : Task) (st : Status), canonical s ∧ settled s ∧ s.power = .on ∧ s.hostOpen = true ∧ (s.ring q).reads = (seq, 1) :: rest ∧ (s.ring q).fence = none ∧ u = fetchedFrom s q seq 1 rest bad host ∧ u.validate (u.task (taskId q seq)) = (st, x) ∧ st ≠ .ok) ∧
    (∃ (s : State) (q : Nat) (n : Nat) (seq : Word) (rest : List (Word × Nat)), canonical s ∧ s.power = .on ∧ (s.ring q).reads = (seq, n) :: rest ∧ (s.ring q).state = .active) ∧
    (∃ (s : State) (q : Nat) (res : Ending), ((s.ring q).reads = [] ∨ s.power ≠ .on ∨ (res = .ok ∧ s.hostOpen = false))) := by
  refine ⟨⟨descS, 0, 1, 0, [], ?_⟩,
    ⟨{ up0 with rings := [(0, { Ring.init with state := .active, reads := [(0, 1)], fence := some 5 })] }, 0, 0, [], ?_⟩,
    ⟨descS, 0, 0, 0, [], [], copyHost, fetchedFrom descS 0 0 1 [] [] copyHost, ((fetchedFrom descS 0 0 1 [] [] copyHost).countBlocks ((fetchedFrom descS 0 0 1 [] [] copyHost).validate ((fetchedFrom descS 0 0 1 [] [] copyHost).task (taskId 0 0))).2).setTask (taskId 0 0) ((fetchedFrom descS 0 0 1 [] [] copyHost).validate ((fetchedFrom descS 0 0 1 [] [] copyHost).task (taskId 0 0))).2, ((fetchedFrom descS 0 0 1 [] [] copyHost).validate ((fetchedFrom descS 0 0 1 [] [] copyHost).task (taskId 0 0))).2, ?_⟩,
    ⟨descS, 0, 0, [], [], [], fetchedFrom descS 0 0 1 [] [] [], ((fetchedFrom descS 0 0 1 [] [] []).validate ((fetchedFrom descS 0 0 1 [] [] []).task (taskId 0 0))).2, .badArgument, ?_⟩,
    ⟨descS, 0, 1, 0, [], ?_⟩,
    ⟨up, 0, .ok, ?_⟩⟩ <;>
  repeat' first | exact canonB_ok (by decide +kernel) | decide +kernel | exact reachesB_ok (by decide +kernel) | exact settledB_ok (by decide +kernel) | exact Or.inl ⟨by decide +kernel, reachesH_ok (by decide +kernel)⟩ | refine And.intro ?_ ?_ | rfl | (intro _ h; cases h; done) | (intro _ _ h; cases h; done) | (intro _ _ _ h; cases h; done) | exact noneWaits_ok rfl | (unfold wellFormed; decide +kernel) | exact ⟨0, by decide +kernel⟩ | exact ⟨1, by decide +kernel⟩ | exact Or.inl ⟨_, rfl⟩ | exact Or.inl (by decide +kernel) | exact Or.inr (by decide +kernel) | constructor

theorem hyps_writeCombining :
    (∃ (s : State) (n : Nat) (line : Nat) (e : WcbEntry), canonical s ∧ (s.dune n).wcb.find? (fun x => x.line == line && (s.dune n).entryDue s.etc x) = some e) ∧
    (∃ (s : State) (n : Nat) (line : Nat) (e : WcbEntry) (found : List (Nat × PieceCheck)), canonical s ∧ (s.dune n).wcb.find? (fun x => x.line == line && (s.dune n).entryDue s.etc x) = some e ∧ ((∀ b, b ∈ e.bytes → stackOf b.1 = n)) ∧ ((∀ x, x ∈ found → x.2 = .uncorrectable))) ∧
    (∃ (s : State) (n : Nat) (line : Nat), ((∀ e, e ∈ (s.dune n).wcb → e.line ≠ line ∨ (s.dune n).entryDue s.etc e = false))) ∧
    (∃ (s : State) (n : Nat) (req : Requester), canonical s ∧ reaches s req (duneReg n 0x5C)) := by
  refine ⟨⟨{ up with dunes := [(0, { Stack.init with wcb := [⟨0, [(0, 1)], 0⟩] })] }, 0, 0, ⟨0, [(0, 1)], 0⟩, ?_⟩,
    ⟨{ up with dunes := [(0, { Stack.init with wcb := [⟨0, [(0, 1)], 0⟩] })] }, 0, 0, ⟨0, [(0, 1)], 0⟩, [], ?_⟩,
    ⟨up, 0, 0, ?_⟩,
    ⟨{ up with dunes := [(0, { Stack.init with wcb := [⟨0, [(0, 1)], 0⟩] })] }, 0, .coxswain, ?_⟩⟩ <;>
  repeat' first | exact canonB_ok (by decide +kernel) | decide +kernel | exact reachesB_ok (by decide +kernel) | exact settledB_ok (by decide +kernel) | exact Or.inl ⟨by decide +kernel, reachesH_ok (by decide +kernel)⟩ | refine And.intro ?_ ?_ | rfl | (intro _ h; cases h; done) | (intro _ _ h; cases h; done) | (intro _ _ _ h; cases h; done) | exact noneWaits_ok rfl | (unfold wellFormed; decide +kernel) | exact ⟨0, by decide +kernel⟩ | exact ⟨1, by decide +kernel⟩ | exact Or.inl ⟨_, rfl⟩ | exact Or.inl (by decide +kernel) | exact Or.inr (by decide +kernel) | constructor

theorem hyps_stackTemperature :
    (∃ (s : State) (n : Nat) (temp : Nat), banded n s ∧ nextBand (s.dune n).band temp = (s.dune n).band) ∧
    (∃ (s : State) (n : Nat) (temp : Nat) (b : Nat), banded n s ∧ nextBand (s.dune n).band temp = b ∧ b ≠ (s.dune n).band ∧ b ≠ 5) ∧
    (∃ (s : State) (n : Nat) (temp : Nat), banded n s ∧ (s.dune n).band < 5 ∧ 100 ≤ temp) ∧
    (∃ (s : State) (n : Nat) (temp : Nat), banded n s ∧ (s.dune n).band < 5 ∧ 100 ≤ temp ∧ (s.dune n).wcb = []) ∧
    (∃ (s : State) (n : Nat), (s.background = false ∨ 48 ≤ n ∨ (s.dune n).state = .failed ∨ (s.dune n).state = .offline)) ∧
    (∃ (b : Nat) (t : Nat) (u : _), b ≤ 5 ∧ u ≤ 5 ∧ bandLow u ≤ t) ∧
    (∃ (b : Nat) (t : Nat), b ≤ 5 ∧ (t < bandLow (b + 1) ∨ b = 5) ∧ bandLow b < t + 3) ∧
    (∃ (b : Nat) (t : Nat), b ≤ 5 ∧ 0 < b ∧ t + 3 ≤ bandLow b) ∧
    (∃ (s : State) (n : Nat) (a : Nat), canonical s ∧ s.power = .on ∧ n < 48 ∧ (s.dune n).state = .stopped ∧ (s.dune n).band = 5 ∧ (s.dune n).band5At = some a ∧ a + 100000 < s.etc) ∧
    (∃ (s : State) (n : Nat), (s.power ≠ .on ∨ (s.dune n).state ≠ .stopped ∨ (s.dune n).band ≠ 5 ∨ (s.dune n).band5At = none ∨ (∃ a, (s.dune n).band5At = some a ∧ s.etc ≤ a + 100000))) := by
  refine ⟨⟨up, 0, 69, ?_⟩,
    ⟨up, 47, 70, 1, ?_⟩,
    ⟨up, 0, 100, ?_⟩,
    ⟨up, 0, 100, ?_⟩,
    ⟨off, 0, ?_⟩,
    ⟨5, 100, 5, ?_⟩,
    ⟨5, 98, ?_⟩,
    ⟨1, 67, ?_⟩,
    ⟨{ up with dunes := [(47, { Stack.init with state := .stopped, band := 5, band5At := some 0 })] }, 47, 0, ?_⟩,
    ⟨up, 47, ?_⟩⟩ <;>
  repeat' first | exact canonB_ok (by decide +kernel) | decide +kernel | exact reachesB_ok (by decide +kernel) | exact settledB_ok (by decide +kernel) | exact Or.inl ⟨by decide +kernel, reachesH_ok (by decide +kernel)⟩ | refine And.intro ?_ ?_ | rfl | (intro _ h; cases h; done) | (intro _ _ h; cases h; done) | (intro _ _ _ h; cases h; done) | exact noneWaits_ok rfl | (unfold wellFormed; decide +kernel) | exact ⟨0, by decide +kernel⟩ | exact ⟨1, by decide +kernel⟩ | exact Or.inl ⟨_, rfl⟩ | exact Or.inl (by decide +kernel) | exact Or.inr (by decide +kernel) | constructor

theorem hyps_duneReads :
    (∃ (s : State) (n : Nat) (ps : List PieceCheck), patrolled n s ∧ (s.dune n).parity = [] ∧ ((∀ p, p ∈ ps → p = .clean))) ∧
    (∃ (s : State) (n : Nat) (o : Nat), patrolled n s ∧ o = (s.dune n).scrub * 256 ∧ (s.dune n).parity = []) ∧
    (∃ (s : State) (n : Nat) (o : Nat), patrolled n s ∧ o = (s.dune n).scrub * 256 ∧ (s.dune n).parity = [(duneChan o, 2)]) ∧
    (∃ (s : State) (n : Nat) (o : Nat), patrolled n s ∧ o = (s.dune n).scrub * 256 ∧ s.fld (duneReg n 0xC) 4 1 = 1 ∧ s.fld (duneReg n 0xC) 0 4 ≤ 1 ∧ (s.dune n).remap = [] ∧ (s.dune n).burnt = []) ∧
    (∃ (s : State) (n : Nat) (o : Nat), patrolled n s ∧ o = (s.dune n).scrub * 256 ∧ (s.dune n).ueTimes = [] ∧ 2 ≤ s.fld (duneReg n 0x18) 0 8 ∧ (s.dune n).logged = [] ∧ s.fld (duneReg n 0x28) 31 1 = 0) ∧
    (∃ (s : State) (n : Nat), (s.background = false ∨ 48 ≤ n ∨ (s.dune n).state ≠ .online)) ∧
    (∃ (s : State) (n : Nat) (c : Nat), canonical s ∧ s.background = true ∧ n < 48 ∧ c < 128 ∧ (s.dune n).state = .online ∧ c ∉ (s.dune n).chFailed) ∧
    (∃ (s : State) (n : Nat) (c : Nat) (ok : Bool), (ok = true ∨ s.background = false ∨ 48 ≤ n ∨ 128 ≤ c ∨ (s.dune n).state ≠ .online ∨ c ∈ (s.dune n).chFailed)) := by
  refine ⟨⟨up, 0, [.clean], ?_⟩,
    ⟨up, 0, 0, ?_⟩,
    ⟨{ up with dunes := [(0, { Stack.init with parity := [(duneChan 0, 2)] })] }, 0, 0, ?_⟩,
    ⟨{ up with regs := [(0x0300000C, 0x11)] }, 0, 0, ?_⟩,
    ⟨{ up with regs := [(0x03000018, 2)] }, 0, 0, ?_⟩,
    ⟨off, 0, ?_⟩,
    ⟨up, 47, 127, ?_⟩,
    ⟨up, 0, 0, true, ?_⟩⟩ <;>
  repeat' first | exact canonB_ok (by decide +kernel) | decide +kernel | exact reachesB_ok (by decide +kernel) | exact settledB_ok (by decide +kernel) | exact Or.inl ⟨by decide +kernel, reachesH_ok (by decide +kernel)⟩ | refine And.intro ?_ ?_ | rfl | (intro _ h; cases h; done) | (intro _ _ h; cases h; done) | (intro _ _ _ h; cases h; done) | exact noneWaits_ok rfl | (unfold wellFormed; decide +kernel) | exact ⟨0, by decide +kernel⟩ | exact ⟨1, by decide +kernel⟩ | exact Or.inl ⟨_, rfl⟩ | exact Or.inl (by decide +kernel) | exact Or.inr (by decide +kernel) | constructor

theorem hyps_sramScrub :
    (∃ (s : State) (f : PieceCheck), (s.background = false ∨ f = .clean)) ∧
    (∃ (s : State) (k : Nat), canonical s ∧ s.background = true ∧ k < 12288 ∧ (s.scull k).state = .good) ∧
    (∃ (s : State) (k : Nat), canonical s ∧ s.background = true ∧ k < 12288 ∧ (s.scull k).state = .good ∧ memErrors s k < s.ueLimit (k / 768)) ∧
    (∃ (s : State) (c : Nat), canonical s ∧ s.background = true ∧ c < 768 ∧ (s.crew c).state = .good ∧ (s.recentFaults (c / 48) (s.etc :: (s.crew c).ueTimes)).length < s.ueLimit (c / 48)) ∧
    (∃ (s : State) (d : Nat), canonical s ∧ s.background = true ∧ d < 4) ∧
    (∃ (s : State) (d : Nat) (g : Nat) (k : Nat) (c : Coll), canonical s ∧ s.background = true ∧ d < 4 ∧ s.colls.running = [(k, c)] ∧ c.group = g ∧ c.die = d ∧ c.claim ≠ 0 ∧ c.poison = false ∧ c.root = true ∧ c.phase = 2) := by
  refine ⟨⟨off, .corrected, ?_⟩,
    ⟨up, 12287, ?_⟩,
    ⟨up, 12287, ?_⟩,
    ⟨up, 767, ?_⟩,
    ⟨up, 3, ?_⟩,
    ⟨{ up with colls := ⟨[(7, { Coll.none with claim := 1, root := true, phase := 2 })], [], []⟩ }, 0, 0, 7, { Coll.none with claim := 1, root := true, phase := 2 }, ?_⟩⟩ <;>
  repeat' first | exact canonB_ok (by decide +kernel) | decide +kernel | exact reachesB_ok (by decide +kernel) | exact settledB_ok (by decide +kernel) | exact Or.inl ⟨by decide +kernel, reachesH_ok (by decide +kernel)⟩ | refine And.intro ?_ ?_ | rfl | (intro _ h; cases h; done) | (intro _ _ h; cases h; done) | (intro _ _ _ h; cases h; done) | exact noneWaits_ok rfl | (unfold wellFormed; decide +kernel) | exact ⟨0, by decide +kernel⟩ | exact ⟨1, by decide +kernel⟩ | exact Or.inl ⟨_, rfl⟩ | exact Or.inl (by decide +kernel) | exact Or.inr (by decide +kernel) | constructor

theorem hyps_flashAndSensors :
    (∃ (s : State) (page : Nat), canonical s ∧ s.background = true ∧ s.hasFlash = true ∧ s.locked 34 = true ∧ page < s.flashPages ∧ page ∉ s.nv.badPages) ∧
    (∃ (s : State) (page : Nat) (ok : Bool), (ok = true ∨ s.background = false ∨ s.hasFlash = false ∨ page ∈ s.nv.badPages)) ∧
    (∃ (s : State) (n : Nat), Tab.wf noSensor s.pwr.sensors = true ∧ s.background = true ∧ n < 964 ∧ n ≠ 512 ∧ s.sensor 512 = noSensor) ∧
    (∃ (s : State) (v : Word), Tab.wf noSensor s.pwr.sensors = true ∧ s.background = true ∧ v ≠ noSensor) ∧
    (∃ (s : State), s.background = false) := by
  refine ⟨⟨up, 0, ?_⟩,
    ⟨up, 0, true, ?_⟩,
    ⟨up, 963, ?_⟩,
    ⟨up, 5, ?_⟩,
    ⟨off, ?_⟩⟩ <;>
  repeat' first | exact canonB_ok (by decide +kernel) | decide +kernel | exact reachesB_ok (by decide +kernel) | exact settledB_ok (by decide +kernel) | exact Or.inl ⟨by decide +kernel, reachesH_ok (by decide +kernel)⟩ | refine And.intro ?_ ?_ | rfl | (intro _ h; cases h; done) | (intro _ _ h; cases h; done) | (intro _ _ _ h; cases h; done) | exact noneWaits_ok rfl | (unfold wellFormed; decide +kernel) | exact ⟨0, by decide +kernel⟩ | exact ⟨1, by decide +kernel⟩ | exact Or.inl ⟨_, rfl⟩ | exact Or.inl (by decide +kernel) | exact Or.inr (by decide +kernel) | constructor

theorem hyps_tierCommandRefused :
    (∃ (s : State) (v : Word) (req : Requester), canonical s ∧ reaches s req 0x02030060 ∧ (bits v 0 4 = 0 ∨ 7 ≤ bits v 0 4) ∧ s.dev ≠ .ready ∧ s.dev ≠ .running) ∧
    (∃ (s : State) (v : Word) (req : Requester), canonical s ∧ reaches s req 0x02030060 ∧ (bits v 0 4 = 0 ∨ 7 ≤ bits v 0 4) ∧ (s.dev = .ready ∨ s.dev = .running) ∧ s.tier.cmd = none) := by
  refine ⟨⟨{ up with dev := .quiesced }, 0, .coxswain, ?_⟩,
    ⟨up, 7, .coxswain, ?_⟩⟩ <;>
  repeat' first | exact canonB_ok (by decide +kernel) | decide +kernel | exact reachesB_ok (by decide +kernel) | exact settledB_ok (by decide +kernel) | exact Or.inl ⟨by decide +kernel, reachesH_ok (by decide +kernel)⟩ | refine And.intro ?_ ?_ | rfl | (intro _ h; cases h; done) | (intro _ _ h; cases h; done) | (intro _ _ _ h; cases h; done) | exact noneWaits_ok rfl | (unfold wellFormed; decide +kernel) | exact ⟨0, by decide +kernel⟩ | exact ⟨1, by decide +kernel⟩ | exact Or.inl ⟨_, rfl⟩ | exact Or.inl (by decide +kernel) | exact Or.inr (by decide +kernel) | constructor
theorem hyps_tierCommandRefused_1 : ∃ (s : State) (c : Instr) (op : Nat) (i : Nat) (req : Requester), canonical s ∧ tierOp c = some (op, i, req) ∧ reaches s req 0x02030060 ∧ s.tierAbsent op i = true ∧ (¬ tierLegal s op ∨ s.tier.cmd.isSome = true) :=
  ⟨{ up with nv := { Nv.init with variant := .yd1e }, regs := [(0x02030028, 1)], tier := { Tier.init with tensors := [(0, { Tensor.none with state := .atHome })], cmd := some (3, 0) } }, .tierLoad 0 .coxswain [], 3, 0, .coxswain, by exact ⟨canonB_ok (by decide +kernel), rfl, reachesB_ok (by decide +kernel), by decide +kernel, Or.inr (by decide +kernel)⟩⟩
theorem hyps_tierCommandRefused_2 : ∃ (s : State) (c : Instr) (op : Nat) (i : Nat) (req : Requester), canonical s ∧ tierOp c = some (op, i, req) ∧ reaches s req 0x02030060 ∧ s.tierAbsent op i = false ∧ ¬ tierLegal s op :=
  ⟨{ up with dev := .quiesced }, .tierFlush .coxswain, 4, 0, .coxswain, by exact ⟨canonB_ok (by decide +kernel), rfl, reachesB_ok (by decide +kernel), by decide +kernel, by unfold tierLegal; decide +kernel⟩⟩
theorem hyps_tierCommandRefused_3 : ∃ (s : State) (c : Instr) (op : Nat) (i : Nat) (req : Requester), canonical s ∧ tierOp c = some (op, i, req) ∧ reaches s req 0x02030060 ∧ s.tierAbsent op i = false ∧ tierLegal s op ∧ s.tier.cmd.isSome = true :=
  ⟨{ up with dev := .quiescing, tier := { Tier.init with cmd := some (3, 0) } }, .tierFlush .coxswain, 4, 0, .coxswain, by exact ⟨canonB_ok (by decide +kernel), rfl, reachesB_ok (by decide +kernel), by decide +kernel, by unfold tierLegal; decide +kernel, by decide +kernel⟩⟩

theorem hyps_tierRegistry :
    (∃ (s : State) (i : Nat) (req : Requester) (x : Tensor), tierReady s req ∧ s.tierAbsent 1 i = false ∧ s.registerCheck i = .ok ∧ x = tensorOf (s.load (s.regEntryDa i) 64) ∧ x.prefT1 = false) ∧
    (∃ (s : State) (i : Nat) (req : Requester) (st : Status), tierReady s req ∧ s.tierAbsent 1 i = false ∧ s.registerCheck i = st ∧ st ≠ .ok) ∧
    (∃ (s : State) (i : Nat) (req : Requester), tierReady s req ∧ s.tierAbsent 1 i = true) ∧
    (∃ (s : State) (i : Nat) (req : Requester), tierReady s req ∧ (s.tensor i).unpinned = true ∧ ((s.tensor i).state = .atHome ∨ ((s.tensor i).state = .resident ∧ (s.tensor i).dirty = false))) ∧
    (∃ (s : State) (i : Nat) (req : Requester), tierReady s req ∧ (s.tensor i).unpinned = true ∧ (s.tensor i).state = .resident ∧ (s.tensor i).dirty = true) ∧
    (∃ (s : State) (i : Nat) (req : Requester), tierReady s req ∧ (s.tensor i).unpinned = true ∧ (s.tensor i).state = .copyOut) ∧
    (∃ (s : State) (i : Nat) (req : Requester), tierReady s req ∧ (s.tensor i).state = .unregistered) ∧
    (∃ (s : State) (i : Nat) (req : Requester), tierReady s req ∧ (s.tensor i).state ≠ .unregistered ∧ ((s.tensor i).unpinned = false ∨ (s.tensor i).state = .copyIn ∨ (s.tensor i).state = .recompute)) := by
  refine ⟨⟨{ up with regs := [(0x02030008, 1), (0x0203001C, 4)], mem := [(0, 1), (10, 0x20), (16, 64)] }, 0, .coxswain, tensorOf (({ up with regs := [(0x02030008, 1), (0x0203001C, 4)], mem := [(0, 1), (10, 0x20), (16, 64)] }).load (({ up with regs := [(0x02030008, 1), (0x0203001C, 4)], mem := [(0, 1), (10, 0x20), (16, 64)] }).regEntryDa 0) 64), ?_⟩,
    ⟨up, 0, .coxswain, .badArgument, ?_⟩,
    ⟨{ up with nv := { Nv.init with variant := .yd1e }, regs := [(0x02030028, 1)] }, 0, .coxswain, ?_⟩,
    ⟨{ up with tier := { Tier.init with tensors := [(0, { Tensor.none with state := .atHome })] } }, 0, .coxswain, ?_⟩,
    ⟨{ up with tier := { Tier.init with tensors := [(0, { Tensor.none with state := .resident, dirty := true })] } }, 0, .coxswain, ?_⟩,
    ⟨{ up with tier := { Tier.init with tensors := [(0, { Tensor.none with state := .copyOut })] } }, 0, .coxswain, ?_⟩,
    ⟨up, 0xFFFFF, .coxswain, ?_⟩,
    ⟨{ up with tier := { Tier.init with tensors := [(0, { Tensor.none with state := .resident, pinsR := [3] })] } }, 0, .coxswain, ?_⟩⟩ <;>
  repeat' first | exact canonB_ok (by decide +kernel) | decide +kernel | exact reachesB_ok (by decide +kernel) | exact settledB_ok (by decide +kernel) | exact Or.inl ⟨by decide +kernel, reachesH_ok (by decide +kernel)⟩ | refine And.intro ?_ ?_ | rfl | (intro _ h; cases h; done) | (intro _ _ h; cases h; done) | (intro _ _ _ h; cases h; done) | exact noneWaits_ok rfl | (unfold wellFormed; decide +kernel) | exact ⟨0, by decide +kernel⟩ | exact ⟨1, by decide +kernel⟩ | exact Or.inl ⟨_, rfl⟩ | exact Or.inl (by decide +kernel) | exact Or.inr (by decide +kernel) | constructor

theorem hyps_tierMoves :
    (∃ (s : State) (i : Nat) (req : Requester), tierReady s req ∧ s.hasFlash = true ∧ (s.tensor i).state = .atHome ∧ (s.tensor i).unpinned = true ∧ s.nameIn 1 (s.tensor i).name 1 = true ∧ loadSrc s + (s.tensor i).size ≤ duneEnd ∧ ((∀ e, e ∈ s.tier.tensors → e.2.state = .unregistered ∨ loadSrc s + (s.tensor i).size ≤ e.2.name ∨ e.2.name + e.2.pages * tierPage ≤ loadSrc s))) ∧
    (∃ (s : State) (i : Nat) (req : Requester), tierReady s req ∧ (s.tensor i).state ≠ .atHome ∧ s.tierAbsent 3 i = false) ∧
    (∃ (s : State) (i : Nat) (req : Requester), tierReady s req ∧ s.hasFlash = false ∧ ((s.tensor i).state = .unregistered ∨ s.nameIn 1 (s.tensor i).name 1 = true)) ∧
    (∃ (s : State) (req : Requester), tierReady s req) ∧
    (∃ (s : State) (i : Nat) (req : Requester), tierReady s req ∧ (s.tensor i).state = .atHome ∧ s.moves < 8 ∧ (s.tensor i).pages ≤ s.freeFrames.length) ∧
    (∃ (s : State) (i : Nat) (req : Requester), tierReady s req ∧ (s.tensor i).state ≠ .atHome) ∧
    (∃ (s : State) (i : Nat) (req : Requester), tierReady s req ∧ (s.tensor i).state = .resident ∧ (s.tensor i).unpinned = true ∧ ((s.tensor i).dirty = false ∨ s.moves < 8)) ∧
    (∃ (s : State) (i : Nat) (req : Requester), tierReady s req ∧ (s.tensor i).state = .resident ∧ (s.tensor i).unpinned = true ∧ (s.tensor i).dirty = true ∧ 8 ≤ s.moves) ∧
    (∃ (s : State) (i : Nat) (req : Requester), tierReady s req ∧ (s.tensor i).state = .unregistered) ∧
    (∃ (s : State) (i : Nat) (req : Requester), tierReady s req ∧ (s.tensor i).state = .atHome) ∧
    (∃ (s : State) (i : Nat) (req : Requester), tierReady s req ∧ (((s.tensor i).state = .resident ∧ (s.tensor i).unpinned = false) ∨ (s.tensor i).state = .copyIn ∨ (s.tensor i).state = .copyOut ∨ (s.tensor i).state = .recompute)) := by
  refine ⟨⟨{ up with tier := { Tier.init with tensors := [(0, { Tensor.none with state := .atHome, size := 64 })] }, regs := [(0x02030028, 1), (0x02030064, 0x400000)] }, 0, .coxswain, ?_⟩,
    ⟨up, 0, .coxswain, ?_⟩,
    ⟨{ up with nv := { Nv.init with variant := .yd1e } }, 0, .coxswain, ?_⟩,
    ⟨up, .coxswain, ?_⟩,
    ⟨{ up with tier := { Tier.init with tensors := [(0, { Tensor.none with state := .atHome, size := 0x200000 })] }, regs := [(0x02030100, 0x20000)] }, 0, .coxswain, ?_⟩,
    ⟨up, 0, .coxswain, ?_⟩,
    ⟨{ up with tier := { Tier.init with tensors := [(0, { Tensor.none with state := .resident })] } }, 0, .coxswain, ?_⟩,
    ⟨{ up with tier := { Tier.init with tensors := [(0, { Tensor.none with state := .resident, dirty := true }), (1, { Tensor.none with state := .copyIn }), (2, { Tensor.none with state := .copyIn }), (3, { Tensor.none with state := .copyIn }), (4, { Tensor.none with state := .copyIn }), (5, { Tensor.none with state := .copyIn }), (6, { Tensor.none with state := .copyIn }), (7, { Tensor.none with state := .copyIn }), (8, { Tensor.none with state := .copyIn })] } }, 0, .coxswain, ?_⟩,
    ⟨up, 0, .coxswain, ?_⟩,
    ⟨{ up with tier := { Tier.init with tensors := [(0, { Tensor.none with state := .atHome })] } }, 0, .coxswain, ?_⟩,
    ⟨{ up with tier := { Tier.init with tensors := [(0, { Tensor.none with state := .copyOut })] } }, 0, .coxswain, ?_⟩⟩ <;>
  repeat' first | exact canonB_ok (by decide +kernel) | decide +kernel | exact reachesB_ok (by decide +kernel) | exact settledB_ok (by decide +kernel) | exact Or.inl ⟨by decide +kernel, reachesH_ok (by decide +kernel)⟩ | refine And.intro ?_ ?_ | rfl | (intro _ h; cases h; done) | (intro _ _ h; cases h; done) | (intro _ _ _ h; cases h; done) | exact noneWaits_ok rfl | (unfold wellFormed; decide +kernel) | exact ⟨0, by decide +kernel⟩ | exact ⟨1, by decide +kernel⟩ | exact Or.inl ⟨_, rfl⟩ | exact Or.inl (by decide +kernel) | exact Or.inr (by decide +kernel) | constructor

theorem hyps_tensorCopies :
    (∃ (s : State) (i : Nat) (host : List Cell), copiedIn s i host) ∧
    (∃ (s : State) (i : Nat) (host : List Cell), canonical s ∧ settled s ∧ noneWaits s ∧ Tab.wf Tensor.none s.tier.tensors = true ∧ copiedIn s i host) ∧
    (∃ (s : State) (i : Nat), s.power = .on ∧ (s.tensor i).state = .copyIn) ∧
    (∃ (s : State) (i : Nat), canonical s ∧ settled s ∧ noneWaits s ∧ Tab.wf Tensor.none s.tier.tensors = true ∧ s.power = .on ∧ (s.tensor i).state = .copyIn) ∧
    (∃ (s : State) (i : Nat), s.power = .on ∧ (s.tensor i).state = .copyOut ∧ s.tier.cmd ≠ some (2, i) ∧ s.hostOpen = true) ∧
    (∃ (s : State) (i : Nat), s.power = .on ∧ (s.tensor i).state = .copyOut ∧ s.tier.cmd ≠ some (2, i)) ∧
    (∃ (s : State) (i : Nat), canonical s ∧ settled s ∧ noneWaits s ∧ Tab.wf Tensor.none s.tier.tensors = true ∧ s.power = .on ∧ (s.tensor i).state = .copyOut ∧ s.hostOpen = true) ∧
    (∃ (s : State) (i : Nat), canonical s ∧ settled s ∧ noneWaits s ∧ Tab.wf Tensor.none s.tier.tensors = true ∧ s.power = .on ∧ (s.tensor i).state = .copyOut) ∧
    (∃ (s : State) (i : Nat), (s.power ≠ .on ∨ (s.tensor i).state ≠ .copyIn)) ∧
    (∃ (s : State) (i : Nat), (s.power ≠ .on ∨ (s.tensor i).state ≠ .copyOut ∨ s.tier.cmd = some (2, i))) := by
  refine ⟨⟨{ up with tier := { Tier.init with tensors := [(0, { Tensor.none with state := .copyIn })] } }, 0, [], ?_⟩,
    ⟨{ up with tier := { Tier.init with tensors := [(0, { Tensor.none with state := .copyIn })] } }, 0, [], ?_⟩,
    ⟨{ up with tier := { Tier.init with tensors := [(0, { Tensor.none with state := .copyIn })] } }, 0, ?_⟩,
    ⟨{ up with tier := { Tier.init with tensors := [(0, { Tensor.none with state := .copyIn })] } }, 0, ?_⟩,
    ⟨{ up with tier := { Tier.init with tensors := [(0, { Tensor.none with state := .copyOut })] } }, 0, ?_⟩,
    ⟨{ up with tier := { Tier.init with tensors := [(0, { Tensor.none with state := .copyOut })] } }, 0, ?_⟩,
    ⟨{ up with tier := { Tier.init with tensors := [(0, { Tensor.none with state := .copyOut })] } }, 0, ?_⟩,
    ⟨{ up with tier := { Tier.init with tensors := [(0, { Tensor.none with state := .copyOut })] } }, 0, ?_⟩,
    ⟨up, 0, ?_⟩,
    ⟨up, 0, ?_⟩⟩ <;>
  repeat' first | exact canonB_ok (by decide +kernel) | decide +kernel | exact reachesB_ok (by decide +kernel) | exact settledB_ok (by decide +kernel) | exact Or.inl ⟨by decide +kernel, reachesH_ok (by decide +kernel)⟩ | refine And.intro ?_ ?_ | rfl | (intro _ h; cases h; done) | (intro _ _ h; cases h; done) | (intro _ _ _ h; cases h; done) | exact noneWaits_ok rfl | (unfold wellFormed; decide +kernel) | exact ⟨0, by decide +kernel⟩ | exact ⟨1, by decide +kernel⟩ | exact Or.inl ⟨_, rfl⟩ | exact Or.inl (by decide +kernel) | exact Or.inr (by decide +kernel) | constructor

theorem hyps_tierCommandEnds :
    (∃ (s : State) (i : Nat), s.power = .on ∧ s.tier.cmd = some (2, i) ∧ (s.tensor i).state = .copyOut ∧ s.hostOpen = true) ∧
    (∃ (s : State) (i : Nat), canonical s ∧ settled s ∧ Tab.wf Tensor.none s.tier.tensors = true ∧ s.power = .on ∧ s.tier.cmd = some (2, i) ∧ (s.tensor i).state = .copyOut ∧ s.hostOpen = true) ∧
    (∃ (s : State) (i : Nat), canonical s ∧ settled s ∧ Tab.wf Tensor.none s.tier.tensors = true ∧ s.power = .on ∧ s.tier.cmd = some (2, i) ∧ (s.tensor i).state = .copyOut) ∧
    (∃ (s : State) (i : Nat), canonical s ∧ s.power = .on ∧ s.tier.cmd = some (3, i) ∧ s.flashOpen = true ∧ ((∀ c, c ∈ s.tier.loading → flashBase ≤ c.1 ∧ c.1 < flashEnd))) ∧
    (∃ (s : State) (i : Nat) (ok : Bool), s.power = .on ∧ s.tier.cmd = some (3, i) ∧ (ok = false ∨ s.flashOpen = false)) ∧
    (∃ (s : State) (i : Nat), canonical s ∧ Tab.wf Tensor.none s.tier.tensors = true ∧ s.power = .on ∧ s.tier.cmd = some (4, i) ∧ s.hostOpen = true) ∧
    (∃ (s : State), (s.power ≠ .on ∨ s.tier.cmd = none)) ∧
    (∃ (s : State) (n : Nat) (k : Nat), canonical s ∧ Tab.wf Tensor.none s.tier.tensors = true ∧ ((∀ e, e ∈ s.tier.tensors → Tab.wf 0 e.2.heat = true)) ∧ n = (s.reg 0x02030030).toNat ∧ s.power = .on ∧ n ≠ 0 ∧ k = (s.etc - s.tier.decayAt) / n ∧ 1 ≤ k) ∧
    (∃ (s : State), (s.power ≠ .on ∨ s.reg 0x02030030 = 0 ∨ s.etc < s.tier.decayAt + (s.reg 0x02030030).toNat)) := by
  refine ⟨⟨{ up with tier := { Tier.init with tensors := [(0, { Tensor.none with state := .copyOut })], cmd := some (2, 0) } }, 0, ?_⟩,
    ⟨{ up with tier := { Tier.init with tensors := [(0, { Tensor.none with state := .copyOut })], cmd := some (2, 0) } }, 0, ?_⟩,
    ⟨{ up with tier := { Tier.init with tensors := [(0, { Tensor.none with state := .copyOut })], cmd := some (2, 0) } }, 0, ?_⟩,
    ⟨{ up with tier := { Tier.init with tensors := [(0, { Tensor.none with state := .atHome })], cmd := some (3, 0), loading := [(flashBase, 1)] } }, 0, ?_⟩,
    ⟨{ up with tier := { Tier.init with tensors := [(0, { Tensor.none with state := .atHome })], cmd := some (3, 0) } }, 0, false, ?_⟩,
    ⟨{ up with tier := { Tier.init with tensors := [(0, { Tensor.none with state := .atHome })], cmd := some (4, 0) } }, 0, ?_⟩,
    ⟨up, ?_⟩,
    ⟨{ up with regs := [(0x02030030, 1000)] }, 1000, 5000, ?_⟩,
    ⟨off, ?_⟩⟩ <;>
  repeat' first | exact canonB_ok (by decide +kernel) | decide +kernel | exact reachesB_ok (by decide +kernel) | exact settledB_ok (by decide +kernel) | exact Or.inl ⟨by decide +kernel, reachesH_ok (by decide +kernel)⟩ | refine And.intro ?_ ?_ | rfl | (intro _ h; cases h; done) | (intro _ _ h; cases h; done) | (intro _ _ _ h; cases h; done) | exact noneWaits_ok rfl | (unfold wellFormed; decide +kernel) | exact ⟨0, by decide +kernel⟩ | exact ⟨1, by decide +kernel⟩ | exact Or.inl ⟨_, rfl⟩ | exact Or.inl (by decide +kernel) | exact Or.inr (by decide +kernel) | constructor

theorem hyps_wakeTail :
    (∃ (s : State) (w : Nat) (r : Nat) (v : Word) (req : Requester), canonical s ∧ Tab.wf 0 (s.wake w).tail = true ∧ reaches s req (wakeRingReg w r 0x30) ∧ (s.dev = .ready ∨ s.dev = .running) ∧ (v - (s.wake w).headOf r).toNat ≤ s.wakeSlots w r) ∧
    (∃ (s : State) (w : Nat) (r : Nat) (v : Word) (req : Requester), reaches s req (wakeRingReg w r 0x30) ∧ (s.dev = .ready ∨ s.dev = .running) ∧ s.wakeSlots w r < (v - (s.wake w).headOf r).toNat) ∧
    (∃ (s : State) (w : Nat) (r : Nat) (req : Requester), reaches s req (wakeRingReg w r 0x30) ∧ s.dev ≠ .ready ∧ s.dev ≠ .running) := by
  refine ⟨⟨up, 7, 1, 16, .coxswain, ?_⟩,
    ⟨up, 7, 1, 17, .coxswain, ?_⟩,
    ⟨{ up with dev := .quiesced }, 0, 0, .coxswain, ?_⟩⟩ <;>
  repeat' first | exact canonB_ok (by decide +kernel) | decide +kernel | exact reachesB_ok (by decide +kernel) | exact settledB_ok (by decide +kernel) | exact Or.inl ⟨by decide +kernel, reachesH_ok (by decide +kernel)⟩ | refine And.intro ?_ ?_ | rfl | (intro _ h; cases h; done) | (intro _ _ h; cases h; done) | (intro _ _ _ h; cases h; done) | exact noneWaits_ok rfl | (unfold wellFormed; decide +kernel) | exact ⟨0, by decide +kernel⟩ | exact ⟨1, by decide +kernel⟩ | exact Or.inl ⟨_, rfl⟩ | exact Or.inl (by decide +kernel) | exact Or.inr (by decide +kernel) | constructor

theorem hyps_wakeJobs :
    (∃ (s : State) (w : Nat) (r : Nat) (host : List Cell) (j : Job), jobReady w r j s (s.seeHost host) ∧ j.op = 1) ∧
    (∃ (s : State) (w : Nat) (r : Nat) (j : Job), jobReady w r j s s ∧ j.op = 3 ∧ Tab.wf .free (s.wake w).marks = true) ∧
    (∃ (s : State) (u : State) (w : Nat) (r : Nat) (host : List Cell) (j : Job) (st : Status), canonical s ∧ s.wakeFetches w r = true ∧ (s.wake w).state = .good ∧ u = s.seeHost host ∧ j = u.fetchJob w r ∧ j.op ≠ 3 ∧ ((s.dev ≠ .ready ∧ s.dev ≠ .running ∧ st = .stateInvalid) ∨ ((s.dev = .ready ∨ s.dev = .running) ∧ u.readBad (u.jobDa w r ((s.wake w).headOf r)) 64 = false ∧ u.jobFails w r j = some st) ∨ ((s.dev = .ready ∨ s.dev = .running) ∧ u.readBad (u.jobDa w r ((s.wake w).headOf r)) 64 = true ∧ st = .internal))) ∧
    (∃ (s : State) (w : Nat) (r : Nat) (j : Job) (st : Status), canonical s ∧ s.wakeFetches w r = true ∧ j = s.fetchJob w r ∧ j.op = 3 ∧ (((s.wake w).state = .retired ∧ st = .unitAbsent) ∨ ((s.wake w).state ≠ .retired ∧ s.dev ≠ .ready ∧ s.dev ≠ .running ∧ st = .stateInvalid))) ∧
    (∃ (s : State) (w : Nat) (r : Nat), s.wakeFetches w r = false) := by
  refine ⟨⟨wakeS .good [1, 0, 0, 0xFFFFFFFF, 0, 0, 0x1000, 0, 0, 0, 0, 0, 0, 0, 0, 0] [], 0, 0, [], ((wakeS .good [1, 0, 0, 0xFFFFFFFF, 0, 0, 0x1000, 0, 0, 0, 0, 0, 0, 0, 0, 0] []).seeHost []).fetchJob 0 0, ?_⟩,
    ⟨wakeS .good [3, 0, 0, 0xFFFFFFFF, 0, 0, 0, 0, 0, 0, 0, 0, 0, 0, 0, 0] [(0, some ses1)], 0, 0, (wakeS .good [3, 0, 0, 0xFFFFFFFF, 0, 0, 0, 0, 0, 0, 0, 0, 0, 0, 0, 0] [(0, some ses1)]).fetchJob 0 0, ?_⟩,
    ⟨{ wakeS .good [2, 0, 0, 0xFFFFFFFF, 0, 0, 0x1000, 0, 256, 0, 0, 0, 0, 0, 0, 0] [(0, some ses1)] with dev := .quiesced }, State.seeHost { wakeS .good [2, 0, 0, 0xFFFFFFFF, 0, 0, 0x1000, 0, 256, 0, 0, 0, 0, 0, 0, 0] [(0, some ses1)] with dev := .quiesced } [], 0, 0, [], (State.seeHost { wakeS .good [2, 0, 0, 0xFFFFFFFF, 0, 0, 0x1000, 0, 256, 0, 0, 0, 0, 0, 0, 0] [(0, some ses1)] with dev := .quiesced } []).fetchJob 0 0, .stateInvalid, ?_⟩,
    ⟨wakeS .retired [3, 0, 0, 0xFFFFFFFF, 0, 0, 0, 0, 0, 0, 0, 0, 0, 0, 0, 0] [(0, some ses1)], 0, 0, (wakeS .retired [3, 0, 0, 0xFFFFFFFF, 0, 0, 0, 0, 0, 0, 0, 0, 0, 0, 0, 0] [(0, some ses1)]).fetchJob 0 0, .unitAbsent, ?_⟩,
    ⟨up, 0, 1, ?_⟩⟩ <;>
  repeat' first | exact canonB_ok (by decide +kernel) | decide +kernel | exact reachesB_ok (by decide +kernel) | exact settledB_ok (by decide +kernel) | exact Or.inl ⟨by decide +kernel, reachesH_ok (by decide +kernel)⟩ | refine And.intro ?_ ?_ | rfl | (intro _ h; cases h; done) | (intro _ _ h; cases h; done) | (intro _ _ _ h; cases h; done) | exact noneWaits_ok rfl | (unfold wellFormed; decide +kernel) | exact ⟨0, by decide +kernel⟩ | exact ⟨1, by decide +kernel⟩ | exact Or.inl ⟨_, rfl⟩ | exact Or.inl (by decide +kernel) | exact Or.inr (by decide +kernel) | constructor
theorem hyps_wakeJobs_2 : ∃ (s : State) (u : State) (w : Nat) (r : Nat) (host : List Cell) (j : Job) (k : Job), u = s.seeHost host ∧ jobReady w r j s u ∧ j.op = 2 ∧ ((r ≠ 1 ∧ k = { j with ran := true }) ∨ (∃ x, r = 1 ∧ (s.wake w).session 1 = some x ∧ u.regionsEnd x = none ∧ k = { j with ran := true, regions := u.regionsOf x }) ∨ (∃ x st, r = 1 ∧ (s.wake w).session 1 = some x ∧ u.regionsEnd x = some st ∧ k = { j with ran := true, ends := some st })) :=
  ⟨wakeS .good [2, 0, 0, 0xFFFFFFFF, 0, 0, 0x1000, 0, 256, 0, 0, 0, 0, 0, 0, 0] [(0, some ses1)], (wakeS .good [2, 0, 0, 0xFFFFFFFF, 0, 0, 0x1000, 0, 256, 0, 0, 0, 0, 0, 0, 0] [(0, some ses1)]).seeHost [], 0, 0, [], ((wakeS .good [2, 0, 0, 0xFFFFFFFF, 0, 0, 0x1000, 0, 256, 0, 0, 0, 0, 0, 0, 0] [(0, some ses1)]).seeHost []).fetchJob 0 0, { ((wakeS .good [2, 0, 0, 0xFFFFFFFF, 0, 0, 0x1000, 0, 256, 0, 0, 0, 0, 0, 0, 0] [(0, some ses1)]).seeHost []).fetchJob 0 0 with ran := true }, by refine ⟨rfl, ?_, by decide +kernel, Or.inl ⟨by decide, rfl⟩⟩; repeat' first | exact canonB_ok (by decide +kernel) | decide +kernel | exact reachesB_ok (by decide +kernel) | exact settledB_ok (by decide +kernel) | exact Or.inl ⟨by decide +kernel, reachesH_ok (by decide +kernel)⟩ | refine And.intro ?_ ?_ | rfl | (intro _ h; cases h; done) | (intro _ _ h; cases h; done) | (intro _ _ _ h; cases h; done) | exact noneWaits_ok rfl | (unfold wellFormed; decide +kernel) | exact ⟨0, by decide +kernel⟩ | exact ⟨1, by decide +kernel⟩ | exact Or.inl ⟨_, rfl⟩ | exact Or.inl (by decide +kernel) | exact Or.inr (by decide +kernel) | constructor⟩

theorem hyps_wakeFrames :
    (∃ (s : State) (u : State) (w : Nat) (depth : Nat) (width : Nat) (height : Nat) (luma : List Nat) (cb : List Nat) (cr : List Nat) (host : List Cell) (x : Session) (j : Job) (p : Picture), canonical s ∧ s.runningJob w 0 = some (x, j) ∧ 0 < width ∧ width ≤ x.width ∧ 0 < height ∧ height ≤ x.height ∧ u = s.seeHost host ∧ s.jobRangeOk false (x.frameRange (j.first + j.done)).1 (x.frameRange (j.first + j.done)).2 = true ∧ p = ⟨depth, width, height, luma, cb, cr, s.fresh⟩ ∧ ((∀ c, c ∈ (x.decodeFrame p (j.first + j.done)).writes → c.1 < duneEnd ∧ s.served c.1 = true))) ∧
    (∃ (s : State) (w : Nat) (x : Session) (j : Job), canonical s ∧ s.runningJob w 0 = some (x, j) ∧ Tab.wf .free (s.wake w).marks = true) ∧
    (∃ (s : State) (u : State) (w : Nat) (coded : List Byte) (host : List Cell) (x : Session) (j : Job), canonical s ∧ s.runningJob w 1 = some (x, j) ∧ u = s.seeHost host ∧ u.frameBad x (j.first + j.done) = false ∧ j.bytes + coded.length ≤ j.length) ∧
    (∃ (s : State) (w : Nat) (coded : List Byte) (host : List Cell) (x : Session) (j : Job), canonical s ∧ s.runningJob w 1 = some (x, j) ∧ ((s.seeHost host).frameBad x (j.first + j.done) = true ∨ j.length < j.bytes + coded.length)) ∧
    (∃ (s : State) (w : Nat) (r : Nat), s.runningJob w r = none) := by
  refine ⟨⟨wakeJ 0 none, (wakeJ 0 none).seeHost [], 0, 8, 1, 1, [5], [6], [7], [], ses1, ⟨[2], 0, 0, 0, none, true, [], 0, 0⟩, ⟨8, 1, 1, [5], [6], [7], (wakeJ 0 none).fresh⟩, ?_⟩,
    ⟨wakeJ 0 none, 0, ses1, ⟨[2], 0, 0, 0, none, true, [], 0, 0⟩, ?_⟩,
    ⟨wakeJ 1 none, (wakeJ 1 none).seeHost [], 0, [], [], ses1, ⟨[2], 0, 0, 0, none, true, [], 0, 0⟩, ?_⟩,
    ⟨wakeJ 1 none, 0, [1], [], ses1, ⟨[2], 0, 0, 0, none, true, [], 0, 0⟩, ?_⟩,
    ⟨up, 0, 1, ?_⟩⟩ <;>
  repeat' first | exact canonB_ok (by decide +kernel) | decide +kernel | exact reachesB_ok (by decide +kernel) | exact settledB_ok (by decide +kernel) | exact Or.inl ⟨by decide +kernel, reachesH_ok (by decide +kernel)⟩ | refine And.intro ?_ ?_ | rfl | (intro _ h; cases h; done) | (intro _ _ h; cases h; done) | (intro _ _ _ h; cases h; done) | exact noneWaits_ok rfl | (unfold wellFormed; decide +kernel) | exact ⟨0, by decide +kernel⟩ | exact ⟨1, by decide +kernel⟩ | exact Or.inl ⟨_, rfl⟩ | exact Or.inl (by decide +kernel) | exact Or.inr (by decide +kernel) | constructor

theorem hyps_wakeJobEnds :
    (∃ (s : State) (w : Nat) (r : Nat) (consumed : Nat) (bytes : Nat) (j : Job) (st : Status), engineOk w s ∧ settled s ∧ s.power = .on ∧ s.locked (26 + w) = true ∧ (s.wake w).job r = some j ∧ j.ends = some st ∧ bytes = (if r = 0 ∧ j.op = 2 then (if j.ran then min consumed j.length else 0) else j.bytes)) ∧
    (∃ (s : State) (w : Nat) (bad : Nat) (j : Job) (st : Status), engineOk w s ∧ settled s ∧ s.power = .on ∧ s.locked (26 + w) = true ∧ (s.wake w).job 0 = some j ∧ j.op = 2 ∧ j.ran = true ∧ j.ends = none ∧ s.readBad j.data j.length = false ∧ st = (if j.bad + bad = 0 then .ok else .badArgument)) ∧
    (∃ (s : State) (w : Nat) (res : Ending) (j : Job), engineOk w s ∧ settled s ∧ s.power = .on ∧ s.locked (26 + w) = true ∧ (s.wake w).job 0 = some j ∧ j.op = 2 ∧ j.ran = true ∧ j.ends = none ∧ (res ≠ .ok ∨ s.readBad j.data j.length = true)) ∧
    (∃ (s : State) (w : Nat) (r : Nat), ((s.wake w).job r = none ∨ s.power ≠ .on ∨ s.locked (26 + w) = false)) := by
  refine ⟨⟨wakeJ 1 (some .ok), 0, 1, 0, 0, ⟨[2], 0, 0, 0, some .ok, true, [], 0, 0⟩, .ok, ?_⟩,
    ⟨wakeJ 0 none, 0, 0, ⟨[2], 0, 0, 0, none, true, [], 0, 0⟩, .ok, ?_⟩,
    ⟨wakeJ 0 none, 0, .timeout, ⟨[2], 0, 0, 0, none, true, [], 0, 0⟩, ?_⟩,
    ⟨up, 7, 0, ?_⟩⟩ <;>
  repeat' first | exact canonB_ok (by decide +kernel) | decide +kernel | exact reachesB_ok (by decide +kernel) | exact settledB_ok (by decide +kernel) | exact Or.inl ⟨by decide +kernel, reachesH_ok (by decide +kernel)⟩ | refine And.intro ?_ ?_ | rfl | (intro _ h; cases h; done) | (intro _ _ h; cases h; done) | (intro _ _ _ h; cases h; done) | exact noneWaits_ok rfl | (unfold wellFormed; decide +kernel) | exact ⟨0, by decide +kernel⟩ | exact ⟨1, by decide +kernel⟩ | exact Or.inl ⟨_, rfl⟩ | exact Or.inl (by decide +kernel) | exact Or.inr (by decide +kernel) | constructor

theorem hyps_wakeFaults :
    (∃ (s : State) (w : Nat), engineOk w s ∧ settled s ∧ s.power = .on ∧ s.hasWake = true ∧ s.locked (26 + w) = true ∧ (s.wake w).state = .good ∧ (s.wake w).testing = false) ∧
    (∃ (s : State) (w : Nat), (s.power ≠ .on ∨ s.hasWake = false ∨ s.locked (26 + w) = false ∨ (s.wake w).state ≠ .good ∨ (s.wake w).testing = true)) ∧
    (∃ (s : State) (w : Nat) (r : Nat) (x : Session) (j : Job), engineOk w s ∧ settled s ∧ s.runningJob w r = some (x, j) ∧ s.reg (wakeReg w 0x14) ≠ 0 ∧ j.since + (s.reg (wakeReg w 0x14)).toNat + 1 ≤ s.etc) ∧
    (∃ (s : State) (w : Nat) (r : Nat), (s.runningJob w r = none ∨ s.reg (wakeReg w 0x14) = 0 ∨ (∃ x j, s.runningJob w r = some (x, j) ∧ s.etc < j.since + (s.reg (wakeReg w 0x14)).toNat + 1))) ∧
    (∃ (s : State) (w : Nat), canonical s ∧ s.power = .on ∧ (s.wake w).state = .good ∧ (s.wake w).testing = true) ∧
    (∃ (s : State) (w : Nat), canonical s ∧ s.power = .on ∧ (s.wake w).state = .good ∧ (s.wake w).testing = true) ∧
    (∃ (s : State) (w : Nat), (s.power ≠ .on ∨ (s.wake w).state ≠ .good ∨ (s.wake w).testing = false)) := by
  refine ⟨⟨up, 7, ?_⟩,
    ⟨off, 0, ?_⟩,
    ⟨wakeJ 1 none, 0, 1, ses1, ⟨[2], 0, 0, 0, none, true, [], 0, 0⟩, ?_⟩,
    ⟨up, 0, 1, ?_⟩,
    ⟨{ up with wakes := [(0, { Wake.init with testing := true })] }, 0, ?_⟩,
    ⟨{ up with wakes := [(0, { Wake.init with testing := true })] }, 0, ?_⟩,
    ⟨up, 7, ?_⟩⟩ <;>
  repeat' first | exact canonB_ok (by decide +kernel) | decide +kernel | exact reachesB_ok (by decide +kernel) | exact settledB_ok (by decide +kernel) | exact Or.inl ⟨by decide +kernel, reachesH_ok (by decide +kernel)⟩ | refine And.intro ?_ ?_ | rfl | (intro _ h; cases h; done) | (intro _ _ h; cases h; done) | (intro _ _ _ h; cases h; done) | exact noneWaits_ok rfl | (unfold wellFormed; decide +kernel) | exact ⟨0, by decide +kernel⟩ | exact ⟨1, by decide +kernel⟩ | exact Or.inl ⟨_, rfl⟩ | exact Or.inl (by decide +kernel) | exact Or.inr (by decide +kernel) | constructor

theorem hyps_portControl :
    (∃ (s : State) (p : Nat) (v : Word) (req : Requester), canonical s ∧ p < 18 ∧ reaches s req (portReg p 0) ∧ bits v 4 2 ≠ 3) ∧
    (∃ (s : State) (p : Nat) (v : Word) (req : Requester), canonical s ∧ p < 18 ∧ reaches s req (portReg p 0) ∧ bits v 4 2 ≠ 3) ∧
    (∃ (s : State) (p : Nat) (v : Word) (req : Requester), canonical s ∧ p < 18 ∧ reaches s req (portReg p 0) ∧ bits v 4 2 ≠ 3 ∧ bits v 0 1 = 1) ∧
    (∃ (s : State) (p : Nat) (v : Word) (req : Requester), canonical s ∧ p < 18 ∧ reaches s req (portReg p 0) ∧ bits v 4 2 = 3) := by
  refine ⟨⟨up, 17, 0, .coxswain, ?_⟩,
    ⟨up, 0, 0, .coxswain, ?_⟩,
    ⟨up, 17, 1, .coxswain, ?_⟩,
    ⟨up, 0, 0x30, .coxswain, ?_⟩⟩ <;>
  repeat' first | exact canonB_ok (by decide +kernel) | decide +kernel | exact reachesB_ok (by decide +kernel) | exact settledB_ok (by decide +kernel) | exact Or.inl ⟨by decide +kernel, reachesH_ok (by decide +kernel)⟩ | refine And.intro ?_ ?_ | rfl | (intro _ h; cases h; done) | (intro _ _ h; cases h; done) | (intro _ _ _ h; cases h; done) | exact noneWaits_ok rfl | (unfold wellFormed; decide +kernel) | exact ⟨0, by decide +kernel⟩ | exact ⟨1, by decide +kernel⟩ | exact Or.inl ⟨_, rfl⟩ | exact Or.inl (by decide +kernel) | exact Or.inr (by decide +kernel) | constructor

theorem hyps_portTraining :
    (∃ (s : State) (p : Nat) (lanes : BitVec 8), canonical s ∧ s.power = .on ∧ (s.port p).state = .training ∧ s.locked (portIsland p) = true ∧ s.sec.attReady = true ∧ s.sec.rngStop = false ∧ (lanes = 0xFF ∨ ((lanes.toNat % 16 = 15 ∨ lanes.toNat / 16 = 15) ∧ s.fld (portReg p 0) 1 1 = 1))) ∧
    (∃ (s : State) (p : Nat), canonical s ∧ s.power = .on ∧ (s.port p).state = .training ∧ s.locked (portIsland p) = true ∧ (s.sec.attReady = false ∨ s.sec.rngStop = true)) ∧
    (∃ (s : State) (p : Nat) (lanes : BitVec 8), canonical s ∧ s.power = .on ∧ (s.port p).state = .training ∧ s.locked (portIsland p) = true ∧ ((lanes.toNat % 16 ≠ 15 ∧ lanes.toNat / 16 ≠ 15) ∨ (lanes ≠ 0xFF ∧ s.fld (portReg p 0) 1 1 = 0))) ∧
    (∃ (s : State) (p : Nat), (s.power ≠ .on ∨ (s.port p).state ≠ .training ∨ s.locked (portIsland p) = false)) ∧
    (∃ (s : State) (p : Nat), canonical s ∧ s.power = .on ∧ (s.port p).state = .training ∧ (s.port p).since + 20001 ≤ s.etc) ∧
    (∃ (s : State) (p : Nat), (s.power ≠ .on ∨ (s.port p).state ≠ .training ∨ s.etc < (s.port p).since + 20001)) ∧
    (∃ (s : State) (p : Nat), canonical s ∧ s.power = .on ∧ (s.port p).state = .down ∧ (s.port p).since + 1000001 ≤ s.etc) ∧
    (∃ (s : State) (p : Nat), (s.power ≠ .on ∨ (s.port p).state ≠ .down ∨ s.etc < (s.port p).since + 1000001)) ∧
    (∃ (s : State) (p : Nat), canonical s ∧ s.power = .on ∧ (s.port p).state = .attesting ∧ (s.port p).since + 50001 ≤ s.etc) ∧
    (∃ (s : State) (p : Nat), (s.power ≠ .on ∨ (s.port p).state ≠ .attesting ∨ s.etc < (s.port p).since + 50001)) := by
  refine ⟨⟨port_ .training, 0, 0xFF, ?_⟩,
    ⟨{ port_ .training with sec := Sec.init }, 0, ?_⟩,
    ⟨port_ .training, 0, 0, ?_⟩,
    ⟨up, 17, ?_⟩,
    ⟨port_ .training, 0, ?_⟩,
    ⟨up, 17, ?_⟩,
    ⟨port_ .down, 0, ?_⟩,
    ⟨up, 17, ?_⟩,
    ⟨port_ .attesting, 0, ?_⟩,
    ⟨up, 17, ?_⟩⟩ <;>
  repeat' first | exact canonB_ok (by decide +kernel) | decide +kernel | exact reachesB_ok (by decide +kernel) | exact settledB_ok (by decide +kernel) | exact Or.inl ⟨by decide +kernel, reachesH_ok (by decide +kernel)⟩ | refine And.intro ?_ ?_ | rfl | (intro _ h; cases h; done) | (intro _ _ h; cases h; done) | (intro _ _ _ h; cases h; done) | exact noneWaits_ok rfl | (unfold wellFormed; decide +kernel) | exact ⟨0, by decide +kernel⟩ | exact ⟨1, by decide +kernel⟩ | exact Or.inl ⟨_, rfl⟩ | exact Or.inl (by decide +kernel) | exact Or.inr (by decide +kernel) | constructor

theorem hyps_flitReceive :
    (∃ (s : State) (p : Nat) (flit : List Byte), canonical s ∧ s.power = .on ∧ ((s.port p).state = .attesting ∨ (s.port p).state = .admitted) ∧ crc32 (flit.take 252) ≠ BitVec.ofNat 32 (numAt flit 252 4) ∧ (s.port p).lost = true) ∧
    (∃ (s : State) (p : Nat) (flit : List Byte), canonical s ∧ s.power = .on ∧ ((s.port p).state = .attesting ∨ (s.port p).state = .admitted) ∧ crc32 (flit.take 252) ≠ BitVec.ofNat 32 (numAt flit 252 4) ∧ (s.port p).lost = false) ∧
    (∃ (s : State) (p : Nat) (flit : List Byte), flitGood s p flit ∧ flitBits flit 4 1 = 0 ∧ 2048 ≤ ((s.port p).rxSeq + 4096 - flitBits flit 8 12) % 4096 ∧ (s.port p).lost = false) ∧
    (∃ (s : State) (p : Nat) (flit : List Byte), flitGood s p flit ∧ flitBits flit 4 1 = 0 ∧ ((s.port p).rxSeq + 4096 - flitBits flit 8 12) % 4096 ≠ 0 ∧ (((s.port p).rxSeq + 4096 - flitBits flit 8 12) % 4096 < 2048 ∨ (s.port p).lost = true)) ∧
    (∃ (s : State) (p : Nat) (vc : Nat) (flit : List Byte), flitGood s p flit ∧ flitBits flit 4 1 = 0 ∧ vc = flitBits flit 0 2 ∧ ((s.port p).rxSeq + 4096 - flitBits flit 8 12) % 4096 = 0 ∧ 0 < Tab.get 0 (s.port p).granted vc ∧ Tab.wf 0 (s.port p).granted = true ∧ ((flitBits flit 2 1 = 1 ∨ Tab.get 0 (s.port p).inFrame vc < 15)) ∧ flitBits flit 32 1 = 0) ∧
    (∃ (s : State) (p : Nat) (vc : Nat) (flit : List Byte), flitGood s p flit ∧ flitBits flit 4 1 = 0 ∧ vc = flitBits flit 0 2 ∧ ((s.port p).rxSeq + 4096 - flitBits flit 8 12) % 4096 = 0 ∧ Tab.get 0 (s.port p).granted vc = 0) ∧
    (∃ (s : State) (p : Nat) (vc : Nat) (flit : List Byte), flitGood s p flit ∧ flitBits flit 4 1 = 1 ∧ vc = flitBits flit 41 2 ∧ flitBits flit 32 1 = 0 ∧ (s.port p).waiting = []) ∧
    (∃ (s : State) (p : Nat) (flit : List Byte), flitGood s p flit ∧ flitBits flit 4 1 = 1 ∧ flitBits flit 33 8 = 0 ∧ flitBits flit 32 1 = 1 ∧ (flitBits flit 20 12 + 1) % 4096 = (s.port p).txAck % 4096 ∧ (s.port p).txAck ≠ (s.port p).txSeq) ∧
    (∃ (s : State) (p : Nat) (flit : List Byte), canonical s ∧ s.power = .on ∧ ((s.port p).state = .attesting ∨ (s.port p).state = .admitted) ∧ crc32 (flit.take 252) = BitVec.ofNat 32 (numAt flit 252 4) ∧ (flitBits flit 5 3 ≠ 0 ∨ flitBits flit 43 21 ≠ 0)) ∧
    (∃ (s : State) (p : Nat), (s.power ≠ .on ∨ ((s.port p).state ≠ .attesting ∧ (s.port p).state ≠ .admitted))) := by
  refine ⟨⟨{ up with ports := [(0, { Port.init with state := .admitted, peer := 1, lost := true })] }, 0, List.replicate 256 0, ?_⟩,
    ⟨port_ .attesting, 0, List.replicate 256 0, ?_⟩,
    ⟨port_ .admitted, 0, flitOf 256, ?_⟩,
    ⟨{ up with ports := [(0, { Port.init with state := .admitted, peer := 1, rxSeq := 1 })] }, 0, flitOf 0, ?_⟩,
    ⟨{ up with ports := [(0, { Port.init with state := .admitted, peer := 1, granted := [(0, 3)] })] }, 0, 0, flitOf 0, ?_⟩,
    ⟨port_ .admitted, 0, 0, flitOf 0, ?_⟩,
    ⟨port_ .admitted, 0, 0, flitOf 16, ?_⟩,
    ⟨{ up with ports := [(0, { Port.init with state := .attesting, peer := 1, txAck := 1, txSeq := 2 })] }, 0, flitOf 0x100000010, ?_⟩,
    ⟨port_ .attesting, 0, flitOf 32, ?_⟩,
    ⟨up, 17, ?_⟩⟩ <;>
  repeat' first | exact canonB_ok (by decide +kernel) | decide +kernel | exact reachesB_ok (by decide +kernel) | exact settledB_ok (by decide +kernel) | exact Or.inl ⟨by decide +kernel, reachesH_ok (by decide +kernel)⟩ | refine And.intro ?_ ?_ | rfl | (intro _ h; cases h; done) | (intro _ _ h; cases h; done) | (intro _ _ _ h; cases h; done) | exact noneWaits_ok rfl | (unfold wellFormed; decide +kernel) | exact ⟨0, by decide +kernel⟩ | exact ⟨1, by decide +kernel⟩ | exact Or.inl ⟨_, rfl⟩ | exact Or.inl (by decide +kernel) | exact Or.inr (by decide +kernel) | constructor

theorem hyps_frameReceive :
    (∃ (s : State) (p : Nat) (f : Frame), canonical s ∧ s.power = .on ∧ (s.port p).state = .admitted ∧ numAt f.header 0x10 8 = (s.port p).rxCtr + 1 ∧ frameBroken f = false ∧ (numAt f.header 4 2 = s.myId ∨ numAt f.header 0 1 = mMgmt)) ∧
    (∃ (s : State) (p : Nat) (f : Frame), canonical s ∧ s.power = .on ∧ (s.port p).state = .admitted ∧ numAt f.header 0x10 8 = (s.port p).rxCtr + 1 ∧ frameBroken f = false ∧ numAt f.header 4 2 ≠ s.myId ∧ numAt f.header 0 1 ≠ mMgmt ∧ s.peerAdmitted (numAt f.header 4 2) = false) ∧
    (∃ (s : State) (p : Nat), canonical s ∧ s.power = .on ∧ (s.port p).state = .admitted) ∧
    (∃ (s : State) (p : Nat) (f : Frame), canonical s ∧ s.power = .on ∧ (s.port p).state = .admitted ∧ (numAt f.header 0x10 8 ≠ (s.port p).rxCtr + 1 ∨ frameBroken f = true)) ∧
    (∃ (s : State) (p : Nat), (s.power ≠ .on ∨ ((s.port p).state ≠ .attesting ∧ (s.port p).state ≠ .admitted))) := by
  refine ⟨⟨port_ .admitted, 0, frame_ 0, ?_⟩,
    ⟨port_ .admitted, 0, frame_ 5, ?_⟩,
    ⟨port_ .admitted, 0, ?_⟩,
    ⟨port_ .admitted, 0, { frame_ 0 with padded := false }, ?_⟩,
    ⟨up, 17, ?_⟩⟩ <;>
  repeat' first | exact canonB_ok (by decide +kernel) | decide +kernel | exact reachesB_ok (by decide +kernel) | exact settledB_ok (by decide +kernel) | exact Or.inl ⟨by decide +kernel, reachesH_ok (by decide +kernel)⟩ | refine And.intro ?_ ?_ | rfl | (intro _ h; cases h; done) | (intro _ _ h; cases h; done) | (intro _ _ _ h; cases h; done) | exact noneWaits_ok rfl | (unfold wellFormed; decide +kernel) | exact ⟨0, by decide +kernel⟩ | exact ⟨1, by decide +kernel⟩ | exact Or.inl ⟨_, rfl⟩ | exact Or.inl (by decide +kernel) | exact Or.inr (by decide +kernel) | constructor

theorem hyps_admission :
    (∃ (s : State) (p : Nat) (i : Nat), attesting p s ∧ i < 3 ∧ ((∀ c, c ∈ (s.port p).certs → c.1 ≠ i)) ∧ (s.port p).certs.length < 2) ∧
    (∃ (s : State) (p : Nat) (i : Nat), attesting p s ∧ (3 ≤ i ∨ (∃ c, c ∈ (s.port p).certs ∧ c.1 = i))) ∧
    (∃ (s : State) (p : Nat), attesting p s ∧ 3 ≤ (s.port p).certs.length ∧ s.initiates p = false ∧ (s.port p).transcript = [] ∧ s.sec.attReady = true ∧ s.sec.attUsed < 65536) ∧
    (∃ (s : State) (p : Nat), attesting p s ∧ ((s.port p).certs.length < 3 ∨ s.initiates p = true ∨ (s.port p).transcript ≠ [])) ∧
    (∃ (s : State) (p : Nat), attesting p s ∧ (s.port p).ekSent = true ∧ (s.port p).secret = [] ∧ s.initiates p = true ∧ s.sec.attReady = true ∧ s.sec.attUsed < 65536) ∧
    (∃ (s : State) (p : Nat), attesting p s ∧ ((s.port p).ekSent = false ∨ (s.port p).secret ≠ [])) ∧
    (∃ (s : State) (p : Nat), attesting p s ∧ (s.port p).digest ≠ [] ∧ (s.port p).finSent = false ∧ s.policyOk (s.port p) = true) ∧
    (∃ (s : State) (p : Nat), attesting p s ∧ (s.port p).finSent = true) ∧
    (∃ (s : State) (p : Nat) (h : List Byte) (good : Bool), attesting p s ∧ ((s.port p).finSent = false ∨ good = false ∨ h ≠ shake256 (s.port p).digest 32)) := by
  refine ⟨⟨port_ .attesting, 0, 2, ?_⟩,
    ⟨port_ .attesting, 0, 3, ?_⟩,
    ⟨{ up with ports := [(0, { Port.init with state := .attesting, certs := [(0, []), (1, []), (2, [])] })] }, 0, ?_⟩,
    ⟨port_ .attesting, 0, ?_⟩,
    ⟨{ up with ports := [(0, { Port.init with state := .attesting, peer := 1, ekSent := true })] }, 0, ?_⟩,
    ⟨port_ .attesting, 0, ?_⟩,
    ⟨{ up with ports := [(0, { Port.init with state := .attesting, digest := [1] })], regs := [(0x24C, 1)] }, 0, ?_⟩,
    ⟨{ up with ports := [(0, { Port.init with state := .attesting, peer := 1, finSent := true })] }, 0, ?_⟩,
    ⟨port_ .attesting, 0, [], true, ?_⟩⟩ <;>
  repeat' first | exact canonB_ok (by decide +kernel) | decide +kernel | exact reachesB_ok (by decide +kernel) | exact settledB_ok (by decide +kernel) | exact Or.inl ⟨by decide +kernel, reachesH_ok (by decide +kernel)⟩ | refine And.intro ?_ ?_ | rfl | (intro _ h; cases h; done) | (intro _ _ h; cases h; done) | (intro _ _ _ h; cases h; done) | exact noneWaits_ok rfl | (unfold wellFormed; decide +kernel) | exact ⟨0, by decide +kernel⟩ | exact ⟨1, by decide +kernel⟩ | exact Or.inl ⟨_, rfl⟩ | exact Or.inl (by decide +kernel) | exact Or.inr (by decide +kernel) | constructor
theorem hyps_admission_3 : ∃ (s : State) (p : Nat) (src : Nat) (i : Nat) (cert : List Byte) (x : Port), attesting p s ∧ i < 3 ∧ ((∀ c, c ∈ (s.port p).certs → c.1 ≠ i)) ∧ x = { s.port p with certs := (s.port p).certs ++ [(i, cert)], peer := src } ∧ (s.port p).certs.length = 2 :=
  ⟨{ up with ports := [(0, { Port.init with state := .attesting, peer := 1, certs := [(0, []), (1, [])] })] }, 0, 5, 2, [], _, by repeat' first | exact canonB_ok (by decide +kernel) | decide +kernel | exact reachesB_ok (by decide +kernel) | exact settledB_ok (by decide +kernel) | exact Or.inl ⟨by decide +kernel, reachesH_ok (by decide +kernel)⟩ | refine And.intro ?_ ?_ | rfl | (intro _ h; cases h; done) | (intro _ _ h; cases h; done) | (intro _ _ _ h; cases h; done) | exact noneWaits_ok rfl | (unfold wellFormed; decide +kernel) | exact ⟨0, by decide +kernel⟩ | exact ⟨1, by decide +kernel⟩ | exact Or.inl ⟨_, rfl⟩ | exact Or.inl (by decide +kernel) | exact Or.inr (by decide +kernel) | constructor⟩
theorem hyps_admission_9 : ∃ (s : State) (p : Nat) (sig : List Byte), attesting p s ∧ ((s.port p).digest = [] ∨ (s.port p).finSent = true ∨ Config.xmssVerify (certSubject ((s.port p).cert 2)) (s.port p).digest sig = false ∨ s.policyOk (s.port p) = false) :=
  ⟨port_ .attesting, 0, [], by exact ⟨⟨canonB_ok (by decide +kernel), by decide +kernel, by decide +kernel⟩, Or.inl (by decide +kernel)⟩⟩
theorem hyps_admission_12 : ∃ (s : State) (c : Instr) (p : Nat), canonical s ∧ ((∃ a b d, c = .mgmtCert p a b d) ∨ (∃ a b, c = .mgmtKemEk p a b) ∨ (∃ a b, c = .mgmtKemCt p a b) ∨ (∃ a b d, c = .mgmtSign p a b d) ∨ (∃ a b, c = .mgmtFinish p a b)) ∧ s.power = .on ∧ (s.port p).state = .admitted :=
  ⟨port_ .admitted, .mgmtFinish 0 [] true, 0, by exact ⟨canonB_ok (by decide +kernel), Or.inr (Or.inr (Or.inr (Or.inr ⟨[], true, rfl⟩))), by decide +kernel, by decide +kernel⟩⟩
theorem hyps_admission_13 : ∃ (s : State) (c : Instr) (p : Nat), canonical s ∧ ((∃ a b d, c = .mgmtCert p a b d) ∨ (∃ a b, c = .mgmtKemEk p a b) ∨ (∃ a b, c = .mgmtKemCt p a b) ∨ (∃ a b d, c = .mgmtSign p a b d) ∨ (∃ a b, c = .mgmtFinish p a b)) ∧ (s.power ≠ .on ∨ ((s.port p).state ≠ .attesting ∧ (s.port p).state ≠ .admitted)) :=
  ⟨up, .mgmtFinish 0 [] true, 0, by exact ⟨canonB_ok (by decide +kernel), Or.inr (Or.inr (Or.inr (Or.inr ⟨[], true, rfl⟩))), by decide +kernel⟩⟩

theorem hyps_rekeying :
    (∃ (s : State) (p : Nat), admitted p s ∧ 2 ^ 31 ≤ (s.port p).txCtr ∧ (s.port p).rekeyAt = none ∧ s.sec.rngStop = false) ∧
    (∃ (s : State) (p : Nat), admitted p s ∧ 2 ^ 31 ≤ (s.port p).txCtr ∧ (s.port p).rekeyAt = none ∧ s.sec.rngStop = true) ∧
    (∃ (s : State) (p : Nat), (¬ admitted p s ∨ (s.port p).txCtr < 2 ^ 31 ∨ (s.port p).rekeyAt ≠ none) ∧ canonical s) ∧
    (∃ (s : State) (p : Nat), admitted p s ∧ ((s.port p).ekSent = false ∨ s.initiates p = false) ∧ s.sec.rngStop = false) ∧
    (∃ (s : State) (p : Nat), admitted p s ∧ (s.port p).ekSent = true ∧ s.initiates p = true) ∧
    (∃ (s : State) (p : Nat), admitted p s ∧ ((s.port p).ekSent = false ∨ s.initiates p = false) ∧ s.sec.rngStop = true) ∧
    (∃ (s : State) (p : Nat), admitted p s ∧ (s.port p).ekSent = true) ∧
    (∃ (s : State) (p : Nat), ((s.port p).ekSent = false ∨ s.power ≠ .on ∨ (s.port p).state ≠ .admitted)) ∧
    (∃ (s : State) (p : Nat), admitted p s ∧ (s.port p).newRx ≠ []) ∧
    (∃ (s : State) (p : Nat), ((s.port p).newRx = [] ∨ s.power ≠ .on ∨ (s.port p).state ≠ .admitted)) ∧
    (∃ (s : State) (p : Nat) (a : Nat), admitted p s ∧ (s.port p).rekeyAt = some a ∧ a + 50001 ≤ s.etc) ∧
    (∃ (s : State) (p : Nat), (s.power ≠ .on ∨ (s.port p).state ≠ .admitted ∨ (s.port p).rekeyAt = none ∨ (∃ a, (s.port p).rekeyAt = some a ∧ s.etc < a + 50001))) ∧
    (∃ (s : State) (p : Nat) (vc : Nat), admitted p s ∧ s.fld 0x02060008 0 16 ≠ 0 ∧ ((∃ w, w ∈ (s.port p).waiting ∧ w.1 = vc)) ∧ Tab.get 0 (s.port p).credits vc = 0 ∧ Tab.get 0 (s.port p).creditAt vc + s.fld 0x02060008 0 16 + 1 ≤ s.etc) ∧
    (∃ (s : State) (p : Nat) (vc : Nat), (s.power ≠ .on ∨ (s.port p).state ≠ .admitted ∨ s.fld 0x02060008 0 16 = 0 ∨ (∀ w, w ∈ (s.port p).waiting → w.1 ≠ vc) ∨ Tab.get 0 (s.port p).credits vc ≠ 0 ∨ s.etc < Tab.get 0 (s.port p).creditAt vc + s.fld 0x02060008 0 16 + 1)) := by
  refine ⟨⟨{ up with ports := [(0, { Port.init with state := .admitted, peer := 1, txCtr := 2 ^ 31 })] }, 0, ?_⟩,
    ⟨{ { up with ports := [(0, { Port.init with state := .admitted, peer := 1, txCtr := 2 ^ 31 })] } with sec := { up.sec with rngStop := true } }, 0, ?_⟩,
    ⟨up, 0, ?_⟩,
    ⟨port_ .admitted, 0, ?_⟩,
    ⟨{ up with ports := [(0, { Port.init with state := .admitted, peer := 1, ekSent := true })] }, 0, ?_⟩,
    ⟨{ port_ .admitted with sec := { up.sec with rngStop := true } }, 0, ?_⟩,
    ⟨{ up with ports := [(0, { Port.init with state := .admitted, peer := 1, ekSent := true })] }, 0, ?_⟩,
    ⟨up, 0, ?_⟩,
    ⟨{ up with ports := [(0, { Port.init with state := .admitted, peer := 1, newRx := [1] })] }, 0, ?_⟩,
    ⟨up, 0, ?_⟩,
    ⟨{ up with ports := [(0, { Port.init with state := .admitted, peer := 1, rekeyAt := some 0 })] }, 0, 0, ?_⟩,
    ⟨up, 0, ?_⟩,
    ⟨{ up with ports := [(0, { Port.init with state := .admitted, peer := 1, waiting := [(3, 1, .flit 0 [])] })] }, 0, 3, ?_⟩,
    ⟨up, 17, 0, ?_⟩⟩ <;>
  repeat' first | exact canonB_ok (by decide +kernel) | decide +kernel | exact reachesB_ok (by decide +kernel) | exact settledB_ok (by decide +kernel) | exact Or.inl ⟨by decide +kernel, reachesH_ok (by decide +kernel)⟩ | refine And.intro ?_ ?_ | rfl | (intro _ h; cases h; done) | (intro _ _ h; cases h; done) | (intro _ _ _ h; cases h; done) | exact noneWaits_ok rfl | (unfold wellFormed; decide +kernel) | exact ⟨0, by decide +kernel⟩ | exact ⟨1, by decide +kernel⟩ | exact Or.inl ⟨_, rfl⟩ | exact Or.inl (by decide +kernel) | exact Or.inr (by decide +kernel) | constructor

theorem hyps_peerManagement :
    (∃ (s : State) (p : Nat), admitted p s ∧ s.sec.attReady = true ∧ s.sec.attUsed < 65536) ∧
    (∃ (s : State) (p : Nat), admitted p s ∧ (s.sec.attReady = false ∨ 65536 ≤ s.sec.attUsed)) ∧
    (∃ (s : State) (p : Nat), (s.power ≠ .on ∨ (s.port p).state ≠ .admitted)) ∧
    (∃ (s : State) (p : Nat), admitted p s ∧ (s.port p).statAt + 1000000 ≤ s.etc) ∧
    (∃ (s : State) (p : Nat), (s.power ≠ .on ∨ (s.port p).state ≠ .admitted ∨ s.etc < (s.port p).statAt + 1000000)) := by
  refine ⟨⟨port_ .admitted, 0, ?_⟩,
    ⟨{ port_ .admitted with sec := { up.sec with attUsed := 65536 } }, 0, ?_⟩,
    ⟨up, 0, ?_⟩,
    ⟨port_ .admitted, 0, ?_⟩,
    ⟨up, 0, ?_⟩⟩ <;>
  repeat' first | exact canonB_ok (by decide +kernel) | decide +kernel | exact reachesB_ok (by decide +kernel) | exact settledB_ok (by decide +kernel) | exact Or.inl ⟨by decide +kernel, reachesH_ok (by decide +kernel)⟩ | refine And.intro ?_ ?_ | rfl | (intro _ h; cases h; done) | (intro _ _ h; cases h; done) | (intro _ _ _ h; cases h; done) | exact noneWaits_ok rfl | (unfold wellFormed; decide +kernel) | exact ⟨0, by decide +kernel⟩ | exact ⟨1, by decide +kernel⟩ | exact Or.inl ⟨_, rfl⟩ | exact Or.inl (by decide +kernel) | exact Or.inr (by decide +kernel) | constructor

theorem hyps_peerRequests :
    (∃ (s : State) (p : Nat) (m : Msg), admitted p s ∧ 0 < m.bytes ∧ m.bytes ≤ 3584 ∧ s.permitted m.src m.da m.bytes false = true) ∧
    (∃ (s : State) (p : Nat) (m : Msg), admitted p s ∧ 0 < m.bytes ∧ m.bytes ≤ 3584 ∧ s.permitted m.src m.da m.bytes false = false) ∧
    (∃ (s : State) (p : Nat) (m : Msg), admitted p s ∧ (m.bytes = 0 ∨ 3584 < m.bytes)) ∧
    (∃ (s : State) (p : Nat) (m : Msg), admitted p s ∧ m.masked = false ∧ s.permitted m.src m.da m.data.length true = true ∧ ((∀ a, m.da ≤ a → a < m.da + m.data.length → s.served a = true))) ∧
    (∃ (s : State) (p : Nat) (n : Nat) (m : Msg), admitted p s ∧ m.masked = true ∧ m.data.length = n / 8 + n ∧ n % 32 = 0 ∧ n ≤ 3168 ∧ s.permitted m.src m.da n true = true ∧ ((∀ a, m.da ≤ a → a < m.da + n → s.served a = true))) ∧
    (∃ (s : State) (p : Nat) (m : Msg), admitted p s ∧ msgBroken m = false ∧ s.permitted m.src m.da (msgSpan m) true = false) ∧
    (∃ (s : State) (p : Nat) (m : Msg), admitted p s ∧ m.masked = true ∧ (m.data.length % 36 ≠ 0 ∨ 3564 < m.data.length)) ∧
    (∃ (s : State) (p : Nat), (s.power ≠ .on ∨ (s.port p).state ≠ .admitted)) := by
  refine ⟨⟨openS, 0, msg_ 3584 [], ?_⟩,
    ⟨openS, 0, { msg_ 64 [] with da := 0x200000 }, ?_⟩,
    ⟨openS, 0, msg_ 3585 [], ?_⟩,
    ⟨openS, 0, msg_ 2 [1, 2], ?_⟩,
    ⟨openS, 0, 32, { msg_ 0 (List.replicate 36 0) with masked := true }, ?_⟩,
    ⟨port_ .admitted, 0, msg_ 2 [1, 2], ?_⟩,
    ⟨openS, 0, { msg_ 0 [1] with masked := true }, ?_⟩,
    ⟨up, 17, ?_⟩⟩ <;>
  repeat' first | exact canonB_ok (by decide +kernel) | decide +kernel | exact reachesB_ok (by decide +kernel) | exact settledB_ok (by decide +kernel) | exact Or.inl ⟨by decide +kernel, reachesH_ok (by decide +kernel)⟩ | refine And.intro ?_ ?_ | rfl | (intro _ h; cases h; done) | (intro _ _ h; cases h; done) | (intro _ _ _ h; cases h; done) | exact noneWaits_ok rfl | (unfold wellFormed; decide +kernel) | exact ⟨0, by decide +kernel⟩ | exact ⟨1, by decide +kernel⟩ | exact Or.inl ⟨_, rfl⟩ | exact Or.inl (by decide +kernel) | exact Or.inr (by decide +kernel) | constructor

theorem hyps_peerAnswers :
    (∃ (s : State) (p : Nat) (m : Msg) (write : Bool), (s.power ≠ .on ∨ (s.port p).state ≠ .admitted ∨ s.asked m write = none) ∧ write = false) ∧
    (∃ (s : State) (p : Nat) (m : Msg) (write : Bool), (s.power ≠ .on ∨ (s.port p).state ≠ .admitted ∨ s.asked m write = none) ∧ write = true) ∧
    (∃ (s : State) (u : State) (v : State) (p : Nat) (m : Msg) (q : PeerReq), awaits p m false q s ∧ m.status = 0 ∧ u = s.dropPeer q.tag ∧ v = u.setTask q.task ((s.task q.task).takePeer (cellsAt q.da m.data)) ∧ m.poisoned = false ∧ m.data.length = q.len ∧ (s.task q.task).state = .running) ∧
    (∃ (s : State) (u : State) (v : State) (p : Nat) (m : Msg) (q : PeerReq) (w : _), awaits p m false q s ∧ m.status = 0 ∧ u = s.dropPeer q.tag ∧ v = u.setTask q.task ((s.task q.task).takePeer (cellsAt q.da m.data)) ∧ m.poisoned = false ∧ m.data.length = q.len ∧ (s.task q.task).state = .suspended w) ∧
    (∃ (s : State) (u : State) (v : State) (p : Nat) (m : Msg) (q : PeerReq) (h : _), awaits p m false q s ∧ m.status = 0 ∧ u = s.dropPeer q.tag ∧ v = u.setTask q.task ((s.task q.task).takePeer (cellsAt q.da m.data)) ∧ (s.task q.task).state = .ended h) ∧
    (∃ (s : State) (p : Nat) (m : Msg) (q : PeerReq), awaits p m false q s ∧ plainTask q.task s ∧ ((s.task q.task).state = .running ∨ (∃ w, (s.task q.task).state = .suspended w))) ∧
    (∃ (s : State) (p : Nat) (m : Msg) (q : PeerReq), awaits p m true q s ∧ m.status = 0) ∧
    (∃ (s : State) (p : Nat) (m : Msg) (q : PeerReq), awaits p m true q s ∧ plainTask q.task s ∧ m.status ≠ 0 ∧ (s.task q.task).state = .committed) ∧
    (∃ (s : State) (tag : Nat) (q : PeerReq), canonical s ∧ plainTask q.task s ∧ s.peers.find? (fun x => x.tag == tag) = some q ∧ s.power = .on ∧ s.reg 0x0206000C ≠ 0 ∧ q.at_ + (s.reg 0x0206000C).toNat + 1 ≤ s.etc ∧ ((s.task q.task).state ∈ [TaskState.running, .committed] ∨ (∃ w, (s.task q.task).state = .suspended w))) ∧
    (∃ (s : State) (tag : Nat), (s.power ≠ .on ∨ s.reg 0x0206000C = 0 ∨ (∀ q, q ∈ s.peers → q.tag = tag → s.etc < q.at_ + (s.reg 0x0206000C).toNat + 1))) := by
  refine ⟨⟨up, 17, msg_ 0 [], false, ?_⟩,
    ⟨up, 17, msg_ 0 [], true, ?_⟩,
    ⟨{ running with ports := [(0, { Port.init with state := .admitted, peer := 1 })], regs := [(0x02060200, 1)], peers := [⟨7, 0, peerBase, 64, false, 0⟩] }, ({ running with ports := [(0, { Port.init with state := .admitted, peer := 1 })], regs := [(0x02060200, 1)], peers := [⟨7, 0, peerBase, 64, false, 0⟩] }).dropPeer 7, ((({ running with ports := [(0, { Port.init with state := .admitted, peer := 1 })], regs := [(0x02060200, 1)], peers := [⟨7, 0, peerBase, 64, false, 0⟩] }).dropPeer 7).setTask 0 ((State.task ({ running with ports := [(0, { Port.init with state := .admitted, peer := 1 })], regs := [(0x02060200, 1)], peers := [⟨7, 0, peerBase, 64, false, 0⟩] }) 0).takePeer (cellsAt peerBase (msg_ 64 (List.replicate 64 0)).data))), 0, msg_ 64 (List.replicate 64 0), ⟨7, 0, peerBase, 64, false, 0⟩, ?_⟩,
    ⟨{ with_ { copy with state := .suspended (.recompute 0) } with ports := [(0, { Port.init with state := .admitted, peer := 1 })], regs := [(0x02060200, 1)], peers := [⟨7, 0, peerBase, 64, false, 0⟩] }, ({ with_ { copy with state := .suspended (.recompute 0) } with ports := [(0, { Port.init with state := .admitted, peer := 1 })], regs := [(0x02060200, 1)], peers := [⟨7, 0, peerBase, 64, false, 0⟩] }).dropPeer 7, ((({ with_ { copy with state := .suspended (.recompute 0) } with ports := [(0, { Port.init with state := .admitted, peer := 1 })], regs := [(0x02060200, 1)], peers := [⟨7, 0, peerBase, 64, false, 0⟩] }).dropPeer 7).setTask 0 ((State.task ({ with_ { copy with state := .suspended (.recompute 0) } with ports := [(0, { Port.init with state := .admitted, peer := 1 })], regs := [(0x02060200, 1)], peers := [⟨7, 0, peerBase, 64, false, 0⟩] }) 0).takePeer (cellsAt peerBase (msg_ 64 (List.replicate 64 0)).data))), 0, msg_ 64 (List.replicate 64 0), ⟨7, 0, peerBase, 64, false, 0⟩, (.recompute 0), ?_⟩,
    ⟨{ with_ { copy with state := .ended true } with ports := [(0, { Port.init with state := .admitted, peer := 1 })], regs := [(0x02060200, 1)], peers := [⟨7, 0, peerBase, 64, false, 0⟩] }, ({ with_ { copy with state := .ended true } with ports := [(0, { Port.init with state := .admitted, peer := 1 })], regs := [(0x02060200, 1)], peers := [⟨7, 0, peerBase, 64, false, 0⟩] }).dropPeer 7, ((({ with_ { copy with state := .ended true } with ports := [(0, { Port.init with state := .admitted, peer := 1 })], regs := [(0x02060200, 1)], peers := [⟨7, 0, peerBase, 64, false, 0⟩] }).dropPeer 7).setTask 0 ((State.task ({ with_ { copy with state := .ended true } with ports := [(0, { Port.init with state := .admitted, peer := 1 })], regs := [(0x02060200, 1)], peers := [⟨7, 0, peerBase, 64, false, 0⟩] }) 0).takePeer (cellsAt peerBase (msg_ 64 (List.replicate 64 0)).data))), 0, msg_ 64 (List.replicate 64 0), ⟨7, 0, peerBase, 64, false, 0⟩, true, ?_⟩,
    ⟨{ running with ports := [(0, { Port.init with state := .admitted, peer := 1 })], regs := [(0x02060200, 1)], peers := [⟨7, 0, peerBase, 64, false, 0⟩] }, 0, msg_ 0 [], ⟨7, 0, peerBase, 64, false, 0⟩, ?_⟩,
    ⟨{ with_ { copy with state := .committed } with ports := [(0, { Port.init with state := .admitted, peer := 1 })], regs := [(0x02060200, 1)], peers := [⟨7, 0, peerBase, 64, true, 0⟩] }, 0, msg_ 0 [], ⟨7, 0, peerBase, 64, true, 0⟩, ?_⟩,
    ⟨{ with_ { copy with state := .committed } with ports := [(0, { Port.init with state := .admitted, peer := 1 })], regs := [(0x02060200, 1)], peers := [⟨7, 0, peerBase, 64, true, 0⟩] }, 0, { msg_ 0 [] with status := 1 }, ⟨7, 0, peerBase, 64, true, 0⟩, ?_⟩,
    ⟨{ running with ports := [(0, { Port.init with state := .admitted, peer := 1 })], regs := [(0x02060200, 1)], peers := [⟨7, 0, peerBase, 64, false, 0⟩] }, 7, ⟨7, 0, peerBase, 64, false, 0⟩, ?_⟩,
    ⟨up, 7, ?_⟩⟩ <;>
  repeat' first | exact canonB_ok (by decide +kernel) | decide +kernel | exact reachesB_ok (by decide +kernel) | exact settledB_ok (by decide +kernel) | exact Or.inl ⟨by decide +kernel, reachesH_ok (by decide +kernel)⟩ | refine And.intro ?_ ?_ | rfl | (intro _ h; cases h; done) | (intro _ _ h; cases h; done) | (intro _ _ _ h; cases h; done) | exact noneWaits_ok rfl | (unfold wellFormed; decide +kernel) | exact ⟨0, by decide +kernel⟩ | exact ⟨1, by decide +kernel⟩ | exact Or.inl ⟨_, rfl⟩ | exact Or.inl (by decide +kernel) | exact Or.inr (by decide +kernel) | constructor
theorem hyps_peerAnswers_6 : ∃ (s : State) (p : Nat) (m : Msg) (q : PeerReq) (x : Xfer), awaits p m false q s ∧ m.status = 0 ∧ m.poisoned = false ∧ m.data.length = q.len ∧ ((∃ w, (s.task q.task).state = .suspended w)) ∧ (s.scull ((s.task q.task).scull.getD 0)).task = none ∧ (s.task q.task).flying = [x] ∧ x.kind = .load ∧ regionOf x.da = some .peer ∧ ((∀ a, q.da ≤ a → a < q.da + q.len → x.covers a = true)) :=
  ⟨{ with_ { copy with state := .suspended (.recompute 0), flying := [xfer peerBase] } with sculls := [(0, { Scull.init with suspended := [0] })], ports := [(0, { Port.init with state := .admitted, peer := 1 })], regs := [(0x02060200, 1)], peers := [⟨7, 0, peerBase, 64, false, 0⟩] }, 0, msg_ 64 (List.replicate 64 0), ⟨7, 0, peerBase, 64, false, 0⟩, xfer peerBase, by refine ⟨?_, by decide +kernel, by decide +kernel, by decide +kernel, ⟨_, rfl⟩, by decide +kernel, by decide +kernel, by decide +kernel, by decide +kernel, fun a h1 h2 => xfer_covers h1 h2⟩; repeat' first | exact canonB_ok (by decide +kernel) | decide +kernel | exact reachesB_ok (by decide +kernel) | exact settledB_ok (by decide +kernel) | exact Or.inl ⟨by decide +kernel, reachesH_ok (by decide +kernel)⟩ | refine And.intro ?_ ?_ | rfl | (intro _ h; cases h; done) | (intro _ _ h; cases h; done) | (intro _ _ _ h; cases h; done) | exact noneWaits_ok rfl | (unfold wellFormed; decide +kernel) | exact ⟨0, by decide +kernel⟩ | exact ⟨1, by decide +kernel⟩ | exact Or.inl ⟨_, rfl⟩ | exact Or.inl (by decide +kernel) | exact Or.inr (by decide +kernel) | constructor⟩
theorem hyps_peerAnswers_11 : ∃ (s : State) (tag : Nat) (q : PeerReq), s.peers.find? (fun x => x.tag == tag) = some q ∧ s.power = .on ∧ s.reg 0x0206000C ≠ 0 ∧ q.at_ + (s.reg 0x0206000C).toNat + 1 ≤ s.etc ∧ ((∃ h, (s.task q.task).state = .ended h)) :=
  ⟨{ with_ { copy with state := .ended true } with ports := [(0, { Port.init with state := .admitted, peer := 1 })], regs := [(0x02060200, 1)], peers := [⟨7, 0, peerBase, 64, false, 0⟩] }, 7, ⟨7, 0, peerBase, 64, false, 0⟩, by exact ⟨by decide +kernel, by decide +kernel, by decide +kernel, by decide +kernel, ⟨true, by decide +kernel⟩⟩⟩

theorem hyps_collectiveMembers :
    (∃ (s : State) (p : Nat) (k : Nat) (m : Msg) (c : Coll), inEpoch p m k c s ∧ c.opened = false ∧ c.root = false) ∧
    (∃ (s : State) (p : Nat) (k : Nat) (m : Msg) (c : Coll), inEpoch p m k c s ∧ c.opened = false ∧ c.root = false ∧ c.children = [] ∧ c.op = 0 ∧ c.arrivals = [] ∧ c.sums = [] ∧ c.written = [] ∧ c.poison = false ∧ 0 < c.count ∧ c.count ≤ 896 ∧ (s.task c.task).clRig = false ∧ (s.task c.task).clWork = 0 ∧ c.claim = 0 ∧ s.readBad (s.task c.task).clSrc (s.task c.task).clSrcBytes = false) ∧
    (∃ (s : State) (p : Nat) (k : Nat) (m : Msg) (c : Coll), inEpoch p m k c s ∧ c.opened = true) ∧
    (∃ (s : State) (p : Nat) (m : Msg), admitted p s ∧ s.fromTree m.group m.epoch m.src = true ∧ s.collRuns (collKey m.group m.epoch) = false ∧ newer m.epoch (Tab.get ((0 : Word), Status.ok) s.colls.ended m.group).1 = true) ∧
    (∃ (s : State) (p : Nat) (m : Msg), admitted p s ∧ s.fromTree m.group m.epoch m.src = true ∧ s.collRuns (collKey m.group m.epoch) = false ∧ newer m.epoch (Tab.get ((0 : Word), Status.ok) s.colls.ended m.group).1 = true ∧ Tab.wf ((0 : Word), Status.ok) s.colls.ended = true ∧ Tab.wf none s.colls.held = true ∧ s.grpChildren m.group = []) ∧
    (∃ (s : State) (p : Nat) (x : Nat) (m : Msg), admitted p s ∧ s.fromTree m.group m.epoch m.src = true ∧ s.collRuns (collKey m.group m.epoch) = false ∧ newer m.epoch (Tab.get ((0 : Word), Status.ok) s.colls.ended m.group).1 = true ∧ s.grpChildren m.group = [x]) ∧
    (∃ (s : State) (p : Nat) (m : Msg) (c : Instr), admitted p s ∧ s.fromTree m.group m.epoch m.src = false ∧ c ∈ [Instr.collStart p m, .chunkUp p m, .chunkDown p m, .ackUp p m, .collNote p m, .collFinal p m, .flagUp p m, .flagDown p m]) ∧
    (∃ (s : State) (p : Nat) (m : Msg) (c : Instr), admitted p s ∧ s.fromTree m.group m.epoch m.src = true ∧ s.collRuns (collKey m.group m.epoch) = false ∧ (c ∈ [Instr.chunkUp p m, .chunkDown p m, .ackUp p m, .collNote p m, .flagUp p m, .flagDown p m] ∨ (newer m.epoch (Tab.get ((0 : Word), Status.ok) s.colls.ended m.group).1 = false ∧ c ∈ [Instr.collStart p m, .collFinal p m]))) ∧
    (∃ (s : State) (p : Nat) (m : Msg) (c : Instr), (s.port p).state ≠ .admitted ∧ c ∈ [Instr.collStart p m, .chunkUp p m, .chunkDown p m, .ackUp p m, .collNote p m, .collFinal p m, .flagUp p m, .flagDown p m]) := by
  refine ⟨⟨collS ({ Coll.none with parent := 1 }), 0, 0, msg_ 0 [], { Coll.none with parent := 1 }, ?_⟩,
    ⟨collS ({ Coll.none with parent := 1, count := 896 }), 0, 0, msg_ 0 [], { Coll.none with parent := 1, count := 896 }, ?_⟩,
    ⟨collS ({ Coll.none with parent := 1, opened := true }), 0, 0, msg_ 0 [], { Coll.none with parent := 1, opened := true }, ?_⟩,
    ⟨groupS 0, 0, msg1, ?_⟩,
    ⟨groupS 0, 0, msg1, ?_⟩,
    ⟨groupS 0x40, 0, 3, msg1, ?_⟩,
    ⟨port_ .admitted, 0, msg1, .flagUp 0 msg1, ?_⟩,
    ⟨groupS 0, 0, msg1, .chunkUp 0 msg1, ?_⟩,
    ⟨up, 17, msg1, .collFinal 17 msg1, ?_⟩⟩ <;>
  repeat' first | exact canonB_ok (by decide +kernel) | decide +kernel | exact reachesB_ok (by decide +kernel) | exact settledB_ok (by decide +kernel) | exact Or.inl ⟨by decide +kernel, reachesH_ok (by decide +kernel)⟩ | refine And.intro ?_ ?_ | rfl | (intro _ h; cases h; done) | (intro _ _ h; cases h; done) | (intro _ _ _ h; cases h; done) | exact noneWaits_ok rfl | (unfold wellFormed; decide +kernel) | exact ⟨0, by decide +kernel⟩ | exact ⟨1, by decide +kernel⟩ | exact Or.inl ⟨_, rfl⟩ | exact Or.inl (by decide +kernel) | exact Or.inr (by decide +kernel) | constructor

theorem hyps_collectiveData :
    (∃ (s : State) (p : Nat) (k : Nat) (n : Nat) (off : Nat) (w : Nat) (m : Msg) (c : Coll) (e : Instr), inEpoch p m k c s ∧ m.poisoned = false ∧ (c.root = false ∨ c.phase = 1) ∧ ((e = .chunkUp p m ∧ c.op ≤ 1 ∧ (c.claim ≠ 0 ∨ (s.task c.task).clWork = 0) ∧ off = m.tag.toNat) ∨ (e = .flagUp p m ∧ c.op = 4 ∧ off = 0)) ∧ n = Tab.get 0 c.arrivals off ∧ n < c.children.length ∧ w = m.data.length / 4) ∧
    (∃ (s : State) (p : Nat) (k : Nat) (n : Nat) (off : Nat) (w : Nat) (m : Msg) (c : Coll) (e : Instr) (typ : Nat), inEpoch p m k c s ∧ m.poisoned = false ∧ c.root = false ∧ c.poison = false ∧ ((e = .chunkUp p m ∧ c.op ≤ 1 ∧ (c.claim ≠ 0 ∨ (s.task c.task).clWork = 0) ∧ off = m.tag.toNat ∧ typ = mChunkUp) ∨ (e = .flagUp p m ∧ c.op = 4 ∧ off = 0 ∧ typ = mFlagUp)) ∧ n = Tab.get 0 c.arrivals off ∧ n = c.children.length ∧ w = m.data.length / 4) ∧
    (∃ (s : State) (p : Nat) (k : Nat) (m : Msg) (c : Coll) (e : Instr), inEpoch p m k c s ∧ m.poisoned = false ∧ c.root = true ∧ c.phase ≠ 1 ∧ e ∈ [Instr.chunkUp p m, .flagUp p m]) ∧
    (∃ (s : State) (p : Nat) (k : Nat) (m : Msg) (c : Coll) (e : Instr), inEpoch p m k c s ∧ m.poisoned = true ∧ c.poison = false ∧ c.root = true ∧ c.phase = 1 ∧ e ∈ [Instr.chunkUp p m, .flagUp p m]) ∧
    (∃ (s : State) (p : Nat) (k : Nat) (m : Msg) (c : Coll), inEpoch p m k c s ∧ m.poisoned = true ∧ c.poison = false ∧ c.root = false ∧ c.op = 0 ∧ c.claim ≠ 0 ∧ Tab.get 0 c.arrivals m.tag.toNat < c.children.length) ∧
    (∃ (s : State) (p : Nat) (k : Nat) (m : Msg) (c : Coll), inEpoch p m k c s ∧ m.poisoned = false ∧ (c.op = 0 ∨ c.op = 2) ∧ c.root = false ∧ c.children = [] ∧ c.opened = true) ∧
    (∃ (s : State) (p : Nat) (k : Nat) (x : Nat) (m : Msg) (c : Coll), inEpoch p m k c s ∧ m.poisoned = false ∧ (c.op = 0 ∨ c.op = 2) ∧ c.children = [x] ∧ c.acks = [] ∧ c.poison = false) := by
  refine ⟨⟨collS ({ Coll.none with parent := 5, children := [1] }), 0, 0, 0, 7, 0, msg_ 0 [], { Coll.none with parent := 5, children := [1] }, .chunkUp 0 (msg_ 0 []), ?_⟩,
    ⟨collS ({ Coll.none with parent := 5, children := [1], arrivals := [(7, 1)] }), 0, 0, 1, 7, 0, msg_ 0 [], { Coll.none with parent := 5, children := [1], arrivals := [(7, 1)] }, .chunkUp 0 (msg_ 0 []), mChunkUp, ?_⟩,
    ⟨collS ({ Coll.none with root := true, children := [1] }), 0, 0, msg_ 0 [], { Coll.none with root := true, children := [1] }, .flagUp 0 (msg_ 0 []), ?_⟩,
    ⟨collS ({ Coll.none with root := true, children := [1], phase := 1 }), 0, 0, { msg_ 0 [] with poisoned := true }, { Coll.none with root := true, children := [1], phase := 1 }, .chunkUp 0 ({ msg_ 0 [] with poisoned := true }), ?_⟩,
    ⟨collS ({ Coll.none with parent := 5, children := [1], claim := 64 }), 0, 0, { msg_ 0 [] with poisoned := true }, { Coll.none with parent := 5, children := [1], claim := 64 }, ?_⟩,
    ⟨collS ({ Coll.none with parent := 1, opened := true }), 0, 0, msg_ 0 [], { Coll.none with parent := 1, opened := true }, ?_⟩,
    ⟨collS ({ Coll.none with parent := 5, children := [1] }), 0, 0, 1, msg_ 0 [], { Coll.none with parent := 5, children := [1] }, ?_⟩⟩ <;>
  repeat' first | exact canonB_ok (by decide +kernel) | decide +kernel | exact reachesB_ok (by decide +kernel) | exact settledB_ok (by decide +kernel) | exact Or.inl ⟨by decide +kernel, reachesH_ok (by decide +kernel)⟩ | refine And.intro ?_ ?_ | rfl | (intro _ h; cases h; done) | (intro _ _ h; cases h; done) | (intro _ _ _ h; cases h; done) | exact noneWaits_ok rfl | (unfold wellFormed; decide +kernel) | exact ⟨0, by decide +kernel⟩ | exact ⟨1, by decide +kernel⟩ | exact Or.inl ⟨_, rfl⟩ | exact Or.inl (by decide +kernel) | exact Or.inr (by decide +kernel) | constructor

theorem hyps_collectiveVerdict :
    (∃ (s : State) (p : Nat) (k : Nat) (m : Msg) (c : Coll), inEpoch p m k c s ∧ m.src ∉ c.acks ∧ c.op ≠ 4 ∧ (c.full = false ∨ c.acks.length + 1 < c.children.length ∨ (c.root = false ∧ c.sentAck = true) ∨ (c.root = true ∧ c.phase ≠ 2))) ∧
    (∃ (s : State) (p : Nat) (k : Nat) (m : Msg) (c : Coll), inEpoch p m k c s ∧ m.src ∉ c.acks ∧ c.op ≠ 4 ∧ c.full = true ∧ c.children.length ≤ c.acks.length + 1 ∧ c.root = false ∧ c.sentAck = false) ∧
    (∃ (s : State) (p : Nat) (k : Nat) (m : Msg) (c : Coll), inEpoch p m k c s ∧ m.src ∉ c.acks ∧ c.op ≠ 4 ∧ c.full = true ∧ c.children.length ≤ c.acks.length + 1 ∧ c.root = true ∧ c.phase = 2) ∧
    (∃ (s : State) (p : Nat) (k : Nat) (m : Msg) (c : Coll), inEpoch p m k c s ∧ m.src ∈ c.acks) ∧
    (∃ (s : State) (p : Nat) (k : Nat) (m : Msg) (c : Coll), inEpoch p m k c s) ∧
    (∃ (s : State) (p : Nat) (k : Nat) (m : Msg) (c : Coll), inEpoch p m k c s) ∧
    (∃ (s : State) (p : Nat) (k : Nat) (m : Msg) (c : Coll), inEpoch p m k c s ∧ c.children = []) ∧
    (∃ (s : State) (g : Nat) (k : Nat) (c : Coll), canonical s ∧ s.power = .on ∧ Tab.wf Coll.none s.colls.running = true ∧ Tab.wf ((0 : Word), Status.ok) s.colls.ended = true ∧ Tab.wf 0 s.rigger = true ∧ s.colls.running = [(k, c)] ∧ c.group = g ∧ c.root = true ∧ c.opened = true ∧ c.armedAt + c.timeout + 1 ≤ s.etc) ∧
    (∃ (s : State) (g : Nat) (k : Nat) (c : Coll), canonical s ∧ s.power = .on ∧ Tab.wf Coll.none s.colls.running = true ∧ Tab.wf ((0 : Word), Status.ok) s.colls.ended = true ∧ Tab.wf 0 s.rigger = true ∧ s.colls.running = [(k, c)] ∧ c.group = g ∧ (c.root = false ∨ c.opened = false ∨ s.etc < c.armedAt + c.timeout + 1)) ∧
    (∃ (s : State) (g : Nat) (k : Nat) (c : Coll) (a : _), canonical s ∧ s.power = .on ∧ Tab.wf Coll.none s.colls.running = true ∧ Tab.wf ((0 : Word), Status.ok) s.colls.ended = true ∧ Tab.wf 0 s.rigger = true ∧ s.colls.running = [(k, c)] ∧ c.group = g ∧ c.guardAt = some a ∧ a + 1 ≤ s.etc) ∧
    (∃ (s : State) (g : Nat) (k : Nat) (c : Coll), canonical s ∧ s.power = .on ∧ Tab.wf Coll.none s.colls.running = true ∧ Tab.wf ((0 : Word), Status.ok) s.colls.ended = true ∧ Tab.wf 0 s.rigger = true ∧ s.colls.running = [(k, c)] ∧ c.group = g ∧ (c.guardAt = none ∨ (∃ a, c.guardAt = some a ∧ s.etc < a + 1))) ∧
    (∃ (s : State) (g : Nat), (s.power ≠ .on ∨ (∀ e, e ∈ s.colls.running → e.2.group ≠ g))) := by
  refine ⟨⟨collS ({ Coll.none with parent := 1, sentAck := true }), 0, 0, msg_ 0 [], { Coll.none with parent := 1, sentAck := true }, ?_⟩,
    ⟨collS ({ Coll.none with parent := 5, children := [1], opened := true, op := 1 }), 0, 0, msg_ 0 [], { Coll.none with parent := 5, children := [1], opened := true, op := 1 }, ?_⟩,
    ⟨collS ({ Coll.none with root := true, phase := 2, children := [1], opened := true, op := 1 }), 0, 0, msg_ 0 [], { Coll.none with root := true, phase := 2, children := [1], opened := true, op := 1 }, ?_⟩,
    ⟨collS ({ Coll.none with parent := 5, children := [1], acks := [1] }), 0, 0, msg_ 0 [], { Coll.none with parent := 5, children := [1], acks := [1] }, ?_⟩,
    ⟨collS ({ Coll.none with parent := 1 }), 0, 0, msg_ 0 [], { Coll.none with parent := 1 }, ?_⟩,
    ⟨collS ({ Coll.none with parent := 1 }), 0, 0, msg_ 0 [], { Coll.none with parent := 1 }, ?_⟩,
    ⟨collS ({ Coll.none with parent := 1 }), 0, 0, msg_ 0 [], { Coll.none with parent := 1 }, ?_⟩,
    ⟨collT ({ Coll.none with root := true, opened := true }), 0, 7, { Coll.none with root := true, opened := true }, ?_⟩,
    ⟨collT ({ Coll.none with parent := 1 }), 0, 7, { Coll.none with parent := 1 }, ?_⟩,
    ⟨collT ({ Coll.none with guardAt := some 0 }), 0, 7, { Coll.none with guardAt := some 0 }, 0, ?_⟩,
    ⟨collT ({ Coll.none with parent := 1 }), 0, 7, { Coll.none with parent := 1 }, ?_⟩,
    ⟨up, 255, ?_⟩⟩ <;>
  repeat' first | exact canonB_ok (by decide +kernel) | decide +kernel | exact reachesB_ok (by decide +kernel) | exact settledB_ok (by decide +kernel) | exact Or.inl ⟨by decide +kernel, reachesH_ok (by decide +kernel)⟩ | refine And.intro ?_ ?_ | rfl | (intro _ h; cases h; done) | (intro _ _ h; cases h; done) | (intro _ _ _ h; cases h; done) | exact noneWaits_ok rfl | (unfold wellFormed; decide +kernel) | exact ⟨0, by decide +kernel⟩ | exact ⟨1, by decide +kernel⟩ | exact Or.inl ⟨_, rfl⟩ | exact Or.inl (by decide +kernel) | exact Or.inr (by decide +kernel) | constructor

theorem hyps_loans :
    (∃ (s : State) (op : Nat) (p : Nat) (req : Requester) (e : Instr), reaches s req 0x02070094 ∧ ((op = 1 ∧ e = .reclaim p req) ∨ (op = 2 ∧ e = .schedReturn p req)) ∧ s.dev ≠ .ready ∧ s.dev ≠ .running) ∧
    (∃ (s : State) (op : Nat) (p : Nat) (req : Requester) (e : Instr), reaches s req 0x02070094 ∧ ((op = 1 ∧ e = .reclaim p req) ∨ (op = 2 ∧ e = .schedReturn p req)) ∧ (s.dev = .ready ∨ s.dev = .running) ∧ s.sched.busy = true) ∧
    (∃ (s : State), (s.power ≠ .on ∨ s.sched.busy = false ∨ s.sched.op ≠ 1 ∨ s.etc < s.sched.at_ + s.fld 0x02070090 0 16 + 1)) := by
  refine ⟨⟨in_ .quiesced, 2, 7, .coxswain, .schedReturn 7 .coxswain, ?_⟩,
    ⟨{ up with sched := { Sched.init with busy := true } }, 1, 0, .coxswain, .reclaim 0 .coxswain, ?_⟩,
    ⟨up, ?_⟩⟩ <;>
  repeat' first | exact canonB_ok (by decide +kernel) | decide +kernel | exact reachesB_ok (by decide +kernel) | exact settledB_ok (by decide +kernel) | exact Or.inl ⟨by decide +kernel, reachesH_ok (by decide +kernel)⟩ | refine And.intro ?_ ?_ | rfl | (intro _ h; cases h; done) | (intro _ _ h; cases h; done) | (intro _ _ _ h; cases h; done) | exact noneWaits_ok rfl | (unfold wellFormed; decide +kernel) | exact ⟨0, by decide +kernel⟩ | exact ⟨1, by decide +kernel⟩ | exact Or.inl ⟨_, rfl⟩ | exact Or.inl (by decide +kernel) | exact Or.inr (by decide +kernel) | constructor
theorem hyps_loans_1 : ∃ (s : State) (op : Nat) (p : Nat) (req : Requester) (cs : List Nat) (e : Instr), schedReady req s ∧ mayMove op p cs s ∧ ((op = 1 ∧ e = .reclaim p req) ∨ (op = 2 ∧ e = .schedReturn p req)) ∧ ((∀ c, c ∈ cs → onlyRuns c s ∧ ∀ i, i < 16 → (s.scull (16 * c + i)).task = none)) :=
  ⟨lentS, 2, 1, .coxswain, [0], .schedReturn 1 .coxswain, by exact ⟨⟨canonB_ok (by decide +kernel), settledB_ok (by decide +kernel), reachesB_ok (by decide +kernel), by decide +kernel⟩, ⟨by decide +kernel, by decide +kernel, by decide +kernel, by decide +kernel, by decide +kernel, fun h => by cases h⟩, by decide +kernel, by unfold onlyRuns; decide +kernel⟩⟩
theorem hyps_loans_2 : ∃ (s : State) (p : Nat) (d : Nat) (i : Nat) (id : Nat) (req : Requester) (cs : List Nat), schedReady req s ∧ mayMove 1 p cs s ∧ ((∀ c, c ∈ cs → onlyRuns c s)) ∧ s.fld 0x02070090 0 16 ≠ 0 ∧ d ∈ cs ∧ i < 16 ∧ (s.scull (16 * d + i)).task = some id ∧ (s.task id).part ≠ p :=
  ⟨{ loanS with sculls := [(0, { Scull.init with task := some 0 })], tasks := [(0, { copy with state := .running, scull := some 0 })] }, 1, 0, 0, 0, .coxswain, [0], by exact ⟨⟨canonB_ok (by decide +kernel), settledB_ok (by decide +kernel), reachesB_ok (by decide +kernel), by decide +kernel⟩, ⟨by decide +kernel, by decide +kernel, by decide +kernel, Eq.symm (movers_loan rfl (by decide +kernel)), by decide +kernel, fun _ => by decide +kernel⟩, by unfold onlyRuns; decide +kernel, by decide +kernel⟩⟩
theorem hyps_loans_3 : ∃ (s : State) (p : Nat) (c : Nat) (id : Nat) (req : Requester), schedReady req s ∧ mayMove 1 p [c] s ∧ (s.crew c).queue = [id] ∧ (s.crew c).parked = [] ∧ (s.crew c).ctxHeld = [] ∧ ((∀ i, i < 16 → (s.scull (16 * c + i)).task = none ∧ (s.scull (16 * c + i)).suspended = [])) ∧ (s.task id).state = .queued ∧ (s.task id).home = c ∧ (s.task id).part = s.crewHome c ∧ (s.task id).holdLines = 0 ∧ s.partBE (s.crewHome c) = true ∧ s.crewHome c < 8 :=
  ⟨{ loanS with crews := [(0, { Crew.init with queue := [0] })], tasks := [(0, { copy with words := [0x106, 0, 0, 0xFFFFFFFF] })] }, 1, 0, 0, .coxswain, by exact ⟨⟨canonB_ok (by decide +kernel), settledB_ok (by decide +kernel), reachesB_ok (by decide +kernel), by decide +kernel⟩, ⟨by decide +kernel, by decide +kernel, by decide +kernel, Eq.symm (movers_loan rfl (by decide +kernel)), by decide +kernel, fun _ => by decide +kernel⟩, by decide +kernel⟩⟩
theorem hyps_loans_4 : ∃ (s : State) (op : Nat) (p : Nat) (req : Requester) (e : Instr), schedReady req s ∧ ((op = 1 ∧ e = .reclaim p req) ∨ (op = 2 ∧ e = .schedReturn p req)) ∧ (s.partEn p = false ∨ s.partBE p = true ∨ s.movers op p = [] ∨ (op = 1 ∧ s.emptiesPart (s.movers 1 p) = true)) :=
  ⟨up, 1, 7, .coxswain, .reclaim 7 .coxswain, by exact ⟨⟨canonB_ok (by decide +kernel), settledB_ok (by decide +kernel), reachesB_ok (by decide +kernel), by decide +kernel⟩, by decide +kernel, Or.inl (by decide +kernel)⟩⟩
theorem hyps_loans_7 : ∃ (s : State), canonical s ∧ s.power = .on ∧ s.sched.busy = true ∧ s.sched.op = 1 ∧ s.sched.at_ + s.fld 0x02070090 0 16 + 1 ≤ s.etc ∧ ((∀ c i id w, c ∈ s.sched.crews → i < 16 → (s.scull (16 * c + i)).task = some id → (s.task id).state ≠ .suspended w)) :=
  ⟨{ up with sched := { Sched.init with busy := true, op := 1 } }, by exact ⟨canonB_ok (by decide +kernel), by decide +kernel, by decide +kernel, by decide +kernel, by decide +kernel, fun _ _ _ _ h => by cases h⟩⟩

theorem hyps_hostLink :
    (∃ (s : State) (n : Nat), s.power = .on ∧ s.hostOpen = true ∧ n < 256 ∧ Tab.wf false s.host.vecPend = true ∧ Tab.wf true s.host.vecMask = true) ∧
    (∃ (s : State), s.power = .on ∧ s.hostOpen = true ∧ Tab.wf false s.host.vecPend = true) ∧
    (∃ (s : State) (v : Option Nat), (s.power ≠ .on ∨ s.hostOpen = false ∨ (∃ n, v = some n ∧ 256 ≤ n))) ∧
    (∃ (s : State), s.power = .on ∧ s.locked 25 = true ∧ (s.dev ≠ .starting ∨ 4 < s.start.step)) ∧
    (∃ (s : State), canonical s ∧ noTasks s ∧ ((∀ e, e ∈ s.rings → e.2.reads = [])) ∧ s.power = .on ∧ s.locked 25 = true ∧ (s.dev ≠ .starting ∨ 4 < s.start.step) ∧ Tab.wf false s.host.vecPend = true) ∧
    (∃ (s : State) (q : Nat) (n : Nat) (seq : Word) (rs : List (Word × Nat)), canonical s ∧ noTasks s ∧ s.power = .on ∧ s.locked 25 = true ∧ (s.dev ≠ .starting ∨ 4 < s.start.step) ∧ ((∀ e, e ∈ s.rings → e.1 ≠ q → e.2.reads = [])) ∧ (s.ring q).reads = (seq, n) :: rs ∧ (s.ring q).state = .active) ∧
    (∃ (s : State), (s.power ≠ .on ∨ s.locked 25 = false ∨ (s.dev = .starting ∧ s.start.step ≤ 4))) := by
  refine ⟨⟨up, 255, ?_⟩,
    ⟨up, ?_⟩,
    ⟨off, none, ?_⟩,
    ⟨up, ?_⟩,
    ⟨up, ?_⟩,
    ⟨{ up with rings := [(511, { Ring.init with state := .active, reads := [(9, 3)] })] }, 511, 3, 9, [], ?_⟩,
    ⟨off, ?_⟩⟩ <;>
  repeat' first | exact canonB_ok (by decide +kernel) | decide +kernel | exact reachesB_ok (by decide +kernel) | exact settledB_ok (by decide +kernel) | exact Or.inl ⟨by decide +kernel, reachesH_ok (by decide +kernel)⟩ | refine And.intro ?_ ?_ | rfl | (intro _ h; cases h; done) | (intro _ _ h; cases h; done) | (intro _ _ _ h; cases h; done) | exact noneWaits_ok rfl | (unfold wellFormed; decide +kernel) | exact ⟨0, by decide +kernel⟩ | exact ⟨1, by decide +kernel⟩ | exact Or.inl ⟨_, rfl⟩ | exact Or.inl (by decide +kernel) | exact Or.inr (by decide +kernel) | constructor
theorem hyps_hostLink_6 : ∃ (s : State) (id : Nat), canonical s ∧ plainTask id s ∧ ((∀ e, e ∈ s.rings → e.2.reads = [])) ∧ s.power = .on ∧ s.locked 25 = true ∧ (s.dev ≠ .starting ∨ 4 < s.start.step) ∧ alive (s.task id) ∧ (s.task id).onHost = true ∧ ((∀ j, j ≠ id → alive (s.task j) → (s.task j).onHost = false)) :=
  ⟨{ with_ { copy with state := .running, flying := [xfer hostBase] } with rings := [] }, 0, by refine ⟨canonB_ok (by decide +kernel), ⟨settledB_ok (by decide +kernel), by decide +kernel⟩, by decide +kernel, by decide +kernel, by decide +kernel, by decide +kernel, Or.inl (by decide +kernel), by decide +kernel, fun j hj h => ?_⟩; have e : State.task { with_ { copy with state := .running, flying := [xfer hostBase] } with rings := [] } j = Task.none := one_key hj; rw [e]; decide +kernel⟩

theorem hyps_hostWindow :
    (∃ (s : State) (offset : Nat) (len : Nat) (da : Nat) (e : Instr), hostUp s ∧ s.ideOpen = true ∧ inWindow s offset len da ∧ e ∈ [Instr.bar2Access offset none len, .cxlMemRequest offset none len]) ∧
    (∃ (s : State) (offset : Nat) (len : Nat) (da : Nat) (bs : List Byte) (e : Instr), hostUp s ∧ s.ideOpen = true ∧ inWindow s offset bs.length da ∧ e ∈ [Instr.bar2Access offset (some bs) len, .cxlMemRequest offset (some bs) len] ∧ ((∀ a, da ≤ a → a < da + bs.length → s.served a = true))) ∧
    (∃ (s : State), hostUp s ∧ s.ideOpen = false) ∧
    (∃ (s : State) (data : Option (List Byte)), hostUp s ∧ s.ideOpen = false ∧ data = none) ∧
    (∃ (s : State) (data : Option (List Byte)), hostUp s ∧ s.ideOpen = false ∧ data ≠ none) ∧
    (∃ (s : State), (s.power ≠ .on ∨ s.host.rate = 0 ∨ s.locked 25 = false)) := by
  refine ⟨⟨{ up with regs := [(0x200018, 1)] }, 0x3FFFFFF0, 16, 0x3FFFFFF0, .bar2Access 0x3FFFFFF0 none 16, ?_⟩,
    ⟨{ up with regs := [(0x200018, 1)] }, 0, 0, 0, [1, 2], .cxlMemRequest 0 (some [1, 2]) 0, ?_⟩,
    ⟨{ up with host := { up.host with ideMem := false } }, ?_⟩,
    ⟨{ up with host := { up.host with ideMem := false } }, none, ?_⟩,
    ⟨{ up with host := { up.host with ideIo := false } }, some [1], ?_⟩,
    ⟨off, ?_⟩⟩ <;>
  repeat' first | exact canonB_ok (by decide +kernel) | decide +kernel | exact reachesB_ok (by decide +kernel) | exact settledB_ok (by decide +kernel) | exact Or.inl ⟨by decide +kernel, reachesH_ok (by decide +kernel)⟩ | refine And.intro ?_ ?_ | rfl | (intro _ h; cases h; done) | (intro _ _ h; cases h; done) | (intro _ _ _ h; cases h; done) | exact noneWaits_ok rfl | (unfold wellFormed; decide +kernel) | exact ⟨0, by decide +kernel⟩ | exact ⟨1, by decide +kernel⟩ | exact Or.inl ⟨_, rfl⟩ | exact Or.inl (by decide +kernel) | exact Or.inr (by decide +kernel) | constructor
theorem hyps_hostWindow_3 : ∃ (s : State) (offset : Nat) (len : Nat) (n : Nat) (data : Option (List Byte)) (e : Instr), hostUp s ∧ s.ideOpen = true ∧ n = (data.map List.length).getD len ∧ ((∀ da, ¬ inWindow s offset n da)) ∧ e ∈ [Instr.bar2Access offset data len, .cxlMemRequest offset data len] :=
  ⟨up, 0, 1, 1, none, .bar2Access 0 none 1, by exact ⟨⟨canonB_ok (by decide +kernel), by decide +kernel⟩, by decide +kernel, by decide +kernel, fun _ h => absurd h.2.1 (by decide +kernel), by decide +kernel⟩⟩

theorem hyps_hostSecurity :
    (∃ (s : State), hostUp s ∧ s.sec.rngStop = true) ∧
    (∃ (s : State), hostUp s ∧ s.sec.rngStop = false ∧ (s.sec.attReady = false ∨ 65536 ≤ s.sec.attUsed)) ∧
    (∃ (s : State) (stream : Nat), hostUp s ∧ s.sec.attReady = true ∧ s.sec.rngStop = false ∧ stream < 2) ∧
    (∃ (s : State) (stream : Nat), canonical s ∧ s.power = .on ∧ stream < 2) ∧
    (∃ (s : State), (s.power ≠ .on ∨ s.host.rate = 0 ∨ s.locked 25 = false)) ∧
    (∃ (s : State) (stream : Nat), (s.sec.attReady = false ∨ s.sec.rngStop = true ∨ 2 ≤ stream)) ∧
    (∃ (s : State) (stream : Nat), (s.power ≠ .on ∨ 2 ≤ stream)) := by
  refine ⟨⟨{ up with sec := { up.sec with rngStop := true } }, ?_⟩,
    ⟨{ up with sec := { up.sec with attUsed := 65536 } }, ?_⟩,
    ⟨up, 1, ?_⟩,
    ⟨up, 1, ?_⟩,
    ⟨off, ?_⟩,
    ⟨up, 2, ?_⟩,
    ⟨up, 2, ?_⟩⟩ <;>
  repeat' first | exact canonB_ok (by decide +kernel) | decide +kernel | exact reachesB_ok (by decide +kernel) | exact settledB_ok (by decide +kernel) | exact Or.inl ⟨by decide +kernel, reachesH_ok (by decide +kernel)⟩ | refine And.intro ?_ ?_ | rfl | (intro _ h; cases h; done) | (intro _ _ h; cases h; done) | (intro _ _ _ h; cases h; done) | exact noneWaits_ok rfl | (unfold wellFormed; decide +kernel) | exact ⟨0, by decide +kernel⟩ | exact ⟨1, by decide +kernel⟩ | exact Or.inl ⟨_, rfl⟩ | exact Or.inl (by decide +kernel) | exact Or.inr (by decide +kernel) | constructor
theorem hyps_hostSecurity_1 : ∃ (s : State) (request : List Byte) (body : List Byte), hostUp s ∧ s.sec.rngStop = false ∧ s.sec.attReady = true ∧ s.sec.attUsed < 65536 ∧ body = Config.spdmAnswer request [s.certOf 0, s.certOf 1, s.certOf 2] s.measurements :=
  ⟨up, [], _, by repeat' first | exact canonB_ok (by decide +kernel) | decide +kernel | exact reachesB_ok (by decide +kernel) | exact settledB_ok (by decide +kernel) | exact Or.inl ⟨by decide +kernel, reachesH_ok (by decide +kernel)⟩ | refine And.intro ?_ ?_ | rfl | (intro _ h; cases h; done) | (intro _ _ h; cases h; done) | (intro _ _ _ h; cases h; done) | exact noneWaits_ok rfl | (unfold wellFormed; decide +kernel) | exact ⟨0, by decide +kernel⟩ | exact ⟨1, by decide +kernel⟩ | exact Or.inl ⟨_, rfl⟩ | exact Or.inl (by decide +kernel) | exact Or.inr (by decide +kernel) | constructor⟩

theorem hyps_mailboxRefusals :
    (∃ (s : State) (e : Instr) (op : Nat) (c : MbCmd), mailRow e = some (op, c) ∧ sends op c s ∧ s.opAbsent op c.payload = true) ∧
    (∃ (s : State) (e : Instr) (op : Nat) (c : MbCmd), mailRow e = some (op, c) ∧ sends op c s ∧ s.opAbsent op c.payload = false ∧ natBit (opStates op) s.dev.code = false) ∧
    (∃ (s : State) (e : Instr) (op : Nat) (c : MbCmd), mailRow e = some (op, c) ∧ sends op c s ∧ s.opAbsent op c.payload = false ∧ natBit (opStates op) s.dev.code = true ∧ ((c.m = 8 ∧ opSideband op = false) ∨ s.opArgs op c.payload = false)) ∧
    (∃ (s : State) (e : Instr) (op : Nat) (c : MbCmd), mailRow e = some (op, c) ∧ rings c s ∧ ((s.mb c.m).phase = .idle ∨ (s.mb c.m).phase = .done) ∧ (2 ≤ c.flags.toNat ∨ c.reserved ≠ 0 ∨ 4080 < c.length.toNat)) ∧
    (∃ (s : State) (c : MbCmd) (opcode : BitVec 16), opKnown opcode.toNat = false ∧ rings c s ∧ ((s.mb c.m).phase = .idle ∨ (s.mb c.m).phase = .done)) ∧
    (∃ (opcode : BitVec 16), opKnown opcode.toNat = true) ∧
    (∃ (s : State) (e : Instr) (op : Nat) (c : MbCmd), mailRow e = some (op, c) ∧ rings c s ∧ (s.mb c.m).phase = .running) ∧
    (∃ (s : State) (e : Instr) (op : Nat) (c : MbCmd), mailRow e = some (op, c) ∧ rings c s ∧ (s.mb c.m).phase = .offline) ∧
    (∃ (s : State) (e : Instr) (op : Nat) (c : MbCmd), mailRow e = some (op, c) ∧ rings c s ∧ ((s.mb c.m).phase = .idle ∨ (s.mb c.m).phase = .done) ∧ wellFormed c ∧ opState op = true ∧ s.stateMb ≠ none) ∧
    (∃ (s : State) (e : Instr) (op : Nat) (c : MbCmd), mailRow e = some (op, c) ∧ (s.power ≠ .on ∨ 9 ≤ c.m ∨ (c.m = 8 ∧ s.locked 37 = false) ∨ (c.m < 8 ∧ (s.host.rate = 0 ∨ s.locked 25 = false)))) := by
  refine ⟨⟨{ up with nv := { Nv.init with variant := .yd1e }, cairn := { Cairn.init with registered := true, target0 := flashBase } }, .cairnTake (cmd_ []), 0x71, cmd_ [], ?_⟩,
    ⟨up, .devConfig (cmd_ []), 0x12, cmd_ [], ?_⟩,
    ⟨up, .capRead (cmd_ []), 3, cmd_ [], ?_⟩,
    ⟨up, .devInfo { cmd_ [] with flags := 2 }, 1, { cmd_ [] with flags := 2 }, ?_⟩,
    ⟨up, cmd_ [], 0, ?_⟩,
    ⟨1, ?_⟩,
    ⟨{ up with mbs := [(0, { Mailbox.init with phase := .running })] }, .devInfo (cmd_ []), 1, cmd_ [], ?_⟩,
    ⟨{ up with mbs := [] }, .devInfo (cmd_ []), 1, cmd_ [], ?_⟩,
    ⟨{ up with stateMb := some 1 }, .devRun (cmd_ []), 0x10, cmd_ [], ?_⟩,
    ⟨off, .devInfo (cmd_ []), 1, cmd_ [], ?_⟩⟩ <;>
  repeat' first | exact canonB_ok (by decide +kernel) | decide +kernel | exact reachesB_ok (by decide +kernel) | exact settledB_ok (by decide +kernel) | exact Or.inl ⟨by decide +kernel, reachesH_ok (by decide +kernel)⟩ | refine And.intro ?_ ?_ | rfl | (intro _ h; cases h; done) | (intro _ _ h; cases h; done) | (intro _ _ _ h; cases h; done) | exact noneWaits_ok rfl | (unfold wellFormed; decide +kernel) | exact ⟨0, by decide +kernel⟩ | exact ⟨1, by decide +kernel⟩ | exact Or.inl ⟨_, rfl⟩ | exact Or.inl (by decide +kernel) | exact Or.inr (by decide +kernel) | constructor

theorem hyps_mailboxReports :
    (∃ (s : State) (c : MbCmd), passes 0x01 c s) ∧
    (∃ (s : State) (c : MbCmd), passes 0x02 c s) ∧
    (∃ (s : State) (c : MbCmd), passes 0x03 c s) ∧
    (∃ (s : State) (c : MbCmd), passes 0x20 c s) ∧
    (∃ (s : State) (c : MbCmd), passes 0x30 c s) ∧
    (∃ (s : State) (c : MbCmd), passes 0x31 c s ∧ ((∀ r, r ∈ s.heldRecords → r.number < numAt c.payload 0 8))) ∧
    (∃ (s : State) (c : MbCmd), passes 0x40 c s) ∧
    (∃ (s : State) (c : MbCmd), passes 0x50 c s) ∧
    (∃ (s : State) (c : MbCmd), passes 0x60 c s ∧ s.sec.attReady = true ∧ s.sec.attUsed < 65536) ∧
    (∃ (s : State) (c : MbCmd), passes 0x60 c s ∧ (s.sec.attReady = false ∨ 65536 ≤ s.sec.attUsed)) ∧
    (∃ (s : State) (c : MbCmd), passes 0x61 c s ∧ numAt c.payload 0 4 = 2 ∧ s.sec.attReady = false) ∧
    (∃ (s : State) (c : MbCmd), passes 0x73 c s) := by
  refine ⟨⟨up, cmd_ [], ?_⟩,
    ⟨up, cmd_ [], ?_⟩,
    ⟨up, cmd_ (leBytes 4 0 ++ leBytes 4 1020), ?_⟩,
    ⟨up, cmd_ [], ?_⟩,
    ⟨up, cmd_ [], ?_⟩,
    ⟨up, cmd_ (leBytes 8 0 ++ leBytes 4 63 ++ leBytes 4 0), ?_⟩,
    ⟨up, cmd_ (leBytes 4 6 ++ leBytes 4 1018), ?_⟩,
    ⟨up, cmd_ [], ?_⟩,
    ⟨up, cmd_ (List.replicate 32 0), ?_⟩,
    ⟨{ up with sec := Sec.init }, cmd_ (List.replicate 32 0), ?_⟩,
    ⟨{ up with sec := Sec.init }, cmd_ (leBytes 4 2 ++ leBytes 4 0), ?_⟩,
    ⟨up, cmd_ [], ?_⟩⟩ <;>
  repeat' first | exact canonB_ok (by decide +kernel) | decide +kernel | exact reachesB_ok (by decide +kernel) | exact settledB_ok (by decide +kernel) | exact Or.inl ⟨by decide +kernel, reachesH_ok (by decide +kernel)⟩ | refine And.intro ?_ ?_ | rfl | (intro _ h; cases h; done) | (intro _ _ h; cases h; done) | (intro _ _ _ h; cases h; done) | exact noneWaits_ok rfl | (unfold wellFormed; decide +kernel) | exact ⟨0, by decide +kernel⟩ | exact ⟨1, by decide +kernel⟩ | exact Or.inl ⟨_, rfl⟩ | exact Or.inl (by decide +kernel) | exact Or.inr (by decide +kernel) | constructor
theorem hyps_mailboxReports_6 : ∃ (s : State) (c : MbCmd) (r : LogRec), passes 0x31 c s ∧ numAt c.payload 8 4 = 1 ∧ s.heldRecords.find? (fun x => x.number == numAt c.payload 0 8) = some r :=
  ⟨{ up with log := { Log.init with ring := [⟨0, 0, 0, 0, 0, 0, 0, .ok, [], []⟩] } }, cmd_ (leBytes 8 0 ++ leBytes 4 1 ++ leBytes 4 0), _, by repeat' first | exact canonB_ok (by decide +kernel) | decide +kernel | exact reachesB_ok (by decide +kernel) | exact settledB_ok (by decide +kernel) | exact Or.inl ⟨by decide +kernel, reachesH_ok (by decide +kernel)⟩ | refine And.intro ?_ ?_ | rfl | (intro _ h; cases h; done) | (intro _ _ h; cases h; done) | (intro _ _ _ h; cases h; done) | exact noneWaits_ok rfl | (unfold wellFormed; decide +kernel) | exact ⟨0, by decide +kernel⟩ | exact ⟨1, by decide +kernel⟩ | exact Or.inl ⟨_, rfl⟩ | exact Or.inl (by decide +kernel) | exact Or.inr (by decide +kernel) | constructor⟩
theorem hyps_mailboxReports_12 : ∃ (s : State) (c : MbCmd) (cert : List Byte), passes 0x61 c s ∧ cert = s.certOf (numAt c.payload 0 4) ∧ (numAt c.payload 0 4 ≠ 2 ∨ s.sec.attReady = true) :=
  ⟨up, cmd_ (leBytes 4 1 ++ leBytes 4 0), _, by repeat' first | exact canonB_ok (by decide +kernel) | decide +kernel | exact reachesB_ok (by decide +kernel) | exact settledB_ok (by decide +kernel) | exact Or.inl ⟨by decide +kernel, reachesH_ok (by decide +kernel)⟩ | refine And.intro ?_ ?_ | rfl | (intro _ h; cases h; done) | (intro _ _ h; cases h; done) | (intro _ _ _ h; cases h; done) | exact noneWaits_ok rfl | (unfold wellFormed; decide +kernel) | exact ⟨0, by decide +kernel⟩ | exact ⟨1, by decide +kernel⟩ | exact Or.inl ⟨_, rfl⟩ | exact Or.inl (by decide +kernel) | exact Or.inr (by decide +kernel) | constructor⟩

theorem hyps_deviceStates :
    (∃ (s : State) (c : MbCmd), passes 0x10 c s) ∧
    (∃ (s : State) (c : MbCmd), passes 0x12 c s) ∧
    (∃ (s : State) (c : MbCmd), passes 0x11 c s ∧ s.dev = .running ∧ numAt c.payload 0 4 = 0 ∧ ((∀ n e, n < 48 → e ∈ (s.dune n).wcb → ∀ b, b ∈ e.bytes → stackOf b.1 = n))) ∧
    (∃ (s : State) (c : MbCmd), passes 0x11 c s ∧ s.dev = .quiescing ∧ numAt c.payload 0 4 = 0) ∧
    (∃ (s : State), s.power = .on ∧ s.dev = .quiescing ∧ ((∀ e, e ∈ s.rings → e.2.live = [] ∧ e.2.reads = [])) ∧ ((∀ e, e ∈ s.wakes → e.2.jobs = [])) ∧ ((∀ e, e ∈ s.tier.tensors → e.2.state ∉ [TensorState.copyIn, .copyOut, .recompute])) ∧ s.lowp.busy = false ∧ s.cairn.phase = .idle ∧ ((∀ e, e ∈ s.dunes → e.2.wcb = []))) ∧
    (∃ (s : State), (s.power ≠ .on ∨ s.dev ≠ .quiescing ∨ (∃ e, e ∈ s.rings ∧ (e.2.live ≠ [] ∨ e.2.reads ≠ [])) ∨ (∃ e, e ∈ s.wakes ∧ e.2.jobs ≠ []) ∨ (∃ e, e ∈ s.tier.tensors ∧ e.2.state ∈ [TensorState.copyIn, .copyOut, .recompute]) ∨ s.lowp.busy = true ∨ s.cairn.phase ≠ .idle ∨ (∃ e, e ∈ s.dunes ∧ e.2.wcb ≠ []))) ∧
    (∃ (s : State) (c : MbCmd), passes 0x13 c s ∧ s.dev ≠ .starting ∧ s.start.delayed = none) ∧
    (∃ (s : State) (c : MbCmd), passes 0x13 c s ∧ s.dev = .starting) := by
  refine ⟨⟨in_ .ready, cmd_ [], ?_⟩,
    ⟨in_ .quiesced, cmd_ [], ?_⟩,
    ⟨up, cmd_ (leBytes 4 0), ?_⟩,
    ⟨in_ .quiescing, cmd_ (leBytes 4 0), ?_⟩,
    ⟨in_ .quiescing, ?_⟩,
    ⟨up, ?_⟩,
    ⟨in_ .ready, cmd_ (leBytes 4 0), ?_⟩,
    ⟨{ up with dev := .starting, start := { up.start with step := 9 } }, cmd_ (leBytes 4 1), ?_⟩⟩ <;>
  repeat' first | exact canonB_ok (by decide +kernel) | decide +kernel | exact reachesB_ok (by decide +kernel) | exact settledB_ok (by decide +kernel) | exact Or.inl ⟨by decide +kernel, reachesH_ok (by decide +kernel)⟩ | refine And.intro ?_ ?_ | rfl | (intro _ h; cases h; done) | (intro _ _ h; cases h; done) | (intro _ _ _ h; cases h; done) | exact noneWaits_ok rfl | (unfold wellFormed; decide +kernel) | exact ⟨0, by decide +kernel⟩ | exact ⟨1, by decide +kernel⟩ | exact Or.inl ⟨_, rfl⟩ | exact Or.inl (by decide +kernel) | exact Or.inr (by decide +kernel) | constructor
theorem hyps_deviceStates_5 : ∃ (s : State) (c : MbCmd) (d : Nat) (id : Nat), passes 0x11 c s ∧ s.dev = .quiescing ∧ numAt c.payload 0 4 = 1 ∧ plainTask id s ∧ (s.crew d).queue = [id] ∧ ((∀ j, j ≠ d → (s.crew j).queue = [])) ∧ (s.task id).state = .queued ∧ (s.task id).home = d ∧ (s.task id).scull = none :=
  ⟨{ queued_ copy with dev := .quiescing }, cmd_ (leBytes 4 1), 0, 0, by refine ⟨⟨⟨⟨⟨canonB_ok (by decide +kernel), by decide +kernel⟩, Or.inl ⟨by decide +kernel, reachesH_ok (by decide +kernel)⟩⟩, by decide +kernel, by unfold wellFormed; decide +kernel, by decide +kernel⟩, by decide +kernel⟩, by decide +kernel, by decide +kernel, ⟨settledB_ok (by decide +kernel), by decide +kernel⟩, by decide +kernel, fun j hj => ?_, by decide +kernel, by decide +kernel, by decide +kernel⟩; have e : State.crew { queued_ copy with dev := .quiescing } j = Crew.init := one_key hj; rw [e]; rfl⟩

theorem hyps_mailboxStores :
    (∃ (s : State) (c : MbCmd) (v : Nat), passes 0x21 c s ∧ v = numAt c.payload 0 4) ∧
    (∃ (s : State) (c : MbCmd), passes 0x21 c s ∧ (s.guard 1).pending = none) ∧
    (∃ (s : State) (c : MbCmd) (o : Nat) (n : Nat), passes 0x51 c s ∧ o = numAt c.payload 0 4 ∧ n = numAt c.payload 4 4) ∧
    (∃ (s : State) (c : MbCmd) (goal : Nat), passes 0x62 c s ∧ goal = numAt c.payload 0 1 ∧ (numAt c.payload 2 2 = 0 ∨ s.tokenOk goal (c.payload.drop 8) = true) ∧ s.start.delayed = none) ∧
    (∃ (s : State) (c : MbCmd), passes 0x62 c s ∧ numAt c.payload 2 2 ≠ 0 ∧ s.tokenOk (numAt c.payload 0 1) (c.payload.drop 8) = false) := by
  refine ⟨⟨up, cmd_ (leBytes 4 6000), 6000, ?_⟩,
    ⟨up, cmd_ (leBytes 4 20000), ?_⟩,
    ⟨up, cmd_ (leBytes 4 0x1FFFFC ++ leBytes 4 4 ++ [1, 2, 3, 4]), 0x1FFFFC, 4, ?_⟩,
    ⟨in_ .ready, cmd_ ([5, 0] ++ leBytes 2 0 ++ leBytes 4 0), 5, ?_⟩,
    ⟨in_ .ready, cmd_ ([3, 0] ++ leBytes 2 2852 ++ leBytes 4 0 ++ List.replicate 2852 0), ?_⟩⟩ <;>
  repeat' first | exact canonB_ok (by decide +kernel) | decide +kernel | exact reachesB_ok (by decide +kernel) | exact settledB_ok (by decide +kernel) | exact Or.inl ⟨by decide +kernel, reachesH_ok (by decide +kernel)⟩ | refine And.intro ?_ ?_ | rfl | (intro _ h; cases h; done) | (intro _ _ h; cases h; done) | (intro _ _ _ h; cases h; done) | exact noneWaits_ok rfl | (unfold wellFormed; decide +kernel) | exact ⟨0, by decide +kernel⟩ | exact ⟨1, by decide +kernel⟩ | exact Or.inl ⟨_, rfl⟩ | exact Or.inl (by decide +kernel) | exact Or.inr (by decide +kernel) | constructor
theorem hyps_mailboxStores_4 : ∃ (s : State) (c : MbCmd) (img : List Byte), passes 0x52 c s ∧ img = s.nv.staged.take (numAt c.payload 0 4) ∧ s.start.delayed = none :=
  ⟨in_ .ready, cmd_ (leBytes 4 0x1800), _, by repeat' first | exact canonB_ok (by decide +kernel) | decide +kernel | exact reachesB_ok (by decide +kernel) | exact settledB_ok (by decide +kernel) | exact Or.inl ⟨by decide +kernel, reachesH_ok (by decide +kernel)⟩ | refine And.intro ?_ ?_ | rfl | (intro _ h; cases h; done) | (intro _ _ h; cases h; done) | (intro _ _ _ h; cases h; done) | exact noneWaits_ok rfl | (unfold wellFormed; decide +kernel) | exact ⟨0, by decide +kernel⟩ | exact ⟨1, by decide +kernel⟩ | exact Or.inl ⟨_, rfl⟩ | exact Or.inl (by decide +kernel) | exact Or.inr (by decide +kernel) | constructor⟩
theorem hyps_mailboxStores_5 : ∃ (s : State) (c : MbCmd) (img : List Byte), passes 0x52 c s ∧ img = s.nv.staged.take (numAt c.payload 0 4) ∧ s.imageOk img = false :=
  ⟨in_ .ready, cmd_ (leBytes 4 0), _, by repeat' first | exact canonB_ok (by decide +kernel) | decide +kernel | exact reachesB_ok (by decide +kernel) | exact settledB_ok (by decide +kernel) | exact Or.inl ⟨by decide +kernel, reachesH_ok (by decide +kernel)⟩ | refine And.intro ?_ ?_ | rfl | (intro _ h; cases h; done) | (intro _ _ h; cases h; done) | (intro _ _ _ h; cases h; done) | exact noneWaits_ok rfl | (unfold wellFormed; decide +kernel) | exact ⟨0, by decide +kernel⟩ | exact ⟨1, by decide +kernel⟩ | exact Or.inl ⟨_, rfl⟩ | exact Or.inl (by decide +kernel) | exact Or.inr (by decide +kernel) | constructor⟩

theorem hyps_cairnCommands :
    (∃ (s : State) (c : MbCmd), passes 0x70 c s ∧ s.cairn.phase = .idle ∧ s.cairn.lossWait = false) ∧
    (∃ (s : State) (c : MbCmd), (s.cairn.phase ≠ .idle ∨ s.cairn.lossWait = true) ∧ passes 0x70 c s) ∧
    (∃ (s : State) (c : MbCmd), (s.cairn.phase ≠ .idle ∨ s.cairn.lossWait = true) ∧ passes 0x71 c s) ∧
    (∃ (s : State) (c : MbCmd), passes 0x71 c s ∧ (s.cairn.replay = 1 ∨ s.cairn.replay = 3)) ∧
    (∃ (s : State) (c : MbCmd) (g : Nat) (a : Nat) (id : Word), passes 0x71 c s ∧ s.cairn.phase = .idle ∧ s.cairn.lossWait = false ∧ s.cairn.replay ≠ 1 ∧ s.cairn.replay ≠ 3 ∧ g = (if s.cairn.newestV then 1 - s.cairn.newestT else 0) ∧ id = (if s.cairn.newestV then s.cairn.newestId + 1 else 1) ∧ a = s.cairn.target g ∧ a % 4096 = 0 ∧ (regionOf a = some .host ∨ regionOf a = some .flash) ∧ s.targetOpen a = true) ∧
    (∃ (s : State) (c : MbCmd), passes 0x71 c s ∧ s.cairn.phase = .idle ∧ s.cairn.lossWait = false ∧ s.cairn.replay ≠ 1 ∧ s.cairn.replay ≠ 3 ∧ s.targetOpen (s.cairn.target (if s.cairn.newestV then 1 - s.cairn.newestT else 0)) = false) ∧
    (∃ (s : State) (c : MbCmd), passes 0x72 c s) := by
  refine ⟨⟨{ up0 with dev := .ready }, cmd_ cairnRec, ?_⟩,
    ⟨{ up0 with dev := .ready, cairn := { Cairn.init with lossWait := true } }, cmd_ cairnRec, ?_⟩,
    ⟨cairnS .copying, cmd_ (leBytes 8 0x3000 ++ leBytes 8 0), ?_⟩,
    ⟨{ up with cairn := { cairn_ with replay := 3 } }, cmd_ (leBytes 8 0x3000 ++ leBytes 8 0), ?_⟩,
    ⟨cairnS .idle, cmd_ (leBytes 8 0x3000 ++ leBytes 8 0), 0, hostBase, 1, ?_⟩,
    ⟨{ up with cairn := { cairn_ with target0 := flashBase }, islands := [(34, 1)] }, cmd_ (leBytes 8 0x3000 ++ leBytes 8 0), ?_⟩,
    ⟨savedS, cmd_ (leBytes 4 0 ++ leBytes 4 0 ++ leBytes 8 0x3000 ++ leBytes 8 0), ?_⟩⟩ <;>
  repeat' first | exact canonB_ok (by decide +kernel) | decide +kernel | exact reachesB_ok (by decide +kernel) | exact settledB_ok (by decide +kernel) | exact Or.inl ⟨by decide +kernel, reachesH_ok (by decide +kernel)⟩ | refine And.intro ?_ ?_ | rfl | (intro _ h; cases h; done) | (intro _ _ h; cases h; done) | (intro _ _ _ h; cases h; done) | exact noneWaits_ok rfl | (unfold wellFormed; decide +kernel) | exact ⟨0, by decide +kernel⟩ | exact ⟨1, by decide +kernel⟩ | exact Or.inl ⟨_, rfl⟩ | exact Or.inl (by decide +kernel) | exact Or.inr (by decide +kernel) | constructor

theorem hyps_cairnTakes :
    (∃ (s : State), canonical s ∧ s.power = .on ∧ s.cairn.phase = .stopping ∧ s.cairn.grantedAt + s.fld 0x02090000 0 16 + 1 ≤ s.etc) ∧
    (∃ (s : State), (s.power ≠ .on ∨ s.cairn.phase ≠ .stopping ∨ s.etc < s.cairn.grantedAt + s.fld 0x02090000 0 16 + 1)) ∧
    (∃ (s : State), canonical s ∧ s.power = .on ∧ s.cairn.phase = .copying ∧ cairnSane hostBase s ∧ ((∀ e, e ∈ s.cairn.entries → s.stackRangeBad e.1 e.2.1 = false ∧ s.stackServes e.2.2 = true))) ∧
    (∃ (s : State), canonical s ∧ settled s ∧ s.power = .on ∧ s.cairn.phase = .copying ∧ ((∃ e, e ∈ s.cairn.entries ∧ (s.stackRangeBad e.1 e.2.1 = true ∨ s.stackServes e.2.2 = false)))) ∧
    (∃ (s : State) (ok : _), canonical s ∧ settled s ∧ s.power = .on ∧ s.cairn.phase = .draining ∧ (ok = false ∨ s.targetOpen (s.cairn.target s.cairn.takeTarget) = false ∨ (∃ e, e ∈ s.cairn.entries ∧ s.stackRangeBad e.2.2 e.2.1 = true))) ∧
    (∃ (s : State), canonical s ∧ settled s ∧ s.power = .on ∧ s.cairn.lossWait = true ∧ (s.cairn.ctr = 0xFFFF ∨ reached (s.ctr s.cairn.ctr) s.cairn.ctrVal = true) ∧ (s.readBad s.cairn.lossDa 4 = true ∨ (s.cairn.drained = true ∧ s.targetOpen (s.cairn.target s.cairn.takeTarget) = false))) ∧
    (∃ (s : State) (g : Nat), canonical s ∧ s.power = .on ∧ s.cairn.phase = .draining ∧ g = s.cairn.target s.cairn.takeTarget ∧ s.targetOpen g = true ∧ cairnSane g s ∧ ((∀ e, e ∈ s.cairn.entries → s.stackRangeBad e.2.2 e.2.1 = false))) ∧
    (∃ (s : State), canonical s ∧ s.power = .on ∧ s.cairn.lossWait = true ∧ (s.cairn.ctr = 0xFFFF ∨ reached (s.ctr s.cairn.ctr) s.cairn.ctrVal = true) ∧ s.readBad s.cairn.lossDa 4 = false ∧ cairnSane (s.cairn.target s.cairn.takeTarget) s ∧ ((s.cairn.drained = true → s.targetOpen (s.cairn.target s.cairn.takeTarget) = true))) ∧
    (∃ (s : State), (s.power ≠ .on ∨ s.cairn.phase ≠ .copying)) ∧
    (∃ (s : State), (s.power ≠ .on ∨ s.cairn.phase ≠ .copying) ∧ (s.power ≠ .on ∨ s.cairn.phase ≠ .draining)) ∧
    (∃ (s : State), (s.power ≠ .on ∨ s.cairn.lossWait = false ∨ (s.cairn.ctr ≠ 0xFFFF ∧ reached (s.ctr s.cairn.ctr) s.cairn.ctrVal = false))) := by
  refine ⟨⟨cairnS .stopping, ?_⟩,
    ⟨up, ?_⟩,
    ⟨cairnS .copying, ?_⟩,
    ⟨{ cairnS .copying with dunes := [(0, { Stack.init with state := .stopped })] }, ?_⟩,
    ⟨cairnS .draining, false, ?_⟩,
    ⟨{ up with cairn := { cairn_ with lossWait := true, ctr := 0xFFFF, lossDa := 0x3000 }, poison := [0x600] }, ?_⟩,
    ⟨cairnS .draining, hostBase, ?_⟩,
    ⟨{ up with cairn := { cairn_ with lossWait := true, ctr := 0xFFFF, lossDa := 0x3000 } }, ?_⟩,
    ⟨up, ?_⟩,
    ⟨up, ?_⟩,
    ⟨up, ?_⟩⟩ <;>
  repeat' first | exact canonB_ok (by decide +kernel) | decide +kernel | exact reachesB_ok (by decide +kernel) | exact settledB_ok (by decide +kernel) | exact Or.inl ⟨by decide +kernel, reachesH_ok (by decide +kernel)⟩ | refine And.intro ?_ ?_ | rfl | (intro _ h; cases h; done) | (intro _ _ h; cases h; done) | (intro _ _ _ h; cases h; done) | exact noneWaits_ok rfl | (unfold wellFormed; decide +kernel) | exact ⟨0, by decide +kernel⟩ | exact ⟨1, by decide +kernel⟩ | exact Or.inl ⟨_, rfl⟩ | exact Or.inl (by decide +kernel) | exact Or.inr (by decide +kernel) | constructor
theorem hyps_cairnTakes_3 : ∃ (s : State), canonical s ∧ s.power = .on ∧ s.cairn.phase = .stopping ∧ ((∀ id, (s.task id).state = .running ∨ (∃ b, (s.task id).state = .ended b) → ¬ takeRuns id s)) :=
  ⟨cairnS .stopping, by exact ⟨canonB_ok (by decide +kernel), by decide +kernel, by decide +kernel, fun id h => by rcases h with h | ⟨b, h⟩ <;> cases h⟩⟩
theorem hyps_cairnTakes_4 : ∃ (s : State) (id : Nat), (s.power ≠ .on ∨ s.cairn.phase ≠ .stopping ∨ (canonical s ∧ ((s.task id).state = .running ∨ ∃ b, (s.task id).state = .ended b) ∧ takeRuns id s)) :=
  ⟨up, 0, by exact Or.inr (Or.inl (by decide +kernel))⟩

theorem hyps_cairnRestores :
    (∃ (s : State) (g : Nat) (da : Nat) (m : Nat), canonical s ∧ s.power = .on ∧ s.cairn.restoring = some g ∧ da = s.cairn.target g ∧ cairnSane da s ∧ s.cairn.restoreMb = m ∧ s.stateMb = some m ∧ (s.mb m).phase = .running ∧ s.mbQueue = [] ∧ s.readBad da (targetBytes s.cairn.entries) = false ∧ ((∀ e, e ∈ s.cairn.entries → s.stackServes e.1 = true))) ∧
    (∃ (s : State) (g : Nat) (m : Nat) (res : Ending), canonical s ∧ s.power = .on ∧ s.cairn.restoring = some g ∧ s.cairn.restoreMb = m ∧ s.stateMb = some m ∧ (s.mb m).phase = .running ∧ s.mbQueue = [] ∧ (res ≠ .ok ∨ (∃ e, e ∈ s.cairn.entries ∧ s.stackServes e.1 = false))) ∧
    (∃ (s : State), (s.power ≠ .on ∨ s.cairn.restoring = none)) ∧
    (∃ (s : State) (l : Word) (v : Nat), canonical s ∧ s.power = .on ∧ s.cairn.replay = 1 ∧ (s.cairn.replayCtr = 0xFFFF ∨ reached (s.ctr s.cairn.replayCtr) s.cairn.replayVal = true) ∧ l = w32 (s.loadNat s.cairn.replayDa 4) ∧ ((v = 3 ∧ (s.readBad s.cairn.replayDa 4 = true ∨ fp32Units l = none ∨ fp32Units s.cairn.recorded = none)) ∨ (∃ a b u, fp32Units l = some a ∧ fp32Units s.cairn.recorded = some b ∧ fp32Units s.cairn.tolerance = some u ∧ s.readBad s.cairn.replayDa 4 = false ∧ v = if (u = 0 ∧ 1000 * (a - b).natAbs ≤ b.natAbs) ∨ (u ≠ 0 ∧ (a - b).natAbs * 2 ^ 149 ≤ u.natAbs * b.natAbs) then 2 else 3))) ∧
    (∃ (s : State), (s.power ≠ .on ∨ s.cairn.replay ≠ 1 ∨ (s.cairn.replayCtr ≠ 0xFFFF ∧ reached (s.ctr s.cairn.replayCtr) s.cairn.replayVal = false))) := by
  refine ⟨⟨{ up with stateMb := some 0, mbs := [(0, { Mailbox.init with phase := .running })], cairn := { cairn_ with restoring := some 0 } }, 0, hostBase, 0, ?_⟩,
    ⟨{ up with stateMb := some 0, mbs := [(0, { Mailbox.init with phase := .running })], cairn := { cairn_ with restoring := some 0 } }, 0, 0, .aborted, ?_⟩,
    ⟨up, ?_⟩,
    ⟨{ up with cairn := { cairn_ with replay := 1, replayCtr := 0xFFFF, recorded := 0x7F800000 } }, 0, 3, ?_⟩,
    ⟨up, ?_⟩⟩ <;>
  repeat' first | exact canonB_ok (by decide +kernel) | decide +kernel | exact reachesB_ok (by decide +kernel) | exact settledB_ok (by decide +kernel) | exact Or.inl ⟨by decide +kernel, reachesH_ok (by decide +kernel)⟩ | refine And.intro ?_ ?_ | rfl | (intro _ h; cases h; done) | (intro _ _ h; cases h; done) | (intro _ _ _ h; cases h; done) | exact noneWaits_ok rfl | (unfold wellFormed; decide +kernel) | exact ⟨0, by decide +kernel⟩ | exact ⟨1, by decide +kernel⟩ | exact Or.inl ⟨_, rfl⟩ | exact Or.inl (by decide +kernel) | exact Or.inr (by decide +kernel) | constructor

theorem hyps_guardMismatches :
    (∃ (s : State) (r : Nat) (req : Requester), canonical s ∧ r < 8 ∧ reaches s req (guardOff r) ∧ (s.guard r).pending = none) ∧
    (∃ (s : State) (r : Nat) (a : Nat) (w : Word) (req : Requester) (armer : Requester), canonical s ∧ r < 8 ∧ reaches s req (guardOff r) ∧ (s.guard r).pending = some (w, armer, a)) ∧
    (∃ (s : State) (r : Nat) (a : Nat) (w : Word) (armer : Requester), canonical s ∧ s.power = .on ∧ (s.guard r).pending = some (w, armer, a) ∧ a + 101 ≤ s.etc) ∧
    (∃ (s : State) (e : Instr) (r : Nat) (v : Word) (req : Requester), guardRow e = some (r, v, req) ∧ canonical s ∧ reaches s req (twinOff r) ∧ (s.guard r).pending = none) ∧
    (∃ (s : State) (e : Instr) (r : Nat) (v : Word) (req : Requester) (w : _) (q : _) (a : _), guardRow e = some (r, v, req) ∧ canonical s ∧ reaches s req (twinOff r) ∧ (s.guard r).pending = some (w, q, a) ∧ v ≠ ~~~ w) ∧
    (∃ (r : Nat), 8 ≤ r) := by
  refine ⟨⟨up, 7, .coxswain, ?_⟩,
    ⟨gS 0 1 .coxswain, 0, 0, 1, .coxswain, .coxswain, ?_⟩,
    ⟨gS 7 1 .coxswain, 7, 0, 1, .coxswain, ?_⟩,
    ⟨up, .globalGFuse 5 .coxswain, 7, 5, .coxswain, ?_⟩,
    ⟨gS 0 1 .coxswain, .globalGReset 5 .coxswain, 0, 5, .coxswain, 1, .coxswain, 0, ?_⟩,
    ⟨8, ?_⟩⟩ <;>
  repeat' first | exact canonB_ok (by decide +kernel) | decide +kernel | exact reachesB_ok (by decide +kernel) | exact settledB_ok (by decide +kernel) | exact Or.inl ⟨by decide +kernel, reachesH_ok (by decide +kernel)⟩ | refine And.intro ?_ ?_ | rfl | (intro _ h; cases h; done) | (intro _ _ h; cases h; done) | (intro _ _ _ h; cases h; done) | exact noneWaits_ok rfl | (unfold wellFormed; decide +kernel) | exact ⟨0, by decide +kernel⟩ | exact ⟨1, by decide +kernel⟩ | exact Or.inl ⟨_, rfl⟩ | exact Or.inl (by decide +kernel) | exact Or.inr (by decide +kernel) | constructor
theorem hyps_guardMismatches_4 : ∃ (s : State) (r : Nat), (s.power ≠ .on ∨ (s.guard r).pending = none ∨ (∃ w q a, (s.guard r).pending = some (w, q, a) ∧ s.etc < a + 101)) :=
  ⟨up, 7, by exact Or.inr (Or.inl (by decide +kernel))⟩

theorem hyps_guardCommits :
    (∃ (s : State) (e : Instr) (pv : Word) (armer : Requester) (req : Requester), matching e 0 pv armer req s ∧ lawful 0 pv armer req s ∧ s.start.delayed = none) ∧
    (∃ (s : State) (e : Instr) (pv : Word) (armer : Requester) (req : Requester), matching e 1 pv armer req s ∧ lawful 1 pv armer req s) ∧
    (∃ (s : State) (e : Instr) (pv : Word) (armer : Requester) (req : Requester), matching e 2 pv armer req s ∧ lawful 2 pv armer req s) ∧
    (∃ (s : State) (e : Instr) (pv : Word) (armer : Requester) (req : Requester) (n : Nat) (c : Nat) (b : Nat) (w : Nat), matching e 3 pv armer req s ∧ lawful 3 pv armer req s ∧ n = bits pv 0 6 ∧ c = bits pv 6 7 ∧ b = bits pv 13 5 ∧ w = bits pv 18 14 ∧ (c, b, w) ∉ (s.dune n).remap) ∧
    (∃ (s : State) (e : Instr) (pv : Word) (armer : Requester) (req : Requester), matching e 4 pv armer req s ∧ lawful 4 pv armer req s) ∧
    (∃ (s : State) (e : Instr) (pv : Word) (armer : Requester) (req : Requester), matching e 5 pv armer req s ∧ lawful 5 pv armer req s ∧ noTasks s) ∧
    (∃ (s : State) (e : Instr) (pv : Word) (armer : Requester) (req : Requester), matching e 7 pv armer req s ∧ lawful 7 pv armer req s) := by
  refine ⟨⟨gS 0 1 .coxswain, .globalGReset (~~~ 1) .coxswain, 1, .coxswain, .coxswain, ?_⟩,
    ⟨gS 1 6000 .coxswain, .globalGPwrCap (~~~ 6000) .coxswain, 6000, .coxswain, .coxswain, ?_⟩,
    ⟨{ gS 2 0x35202A8 .coxswain with dev := .ready }, .globalGVlimit (~~~ 0x35202A8) .coxswain, 0x35202A8, .coxswain, .coxswain, ?_⟩,
    ⟨gS 3 47 .coxswain, .globalGRemapRow (~~~ 47) .coxswain, 47, .coxswain, .coxswain, 47, 0, 0, 0, ?_⟩,
    ⟨gS 4 47 .coxswain, .globalGRemapCh (~~~ 47) .coxswain, 47, .coxswain, .coxswain, ?_⟩,
    ⟨gS 5 1 .coxswain, .globalGPortDis (~~~ 1) .coxswain, 1, .coxswain, .coxswain, ?_⟩,
    ⟨{ gS 7 5 .coxswain with dev := .ready }, .globalGFuse (~~~ 5) .coxswain, 5, .coxswain, .coxswain, ?_⟩⟩ <;>
  repeat' first | exact canonB_ok (by decide +kernel) | decide +kernel | exact reachesB_ok (by decide +kernel) | exact settledB_ok (by decide +kernel) | exact Or.inl ⟨by decide +kernel, reachesH_ok (by decide +kernel)⟩ | refine And.intro ?_ ?_ | rfl | (intro _ h; cases h; done) | (intro _ _ h; cases h; done) | (intro _ _ _ h; cases h; done) | exact noneWaits_ok rfl | (unfold wellFormed; decide +kernel) | exact ⟨0, by decide +kernel⟩ | exact ⟨1, by decide +kernel⟩ | exact Or.inl ⟨_, rfl⟩ | exact Or.inl (by decide +kernel) | exact Or.inr (by decide +kernel) | constructor
theorem hyps_guardCommits_1 : ∃ (s : State) (e : Instr) (r : Nat) (pv : Word) (armer : Requester) (req : Requester) (st : Status), matching e r pv armer req s ∧ ((st = .authFailed ∧ ¬ (mayWrite r armer s ∧ mayWrite r req s)) ∨ (mayWrite r armer s ∧ mayWrite r req s ∧ ((st = .stateInvalid ∧ guardLegal r s.dev = false) ∨ (guardLegal r s.dev = true ∧ ((st = .unitAbsent ∧ s.guardAbsent r pv = true) ∨ (s.guardAbsent r pv = false ∧ st = .badArgument ∧ guardBad r pv = true)))))) :=
  ⟨gS 0 1 .powerController, .globalGReset (~~~ 1) .coxswain, 0, 1, .powerController, .coxswain, .authFailed, by exact ⟨⟨canonB_ok (by decide +kernel), rfl, reachesB_ok (by decide +kernel), ⟨0, by decide +kernel⟩⟩, Or.inl ⟨rfl, fun h => h.1.elim (fun e => by cases e) (fun ⟨_, e, _⟩ => by cases e)⟩⟩⟩

theorem hyps_strobesAndSnapshots :
    (∃ (s : State) (req : Requester), reaches s req 0x100) ∧
    (∃ (s : State) (req : Requester), Tab.wf 0 s.holding = true ∧ reaches s req 0x104) := by
  refine ⟨⟨up, .coxswain, ?_⟩,
    ⟨up, .coxswain, ?_⟩⟩ <;>
  repeat' first | exact canonB_ok (by decide +kernel) | decide +kernel | exact reachesB_ok (by decide +kernel) | exact settledB_ok (by decide +kernel) | exact Or.inl ⟨by decide +kernel, reachesH_ok (by decide +kernel)⟩ | refine And.intro ?_ ?_ | rfl | (intro _ h; cases h; done) | (intro _ _ h; cases h; done) | (intro _ _ _ h; cases h; done) | exact noneWaits_ok rfl | (unfold wellFormed; decide +kernel) | exact ⟨0, by decide +kernel⟩ | exact ⟨1, by decide +kernel⟩ | exact Or.inl ⟨_, rfl⟩ | exact Or.inl (by decide +kernel) | exact Or.inr (by decide +kernel) | constructor

theorem hyps_registerWrites :
    (∃ (s : State) (off : Nat) (v : Word) (req : Requester) (d : RegDef) (e : Instr), canonical s ∧ plainReg off d ∧ reaches s req off ∧ (e = .registerWrite off v 0xF req ∨ (e = .w1cClear off v req ∧ d.clearable ≠ 0)) ∧ accepts off d v s) ∧
    (∃ (s : State) (off : Nat) (v : Word) (req : Requester) (d : RegDef) (e : Instr), canonical s ∧ plainReg off d ∧ reaches s req off ∧ (e = .registerWrite off v 0xF req ∨ (e = .w1cClear off v req ∧ d.clearable ≠ 0)) ∧ s.namesFlash off v = true) ∧
    (∃ (s : State) (off : Nat) (v : Word) (req : Requester) (d : RegDef) (e : Instr), canonical s ∧ plainReg off d ∧ reaches s req off ∧ (e = .registerWrite off v 0xF req ∨ (e = .w1cClear off v req ∧ d.clearable ≠ 0)) ∧ s.namesFlash off v = false ∧ d.ready = true ∧ s.dev ≠ .ready) ∧
    (∃ (s : State) (off : Nat) (v : Word) (req : Requester) (d : RegDef) (e : Instr), canonical s ∧ plainReg off d ∧ reaches s req off ∧ (e = .registerWrite off v 0xF req ∨ (e = .w1cClear off v req ∧ d.clearable ≠ 0)) ∧ s.namesFlash off v = false ∧ (d.ready = false ∨ s.dev = .ready) ∧ s.rangeBad off (d.after (s.reg off) v) = true ∧ off ≠ 0x118) ∧
    (∃ (s : State) (off : Nat) (be : BitVec 4) (req : Requester), reaches s req off ∧ off < 0x04000000 ∧ ¬ (0x100000 ≤ off ∧ off < 0x120000) ∧ (be ≠ 0xF ∨ off % 4 ≠ 0 ∨ (0x20 ≤ off ∧ off < 0x100 ∧ regDef off = none))) ∧
    (∃ (off : Nat), 0x04000000 ≤ off) ∧
    (∃ (r : _), r < 8) ∧
    (∃ (v : Word) (req : Requester) (e : _) (r : _), guardRow e = some (r, v, req)) ∧
    (∃ (q : _), q < 512) ∧
    (∃ (v : Word) (p : _), p < 18 ∧ bits v 0 1 = 1) ∧
    (∃ (v : Word) (p : _), p < 18 ∧ bits v 0 1 = 0) ∧
    (∃ (v : Word), bits v 0 2 = 1) ∧
    (∃ (v : Word), bits v 0 2 = 2) := by
  refine ⟨⟨in_ .ready, 0x24C, 1, .coxswain, (regDef 0x24C).get (by decide +kernel), .registerWrite 0x24C 1 0xF .coxswain, ?_⟩,
    ⟨{ in_ .ready with nv := { Nv.init with variant := .yd1e } }, 0x02030004, 0x20000, .coxswain, (regDef 0x02030004).get (by decide +kernel), .registerWrite 0x02030004 0x20000 0xF .coxswain, ?_⟩,
    ⟨up, 0x24C, 1, .coxswain, (regDef 0x24C).get (by decide +kernel), .registerWrite 0x24C 1 0xF .coxswain, ?_⟩,
    ⟨in_ .ready, 0x0203001C, 0x800001, .coxswain, (regDef 0x0203001C).get (by decide +kernel), .registerWrite 0x0203001C 0x800001 0xF .coxswain, ?_⟩,
    ⟨up, 0x24C, 0x7, .coxswain, ?_⟩,
    ⟨0x04000000, ?_⟩,
    ⟨7, ?_⟩,
    ⟨5, .coxswain, .globalGFuse 5 .coxswain, 7, ?_⟩,
    ⟨511, ?_⟩,
    ⟨1, 17, ?_⟩,
    ⟨0, 17, ?_⟩,
    ⟨1, ?_⟩,
    ⟨2, ?_⟩⟩ <;>
  repeat' first | exact canonB_ok (by decide +kernel) | decide +kernel | exact reachesB_ok (by decide +kernel) | exact settledB_ok (by decide +kernel) | exact Or.inl ⟨by decide +kernel, reachesH_ok (by decide +kernel)⟩ | refine And.intro ?_ ?_ | rfl | (intro _ h; cases h; done) | (intro _ _ h; cases h; done) | (intro _ _ _ h; cases h; done) | exact noneWaits_ok rfl | (unfold wellFormed; decide +kernel) | exact ⟨0, by decide +kernel⟩ | exact ⟨1, by decide +kernel⟩ | exact Or.inl ⟨_, rfl⟩ | exact Or.inl (by decide +kernel) | exact Or.inr (by decide +kernel) | constructor
theorem hyps_registerWrites_6 : ∃ (s : State) (off : Nat) (v : Word) (req : Requester) (d : RegDef), canonical s ∧ (off = 0x02030030 ∨ off = 0x02030034) ∧ regDef off = some d ∧ reaches s req off ∧ accepts off d v s :=
  ⟨in_ .ready, 0x02030030, 1000, .coxswain, (regDef 0x02030030).get (by decide +kernel), by exact ⟨canonB_ok (by decide +kernel), Or.inl rfl, by decide +kernel, reachesB_ok (by decide +kernel), by decide +kernel, by decide +kernel, by decide +kernel⟩⟩
theorem hyps_registerWrites_8 : ∃ (off : Nat), ((∀ d, regDef off = some d → d.clearable = 0)) :=
  ⟨28, by exact fun d h => absurd h (by rw [show regDef 28 = none by decide +kernel]; simp)⟩

theorem hyps_aliasesAndTimeouts :
    (∃ (s : State) (off : Nat) (b : Nat) (v : Word) (req : Requester) (d : RegDef) (on : Bool), canonical s ∧ plainReg off d ∧ off < 0x40000 ∧ b < 32 ∧ reaches s req off ∧ on = decide (bits v 0 1 = 1) ∧ (d.bitAcc b = some .rw ∨ d.bitAcc b = some .rs) ∧ accepts off d (setBit (s.reg off &&& ~~~ d.clearable) b on) s) ∧
    (∃ (s : State) (off : Nat) (b : Nat) (v : Word) (req : Requester) (d : RegDef) (on : Bool), canonical s ∧ plainReg off d ∧ off < 0x40000 ∧ b < 32 ∧ reaches s req off ∧ on = decide (bits v 0 1 = 1) ∧ d.bitAcc b = some .w1c ∧ accepts off d (setBit (s.reg off &&& ~~~ d.clearable) b true) s ∧ on = true) ∧
    (∃ (s : State) (off : Nat) (b : Nat) (v : Word) (req : Requester) (d : RegDef) (on : Bool), canonical s ∧ plainReg off d ∧ off < 0x40000 ∧ b < 32 ∧ reaches s req off ∧ on = decide (bits v 0 1 = 1) ∧ ((d.bitAcc b = some .w1c ∧ on = false) ∨ d.bitAcc b = some .ro ∨ d.bitAcc b = none)) ∧
    (∃ (s : State) (off : Nat) (b : Nat) (r : Nat) (a : Nat) (w : Word) (req : Requester) (armer : Requester), canonical s ∧ guardAt off = some r ∧ b < 32 ∧ off % 4 = 0 ∧ reaches s req off ∧ (s.guard r).pending = some (w, armer, a)) ∧
    (∃ (s : State) (off : Nat) (b : Nat) (r : Nat) (req : Requester), canonical s ∧ guardAt off = some r ∧ b < 32 ∧ off % 4 = 0 ∧ reaches s req off ∧ (s.guard r).pending = none) ∧
    (∃ (off : Nat) (b : Nat), off < 0x40000 ∧ off % 4 = 0 ∧ b < 32) ∧
    (∃ (b : Nat) (v : Word), b < 32 ∧ bits v 0 1 = 1) ∧
    (∃ (b : Nat) (v : Word), b < 32 ∧ bits v 0 1 = 1 ∧ b < 20) ∧
    (∃ (off : Nat) (b : Nat), (0x40000 ≤ off ∨ off % 4 ≠ 0 ∨ 32 ≤ b)) ∧
    (∃ (s : State) (off : Nat) (req : Requester), s.power = .on ∧ ((∀ id, req = .host id → s.host.rate ≠ 0 ∧ s.locked 25 = true ∧ s.ideOpen = true)) ∧ s.absentAt off = false ∧ s.answers off = false) ∧
    (∃ (s : State) (off : Nat) (req : Requester), (s.power ≠ .on ∨ (reaches s req off) ∨ (s.absentAt off = true ∧ ∀ id, req = .host id → s.ideOpen = true))) := by
  refine ⟨⟨in_ .ready, 0x24C, 0, 1, .coxswain, (regDef 0x24C).get (by decide +kernel), true, ?_⟩,
    ⟨in_ .ready, 0x308, 0, 1, .coxswain, (regDef 0x308).get (by decide +kernel), true, ?_⟩,
    ⟨in_ .ready, 0x24C, 31, 1, .coxswain, (regDef 0x24C).get (by decide +kernel), true, ?_⟩,
    ⟨gS 7 1 .coxswain, 0xC01C, 31, 7, 0, 1, .coxswain, .coxswain, ?_⟩,
    ⟨up, 0x4000, 0, 0, .coxswain, ?_⟩,
    ⟨0x3FFFC, 31, ?_⟩,
    ⟨0, 1, ?_⟩,
    ⟨19, 1, ?_⟩,
    ⟨0x40000, 0, ?_⟩,
    ⟨{ up with dunes := [(0, { Stack.init with state := .failed })] }, 0x0300005C, .coxswain, ?_⟩,
    ⟨off, 0, .coxswain, ?_⟩⟩ <;>
  repeat' first | exact canonB_ok (by decide +kernel) | decide +kernel | exact reachesB_ok (by decide +kernel) | exact settledB_ok (by decide +kernel) | exact Or.inl ⟨by decide +kernel, reachesH_ok (by decide +kernel)⟩ | refine And.intro ?_ ?_ | rfl | (intro _ h; cases h; done) | (intro _ _ h; cases h; done) | (intro _ _ _ h; cases h; done) | exact noneWaits_ok rfl | (unfold wellFormed; decide +kernel) | exact ⟨0, by decide +kernel⟩ | exact ⟨1, by decide +kernel⟩ | exact Or.inl ⟨_, rfl⟩ | exact Or.inl (by decide +kernel) | exact Or.inr (by decide +kernel) | constructor

theorem hyps_powerControl :
    (∃ (s : State) (a : Nat), s.power = .on ∧ s.pwr.lowFlowAt = some a ∧ a + 1000001 ≤ s.etc ∧ s.pwr.offAt = none) ∧
    (∃ (s : State), (s.power ≠ .on ∨ s.pwr.lowFlowAt = none ∨ s.pwr.offAt ≠ none ∨ (∃ a, s.pwr.lowFlowAt = some a ∧ s.etc < a + 1000001))) ∧
    (∃ (s : State), s.power ≠ .on) := by
  refine ⟨⟨{ up with pwr := { Pwr.init with lowFlowAt := some 0 } }, 0, ?_⟩,
    ⟨up, ?_⟩,
    ⟨off, ?_⟩⟩ <;>
  repeat' first | exact canonB_ok (by decide +kernel) | decide +kernel | exact reachesB_ok (by decide +kernel) | exact settledB_ok (by decide +kernel) | exact Or.inl ⟨by decide +kernel, reachesH_ok (by decide +kernel)⟩ | refine And.intro ?_ ?_ | rfl | (intro _ h; cases h; done) | (intro _ _ h; cases h; done) | (intro _ _ _ h; cases h; done) | exact noneWaits_ok rfl | (unfold wellFormed; decide +kernel) | exact ⟨0, by decide +kernel⟩ | exact ⟨1, by decide +kernel⟩ | exact Or.inl ⟨_, rfl⟩ | exact Or.inl (by decide +kernel) | exact Or.inr (by decide +kernel) | constructor
theorem hyps_powerControl_1 : ∃ (s : State) (p : PowerSample) (v : Option Nat), canonical s ∧ s.power = .on ∧ p.ergTemp.length = 16 ∧ p.oasisTemp.length = 4 ∧ (s.guard 1).committed.toNat < 0x8000 ∧ v = (if p.vin < 48000 then some (420 * p.vin / 1000) else none) :=
  ⟨up, sample_ 48000, _, by repeat' first | exact canonB_ok (by decide +kernel) | decide +kernel | exact reachesB_ok (by decide +kernel) | exact settledB_ok (by decide +kernel) | exact Or.inl ⟨by decide +kernel, reachesH_ok (by decide +kernel)⟩ | refine And.intro ?_ ?_ | rfl | (intro _ h; cases h; done) | (intro _ _ h; cases h; done) | (intro _ _ _ h; cases h; done) | exact noneWaits_ok rfl | (unfold wellFormed; decide +kernel) | exact ⟨0, by decide +kernel⟩ | exact ⟨1, by decide +kernel⟩ | exact Or.inl ⟨_, rfl⟩ | exact Or.inl (by decide +kernel) | exact Or.inr (by decide +kernel) | constructor⟩
theorem hyps_powerControl_2 : ∃ (s : State) (p : PowerSample) (d : Nat) (mv : Nat) (ask : Nat) (cap : Nat) (hi : Nat) (lo : Nat), canonical s ∧ s.power = .on ∧ d < 16 ∧ (s.guard 1).committed.toNat < 0x8000 ∧ mv = (s.erg d).mv ∧ ask = p.ask.getD d mv ∧ cap = capOf s (if p.vin < 48000 then some (420 * p.vin / 1000) else none) s.pwr.flowLim ∧ lo = max (bits (s.guard 2).committed 0 10) (p.floor.getD d 0) ∧ hi = min (min (bits (s.guard 2).committed 16 10) (if p.watts < cap then ask else if p.watts = cap then min ask mv else min ask (mv - 5))) (if 100 ≤ p.ergTemp.getD d 0 then mv - 5 else 0x3FF) :=
  ⟨up, sample_ 47999, 15, 750, 750, _, _, _, by repeat' first | exact canonB_ok (by decide +kernel) | decide +kernel | exact reachesB_ok (by decide +kernel) | exact settledB_ok (by decide +kernel) | exact Or.inl ⟨by decide +kernel, reachesH_ok (by decide +kernel)⟩ | refine And.intro ?_ ?_ | rfl | (intro _ h; cases h; done) | (intro _ _ h; cases h; done) | (intro _ _ _ h; cases h; done) | exact noneWaits_ok rfl | (unfold wellFormed; decide +kernel) | exact ⟨0, by decide +kernel⟩ | exact ⟨1, by decide +kernel⟩ | exact Or.inl ⟨_, rfl⟩ | exact Or.inl (by decide +kernel) | exact Or.inr (by decide +kernel) | constructor⟩
theorem hyps_powerControl_3 : ∃ (s : State) (flow : Nat) (f : Option Nat), canonical s ∧ s.power = .on ∧ (s.guard 1).committed.toNat < 0x8000 ∧ f = (if flow < 30000 then some (6667 * flow / 10000) else none) :=
  ⟨up, 30000, _, by repeat' first | exact canonB_ok (by decide +kernel) | decide +kernel | exact reachesB_ok (by decide +kernel) | exact settledB_ok (by decide +kernel) | exact Or.inl ⟨by decide +kernel, reachesH_ok (by decide +kernel)⟩ | refine And.intro ?_ ?_ | rfl | (intro _ h; cases h; done) | (intro _ _ h; cases h; done) | (intro _ _ _ h; cases h; done) | exact noneWaits_ok rfl | (unfold wellFormed; decide +kernel) | exact ⟨0, by decide +kernel⟩ | exact ⟨1, by decide +kernel⟩ | exact Or.inl ⟨_, rfl⟩ | exact Or.inl (by decide +kernel) | exact Or.inr (by decide +kernel) | constructor⟩

theorem hyps_logUpkeep :
    (∃ (s : State), s.power = .on ∧ 0 < s.log.waiting ∧ s.log.lostFirst = none ∧ s.hasFlash = true ∧ s.nv.flashKey = true ∧ s.locked 34 = true) ∧
    (∃ (s : State), s.power = .on ∧ 0 < s.log.waiting ∧ s.log.lostFirst = none ∧ (s.hasFlash = false ∨ s.nv.flashKey = false ∨ s.locked 34 = false)) ∧
    (∃ (s : State) (n : Nat), s.power = .on ∧ 0 < s.log.waiting ∧ s.log.lostFirst = some n ∧ s.log.lostAt + 1000 ≤ s.etc ∧ s.log.ring.length < 16384) ∧
    (∃ (s : State), (s.power ≠ .on ∨ s.log.waiting = 0)) ∧
    (∃ (s : State) (i : Nat), (s.power ≠ .on ∨ s.log.windows[i]? = none ∨ (∃ w, s.log.windows[i]? = some w ∧ s.etc < w.openedAt + 100))) := by
  refine ⟨⟨{ up with log := { Log.init with waiting := 1 } }, ?_⟩,
    ⟨{ up with log := { Log.init with waiting := 1 }, nv := { Nv.init with flashKey := false } }, ?_⟩,
    ⟨{ up with log := { Log.init with waiting := 1, lostFirst := some 0 } }, 0, ?_⟩,
    ⟨up, ?_⟩,
    ⟨up, 0, ?_⟩⟩ <;>
  repeat' first | exact canonB_ok (by decide +kernel) | decide +kernel | exact reachesB_ok (by decide +kernel) | exact settledB_ok (by decide +kernel) | exact Or.inl ⟨by decide +kernel, reachesH_ok (by decide +kernel)⟩ | refine And.intro ?_ ?_ | rfl | (intro _ h; cases h; done) | (intro _ _ h; cases h; done) | (intro _ _ _ h; cases h; done) | exact noneWaits_ok rfl | (unfold wellFormed; decide +kernel) | exact ⟨0, by decide +kernel⟩ | exact ⟨1, by decide +kernel⟩ | exact Or.inl ⟨_, rfl⟩ | exact Or.inl (by decide +kernel) | exact Or.inr (by decide +kernel) | constructor
theorem hyps_logUpkeep_5 : ∃ (s : State) (i : Nat) (w : Window), s.power = .on ∧ s.log.windows[i]? = some w ∧ w.openedAt + 100 ≤ s.etc ∧ s.start.logOpen = true :=
  ⟨{ up with log := { Log.init with windows := [⟨0, 0, 0, .ok, 0, 0, 1⟩] } }, 0, _, by repeat' first | exact canonB_ok (by decide +kernel) | decide +kernel | exact reachesB_ok (by decide +kernel) | exact settledB_ok (by decide +kernel) | exact Or.inl ⟨by decide +kernel, reachesH_ok (by decide +kernel)⟩ | refine And.intro ?_ ?_ | rfl | (intro _ h; cases h; done) | (intro _ _ h; cases h; done) | (intro _ _ _ h; cases h; done) | exact noneWaits_ok rfl | (unfold wellFormed; decide +kernel) | exact ⟨0, by decide +kernel⟩ | exact ⟨1, by decide +kernel⟩ | exact Or.inl ⟨_, rfl⟩ | exact Or.inl (by decide +kernel) | exact Or.inr (by decide +kernel) | constructor⟩

theorem hyps_stepRunsFront :
    ∃ (c : Instr) (s : State) (t : _), exec c s = .next t := by
  refine ⟨.islandRelock 0, off, off, ?_⟩
  repeat' first | exact canonB_ok (by decide +kernel) | decide +kernel | exact reachesB_ok (by decide +kernel) | exact settledB_ok (by decide +kernel) | exact Or.inl ⟨by decide +kernel, reachesH_ok (by decide +kernel)⟩ | refine And.intro ?_ ?_ | rfl | (intro _ h; cases h; done) | (intro _ _ h; cases h; done) | (intro _ _ _ h; cases h; done) | exact noneWaits_ok rfl | (unfold wellFormed; decide +kernel) | exact ⟨0, by decide +kernel⟩ | exact ⟨1, by decide +kernel⟩ | exact Or.inl ⟨_, rfl⟩ | exact Or.inl (by decide +kernel) | exact Or.inr (by decide +kernel) | constructor

theorem hyps_emptyQueueTicks :
    (∃ (s : State), s.pending = [] ∧ s.power = .on ∧ s.timer = true) ∧
    (∃ (s : State), s.pending = [] ∧ s.power = .on ∧ s.timer = true ∧ s.expireDue = s) ∧
    (∃ (s : State), s.pending = [] ∧ (s.power ≠ .on ∨ s.timer = false)) := by
  refine ⟨⟨up, ?_⟩,
    ⟨up, ?_⟩,
    ⟨off, ?_⟩⟩ <;>
  repeat' first | exact canonB_ok (by decide +kernel) | decide +kernel | exact reachesB_ok (by decide +kernel) | exact settledB_ok (by decide +kernel) | exact Or.inl ⟨by decide +kernel, reachesH_ok (by decide +kernel)⟩ | refine And.intro ?_ ?_ | rfl | (intro _ h; cases h; done) | (intro _ _ h; cases h; done) | (intro _ _ _ h; cases h; done) | exact noneWaits_ok rfl | (unfold wellFormed; decide +kernel) | exact ⟨0, by decide +kernel⟩ | exact ⟨1, by decide +kernel⟩ | exact Or.inl ⟨_, rfl⟩ | exact Or.inl (by decide +kernel) | exact Or.inr (by decide +kernel) | constructor
theorem hyps_emptyQueueTicks_3 : ∃ (s : State) (t : State) (r : Nat) (a : Nat) (w : Word) (req : Requester), canonical s ∧ s.pending = [] ∧ s.power = .on ∧ s.timer = true ∧ r < 8 ∧ (s.guard r).pending = some (w, req, a) ∧ a + 101 ≤ s.etc ∧ step s = .next t :=
  ⟨gS 0 1 .coxswain, nextOf (step (gS 0 1 .coxswain)), 0, 0, 1, .coxswain, by exact ⟨canonB_ok (by decide +kernel), rfl, rfl, rfl, by decide, by decide +kernel, by decide +kernel, nextOf_eq (by decide +kernel)⟩⟩

theorem hyps_etcUntouched :
    ∃ (i : Instr) (s : State) (t : State), exec i s = .next t := by
  refine ⟨.islandRelock 0, off, off, ?_⟩
  repeat' first | exact canonB_ok (by decide +kernel) | decide +kernel | exact reachesB_ok (by decide +kernel) | exact settledB_ok (by decide +kernel) | exact Or.inl ⟨by decide +kernel, reachesH_ok (by decide +kernel)⟩ | refine And.intro ?_ ?_ | rfl | (intro _ h; cases h; done) | (intro _ _ h; cases h; done) | (intro _ _ _ h; cases h; done) | exact noneWaits_ok rfl | (unfold wellFormed; decide +kernel) | exact ⟨0, by decide +kernel⟩ | exact ⟨1, by decide +kernel⟩ | exact Or.inl ⟨_, rfl⟩ | exact Or.inl (by decide +kernel) | exact Or.inr (by decide +kernel) | constructor

theorem hyps_stepKeepsCanonical :
    ∃ (s : State) (t : State), canonical s ∧ step s = .next t := by
  refine ⟨off, off, ?_⟩
  repeat' first | exact canonB_ok (by decide +kernel) | decide +kernel | exact reachesB_ok (by decide +kernel) | exact settledB_ok (by decide +kernel) | exact Or.inl ⟨by decide +kernel, reachesH_ok (by decide +kernel)⟩ | refine And.intro ?_ ?_ | rfl | (intro _ h; cases h; done) | (intro _ _ h; cases h; done) | (intro _ _ _ h; cases h; done) | exact noneWaits_ok rfl | (unfold wellFormed; decide +kernel) | exact ⟨0, by decide +kernel⟩ | exact ⟨1, by decide +kernel⟩ | exact Or.inl ⟨_, rfl⟩ | exact Or.inl (by decide +kernel) | exact Or.inr (by decide +kernel) | constructor

theorem hyps_fusedForever :
    ∃ (s : State) (t : State), step s = .next t := by
  refine ⟨off, off, ?_⟩
  repeat' first | exact canonB_ok (by decide +kernel) | decide +kernel | exact reachesB_ok (by decide +kernel) | exact settledB_ok (by decide +kernel) | exact Or.inl ⟨by decide +kernel, reachesH_ok (by decide +kernel)⟩ | refine And.intro ?_ ?_ | rfl | (intro _ h; cases h; done) | (intro _ _ h; cases h; done) | (intro _ _ _ h; cases h; done) | exact noneWaits_ok rfl | (unfold wellFormed; decide +kernel) | exact ⟨0, by decide +kernel⟩ | exact ⟨1, by decide +kernel⟩ | exact Or.inl ⟨_, rfl⟩ | exact Or.inl (by decide +kernel) | exact Or.inr (by decide +kernel) | constructor

theorem hyps_illegalInState :
    ∃ (s : State) (e : Instr) (op : Nat) (c : MbCmd), mailRow e = some (op, c) ∧ rings c s ∧ ((s.mb c.m).phase = .idle ∨ (s.mb c.m).phase = .done) ∧ wellFormed c ∧ ((opState op = true → s.stateMb = none ∧ s.mbQueue = [])) ∧ s.opAbsent op c.payload = false ∧ natBit (opStates op) s.dev.code = false := by
  refine ⟨up, .devConfig (cmd_ []), 0x12, cmd_ [], ?_⟩
  repeat' first | exact canonB_ok (by decide +kernel) | decide +kernel | exact reachesB_ok (by decide +kernel) | exact settledB_ok (by decide +kernel) | exact Or.inl ⟨by decide +kernel, reachesH_ok (by decide +kernel)⟩ | refine And.intro ?_ ?_ | rfl | (intro _ h; cases h; done) | (intro _ _ h; cases h; done) | (intro _ _ _ h; cases h; done) | exact noneWaits_ok rfl | (unfold wellFormed; decide +kernel) | exact ⟨0, by decide +kernel⟩ | exact ⟨1, by decide +kernel⟩ | exact Or.inl ⟨_, rfl⟩ | exact Or.inl (by decide +kernel) | exact Or.inr (by decide +kernel) | constructor

theorem hyps_lifeCycleEntries :
    (∃ (s : State) (c : MbCmd), passes 0x62 c s ∧ (numAt c.payload 2 2 = 0 ∨ s.tokenOk (numAt c.payload 0 1) (c.payload.drop 8) = true) ∧ s.start.delayed = none) ∧
    (∃ (s : State) (c : MbCmd), sends 0x62 c s ∧ natBit (opStates 0x62) s.dev.code = true ∧ 64 ≤ s.nv.lcUsed) ∧
    (∃ (s : State), s.nv.lifecycle ≤ 5 ∧ s.nv.lcUsed ≤ 64) := by
  refine ⟨⟨in_ .ready, cmd_ ([5, 0] ++ leBytes 2 0 ++ leBytes 4 0), ?_⟩,
    ⟨{ in_ .ready with nv := { Nv.init with lcUsed := 64 } }, cmd_ [], ?_⟩,
    ⟨up, ?_⟩⟩ <;>
  repeat' first | exact canonB_ok (by decide +kernel) | decide +kernel | exact reachesB_ok (by decide +kernel) | exact settledB_ok (by decide +kernel) | exact Or.inl ⟨by decide +kernel, reachesH_ok (by decide +kernel)⟩ | refine And.intro ?_ ?_ | rfl | (intro _ h; cases h; done) | (intro _ _ h; cases h; done) | (intro _ _ _ h; cases h; done) | exact noneWaits_ok rfl | (unfold wellFormed; decide +kernel) | exact ⟨0, by decide +kernel⟩ | exact ⟨1, by decide +kernel⟩ | exact Or.inl ⟨_, rfl⟩ | exact Or.inl (by decide +kernel) | exact Or.inr (by decide +kernel) | constructor

theorem hyps_tagRefused :
    (∃ (s : State) (req : Requester), canonical s ∧ reaches s req 0x02020020 ∧ (s.dev = .ready ∨ s.dev = .running) ∧ s.lowp.busy = false) ∧
    (∃ (s : State), canonical s ∧ s.power = .on ∧ s.lowp.busy = true) := by
  refine ⟨⟨up, .coxswain, ?_⟩,
    ⟨{ up with lowp := { Lowp.init with busy := true } }, ?_⟩⟩ <;>
  repeat' first | exact canonB_ok (by decide +kernel) | decide +kernel | exact reachesB_ok (by decide +kernel) | exact settledB_ok (by decide +kernel) | exact Or.inl ⟨by decide +kernel, reachesH_ok (by decide +kernel)⟩ | refine And.intro ?_ ?_ | rfl | (intro _ h; cases h; done) | (intro _ _ h; cases h; done) | (intro _ _ _ h; cases h; done) | exact noneWaits_ok rfl | (unfold wellFormed; decide +kernel) | exact ⟨0, by decide +kernel⟩ | exact ⟨1, by decide +kernel⟩ | exact Or.inl ⟨_, rfl⟩ | exact Or.inl (by decide +kernel) | exact Or.inr (by decide +kernel) | constructor

theorem hyps_noFlashOnE :
    (∃ (s : State) (i : Nat) (name : Nat) (req : Requester), tierReady s req ∧ s.nv.variant = .yd1e ∧ name = numAt (s.load (s.regEntryDa i) 64) 8 8 % 2 ^ 56 ∧ (regionOf name = some .flash ∨ s.nameIn 1 name 1 = true)) ∧
    (∃ (s : State) (i : Nat) (req : Requester), tierReady s req ∧ s.nv.variant = .yd1e ∧ (s.tensor i).state ≠ .unregistered ∧ s.nameIn 1 (s.tensor i).name 1 = true) ∧
    (∃ (s : State) (off : Nat) (v : Word) (req : Requester) (d : RegDef), canonical s ∧ plainReg off d ∧ reaches s req off ∧ s.nv.variant = .yd1e ∧ daHigh.contains (regName off) = true ∧ 0x20000 ≤ bits v 0 24 ∧ bits v 0 24 < 0x21000) := by
  refine ⟨⟨{ up with nv := { Nv.init with variant := .yd1e }, regs := [(0x02030028, 1)] }, 0, 0, .coxswain, ?_⟩,
    ⟨{ up with nv := { Nv.init with variant := .yd1e }, regs := [(0x02030028, 1)], tier := { Tier.init with tensors := [(0, { Tensor.none with state := .atHome })] } }, 0, .coxswain, ?_⟩,
    ⟨{ in_ .ready with nv := { Nv.init with variant := .yd1e } }, 0x02030004, 0x20000, .coxswain, (regDef 0x02030004).get (by decide +kernel), ?_⟩⟩ <;>
  repeat' first | exact canonB_ok (by decide +kernel) | decide +kernel | exact reachesB_ok (by decide +kernel) | exact settledB_ok (by decide +kernel) | exact Or.inl ⟨by decide +kernel, reachesH_ok (by decide +kernel)⟩ | refine And.intro ?_ ?_ | rfl | (intro _ h; cases h; done) | (intro _ _ h; cases h; done) | (intro _ _ _ h; cases h; done) | exact noneWaits_ok rfl | (unfold wellFormed; decide +kernel) | exact ⟨0, by decide +kernel⟩ | exact ⟨1, by decide +kernel⟩ | exact Or.inl ⟨_, rfl⟩ | exact Or.inl (by decide +kernel) | exact Or.inr (by decide +kernel) | constructor

theorem hyps_tasksComplete :
    (∃ (s : State) (q : Nat) (v : Word) (req : Requester), q < 512 ∧ reaches s req (doorbellOff q) ∧ (s.dev = .ready ∨ s.dev = .running) ∧ (v - (s.ring q).head).toNat ≤ s.ringSlots q) ∧
    (∃ (s : State) (q : Nat) (v : Word) (req : Requester), q < 512 ∧ reaches s req (ringReg q 0x20) ∧ (v - (s.ring q).cqHead).toNat ≤ ((s.ring q).cqTail - (s.ring q).cqHead).toNat) ∧
    (∃ (s : State) (q : Nat) (v : Word) (req : Requester), canonical s ∧ q < 512 ∧ reaches s req (ringReg q 8) ∧ 4 ≤ bits v 0 5 ∧ bits v 0 5 ≤ 16 ∧ 4 ≤ bits v 5 5 ∧ bits v 5 5 ≤ 16 ∧ (s.ring q).state = .disabled) ∧
    (∃ (s : State) (q : Nat) (v : Word) (req : Requester), canonical s ∧ q < 512 ∧ reaches s req (ringReg q 8) ∧ 4 ≤ bits v 0 5 ∧ bits v 0 5 ≤ 16 ∧ 4 ≤ bits v 5 5 ∧ bits v 5 5 ≤ 16 ∧ bits v 0 10 = s.fld (ringReg q 8) 0 10 ∧ ((s.ring q).state = .active ∨ (s.ring q).state = .halted)) ∧
    (∃ (s : State) (q : Nat), s.power = .on ∧ (s.ring q).deferred = true ∧ ((∀ a, (s.ring q).lastIrq = some a → a + s.fld (ringReg q 0x28) 0 16 ≤ s.etc))) ∧
    (∃ (s : State) (k : Nat) (id : Nat), mayResume k id s) ∧
    (∃ (s : State) (k : Nat) (i : Nat) (id : Nat) (j : Nat) (n : Nat) (x : Xfer), ending k i id j x s ∧ (s.task id).hostXfer x = false ∧ ((s.task id).state = .running ∨ (∃ w, (s.task id).state = .suspended w)) ∧ (x.isRead = false ∨ (counted s k x [] n).landsBad (s.task id) x = false)) ∧
    (∃ (s : State) (k : Nat) (id : Nat), finished k id s) ∧
    (∃ (s : State) (id : Nat), s.power = .on ∧ (s.task id).state = .committed ∧ ((∀ p, p ∈ s.peers → p.task = id → p.write = false))) ∧
    (∃ (s : State) (q : Nat) (id : Nat), fenceOpen q id s) ∧
    (∃ (s : State) (u : State) (id : Nat), signalTurn id s ∧ s.parkReason (s.task id).home id (s.task id) = none ∧ u = (if (s.task id).sgCtr = 0xFFFF then s else s.setCtr (s.task id).sgCtr (if (s.task id).sgSet then (s.task id).sgValue else s.ctr (s.task id).sgCtr + (s.task id).sgValue))) ∧
    (∃ (s : State) (id : Nat) (g : Nat), walking id s ∧ groupPages s id g ≠ [] ∧ s.readBad (groupDa s id g) 32 = false) ∧
    (∃ (s : State) (id : Nat) (k : Nat) (pg : Nat), s.power = .on ∧ (s.task id).scull = some k ∧ (s.task id).state = .running ∧ (s.task id).kind = kAttend ∧ (s.task id).chunksOut = true ∧ (s.task id).todo = [] ∧ (s.task id).flying = [] ∧ (s.pagesMissing (s.task id)).head? = some pg ∧ ((∃ x, x ∈ s.kv.swaps ∧ x.list = (s.task id).atList ∧ x.pg = pg ∧ id ∈ x.waiters))) ∧
    (∃ (s : State) (x : SwapReq) (d : ListDesc) (n : Nat) (pfn : Nat), serving s x d n pfn) ∧
    (∃ (s : State) (r : Nat) (req : Requester), Tab.wf 0 s.kv.tail = true ∧ reaches s req (kvReg r 0x10)) ∧
    (∃ (s : State) (req : Requester), reaches s req 0x02020020 ∧ (s.dev = .ready ∨ s.dev = .running) ∧ s.lowp.busy = false) ∧
    (∃ (s : State), s.power = .on ∧ s.lowp.busy = true) ∧
    (∃ (s : State) (k : Nat) (x : Nat) (id : Nat) (i : Nat) (f : Xfer), late s k x id i f ∧ unshadowed s id i f ∧ (s.tensor i).recomp = 0) ∧
    (∃ (s : State) (k : Nat) (id : Nat), canonical s ∧ s.power = .on ∧ (s.scull k).task = some id ∧ (s.task id).state = .running ∧ (s.task id).lc = false ∧ (s.task id).overrun = false ∧ s.fld 0x02070090 16 16 ≠ 0 ∧ s.fld 0x02070090 16 16 < (s.task id).busyUs + (s.etc - (s.task id).startedAt)) := by
  refine ⟨⟨up, 0, 16, .coxswain, ?_⟩,
    ⟨up, 511, 0, .coxswain, ?_⟩,
    ⟨up, 511, 0x84, .coxswain, ?_⟩,
    ⟨{ up with rings := [(0, { Ring.init with state := .halted })] }, 0, 0x84, .coxswain, ?_⟩,
    ⟨{ up with rings := [(0, { Ring.init with state := .active, deferred := true })] }, 0, ?_⟩,
    ⟨{ with_ { copy with state := .suspended (.recompute 0), flying := [xfer 0x1000] } with sculls := [(0, { Scull.init with suspended := [0] })] }, 0, 0, ?_⟩,
    ⟨with_ { copy with state := .running, flying := [xfer 0x1000, xfer 0xF000000000000] }, 0, 1, 0, 1, 0, xfer 0xF000000000000, ?_⟩,
    ⟨with_ { copy with state := .running, computed := true }, 0, 0, ?_⟩,
    ⟨with_ { copy with state := .committed }, 0, ?_⟩,
    ⟨{ queued_ { copy with words := [0x10A, 0, 0, 0xFFFFFFFF] } with rings := [(0, { Ring.init with state := .active, live := [0], fence := some 0 })] }, 0, 0, ?_⟩,
    ⟨queued_ sig, queued_ sig, 0, ?_⟩,
    ⟨with_ attend, 0, 0, ?_⟩,
    ⟨{ with_ attend with kv := { Kv.init with swaps := [⟨0x1000, 0, [0], false, true⟩] } }, 0, 0, 0, ?_⟩,
    ⟨swapS, ⟨0x1000, 0, [], false, true⟩, swapS.listDesc 0x1000, 0, 0, ?_⟩,
    ⟨up, 1, .coxswain, ?_⟩,
    ⟨up, .coxswain, ?_⟩,
    ⟨{ up with lowp := { Lowp.init with busy := true } }, ?_⟩,
    ⟨lateS copy false Tensor.none, 0, 0, 0, 0, { xfer 0x5000 with weight := false, home := some 0 }, ?_⟩,
    ⟨{ running with regs := [(0x1040020, 8), (0x02070000, 1), (0x02070090, 0x10000)] }, 0, 0, ?_⟩⟩ <;>
  repeat' first | exact canonB_ok (by decide +kernel) | decide +kernel | exact reachesB_ok (by decide +kernel) | exact settledB_ok (by decide +kernel) | exact Or.inl ⟨by decide +kernel, reachesH_ok (by decide +kernel)⟩ | refine And.intro ?_ ?_ | rfl | (intro _ h; cases h; done) | (intro _ _ h; cases h; done) | (intro _ _ _ h; cases h; done) | exact noneWaits_ok rfl | (unfold wellFormed; decide +kernel) | exact ⟨0, by decide +kernel⟩ | exact ⟨1, by decide +kernel⟩ | exact Or.inl ⟨_, rfl⟩ | exact Or.inl (by decide +kernel) | exact Or.inr (by decide +kernel) | constructor

theorem hyps_storesComplete :
    (∃ (s : State) (n : Nat) (line : Nat) (e : WcbEntry), (s.dune n).wcb.find? (fun x => x.line == line && (s.dune n).entryDue s.etc x) = some e) ∧
    (∃ (s : State) (n : Nat) (req : Requester), canonical s ∧ reaches s req (duneReg n 0x5C)) ∧
    (∃ (s : State) (n : Nat), canonical s ∧ s.background = true ∧ n < 48 ∧ (s.dune n).state = .online) ∧
    (∃ (s : State) (n : Nat), canonical s ∧ s.background = true ∧ n < 48 ∧ ((s.dune n).state = .online ∨ (s.dune n).state = .stopped)) ∧
    (∃ (s : State) (n : Nat) (a : Nat), canonical s ∧ s.power = .on ∧ n < 48 ∧ (s.dune n).state = .stopped ∧ (s.dune n).band = 5 ∧ (s.dune n).band5At = some a ∧ a + 100000 < s.etc) ∧
    (∃ (s : State) (k : Nat), s.background = true ∧ k < 12288 ∧ (s.scull k).state = .good) ∧
    (∃ (s : State) (n : Nat) (c : Nat), s.background = true ∧ n < 48 ∧ c < 128 ∧ (s.dune n).state = .online) ∧
    (∃ (s : State) (page : Nat), s.background = true ∧ s.hasFlash = true ∧ s.locked 34 = true ∧ page < s.flashPages ∧ page ∉ s.nv.badPages) ∧
    (∃ (s : State) (n : Nat), Tab.wf noSensor s.pwr.sensors = true ∧ s.background = true ∧ n < 964) ∧
    (∃ (s : State) (i : Nat) (req : Requester) (x : Tensor), tierReady s req ∧ s.tierAbsent 1 i = false ∧ s.registerCheck i = .ok ∧ x = tensorOf (s.load (s.regEntryDa i) 64) ∧ x.prefT1 = false) ∧
    (∃ (s : State) (i : Nat) (req : Requester), tierReady s req ∧ (s.tensor i).unpinned = true ∧ (s.tensor i).state = .atHome) ∧
    (∃ (s : State) (i : Nat) (req : Requester), tierReady s req ∧ s.hasFlash = true ∧ (s.tensor i).state = .atHome ∧ (s.tensor i).unpinned = true ∧ s.nameIn 1 (s.tensor i).name 1 = true ∧ loadSrc s + (s.tensor i).size ≤ duneEnd ∧ ((∀ e, e ∈ s.tier.tensors → e.2.state = .unregistered ∨ loadSrc s + (s.tensor i).size ≤ e.2.name ∨ e.2.name + e.2.pages * tierPage ≤ loadSrc s))) ∧
    (∃ (s : State) (req : Requester), tierReady s req) ∧
    (∃ (s : State) (i : Nat) (req : Requester), tierReady s req ∧ (s.tensor i).state = .atHome ∧ s.moves < 8 ∧ (s.tensor i).pages ≤ s.freeFrames.length) ∧
    (∃ (s : State) (i : Nat) (req : Requester), tierReady s req ∧ (s.tensor i).state = .resident ∧ (s.tensor i).unpinned = true ∧ ((s.tensor i).dirty = false ∨ s.moves < 8)) ∧
    (∃ (s : State) (i : Nat) (host : List Cell), copiedIn s i host) ∧
    (∃ (s : State) (i : Nat), s.power = .on ∧ (s.tensor i).state = .copyOut ∧ s.tier.cmd ≠ some (2, i) ∧ s.hostOpen = true) ∧
    (∃ (s : State) (n : Nat) (k : Nat), canonical s ∧ Tab.wf Tensor.none s.tier.tensors = true ∧ ((∀ e, e ∈ s.tier.tensors → Tab.wf 0 e.2.heat = true)) ∧ n = (s.reg 0x02030030).toNat ∧ s.power = .on ∧ n ≠ 0 ∧ k = (s.etc - s.tier.decayAt) / n ∧ 1 ≤ k) ∧
    (∃ (s : State) (i : Nat), s.power = .on ∧ s.tier.cmd = some (2, i) ∧ (s.tensor i).state = .copyOut ∧ s.hostOpen = true) ∧
    (∃ (s : State) (i : Nat), s.power = .on ∧ s.tier.cmd = some (3, i) ∧ s.flashOpen = true) ∧
    (∃ (s : State) (i : Nat), s.power = .on ∧ s.tier.cmd = some (4, i) ∧ s.hostOpen = true) := by
  refine ⟨⟨{ up with dunes := [(0, { Stack.init with wcb := [⟨0, [(0, 1)], 0⟩] })] }, 0, 0, ⟨0, [(0, 1)], 0⟩, ?_⟩,
    ⟨{ up with dunes := [(0, { Stack.init with wcb := [⟨0, [(0, 1)], 0⟩] })] }, 0, .coxswain, ?_⟩,
    ⟨up, 0, ?_⟩,
    ⟨up, 0, ?_⟩,
    ⟨{ up with dunes := [(47, { Stack.init with state := .stopped, band := 5, band5At := some 0 })] }, 47, 0, ?_⟩,
    ⟨up, 12287, ?_⟩,
    ⟨up, 47, 127, ?_⟩,
    ⟨up, 0, ?_⟩,
    ⟨up, 963, ?_⟩,
    ⟨{ up with regs := [(0x02030008, 1), (0x0203001C, 4)], mem := [(0, 1), (10, 0x20), (16, 64)] }, 0, .coxswain, tensorOf (({ up with regs := [(0x02030008, 1), (0x0203001C, 4)], mem := [(0, 1), (10, 0x20), (16, 64)] }).load (({ up with regs := [(0x02030008, 1), (0x0203001C, 4)], mem := [(0, 1), (10, 0x20), (16, 64)] }).regEntryDa 0) 64), ?_⟩,
    ⟨{ up with tier := { Tier.init with tensors := [(0, { Tensor.none with state := .atHome })] } }, 0, .coxswain, ?_⟩,
    ⟨{ up with tier := { Tier.init with tensors := [(0, { Tensor.none with state := .atHome, size := 64 })] }, regs := [(0x02030028, 1), (0x02030064, 0x400000)] }, 0, .coxswain, ?_⟩,
    ⟨up, .coxswain, ?_⟩,
    ⟨{ up with tier := { Tier.init with tensors := [(0, { Tensor.none with state := .atHome, size := 0x200000 })] }, regs := [(0x02030100, 0x20000)] }, 0, .coxswain, ?_⟩,
    ⟨{ up with tier := { Tier.init with tensors := [(0, { Tensor.none with state := .resident })] } }, 0, .coxswain, ?_⟩,
    ⟨{ up with tier := { Tier.init with tensors := [(0, { Tensor.none with state := .copyIn })] } }, 0, [], ?_⟩,
    ⟨{ up with tier := { Tier.init with tensors := [(0, { Tensor.none with state := .copyOut })] } }, 0, ?_⟩,
    ⟨{ up with regs := [(0x02030030, 1000)] }, 1000, 5000, ?_⟩,
    ⟨{ up with tier := { Tier.init with tensors := [(0, { Tensor.none with state := .copyOut })], cmd := some (2, 0) } }, 0, ?_⟩,
    ⟨{ up with tier := { Tier.init with tensors := [(0, { Tensor.none with state := .atHome })], cmd := some (3, 0), loading := [(flashBase, 1)] } }, 0, ?_⟩,
    ⟨{ up with tier := { Tier.init with tensors := [(0, { Tensor.none with state := .atHome })], cmd := some (4, 0) } }, 0, ?_⟩⟩ <;>
  repeat' first | exact canonB_ok (by decide +kernel) | decide +kernel | exact reachesB_ok (by decide +kernel) | exact settledB_ok (by decide +kernel) | exact Or.inl ⟨by decide +kernel, reachesH_ok (by decide +kernel)⟩ | refine And.intro ?_ ?_ | rfl | (intro _ h; cases h; done) | (intro _ _ h; cases h; done) | (intro _ _ _ h; cases h; done) | exact noneWaits_ok rfl | (unfold wellFormed; decide +kernel) | exact ⟨0, by decide +kernel⟩ | exact ⟨1, by decide +kernel⟩ | exact Or.inl ⟨_, rfl⟩ | exact Or.inl (by decide +kernel) | exact Or.inr (by decide +kernel) | constructor

theorem hyps_wakesComplete :
    (∃ (s : State) (w : Nat) (r : Nat) (v : Word) (req : Requester), canonical s ∧ Tab.wf 0 (s.wake w).tail = true ∧ reaches s req (wakeRingReg w r 0x30) ∧ (s.dev = .ready ∨ s.dev = .running) ∧ (v - (s.wake w).headOf r).toNat ≤ s.wakeSlots w r) ∧
    (∃ (s : State) (w : Nat) (r : Nat) (host : List Cell) (j : Job), jobReady w r j s (s.seeHost host) ∧ j.op = 1) ∧
    (∃ (s : State) (w : Nat) (host : List Cell) (j : Job), jobReady w 0 j s (s.seeHost host) ∧ j.op = 2) ∧
    (∃ (s : State) (w : Nat) (host : List Cell) (j : Job) (x : Session), jobReady w 1 j s (s.seeHost host) ∧ j.op = 2 ∧ (s.wake w).session 1 = some x ∧ (s.seeHost host).regionsEnd x = none) ∧
    (∃ (s : State) (w : Nat) (r : Nat) (j : Job), jobReady w r j s s ∧ j.op = 3) ∧
    (∃ (s : State) (w : Nat) (x : Session) (j : Job), s.runningJob w 0 = some (x, j)) ∧
    (∃ (s : State) (w : Nat) (x : Session) (j : Job), s.runningJob w 1 = some (x, j)) ∧
    (∃ (s : State) (w : Nat) (r : Nat) (j : Job) (st : Status), s.power = .on ∧ s.locked (26 + w) = true ∧ (s.wake w).job r = some j ∧ j.ends = some st) ∧
    (∃ (s : State) (w : Nat) (bad : Nat) (skipped : Nat) (j : Job), s.power = .on ∧ s.locked (26 + w) = true ∧ (s.wake w).job 0 = some j ∧ j.op = 2 ∧ j.ran = true ∧ j.ends = none ∧ (s.badUnits w j bad skipped).readBad j.data j.length = false) ∧
    (∃ (s : State) (w : Nat) (r : Nat) (x : Session) (j : Job), s.runningJob w r = some (x, j) ∧ s.reg (wakeReg w 0x14) ≠ 0 ∧ j.since + (s.reg (wakeReg w 0x14)).toNat + 1 ≤ s.etc) ∧
    (∃ (s : State) (w : Nat), s.power = .on ∧ s.hasWake = true ∧ s.locked (26 + w) = true ∧ (s.wake w).state = .good ∧ (s.wake w).testing = false) ∧
    (∃ (s : State) (w : Nat), s.power = .on ∧ (s.wake w).state = .good ∧ (s.wake w).testing = true) := by
  refine ⟨⟨up, 7, 1, 16, .coxswain, ?_⟩,
    ⟨wakeS .good [1, 0, 0, 0xFFFFFFFF, 0, 0, 0x1000, 0, 0, 0, 0, 0, 0, 0, 0, 0] [], 0, 0, [], ((wakeS .good [1, 0, 0, 0xFFFFFFFF, 0, 0, 0x1000, 0, 0, 0, 0, 0, 0, 0, 0, 0] []).seeHost []).fetchJob 0 0, ?_⟩,
    ⟨wakeS .good [2, 0, 0, 0xFFFFFFFF, 0, 0, 0x1000, 0, 256, 0, 0, 0, 0, 0, 0, 0] [(0, some ses1)], 0, [], ((wakeS .good [2, 0, 0, 0xFFFFFFFF, 0, 0, 0x1000, 0, 256, 0, 0, 0, 0, 0, 0, 0] [(0, some ses1)]).seeHost []).fetchJob 0 0, ?_⟩,
    ⟨wakeE, 0, [], ((wakeE).seeHost []).fetchJob 0 1, sesE, ?_⟩,
    ⟨wakeS .good [3, 0, 0, 0xFFFFFFFF, 0, 0, 0, 0, 0, 0, 0, 0, 0, 0, 0, 0] [(0, some ses1)], 0, 0, (wakeS .good [3, 0, 0, 0xFFFFFFFF, 0, 0, 0, 0, 0, 0, 0, 0, 0, 0, 0, 0] [(0, some ses1)]).fetchJob 0 0, ?_⟩,
    ⟨wakeJ 0 none, 0, ses1, ⟨[2], 0, 0, 0, none, true, [], 0, 0⟩, ?_⟩,
    ⟨wakeJ 1 none, 0, ses1, ⟨[2], 0, 0, 0, none, true, [], 0, 0⟩, ?_⟩,
    ⟨wakeJ 1 (some .ok), 0, 1, ⟨[2], 0, 0, 0, some .ok, true, [], 0, 0⟩, .ok, ?_⟩,
    ⟨wakeJ 0 none, 0, 0, 0, ⟨[2], 0, 0, 0, none, true, [], 0, 0⟩, ?_⟩,
    ⟨wakeJ 1 none, 0, 1, ses1, ⟨[2], 0, 0, 0, none, true, [], 0, 0⟩, ?_⟩,
    ⟨up, 7, ?_⟩,
    ⟨{ up with wakes := [(0, { Wake.init with testing := true })] }, 0, ?_⟩⟩ <;>
  repeat' first | exact canonB_ok (by decide +kernel) | decide +kernel | exact reachesB_ok (by decide +kernel) | exact settledB_ok (by decide +kernel) | exact Or.inl ⟨by decide +kernel, reachesH_ok (by decide +kernel)⟩ | refine And.intro ?_ ?_ | rfl | (intro _ h; cases h; done) | (intro _ _ h; cases h; done) | (intro _ _ _ h; cases h; done) | exact noneWaits_ok rfl | (unfold wellFormed; decide +kernel) | exact ⟨0, by decide +kernel⟩ | exact ⟨1, by decide +kernel⟩ | exact Or.inl ⟨_, rfl⟩ | exact Or.inl (by decide +kernel) | exact Or.inr (by decide +kernel) | constructor

theorem hyps_linksComplete :
    (∃ (s : State) (p : Nat) (v : Word) (req : Requester), canonical s ∧ p < 18 ∧ reaches s req (portReg p 0) ∧ bits v 4 2 ≠ 3 ∧ (s.port p).state = .disabled ∧ (s.port p).guardDis = false) ∧
    (∃ (s : State) (p : Nat) (v : Word) (req : Requester), canonical s ∧ p < 18 ∧ reaches s req (portReg p 0) ∧ bits v 4 2 ≠ 3 ∧ (s.port p).state ≠ .disabled) ∧
    (∃ (s : State) (p : Nat) (v : Word) (req : Requester), canonical s ∧ p < 18 ∧ reaches s req (portReg p 0) ∧ bits v 4 2 ≠ 3 ∧ (s.port p).state = .quarantined ∧ bits v 0 1 = 1) ∧
    (∃ (s : State) (p : Nat), s.power = .on ∧ (s.port p).state = .training ∧ s.locked (portIsland p) = true) ∧
    (∃ (s : State) (p : Nat), s.power = .on ∧ (s.port p).state = .training ∧ (s.port p).since + 20001 ≤ s.etc) ∧
    (∃ (s : State) (p : Nat), s.power = .on ∧ (s.port p).state = .down ∧ (s.port p).since + 1000001 ≤ s.etc) ∧
    (∃ (s : State) (p : Nat), s.power = .on ∧ (s.port p).state = .attesting ∧ (s.port p).since + 50001 ≤ s.etc) ∧
    (∃ (s : State) (p : Nat) (vc : Nat) (flit : List Byte), flitGood s p flit ∧ flitBits flit 4 1 = 0 ∧ vc = flitBits flit 0 2 ∧ ((s.port p).rxSeq + 4096 - flitBits flit 8 12) % 4096 = 0 ∧ 0 < Tab.get 0 (s.port p).granted vc ∧ Tab.wf 0 (s.port p).granted = true ∧ ((flitBits flit 2 1 = 1 ∨ Tab.get 0 (s.port p).inFrame vc < 15)) ∧ flitBits flit 32 1 = 0) ∧
    (∃ (s : State) (p : Nat) (f : Frame), canonical s ∧ s.power = .on ∧ (s.port p).state = .admitted ∧ numAt f.header 0x10 8 = (s.port p).rxCtr + 1 ∧ frameBroken f = false ∧ (numAt f.header 4 2 = s.myId ∨ numAt f.header 0 1 = mMgmt)) ∧
    (∃ (s : State) (p : Nat) (vc : Nat), admitted p s ∧ s.fld 0x02060008 0 16 ≠ 0 ∧ ((∃ w, w ∈ (s.port p).waiting ∧ w.1 = vc)) ∧ Tab.get 0 (s.port p).credits vc = 0 ∧ Tab.get 0 (s.port p).creditAt vc + s.fld 0x02060008 0 16 + 1 ≤ s.etc) ∧
    (∃ (s : State) (p : Nat), admitted p s ∧ 2 ^ 31 ≤ (s.port p).txCtr ∧ (s.port p).rekeyAt = none) ∧
    (∃ (s : State) (p : Nat) (a : Nat), admitted p s ∧ (s.port p).rekeyAt = some a ∧ a + 50001 ≤ s.etc) ∧
    (∃ (s : State) (p : Nat), admitted p s ∧ (s.port p).newRx ≠ []) ∧
    (∃ (s : State) (p : Nat) (i : Nat), attesting p s ∧ i < 3 ∧ ((∀ c, c ∈ (s.port p).certs → c.1 ≠ i)) ∧ (s.port p).certs.length < 2) ∧
    (∃ (s : State) (p : Nat), attesting p s ∧ s.sec.attReady = true ∧ s.sec.attUsed < 65536 ∧ 3 ≤ (s.port p).certs.length ∧ s.initiates p = false ∧ (s.port p).transcript = []) ∧
    (∃ (s : State) (p : Nat), attesting p s ∧ s.sec.attReady = true ∧ s.sec.attUsed < 65536 ∧ (s.port p).ekSent = true ∧ (s.port p).secret = []) ∧
    (∃ (s : State) (p : Nat) (sender : Nat), attesting p s ∧ (s.port p).digest ≠ [] ∧ (s.port p).finSent = false ∧ s.policyOk (s.port p) = true ∧ sender = (s.port p).peer ∧ s.idOk p sender = true) ∧
    (∃ (s : State) (p : Nat), attesting p s ∧ (s.port p).finSent = true) ∧
    (∃ (s : State) (p : Nat), admitted p s ∧ s.sec.rngStop = false ∧ ((s.port p).ekSent = false ∨ s.initiates p = false)) ∧
    (∃ (s : State) (p : Nat), admitted p s ∧ s.sec.rngStop = false ∧ (s.port p).ekSent = true) ∧
    (∃ (s : State) (p : Nat), admitted p s ∧ s.sec.attReady = true ∧ s.sec.attUsed < 65536) ∧
    (∃ (s : State) (p : Nat), admitted p s ∧ (s.port p).statAt + 1000000 ≤ s.etc) ∧
    (∃ (s : State) (p : Nat), admitted p s) ∧
    (∃ (s : State) (p : Nat), admitted p s) ∧
    (∃ (s : State) (p : Nat) (m : Msg), admitted p s ∧ 0 < m.bytes ∧ m.bytes ≤ 3584 ∧ s.permitted m.src m.da m.bytes false = true) ∧
    (∃ (s : State) (p : Nat) (m : Msg), admitted p s ∧ msgBroken m = false ∧ m.poisoned = false ∧ s.permitted m.src m.da (msgSpan m) true = true) ∧
    (∃ (s : State) (p : Nat) (m : Msg) (q : PeerReq), awaits p m false q s ∧ m.status = 0 ∧ m.poisoned = false ∧ m.data.length = q.len ∧ (s.task q.task).state = .running) ∧
    (∃ (s : State) (p : Nat) (m : Msg) (q : PeerReq), awaits p m true q s ∧ m.status = 0) ∧
    (∃ (s : State) (u : State) (tag : Nat) (q : PeerReq), s.peers.find? (fun x => x.tag == tag) = some q ∧ s.power = .on ∧ s.reg 0x0206000C ≠ 0 ∧ q.at_ + (s.reg 0x0206000C).toNat + 1 ≤ s.etc ∧ u = { s with peers := s.peers.filter fun x => x.task != q.task } ∧ ((s.task q.task).state = .running ∨ (∃ w, (s.task q.task).state = .suspended w))) ∧
    (∃ (s : State) (u : State) (tag : Nat) (q : PeerReq), s.peers.find? (fun x => x.tag == tag) = some q ∧ s.power = .on ∧ s.reg 0x0206000C ≠ 0 ∧ q.at_ + (s.reg 0x0206000C).toNat + 1 ≤ s.etc ∧ u = { s with peers := s.peers.filter fun x => x.task != q.task } ∧ (s.task q.task).state = .committed) ∧
    (∃ (s : State) (p : Nat) (k : Nat) (m : Msg) (c : Coll), inEpoch p m k c s ∧ m.poisoned = false ∧ c.opened = false) ∧
    (∃ (s : State) (p : Nat) (k : Nat) (m : Msg) (c : Coll), inEpoch p m k c s ∧ m.poisoned = false ∧ (c.root = false ∨ c.phase = 1)) ∧
    (∃ (s : State) (p : Nat) (k : Nat) (m : Msg) (c : Coll), inEpoch p m k c s ∧ m.poisoned = false) ∧
    (∃ (s : State) (p : Nat) (k : Nat) (m : Msg) (c : Coll), inEpoch p m k c s ∧ m.poisoned = false ∧ m.src ∉ c.acks) ∧
    (∃ (s : State) (p : Nat) (k : Nat) (m : Msg) (c : Coll), inEpoch p m k c s ∧ m.poisoned = false ∧ c.root = true) ∧
    (∃ (s : State) (p : Nat) (k : Nat) (m : Msg) (c : Coll), inEpoch p m k c s ∧ m.poisoned = false ∧ c.root = false) ∧
    (∃ (s : State) (p : Nat) (k : Nat) (m : Msg) (c : Coll), inEpoch p m k c s ∧ m.poisoned = false) ∧
    (∃ (s : State) (p : Nat) (k : Nat) (m : Msg) (c : Coll), inEpoch p m k c s ∧ m.poisoned = false) ∧
    (∃ (s : State), s.power = .on) := by
  refine ⟨⟨up, 17, 0, .coxswain, ?_⟩,
    ⟨port_ .down, 0, 0, .coxswain, ?_⟩,
    ⟨port_ .quarantined, 0, 1, .coxswain, ?_⟩,
    ⟨port_ .training, 0, ?_⟩,
    ⟨port_ .training, 0, ?_⟩,
    ⟨port_ .down, 0, ?_⟩,
    ⟨port_ .attesting, 0, ?_⟩,
    ⟨{ up with ports := [(0, { Port.init with state := .admitted, peer := 1, granted := [(0, 3)] })] }, 0, 0, flitOf 0, ?_⟩,
    ⟨port_ .admitted, 0, frame_ 0, ?_⟩,
    ⟨{ up with ports := [(0, { Port.init with state := .admitted, peer := 1, waiting := [(3, 1, .flit 0 [])] })] }, 0, 3, ?_⟩,
    ⟨{ up with ports := [(0, { Port.init with state := .admitted, peer := 1, txCtr := 2 ^ 31 })] }, 0, ?_⟩,
    ⟨{ up with ports := [(0, { Port.init with state := .admitted, peer := 1, rekeyAt := some 0 })] }, 0, 0, ?_⟩,
    ⟨{ up with ports := [(0, { Port.init with state := .admitted, peer := 1, newRx := [1] })] }, 0, ?_⟩,
    ⟨port_ .attesting, 0, 2, ?_⟩,
    ⟨{ up with ports := [(0, { Port.init with state := .attesting, certs := [(0, []), (1, []), (2, [])] })] }, 0, ?_⟩,
    ⟨{ up with ports := [(0, { Port.init with state := .attesting, peer := 1, ekSent := true })] }, 0, ?_⟩,
    ⟨{ up with ports := [(0, { Port.init with state := .attesting, digest := [1], peer := 1 })], regs := [(0x24C, 1), (portReg 0 0, 0x40)] }, 0, 1, ?_⟩,
    ⟨{ up with ports := [(0, { Port.init with state := .attesting, peer := 1, finSent := true })] }, 0, ?_⟩,
    ⟨port_ .admitted, 0, ?_⟩,
    ⟨{ up with ports := [(0, { Port.init with state := .admitted, peer := 1, ekSent := true })] }, 0, ?_⟩,
    ⟨port_ .admitted, 0, ?_⟩,
    ⟨port_ .admitted, 0, ?_⟩,
    ⟨port_ .admitted, 0, ?_⟩,
    ⟨port_ .admitted, 0, ?_⟩,
    ⟨openS, 0, msg_ 3584 [], ?_⟩,
    ⟨openS, 0, msg_ 2 [1, 2], ?_⟩,
    ⟨{ running with ports := [(0, { Port.init with state := .admitted, peer := 1 })], regs := [(0x02060200, 1)], peers := [⟨7, 0, peerBase, 64, false, 0⟩] }, 0, msg_ 64 (List.replicate 64 0), ⟨7, 0, peerBase, 64, false, 0⟩, ?_⟩,
    ⟨{ with_ { copy with state := .committed } with ports := [(0, { Port.init with state := .admitted, peer := 1 })], regs := [(0x02060200, 1)], peers := [⟨7, 0, peerBase, 64, true, 0⟩] }, 0, msg_ 0 [], ⟨7, 0, peerBase, 64, true, 0⟩, ?_⟩,
    ⟨{ running with ports := [(0, { Port.init with state := .admitted, peer := 1 })], regs := [(0x02060200, 1)], peers := [⟨7, 0, peerBase, 64, false, 0⟩] }, { { running with ports := [(0, { Port.init with state := .admitted, peer := 1 })], regs := [(0x02060200, 1)], peers := [⟨7, 0, peerBase, 64, false, 0⟩] } with peers := [] }, 7, ⟨7, 0, peerBase, 64, false, 0⟩, ?_⟩,
    ⟨{ with_ { copy with state := .committed } with ports := [(0, { Port.init with state := .admitted, peer := 1 })], regs := [(0x02060200, 1)], peers := [⟨7, 0, peerBase, 64, true, 0⟩] }, { { with_ { copy with state := .committed } with ports := [(0, { Port.init with state := .admitted, peer := 1 })], regs := [(0x02060200, 1)], peers := [⟨7, 0, peerBase, 64, true, 0⟩] } with peers := [] }, 7, ⟨7, 0, peerBase, 64, true, 0⟩, ?_⟩,
    ⟨collS ({ Coll.none with parent := 1 }), 0, 0, msg_ 0 [], { Coll.none with parent := 1 }, ?_⟩,
    ⟨collS ({ Coll.none with parent := 1 }), 0, 0, msg_ 0 [], { Coll.none with parent := 1 }, ?_⟩,
    ⟨collS ({ Coll.none with parent := 1 }), 0, 0, msg_ 0 [], { Coll.none with parent := 1 }, ?_⟩,
    ⟨collS ({ Coll.none with parent := 1 }), 0, 0, msg_ 0 [], { Coll.none with parent := 1 }, ?_⟩,
    ⟨collS ({ Coll.none with root := true, children := [1] }), 0, 0, msg_ 0 [], { Coll.none with root := true, children := [1] }, ?_⟩,
    ⟨collS ({ Coll.none with parent := 1 }), 0, 0, msg_ 0 [], { Coll.none with parent := 1 }, ?_⟩,
    ⟨collS ({ Coll.none with parent := 1 }), 0, 0, msg_ 0 [], { Coll.none with parent := 1 }, ?_⟩,
    ⟨collS ({ Coll.none with parent := 1 }), 0, 0, msg_ 0 [], { Coll.none with parent := 1 }, ?_⟩,
    ⟨up, ?_⟩⟩ <;>
  repeat' first | exact canonB_ok (by decide +kernel) | decide +kernel | exact reachesB_ok (by decide +kernel) | exact settledB_ok (by decide +kernel) | exact Or.inl ⟨by decide +kernel, reachesH_ok (by decide +kernel)⟩ | refine And.intro ?_ ?_ | rfl | (intro _ h; cases h; done) | (intro _ _ h; cases h; done) | (intro _ _ _ h; cases h; done) | exact noneWaits_ok rfl | (unfold wellFormed; decide +kernel) | exact ⟨0, by decide +kernel⟩ | exact ⟨1, by decide +kernel⟩ | exact Or.inl ⟨_, rfl⟩ | exact Or.inl (by decide +kernel) | exact Or.inr (by decide +kernel) | constructor

theorem hyps_servicesComplete :
    (∃ (s : State), s.power = .on ∧ s.sched.busy = true ∧ s.sched.op = 1 ∧ s.sched.at_ + s.fld 0x02070090 0 16 + 1 ≤ s.etc) ∧
    (∃ (s : State), s.power = .on ∧ s.locked 25 = true ∧ (s.dev ≠ .starting ∨ 4 < s.start.step)) ∧
    (∃ (s : State) (c : MbCmd), passes 0x11 c s ∧ (s.dev = .running ∨ (s.dev = .quiescing ∧ numAt c.payload 0 4 = 1))) ∧
    (∃ (s : State), s.power = .on ∧ s.dev = .quiescing ∧ s.settled = true) ∧
    (∃ (s : State), s.power = .on ∧ s.cairn.phase = .copying ∧ ((∀ e, e ∈ s.cairn.entries → s.stackRangeBad e.1 e.2.1 = false ∧ s.stackServes e.2.2 = true))) ∧
    (∃ (s : State), s.power = .on ∧ s.cairn.phase = .stopping ∧ s.cairnRunning = []) ∧
    (∃ (s : State), s.power = .on ∧ s.cairn.phase = .draining ∧ s.targetOpen (s.cairn.target s.cairn.takeTarget) = true ∧ ((∀ e, e ∈ s.cairn.entries → s.stackRangeBad e.2.2 e.2.1 = false)) ∧ s.cairn.lossDone = false) ∧
    (∃ (s : State), s.power = .on ∧ s.cairn.lossWait = true ∧ (s.cairn.ctr = 0xFFFF ∨ reached (s.ctr s.cairn.ctr) s.cairn.ctrVal = true) ∧ s.readBad s.cairn.lossDa 4 = false ∧ s.cairn.drained = false) ∧
    (∃ (s : State) (u : State) (g : Nat) (m : Nat) (res : Ending) (host : List Cell) (st : Status), s.power = .on ∧ s.cairn.restoring = some g ∧ m = s.cairn.restoreMb ∧ (st, u) = s.restoreCopy g res host ∧ u.stateMb = some m ∧ (u.mb m).phase = .running) ∧
    (∃ (s : State) (e : Instr) (pv : Word) (armer : Requester) (req : Requester), matching e 5 pv armer req s ∧ lawful 5 pv armer req s) ∧
    (∃ (s : State), s.power = .on) ∧
    (∃ (s : State) (a : Nat), s.power = .on ∧ s.pwr.lowFlowAt = some a ∧ a + 1000001 ≤ s.etc) := by
  refine ⟨⟨{ up with sched := { Sched.init with busy := true, op := 1 } }, ?_⟩,
    ⟨up, ?_⟩,
    ⟨up, cmd_ (leBytes 4 0), ?_⟩,
    ⟨in_ .quiescing, ?_⟩,
    ⟨cairnS .copying, ?_⟩,
    ⟨cairnS .stopping, ?_⟩,
    ⟨cairnS .draining, ?_⟩,
    ⟨{ up with cairn := { cairn_ with lossWait := true, ctr := 0xFFFF, lossDa := 0x3000 } }, ?_⟩,
    ⟨{ up with stateMb := some 0, mbs := [(0, { Mailbox.init with phase := .running })], cairn := { cairn_ with restoring := some 0 } }, (State.restoreCopy { up with stateMb := some 0, mbs := [(0, { Mailbox.init with phase := .running })], cairn := { cairn_ with restoring := some 0 } } 0 .ok []).2, 0, 0, .ok, [], (State.restoreCopy { up with stateMb := some 0, mbs := [(0, { Mailbox.init with phase := .running })], cairn := { cairn_ with restoring := some 0 } } 0 .ok []).1, ?_⟩,
    ⟨gS 5 1 .coxswain, .globalGPortDis (~~~ 1) .coxswain, 1, .coxswain, .coxswain, ?_⟩,
    ⟨up, ?_⟩,
    ⟨{ up with pwr := { Pwr.init with lowFlowAt := some 0 } }, 0, ?_⟩⟩ <;>
  repeat' first | exact canonB_ok (by decide +kernel) | decide +kernel | exact reachesB_ok (by decide +kernel) | exact settledB_ok (by decide +kernel) | exact Or.inl ⟨by decide +kernel, reachesH_ok (by decide +kernel)⟩ | refine And.intro ?_ ?_ | rfl | (intro _ h; cases h; done) | (intro _ _ h; cases h; done) | (intro _ _ _ h; cases h; done) | exact noneWaits_ok rfl | (unfold wellFormed; decide +kernel) | exact ⟨0, by decide +kernel⟩ | exact ⟨1, by decide +kernel⟩ | exact Or.inl ⟨_, rfl⟩ | exact Or.inl (by decide +kernel) | exact Or.inr (by decide +kernel) | constructor
theorem hyps_servicesComplete_1 : ∃ (s : State) (op : Nat) (p : Nat) (req : Requester) (cs : List Nat) (e : Instr), canonical s ∧ reaches s req 0x02070094 ∧ (s.dev = .ready ∨ s.dev = .running) ∧ s.sched.busy = false ∧ mayMove op p cs s ∧ ((op = 1 ∧ e = .reclaim p req) ∨ (op = 2 ∧ e = .schedReturn p req)) :=
  ⟨lentS, 2, 1, .coxswain, [0], .schedReturn 1 .coxswain, by exact ⟨canonB_ok (by decide +kernel), reachesB_ok (by decide +kernel), by decide +kernel, by decide +kernel, ⟨by decide +kernel, by decide +kernel, by decide +kernel, by decide +kernel, by decide +kernel, fun h => by cases h⟩, Or.inr ⟨rfl, rfl⟩⟩⟩

/-! ### Ill-formed commands (Instr.wf) -/

/-- Every command of the list is refused by the well-formedness check. -/
def refused (l : List Instr) : Bool := l.all fun i => !i.wf

theorem test_wf_resetN : refused [.resetN 999 true] = true := by decide
theorem test_wf_island : refused [.islandLockLoss 40, .islandRelock 40, .islandRelockTimeout 40] = true := by decide
theorem test_wf_delayLine : refused [.delayLineRecal 768 .crew 0 true, .delayLineRecal 0 (.scull 16) 0 true] = true := by decide
theorem test_wf_beats : refused [.beatRateWindowEnd 16 0, .beatRateWindowEnd 0 1024] = true := by decide
theorem test_wf_ring : refused [.doorbellWrite 512 0 .coxswain, .ringFetchVisit 512, .descriptorReadComplete 512 .ok [] [], .fenceComplete 512,
    .ringEnable 512 0 .coxswain, .ringDisable 512 0 .coxswain, .cqHeadWrite 512 0 .coxswain, .ringIrqHoldExpiry 512] = true := by decide
theorem test_wf_scull : refused [.taskTake 12288, .taskSteal 12288, .taskResume 12288 0, .scullDmaComplete 12288 0 .ok [] [] 0,
    .taskCommit 12288 true, .accEccUe 12288, .taskHandback 12288, .handbackTimeout 12288, .scullSelfTestDone 12288 true,
    .deadlineExpiry 12288 0, .beOverrun 12288] = true := by decide
theorem test_wf_residue : refused [.residueMismatch 12288 0 0, .residueMismatch 0 8 0] = true := by decide
theorem test_wf_storeEcc : refused [.storeEccUe 12288 0 .staging, .storeEccUe 0 0x80000 (.taskRead 0)] = true := by decide
theorem test_wf_seif : refused [.seifMismatch 768, .seifSelfTestDone 768 true] = true := by decide
theorem test_wf_bow : refused [.bowMismatch 16, .bowSelfTestDone 16 true] = true := by decide
theorem test_wf_kvRing : refused [.kvRingTailWrite 2 0 .coxswain] = true := by decide
theorem test_wf_stack : refused [.wcbEntryTimeout 48 0 [], .wcbFlush 48 .coxswain [], .bandEvaluation 48 0, .stackPowerRemove 48] = true := by decide
theorem test_wf_patrol : refused [.patrolScrubRead 48 (List.replicate 8 .clean), .patrolScrubRead 0 (List.replicate 7 .clean)] = true := by decide
theorem test_wf_scrub : refused [.sramScrub (.scull 12288) 0 .clean, .sramScrub (.crew 768) 0 .clean, .sramScrub (.rigger 4 0) 0 .clean,
    .sramScrub (.rigger 0 256) 0 .clean, .sramScrub (.scull 0) 0 .parity] = true := by decide
theorem test_wf_phyCal : refused [.dunePhyCal 48 0 true, .dunePhyCal 0 128 true] = true := by decide
theorem test_wf_telemetry : refused [.telemetrySample [(1024, 0)]] = true := by decide
theorem test_wf_tier : refused [.tierRegister 0x100000 .coxswain, .tierUnregister 0x100000 .coxswain, .tierLoad 0x100000 .coxswain [],
    .tierPromote 0x100000 .coxswain, .tierEvict 0x100000 .coxswain, .copyInComplete 0x100000 true [], .copyOutComplete 0x100000 true] = true := by decide
theorem test_wf_wake : refused [.wakeRingTailWrite 8 0 0 .coxswain, .wakeOpen 0 2 [], .wakeRun 8 0 [], .wakeClose 0 2, .wakeJobEnd 8 0 0 0 0 .ok,
    .wakeFrameWatchdog 0 2, .wakeFrameDone 8 0 8 0 0 [] [] [] [] [] 0 0 [], .wakeParityFail 8, .wakeSelfTestDone 8 true] = true := by decide
theorem test_wf_port : refused [.portEnable 18 0 .coxswain, .portDisable 18 0 .coxswain, .readmit 18 0 .coxswain, .trainingDone 18 0,
    .trainingTimeout 18, .downRetryExpiry 18, .attestTimeout 18, .rekeyStart 18, .rekeyTimeout 18, .linkstatSend 18] = true := by decide
theorem test_wf_mgmt : refused [.mgmtCert 18 0 0 [], .mgmtKemEk 18 [] [], .mgmtKemCt 18 [] [], .mgmtSign 18 [] 0 0, .mgmtFinish 18 [] true,
    .mgmtRekeyEk 18 [] [], .mgmtRekeyCt 18 [] [], .mgmtRekeyDone 18, .mgmtQuoteReq 18 [], .mgmtQuote 18 [], .mgmtLinkstat 18 0 0] = true := by decide
theorem test_wf_flit : refused [.flitReceive 18 (List.replicate 256 0), .flitReceive 0 (List.replicate 255 0)] = true := by decide +kernel
theorem test_wf_frame : refused [.frameReceive 18 ⟨List.replicate 32 0, [], List.replicate 16 0, 1, true⟩,
    .frameReceive 0 ⟨List.replicate 31 0, [], List.replicate 16 0, 1, true⟩, .frameReceive 0 ⟨List.replicate 32 0, [], [], 1, true⟩] = true := by decide
theorem test_wf_credit : refused [.creditStarvation 18 0, .creditStarvation 0 4] = true := by decide
theorem test_wf_msg : refused [.rdReq 18 (msg_ 0 []), .rdRsp 0 (msg_ 4097 []), .wrReq 0 (msg_ 2 [1]), .wrAck 18 (msg_ 0 []), .collStart 18 (msg_ 0 []),
    .chunkUp 18 (msg_ 0 []), .chunkDown 18 (msg_ 0 []), .ackUp 18 (msg_ 0 []), .collNote 18 (msg_ 0 []), .collFinal 18 (msg_ 0 []),
    .flagUp 18 (msg_ 0 []), .flagDown 18 (msg_ 0 [])] = true := by decide
theorem test_wf_group : refused [.phaseTimerExpiry 256, .memberGuardExpiry 256] = true := by decide
theorem test_wf_part : refused [.reclaim 8 .coxswain, .schedReturn 8 .coxswain] = true := by decide
theorem test_wf_vector : refused [.msixVectorUnmask (some 256)] = true := by decide
theorem test_wf_ide : refused [.ideKeySet 2, .ideIntegrityFail 2] = true := by decide
theorem test_wf_mailbox : refused [.devInfo { cmd_ [] with m := 9 }, .cairnTake { cmd_ [] with m := 9 }, .unknownOpcode { cmd_ [] with m := 9 } 0] = true := by
  decide
theorem test_wf_mailbox_payload : refused [.devStatus (cmd_ (List.replicate 4081 0))] = true := by decide +kernel
theorem test_wf_guard : refused [.guardValueWrite 8 0 .coxswain, .guardPendingTimeout 8] = true := by decide
theorem test_wf_alias : refused [.bitAliasWrite 0x40000 0 0 .coxswain, .bitAliasWrite 2 0 0 .coxswain, .bitAliasWrite 0 32 0 .coxswain] = true := by decide
theorem test_wf_register : refused [.registerWrite 0x4000000 0 0xF .coxswain, .registerWrite 2 0 0xF .coxswain, .w1cClear 1 0 .coxswain,
    .registerAccessTimeout 0x4000000 none .coxswain] = true := by decide
theorem test_wf_power : refused [.powerControlTick { sample_ 48000 with ask := [] }, .powerControlTick { sample_ 48000 with floor := [] },
    .powerControlTick { sample_ 48000 with ergTemp := [] }, .powerControlTick { sample_ 48000 with oasisTemp := [] }] = true := by decide

/-! ### One step on small states -/

/-- A part of the next state. -/
def after {α : Type} (f : State → α) : Host.Outcome State Fault Refusal → Option α
  | .next t => some (f t)
  | _ => none

/-- R437, R440: the complement in the twin commits the pending value. -/
theorem test_guard_commits : after (fun t => (t.guard 1).committed) (exec (.globalGPwrCap 0xFFFFE88F .coxswain) (gS 1 6000 .coxswain)) = some 0x1770 := by
  decide +kernel
/-- R438: any other value in the twin is a mismatch and commits nothing. -/
theorem test_guard_mismatch : after (fun t => ((t.guard 1).committed, (t.guard 1).pending)) (exec (.globalGPwrCap 6000 .coxswain) (gS 1 6000 .coxswain)) =
    some (20000, none) := by decide +kernel
/-- R357: the enable bit takes a DISABLED port to TRAINING. -/
theorem test_port_enable : after (fun t => (t.port 17).state) (exec (.portEnable 17 1 .coxswain) up) = some .training := by decide +kernel
/-- R357: 20 ms without training take it to DOWN. -/
theorem test_training_timeout : after (fun t => (t.port 0).state) (exec (.trainingTimeout 0) (port_ .training)) = some .down := by decide +kernel
/-- R406: a tail further ahead of the head than the ring has slots changes nothing. -/
theorem test_doorbell_refused : after (fun t => (t.ring 0).tail) (exec (.doorbellWrite 0 17 .coxswain) up) = some 0 := by decide +kernel
theorem test_doorbell_taken : after (fun t => (t.ring 0).tail) (exec (.doorbellWrite 0 16 .coxswain) up) = some 16 := by decide +kernel
/-- R299, R300: at 100 °C a stack enters band 5 and stops. -/
theorem test_band5 : after (fun t => ((t.dune 0).band, (t.dune 0).state)) (exec (.bandEvaluation 0 100) up) = some (5, .stopped) := by decide +kernel
/-- R419, R420: an opcode that the table lacks is BAD_ARGUMENT and leaves the mailbox DONE. -/
theorem test_unknown_opcode : after (fun t => ((t.mb 0).phase, (t.mb 0).lastStatus)) (exec (.unknownOpcode (cmd_ []) 0) up) = some (.done, 3) := by
  decide +kernel
/-- R123: the head of the crew's queue runs on the scull that takes it. -/
theorem test_task_take : after (fun t => ((t.scull 5).task, (t.task 0).state, (t.crew 0).queue)) (exec (.taskTake 5) (queued_ copy)) =
    some (some 0, .running, []) := by decide +kernel
/-- R444: a bit alias changes one bit. -/
theorem test_alias : after (fun t => t.reg 0x24C) (exec (.bitAliasWrite 0x24C 0 1 .coxswain) (in_ .ready)) = some 1 := by decide +kernel
/-- R519: one second of low flow switches the input off 2 ms later. -/
theorem test_low_flow : after (fun t => t.pwr.offAt) (exec .lowFlowSwitchOff { up with pwr := { Pwr.init with lowFlowAt := some 0 } }) = some (some 5002000) := by
  decide +kernel
/-- R446: an empty queue lets the block's clock tick by one microsecond. -/
theorem test_idle_tick : after (fun t => t.etc) (step up) = some 5000001 := by decide +kernel
/-- The front command runs and leaves the queue. -/
theorem test_front : after (fun t => (t.pending, (t.port 1).state)) (step { up with pending := [.portEnable 1 1 .coxswain, .signal 3] }) =
    some ([.signal 3], .training) := by decide +kernel

/-- SHAKE256 of nothing (FIPS 202). -/
theorem test_shake256 : shake256 [] 4 = [0x46, 0xB9, 0xDD, 0x2B] := by decide +kernel
end Sys2Proof.Tests
end

/-! ## Every command ends within its footprint (O54) -/

namespace Sys2Proof.Machine

open Sys2Proof.Laws Sys2Proof.Safety

/-- Every command answers a next state and changes only its footprint, by the frame law of its own meaning. -/
theorem exec_ends (i : Instr) (s : State) : Ends (footprint i) s (exec i s) :=
  match i with
  | .powerApplied => execPowerApplied_ends
  | .resetN _ _ => execResetN_ends
  | .inputSwitchOff => execInputSwitchOff_ends
  | .powerRestore => execPowerRestore_ends
  | .startDelayExpiry _ => execStartDelayExpiry_ends
  | .startStepComplete _ => execStartStepComplete_ends
  | .startStepTimeout => execStartStepTimeout_ends
  | .startRetry => execStartRetry_ends
  | .lockstepMismatch => execLockstepMismatch_ends
  | .coxWatchdogExpiry => execCoxWatchdogExpiry_ends
  | .entropyHealthFail => execEntropyHealthFail_ends
  | .islandLockLoss _ => execIslandLockLoss_ends
  | .islandRelock _ => execIslandRelock_ends
  | .islandRelockTimeout _ => execIslandRelockTimeout_ends
  | .delayLineRecal _ _ _ _ => execDelayLineRecal_ends
  | .beatRateWindowEnd _ _ => execBeatRateWindowEnd_ends
  | .doorbellWrite _ _ _ => execDoorbellWrite_ends
  | .ringFetchVisit _ => execRingFetchVisit_ends
  | .descriptorReadComplete _ _ _ _ => execDescriptorReadComplete_ends
  | .taskTake _ => execTaskTake_ends
  | .taskSteal _ => execTaskSteal_ends
  | .taskResume _ _ => execTaskResume_ends
  | .scullDmaComplete _ _ _ _ _ _ => execScullDmaComplete_ends
  | .taskCommit _ _ => execTaskCommit_ends
  | .taskDone _ => execTaskDone_ends
  | .residueMismatch _ _ _ => execResidueMismatch_ends
  | .accEccUe _ => execAccEccUe_ends
  | .storeEccUe _ _ _ => execStoreEccUe_ends
  | .taskHandback _ => execTaskHandback_ends
  | .handbackTimeout _ => execHandbackTimeout_ends
  | .scullSelfTestDone _ _ => execScullSelfTestDone_ends
  | .seifMismatch _ => execSeifMismatch_ends
  | .seifSelfTestDone _ _ => execSeifSelfTestDone_ends
  | .bowMismatch _ => execBowMismatch_ends
  | .bowSelfTestDone _ _ => execBowSelfTestDone_ends
  | .fenceComplete _ => execFenceComplete_ends
  | .signal _ => execSignal_ends
  | .walkerEntryRead _ _ => execWalkerEntryRead_ends
  | .seifPageSuspend _ => execSeifPageSuspend_ends
  | .swapinServeComplete _ _ => execSwapinServeComplete_ends
  | .kvRingTailWrite _ _ _ => execKvRingTailWrite_ends
  | .lowpEvalStart _ => execLowpEvalStart_ends
  | .lowpEvalComplete => execLowpEvalComplete_ends
  | .wcbEntryTimeout _ _ _ => execWcbEntryTimeout_ends
  | .wcbFlush _ _ _ => execWcbFlush_ends
  | .patrolScrubRead _ _ => execPatrolScrubRead_ends
  | .bandEvaluation _ _ => execBandEvaluation_ends
  | .stackPowerRemove _ => execStackPowerRemove_ends
  | .sramScrub _ _ _ => execSramScrub_ends
  | .dunePhyCal _ _ _ => execDunePhyCal_ends
  | .flashPatrol page corrected readable => @execFlashPatrol_ends page corrected readable s
  | .wearLevelling block count least => @execWearLevelling_ends block count least s
  | .telemetrySample _ => execTelemetrySample_ends
  | .tierRegister _ _ => execTierRegister_ends
  | .tierUnregister _ _ => execTierUnregister_ends
  | .tierLoad _ _ _ => execTierLoad_ends
  | .tierFlush _ => execTierFlush_ends
  | .tierPromote _ _ => execTierPromote_ends
  | .tierEvict _ _ => execTierEvict_ends
  | .copyInComplete _ _ _ => execCopyInComplete_ends
  | .copyOutComplete _ _ => execCopyOutComplete_ends
  | .heatDecay => execHeatDecay_ends
  | .deadlineExpiry _ _ => execDeadlineExpiry_ends
  | .wakeRingTailWrite _ _ _ _ => execWakeRingTailWrite_ends
  | .wakeOpen _ _ _ => execWakeOpen_ends
  | .wakeRun _ _ _ => execWakeRun_ends
  | .wakeClose _ _ => execWakeClose_ends
  | .wakeFrameDone _ _ _ _ _ _ _ _ _ _ _ _ _ => execWakeFrameDone_ends
  | .wakeJobEnd _ _ _ _ _ _ => execWakeJobEnd_ends
  | .wakeFrameWatchdog _ _ => execWakeFrameWatchdog_ends
  | .wakeParityFail _ => execWakeParityFail_ends
  | .wakeSelfTestDone _ _ => execWakeSelfTestDone_ends
  | .portEnable _ _ _ => execPortEnable_ends
  | .portDisable _ _ _ => execPortDisable_ends
  | .readmit _ _ _ => execReadmit_ends
  | .trainingDone _ _ => execTrainingDone_ends
  | .trainingTimeout _ => execTrainingTimeout_ends
  | .downRetryExpiry _ => execDownRetryExpiry_ends
  | .attestTimeout _ => execAttestTimeout_ends
  | .flitReceive _ _ => execFlitReceive_ends
  | .frameReceive _ _ => execFrameReceive_ends
  | .creditStarvation _ _ => execCreditStarvation_ends
  | .rekeyStart _ => execRekeyStart_ends
  | .rekeyTimeout _ => execRekeyTimeout_ends
  | .mgmtCert _ _ _ _ => execMgmtCert_ends
  | .mgmtKemEk _ _ _ => execMgmtKemEk_ends
  | .mgmtKemCt _ _ _ => execMgmtKemCt_ends
  | .mgmtSign p sig sender port => @execMgmtSign_ends p sig sender port s
  | .mgmtFinish _ _ _ => execMgmtFinish_ends
  | .mgmtRekeyEk _ _ _ => execMgmtRekeyEk_ends
  | .mgmtRekeyCt _ _ _ => execMgmtRekeyCt_ends
  | .mgmtRekeyDone _ => execMgmtRekeyDone_ends
  | .mgmtQuoteReq _ _ => execMgmtQuoteReq_ends
  | .mgmtQuote p quote => @execMgmtQuote_ends p quote s
  | .mgmtLinkstat p retry err => @execMgmtLinkstat_ends p retry err s
  | .linkstatSend _ => execLinkstatSend_ends
  | .rdReq _ _ => execRdReq_ends
  | .rdRsp _ _ => execRdRsp_ends
  | .wrReq _ _ => execWrReq_ends
  | .wrAck _ _ => execWrAck_ends
  | .peerTimeout _ => execPeerTimeout_ends
  | .collStart _ _ => execCollStart_ends
  | .chunkUp _ _ => execChunkUp_ends
  | .chunkDown _ _ => execChunkDown_ends
  | .ackUp _ _ => execAckUp_ends
  | .collNote _ _ => execCollNote_ends
  | .collFinal _ _ => execCollFinal_ends
  | .flagUp _ _ => execFlagUp_ends
  | .flagDown _ _ => execFlagDown_ends
  | .phaseTimerExpiry _ => execPhaseTimerExpiry_ends
  | .memberGuardExpiry _ => execMemberGuardExpiry_ends
  | .reclaim _ _ => execReclaim_ends
  | .schedReturn _ _ => execSchedReturn_ends
  | .drainLimitExpiry => execDrainLimitExpiry_ends
  | .beOverrun _ => execBeOverrun_ends
  | .ringEnable _ _ _ => execRingEnable_ends
  | .ringDisable _ _ _ => execRingDisable_ends
  | .cqHeadWrite _ _ _ => execCqHeadWrite_ends
  | .ringIrqHoldExpiry _ => execRingIrqHoldExpiry_ends
  | .msixVectorUnmask _ => execMsixVectorUnmask_ends
  | .linkRetrain _ _ _ => execLinkRetrain_ends
  | .bar2Access _ _ _ => execBar2Access_ends
  | .cxlMemRequest _ _ _ => execCxlMemRequest_ends
  | .spdmRequest _ => execSpdmRequest_ends
  | .ideKeySet _ => execIdeKeySet_ends
  | .ideIntegrityFail _ => execIdeIntegrityFail_ends
  | .devInfo _ => execDevInfo_ends
  | .devStatus _ => execDevStatus_ends
  | .capRead _ => execCapRead_ends
  | .devRun _ => execDevRun_ends
  | .devQuiesce _ => execDevQuiesce_ends
  | .quiesceComplete => execQuiesceComplete_ends
  | .devConfig _ => execDevConfig_ends
  | .devRestart _ => execDevRestart_ends
  | .pwrGet _ => execPwrGet_ends
  | .pwrCapSet _ _ => execPwrCapSet_ends
  | .logInfo _ => execLogInfo_ends
  | .logRead _ => execLogRead_ends
  | .sensorRead _ => execSensorRead_ends
  | .fwInfo _ => execFwInfo_ends
  | .fwStage _ => execFwStage_ends
  | .fwActivate _ => execFwActivate_ends
  | .attestQuote _ => execAttestQuote_ends
  | .certRead _ => execCertRead_ends
  | .lcTransition _ => execLcTransition_ends
  | .cairnRegister _ _ => execCairnRegister_ends
  | .cairnTake _ => execCairnTake_ends
  | .cairnRestore _ => execCairnRestore_ends
  | .cairnStatus _ => execCairnStatus_ends
  | .cairnDrainUsExpiry => execCairnDrainUsExpiry_ends
  | .cairnStopDrained => execCairnStopDrained_ends
  | .cairnCopyComplete => execCairnCopyComplete_ends
  | .cairnDrainComplete _ => execCairnDrainComplete_ends
  | .cairnLossReady => execCairnLossReady_ends
  | .cairnReplayVerdict => execCairnReplayVerdict_ends
  | .guardValueWrite _ _ _ => execGuardValueWrite_ends
  | .guardPendingTimeout _ => execGuardPendingTimeout_ends
  | .globalGReset _ _ => execGlobalGReset_ends
  | .globalGPwrCap _ _ => execGlobalGPwrCap_ends
  | .globalGVlimit _ _ => execGlobalGVlimit_ends
  | .globalGRemapRow _ _ => execGlobalGRemapRow_ends
  | .globalGRemapCh _ _ => execGlobalGRemapCh_ends
  | .globalGPortDis _ _ => execGlobalGPortDis_ends
  | .globalGFuse _ _ => execGlobalGFuse_ends
  | .globalApply _ _ => execGlobalApply_ends
  | .globalSnap _ _ => execGlobalSnap_ends
  | .bitAliasWrite _ _ _ _ => execBitAliasWrite_ends
  | .w1cClear _ _ _ => execW1cClear_ends
  | .registerWrite _ _ _ _ => execRegisterWrite_ends
  | .registerAccessTimeout _ _ _ => execRegisterAccessTimeout_ends
  | .powerControlTick _ => execPowerControlTick_ends
  | .flowLimitEval _ => execFlowLimitEval_ends
  | .lowFlowSwitchOff => execLowFlowSwitchOff_ends
  | .thermalPowerRemove => execThermalPowerRemove_ends
  | .logPersist => execLogPersist_ends
  | .suppressionWindowClose _ => execSuppressionWindowClose_ends
  | .unknownOpcode _ _ => execUnknownOpcode_ends
  | .tierCmdComplete _ => execTierCmdComplete_ends
  | .cairnRestoreCopyComplete _ _ => execCairnRestoreCopyComplete_ends

/-- Settles O54: the frame law of the command gives the next state and the parts it may change. -/
theorem everyCommandCompletes : Obligations.EveryCommandCompletes := by
  unfold Obligations.EveryCommandCompletes
  intro i s
  obtain ⟨t, ht, hmoves⟩ := exec_ends i s
  exact ⟨t, ht, hmoves.frame⟩

end Sys2Proof.Machine

/-! ## The register table, evaluated

Facts about single rows, or about every row, of the register table. Each waits for the kernel to evaluate the table; elaborated at
once, the waiting proofs would hold a thread each. -/

namespace Sys2Proof.Machine

set_option Elab.async false

open Sys2Proof.Laws Sys2Proof.Safety

theorem resetAt_guardCount : resetAt 0x114 = 0 := by decide +kernel

theorem resetAt_regTo : resetAt 0x118 = 0 := by decide +kernel

theorem resetAt_hostIde : resetAt 0x00200004 = 0 := by decide +kernel

theorem regName_tierDecay : regName 0x02030030 = "TIER_DECAY" := by decide +kernel

theorem regName_tierLow : regName 0x02030034 = "TIER_LOW" := by decide +kernel

theorem regName_schedCmd : regName 0x02070094 = "SCHED_CMD" := by decide +kernel

theorem portReg_place : ∀ p, p < 18 → regName (portReg p 0) = "SWEEP_PORT_CTRL" ∧ portAt (portReg p 0) = some p ∧
    portReg p 0 % 4 = 0 ∧ 0x600000 ≤ portReg p 0 ∧ portReg p 0 < 0x03800000 := by decide +kernel

theorem regDef_strobes : (regDef 0x100).isSome = true ∧ (regDef 0x104).isSome = true := by decide +kernel

/-- No field is both written and cleared by a write. -/
theorem writable_and_clearable_of_mem : ∀ d ∈ regTable, d.writable &&& d.clearable = 0 := by decide +kernel

/-- The bits of RW and RS fields are writable, the bits of W1C fields clearable. -/
theorem bit_of_bitAcc_of_mem : ∀ d ∈ regTable, ∀ b, b < 32 →
    (d.bitAcc b = some .rw ∨ d.bitAcc b = some .rs → d.writable.getLsbD b = true) ∧
      (d.bitAcc b = some .w1c → d.clearable.getLsbD b = true) := by decide +kernel

end Sys2Proof.Machine

/-! ## Registers, for every state

What a counter shows after it was counted up, in a state whose tables need not be canonical; and the footprint of a register
that counts no lost records. -/

namespace Sys2Proof.Machine

open Sys2Proof.Laws Sys2Proof.Safety

/-- A value that the table must list is read back, whatever the table's order. -/
theorem Tab.get_put_of_ne_default {α : Type} [DecidableEq α] (d : α) (t : Tab α) (k : Nat) (v : α) (h : v ≠ d) :
    Tab.get d (Tab.put d t k v) k = v := by
  induction t with
  | nil => simp [Tab.put, Tab.get, h]
  | cons e r ih =>
    obtain ⟨k', v'⟩ := e
    unfold Tab.put
    split
    · simp [Tab.get]
    · split
      · simp [Tab.get]
      · rename_i hk
        simp [Tab.get, Ne.symm hk, ih]

theorem State.reg_setReg_of_ne_reset (s : State) (off : Nat) (v : Word) (h : v ≠ resetAt off) :
    (s.setReg off v).reg off = v :=
  Tab.get_put_of_ne_default _ _ _ _ h

/-- A saturating counter of a register that resets to 0: once counted, the word is not 0, so the table lists it. -/
theorem State.fld_bump_of_reset_zero (s : State) (off lo n : Nat) (hr : resetAt off = 0) (hn : 0 < n) (h : lo + n ≤ 32) :
    (s.bump off lo n).fld off lo n = min (s.fld off lo n + 1) (2 ^ n - 1) := by
  have hpow : 2 ≤ 2 ^ n := Nat.le_self_pow hn.ne' 2
  have hset : bits (setBits (s.reg off) lo n (min (s.fld off lo n + 1) (2 ^ n - 1))) lo n =
      min (s.fld off lo n + 1) (2 ^ n - 1) := by
    rw [bits_setBits _ _ _ _ h, Nat.mod_eq_of_lt (by omega)]
  have hne : setBits (s.reg off) lo n (min (s.fld off lo n + 1) (2 ^ n - 1)) ≠ resetAt off := by
    intro he
    rw [he, hr] at hset
    simp [bits] at hset
    omega
  unfold State.bump State.bumpBy State.setFld
  rw [State.fld, State.reg_setReg_of_ne_reset _ _ _ hne, hset]

theorem State.reg_bump_of_ne (s : State) (off lo n j : Nat) (h : off ≠ j) : (s.bump off lo n).reg j = s.reg j :=
  State.reg_bumpBy_of_ne _ _ _ _ _ _ h

/-- A register other than the two that count lost records is one of the part `regs`. -/
theorem State.setReg_moves_regs {s : State} {off : Nat} {v : Word} (h1 : off ≠ 0x264) (h2 : off ≠ 0x278) :
    Moves [.regs] s (s.setReg off v) := by
  refine ⟨fun p hp => ?_, State.setReg_moves.keeps, State.setReg_moves.fused⟩
  by_cases hl : p = .lossCounts
  · subst hl
    exact ⟨State.reg_setReg_of_ne _ _ _ _ h1, State.reg_setReg_of_ne _ _ _ _ h2⟩
  · exact State.setReg_moves.frame p (by simp_all)

theorem State.bump_moves_regs {s : State} {off lo n : Nat} (h1 : off ≠ 0x264) (h2 : off ≠ 0x278) :
    Moves [.regs] s (s.bump off lo n) :=
  State.setReg_moves_regs h1 h2

/-- What leaves the part `regs` alone leaves every register but the two that count lost records. -/
theorem reg_eq_of_moves {ps : List Part} {s t : State} (m : Moves ps s t) (hp : Part.regs ∉ ps) {r : Nat} (h1 : r ≠ 0x264)
    (h2 : r ≠ 0x278) : t.reg r = s.reg r :=
  m.frame .regs hp r h1 h2

/-! ## What an access that is discarded, refused or not answered leaves behind -/

/-- An access that does not match a register is counted, and nothing else happens (R433). -/
theorem State.unmapped_counts (s : State) :
    s.unmapped.fld 0x118 16 16 = min (s.fld 0x118 16 16 + 1) 0xFFFF ∧ (∀ r, r ≠ 0x118 → s.unmapped.reg r = s.reg r) ∧
      Moves [.regs] s s.unmapped :=
  ⟨State.fld_bump_of_reset_zero _ _ _ _ resetAt_regTo (by decide) (by decide),
    fun _ hr => State.reg_bump_of_ne _ _ _ _ _ hr.symm, State.bump_moves_regs (by decide) (by decide)⟩

theorem State.logRefused_recorded (s : State) (req : Requester) (off : Nat) (st : Status) (held tried : Word) :
    recorded (s.logRefused req off st held tried) (originOf req).1 (originOf req).2 1 evRegWrite st [w32 off, held, tried] :=
  State.emit_recorded _ _ _ _ _ _ _

theorem State.logRefused_refusedWrite (s : State) (req : Requester) (off : Nat) (st : Status) (held tried : Word) :
    refusedWrite req off st held tried s (s.logRefused req off st held tried) :=
  ⟨s.logRefused_recorded req off st held tried, State.logRefused_moves.frame⟩

/-- A count of GLOBAL_REG_TO (R433, R434, R436) that is logged as a refusal with it. -/
theorem State.bump_logRefused_counts (s : State) (lo : Nat) (hlo : lo = 0 ∨ lo = 16) (req : Requester) (off : Nat) (st : Status)
    (held tried : Word) {t : State} (ht : t = (s.bump 0x118 lo 16).logRefused req off st held tried) :
    t.fld 0x118 lo 16 = min (s.fld 0x118 lo 16 + 1) 0xFFFF ∧
      recorded t (originOf req).1 (originOf req).2 1 evRegWrite st [w32 off, held, tried] ∧
      (∀ r, r ≠ 0x118 → r ≠ 0x264 → r ≠ 0x278 → t.reg r = s.reg r) ∧ changesOnly (logged [.regs]) s t := by
  subst ht
  refine ⟨?_, State.logRefused_recorded _ _ _ _ _ _, fun r hr h1 h2 => ?_, ?_⟩
  · rw [State.fld, State.logRefused_reg _ _ _ _ _ _ _ (by decide) (by decide)]
    exact State.fld_bump_of_reset_zero _ _ _ _ resetAt_regTo (by decide) (by omega)
  · rw [State.logRefused_reg _ _ _ _ _ _ _ h1 h2, State.reg_bump_of_ne _ _ _ _ _ hr.symm]
  · exact (((State.bump_moves_regs (by decide) (by decide)).mono (by decide)).via State.logRefused_moves (by decide)).frame

/-! ## Who reaches a register (R7, R400, R436) -/

/-- No power, or no link for the host: a request goes nowhere. -/
theorem State.reach_of_power_off {s : State} (h : s.power ≠ .on) (req : Requester) (go : State → State) : s.reach req go = s := by
  unfold State.reach
  rw [if_pos h]

theorem State.reach_of_link_down {s : State} {id : BitVec 16} (h : s.host.rate = 0 ∨ s.locked 25 = false) (go : State → State) :
    s.reach (.host id) go = s := by
  unfold State.reach
  simp [h]

/-- A request of the host without its required streams is counted (R400). -/
theorem State.reach_of_ide_closed {s : State} {id : BitVec 16} (hp : s.power = .on) (hr : s.host.rate ≠ 0)
    (hl : s.locked 25 = true) (hi : s.ideOpen = false) (go : State → State) :
    s.reach (.host id) go = s.bump 0x00200004 16 16 := by
  unfold State.reach
  simp [hp, hr, hl, hi]

/-- Who has power, and for the host a link with its streams, arrives. -/
theorem State.reach_of_open {s : State} {req : Requester} (hp : s.power = .on)
    (hh : ∀ id, req = .host id → s.host.rate ≠ 0 ∧ s.locked 25 = true ∧ s.ideOpen = true) (go : State → State) :
    s.reach req go = go s := by
  unfold State.reach
  cases req with
  | host id =>
    obtain ⟨hr, hl, hi⟩ := hh id rfl
    simp [hp, hr, hl, hi]
  | _ => simp [hp]

theorem State.onReg_of_reaches {s : State} {req : Requester} {off : Nat} (h : reaches s req off) (v : Word)
    (go : State → State) : s.onReg req off v go = go s := by
  obtain ⟨hp, ha, hans, hh⟩ := h
  unfold State.onReg
  rw [State.reach_of_open hp hh]
  simp [ha, hans]

theorem State.onReg_of_absent {s : State} {req : Requester} {off : Nat} (hp : s.power = .on)
    (hh : ∀ id, req = .host id → s.host.rate ≠ 0 ∧ s.locked 25 = true ∧ s.ideOpen = true) (ha : s.absentAt off = true) (v : Word)
    (go : State → State) : s.onReg req off v go = s := by
  unfold State.onReg
  rw [State.reach_of_open hp hh]
  simp [ha]

theorem State.onReg_of_silent {s : State} {req : Requester} {off : Nat} (hp : s.power = .on)
    (hh : ∀ id, req = .host id → s.host.rate ≠ 0 ∧ s.locked 25 = true ∧ s.ideOpen = true) (ha : s.absentAt off = false)
    (hs : s.answers off = false) (v : Word) (go : State → State) : s.onReg req off v go = s.regTimeout req off v := by
  unfold State.onReg
  rw [State.reach_of_open hp hh]
  simp [ha, hs]

/-! ## Writes that do not reach their register -/

/-- Every command that is a write of one register is that register's write on the bus. -/
theorem exec_busRow {c : Instr} {req : Requester} {off : Nat} {v : Word} (h : busRow c = some (req, off, v)) (s : State) :
    ∃ go, exec c s = .next (s.onReg req off v go) := by
  cases c <;> simp only [busRow, Option.some.injEq, Prod.mk.injEq, reduceCtorEq] at h <;> obtain ⟨rfl, rfl, rfl⟩ := h
  case tierFlush =>
    simp only [exec, execTierFlush, State.tierFlush, State.tierCmd]
    exact ⟨_, rfl⟩
  all_goals exact ⟨_, rfl⟩

theorem writesThatDoNotReach : WritesThatDoNotReach := by
  intro s c req off v _ hrow
  obtain ⟨go, hexec⟩ := exec_busRow hrow s
  rw [hexec]
  refine ⟨fun hp => ?_, ?_, ?_, fun hp hh => ⟨fun ha => ?_, fun ha hs => ?_⟩⟩
  · rw [State.onReg, State.reach_of_power_off hp]
  · rintro id rfl hlink
    rw [State.onReg, State.reach_of_link_down hlink]
  · rintro id rfl hp hr hl hi
    rw [State.onReg, State.reach_of_ide_closed hp hr hl hi]
    exact ⟨_, rfl, State.fld_bump_of_reset_zero _ _ _ _ resetAt_hostIde (by decide) (by decide),
      fun r hr => State.reg_bump_of_ne _ _ _ _ _ hr.symm, (State.bump_moves_regs (by decide) (by decide)).frame⟩
  · rw [State.onReg_of_absent hp hh ha]
  · rw [State.onReg_of_silent hp hh ha hs]
    exact ⟨_, rfl, State.bump_logRefused_counts s 0 (.inl rfl) req off .internal 0 v rfl⟩

end Sys2Proof.Machine

/-! ## The words of a register: what a write makes of its fields -/

namespace Sys2Proof.Machine

open Sys2Proof.Laws Sys2Proof.Safety

theorem mem_regTable_of_regDef {off : Nat} {d : RegDef} (h : regDef off = some d) : d ∈ regTable :=
  List.mem_of_find?_eq_some h

theorem writable_and_clearable {off : Nat} {d : RegDef} (h : regDef off = some d) : d.writable &&& d.clearable = 0 :=
  writable_and_clearable_of_mem d (mem_regTable_of_regDef h)

theorem bit_of_bitAcc {off b : Nat} {d : RegDef} (h : regDef off = some d) (hb : b < 32) :
    (d.bitAcc b = some .rw ∨ d.bitAcc b = some .rs → d.writable.getLsbD b = true) ∧
      (d.bitAcc b = some .w1c → d.clearable.getLsbD b = true) :=
  bit_of_bitAcc_of_mem d (mem_regTable_of_regDef h) b hb

/-- The same for one bit. -/
theorem clearable_getLsbD {off i : Nat} {d : RegDef} (h : regDef off = some d) (hw : d.writable.getLsbD i = true) :
    d.clearable.getLsbD i = false := by
  have hbit := congrArg (BitVec.getLsbD · i) (writable_and_clearable h)
  simpa [hw] using hbit

theorem RegDef.getLsbD_after (d : RegDef) (old v : Word) (i : Nat) (hi : i < 32) :
    (d.after old v).getLsbD i =
      ((if d.writable.getLsbD i then v.getLsbD i else old.getLsbD i) && !(v.getLsbD i && d.clearable.getLsbD i)) := by
  simp only [RegDef.after, BitVec.getLsbD_and, BitVec.getLsbD_or, BitVec.getLsbD_not, hi, decide_true, Bool.true_and]
  cases d.writable.getLsbD i <;> simp

/-- A write clears the flags written 1 and keeps the others (R16). -/
theorem after_and_clearable {off : Nat} {d : RegDef} (h : regDef off = some d) (old v : Word) :
    d.after old v &&& d.clearable = old &&& ~~~ v &&& d.clearable := by
  refine BitVec.eq_of_getLsbD_eq fun i hi => ?_
  have hdis := clearable_getLsbD (i := i) h
  simp only [BitVec.getLsbD_and, BitVec.getLsbD_not, RegDef.getLsbD_after _ _ _ _ hi, hi, decide_true, Bool.true_and]
  cases hw : d.writable.getLsbD i with
  | true => simp [hdis hw]
  | false => cases d.clearable.getLsbD i <;> simp

/-- A write puts its value into the RW and RS fields (R8). -/
theorem after_and_writable {off : Nat} {d : RegDef} (h : regDef off = some d) (old v : Word) :
    d.after old v &&& d.writable = v &&& d.writable := by
  refine BitVec.eq_of_getLsbD_eq fun i hi => ?_
  have hdis := clearable_getLsbD (i := i) h
  simp only [BitVec.getLsbD_and, RegDef.getLsbD_after _ _ _ _ hi]
  cases hw : d.writable.getLsbD i with
  | true => simp [hdis hw]
  | false => simp

/-- A write keeps every other field (R9). -/
theorem after_and_rest (d : RegDef) (old v : Word) :
    d.after old v &&& ~~~ d.writable &&& ~~~ d.clearable = old &&& ~~~ d.writable &&& ~~~ d.clearable := by
  refine BitVec.eq_of_getLsbD_eq fun i hi => ?_
  simp only [BitVec.getLsbD_and, BitVec.getLsbD_not, RegDef.getLsbD_after _ _ _ _ hi, hi, decide_true, Bool.true_and]
  cases d.writable.getLsbD i <;> cases d.clearable.getLsbD i <;> simp

/-- The word that a write is logged with is the old one just when no RW or RS field changes. -/
theorem logged_eq_old_iff (old v w : Word) : old = (old &&& ~~~ w) ||| (v &&& w) ↔ old &&& w = v &&& w := by
  constructor
  · intro h
    rw [h]
    refine BitVec.eq_of_getLsbD_eq fun i hi => ?_
    simp only [BitVec.getLsbD_and, BitVec.getLsbD_or, BitVec.getLsbD_not, hi, decide_true, Bool.true_and]
    cases w.getLsbD i <;> simp
  · intro h
    rw [← h]
    refine BitVec.eq_of_getLsbD_eq fun i hi => ?_
    simp only [BitVec.getLsbD_and, BitVec.getLsbD_or, BitVec.getLsbD_not, hi, decide_true, Bool.true_and]
    cases w.getLsbD i <;> simp

/-! ## A plain write -/

/-- The device state does not hold back a write that is legal in it. -/
theorem not_held_back {d : RegDef} {s : State} (h : d.ready = false ∨ s.dev = .ready) : ¬ (d.ready = true ∧ s.dev ≠ .ready) := by
  rintro ⟨h1, h2⟩
  rcases h with h | h
  · simp [h] at h1
  · exact h2 h

theorem State.checked_of_accepts {s : State} {off : Nat} {d : RegDef} {v : Word} (hd : regDef off = some d)
    (h : accepts off d v s) (req : Requester) (go : State → State) : s.checked req off v go = go s := by
  obtain ⟨hflash, hready, hrange⟩ := h
  simp [State.checked, hd, hflash, not_held_back hready, hrange]

theorem State.writePlain_of_accepts {s : State} {off : Nat} {d : RegDef} {v : Word} (hd : regDef off = some d)
    (h : accepts off d v s) (req : Requester) :
    s.writePlain req off v =
      s.takeReg req off (s.reg off) (d.after (s.reg off) v) ((s.reg off &&& ~~~ d.writable) ||| (v &&& d.writable)) := by
  rw [State.writePlain, State.checked_of_accepts hd h]
  simp [hd]

theorem State.checked_of_flash {s : State} {off : Nat} {d : RegDef} {v : Word} (hd : regDef off = some d)
    (h : s.namesFlash off v = true) (req : Requester) (go : State → State) :
    s.checked req off v go = s.logRefused req off .unitAbsent (s.reg off) v := by
  simp [State.checked, hd, h]

theorem State.checked_of_not_ready {s : State} {off : Nat} {d : RegDef} {v : Word} (hd : regDef off = some d)
    (hf : s.namesFlash off v = false) (h1 : d.ready = true) (h2 : s.dev ≠ .ready) (req : Requester) (go : State → State) :
    s.checked req off v go = s.logRefused req off .stateInvalid (s.reg off) v := by
  simp [State.checked, hd, hf, h1, h2]

theorem State.checked_of_rangeBad {s : State} {off : Nat} {d : RegDef} {v : Word} (hd : regDef off = some d)
    (hf : s.namesFlash off v = false) (hr : d.ready = false ∨ s.dev = .ready) (hb : s.rangeBad off (d.after (s.reg off) v) = true)
    (req : Requester) (go : State → State) :
    s.checked req off v go = s.unmapped.logRefused req off .badArgument (s.reg off) v := by
  simp [State.checked, hd, hf, not_held_back hr, hb]

/-- What an accepted write makes of the state (R8, R16, R491). -/
theorem State.takeReg_takes {s : State} (hc : canonical s) {off : Nat} (h1 : off ≠ 0x264) (h2 : off ≠ 0x278) (req : Requester)
    (old new lg : Word) :
    (s.takeReg req off old new lg).reg off = new ∧
      (old ≠ lg → recorded (s.takeReg req off old new lg) (originOf req).1 (originOf req).2 0 evRegWrite .ok [w32 off, old, lg]) ∧
      (old = lg → Moves [.regs] s (s.takeReg req off old new lg)) ∧
      (∀ r, r ≠ off → r ≠ 0x264 → r ≠ 0x278 → (s.takeReg req off old new lg).reg r = s.reg r) ∧
      (old = lg → ∀ r, r ≠ off → (s.takeReg req off old new lg).reg r = s.reg r) := by
  refine ⟨?_, fun h => ?_, fun h => ?_, fun r hr h1 h2 => ?_, fun h r hr => ?_⟩
  · rw [State.takeReg, State.logWrite_reg _ _ _ _ _ _ h1 h2, State.reg_setReg _ _ _ hc.regs]
  · rw [State.takeReg, State.logWrite, if_neg h]
    exact State.emit_recorded _ _ _ _ _ _ _
  · rw [State.takeReg, State.logWrite, if_pos h]
    exact State.setReg_moves_regs h1 h2
  · rw [State.takeReg, State.logWrite_reg _ _ _ _ _ _ h1 h2, State.reg_setReg_of_ne _ _ _ _ hr.symm]
  · rw [State.takeReg, State.logWrite, if_pos h, State.reg_setReg_of_ne _ _ _ _ hr.symm]

end Sys2Proof.Machine

/-! ## Register writes (R432, R433, R434) -/

namespace Sys2Proof.Machine

open Sys2Proof.Laws Sys2Proof.Safety

/-- A whole aligned word below the window of the bit aliases and outside the mailboxes is a write of a word. -/
theorem execRegisterWrite_word {off : Nat} (ha : off % 4 = 0) (hlt : off < 0x03800000) (hmb : ¬ (0x100000 ≤ off ∧ off < 0x120000))
    (v : Word) (req : Requester) (s : State) : execRegisterWrite off v 0xF req s = .next (s.writeWord off v req) := by
  unfold execRegisterWrite
  rw [if_neg (by omega), if_neg hmb, if_neg (by simp [ha]), if_neg (by omega)]

/-- A register whose write is no command takes a plain write. -/
theorem State.writeWord_of_plainReg {off : Nat} {d : RegDef} (h : plainReg off d) (v : Word) (req : Requester) (s : State) :
    s.writeWord off v req = s.onReg req off v fun s => s.writePlain req off v := by
  obtain ⟨-, ⟨-, -, hoff⟩, ⟨hg, htw, -, hmsix, hring, hbell⟩, hname⟩ := h
  simp only [List.mem_cons, List.not_mem_nil, or_false, not_or] at hoff hname
  obtain ⟨h100, h104, -, -⟩ := hoff
  unfold State.writeWord
  rw [if_neg h100, if_neg h104, if_neg hg, if_neg htw, if_neg (by omega), if_neg (by omega), if_neg (by omega), if_neg hring,
    if_neg hbell]
  simp [hname]

/-- A plain write and a clearing of flags are one operation on the register. -/
theorem exec_plainWrite {s : State} {off : Nat} {v : Word} {req : Requester} {d : RegDef} {e : Instr} (h : plainReg off d)
    (hr : reaches s req off) (he : e = .registerWrite off v 0xF req ∨ (e = .w1cClear off v req ∧ d.clearable ≠ 0)) :
    exec e s = .next (s.writePlain req off v) := by
  rcases he with rfl | ⟨rfl, hcl⟩
  · show execRegisterWrite off v 0xF req s = _
    rw [execRegisterWrite_word h.word.1 h.word.2.1 h.apart.2.2.1, State.writeWord_of_plainReg h, State.onReg_of_reaches hr]
  · show execW1cClear off v req s = _
    unfold execW1cClear
    simp only [h.row, if_neg hcl, State.onReg_of_reaches hr]

/-- The clauses of an accepted plain write. -/
theorem plainWrite_accepted {s : State} {off : Nat} {v : Word} {d : RegDef} (hc : canonical s) (h : plainReg off d)
    (hacc : accepts off d v s) (req : Requester) {t : State} (ht : t = s.writePlain req off v) :
    t.reg off = d.after (s.reg off) v ∧
      t.reg off &&& d.clearable = s.reg off &&& ~~~ v &&& d.clearable ∧ t.reg off &&& d.writable = v &&& d.writable ∧
      t.reg off &&& ~~~ d.writable &&& ~~~ d.clearable = s.reg off &&& ~~~ d.writable &&& ~~~ d.clearable ∧
      (s.reg off &&& d.writable ≠ v &&& d.writable → recorded t (originOf req).1 (originOf req).2 0 evRegWrite .ok
        [w32 off, s.reg off, (s.reg off &&& ~~~ d.writable) ||| (v &&& d.writable)]) ∧
      (s.reg off &&& d.writable = v &&& d.writable → changesOnly [.regs] s t) ∧
      (∀ r, r ≠ off → r ≠ 0x264 → r ≠ 0x278 → t.reg r = s.reg r) ∧ changesOnly (logged [.regs]) s t := by
  have hoff := h.word.2.2
  simp only [List.mem_cons, List.not_mem_nil, or_false, not_or] at hoff
  obtain ⟨-, -, h264, h278⟩ := hoff
  have hlog := logged_eq_old_iff (s.reg off) v d.writable
  rw [ht, State.writePlain_of_accepts h.row hacc]
  obtain ⟨hreg, hrec, honly, hrest, -⟩ := State.takeReg_takes hc h264 h278 req (s.reg off) (d.after (s.reg off) v)
    ((s.reg off &&& ~~~ d.writable) ||| (v &&& d.writable))
  rw [hreg]
  exact ⟨rfl, after_and_clearable h.row _ _, after_and_writable h.row _ _, after_and_rest _ _ _,
    fun hne => hrec fun he => hne (hlog.1 he), fun heq => (honly (hlog.2 heq)).frame, hrest, State.takeReg_moves.frame⟩

/-- Accepted, or refused for what it names, for the device state or for its range: a plain write in R14's order. -/
theorem registerWrites_plain (s : State) (off : Nat) (v : Word) (req : Requester) (d : RegDef) (e : Instr) (hc : canonical s)
    (h : plainReg off d) (hr : reaches s req off)
    (he : e = .registerWrite off v 0xF req ∨ (e = .w1cClear off v req ∧ d.clearable ≠ 0)) :
    (accepts off d v s → ∃ t, exec e s = .next t ∧ t.reg off = d.after (s.reg off) v ∧
      t.reg off &&& d.clearable = s.reg off &&& ~~~ v &&& d.clearable ∧ t.reg off &&& d.writable = v &&& d.writable ∧
      t.reg off &&& ~~~ d.writable &&& ~~~ d.clearable = s.reg off &&& ~~~ d.writable &&& ~~~ d.clearable ∧
      (s.reg off &&& d.writable ≠ v &&& d.writable → recorded t (originOf req).1 (originOf req).2 0 evRegWrite .ok
        [w32 off, s.reg off, (s.reg off &&& ~~~ d.writable) ||| (v &&& d.writable)]) ∧
      (s.reg off &&& d.writable = v &&& d.writable → changesOnly [.regs] s t) ∧
      (∀ r, r ≠ off → r ≠ 0x264 → r ≠ 0x278 → t.reg r = s.reg r) ∧ changesOnly (logged [.regs]) s t) ∧
    (s.namesFlash off v = true → ∃ t, exec e s = .next t ∧ refusedWrite req off .unitAbsent (s.reg off) v s t) ∧
    (s.namesFlash off v = false → d.ready = true → s.dev ≠ .ready →
      ∃ t, exec e s = .next t ∧ refusedWrite req off .stateInvalid (s.reg off) v s t) ∧
    (s.namesFlash off v = false → d.ready = false ∨ s.dev = .ready → s.rangeBad off (d.after (s.reg off) v) = true → off ≠ 0x118 →
      ∃ t, exec e s = .next t ∧ t.fld 0x118 16 16 = min (s.fld 0x118 16 16 + 1) 0xFFFF ∧
        recorded t (originOf req).1 (originOf req).2 1 evRegWrite .badArgument [w32 off, s.reg off, v] ∧
        (∀ r, r ∉ [0x118, 0x264, 0x278] → t.reg r = s.reg r) ∧ changesOnly (logged [.regs]) s t) := by
  have hexec := exec_plainWrite h hr he
  refine ⟨fun hacc => ⟨_, hexec, plainWrite_accepted hc h hacc req rfl⟩, fun hf => ⟨_, hexec, ?_⟩, fun hf h1 h2 => ⟨_, hexec, ?_⟩,
    fun hf h1 hb _ => ⟨_, hexec, ?_⟩⟩
  · rw [State.writePlain, State.checked_of_flash h.row hf]
    exact State.logRefused_refusedWrite _ _ _ _ _ _
  · rw [State.writePlain, State.checked_of_not_ready h.row hf h1 h2]
    exact State.logRefused_refusedWrite _ _ _ _ _ _
  · rw [State.writePlain, State.checked_of_rangeBad h.row hf h1 hb]
    obtain ⟨hcnt, hrec, hregs, honly⟩ := State.bump_logRefused_counts s 16 (.inr rfl) req off .badArgument (s.reg off) v rfl
    exact ⟨hcnt, hrec, fun r hr => by simp at hr; exact hregs r hr.1 hr.2.1 hr.2.2, honly⟩

/-- A part of a word, a word across two, or a word where no register is, is discarded and counted (R433, R434). -/
theorem registerWrites_unmapped (s : State) (off : Nat) (v : Word) (be : BitVec 4) (req : Requester) (hr : reaches s req off)
    (hlt : off < 0x04000000) (hmb : ¬ (0x100000 ≤ off ∧ off < 0x120000))
    (h : be ≠ 0xF ∨ off % 4 ≠ 0 ∨ (0x20 ≤ off ∧ off < 0x100 ∧ regDef off = none)) :
    ∃ t, exec (.registerWrite off v be req) s = .next t ∧ t.fld 0x118 16 16 = min (s.fld 0x118 16 16 + 1) 0xFFFF ∧
      (∀ r, r ≠ 0x118 → t.reg r = s.reg r) ∧ changesOnly [.regs] s t := by
  have hexec : exec (.registerWrite off v be req) s = .next s.unmapped := by
    show execRegisterWrite off v be req s = _
    by_cases hpart : be ≠ 0xF ∨ off % 4 ≠ 0
    · unfold execRegisterWrite
      rw [if_neg (by omega), if_neg hmb, if_pos hpart, State.onReg_of_reaches hr]
    · simp only [not_or, not_not] at hpart
      obtain ⟨rfl, ha⟩ := hpart
      obtain ⟨h20, h100, hnone⟩ := (h.resolve_left (by simp)).resolve_left (by omega)
      rw [execRegisterWrite_word ha (by omega) hmb]
      have hname : regName off = "" := by simp [regName, hnone]
      unfold State.writeWord
      rw [if_neg (by omega), if_neg (by omega), if_neg (by omega), if_neg (by omega), if_neg (by omega), if_neg (by omega),
        if_neg (by omega), if_neg (by omega), if_neg (by omega), hname]
      simp only [State.onReg_of_reaches hr]
      simp [State.writePlain, State.checked, hnone]
  obtain ⟨hcnt, hregs, hmoves⟩ := s.unmapped_counts
  exact ⟨_, hexec, hcnt, hregs, hmoves.frame⟩

end Sys2Proof.Machine

/-! ## What a write of memory leaves alone

The stack controllers count in the registers of their own windows, at 0x0300_0000 and above; the registers below keep their
words, but for the two that count lost records. A byte changes only where a cell is written. -/

namespace Sys2Proof.Machine

open Sys2Proof.Laws Sys2Proof.Safety

/-- Every register below an offset keeps its word, but for the two that count lost records. -/
def RegsBelow (b : Nat) (s t : State) : Prop := ∀ r, r < b → r ≠ 0x264 → r ≠ 0x278 → t.reg r = s.reg r

theorem RegsBelow.refl (b : Nat) (s : State) : RegsBelow b s s := fun _ _ _ _ => rfl

theorem RegsBelow.trans {b : Nat} {s t u : State} (h : RegsBelow b s t) (k : RegsBelow b t u) : RegsBelow b s u :=
  fun r hr h1 h2 => (k r hr h1 h2).trans (h r hr h1 h2)

theorem RegsBelow.mono {b c : Nat} {s t : State} (h : RegsBelow b s t) (hc : c ≤ b) : RegsBelow c s t :=
  fun r hr => h r (hr.trans_le hc)

theorem RegsBelow.of_moves {b : Nat} {ps : List Part} {s t : State} (m : Moves ps s t) (hp : Part.regs ∉ ps) : RegsBelow b s t :=
  fun _ _ h1 h2 => reg_eq_of_moves m hp h1 h2

theorem RegsBelow.foldl {α : Type} {b : Nat} {f : State → α → State} (hf : ∀ s x, RegsBelow b s (f s x)) (l : List α) (s : State) :
    RegsBelow b s (l.foldl f s) := by
  induction l generalizing s with
  | nil => exact .refl b s
  | cons x l ih => exact (hf s x).trans (ih _)

theorem RegsBelow.ite {c : Prop} [Decidable c] {b : Nat} {s t u : State} (ht : RegsBelow b s t) (hu : RegsBelow b s u) :
    RegsBelow b s (if c then t else u) := by
  split
  · exact ht
  · exact hu

theorem RegsBelow.bumpBy {b off : Nat} (h : b ≤ off) (s : State) (lo w k : Nat) : RegsBelow b s (s.bumpBy off lo w k) :=
  fun _ _ _ _ => State.reg_bumpBy_of_ne _ _ _ _ _ _ (by omega)

theorem RegsBelow.bump64 {b off : Nat} (h : b ≤ off) (s : State) (k : Nat) : RegsBelow b s (s.bump64 off k) := by
  intro r hr _ _
  unfold State.bump64
  rw [State.reg_setReg_of_ne _ _ _ _ (by omega), State.reg_setReg_of_ne _ _ _ _ (by omega)]

theorem le_duneReg (n o : Nat) : 0x03000000 ≤ duneReg n o := by
  unfold duneReg
  omega

theorem State.freshPiece_regs (s : State) (p : Nat) : RegsBelow 0x03000000 s (s.freshPiece p) :=
  .of_moves State.freshPiece_moves (by decide)

theorem State.writeEntry_regs (s : State) (n : Nat) (ue : List Nat) (e : WcbEntry) : RegsBelow 0x03000000 s (s.writeEntry n ue e) := by
  unfold State.writeEntry
  refine (RegsBelow.of_moves State.setDune_moves (by decide)).trans (.foldl (fun s p => ?_) _ _)
  refine .ite (s.freshPiece_regs p) (.ite ?_ (.refl _ s))
  exact ((RegsBelow.bumpBy (le_duneReg n 0x20) s 16 16 1).trans (.of_moves State.poisonPiece_moves (by decide))).trans
    (.of_moves State.emitUnit_moves (by decide))

theorem State.mergeWcb_regs (s : State) (n line : Nat) (cs : List Cell) : RegsBelow 0x03000000 s (s.mergeWcb n line cs) := by
  unfold State.mergeWcb
  extract_lets k
  split
  · exact .ite ((RegsBelow.of_moves State.setDune_moves (by decide)).trans (State.writeEntry_regs _ _ _ _))
      (.of_moves State.setDune_moves (by decide))
  · refine RegsBelow.trans (RegsBelow.ite ?_ (.refl _ s)) (.of_moves State.setDune_moves (by decide))
    split
    · exact (RegsBelow.bumpBy (le_duneReg n 0x60) s 0 32 1).trans (State.writeEntry_regs _ _ _ _)
    · exact .refl _ s

theorem State.duneWriteLine_regs (s : State) (key : Word) (line : Nat) (cs : List Cell) :
    RegsBelow 0x03000000 s (s.duneWriteLine key line cs) := by
  unfold State.duneWriteLine
  extract_lets n ok lost s1 s2 s3 s4 s5
  have h1 : RegsBelow 0x03000000 s s1 := .ite (.refl _ s) (.bumpBy (le_duneReg _ _) _ _ _ _)
  have h2 : RegsBelow 0x03000000 s s2 := h1.trans (.ite (.of_moves State.emitUnit_moves (by decide)) (.refl _ s1))
  have h3 : RegsBelow 0x03000000 s s3 := h2.trans (.bump64 (le_duneReg _ _) _ _)
  have h4 : RegsBelow 0x03000000 s s4 := h3.trans (.ite (.refl _ s3) (.bumpBy (le_duneReg _ _) _ _ _ _))
  have h5 : RegsBelow 0x03000000 s s5 := h4.trans (.of_moves State.store_moves (by decide))
  exact .ite h2 (.ite (h5.trans (.foldl State.freshPiece_regs _ _)) (h5.trans (State.mergeWcb_regs _ _ _ _)))

theorem State.writeLine_regs (s : State) (key : Word) (line : Nat) (cs : List Cell) :
    RegsBelow 0x03000000 s (s.writeLine key line cs) := by
  unfold State.writeLine
  split
  · exact s.duneWriteLine_regs key line cs
  · exact .of_moves State.store_moves (by decide)
  · exact .ite (.of_moves State.store_moves (by decide)) (.refl _ s)
  · exact .ite (.of_moves State.storeLocal_moves (by decide)) (.refl _ s)
  · exact .ite (.of_moves State.storeLocal_moves (by decide)) (.refl _ s)
  · exact .refl _ s
  · exact .refl _ s

theorem State.write_regs (s : State) (key : Word) (cs : List Cell) : RegsBelow 0x03000000 s (s.write key cs) :=
  .foldl (fun s l => s.writeLine_regs key l _) _ _

/-! ### Bytes -/

theorem State.byte_store_of_not_mem (s : State) (cs : List Cell) (a : Nat) (h : ∀ c ∈ cs, c.1 ≠ a) : (s.store cs).byte a = s.byte a := by
  have hfold : ∀ m : Tab Byte, Tab.get 0 (cs.foldl (fun m c => Tab.put 0 m c.1 c.2) m) a = Tab.get 0 m a := by
    induction cs with
    | nil => exact fun _ => rfl
    | cons c cs ih =>
      intro m
      rw [List.foldl_cons, ih (fun c hc => h c (List.mem_cons_of_mem _ hc)), Tab.get_put_of_ne _ _ _ _ _ _ (h c List.mem_cons_self)]
  exact hfold s.mem

/-- What leaves the memory leaves every byte. -/
theorem byte_eq_of_moves {ps : List Part} {s t : State} (m : Moves ps s t) (hp : Part.mem ∉ ps) (a : Nat) : t.byte a = s.byte a :=
  congrArg (Tab.get 0 · a) (m.frame .mem hp)

theorem State.byte_duneWriteLine_of_not_mem (s : State) (key : Word) (line : Nat) (cs : List Cell) (a : Nat) (h : ∀ c ∈ cs, c.1 ≠ a) :
    (s.duneWriteLine key line cs).byte a = s.byte a := by
  unfold State.duneWriteLine
  extract_lets n ok lost s1 s2 s3 s4 s5
  have h1 : s1.byte a = s.byte a := by
    dsimp only [s1]
    split
    · rfl
    · exact byte_eq_of_moves State.bumpBy_moves (by decide) a
  have h2 : s2.byte a = s.byte a := by
    refine Eq.trans ?_ h1
    dsimp only [s2]
    split
    · exact byte_eq_of_moves State.emitUnit_moves (by decide) a
    · rfl
  have h4 : s4.byte a = s.byte a := by
    refine Eq.trans ?_ ((byte_eq_of_moves State.bump64_moves (by decide) a : s3.byte a = s2.byte a).trans h2)
    dsimp only [s4]
    split
    · rfl
    · exact byte_eq_of_moves State.bumpBy_moves (by decide) a
  have h5 : s5.byte a = s.byte a :=
    (s4.byte_store_of_not_mem ok a fun c hc => h c (List.mem_filter.1 hc).1).trans h4
  split
  · exact h2
  · split
    · refine Eq.trans (byte_eq_of_moves (ps := [.poison, .dunes]) ?_ (by decide) a) h5
      exact Moves.foldl (fun s p hs => hs.trans State.freshPiece_moves) (Moves.refl _ _) _
    · exact (byte_eq_of_moves State.mergeWcb_moves (by decide) a).trans h5

theorem State.byte_storeLocal_of_not_mem (s : State) (cs : List Cell) (a : Nat) (h : ∀ c ∈ cs, c.1 ≠ a) :
    (s.storeLocal cs).byte a = s.byte a := by
  unfold State.storeLocal
  refine Eq.trans (byte_eq_of_moves (ps := [.poison]) ?_ (by decide) a) (s.byte_store_of_not_mem cs a h)
  exact Moves.foldl (fun s w hs => .ite (hs.trans State.clearPoison_moves) hs) (Moves.refl _ _) _

theorem State.byte_writeLine_of_not_mem (s : State) (key : Word) (line : Nat) (cs : List Cell) (a : Nat) (h : ∀ c ∈ cs, c.1 ≠ a) :
    (s.writeLine key line cs).byte a = s.byte a := by
  unfold State.writeLine
  split
  · exact s.byte_duneWriteLine_of_not_mem key line cs a h
  · exact s.byte_store_of_not_mem cs a h
  · split
    · exact s.byte_store_of_not_mem cs a h
    · rfl
  · split
    · exact s.byte_storeLocal_of_not_mem cs a h
    · rfl
  · split
    · exact s.byte_storeLocal_of_not_mem cs a h
    · rfl
  · rfl
  · rfl

/-- A byte that no cell names keeps its value. -/
theorem State.byte_write_of_not_mem (s : State) (key : Word) (cs : List Cell) (a : Nat) (h : ∀ c ∈ cs, c.1 ≠ a) :
    (s.write key cs).byte a = s.byte a := by
  have hfold : ∀ (ls : List Nat) (s : State),
      (ls.foldl (fun s l => s.writeLine key l (cs.filter fun c => c.1 / 256 == l)) s).byte a = s.byte a := by
    intro ls
    induction ls with
    | nil => exact fun _ => rfl
    | cons l ls ih =>
      intro s
      rw [List.foldl_cons, ih, State.byte_writeLine_of_not_mem _ _ _ _ _ fun c hc => h c (List.mem_filter.1 hc).1]
  exact hfold _ s

/-- A run of bytes at an address changes none outside it. -/
theorem State.byte_write_cellsAt (s : State) (key : Word) (da : Nat) (bs : List Byte) (a : Nat) (h : a < da ∨ da + bs.length ≤ a) :
    (s.write key (cellsAt da bs)).byte a = s.byte a := by
  refine s.byte_write_of_not_mem key _ a fun c hc => ?_
  obtain ⟨⟨b, i⟩, hp, rfl⟩ := List.mem_map.1 hc
  have hi := List.snd_lt_of_mem_zipIdx hp
  simp only at hi ⊢
  omega

theorem length_leBytes (n v : Nat) : (leBytes n v).length = n := by
  induction n generalizing v with
  | zero => rfl
  | succ n ih => simp [leBytes, ih]

end Sys2Proof.Machine

/-! ## What the tier engine's operations leave alone -/

namespace Sys2Proof.Machine

open Sys2Proof.Laws Sys2Proof.Safety

theorem State.regEntryDa_congr {s t : State} (h : RegsBelow 0x02030060 s t) (i : Nat) : t.regEntryDa i = s.regEntryDa i := by
  unfold State.regEntryDa
  rw [h 0x02030000 (by decide) (by decide) (by decide), h 0x02030004 (by decide) (by decide) (by decide)]

theorem State.nameRegion_congr {s t : State} (h : RegsBelow 0x02030060 s t) (r : Nat) : t.nameRegion r = s.nameRegion r := by
  unfold State.nameRegion
  rw [h 0x02030014 (by decide) (by decide) (by decide), h 0x02030018 (by decide) (by decide) (by decide),
    h 0x0203001C (by decide) (by decide) (by decide), h 0x02030020 (by decide) (by decide) (by decide),
    h 0x02030024 (by decide) (by decide) (by decide), h 0x02030028 (by decide) (by decide) (by decide)]

theorem State.nameIn_congr {s t : State} (h : RegsBelow 0x02030060 s t) (r name size : Nat) :
    t.nameIn r name size = s.nameIn r name size := by
  unfold State.nameIn
  rw [State.nameRegion_congr h]

theorem State.pteDa_congr {s t : State} (h : RegsBelow 0x02030060 s t) (da : Nat) : t.pteDa da = s.pteDa da := by
  unfold State.pteDa
  rw [h 0x0203000C (by decide) (by decide) (by decide), h 0x02030010 (by decide) (by decide) (by decide),
    State.nameRegion_congr h, State.nameRegion_congr h, State.nameIn_congr h]

@[simp] theorem State.putPte_tier (s : State) (i pg : Nat) : (s.putPte i pg).tier = s.tier :=
  State.putPte_moves.frame .tier (by decide)

@[simp] theorem State.putRegEntry_tier (s : State) (i : Nat) : (s.putRegEntry i).tier = s.tier :=
  State.putRegEntry_moves.frame .tier (by decide)

@[simp] theorem State.updTensor_tier (s : State) (i : Nat) (x : Tensor) : (s.updTensor i x).tier = (s.setTensor i x).tier :=
  State.putRegEntry_tier _ _

@[simp] theorem State.moveTensor_tier (s : State) (i : Nat) (x : Tensor) : (s.moveTensor i x).tier = (s.setTensor i x).tier := by
  have hfold : ∀ (l : List Nat) (s : State), (l.foldl (fun s pg => s.putPte i pg) s).tier = s.tier := by
    intro l
    induction l with
    | nil => exact fun _ => rfl
    | cons pg l ih =>
      intro s
      rw [List.foldl_cons, ih, State.putPte_tier]
  unfold State.moveTensor
  rw [hfold, State.updTensor_tier]

theorem State.putPte_regs (s : State) (i pg : Nat) : RegsBelow 0x03000000 s (s.putPte i pg) := State.write_regs _ _ _

theorem State.updTensor_regs (s : State) (i : Nat) (x : Tensor) : RegsBelow 0x03000000 s (s.updTensor i x) :=
  (RegsBelow.of_moves State.setTensor_moves (by decide)).trans (State.write_regs _ _ _)

theorem State.moveTensor_regs (s : State) (i : Nat) (x : Tensor) : RegsBelow 0x03000000 s (s.moveTensor i x) :=
  (s.updTensor_regs i x).trans (.foldl (fun s pg => s.putPte_regs i pg) _ _)

/-- The evictor touches no register below TIER_PROMOTE. -/
theorem State.evictNow_regs (s : State) (i : Nat) : RegsBelow 0x02030074 s (s.evictNow i) := by
  unfold State.evictNow
  refine .ite ((s.updTensor_regs _ _).mono (by decide)) ?_
  exact ((s.moveTensor_regs _ _).mono (by decide)).trans (.bumpBy (by decide) _ _ _ _)

theorem State.makeRoom_regs (s : State) (n keep : Nat) (passed : List Nat) (fuel : Nat) :
    RegsBelow 0x02030074 s (s.makeRoom n keep passed fuel) := by
  induction fuel generalizing s passed with
  | zero => exact .refl _ s
  | succ fuel ih =>
    unfold State.makeRoom
    extract_lets s1
    have h1 : RegsBelow 0x02030074 s s1 := .of_moves State.settleHeat_moves (by decide)
    refine .ite h1 ?_
    split
    · refine .ite ((h1.trans (s1.evictNow_regs _)).trans (ih _ _)) ?_
      have h2 : RegsBelow 0x02030074 s s1.draw.2 := h1.trans (.of_moves State.draw_snd (by decide))
      exact (h2.trans (.ite (.bumpBy (by decide) _ _ _ _) (.refl _ _))).trans (ih _ _)
    · exact h1

theorem State.lowFrames_regs (s : State) : RegsBelow 0x02030074 s s.lowFrames := by
  unfold State.lowFrames
  exact .ite (s.makeRoom_regs _ _ _ _) (.refl _ s)

/-! ### Bytes -/

theorem State.byte_putPte (s : State) (i pg a : Nat) (h : a < s.pteDa ((s.tensor i).name + pg * tierPage) ∨
    s.pteDa ((s.tensor i).name + pg * tierPage) + 8 ≤ a) : (s.putPte i pg).byte a = s.byte a := by
  refine State.byte_write_cellsAt _ _ _ _ _ ?_
  rwa [length_leBytes]

theorem State.byte_putRegEntry (s : State) (i a : Nat) (h : a < s.regEntryDa i + 0x38 ∨ s.regEntryDa i + 0x40 ≤ a) :
    (s.putRegEntry i).byte a = s.byte a := by
  refine State.byte_write_cellsAt _ _ _ _ _ ?_
  rw [List.length_append, length_leBytes, length_leBytes]
  omega

/-- A tensor's move writes its registry entry's state words and the page-table entries of its pages, and no other byte. -/
theorem State.byte_moveTensor (s : State) (i : Nat) (x : Tensor) (hw : Tab.wf Tensor.none s.tier.tensors = true) (a : Nat)
    (he : a < s.regEntryDa i + 0x38 ∨ s.regEntryDa i + 0x40 ≤ a)
    (hp : ∀ pg, pg < x.pages → a < s.pteDa (x.name + pg * tierPage) ∨ s.pteDa (x.name + pg * tierPage) + 8 ≤ a) :
    (s.moveTensor i x).byte a = s.byte a := by
  have hfold : ∀ (l : List Nat) (u : State), RegsBelow 0x03000000 s u → u.tensor i = x → (∀ pg ∈ l, pg < x.pages) →
      (l.foldl (fun s pg => s.putPte i pg) u).byte a = u.byte a := by
    intro l
    induction l with
    | nil => exact fun _ _ _ _ => rfl
    | cons pg l ih =>
      intro u hu hx hl
      rw [List.foldl_cons, ih _ (hu.trans (u.putPte_regs i pg)) (by rw [State.tensor, State.putPte_tier]; exact hx)
        fun pg hpg => hl pg (List.mem_cons_of_mem _ hpg)]
      refine u.byte_putPte i pg a ?_
      rw [hx, State.pteDa_congr (hu.mono (by decide))]
      exact hp pg (hl pg List.mem_cons_self)
  have hupd : (s.updTensor i x).tensor i = x := by
    rw [State.tensor, State.updTensor_tier]
    exact Tab.get_put_self (fun _ => Tensor.none) _ _ _ ((Tab.wf_iff _ _).1 hw)
  refine (hfold _ _ (s.updTensor_regs i x) hupd fun pg hpg => List.mem_range.1 hpg).trans ?_
  exact State.byte_putRegEntry _ i a he

end Sys2Proof.Machine

/-! ## The commands behind a register write (O17) -/

namespace Sys2Proof.Machine

open Sys2Proof.Laws Sys2Proof.Safety

/-! ## Registers with an engine behind them (log entries 61 and 80, R316) -/

/-- A write of TIER_LOW is a plain write, behind which the evictor runs. -/
theorem tierLow_written {s : State} {v : Word} {req : Requester} {d : RegDef} (hc : canonical s) (hd : regDef 0x02030034 = some d)
    (hr : reaches s req 0x02030034) (hacc : accepts 0x02030034 d v s) :
    ∃ t, exec (.registerWrite 0x02030034 v 0xF req) s = .next t ∧ t.reg 0x02030034 = d.after (s.reg 0x02030034) v := by
  have hname := regName_tierLow
  have hexec : exec (.registerWrite 0x02030034 v 0xF req) s = .next (s.writePlain req 0x02030034 v).lowFrames := by
    show execRegisterWrite 0x02030034 v 0xF req s = _
    rw [execRegisterWrite_word (by decide) (by decide) (by decide)]
    simp [State.writeWord, hname, State.onReg_of_reaches hr, State.checked_of_accepts hd hacc]
  refine ⟨_, hexec, ?_⟩
  rw [State.lowFrames_regs _ _ (by decide) (by decide) (by decide), State.writePlain_of_accepts hd hacc]
  exact (State.takeReg_takes hc (by decide) (by decide) _ _ _ _).1

/-- A write of TIER_DECAY is a plain write, behind which the span of the decay restarts (log entry 80). -/
theorem tierDecay_written {s : State} {v : Word} {req : Requester} {d : RegDef} (hc : canonical s) (hd : regDef 0x02030030 = some d)
    (hr : reaches s req 0x02030030) (hacc : accepts 0x02030030 d v s) :
    ∃ t, exec (.registerWrite 0x02030030 v 0xF req) s = .next t ∧ t.reg 0x02030030 = d.after (s.reg 0x02030030) v ∧
      t.tier.decayAt = s.etc := by
  have hname := regName_tierDecay
  have hexec : exec (.registerWrite 0x02030030 v 0xF req) s = .next (s.settleHeat.writePlain req 0x02030030 v).restartDecay := by
    show execRegisterWrite 0x02030030 v 0xF req s = _
    rw [execRegisterWrite_word (by decide) (by decide) (by decide)]
    simp [State.writeWord, hname, State.onReg_of_reaches hr, State.checked_of_accepts hd hacc]
  have hmoves : Moves [.tier] s s.settleHeat := State.settleHeat_moves
  have hreg : s.settleHeat.reg 0x02030030 = s.reg 0x02030030 := reg_eq_of_moves hmoves (by decide) (by decide) (by decide)
  have hacc' : accepts 0x02030030 d v s.settleHeat := by
    obtain ⟨hflash, hready, -⟩ := hacc
    have hdev : s.settleHeat.dev = s.dev := hmoves.frame .dev (by decide)
    have hvar : s.settleHeat.nv.variant = s.nv.variant := (hmoves.frame .ident (by decide)).1
    refine ⟨?_, hdev ▸ hready, ?_⟩
    · rw [← hflash, State.namesFlash, State.namesFlash, hvar]
    · simp [State.rangeBad, hname]
  have hetc : (s.settleHeat.writePlain req 0x02030030 v).etc = s.etc :=
    (State.writePlain_moves.frame .etc (by decide)).trans (hmoves.frame .etc (by decide))
  refine ⟨_, hexec, ?_, hetc⟩
  show (s.settleHeat.writePlain req 0x02030030 v).reg 0x02030030 = _
  rw [State.writePlain_of_accepts hd hacc', hreg]
  exact (State.takeReg_takes (hmoves.keeps hc) (by decide) (by decide) _ _ _ _).1

/-- The word with a bit set to what it is, is the word. -/
theorem setBits_self (v : Word) (lo n : Nat) : setBits v lo n (bits v lo n) = v := by
  have hle : bits v lo n * 2 ^ lo ≤ v.toNat :=
    (Nat.mul_le_mul_right _ (Nat.mod_le _ _)).trans (Nat.div_mul_le_self _ _)
  have hmod : bits v lo n % 2 ^ n = bits v lo n := Nat.mod_mod _ _
  unfold setBits w32
  rw [hmod, Nat.sub_add_cancel hle]
  simp

theorem writeWord_guardOff (s : State) (r : Nat) (hr : r < 8) (v : Word) (req : Requester) :
    exec (.registerWrite (guardOff r) v 0xF req) s = exec (.guardValueWrite r v req) s := by
  show execRegisterWrite (guardOff r) v 0xF req s = execGuardValueWrite r v req s
  unfold guardOff
  rw [execRegisterWrite_word (by omega) (by omega) (by omega)]
  unfold State.writeWord execGuardValueWrite
  rw [if_neg (by omega), if_neg (by omega), if_pos (by omega), if_pos hr, show (0x4000 + 4 * r - 0x4000) / 4 = r by omega]
  rfl

theorem writeWord_twinOff (s : State) (e : Instr) (r : Nat) (v : Word) (req : Requester) (h : guardRow e = some (r, v, req)) :
    exec (.registerWrite (twinOff r) v 0xF req) s = exec e s := by
  have hexec : r < 8 ∧ exec e s = .next (s.twinWrite r v req) := by
    cases e <;> simp only [guardRow, Option.some.injEq, Prod.mk.injEq, reduceCtorEq] at h <;> obtain ⟨rfl, rfl, rfl⟩ := h <;>
      exact ⟨by decide, rfl⟩
  rw [hexec.2]
  show execRegisterWrite (twinOff r) v 0xF req s = _
  unfold twinOff
  rw [execRegisterWrite_word (by omega) (by omega) (by omega)]
  unfold State.writeWord
  rw [if_neg (by omega), if_neg (by omega), if_neg (by omega), if_pos (by omega), show (0xC000 + 4 * r - 0xC000) / 4 = r by omega]

theorem writeWord_doorbell (s : State) (q : Nat) (hq : q < 512) (v : Word) (req : Requester) :
    exec (.registerWrite (doorbellOff q) v 0xF req) s = exec (.doorbellWrite q v req) s := by
  show execRegisterWrite (doorbellOff q) v 0xF req s = execDoorbellWrite q v req s
  unfold doorbellOff
  rw [execRegisterWrite_word (by omega) (by omega) (by omega)]
  unfold State.writeWord
  rw [if_neg (by omega), if_neg (by omega), if_neg (by omega), if_neg (by omega), if_neg (by omega), if_neg (by omega),
    if_neg (by omega), if_neg (by omega), if_pos (by omega), if_pos (by omega), show (0x400000 + q * 0x1000 - 0x400000) / 0x1000 = q by omega]
  rfl

theorem writeWord_cqHead (s : State) (q : Nat) (hq : q < 512) (v : Word) (req : Requester) :
    exec (.registerWrite (ringReg q 0x20) v 0xF req) s = exec (.cqHeadWrite q v req) s := by
  show execRegisterWrite (ringReg q 0x20) v 0xF req s = execCqHeadWrite q v req s
  unfold ringReg
  rw [execRegisterWrite_word (by omega) (by omega) (by omega)]
  unfold State.writeWord
  rw [if_neg (by omega), if_neg (by omega), if_neg (by omega), if_neg (by omega), if_neg (by omega), if_neg (by omega),
    if_neg (by omega), if_pos (by omega), show (0x210000 + q * 0x40 + 0x20 - 0x210000) / 0x40 = q by omega,
    show (0x210000 + q * 0x40 + 0x20) % 0x40 = 0x20 by omega]
  rfl

theorem writeWord_portCtrl (s : State) (p : Nat) (hp : p < 18) (v : Word) (req : Requester) :
    exec (.registerWrite (portReg p 0) v 0xF req) s = .next (s.writePortCtrl p v req) := by
  obtain ⟨hname, hport, halign, hlo, hhi⟩ := portReg_place p hp
  show execRegisterWrite (portReg p 0) v 0xF req s = _
  rw [execRegisterWrite_word halign hhi (by omega)]
  unfold State.writeWord
  rw [if_neg (by omega), if_neg (by omega), if_neg (by omega), if_neg (by omega), if_neg (by omega), if_neg (by omega),
    if_neg (by omega), if_neg (by omega), if_neg (by omega), hname]
  simp [hport]

theorem writeWord_schedCmd (s : State) (v : Word) (req : Requester) :
    exec (.registerWrite 0x02070094 v 0xF req) s = .next (s.schedCmd (bits v 0 2) (bits v 2 3) req) := by
  have hname := regName_schedCmd
  show execRegisterWrite 0x02070094 v 0xF req s = _
  rw [execRegisterWrite_word (by decide) (by decide) (by decide)]
  simp [State.writeWord, hname]

/-- A write at the register of a command is that command (log entry 61). -/
theorem registerWrites_commands (s : State) (v : Word) (req : Requester) :
    exec (.registerWrite 0x100 v 0xF req) s = exec (.globalApply v req) s ∧
    exec (.registerWrite 0x104 v 0xF req) s = exec (.globalSnap v req) s ∧
    (∀ r, r < 8 → exec (.registerWrite (guardOff r) v 0xF req) s = exec (.guardValueWrite r v req) s) ∧
    (∀ e r, guardRow e = some (r, v, req) → exec (.registerWrite (twinOff r) v 0xF req) s = exec e s) ∧
    (∀ q, q < 512 → exec (.registerWrite (doorbellOff q) v 0xF req) s = exec (.doorbellWrite q v req) s ∧
      exec (.registerWrite (ringReg q 0x20) v 0xF req) s = exec (.cqHeadWrite q v req) s) ∧
    (∀ p, p < 18 → (bits v 0 1 = 1 → exec (.registerWrite (portReg p 0) v 0xF req) s = exec (.portEnable p v req) s) ∧
      (bits v 0 1 = 0 → exec (.registerWrite (portReg p 0) v 0xF req) s = exec (.portDisable p v req) s)) ∧
    (bits v 0 2 = 1 → exec (.registerWrite 0x02070094 v 0xF req) s = exec (.reclaim (bits v 2 3) req) s) ∧
    (bits v 0 2 = 2 → exec (.registerWrite 0x02070094 v 0xF req) s = exec (.schedReturn (bits v 2 3) req) s) := by
  refine ⟨?_, ?_, fun r hr => writeWord_guardOff s r hr v req, fun e r h => writeWord_twinOff s e r v req h,
    fun q hq => ⟨writeWord_doorbell s q hq v req, writeWord_cqHead s q hq v req⟩, fun p hp => ⟨fun h => ?_, fun h => ?_⟩,
    fun h => ?_, fun h => ?_⟩
  · exact execRegisterWrite_word (by decide) (by decide) (by decide) v req s
  · exact execRegisterWrite_word (by decide) (by decide) (by decide) v req s
  · have hself := setBits_self v 0 1
    rw [h] at hself
    rw [writeWord_portCtrl s p hp]
    show _ = Host.Outcome.next (s.writePortCtrl p (setBits v 0 1 1) req)
    rw [hself]
  · have hself := setBits_self v 0 1
    rw [h] at hself
    rw [writeWord_portCtrl s p hp]
    show _ = Host.Outcome.next (s.writePortCtrl p (setBits v 0 1 0) req)
    rw [hself]
  · rw [writeWord_schedCmd, h]
    rfl
  · rw [writeWord_schedCmd, h]
    rfl

theorem registerWrites : RegisterWrites := by
  refine ⟨registerWrites_plain, registerWrites_unmapped, ?_, fun s off v be req h => ?_, fun s off v req h => ?_,
    registerWrites_commands⟩
  · rintro s off v req d hc (rfl | rfl) hd hr hacc
    · obtain ⟨t, ht, hreg, hdecay⟩ := tierDecay_written hc hd hr hacc
      exact ⟨t, ht, hreg, fun _ => hdecay⟩
    · obtain ⟨t, ht, hreg⟩ := tierLow_written hc hd hr hacc
      exact ⟨t, ht, hreg, fun h => absurd h (by decide)⟩
  · show execRegisterWrite off v be req s = _
    rw [execRegisterWrite, if_pos h]
  · show execW1cClear off v req s = _
    unfold execW1cClear
    split
    · rw [if_pos (h _ ‹_›)]
    · rfl

end Sys2Proof.Machine

/-! ## Bit aliases and access time-outs (O17) -/

namespace Sys2Proof.Machine

open Sys2Proof.Laws Sys2Proof.Safety

/-! ## One bit of a register -/

theorem getLsbD_eq_bits (w : Word) (i : Nat) : w.getLsbD i = decide (bits w i 1 = 1) := by
  rw [BitVec.getLsbD, Nat.testBit_eq_decide_div_mod_eq]
  rfl

theorem getLsbD_setBit (w : Word) (b i : Nat) (on : Bool) (hb : b < 32) (hi : i < 32) :
    (setBit w b on).getLsbD i = if i = b then on else w.getLsbD i := by
  rw [getLsbD_eq_bits, setBit]
  split
  · subst i
    rw [bits_setBits _ _ _ _ (by omega)]
    cases on <;> rfl
  · rw [bits_setBits_of_disjoint _ _ _ _ _ _ (by omega) (by omega), getLsbD_eq_bits]

/-- A write of a word whose W1C flags read 0, with one RW or RS bit set to a value, changes that bit alone (R444). -/
theorem after_setBit_of_writable {off b : Nat} {d : RegDef} (hd : regDef off = some d) (hb : b < 32)
    (hw : d.writable.getLsbD b = true) (old : Word) (on : Bool) :
    d.after old (setBit (old &&& ~~~ d.clearable) b on) = setBit old b on := by
  refine BitVec.eq_of_getLsbD_eq fun i hi => ?_
  have hdis := clearable_getLsbD (i := i) hd
  rw [RegDef.getLsbD_after _ _ _ _ hi, getLsbD_setBit _ _ _ _ hb hi, getLsbD_setBit _ _ _ _ hb hi, BitVec.getLsbD_and,
    BitVec.getLsbD_not, decide_eq_true hi, Bool.true_and]
  by_cases h : i = b
  · rw [h] at hdis ⊢
    rw [hw, hdis hw, if_pos rfl, if_pos rfl, if_pos rfl]
    simp
  · rw [if_neg h, if_neg h]
    cases hwi : d.writable.getLsbD i with
    | true =>
      rw [hdis hwi, if_pos rfl]
      simp
    | false => cases d.clearable.getLsbD i <;> cases old.getLsbD i <;> rfl

/-- One flag written 1 through such a word clears that flag alone and no field changes. -/
theorem after_setBit_of_clearable {off b : Nat} {d : RegDef} (hd : regDef off = some d) (hb : b < 32)
    (hcl : d.clearable.getLsbD b = true) (old : Word) :
    d.after old (setBit (old &&& ~~~ d.clearable) b true) = setBit old b false ∧
      old &&& d.writable = setBit (old &&& ~~~ d.clearable) b true &&& d.writable := by
  have hwb : d.writable.getLsbD b = false := by
    cases hw : d.writable.getLsbD b with
    | true => exact absurd hcl (by rw [clearable_getLsbD hd hw]; decide)
    | false => rfl
  refine ⟨BitVec.eq_of_getLsbD_eq fun i hi => ?_, BitVec.eq_of_getLsbD_eq fun i hi => ?_⟩
  · rw [RegDef.getLsbD_after _ _ _ _ hi, getLsbD_setBit _ _ _ _ hb hi, getLsbD_setBit _ _ _ _ hb hi, BitVec.getLsbD_and,
      BitVec.getLsbD_not, decide_eq_true hi, Bool.true_and]
    by_cases h : i = b
    · rw [h, hcl, hwb, if_pos rfl, if_pos rfl]
      simp
    · rw [if_neg h, if_neg h]
      cases hwi : d.writable.getLsbD i with
      | true =>
        rw [clearable_getLsbD hd hwi, if_pos rfl]
        simp
      | false => cases d.clearable.getLsbD i <;> cases old.getLsbD i <;> rfl
  · rw [BitVec.getLsbD_and, BitVec.getLsbD_and, getLsbD_setBit _ _ _ _ hb hi, BitVec.getLsbD_and, BitVec.getLsbD_not,
      decide_eq_true hi, Bool.true_and]
    by_cases h : i = b
    · rw [h, hwb, Bool.and_false, Bool.and_false]
    · rw [if_neg h]
      cases hwi : d.writable.getLsbD i with
      | true => rw [clearable_getLsbD hd hwi, Bool.not_false, Bool.and_true, Bool.and_true]
      | false => rw [Bool.and_false, Bool.and_false]

/-! ## Bit aliases (R443, R444) -/

theorem exec_bitAlias {off b : Nat} (h : off < 0x40000 ∧ off % 4 = 0 ∧ b < 32) (v : Word) (req : Requester) (s : State) :
    exec (.bitAliasWrite off b v req) s = .next (s.aliasWrite off b v req) := by
  show execBitAliasWrite off b v req s = _
  rw [execBitAliasWrite, if_pos h]

/-- What BIT_ALIAS_WRITE does at a plain register, by the access code of its bit. -/
theorem State.aliasWrite_of_plainReg {s : State} {off b : Nat} {v : Word} {req : Requester} {d : RegDef} (h : plainReg off d)
    (hr : reaches s req off) :
    (d.bitAcc b = some .rw ∨ d.bitAcc b = some .rs →
      s.aliasWrite off b v req = s.writePlain req off (setBit (s.reg off &&& ~~~ d.clearable) b (bits v 0 1 == 1))) ∧
    (d.bitAcc b = some .w1c → s.aliasWrite off b v req =
      if bits v 0 1 == 1 then s.writePlain req off (setBit (s.reg off &&& ~~~ d.clearable) b true) else s) ∧
    (d.bitAcc b = some .ro ∨ d.bitAcc b = none → s.aliasWrite off b v req = s) := by
  obtain ⟨hd, ⟨-, -, hoff⟩, ⟨hg, htw, -⟩, -⟩ := h
  simp only [List.mem_cons, List.not_mem_nil, or_false, not_or] at hoff
  obtain ⟨h100, h104, -, -⟩ := hoff
  have hguard : guardAt off = none := by rw [guardAt, if_neg hg, if_neg htw]
  unfold State.aliasWrite
  rw [State.onReg_of_reaches hr]
  simp only [hguard, hd, if_neg h100, if_neg h104]
  refine ⟨?_, fun ha => by simp only [ha], ?_⟩
  · rintro (ha | ha) <;> simp only [ha]
  · rintro (ha | ha) <;> simp only [ha]

theorem bitAlias_plain (s : State) (off b : Nat) (v : Word) (req : Requester) (d : RegDef) (on : Bool) (hc : canonical s)
    (h : plainReg off d) (hlt : off < 0x40000) (hb : b < 32) (hr : reaches s req off) (hon : on = decide (bits v 0 1 = 1)) :
    (d.bitAcc b = some .rw ∨ d.bitAcc b = some .rs → accepts off d (setBit (s.reg off &&& ~~~ d.clearable) b on) s →
      ∃ t, exec (.bitAliasWrite off b v req) s = .next t ∧ t.reg off = setBit (s.reg off) b on ∧
        (∀ r, r ≠ off → r ≠ 0x264 → r ≠ 0x278 → t.reg r = s.reg r) ∧ changesOnly (logged [.regs]) s t) ∧
    (d.bitAcc b = some .w1c → accepts off d (setBit (s.reg off &&& ~~~ d.clearable) b true) s → on = true →
      ∃ t, exec (.bitAliasWrite off b v req) s = .next t ∧ t.reg off = setBit (s.reg off) b false ∧
        (∀ r, r ≠ off → t.reg r = s.reg r) ∧ changesOnly [.regs] s t) ∧
    ((d.bitAcc b = some .w1c ∧ on = false) ∨ d.bitAcc b = some .ro ∨ d.bitAcc b = none →
      exec (.bitAliasWrite off b v req) s = .next s) := by
  have hoff := h.word.2.2
  simp only [List.mem_cons, List.not_mem_nil, or_false, not_or] at hoff
  obtain ⟨-, -, h264, h278⟩ := hoff
  obtain ⟨hrw, hw1c, hro⟩ := State.aliasWrite_of_plainReg (b := b) (v := v) h hr
  obtain ⟨hwb, hcb⟩ := bit_of_bitAcc h.row hb
  have hbeq : (bits v 0 1 == 1) = on := by rw [hon, beq_eq_decide]
  rw [exec_bitAlias ⟨hlt, h.word.1, hb⟩]
  refine ⟨fun ha hacc => ⟨_, rfl, ?_⟩, fun ha hacc ht => ⟨_, rfl, ?_⟩, ?_⟩
  · obtain ⟨hreg, -, -, -, -, -, hrest, honly⟩ := plainWrite_accepted hc h hacc req rfl
    rw [hrw ha, hbeq]
    exact ⟨hreg.trans (after_setBit_of_writable h.row hb (hwb ha) _ _), hrest, honly⟩
  · obtain ⟨hafter, hsame⟩ := after_setBit_of_clearable h.row hb (hcb ha) (s.reg off)
    obtain ⟨hreg, -, honly, -, hrest⟩ := State.takeReg_takes hc h264 h278 req (s.reg off)
      (d.after (s.reg off) (setBit (s.reg off &&& ~~~ d.clearable) b true)) _
    have hlog := (logged_eq_old_iff (s.reg off) (setBit (s.reg off &&& ~~~ d.clearable) b true) d.writable).2 hsame
    rw [hw1c ha, hbeq, if_pos ht, State.writePlain_of_accepts h.row hacc]
    exact ⟨hreg.trans hafter, hrest hlog, (honly hlog).frame⟩
  · rintro (⟨ha, hoff⟩ | ha)
    · rw [hw1c ha, hbeq, hoff]
      rfl
    · rw [hro ha]

/-! ### On a guarded pair (R438) -/

theorem State.guard_setGuard (s : State) (r : Nat) (g : Guard) (hc : canonical s) : (s.setGuard r g).guard r = g :=
  Tab.get_put_self (fun r => (⟨guardReset r, none⟩ : Guard)) _ _ _ hc.guards

theorem State.guard_setGuard_of_ne (s : State) (r j : Nat) (g : Guard) (h : r ≠ j) : (s.setGuard r g).guard j = s.guard j :=
  Tab.get_put_of_ne _ _ _ _ _ _ h

/-- A mismatch on a pair that holds a pending value (R438): the value is discarded, the mismatch counted, shown and logged. -/
theorem State.guardMismatch_of_pending {s : State} (hc : canonical s) {r a : Nat} {w : Word} {armer : Requester}
    (hp : (s.guard r).pending = some (w, armer, a)) (o : Nat × Nat) (off : Nat) (tried : Word) {t : State}
    (ht : t = s.guardMismatch r o off tried) :
    (t.guard r).pending = none ∧
      mismatched r 1 o off tried [w32 (originOf armer).1, w32 (originOf armer).2] s t := by
  unfold State.guardMismatch at ht
  simp only [hp] at ht
  set s1 := s.setGuard r { s.guard r with pending := none } with hs1
  set s2 := (s1.bump 0x114 0 16).guardShow r .guardMismatch with hs2
  have m1 : Moves [.guards] s s1 := State.setGuard_moves
  have m2 : Moves [.regs] s1 s2 :=
    (State.bump_moves_regs (by decide) (by decide)).trans (State.setReg_moves_regs (by decide) (by decide))
  have m3 : Moves (logged []) s2 t := ht ▸ State.emit_moves
  have hregs (x : Nat) (h1 : x ≠ 0x264) (h2 : x ≠ 0x278) : t.reg x = s2.reg x := reg_eq_of_moves m3 (by decide) h1 h2
  have hguards : t.guards = s1.guards := (m3.frame .guards (by decide)).trans (m2.frame .guards (by decide))
  have hself : t.guard r = { s.guard r with pending := none } := by
    rw [State.guard, hguards]
    exact s.guard_setGuard r _ hc
  have hother (j : Nat) (hj : j ≠ r) : t.guard j = s.guard j := by
    rw [State.guard, hguards]
    exact s.guard_setGuard_of_ne r j _ hj.symm
  have hvalue : s2.guardValue r = s.guardValue r := by
    have hcommitted : (s2.guard r).committed = (s.guard r).committed := by
      rw [State.guard, m2.frame .guards (by decide)]
      show ((s.setGuard r { s.guard r with pending := none }).guard r).committed = _
      rw [State.guard_setGuard _ _ _ hc]
    rw [State.guardValue, State.guardValue, hcommitted]
    rfl
  refine ⟨by rw [hself], ?_, ?_, ?_, fun j => ?_, hother, fun x hx => ?_, ?_⟩
  · rw [State.fld, hregs _ (by decide) (by decide)]
    show bits ((s1.bump 0x114 0 16).guardShow r .guardMismatch |>.reg 0x114) 0 16 = _
    rw [State.guardShow, State.reg_setReg_of_ne _ _ _ _ (by decide)]
    exact State.fld_bump_of_reset_zero s1 _ _ _ resetAt_guardCount (by decide) (by decide)
  · rw [hregs _ (by decide) (by decide)]
    exact State.reg_setReg _ _ _ (((State.bump_moves_regs (by decide) (by decide)).keeps (m1.keeps hc)).regs)
  · rw [ht, ← hvalue]
    exact State.emit_recorded _ _ _ _ _ _ _
  · by_cases hj : j = r
    · rw [hj, hself]
    · rw [hother j hj]
  · simp only [List.mem_cons, List.not_mem_nil, or_false, not_or] at hx
    obtain ⟨h110, h114, h264, h278⟩ := hx
    rw [hregs x h264 h278]
    show ((s1.bump 0x114 0 16).guardShow r .guardMismatch).reg x = _
    rw [State.guardShow, State.reg_setReg_of_ne _ _ _ _ (Ne.symm h110), State.reg_bump_of_ne _ _ _ _ _ (Ne.symm h114)]
    rfl
  · exact (((m1.mono (by decide)).via m2 (by decide)).via m3 (by decide)).frame

theorem guardAt_lt {off r : Nat} (h : guardAt off = some r) : off < 0x40000 := by
  unfold guardAt at h
  split at h
  · omega
  · split at h
    · omega
    · cases h

theorem State.aliasWrite_of_guard {s : State} {off b r : Nat} {v : Word} {req : Requester} (hg : guardAt off = some r)
    (hr : reaches s req off) : s.aliasWrite off b v req = s.guardDisturb r (originOf req) off v := by
  unfold State.aliasWrite
  rw [State.onReg_of_reaches hr]
  simp only [hg]

theorem bitAlias_guard (s : State) (off b r a : Nat) (v w : Word) (req armer : Requester) (hc : canonical s)
    (hg : guardAt off = some r) (hb : b < 32) (hal : off % 4 = 0) (hr : reaches s req off) :
    ((s.guard r).pending = some (w, armer, a) → ∃ t, exec (.bitAliasWrite off b v req) s = .next t ∧ (t.guard r).pending = none ∧
      mismatched r 1 (originOf req) off v [w32 (originOf armer).1, w32 (originOf armer).2] s t) ∧
    ((s.guard r).pending = none → exec (.bitAliasWrite off b v req) s = .next s) := by
  rw [exec_bitAlias ⟨guardAt_lt hg, hal, hb⟩, State.aliasWrite_of_guard hg hr]
  unfold State.guardDisturb
  refine ⟨fun hp => ⟨_, rfl, ?_⟩, fun hp => ?_⟩
  · rw [hp, Option.isSome_some, if_pos rfl]
    exact State.guardMismatch_of_pending hc hp _ _ _ rfl
  · simp [hp]

/-! ### On a strobe, through the window, and out of range -/

/-- Whether a request arrives does not depend on what it asks. -/
theorem State.reach_cases (s : State) (req : Requester) :
    (∀ go, s.reach req go = go s) ∨ ∀ go go', s.reach req go = s.reach req go' := by
  by_cases hp : s.power = .on
  · cases req with
    | host id =>
      by_cases hl : s.host.rate = 0 ∨ s.locked 25 = false
      · exact .inr fun go go' => by rw [State.reach_of_link_down hl, State.reach_of_link_down hl]
      · obtain ⟨hr, hl⟩ := not_or.1 hl
        have hl := Bool.eq_true_of_not_eq_false hl
        cases hi : s.ideOpen with
        | true => exact .inl (State.reach_of_open hp fun _ _ => ⟨hr, hl, hi⟩)
        | false => exact .inr fun go go' => by rw [State.reach_of_ide_closed hp hr hl hi, State.reach_of_ide_closed hp hr hl hi]
    | _ => exact .inl (State.reach_of_open hp fun _ h => nomatch h)
  · exact .inr fun go go' => by rw [State.reach_of_power_off hp, State.reach_of_power_off hp]

/-- Whoever does not arrive once does not arrive when asked twice. -/
theorem State.onReg_onReg (s : State) (req : Requester) (off : Nat) (v w : Word) (go : State → State)
    (ha : s.absentAt off = false) (hs : s.answers off = true) :
    s.onReg req off v (fun s => s.onReg req off w go) = s.onReg req off w go := by
  rcases s.reach_cases req with h | h
  · simp [State.onReg, h, ha, hs]
  · exact h _ _

theorem answers_of_low (s : State) {off : Nat} (h : off < 0x200) : s.absentAt off = false ∧ s.answers off = true := by
  have hisland : islandOf off = none := by
    unfold islandOf
    rw [if_neg (by omega), if_neg (by omega), if_neg (by omega), if_neg (by omega), if_neg (by omega), if_neg (by omega),
      if_neg (by omega)]
  constructor
  · simp [State.absentAt, show ¬ 0x03400000 ≤ off by omega, show ¬ 0x03600000 ≤ off by omega]
  · simp [State.answers, hisland, show ¬ 0x03000000 ≤ off by omega]

theorem bitAlias_strobes (s : State) (b : Nat) (v : Word) (req : Requester) (hb : b < 32) (hv : bits v 0 1 = 1) :
    exec (.bitAliasWrite 0x100 b v req) s = exec (.globalApply (setBit 0 b true) req) s ∧
    (b < 20 → exec (.bitAliasWrite 0x104 b v req) s = exec (.globalSnap (setBit 0 b true) req) s) := by
  obtain ⟨⟨d, hd⟩, ⟨d', hd'⟩⟩ := regDef_strobes.imp Option.isSome_iff_exists.1 Option.isSome_iff_exists.1
  obtain ⟨ha, hs⟩ := answers_of_low s (off := 0x100) (by decide)
  obtain ⟨ha', hs'⟩ := answers_of_low s (off := 0x104) (by decide)
  rw [exec_bitAlias ⟨by decide, by decide, hb⟩, exec_bitAlias ⟨by decide, by decide, hb⟩]
  refine ⟨congrArg Host.Outcome.next ?_, fun hb20 => congrArg Host.Outcome.next ?_⟩
  · rw [State.writeApply, ← State.onReg_onReg s req 0x100 v _ _ ha hs]
    simp [State.aliasWrite, guardAt, hd, hv, State.writeApply]
  · rw [State.writeSnap, ← State.onReg_onReg s req 0x104 v _ _ ha' hs']
    simp [State.aliasWrite, guardAt, hd', hv, hb20, State.writeSnap]

/-- The window of the bit aliases reaches each of them (R10). -/
theorem registerWrite_aliasWindow (s : State) (off b : Nat) (v : Word) (req : Requester) (hlt : off < 0x40000) (hal : off % 4 = 0)
    (hb : b < 32) : exec (.registerWrite (0x03800000 + off / 4 * 0x80 + b * 4) v 0xF req) s = exec (.bitAliasWrite off b v req) s := by
  rw [exec_bitAlias ⟨hlt, hal, hb⟩]
  show execRegisterWrite (0x03800000 + off / 4 * 0x80 + b * 4) v 0xF req s = _
  unfold execRegisterWrite
  rw [if_neg (by omega), if_neg (by omega), if_neg (not_or.2 ⟨by simp, by omega⟩), if_pos (by omega),
    show (0x03800000 + off / 4 * 0x80 + b * 4 - 0x03800000) / 0x80 * 4 = off by omega,
    show (0x03800000 + off / 4 * 0x80 + b * 4 - 0x03800000) % 0x80 / 4 = b by omega]

/-! ## Accesses that no target answers (R436) -/

theorem accessTimeout_silent (s : State) (off : Nat) (w : Option Word) (req : Requester) (hp : s.power = .on)
    (hh : ∀ id, req = .host id → s.host.rate ≠ 0 ∧ s.locked 25 = true ∧ s.ideOpen = true) (ha : s.absentAt off = false)
    (hs : s.answers off = false) :
    ∃ t, exec (.registerAccessTimeout off w req) s = .next t ∧ t.fld 0x118 0 16 = min (s.fld 0x118 0 16 + 1) 0xFFFF ∧
      recorded t (originOf req).1 (originOf req).2 1 evRegWrite .internal [w32 off, 0, w.getD 0] ∧
      (∀ r, r ≠ 0x118 → r ≠ 0x264 → r ≠ 0x278 → t.reg r = s.reg r) ∧ changesOnly (logged [.regs]) s t := by
  have hexec : exec (.registerAccessTimeout off w req) s = .next (s.regTimeout req off (w.getD 0)) := by
    show execRegisterAccessTimeout off w req s = _
    rw [execRegisterAccessTimeout, State.reach_of_open hp hh]
    simp [ha, hs]
  exact ⟨_, hexec, State.bump_logRefused_counts s 0 (.inl rfl) req off .internal 0 (w.getD 0) rfl⟩

theorem accessTimeout_idle (s : State) (off : Nat) (w : Option Word) (req : Requester)
    (h : s.power ≠ .on ∨ reaches s req off ∨ (s.absentAt off = true ∧ ∀ id, req = .host id → s.ideOpen = true)) :
    exec (.registerAccessTimeout off w req) s = .next s := by
  show execRegisterAccessTimeout off w req s = _
  unfold execRegisterAccessTimeout
  rcases h with hp | ⟨hp, -, hs, hh⟩ | ⟨ha, hi⟩
  · rw [State.reach_of_power_off hp]
  · rw [State.reach_of_open hp hh]
    simp [hs]
  · unfold State.reach
    cases req with
    | host id => simp [ha, hi id rfl]
    | _ => simp [ha]

theorem aliasesAndTimeouts : AliasesAndTimeouts := by
  refine ⟨bitAlias_plain, bitAlias_guard, registerWrite_aliasWindow, bitAlias_strobes, fun s off b v req h => ?_,
    accessTimeout_silent, accessTimeout_idle⟩
  show execBitAliasWrite off b v req s = _
  rw [execBitAliasWrite, if_neg (by omega)]

/-- Settles O17: a write by its offset is a plain write, a command of its owner, or discarded; BIT_ALIAS_WRITE is a plain write of its
register with one bit changed; a write that does not reach ends on the bus. -/
theorem registerAccess : Obligations.RegisterAccess := by
  unfold Obligations.RegisterAccess
  exact ⟨registerWrites, aliasesAndTimeouts, writesThatDoNotReach⟩

end Sys2Proof.Machine

/-! ## TIER_CMD takes a command or refuses it (R14, R323) -/

namespace Sys2Proof.Machine

open Sys2Proof.Laws Sys2Proof.Safety

/-- A state in which TIER_CMD holds a command that it has just taken. -/
def State.tierTaken (s : State) (req : Requester) (op i : Nat) : State :=
  s.takeReg req 0x02030060 (s.reg 0x02030060) (w32 (op + i * 16)) (w32 (op + i * 16))

/-- What `State.tierTaken` does to a state: only the register and the record of the write are new. -/
structure TierTaken (v : Word) (s t : State) : Prop where
  shown : t.reg 0x02030060 = v
  rest : ∀ r, r ≠ 0x02030060 → r ≠ 0x264 → r ≠ 0x278 → t.reg r = s.reg r
  moves : Moves (logged [.regs]) s t

theorem State.tierTaken_taken {s : State} (hc : canonical s) (req : Requester) (op i : Nat) :
    TierTaken (w32 (op + i * 16)) s (s.tierTaken req op i) := by
  obtain ⟨hshown, -, -, hrest, -⟩ := State.takeReg_takes hc (off := 0x02030060) (by decide) (by decide) req (s.reg 0x02030060)
    (w32 (op + i * 16)) (w32 (op + i * 16))
  exact ⟨hshown, hrest, State.takeReg_moves⟩

/-- The model's test of the device state is `tierLegal`. -/
theorem tierLegal_iff (s : State) (op : Nat) :
    (s.dev == .ready || s.dev == .running || (s.dev == .quiescing && op == 4)) = true ↔ tierLegal s op := by
  simp [tierLegal, or_assoc]

/-- The order of TIER_CMD's checks (R14), for a write that reaches it. -/
theorem State.tierCmd_of_reaches {s : State} {req : Requester} (hr : reaches s req 0x02030060) (op i : Nat) (go : State → State) :
    (s.tierAbsent op i = true → ¬ tierLegal s op ∨ s.tier.cmd.isSome = true →
      s.tierCmd req op i go = s.logRefused req 0x02030060 .unitAbsent (s.reg 0x02030060) (w32 (op + i * 16))) ∧
    (s.tierAbsent op i = false → ¬ tierLegal s op →
      s.tierCmd req op i go = s.logRefused req 0x02030060 .stateInvalid (s.reg 0x02030060) (w32 (op + i * 16))) ∧
    (s.tierAbsent op i = false → tierLegal s op → s.tier.cmd.isSome = true →
      s.tierCmd req op i go =
        (s.bump 0x118 16 16).logRefused req 0x02030060 .busy (s.reg 0x02030060) (w32 (op + i * 16))) ∧
    (s.tierAbsent op i = true → tierLegal s op → s.tier.cmd = none →
      s.tierCmd req op i go = (s.tierTaken req op i).endTierCmd .unitAbsent) ∧
    (s.tierAbsent op i = false → tierLegal s op → s.tier.cmd = none → s.tierCmd req op i go = go (s.tierTaken req op i)) := by
  unfold State.tierCmd
  rw [State.onReg_of_reaches hr]
  simp only [← tierLegal_iff]
  refine ⟨fun ha h => ?_, fun ha hl => ?_, fun ha hl hb => ?_, fun ha hl hb => ?_, fun ha hl hb => ?_⟩
  · simp only [Bool.not_eq_true] at h
    rcases h with h | h <;> simp [ha, h]
  · simp only [Bool.not_eq_true] at hl
    simp [ha, hl]
  · simp [ha, hl, hb]
  · simp [ha, hl, hb]
    rfl
  · simp [ha, hl, hb]
    rfl

theorem exec_tierOp {c : Instr} {op i : Nat} {req : Requester} (h : tierOp c = some (op, i, req)) (s : State) :
    ∃ go, exec c s = .next (s.tierCmd req op i go) := by
  cases c <;> simp only [tierOp, Option.some.injEq, Prod.mk.injEq, reduceCtorEq] at h <;> obtain ⟨rfl, rfl, rfl⟩ := h <;>
    exact ⟨_, rfl⟩

theorem State.writeTierCmd_reserved (s : State) (v : Word) (req : Requester) (h : bits v 0 4 = 0 ∨ 7 ≤ bits v 0 4) :
    s.writeTierCmd v req = s.tierCmd req (bits v 0 4) (bits v 4 20) fun s => s.endTierCmd .badArgument := by
  unfold State.writeTierCmd
  split
  case h_7 => rfl
  all_goals omega

theorem State.tierAbsent_of_ne (s : State) {op : Nat} (h1 : op ≠ 1) (h3 : op ≠ 3) (i : Nat) : s.tierAbsent op i = false := by
  simp [State.tierAbsent, h1, h3]

/-! ### What the engine sees after it took a command -/

namespace TierTaken

variable {v : Word} {s t : State} (h : TierTaken v s t)

include h

theorem tier_eq : t.tier = s.tier := h.moves.frame .tier (by decide)

theorem tensor_eq (i : Nat) : t.tensor i = s.tensor i := by rw [State.tensor, h.tier_eq, State.tensor]

theorem regsBelow : RegsBelow 0x02030060 s t := fun r hr => h.rest r hr.ne

theorem load_eq (da n : Nat) : t.load da n = s.load da n :=
  List.map_congr_left fun _ _ => byte_eq_of_moves h.moves (by decide) _

theorem entry_eq (i : Nat) : t.load (t.regEntryDa i) 64 = s.load (s.regEntryDa i) 64 := by
  rw [h.load_eq, State.regEntryDa_congr h.regsBelow]

theorem poolFrames_eq : t.poolFrames = s.poolFrames := by
  unfold State.poolFrames
  refine congrArg List.flatten (List.map_congr_left fun n _ => ?_)
  rw [h.rest (0x02030100 + 4 * n) (by omega) (by omega) (by omega)]

theorem flashBytes_eq : t.flashBytes = s.flashBytes := by
  obtain ⟨hvariant, -⟩ := h.moves.frame .ident (by decide)
  rw [State.flashBytes, hvariant, State.flashBytes]

theorem registerCheck_eq (i : Nat) : t.registerCheck i = s.registerCheck i := by
  unfold State.registerCheck
  simp only [h.entry_eq, State.nameIn_congr h.regsBelow, h.regsBelow 0x02030008 (by decide) (by decide) (by decide), h.tier_eq,
    h.flashBytes_eq, h.poolFrames_eq, h.tensor_eq]

theorem mayMove_eq (hd : s.dev = .ready ∨ s.dev = .running) : t.mayMove = decide (s.moves < 8) := by
  have hdev : t.dev = s.dev := h.moves.frame .dev (by decide)
  unfold State.mayMove State.moves
  rw [hdev, h.tier_eq]
  rcases hd with hd | hd <;> simp [hd]

/-- The command ends at once with a status. -/
theorem ended {op i : Nat} (hv : v = w32 (op + i * 16)) (hcmd : s.tier.cmd = none) (st : Status) :
    tierEnded op i st s (t.endTierCmd st) := by
  refine ⟨?_, h.shown.trans hv, ((h.moves.mono (by decide)).via State.endTierCmd_moves (by decide)).frame⟩
  simp [State.endTierCmd, h.tier_eq, hcmd]

end TierTaken

/-! ### TierCommandRefused -/

theorem tierCommandRefused : TierCommandRefused := by
  refine ⟨fun s c op i req hc hop hr => ?_, fun s v req hc hr hv => ⟨fun h1 h2 => ?_, fun hd hcmd => ?_⟩⟩
  · obtain ⟨go, hexec⟩ := exec_tierOp hop s
    obtain ⟨habsent, hillegal, hbusy, -, -⟩ := State.tierCmd_of_reaches hr op i go
    rw [hexec]
    refine ⟨fun ha h => ⟨_, rfl, ?_⟩, fun ha hl => ⟨_, rfl, ?_⟩, fun ha hl hb => ⟨_, rfl, ?_⟩⟩
    · rw [habsent ha h]
      exact State.logRefused_refusedWrite _ _ _ _ _ _
    · rw [hillegal ha hl]
      exact State.logRefused_refusedWrite _ _ _ _ _ _
    · obtain ⟨hcount, hrecord, hregs, honly⟩ := State.bump_logRefused_counts s 16 (.inr rfl) req 0x02030060 .busy
        (s.reg 0x02030060) (w32 (op + i * 16)) (hbusy ha hl hb)
      exact ⟨hcount, honly .tier (by decide), hrecord, hregs, honly⟩
  · have hl : ¬ tierLegal s (bits v 0 4) := by
      rintro (h | h | ⟨-, h⟩)
      · exact h1 h
      · exact h2 h
      · omega
    obtain ⟨-, hillegal, -⟩ := State.tierCmd_of_reaches hr (bits v 0 4) (bits v 4 20) fun s => s.endTierCmd .badArgument
    rw [State.writeTierCmd_reserved s v req hv, hillegal (s.tierAbsent_of_ne (by omega) (by omega) _) hl]
    exact State.logRefused_refusedWrite _ _ _ _ _ _
  · obtain ⟨-, -, -, -, hgo⟩ := State.tierCmd_of_reaches hr (bits v 0 4) (bits v 4 20) fun s => s.endTierCmd .badArgument
    rw [State.writeTierCmd_reserved s v req hv,
      hgo (s.tierAbsent_of_ne (by omega) (by omega) _) (hd.imp_right .inl) hcmd]
    exact ((State.tierTaken_taken hc req _ _).ended rfl hcmd .badArgument).1

/-! ## REGISTER and UNREGISTER (R309, R318, R323) -/

theorem State.tierCmd_of_ready {s : State} {req : Requester} (h : tierReady s req) {op i : Nat} (go : State → State) :
    (s.tierAbsent op i = true → s.tierCmd req op i go = (s.tierTaken req op i).endTierCmd .unitAbsent) ∧
    (s.tierAbsent op i = false → s.tierCmd req op i go = go (s.tierTaken req op i)) := by
  obtain ⟨-, -, hr, hd, hcmd⟩ := h
  have hl : tierLegal s op := hd.imp_right .inl
  obtain ⟨-, -, -, habsent, hgo⟩ := State.tierCmd_of_reaches hr op i go
  exact ⟨fun ha => habsent ha hl hcmd, fun ha => hgo ha hl hcmd⟩

theorem tierTaken_of_ready {s : State} {req : Requester} (h : tierReady s req) (op i : Nat) :
    TierTaken (w32 (op + i * 16)) s (s.tierTaken req op i) :=
  State.tierTaken_taken h.1 req op i

theorem tierEnded_of_ready {s : State} {req : Requester} (h : tierReady s req) (op i : Nat) (st : Status) :
    tierEnded op i st s ((s.tierTaken req op i).endTierCmd st) := by
  have htaken := tierTaken_of_ready h op i
  obtain ⟨-, -, -, -, hcmd⟩ := h
  exact htaken.ended rfl hcmd st

theorem State.tensor_setTensor (s : State) (i : Nat) (x : Tensor) (hw : Tab.wf Tensor.none s.tier.tensors = true) :
    (s.setTensor i x).tensor i = x :=
  Tab.get_put_self (fun _ => Tensor.none) _ _ _ ((Tab.wf_iff _ _).1 hw)

theorem State.tensor_setTensor_of_ne (s : State) (i j : Nat) (x : Tensor) (h : j ≠ i) :
    (s.setTensor i x).tensor j = s.tensor j :=
  Tab.get_put_of_ne _ _ _ _ _ _ h.symm

theorem State.setTensor_wf (s : State) (i : Nat) (x : Tensor) (hw : Tab.wf Tensor.none s.tier.tensors = true) :
    Tab.wf Tensor.none (s.setTensor i x).tier.tensors = true :=
  (Tab.wf_iff _ _).2 (Tab.okBy_put (fun _ => Tensor.none) _ _ _ ((Tab.wf_iff _ _).1 hw))

theorem State.tensor_moveTensor (s : State) (i j : Nat) (x : Tensor) : (s.moveTensor i x).tensor j = (s.setTensor i x).tensor j := by
  rw [State.tensor, State.moveTensor_tier, State.tensor]

theorem State.setTensor_tier_congr {s t : State} (h : t.tier = s.tier) (i : Nat) (x : Tensor) :
    (t.setTensor i x).tier = (s.setTensor i x).tier := by
  show { t.tier with tensors := Tab.put Tensor.none t.tier.tensors i x } = _
  rw [h]
  rfl

theorem State.dropTensor_tier (s : State) (i : Nat) :
    (s.dropTensor i).tier =
      ((s.setTensor i { s.tensor i with state := .unregistered, frames := [], dirty := false }).setTensor i .none).tier :=
  State.setTensor_tier_congr (s.moveTensor_tier i _) i .none

/-- The end of a command changes no tensor. -/
theorem State.tensor_endTierCmd (s : State) (st : Status) (i : Nat) : (s.endTierCmd st).tensor i = s.tensor i := rfl

theorem State.endTierCmd_status (s : State) (st : Status) : (s.endTierCmd st).tier.status = st := rfl

theorem State.endTierCmd_cmd (s : State) (st : Status) : (s.endTierCmd st).tier.cmd = none := rfl

theorem State.tensor_updTensor (s : State) (i j : Nat) (x : Tensor) : (s.updTensor i x).tensor j = (s.setTensor i x).tensor j := by
  rw [State.tensor, State.updTensor_tier, State.tensor]

/-- A dropped index holds no tensor, and every other one is as it was. -/
theorem State.tensor_dropTensor (s : State) (i : Nat) (hw : Tab.wf Tensor.none s.tier.tensors = true) :
    (s.dropTensor i).tensor i = .none ∧ ∀ j, j ≠ i → (s.dropTensor i).tensor j = s.tensor j := by
  refine ⟨?_, fun j hj => ?_⟩
  · rw [State.tensor, State.dropTensor_tier]
    exact State.tensor_setTensor _ i _ (s.setTensor_wf i _ hw)
  · rw [State.tensor, State.dropTensor_tier]
    exact (State.tensor_setTensor_of_ne _ i j _ hj).trans (s.tensor_setTensor_of_ne i j _ hj)

/-! ### REGISTER -/

theorem exec_tierRegister {s : State} {i : Nat} {req : Requester} (h : tierReady s req) (ha : s.tierAbsent 1 i = false) :
    exec (.tierRegister i req) s = .next
      (if s.registerCheck i = .ok then
        let u := ((s.tierTaken req 1 i).endTierCmd .ok).moveTensor i (tensorOf (s.load (s.regEntryDa i) 64))
        if (tensorOf (s.load (s.regEntryDa i) 64)).prefT1 then u.promote i else u
      else (s.tierTaken req 1 i).endTierCmd (s.registerCheck i)) := by
  have htaken := tierTaken_of_ready h 1 i
  have hentry (st : Status) : ((s.tierTaken req 1 i).endTierCmd st).load (((s.tierTaken req 1 i).endTierCmd st).regEntryDa i) 64 =
      s.load (s.regEntryDa i) 64 := htaken.entry_eq i
  obtain ⟨-, hgo⟩ := State.tierCmd_of_ready h (op := 1) (i := i) _
  refine congrArg Host.Outcome.next ((hgo ha).trans ?_)
  simp only [htaken.registerCheck_eq, hentry]
  by_cases hck : s.registerCheck i = .ok <;> simp [hck]

theorem registers_checked {s : State} {i : Nat} {req : Requester} {x : Tensor} (h : tierReady s req)
    (ha : s.tierAbsent 1 i = false) (hck : s.registerCheck i = .ok) (hx : x = tensorOf (s.load (s.regEntryDa i) 64))
    (hp : x.prefT1 = false) :
    ∃ t, exec (.tierRegister i req) s = .next t ∧ t.tensor i = x ∧ (∀ j, j ≠ i → t.tensor j = s.tensor j) ∧ t.tier.status = .ok ∧
      t.tier.cmd = none ∧
      (∀ a, a < s.regEntryDa i + 0x38 ∨ s.regEntryDa i + 0x40 ≤ a →
        (∀ pg, pg < x.pages → a < s.pteDa (x.name + pg * tierPage) ∨ s.pteDa (x.name + pg * tierPage) + 8 ≤ a) → t.byte a = s.byte a) ∧
      changesOnly (logged [.regs, .mem, .poison, .dunes, .tier]) s t := by
  have htaken := tierTaken_of_ready h 1 i
  have hexec := exec_tierRegister h ha
  obtain ⟨-, hw, -, -, hcmd⟩ := h
  simp only [← hx, if_pos hck, hp, Bool.false_eq_true, if_false] at hexec
  set u := (s.tierTaken req 1 i).endTierCmd .ok with hu
  have hue : tierEnded 1 i .ok s u := htaken.ended rfl hcmd .ok
  obtain ⟨htier, -, -⟩ := hue
  have hwu : Tab.wf Tensor.none u.tier.tensors = true := by rw [htier]; exact hw
  have hbelow : RegsBelow 0x02030060 s u := htaken.regsBelow
  have hbyte (a : Nat) : u.byte a = s.byte a := byte_eq_of_moves htaken.moves (by decide) a
  refine ⟨_, hexec, ?_, fun j hj => ?_, ?_, ?_, fun a he hpt => ?_, ?_⟩
  · rw [State.tensor_moveTensor, State.tensor_setTensor _ _ _ hwu]
  · rw [State.tensor_moveTensor, State.tensor_setTensor_of_ne _ _ _ _ hj, State.tensor, htier, State.tensor]
  · rw [State.moveTensor_tier]
    rfl
  · rw [State.moveTensor_tier]
    rfl
  · rw [State.byte_moveTensor _ _ _ hwu a, hbyte]
    · rwa [State.regEntryDa_congr hbelow]
    · intro pg hpg
      rw [State.pteDa_congr hbelow]
      exact hpt pg hpg
  · exact (((htaken.moves.mono (by decide)).via State.endTierCmd_moves (by decide)).via State.moveTensor_moves (by decide)).frame

/-! ### UNREGISTER -/

/-- A command of the engine stays in progress. -/
def State.holdTier (s : State) (op i : Nat) : State := { s with tier := { s.tier with cmd := some (op, i) } }

theorem State.tensor_holdTier (s : State) (op i j : Nat) : (s.holdTier op i).tensor j = s.tensor j := rfl

theorem State.holdTier_cmd (s : State) (op i : Nat) : (s.holdTier op i).tier.cmd = some (op, i) := rfl

theorem State.holdTier_moves (s : State) (op i : Nat) : Moves [.tier] s (s.holdTier op i) :=
  Moves.upd_tier

theorem exec_tierUnregister {s : State} {i : Nat} {req : Requester} (h : tierReady s req) :
    exec (.tierUnregister i req) s = .next ((s.tierTaken req 2 i).unregisterGo i) := by
  obtain ⟨-, hgo⟩ := State.tierCmd_of_ready h (op := 2) (i := i) (State.unregisterGo · i)
  exact congrArg Host.Outcome.next (hgo (s.tierAbsent_of_ne (by decide) (by decide) i))

/-- UNREGISTER by the state of its tensor (Table TIER.6). -/
theorem State.unregisterGo_cases (s : State) (i : Nat) :
    ((s.tensor i).state = .unregistered → s.unregisterGo i = s.endTierCmd .badArgument) ∧
    ((s.tensor i).state ≠ .unregistered →
      (s.tensor i).unpinned = false ∨ (s.tensor i).state = .copyIn ∨ (s.tensor i).state = .recompute →
      s.unregisterGo i = s.endTierCmd .busy) ∧
    ((s.tensor i).unpinned = true → (s.tensor i).state = .resident → (s.tensor i).dirty = true →
      s.unregisterGo i = (if s.mayMove then s.updTensor i { s.tensor i with state := .copyOut } else s).holdTier 2 i) ∧
    ((s.tensor i).unpinned = true → (s.tensor i).state = .copyOut → s.unregisterGo i = s.holdTier 2 i) ∧
    ((s.tensor i).unpinned = true → (s.tensor i).state = .atHome ∨ ((s.tensor i).state = .resident ∧ (s.tensor i).dirty = false) →
      s.unregisterGo i = (s.dropTensor i).endTierCmd .ok) := by
  unfold State.unregisterGo
  refine ⟨fun h => ?_, fun h1 h2 => ?_, fun hp h hd => ?_, fun hp h => ?_, fun hp h => ?_⟩
  · simp [h]
  · rcases h2 with h2 | h2 | h2 <;> simp [h1, h2]
  · simp [hp, h, hd, State.holdTier]
  · simp [hp, h, State.holdTier]
  · rcases h with h | ⟨h, hd⟩
    · simp [hp, h]
    · simp [hp, h, hd]

theorem unregisters_clean {s : State} {i : Nat} {req : Requester} (h : tierReady s req) (hp : (s.tensor i).unpinned = true)
    (hst : (s.tensor i).state = .atHome ∨ ((s.tensor i).state = .resident ∧ (s.tensor i).dirty = false)) :
    ∃ t, exec (.tierUnregister i req) s = .next t ∧ t.tensor i = .none ∧ (∀ j, j ≠ i → t.tensor j = s.tensor j) ∧
      t.tier.status = .ok ∧ t.tier.cmd = none ∧ changesOnly (logged [.regs, .mem, .poison, .dunes, .tier]) s t := by
  have htaken := tierTaken_of_ready h 2 i
  have hexec := exec_tierUnregister (i := i) h
  obtain ⟨-, -, -, -, hdrop⟩ := (s.tierTaken req 2 i).unregisterGo_cases i
  rw [htaken.tensor_eq] at hdrop
  rw [hdrop hp hst] at hexec
  obtain ⟨-, hw, -⟩ := h
  rw [← htaken.tier_eq] at hw
  obtain ⟨hnone, hother⟩ := (s.tierTaken req 2 i).tensor_dropTensor i hw
  refine ⟨_, hexec, ?_, fun j hj => ?_, State.endTierCmd_status _ _, State.endTierCmd_cmd _ _,
    (((htaken.moves.mono (by decide)).via State.dropTensor_moves (by decide)).via State.endTierCmd_moves (by decide)).frame⟩
  · rw [State.tensor_endTierCmd, hnone]
  · rw [State.tensor_endTierCmd, hother j hj, htaken.tensor_eq]

theorem unregister_dirty {s : State} {i : Nat} {req : Requester} (h : tierReady s req) (hp : (s.tensor i).unpinned = true)
    (hst : (s.tensor i).state = .resident) (hdirty : (s.tensor i).dirty = true) :
    ∃ t, exec (.tierUnregister i req) s = .next t ∧ t.tier.cmd = some (2, i) ∧ (∀ j, j ≠ i → t.tensor j = s.tensor j) ∧
      (s.moves < 8 → t.tensor i = { s.tensor i with state := .copyOut }) ∧ (8 ≤ s.moves → t.tensor i = s.tensor i) := by
  have htaken := tierTaken_of_ready h 2 i
  have hexec := exec_tierUnregister (i := i) h
  obtain ⟨-, -, hcopy, -, -⟩ := (s.tierTaken req 2 i).unregisterGo_cases i
  obtain ⟨-, hw, -, hd, -⟩ := h
  rw [htaken.tensor_eq, htaken.mayMove_eq hd] at hcopy
  rw [hcopy hp hst hdirty] at hexec
  rw [← htaken.tier_eq] at hw
  set u := s.tierTaken req 2 i
  by_cases hm : s.moves < 8
  · rw [decide_eq_true hm, if_pos rfl] at hexec
    refine ⟨_, hexec, State.holdTier_cmd _ _ _, fun j hj => ?_, fun _ => ?_, fun h8 => absurd hm (by omega)⟩
    · rw [State.tensor_holdTier, State.tensor_updTensor, u.tensor_setTensor_of_ne i j _ hj, htaken.tensor_eq]
    · rw [State.tensor_holdTier, State.tensor_updTensor, u.tensor_setTensor i _ hw]
  · rw [decide_eq_false hm, if_neg Bool.false_ne_true] at hexec
    exact ⟨_, hexec, State.holdTier_cmd _ _ _, fun j _ => (u.tensor_holdTier 2 i j).trans (htaken.tensor_eq j),
      fun h8 => absurd h8 hm, fun _ => (u.tensor_holdTier 2 i i).trans (htaken.tensor_eq i)⟩

theorem unregister_copyOut {s : State} {i : Nat} {req : Requester} (h : tierReady s req) (hp : (s.tensor i).unpinned = true)
    (hst : (s.tensor i).state = .copyOut) :
    ∃ t, exec (.tierUnregister i req) s = .next t ∧ t.tier = { s.tier with cmd := some (2, i) } ∧
      changesOnly (logged [.regs, .tier]) s t := by
  have htaken := tierTaken_of_ready h 2 i
  obtain ⟨-, -, -, hhold, -⟩ := (s.tierTaken req 2 i).unregisterGo_cases i
  rw [htaken.tensor_eq] at hhold
  refine ⟨_, (exec_tierUnregister h).trans (congrArg Host.Outcome.next (hhold hp hst)), ?_,
    ((htaken.moves.mono (by decide)).via (State.holdTier_moves _ _ _) (by decide)).frame⟩
  rw [State.holdTier, htaken.tier_eq]

theorem tierRegistry : TierRegistry := by
  refine ⟨fun s i req x h ha hck hx hp => registers_checked h ha hck hx hp, fun s i req st h ha hck hst => ?_,
    fun s i req h ha => ?_, fun s i req h hp hst => unregisters_clean h hp hst,
    fun s i req h hp hst hd => unregister_dirty h hp hst hd, fun s i req h hp hst => unregister_copyOut h hp hst, fun s i req h hst => ?_, fun s i req h hst hbusy => ?_⟩
  · refine ⟨_, exec_tierRegister h ha, ?_⟩
    rw [hck, if_neg hst]
    exact tierEnded_of_ready h 1 i st
  · obtain ⟨habsent, -⟩ := State.tierCmd_of_ready h (op := 1) (i := i) _
    exact ⟨_, congrArg Host.Outcome.next (habsent ha), tierEnded_of_ready h 1 i .unitAbsent⟩
  · obtain ⟨hbad, -⟩ := (s.tierTaken req 2 i).unregisterGo_cases i
    rw [(tierTaken_of_ready h 2 i).tensor_eq] at hbad
    refine ⟨_, exec_tierUnregister h, ?_⟩
    rw [hbad hst]
    exact tierEnded_of_ready h 2 i .badArgument
  · obtain ⟨-, hbusyGo, -⟩ := (s.tierTaken req 2 i).unregisterGo_cases i
    rw [(tierTaken_of_ready h 2 i).tensor_eq] at hbusyGo
    refine ⟨_, exec_tierUnregister h, ?_⟩
    rw [hbusyGo hst hbusy]
    exact tierEnded_of_ready h 2 i .busy

/-- Settles O23: TIER_CMD's checks in their order, then REGISTER and UNREGISTER by the state of their tensor. -/
theorem tierRegistration : Obligations.TierRegistration := by
  unfold Obligations.TierRegistration
  exact ⟨tierCommandRefused, tierRegistry⟩

end Sys2Proof.Machine

/-! ## Units, where their part of the state is as it was

A frame says that a table is the same; these say it of one unit. -/

namespace Sys2Proof.Machine

open Sys2Proof.Laws Sys2Proof.Safety

section

variable {ps : List Part} {s t : State}

theorem scull_eq_of_moves (m : Moves ps s t) (h : Part.sculls ∉ ps) (k : Nat) : t.scull k = s.scull k := by
  rw [State.scull, m.frame .sculls h, State.scull]

theorem crew_eq_of_moves (m : Moves ps s t) (h : Part.crews ∉ ps) (k : Nat) : t.crew k = s.crew k := by
  rw [State.crew, m.frame .crews h, State.crew]

theorem erg_eq_of_moves (m : Moves ps s t) (h : Part.ergs ∉ ps) (k : Nat) : t.erg k = s.erg k := by
  rw [State.erg, m.frame .ergs h, State.erg]

theorem task_eq_of_moves (m : Moves ps s t) (h : Part.tasks ∉ ps) (k : Nat) : t.task k = s.task k := by
  rw [State.task, m.frame .tasks h, State.task]

theorem mb_eq_of_moves (m : Moves ps s t) (h : Part.mbs ∉ ps) (k : Nat) : t.mb k = s.mb k := by
  rw [State.mb, m.frame .mbs h, State.mb]

theorem dune_eq_of_moves (m : Moves ps s t) (h : Part.dunes ∉ ps) (k : Nat) : t.dune k = s.dune k := by
  rw [State.dune, m.frame .dunes h, State.dune]

theorem wake_eq_of_moves (m : Moves ps s t) (h : Part.wakes ∉ ps) (k : Nat) : t.wake k = s.wake k := by
  rw [State.wake, m.frame .wakes h, State.wake]

theorem port_eq_of_moves (m : Moves ps s t) (h : Part.ports ∉ ps) (k : Nat) : t.port k = s.port k := by
  rw [State.port, m.frame .ports h, State.port]

theorem guard_eq_of_moves (m : Moves ps s t) (h : Part.guards ∉ ps) (k : Nat) : t.guard k = s.guard k := by
  rw [State.guard, m.frame .guards h, State.guard]

end

/-- A vector that is raised after an event was logged leaves it recorded. -/
theorem recorded_raiseReg {s : State} {cls ident sev code : Nat} {st : Status} {pl : List Word}
    (h : recorded s cls ident sev code st pl) (off en : Nat) : recorded (s.raiseReg off en) cls ident sev code st pl :=
  recorded_of_moves h State.raiseReg_moves (by decide)

end Sys2Proof.Machine

/-! ## The state after reset (O52), and the passing of time (O51) -/

namespace Sys2Proof.Machine

open Sys2Proof.Laws Sys2Proof.Safety

theorem resetAt_limitedTime : resetAt 0x288 = 0 := by decide +kernel

/-- The state after reset has nothing in any table. -/
theorem canonical_reset : canonical State.reset where
  mem := ⟨rfl, .nil⟩
  regs := Tab.okBy_nil resetAt
  ctrs := rfl
  guards := Tab.okBy_nil fun r => (⟨guardReset r, none⟩ : Guard)
  sculls := rfl
  crews := rfl
  ergs := rfl
  tasks := rfl
  rings := rfl
  mbs := rfl
  dunes := rfl
  wakes := rfl
  ports := rfl

/-- Settles O52: every field is that of the reset state as it is written down. -/
theorem resetState : Obligations.ResetState :=
  ⟨rfl, rfl, rfl, rfl, rfl, rfl, rfl, rfl, fun _ => rfl, fun _ => rfl,
    fun _ => ⟨rfl, rfl, rfl, rfl, rfl, rfl, rfl, rfl, rfl, rfl, rfl⟩, canonical_reset⟩

/-! ### Time on an empty queue (R43, R46, R522) -/

theorem step_of_empty {s : State} (h : s.pending = []) : step s = .next s.tick := by
  unfold step
  rw [h]

theorem State.tick_of_runs {s : State} (hp : s.power = .on) (ht : s.timer = true) :
    s.tick = if s.expireDue.power = .on ∧ s.expireDue.timer = true then s.expireDue.count else s.expireDue := by
  simp [State.tick, State.runs, hp, ht]

theorem State.tick_of_stopped {s : State} (h : s.power ≠ .on ∨ s.timer = false) : s.tick = s := by
  rcases h with h | h <;> simp [State.tick, State.runs, h]

/-- A count of a whole register that resets to 0. -/
theorem State.reg_bump_word (s : State) (off : Nat) (h : resetAt off = 0) :
    (s.bump off 0 32).reg off = w32 (min ((s.reg off).toNat + 1) 0xFFFFFFFF) := by
  have hw := s.fld_bump_of_reset_zero off 0 32 h (by decide) (by decide)
  have hbits (w : Word) : bits w 0 32 = w.toNat := by
    simpa [bits] using Nat.mod_eq_of_lt w.isLt
  rw [State.fld, State.fld, hbits, hbits] at hw
  refine BitVec.eq_of_toNat_eq ?_
  rw [hw, w32, BitVec.toNat_ofNat, Nat.mod_eq_of_lt (by omega)]
  rfl

/-- One microsecond: ETC, and the limited time while the module is limited (R522). -/
theorem State.count_spec (s : State) :
    s.count.etc = (s.etc + 1) % 2 ^ 64 ∧
      s.count.reg 0x288 = (if s.pwr.limited = true then w32 (min ((s.reg 0x288).toNat + 1) 0xFFFFFFFF) else s.reg 0x288) ∧
      (∀ off, off ≠ 0x288 → s.count.reg off = s.reg off) ∧ Moves [.etc, .regs] s s.count := by
  have hm : Moves [.etc, .regs] s { s with etc := (s.etc + 1) % 2 ^ 64 } := Moves.upd_etc.mono (by decide)
  cases hl : s.pwr.limited with
  | true =>
    rw [State.count, if_pos hl, if_pos rfl]
    exact ⟨rfl, State.reg_bump_word _ _ resetAt_limitedTime, fun off h => State.reg_bump_of_ne _ _ _ _ _ h.symm,
      hm.via (State.bump_moves_regs (by decide) (by decide)) (by decide)⟩
  | false =>
    rw [State.count, if_neg (by simp [hl]), if_neg Bool.false_ne_true]
    exact ⟨rfl, rfl, fun _ _ => rfl, hm⟩

/-! ### A pending guarded value ends in time (R438, R46) -/

/-- Pair r holds nothing, or what it holds is due. -/
def State.guardDue (s : State) (r : Nat) : Prop :=
  ∀ w req a, (s.guard r).pending = some (w, req, a) → a + 101 ≤ s.etc

/-- A time-out of a pair leaves the other pairs, and its own with nothing that is due. -/
theorem execGuardPendingTimeout_pending {s : State} (hc : canonical s) (hp : s.power = .on) (i : Nat) :
    (∀ j, j ≠ i → (s.orNext (execGuardPendingTimeout i s)).guard j = s.guard j) ∧
      (s.guardDue i → ((s.orNext (execGuardPendingTimeout i s)).guard i).pending = none) := by
  unfold execGuardPendingTimeout
  split
  next w req a hpend =>
    by_cases ha : a + 101 ≤ s.etc
    · obtain ⟨hnone, hmis⟩ := State.guardMismatch_of_pending hc hpend (originOf req) (guardOff i) w rfl
      rw [if_pos ⟨hp, ha⟩]
      exact ⟨hmis.others, fun _ => hnone⟩
    · rw [if_neg fun h => ha h.2]
      exact ⟨fun _ _ => rfl, fun hd => absurd (hd w req a hpend) ha⟩
  next hpend => exact ⟨fun _ _ => rfl, fun _ => hpend⟩

/-- Once each pair's time-out has been tried, a pair that is due holds nothing. -/
theorem State.expireEach_guards (is : List Nat) {s : State} (hc : canonical s) (hp : s.power = .on) (r : Nat)
    (hd : s.guardDue r) :
    (r ∈ is ∨ (s.guard r).pending = none) → ((s.expireEach execGuardPendingTimeout is).guard r).pending = none := by
  induction is generalizing s with
  | nil => exact fun h => h.resolve_left (by simp)
  | cons i is ih =>
    intro h
    have hm : Moves (logged [.regs, .guards]) s (s.orNext (execGuardPendingTimeout i s)) :=
      State.orNext_moves execGuardPendingTimeout_ends
    have hetc : (s.orNext (execGuardPendingTimeout i s)).etc = s.etc := hm.frame .etc (by decide)
    have hpow : (s.orNext (execGuardPendingTimeout i s)).power = s.power := hm.frame .power (by decide)
    obtain ⟨hother, hself⟩ := execGuardPendingTimeout_pending hc hp i
    by_cases hi : r = i
    · subst hi
      have hnone := hself hd
      exact ih (hm.keeps hc) (hpow.trans hp) (fun w req a hw => by rw [hnone] at hw; cases hw) (.inr hnone)
    · have hg := hother r hi
      refine ih (hm.keeps hc) (hpow.trans hp) (fun w req a hw => ?_) ?_
      · rw [hetc]
        exact hd w req a (hg ▸ hw)
      · rw [hg]
        exact h.imp_left fun hmem => (List.mem_cons.1 hmem).resolve_left hi

/-- What leaves the guarded pairs, power and ETC leaves a pair's value due. -/
theorem State.guardDue_of_moves {ps : List Part} {s t : State} {r : Nat} (m : Moves ps s t)
    (hps : partsIn ps (allBut [.guards, .etc]) = true) (h : s.guardDue r) : t.guardDue r := by
  have hg : t.guards = s.guards := m.frame .guards fun k => absurd (mem_of_partsIn hps k) (by decide)
  have he : t.etc = s.etc := m.frame .etc fun k => absurd (mem_of_partsIn hps k) (by decide)
  intro w req a hw
  rw [he]
  exact h w req a (by rwa [State.guard, hg, ← State.guard] at hw)

/-- The time-outs of the module leave nothing in a pair that is due. -/
theorem State.expireModule_guard {s : State} (hc : canonical s) (hp : s.power = .on) {r : Nat} (hr : r < 8)
    (hd : s.guardDue r) : (s.expireModule.guard r).pending = none := by
  unfold State.expireModule
  extract_lets s1 s2 s3 s4
  have m1 : Moves (allBut [.guards, .etc, .power]) s s1 := State.orNext_moves (execStartStepTimeout_ends.mono (by decide))
  have m2 : Moves (allBut [.guards, .etc, .power]) s s2 :=
    State.expireEach_moves (fun t i ht => ht.via_ends execIslandRelockTimeout_ends (by decide)) m1
  have hnone : (s3.guard r).pending = none :=
    State.expireEach_guards _ (m2.keeps hc) ((m2.frame .power (by decide)).trans hp) r
      (State.guardDue_of_moves m2 (by decide) hd) (.inl (List.mem_range.2 hr))
  have m4 : Moves (allBut [.guards]) s3 s4 := State.orNext_moves (execLowFlowSwitchOff_ends.mono (by decide))
  clear_value s4 s3
  have m5 : Moves (allBut [.guards]) s3 (s4.orNext (execCairnDrainUsExpiry s4)) :=
    State.orNext_moves (m4.via_ends execCairnDrainUsExpiry_ends (by decide))
  rw [guard_eq_of_moves m5 (by decide)]
  exact hnone

/-- What is due of a guarded pair is gone before ETC goes on. -/
theorem State.expireDue_guard {s : State} (hc : canonical s) (hp : s.power = .on) {r : Nat} (hr : r < 8) (hd : s.guardDue r) :
    (s.expireDue.guard r).pending = none := by
  rw [State.expireDue, guard_eq_of_moves State.expireLinks_moves (by decide), guard_eq_of_moves State.expireTasks_moves (by decide)]
  exact State.expireModule_guard hc hp hr hd

theorem emptyQueueTicks : EmptyQueueTicks := by
  refine ⟨fun s he hp ht => ?_, fun s he hp ht hdue => ?_, fun s t r a w req hc he hp ht hr hpend ha hstep => ?_, fun s he h => ?_⟩
  · rw [step_of_empty he, State.tick_of_runs hp ht]
  · obtain ⟨hetc, hreg, hrest, honly⟩ := s.count_spec
    rw [step_of_empty he, State.tick_of_runs hp ht, hdue, if_pos ⟨hp, ht⟩]
    exact ⟨_, rfl, hetc, hreg, hrest, honly.frame⟩
  · have hd : s.guardDue r := fun w' req' a' h' => by
      rw [hpend] at h'
      cases h'
      exact ha
    have hnone := State.expireDue_guard hc hp hr hd
    rw [step_of_empty he, State.tick_of_runs hp ht] at hstep
    rw [← Host.Outcome.next.inj hstep]
    split
    · rw [guard_eq_of_moves State.count_moves (by decide)]
      exact hnone
    · exact hnone
  · rw [step_of_empty he, State.tick_of_stopped h]

/-! ### Nothing else moves ETC (R43) -/

/-- A start is at its first step at ETC 0, or power is away and ETC stands at 0. -/
def State.etcAnew (t : State) : Prop :=
  t.etc = 0 ∧ ((t.power = .on ∧ t.dev = .starting ∧ t.start.step = 1) ∨ (t.power ≠ .on ∧ t.timer = false))

theorem State.beginStart_etcAnew (s : State) (kind : StartKind) (cause : Nat) (good : Bool) :
    (s.beginStart kind cause good).etcAnew := ⟨rfl, .inl ⟨rfl, rfl, rfl⟩⟩

theorem State.powerUp_etcAnew (s : State) : s.powerUp.etcAnew := ⟨rfl, .inl ⟨rfl, rfl, rfl⟩⟩

theorem State.powerDown_etcAnew (s : State) {p : Power} (h : p ≠ .on) : (s.powerDown p).etcAnew := ⟨rfl, .inr ⟨h, rfl⟩⟩

theorem etc_of_next_ite {s t u : State} {c : Prop} [Decidable c] (hu : u.etcAnew)
    (h : (Host.Outcome.next (if c then u else s) : Result) = .next t) : t.etc = s.etc ∨ t.etcAnew := by
  cases h
  split
  · exact .inr hu
  · exact .inl rfl

theorem etcUntouched : EtcUntouched := by
  intro i s t h
  show t.etc = s.etc ∨ t.etcAnew
  have hframe (hi : Part.etc ∉ footprint i) : t.etc = s.etc := by
    obtain ⟨u, hu, hm⟩ := exec_ends i s
    cases hu.symm.trans h
    exact hm.frame .etc hi
  cases i
  case powerApplied =>
    change (Host.Outcome.next (if s.power = .on then s else s.powerUp) : Result) = .next t at h
    rw [← ite_not] at h
    exact etc_of_next_ite s.powerUp_etcAnew h
  case inputSwitchOff => exact etc_of_next_ite (s.powerDown_etcAnew (by decide)) h
  case powerRestore => exact etc_of_next_ite s.powerUp_etcAnew h
  case resetN => exact etc_of_next_ite (s.beginStart_etcAnew _ _ _) h
  case startDelayExpiry good =>
    change execStartDelayExpiry good s = _ at h
    unfold execStartDelayExpiry at h
    split at h
    · exact etc_of_next_ite (s.beginStart_etcAnew _ _ _) h
    · cases h
      exact .inl rfl
  case startRetry =>
    change execStartRetry s = _ at h
    unfold execStartRetry at h
    split at h
    · exact etc_of_next_ite (s.beginStart_etcAnew _ _ _) h
    · cases h
      exact .inl rfl
  case thermalPowerRemove =>
    change execThermalPowerRemove s = _ at h
    unfold execThermalPowerRemove at h
    split at h
    · exact etc_of_next_ite (s.powerDown_etcAnew (by decide)) h
    · cases h
      exact .inl rfl
  all_goals exact .inl (hframe (of_decide_eq_false rfl))

/-- Settles O51: an idle step is a tick, and only the beginning of a start and the loss of power have ETC in their footprint. -/
theorem timePasses : Obligations.TimePasses := by
  unfold Obligations.TimePasses
  exact ⟨emptyQueueTicks, etcUntouched⟩

end Sys2Proof.Machine

/-! ## The power controller (O48) -/

namespace Sys2Proof.Machine

open Sys2Proof.Laws Sys2Proof.Safety

/-! ### The cap in force (R515, R517, R518) -/

/-- The bits of GLOBAL_G_PWR_CAP are its whole value when its reserved bits are 0. -/
theorem State.committedCap_of_lt {s : State} (h : (s.guard 1).committed.toNat < 0x8000) :
    s.committedCap = (s.guard 1).committed.toNat := Nat.mod_eq_of_lt h

theorem settle_cap {s : State} (h : (s.guard 1).committed.toNat < 0x8000) (p : Pwr) :
    (p.settle s.committedCap).cap = capOf s p.vinLim p.flowLim := by
  rw [State.committedCap_of_lt h]
  rfl

theorem State.setLimits_pwr (s : State) (p : Pwr) : (s.setLimits p).pwr = p.settle s.committedCap := by
  unfold State.setLimits
  dsimp only
  split
  · rfl
  · simp

/-- A cap that stays is settled in silence. -/
theorem State.setLimits_of_same {s : State} {p : Pwr} (h : (s.setLimits p).pwr.cap = s.pwr.cap) :
    Moves [.pwr] s (s.setLimits p) := by
  rw [State.setLimits_pwr] at h
  unfold State.setLimits
  rw [if_pos h]
  exact Moves.upd_pwr

/-- A cap that changes is recorded as CAP. -/
theorem State.setLimits_recorded {s : State} {p : Pwr} (h : (s.setLimits p).pwr.cap ≠ s.pwr.cap) :
    recorded (s.setLimits p) 3 (unitId 14 0) 0 evCap .ok
      [w32 s.pwr.cap, w32 (s.setLimits p).pwr.cap, w32 (s.setLimits p).pwr.capCode] := by
  rw [State.setLimits_pwr] at h ⊢
  unfold State.setLimits
  rw [if_neg h]
  exact recorded_raiseReg (State.emit_recorded _ _ _ _ _ _ _) _ _

/-! ### The switch-off (R520) -/

theorem State.thermal_recorded (s : State) (sev : Nat) : recorded (s.thermal sev) 3 (unitId 14 0) sev evThermal .ok [] :=
  recorded_raiseReg (State.emit_recorded _ _ _ _ _ _ _) _ _

theorem State.persistLog_log (s : State) :
    s.persistLog.log = { s.log with area := s.persistLog.log.area, waiting := s.persistLog.log.waiting } := by
  unfold State.persistLog
  split <;> rfl

/-- Persisting the log leaves its ring and its windows. -/
theorem recorded_persistLog {s : State} {cls ident sev code : Nat} {st : Status} {pl : List Word}
    (h : recorded s cls ident sev code st pl) : recorded s.persistLog cls ident sev code st pl := by
  have hm : Moves [.log] s s.persistLog := State.persistLog_moves
  have hetc : s.persistLog.etc = s.etc := hm.frame .etc (by decide)
  have hepoch : s.persistLog.nv.epoch = s.nv.epoch := nv_of_same (hm.frame .nv (by decide)) Nv.epoch fun _ => rfl
  unfold recorded at h ⊢
  rw [s.persistLog_log, hetc, hepoch]
  exact h

theorem State.switchOff_pwr (s : State) :
    s.switchOff.pwr = { s.pwr with offAt := s.switchOff.pwr.offAt } := by
  unfold State.switchOff
  split
  · rfl
  · have hm : Moves (logged []) s (s.thermal 3).persistLog := State.thermal_moves.via State.persistLog_moves (by decide)
    have hpwr : (s.thermal 3).persistLog.pwr = s.pwr := hm.frame .pwr (by decide)
    simp [hpwr]

theorem State.switchOff_switchingOff {s : State} (h : s.pwr.offAt = none) : switchingOff s s.switchOff := by
  have hm : Moves (logged []) s (s.thermal 3).persistLog := State.thermal_moves.via State.persistLog_moves (by decide)
  have hetc : (s.thermal 3).persistLog.etc = s.etc := hm.frame .etc (by decide)
  unfold State.switchOff
  rw [h, if_neg (by simp)]
  refine ⟨?_, recorded_of_moves (recorded_persistLog (s.thermal_recorded 3)) Moves.upd_pwr (by decide)⟩
  dsimp only
  rw [hetc]

/-! ### FLOW_LIMIT_EVAL and LOW_FLOW_SWITCH_OFF (R518, R519) -/

theorem flowLimitEval_spec (s : State) (flow : Nat) (f : Option Nat) (hp : s.power = .on)
    (hg : (s.guard 1).committed.toNat < 0x8000) (hf : f = (if flow < 30000 then some (6667 * flow / 10000) else none)) :
    ∃ t, exec (.flowLimitEval flow) s = .next t ∧ t.pwr.flow = flow ∧ t.pwr.flowLim = f ∧ t.pwr.cap = capOf s s.pwr.vinLim f ∧
      t.pwr.lowFlowAt = (if flow < 6000 then some (s.pwr.lowFlowAt.getD s.etc) else none) ∧ t.pwr.offAt = s.pwr.offAt ∧
      (t.pwr.cap = s.pwr.cap → changesOnly [.pwr] s t) ∧
      (t.pwr.cap ≠ s.pwr.cap → recorded t 3 (unitId 14 0) 0 evCap .ok [w32 s.pwr.cap, w32 t.pwr.cap, w32 t.pwr.capCode]) ∧
      changesOnly (logged [.pwr]) s t := by
  refine ⟨_, if_neg (not_not.2 hp), ?_⟩
  rw [← hf]
  refine ⟨?_, ?_, ?_, ?_, ?_, fun h => (State.setLimits_of_same h).frame, State.setLimits_recorded, State.setLimits_moves.frame⟩
  all_goals rw [State.setLimits_pwr]
  case refine_3 => exact settle_cap hg _
  all_goals rfl

theorem execLowFlowSwitchOff_of_due {s : State} {a : Nat} (ha : s.pwr.lowFlowAt = some a) (hp : s.power = .on)
    (hd : a + 1000001 ≤ s.etc) : exec .lowFlowSwitchOff s = .next s.switchOff := by
  show execLowFlowSwitchOff s = _
  simp [execLowFlowSwitchOff, ha, hp, hd]

theorem execLowFlowSwitchOff_of_idle {s : State} (h : s.power ≠ .on ∨ s.pwr.lowFlowAt = none ∨ s.pwr.offAt ≠ none ∨
    (∃ a, s.pwr.lowFlowAt = some a ∧ s.etc < a + 1000001)) : exec .lowFlowSwitchOff s = .next s := by
  show execLowFlowSwitchOff s = _
  unfold execLowFlowSwitchOff
  split
  next a ha =>
    rcases h with h | h | h | ⟨b, hb, hlt⟩
    · rw [if_neg fun k => h k.1]
    · rw [ha] at h
      cases h
    · have hoff : s.switchOff = s := by
        unfold State.switchOff
        rw [if_pos (Option.isSome_iff_ne_none.2 h)]
      rw [hoff, ite_self]
    · obtain rfl : a = b := Option.some.inj (ha.symm.trans hb)
      rw [if_neg fun k => absurd k.2 (by omega)]
  next => rfl

/-! ### One erg in a control round (R22, R31, R516, R519) -/

/-- What a control round makes of an erg. -/
noncomputable def State.ergRound (s : State) (p : PowerSample) (d : Nat) : Erg :=
  let e := s.erg d
  let t := p.ergTemp.getD d 0
  let top := min (bits (s.guard 2).committed 16 10) (s.capBound p d)
  let hi := if 100 ≤ t then min top (e.mv - 5) else top
  let lo := max (bits (s.guard 2).committed 0 10) (p.floor.getD d 0)
  { e with
    mv := if hi < lo then lo else if floor5 hi < lo then lo else floor5 hi
    issueLim := decide (hi < lo)
    issueStop := if 105 ≤ t then true else if t < 100 then false else e.issueStop }

theorem State.controlErg_eq (s : State) (p : PowerSample) (d : Nat) :
    s.controlErg p d = if (s.ergRound p d).issueStop && !(s.erg d).issueStop then (s.setErg d (s.ergRound p d)).thermal 2
      else s.setErg d (s.ergRound p d) := rfl

theorem State.erg_thermal (s : State) (sev j : Nat) : (s.thermal sev).erg j = s.erg j :=
  erg_eq_of_moves State.thermal_moves (by decide) j

theorem State.erg_controlErg {s : State} (hc : canonical s) (p : PowerSample) (d : Nat) :
    (s.controlErg p d).erg d = s.ergRound p d ∧ ∀ j, j ≠ d → (s.controlErg p d).erg j = s.erg j := by
  rw [State.controlErg_eq]
  have hself := s.erg_setErg d (s.ergRound p d) hc.ergs
  have hother (j : Nat) (hj : j ≠ d) := s.erg_setErg_of_ne d j (s.ergRound p d) hj.symm
  split
  · exact ⟨(State.erg_thermal _ _ _).trans hself, fun j hj => (State.erg_thermal _ _ _).trans (hother j hj)⟩
  · exact ⟨hself, hother⟩

/-- An erg below 100 °C is controlled in silence. -/
theorem State.controlErg_of_cool {s : State} {p : PowerSample} {d : Nat} (h : p.ergTemp.getD d 0 < 100) :
    Moves [.ergs] s (s.controlErg p d) := by
  have hstop : (s.ergRound p d).issueStop = false := by
    show (if 105 ≤ p.ergTemp.getD d 0 then true else if p.ergTemp.getD d 0 < 100 then false else (s.erg d).issueStop) = false
    rw [if_neg (by omega), if_pos h]
  rw [State.controlErg_eq, hstop]
  exact State.setErg_moves

/-- What an erg becomes depends on the erg, the limits and the cap. -/
theorem State.ergRound_congr {s t : State} {p : PowerSample} {d : Nat} (he : t.erg d = s.erg d) (hg : t.guard 2 = s.guard 2)
    (hw : t.pwr.cap = s.pwr.cap) : t.ergRound p d = s.ergRound p d := by
  unfold State.ergRound State.capBound
  rw [he, hg, hw]

/-- Rounds of different ergs do not meet. -/
theorem State.erg_controlErgs {s : State} (hc : canonical s) (p : PowerSample) (l : List Nat) (hl : l.Nodup) :
    (∀ d ∈ l, (l.foldl (fun s d => s.controlErg p d) s).erg d = s.ergRound p d) ∧
      ∀ j, j ∉ l → (l.foldl (fun s d => s.controlErg p d) s).erg j = s.erg j := by
  induction l generalizing s with
  | nil => exact ⟨fun _ h => absurd h (by simp), fun _ _ => rfl⟩
  | cons x l ih =>
    obtain ⟨hx, hl⟩ := List.nodup_cons.1 hl
    have hm : Moves (logged [.ergs]) s (s.controlErg p x) := State.controlErg_moves
    obtain ⟨hself, hother⟩ := State.erg_controlErg hc p x
    obtain ⟨hin, hout⟩ := ih (hm.keeps hc) hl
    rw [List.foldl_cons]
    refine ⟨fun d hd => ?_, fun j hj => ?_⟩
    · by_cases hdx : d = x
      · subst hdx
        rw [hout d hx, hself]
      · rw [hin d ((List.mem_cons.1 hd).resolve_left hdx)]
        exact State.ergRound_congr (hother d hdx) (guard_eq_of_moves hm (by decide) 2)
          (congrArg Pwr.cap (hm.frame .pwr (by decide)))
    · simp only [List.mem_cons, not_or] at hj
      rw [hout j hj.2, hother j hj.1]

/-! ### A control round in its parts -/

/-- The limits that a sample brings, and whether they bind. -/
noncomputable def State.limitRound (s : State) (p : PowerSample) : State :=
  let u := s.setLimits { s.pwr with
    watts := p.watts, vin := p.vin, limited := p.binds, tjMax := (p.ergTemp.take 16 ++ p.oasisTemp.take 4).foldl max 0
    vinLim := if p.vin < 48000 then some (420 * p.vin / 1000) else none }
  { u with pwr := { u.pwr with limited := p.binds || decide (u.pwr.cap ≤ p.watts) } }

/-- Every erg's voltage and issue. -/
noncomputable def State.ergRounds (s : State) (p : PowerSample) : State := (List.range 16).foldl (fun s d => s.controlErg p d) s

/-- The dies at 100 °C or above. -/
noncomputable def hotDies (p : PowerSample) : List Nat := (List.range 20).filter fun i => decide (100 ≤ dieTemp p i)

/-- The hot dies are kept; one that was not hot before is recorded. -/
noncomputable def State.heatRound (s : State) (p : PowerSample) : State :=
  let u : State := { s with pwr := { s.pwr with hot := hotDies p } }
  if (hotDies p).any fun i => !s.pwr.hot.contains i then u.thermal 1 else u

/-- A die or a stack is at 110 °C. -/
noncomputable def State.overheated (s : State) (p : PowerSample) : Bool :=
  ((p.ergTemp.take 16 ++ p.oasisTemp.take 4).any fun (t : Nat) => decide (110 ≤ t)) ||
    ((List.range 48).any fun n => decide (110 ≤ (s.dune n).temp))

/-- A control round before the switch-off. -/
noncomputable def State.controlRound (s : State) (p : PowerSample) : State := ((s.limitRound p).ergRounds p).heatRound p

theorem exec_powerControlTick {s : State} (h : s.power = .on) (p : PowerSample) :
    exec (.powerControlTick p) s = .next (if (s.controlRound p).overheated p then (s.controlRound p).switchOff
      else s.controlRound p) := by
  exact (if_neg (not_not.2 h)).trans (apply_ite Host.Outcome.next _ _ _).symm

theorem State.limitRound_moves {s : State} {p : PowerSample} : Moves (logged [.pwr]) s (s.limitRound p) :=
  State.setLimits_moves.via Moves.upd_pwr (by decide)

theorem State.ergRounds_moves {s : State} {p : PowerSample} : Moves (logged [.ergs]) s (s.ergRounds p) :=
  Moves.foldl (fun _ _ h => h.trans State.controlErg_moves) (Moves.refl _ _) _

theorem State.heatRound_moves {s : State} {p : PowerSample} : Moves (logged [.pwr]) s (s.heatRound p) :=
  Moves.ite ((Moves.upd_pwr.mono (by decide)).via State.thermal_moves (by decide)) (Moves.upd_pwr.mono (by decide))

theorem State.controlRound_moves {s : State} {p : PowerSample} : Moves (logged [.pwr, .ergs]) s (s.controlRound p) :=
  ((State.limitRound_moves.mono (by decide)).via State.ergRounds_moves (by decide)).via State.heatRound_moves (by decide)

theorem State.heatRound_pwr (s : State) (p : PowerSample) : (s.heatRound p).pwr = { s.pwr with hot := hotDies p } := by
  unfold State.heatRound
  dsimp only
  split
  · exact State.thermal_moves.frame .pwr (by decide)
  · rfl

/-- The settled limits of a round, and what else it keeps of its sample. -/
theorem State.controlRound_pwr (s : State) (p : PowerSample) :
    (s.controlRound p).pwr = { (s.limitRound p).pwr with hot := hotDies p } := by
  rw [State.controlRound, State.heatRound_pwr, State.ergRounds_moves.frame .pwr (by decide)]

theorem State.limitRound_pwr (s : State) (p : PowerSample) (q : Pwr) (hq : q = { s.pwr with
      watts := p.watts, vin := p.vin, limited := p.binds, tjMax := (p.ergTemp.take 16 ++ p.oasisTemp.take 4).foldl max 0
      vinLim := if p.vin < 48000 then some (420 * p.vin / 1000) else none }) :
    (s.limitRound p).pwr = { q.settle s.committedCap with
      limited := p.binds || decide ((q.settle s.committedCap).cap ≤ p.watts) } := by
  subst hq
  simp only [State.limitRound, State.setLimits_pwr]

/-! ### Temperatures -/

theorem any_ge_iff (l : List Nat) (m : Nat) :
    (l.any fun (t : Nat) => decide (m ≤ t)) = true ↔ ∃ i, i < l.length ∧ m ≤ l.getD i 0 := by
  simp only [List.any_eq_true, decide_eq_true_eq, List.mem_iff_getElem]
  constructor
  · rintro ⟨x, ⟨i, hi, rfl⟩, hx⟩
    exact ⟨i, hi, by rwa [List.getD_eq_getElem _ _ hi]⟩
  · rintro ⟨i, hi, hx⟩
    exact ⟨l[i], ⟨i, hi, rfl⟩, by rwa [List.getD_eq_getElem _ _ hi] at hx⟩

/-- The switch-off looks at the 20 dies and the 48 stacks. -/
theorem State.overheated_iff {s : State} {p : PowerSample} (h16 : p.ergTemp.length = 16) (h4 : p.oasisTemp.length = 4) :
    s.overheated p = true ↔ (∃ i, i < 20 ∧ 110 ≤ dieTemp p i) ∨ ∃ n, n < 48 ∧ 110 ≤ (s.dune n).temp := by
  have hstacks : ((List.range 48).any fun n => decide (110 ≤ (s.dune n).temp)) = true ↔ ∃ n, n < 48 ∧ 110 ≤ (s.dune n).temp := by
    simp [List.any_eq_true]
  rw [State.overheated, List.take_of_length_le h16.le, List.take_of_length_le h4.le, Bool.or_eq_true, hstacks,
    List.any_append, Bool.or_eq_true, any_ge_iff, any_ge_iff, h16, h4]
  refine or_congr_left ⟨?_, ?_⟩
  · rintro (⟨i, hi, h⟩ | ⟨i, hi, h⟩)
    · exact ⟨i, by omega, by rwa [dieTemp, if_pos hi]⟩
    · exact ⟨16 + i, by omega, by rwa [dieTemp, if_neg (by omega), Nat.add_sub_cancel_left]⟩
  · rintro ⟨i, hi, h⟩
    by_cases h' : i < 16
    · exact .inl ⟨i, h', by rwa [dieTemp, if_pos h'] at h⟩
    · exact .inr ⟨i - 16, by omega, by rwa [dieTemp, if_neg h'] at h⟩

theorem mem_hotDies (p : PowerSample) (i : Nat) : i ∈ hotDies p ↔ i < 20 ∧ 100 ≤ dieTemp p i := by
  simp [hotDies]

/-! ### POWER_CONTROL_TICK -/

/-- With every die below 100 °C the ergs and the heat are settled in silence. -/
theorem State.controlRound_of_cool {s : State} {p : PowerSample} (h : ∀ i, i < 20 → dieTemp p i < 100) :
    Moves [.pwr, .ergs] (s.limitRound p) (s.controlRound p) := by
  have hergs : Moves [.pwr, .ergs] (s.limitRound p) ((s.limitRound p).ergRounds p) := by
    have key (l : List Nat) (hl : ∀ d ∈ l, d < 16) (u : State) : Moves [.pwr, .ergs] u (l.foldl (fun s d => s.controlErg p d) u) := by
      induction l generalizing u with
      | nil => exact Moves.refl _ _
      | cons d l ih =>
        have hd : d < 16 := hl d List.mem_cons_self
        have hcool := h d (by omega)
        rw [dieTemp, if_pos hd] at hcool
        exact ((State.controlErg_of_cool hcool).mono (by decide)).trans (ih (fun x hx => hl x (List.mem_cons_of_mem _ hx)) _)
    exact key _ (fun d hd => List.mem_range.1 hd) _
  have hnone : hotDies p = [] := List.eq_nil_iff_forall_not_mem.2 fun i hi => by
    obtain ⟨h20, h100⟩ := (mem_hotDies p i).1 hi
    exact absurd (h i h20) (by omega)
  rw [State.controlRound, State.heatRound, hnone]
  exact hergs.via Moves.upd_pwr (by decide)

theorem powerControlTick_spec (s : State) (p : PowerSample) (v : Option Nat) (hp : s.power = .on)
    (h16 : p.ergTemp.length = 16) (h4 : p.oasisTemp.length = 4) (hg : (s.guard 1).committed.toNat < 0x8000)
    (hv : v = (if p.vin < 48000 then some (420 * p.vin / 1000) else none)) :
    ∃ t, exec (.powerControlTick p) s = .next t ∧ t.pwr.watts = p.watts ∧ t.pwr.vin = p.vin ∧ t.pwr.limited = (p.binds || decide (t.pwr.cap ≤ p.watts)) ∧ t.pwr.vinLim = v ∧
      t.pwr.cap = capOf s v s.pwr.flowLim ∧ (∀ i, i ∈ t.pwr.hot ↔ i < 20 ∧ 100 ≤ dieTemp p i) ∧
      ((∃ i, i < 20 ∧ 110 ≤ dieTemp p i) ∨ (∃ n, n < 48 ∧ 110 ≤ (s.dune n).temp) → s.pwr.offAt = none → switchingOff s t) ∧
      ((∀ i, i < 20 → dieTemp p i < 110) → (∀ n, n < 48 → (s.dune n).temp < 110) → t.pwr.offAt = s.pwr.offAt) ∧
      ((∀ i, i < 20 → dieTemp p i < 100) → (∀ n, n < 48 → (s.dune n).temp < 110) →
        (t.pwr.cap = s.pwr.cap → changesOnly [.pwr, .ergs] s t) ∧
        (t.pwr.cap ≠ s.pwr.cap → recorded t 3 (unitId 14 0) 0 evCap .ok [w32 s.pwr.cap, w32 t.pwr.cap, w32 t.pwr.capCode])) ∧
      changesOnly (logged [.pwr, .ergs]) s t := by
  refine ⟨_, exec_powerControlTick hp p, ?_⟩
  set u := s.controlRound p with hu
  have hm : Moves (logged [.pwr, .ergs]) s u := State.controlRound_moves
  have hover := State.overheated_iff (s := u) h16 h4
  simp only [dune_eq_of_moves hm (by decide)] at hover
  have hlim := s.limitRound_pwr p _ rfl
  have hupwr := s.controlRound_pwr p
  rw [← hu] at hupwr
  have hoffAt : u.pwr.offAt = s.pwr.offAt := by rw [hupwr, hlim]; rfl
  have htpwr : (if u.overheated p then u.switchOff else u).pwr =
      { u.pwr with offAt := (if u.overheated p then u.switchOff else u).pwr.offAt } := by
    split
    · exact u.switchOff_pwr
    · rfl
  have hcap : u.pwr.cap = capOf s v s.pwr.flowLim := by
    rw [hupwr, hlim, hv]
    exact settle_cap hg _
  refine ⟨?_, ?_, ?_, ?_, ?_, fun i => ?_, fun h hn => ?_, fun h1 h2 => ?_, fun h1 h2 => ?_, ?_⟩
  · rw [htpwr, hupwr, hlim]; rfl
  · rw [htpwr, hupwr, hlim]; rfl
  · rw [htpwr, hupwr, hlim]
  · rw [htpwr, hupwr, hlim, hv]; rfl
  · rw [htpwr]; exact hcap
  · rw [htpwr, hupwr]; exact mem_hotDies p i
  · rw [if_pos (hover.2 h)]
    obtain ⟨hoff, hrec⟩ := State.switchOff_switchingOff (hoffAt.trans hn)
    rw [hm.frame .etc (by decide)] at hoff
    exact ⟨hoff, hrec⟩
  · rw [if_neg fun h => ?_, hoffAt]
    rcases hover.1 h with ⟨i, hi, h⟩ | ⟨n, hn, h⟩
    · exact absurd (h1 i hi) (by omega)
    · exact absurd (h2 n hn) (by omega)
  · have hcool : Moves [.pwr, .ergs] (s.limitRound p) u := State.controlRound_of_cool h1
    rw [if_neg fun h => ?_]
    · have hcaps : u.pwr.cap = (s.setLimits { s.pwr with
          watts := p.watts, vin := p.vin, limited := p.binds, tjMax := (p.ergTemp.take 16 ++ p.oasisTemp.take 4).foldl max 0
          vinLim := if p.vin < 48000 then some (420 * p.vin / 1000) else none }).pwr.cap := by
        rw [hupwr]; rfl
      have hcodes : u.pwr.capCode = (s.setLimits { s.pwr with
          watts := p.watts, vin := p.vin, limited := p.binds, tjMax := (p.ergTemp.take 16 ++ p.oasisTemp.take 4).foldl max 0
          vinLim := if p.vin < 48000 then some (420 * p.vin / 1000) else none }).pwr.capCode := by
        rw [hupwr]; rfl
      have hlimit : Moves [.pwr] _ (s.limitRound p) := Moves.upd_pwr
      rw [hcaps, hcodes]
      refine ⟨fun h => ?_, fun h => ?_⟩
      · exact ((((State.setLimits_of_same h).trans hlimit).mono (by decide)).trans hcool).frame
      · exact recorded_of_moves (recorded_of_moves (State.setLimits_recorded h) hlimit (by decide)) hcool (by decide)
    · rcases hover.1 h with ⟨i, hi, h⟩ | ⟨n, hn, h⟩
      · exact absurd (h1 i hi) (by omega)
      · exact absurd (h2 n hn) (by omega)
  · split
    · exact (hm.via State.switchOff_moves (by decide)).frame
    · exact hm.frame

theorem bits_lt (w : Word) (lo n : Nat) : bits w lo n < 2 ^ n := Nat.mod_lt _ (Nat.two_pow_pos n)

/-- A round in terms of its bounds (R516, R519); the hottest bound is the next lower step, another none below 1,024 mV. -/
theorem State.ergRound_of_bounds {s : State} {p : PowerSample} {d mv ask lo hi : Nat} (hmv : mv = (s.erg d).mv)
    (hask : ask = p.ask.getD d mv) (hlo : lo = max (bits (s.guard 2).committed 0 10) (p.floor.getD d 0))
    (hhi : hi = min (min (bits (s.guard 2).committed 16 10)
        (if p.watts < s.pwr.cap then ask else if p.watts = s.pwr.cap then min ask mv else min ask (mv - 5)))
      (if 100 ≤ p.ergTemp.getD d 0 then mv - 5 else 0x3FF)) :
    s.ergRound p d = { s.erg d with
      mv := if hi < lo then lo else if floor5 hi < lo then lo else floor5 hi
      issueLim := decide (hi < lo)
      issueStop := if 105 ≤ p.ergTemp.getD d 0 then true else if p.ergTemp.getD d 0 < 100 then false
        else (s.erg d).issueStop } := by
  have hvmax := bits_lt (s.guard 2).committed 16 10
  have htop : (if 100 ≤ p.ergTemp.getD d 0 then min (min (bits (s.guard 2).committed 16 10) (s.capBound p d)) ((s.erg d).mv - 5)
      else min (bits (s.guard 2).committed 16 10) (s.capBound p d)) = hi := by
    have hbound : s.capBound p d =
        if p.watts < s.pwr.cap then ask else if p.watts = s.pwr.cap then min ask mv else min ask (mv - 5) := by
      rw [hask, hmv]
      rfl
    rw [hhi, ← hbound, ← hmv]
    split
    · rfl
    · omega
  unfold State.ergRound
  dsimp only
  rw [htop, ← hlo]

theorem controlTick_erg (s : State) (p : PowerSample) (d mv ask cap hi lo : Nat) (hc : canonical s) (hp : s.power = .on) (hd : d < 16)
    (hg : (s.guard 1).committed.toNat < 0x8000) (hmv : mv = (s.erg d).mv) (hask : ask = p.ask.getD d mv)
    (hcap : cap = capOf s (if p.vin < 48000 then some (420 * p.vin / 1000) else none) s.pwr.flowLim)
    (hlo : lo = max (bits (s.guard 2).committed 0 10) (p.floor.getD d 0))
    (hhi : hi = min (min (bits (s.guard 2).committed 16 10)
        (if p.watts < cap then ask else if p.watts = cap then min ask mv else min ask (mv - 5)))
      (if 100 ≤ p.ergTemp.getD d 0 then mv - 5 else 0x3FF)) :
    ∃ t, exec (.powerControlTick p) s = .next t ∧
      t.erg d = { s.erg d with mv := (t.erg d).mv, issueLim := decide (hi < lo), issueStop := (t.erg d).issueStop } ∧
      (hi / 5 * 5 < lo → (t.erg d).mv = lo) ∧ (lo ≤ hi / 5 * 5 → (t.erg d).mv = hi / 5 * 5) ∧
      (105 ≤ p.ergTemp.getD d 0 → (t.erg d).issueStop = true) ∧ (p.ergTemp.getD d 0 < 100 → (t.erg d).issueStop = false) ∧
      (100 ≤ p.ergTemp.getD d 0 → p.ergTemp.getD d 0 < 105 → (t.erg d).issueStop = (s.erg d).issueStop) ∧
      (∀ j, 16 ≤ j → t.erg j = s.erg j) := by
  refine ⟨_, exec_powerControlTick hp p, ?_⟩
  have hm : Moves (logged [.pwr]) s (s.limitRound p) := State.limitRound_moves
  have hlimcap : (s.limitRound p).pwr.cap = cap := by
    rw [s.limitRound_pwr p _ rfl, hcap]
    exact settle_cap hg _
  obtain ⟨hin, hout⟩ := State.erg_controlErgs (hm.keeps hc) p (List.range 16) List.nodup_range
  have hround := State.ergRound_of_bounds (s := s.limitRound p) (p := p) (d := d) (mv := mv) (ask := ask) (lo := lo) (hi := hi)
    (by rw [erg_eq_of_moves hm (by decide), hmv]) hask (by rw [guard_eq_of_moves hm (by decide), hlo])
    (by rw [guard_eq_of_moves hm (by decide), hlimcap, hhi])
  rw [erg_eq_of_moves hm (by decide)] at hround
  have herg (j : Nat) : (if (s.controlRound p).overheated p then (s.controlRound p).switchOff else s.controlRound p).erg j =
      ((s.limitRound p).ergRounds p).erg j := by
    have hheat : (s.controlRound p).erg j = ((s.limitRound p).ergRounds p).erg j :=
      erg_eq_of_moves State.heatRound_moves (by decide) j
    split
    · rw [erg_eq_of_moves State.switchOff_moves (by decide), hheat]
    · exact hheat
  have hself := (herg d).trans ((hin d (List.mem_range.2 hd)).trans hround)
  rw [hself]
  have hfloor : hi / 5 * 5 ≤ hi := Nat.div_mul_le_self _ _
  refine ⟨rfl, fun h => ?_, fun h => ?_, fun h => ?_, fun h => ?_, fun h h' => ?_, fun j hj => ?_⟩
  · show (if hi < lo then lo else if floor5 hi < lo then lo else floor5 hi) = lo
    rw [if_pos (show floor5 hi < lo from h), ite_self]
  · show (if hi < lo then lo else if floor5 hi < lo then lo else floor5 hi) = floor5 hi
    rw [if_neg (by omega), if_neg (show ¬ floor5 hi < lo from Nat.not_lt.2 h)]
  · exact if_pos h
  · exact (if_neg (by omega)).trans (if_pos h)
  · exact (if_neg (by omega)).trans (if_neg (by omega))
  · rw [herg]
    exact (hout j (by simpa using hj)).trans (erg_eq_of_moves hm (by decide) j)

/-- Settles O48: a control round is its limits, its ergs and its heat in turn, and the switch-off behind them. -/
theorem powerControl : Obligations.PowerControl := by
  unfold Obligations.PowerControl
  refine ⟨fun s p v _ hp h16 h4 hg hv => powerControlTick_spec s p v hp h16 h4 hg hv, controlTick_erg,
    fun s flow f _ hp hg hf => flowLimitEval_spec s flow f hp hg hf, fun s a hp ha hd hoff => ?_,
    fun s h => execLowFlowSwitchOff_of_idle h, fun s p flow hp => ⟨if_pos hp, if_pos hp⟩⟩
  exact ⟨_, execLowFlowSwitchOff_of_due ha hp hd, State.switchOff_switchingOff hoff, State.switchOff_moves.frame⟩

end Sys2Proof.Machine

/-! ## Islands lose and regain their lock (O5) -/

namespace Sys2Proof.Machine

open Sys2Proof.Laws Sys2Proof.Safety

/-! ### Tables and memory that entries leave -/

/-- A table without the keys that fail a test. -/
theorem Tab.get_filter {α : Type} (d : α) (t : Tab α) (p : Nat → Bool) (k : Nat) :
    Tab.get d (t.filter fun e => p e.1) k = if p k then Tab.get d t k else d := by
  induction t with
  | nil => simp [Tab.get]
  | cons e r ih =>
    obtain ⟨j, v⟩ := e
    by_cases hj : j = k
    · subst hj
      cases hp : p j <;> simp [Tab.get, hp] at ih ⊢
      exact ih
    · cases hp : p j <;> simp [Tab.get, hp, hj, ih]

/-- A key is listed just when it does not read as the default. -/
theorem Tab.any_key_iff {α : Type} [DecidableEq α] {d : α} {t : Tab α} (h : Tab.wf d t = true) (k : Nat) :
    (t.any fun e => e.1 == k) = true ↔ Tab.get d t k ≠ d := by
  have hne : ∀ e ∈ t, e.2 ≠ d := ((Tab.wf_iff _ _).1 h).2
  clear h
  induction t with
  | nil => simp [Tab.get]
  | cons e r ih =>
    obtain ⟨j, v⟩ := e
    rw [List.forall_mem_cons] at hne
    by_cases hj : j = k
    · simp [Tab.get, hj, hne.1]
    · simp [Tab.get, hj, ih hne.2]

theorem State.locked_iff {s : State} (h : Tab.wf 0 s.islands = true) (i : Nat) : s.locked i = true ↔ Tab.get 0 s.islands i = 0 := by
  have hkey := Tab.any_key_iff h i
  unfold State.locked
  cases hl : (s.islands.any fun e => e.1 == i) with
  | true => simp [hkey.1 hl]
  | false =>
    rw [hl] at hkey
    simpa using hkey

theorem Tab.wf_put {α : Type} [DecidableEq α] (d : α) {t : Tab α} (h : Tab.wf d t = true) (k : Nat) (v : α) :
    Tab.wf d (Tab.put d t k v) = true :=
  (Tab.wf_iff _ _).2 (Tab.okBy_put (fun _ => d) _ _ _ ((Tab.wf_iff _ _).1 h))

/-! ### The loss of a lock (R38, R489) -/

/-- An island's time of loss is listed, and LOCK recorded. -/
noncomputable def State.lockLost (s : State) (i : Nat) : State :=
  { s with islands := Tab.put 0 s.islands i (s.etc + 1) }.emitUnit 6 i 2 evLock .internal [w32 i]

theorem exec_islandLockLoss {s : State} {i : Nat} (hp : s.power = .on) (hi : i < 40) (hl : s.locked i = true) :
    exec (.islandLockLoss i) s = .next ((s.lockLost i).islandDown i) := if_pos ⟨hp, hi, hl⟩

theorem State.lockLost_moves {s : State} {i : Nat} : Moves (logged [.islands]) s (s.lockLost i) :=
  (Moves.upd_islands.mono (by decide)).via State.emitUnit_moves (by decide)

theorem State.lockLost_recorded (s : State) (i : Nat) : recorded (s.lockLost i) 3 (unitId 6 i) 2 evLock .internal [w32 i] :=
  State.emit_recorded _ _ _ _ _ _ _

/-- The island and no other is listed from now on. -/
theorem State.lockLost_islands {s : State} (hw : Tab.wf 0 s.islands = true) (i : Nat) {t : State}
    (ht : t.islands = (s.lockLost i).islands) :
    Tab.get 0 t.islands i = s.etc + 1 ∧ t.locked i = false ∧
      ∀ j, j ≠ i → Tab.get 0 t.islands j = Tab.get 0 s.islands j := by
  have hput : t.islands = Tab.put 0 s.islands i (s.etc + 1) := ht.trans (State.emitUnit_moves.frame .islands (by decide))
  have hself : Tab.get 0 t.islands i = s.etc + 1 := by
    rw [hput]
    exact Tab.get_put_self (fun _ => 0) _ _ _ ((Tab.wf_iff _ _).1 hw)
  refine ⟨hself, ?_, fun j hj => ?_⟩
  · have hiff := State.locked_iff (s := t) (by rw [hput]; exact Tab.wf_put 0 hw _ _) i
    rw [hself] at hiff
    simpa using hiff
  · rw [hput, Tab.get_put_of_ne _ _ _ _ _ _ (Ne.symm hj)]

/-! ### What its unit suffers (Table RAS.4) -/

/-- Nothing of the island's unit is hurt at once. -/
theorem State.islandDown_of_calm (s : State) {i : Nat} (h : i < 16 ∨ i = 34 ∨ i = 37 ∨ i = 38) : s.islandDown i = s := by
  unfold State.islandDown
  rw [if_neg (by omega), if_neg (by omega), if_neg (by omega), if_neg (by omega)]

/-- With nothing running nobody misses a peer. -/
theorem State.peersGone_of_noTasks {s : State} (h : noTasks s) : s.peersGone = s := by
  obtain ⟨ht, hr⟩ := h
  unfold State.peersGone
  simp [ht, hr]

/-- A port's state as it enters another (R357). -/
noncomputable def Port.entering (x : Port) (st : PortState) (now qcause : Nat) : Port :=
  { Port.init with
    state := st, since := now, guardDis := x.guardDis, x4 := x.x4 && st == .attesting, upper := x.upper && st == .attesting,
    peer := x.peer, qcause := qcause, txBytes := x.txBytes, rxBytes := x.rxBytes, nonceUsed := x.nonceUsed }

/-- A port leaves its state and nothing else happens, when it was not ADMITTED or nothing runs. -/
theorem State.portTo_of_alone {s : State} {p : Nat} (h : (s.port p).state ≠ .admitted ∨ noTasks s) (st : PortState) (qcause : Nat) :
    s.portTo p st qcause = s.setPort p ((s.port p).entering st s.etc qcause) := by
  unfold State.portTo
  dsimp only
  rcases h with h | h
  · rw [if_neg h]
    rfl
  · rw [State.peersGone_of_noTasks (by exact h), ite_self]
    rfl

/-- A port goes to a state, and that is recorded. -/
theorem State.portTo_emitPort_of_alone {s : State} {p : Nat} (hc : canonical s)
    (h : (s.port p).state ≠ .admitted ∨ noTasks s) (st : PortState) (qcause sev code : Nat) (stat : Status) (pl : List Word) :
    Moves (logged [.ports]) s ((s.portTo p st qcause).emitPort p sev code stat pl) ∧
      ((s.portTo p st qcause).emitPort p sev code stat pl).port p = (s.port p).entering st s.etc qcause ∧
      ∀ j, j ≠ p → ((s.portTo p st qcause).emitPort p sev code stat pl).port j = s.port j := by
  rw [State.portTo_of_alone h]
  have hport (j : Nat) := port_eq_of_moves (State.emitPort_moves (s := s.setPort p ((s.port p).entering st s.etc qcause))
    (p := p) (sev := sev) (code := code) (st := stat) (pl := pl)) (by decide) j
  refine ⟨(State.setPort_moves.mono (by decide)).via State.emitPort_moves (by decide), ?_, fun j hj => ?_⟩
  · rw [hport, State.port_setPort _ _ _ hc.ports]
  · rw [hport, State.port_setPort_of_ne _ _ _ _ (Ne.symm hj)]

/-- What a pass over the ports of an island does to one of them: those in `hit` enter a state, the others stay. -/
theorem State.foldl_ports {f : State → Nat → State} {hit : Port → Prop} {st : PortState} {ok : State → Prop}
    (hok : ∀ s t, ok s → Moves (logged [.ports]) s t → ok t)
    (hf : ∀ s p, canonical s → ok s → (hit (s.port p) → Moves (logged [.ports]) s (f s p) ∧
        (f s p).port p = (s.port p).entering st s.etc 0 ∧ ∀ j, j ≠ p → (f s p).port j = s.port j) ∧
      (¬ hit (s.port p) → f s p = s))
    (l : List Nat) (hl : l.Nodup) {s : State} (hc : canonical s) (h : ok s) :
    Moves (logged [.ports]) s (l.foldl f s) ∧
      (∀ p ∈ l, (hit (s.port p) → (l.foldl f s).port p = (s.port p).entering st s.etc 0) ∧
        (¬ hit (s.port p) → (l.foldl f s).port p = s.port p)) ∧
      ∀ p, p ∉ l → (l.foldl f s).port p = s.port p := by
  induction l generalizing s with
  | nil => exact ⟨Moves.refl _ _, fun _ h => absurd h (by simp), fun _ _ => rfl⟩
  | cons x l ih =>
    obtain ⟨hx, hl⟩ := List.nodup_cons.1 hl
    obtain ⟨hhit, hmiss⟩ := hf s x hc h
    have hstep : Moves (logged [.ports]) s (f s x) := by
      by_cases hp : hit (s.port x)
      · exact (hhit hp).1
      · rw [hmiss hp]
        exact Moves.refl _ _
    have hother (j : Nat) (hj : j ≠ x) : (f s x).port j = s.port j := by
      by_cases hp : hit (s.port x)
      · exact (hhit hp).2.2 j hj
      · rw [hmiss hp]
    have hetc : (f s x).etc = s.etc := hstep.frame .etc (by decide)
    obtain ⟨hm, hin, hout⟩ := ih hl (hstep.keeps hc) (hok s _ h hstep)
    rw [List.foldl_cons]
    refine ⟨hstep.trans hm, fun p hp => ?_, fun p hp => ?_⟩
    · by_cases hpx : p = x
      · subst hpx
        rw [hout p hx]
        exact ⟨fun k => (hhit k).2.1, fun k => by rw [hmiss k]⟩
      · have := hin p ((List.mem_cons.1 hp).resolve_left hpx)
        rwa [hother p hpx, hetc] at this
    · simp only [List.mem_cons, not_or] at hp
      rw [hout p hp.2, hother p hp.1]

theorem islandPorts_nodup (i : Nat) : (islandPorts i).Nodup := by
  simp [islandPorts]

theorem noTasks_of_moves {s t : State} (h : noTasks s) (m : Moves (logged [.ports]) s t) : noTasks t := by
  obtain ⟨ht, hr⟩ := h
  have htasks : t.tasks = s.tasks := m.frame .tasks (by decide)
  have hcolls : t.colls = s.colls := m.frame .colls (by decide)
  exact ⟨htasks.trans ht, hcolls ▸ hr⟩

/-- The live ports of a lost Sweep island go to TRAINING. -/
theorem State.islandDown_ports {s : State} (hc : canonical s) (h : noTasks s) {i : Nat} (h16 : 16 ≤ i) (h25 : i < 25) :
    Moves (logged [.ports]) s (s.islandDown i) ∧
      (∀ p ∈ islandPorts i,
        ((s.port p).state ∈ [PortState.training, .attesting, .admitted] →
          (s.islandDown i).port p = (s.port p).entering .training s.etc 0) ∧
        ((s.port p).state ∉ [PortState.training, .attesting, .admitted] → (s.islandDown i).port p = s.port p)) ∧
      ∀ p, p ∉ islandPorts i → (s.islandDown i).port p = s.port p := by
  unfold State.islandDown
  rw [if_pos ⟨h16, h25⟩]
  refine State.foldl_ports (hit := fun x => x.state ∈ [PortState.training, .attesting, .admitted]) (ok := noTasks)
    (fun _ _ => noTasks_of_moves) (fun s p hc h => ⟨fun hs => ?_, fun hs => ?_⟩) _ (islandPorts_nodup i) hc h
  · have hgo := State.portTo_emitPort_of_alone hc (.inr h) (p := p) .training 0 1 evPortState .internal [2]
    split
    · exact hgo
    · exact hgo
    · exact hgo
    · simp_all
  · split <;> simp_all

theorem State.linkDown_host (s : State) : s.linkDown.host.width = 0 ∧ s.linkDown.host.rate = 0 := by
  have hm (u : State) : Moves (allBut [.host]) u ((u.rings.filter fun e => !e.2.reads.isEmpty).foldl
      (fun s e => s.readFail e.1 ((e.2.reads.headD (0, 0)).1)) u) :=
    Moves.foldl (fun _ _ h => h.via State.readFail_moves (by decide)) (Moves.refl _ _) _
  have hf (u : State) (ids : List Nat) : Moves (allBut [.host]) u (ids.foldl (fun s id => s.failRun id .internal) u) :=
    Moves.foldl (fun _ _ h => h.via State.failRun_moves (by decide)) (Moves.refl _ _) _
  unfold State.linkDown
  extract_lets src s1 live ids s2
  have h : Part.same s1 _ .host := ((hf s1 ids).trans (hm s2)).frame .host (by decide)
  exact ⟨host_of_same h HostPort.width fun _ => rfl, host_of_same h HostPort.rate fun _ => rfl⟩

theorem State.linkDown_of_idle {s : State} (ht : s.tasks = []) (hr : s.rings = []) : Moves [.host] s s.linkDown := by
  have heq : s.linkDown = { s with host := { s.host with width := 0, rate := 0 } } := by
    simp [State.linkDown, ht, hr]
  rw [heq]
  exact Moves.upd_host rfl

theorem State.abortJob_of_none {s : State} {w r : Nat} (h : (s.wake w).job r = none) : s.abortJob w r = s := by
  unfold State.abortJob
  rw [h]

/-- The device state is the one set. -/
theorem State.setDev_dev (s : State) (d : DevState) (cause : Nat) : (s.setDev d cause).dev = d := by
  unfold State.setDev
  cases d <;> simp

/-- A running device that faults shows the cause (R428). -/
theorem State.enterFaulted_of_live {s : State} (h : s.dev ∈ [DevState.ready, .running, .quiescing, .quiesced]) (cause : Nat) :
    (s.enterFaulted cause).dev = .faulted ∧ (s.enterFaulted cause).fault = cause := by
  have heq : s.enterFaulted cause =
      ({ s with fault := cause, start := { s.start with rom := true } }.setDev .faulted cause).failBoxes := by
    unfold State.enterFaulted
    split <;> simp_all
  rw [heq]
  refine ⟨(State.failBoxes_moves.frame .dev (by decide)).trans (State.setDev_dev _ _ _), ?_⟩
  exact (State.failBoxes_moves.frame .fault (by decide)).trans (State.setDev_moves.frame .fault (by decide))

theorem islandLoss : IslandLoss := by
  refine ⟨fun s i hc hw hp hi hl => ⟨_, exec_islandLockLoss hp hi hl, ?_⟩, fun s i h => if_neg (by rintro ⟨h1, h2, h3⟩; rcases h with h | h | h; exacts [h h1, absurd h2 (by omega), by simp [h] at h3])⟩
  have hm : Moves (logged [.islands]) s (s.lockLost i) := State.lockLost_moves
  have hcl := hm.keeps hc
  have hetc : (s.lockLost i).etc = s.etc := hm.frame .etc (by decide)
  have hport := port_eq_of_moves hm (by decide)
  have hwake := wake_eq_of_moves hm (by decide)
  obtain ⟨hself, hlocked, hother⟩ := State.lockLost_islands hw i (State.islandDown_moves.frame .islands (by decide))
  refine ⟨hself, hlocked, hother, fun h => ?_, fun h16 h25 hn => ?_, fun h => ?_, fun h26 h34 h0 h1 => ?_, fun h hd => ?_⟩
  · rw [State.islandDown_of_calm _ h]
    exact ⟨s.lockLost_recorded i, hm.frame⟩
  · have hn' : noTasks (s.lockLost i) := by
      obtain ⟨ht, hr⟩ := hn
      have htasks : (s.lockLost i).tasks = s.tasks := hm.frame .tasks (by decide)
      have hcolls : (s.lockLost i).colls = s.colls := hm.frame .colls (by decide)
      exact ⟨htasks.trans ht, hcolls ▸ hr⟩
    obtain ⟨hdown, hin, hout⟩ := State.islandDown_ports hcl hn' h16 h25
    simp only [hport, hetc] at hin hout
    refine ⟨fun p hpi => ⟨fun hs => ?_, (hin p hpi).2⟩, hout, ((hm.mono (by decide)).via hdown (by decide)).frame⟩
    rw [(hin p hpi).1 hs]
    exact ⟨rfl, rfl, rfl, rfl⟩
  · subst h
    have hdown : (s.lockLost 25).islandDown 25 = (s.lockLost 25).linkDown := rfl
    rw [hdown]
    obtain ⟨hwidth, hrate⟩ := (s.lockLost 25).linkDown_host
    refine ⟨hwidth, hrate, fun ht hr => ?_⟩
    exact ((hm.mono (by decide)).via (State.linkDown_of_idle ((hm.frame .tasks (by decide)).trans ht)
      ((hm.frame .rings (by decide)).trans hr)) (by decide)).frame
  · have hdown : (s.lockLost i).islandDown i = s.lockLost i := by
      unfold State.islandDown
      rw [if_neg (by omega), if_neg (by omega), if_pos ⟨h26, h34⟩, State.abortJob_of_none (r := 0) (by rw [hwake, h0]),
        State.abortJob_of_none (by rw [hwake, h1])]
    rw [hdown]
    exact hm.frame
  · have hdown : (s.lockLost i).islandDown i = (s.lockLost i).enterFaulted 3 := by
      unfold State.islandDown
      rw [if_neg (by omega), if_neg (by omega), if_neg (by omega), if_pos h]
    rw [hdown]
    exact State.enterFaulted_of_live ((hm.frame .dev (by decide) : (s.lockLost i).dev = s.dev) ▸ hd) 3

/-! ### The lock returns, or does not (R489) -/

theorem State.releaseVectors_of_closed {s : State} (h : s.locked 25 = false) : s.releaseVectors = s := by
  unfold State.releaseVectors State.hostOpen
  simp [h]

theorem islandRelock_spec (s : State) (i : Nat) (hw : Tab.wf 0 s.islands = true) (hp : s.power = .on) :
    ∃ t, exec (.islandRelock i) s = .next t ∧
      Tab.get 0 t.islands i = 0 ∧ t.locked i = true ∧ (∀ j, j ≠ i → Tab.get 0 t.islands j = Tab.get 0 s.islands j) ∧
      changesOnly [.sent, .vecPend, .islands] s t ∧ (i ≠ 25 → s.locked 25 = false → t.tx = s.tx) := by
  refine ⟨_, if_pos hp, ?_⟩
  set u : State := { s with islands := Tab.put 0 s.islands i 0 } with hu
  have hm : Moves [.sent, .vecPend] u u.releaseVectors := State.releaseVectors_moves
  have hislands : u.releaseVectors.islands = u.islands := hm.frame .islands (by decide)
  have hwu : Tab.wf 0 u.islands = true := Tab.wf_put 0 hw i 0
  have hself : Tab.get 0 u.islands i = 0 := Tab.get_put_self (fun _ => 0) _ _ _ ((Tab.wf_iff _ _).1 hw)
  have hother (j : Nat) (hj : j ≠ i) : Tab.get 0 u.islands j = Tab.get 0 s.islands j :=
    Tab.get_put_of_ne _ _ _ _ _ _ (Ne.symm hj)
  refine ⟨by rw [hislands, hself], ?_, fun j hj => by rw [hislands, hother j hj], ?_, fun hi hl => ?_⟩
  · rw [State.locked_iff (by rw [hislands]; exact hwu), hislands, hself]
  · exact ((Moves.upd_islands.mono (by decide)).via hm (by decide)).frame
  · have hl' : u.locked 25 = false := by
      have hiff := State.locked_iff hwu 25
      rw [hother 25 (Ne.symm hi), ← State.locked_iff hw, hl] at hiff
      simpa using hiff
    rw [State.releaseVectors_of_closed hl']

/-- What a stack that loses its contents leaves (Table RAS.4): its bytes read 0, the others are as they were. -/
theorem State.byte_dropStack (s : State) (n a : Nat) : (s.dropStack n).byte a = if stackOf a = n then 0 else s.byte a := by
  have hget : (s.dropStack n).byte a = _ := Tab.get_filter 0 s.mem
    (fun k => decide (k < n * 0x1000000000) || decide (n * 0x1000000000 + 0x1000000000 ≤ k)) a
  rw [hget]
  unfold stackOf
  by_cases h : a / 0x1000000000 = n
  · rw [if_pos h, if_neg (by simp; omega)]
  · rw [if_neg h, if_pos (by simp; omega)]
    rfl

/-- A stack fails when it was in use, and no other does. -/
theorem State.failStack_spec {s : State} (hc : canonical s) (n : Nat) :
    ((s.dune n).state = .online ∨ (s.dune n).state = .stopped → ((s.failStack n).dune n).state = .failed ∧
        ∀ a, stackOf a = n → (s.failStack n).byte a = 0) ∧
      ((s.dune n).state ≠ .online → (s.dune n).state ≠ .stopped → (s.failStack n).dune n = s.dune n) ∧
      (∀ j, j ≠ n → (s.failStack n).dune j = s.dune j) ∧ (∀ a, stackOf a ≠ n → (s.failStack n).byte a = s.byte a) := by
  by_cases h : (s.dune n).state = .online ∨ (s.dune n).state = .stopped
  · have heq : s.failStack n = (s.setDune n { s.dune n with state := .failed, wcb := [], logged := [] }).dropStack n := if_pos h
    have hdune (j : Nat) : (s.failStack n).dune j = (s.setDune n { s.dune n with state := .failed, wcb := [], logged := [] }).dune j := by
      rw [heq]
      rfl
    have hbyte (a : Nat) : (s.failStack n).byte a = if stackOf a = n then 0 else s.byte a := by
      rw [heq, State.byte_dropStack]
      rfl
    refine ⟨fun _ => ⟨?_, fun a ha => by rw [hbyte, if_pos ha]⟩, fun h1 h2 => absurd h (by simp [h1, h2]), fun j hj => ?_,
      fun a ha => by rw [hbyte, if_neg ha]⟩
    · rw [hdune, State.dune_setDune _ _ _ hc.dunes]
    · rw [hdune, State.dune_setDune_of_ne _ _ _ _ (Ne.symm hj)]
  · have heq : s.failStack n = s := if_neg h
    rw [heq]
    exact ⟨fun k => absurd k h, fun _ _ => rfl, fun _ _ => rfl, fun _ _ => rfl⟩

/-- Stacks that fail one after the other. -/
theorem State.failStacks_spec (l : List Nat) (hl : l.Nodup) {s : State} (hc : canonical s) :
    Moves [.dunes, .mem, .poison] s (l.foldl State.failStack s) ∧
      (∀ n ∈ l, ((s.dune n).state = .online ∨ (s.dune n).state = .stopped →
          ((l.foldl State.failStack s).dune n).state = .failed ∧ ∀ a, stackOf a = n → (l.foldl State.failStack s).byte a = 0) ∧
        ((s.dune n).state ≠ .online → (s.dune n).state ≠ .stopped → (l.foldl State.failStack s).dune n = s.dune n)) ∧
      (∀ n, n ∉ l → (l.foldl State.failStack s).dune n = s.dune n) ∧
      ∀ a, stackOf a ∉ l → (l.foldl State.failStack s).byte a = s.byte a := by
  induction l generalizing s with
  | nil => exact ⟨Moves.refl _ _, fun _ h => absurd h (by simp), fun _ _ => rfl, fun _ _ => rfl⟩
  | cons x l ih =>
    obtain ⟨hx, hl⟩ := List.nodup_cons.1 hl
    have hstep : Moves [.dunes, .mem, .poison] s (s.failStack x) := State.failStack_moves.mono (by decide)
    obtain ⟨hfail, hstay, hdune, hbyte⟩ := State.failStack_spec hc x
    obtain ⟨hm, hin, hout, hrest⟩ := ih hl (hstep.keeps hc)
    rw [List.foldl_cons]
    refine ⟨hstep.trans hm, fun n hn => ?_, fun n hn => ?_, fun a ha => ?_⟩
    · by_cases hnx : n = x
      · subst hnx
        rw [hout n hx]
        refine ⟨fun h => ⟨(hfail h).1, fun a ha => ?_⟩, hstay⟩
        rw [hrest a (ha ▸ hx), (hfail h).2 a ha]
      · have := hin n ((List.mem_cons.1 hn).resolve_left hnx)
        rwa [hdune n hnx] at this
    · simp only [List.mem_cons, not_or] at hn
      rw [hout n hn.2, hdune n hn.1]
    · simp only [List.mem_cons, not_or] at ha
      rw [hrest a ha.2, hbyte a ha.1]

theorem mem_islandStacks (i n : Nat) : n ∈ [3 * i, 3 * i + 1, 3 * i + 2] ↔ n / 3 = i := by
  simp
  omega

/-- A session that closes leaves the jobs. -/
theorem Wake.closeSession_job (x : Wake) (r j : Nat) : (x.closeSession r).job j = x.job j := by
  have hmask (l : List Nat) (x : Wake) : (l.foldl (fun x b => x.setMark b .free) x).jobs = x.jobs := by
    induction l generalizing x with
    | nil => rfl
    | cons b l ih => exact ih _
  unfold Wake.closeSession
  split
  · rfl
  · exact congrArg (Tab.get none · j) (hmask _ x)

theorem State.jobEnds_of_none {s : State} {w r : Nat} (h : (s.wake w).job r = none) (st : Status) : s.jobEnds w r st = s := by
  unfold State.jobEnds
  rw [h]

/-- An engine without a job retires. -/
theorem State.retireWake_of_idle {s : State} (hc : canonical s) {w cause : Nat} (hs : (s.wake w).state = .good)
    (h0 : (s.wake w).job 0 = none) (h1 : (s.wake w).job 1 = none) :
    ((s.retireWake w cause).wake w).state = .retired ∧ ((s.retireWake w cause).wake w).cause = cause ∧
      ∀ j, j ≠ w → (s.retireWake w cause).wake j = s.wake j := by
  set x : Wake := { ((s.wake w).closeSession 0).closeSession 1 with state := .retired, cause := cause, testing := false } with hx
  have hjob (r : Nat) : x.job r = (s.wake w).job r := (Wake.closeSession_job _ _ _).trans (Wake.closeSession_job _ _ _)
  set u := ((s.setWake w x).bump 0x274 28 4).emitUnit 7 w 2 evRetire .unitAbsent [w32 (unitId 7 w), w32 cause] with hu
  have hm : Moves (logged [.regs]) (s.setWake w x) u := (State.bump_moves.mono (by decide)).via State.emitUnit_moves (by decide)
  have hwake (j : Nat) : u.wake j = (s.setWake w x).wake j := wake_eq_of_moves hm (by decide) j
  have hself : u.wake w = x := by rw [hwake, State.wake_setWake _ _ _ hc.wakes]
  have heq : s.retireWake w cause = u := by
    have hgo : s.retireWake w cause = (u.jobEnds w 0 .unitAbsent).jobEnds w 1 .unitAbsent := if_neg (not_not.2 hs)
    rw [hgo, State.jobEnds_of_none (r := 0) (by rw [hself, hjob, h0]), State.jobEnds_of_none (by rw [hself, hjob, h1])]
  rw [heq, hself]
  exact ⟨rfl, rfl, fun j hj => by rw [hwake, State.wake_setWake_of_ne _ _ _ _ (Ne.symm hj)]⟩

/-- The time-out by the kind of its island. -/
theorem exec_islandRelockTimeout {s : State} {i : Nat} (hp : s.power = .on) (h0 : Tab.get 0 s.islands i ≠ 0)
    (h : Tab.get 0 s.islands i + 1000 ≤ s.etc) :
    exec (.islandRelockTimeout i) s = .next (
      if i < 16 then [3 * i, 3 * i + 1, 3 * i + 2].foldl State.failStack s
      else if i < 25 then (islandPorts i).foldl (fun s p =>
        if (s.port p).state = .training then (s.portTo p .down 0).emitPort p 1 evPortState .internal [1] else s) s
      else if 26 ≤ i ∧ i < 34 then s.retireWake (i - 26) 1
      else if i = 34 then { s with flashGone := true } else s) := by
  show execIslandRelockTimeout i s = _
  unfold execIslandRelockTimeout
  simp only [if_pos (show s.power = .on ∧ Tab.get 0 s.islands i ≠ 0 ∧ Tab.get 0 s.islands i + 1000 ≤ s.etc from ⟨hp, h0, h⟩), apply_ite Host.Outcome.next]

theorem islandRecovery : IslandRecovery := by
  refine ⟨islandRelock_spec, fun s i hc hp h0 h => ⟨_, exec_islandRelockTimeout hp h0 h, fun hi => ?_, fun h16 h25 => ?_,
    fun h26 h34 hs hj0 hj1 => ?_, fun hi => ?_, fun hi => ?_⟩, fun s i h => if_neg ?_⟩
  · rw [if_pos hi]
    obtain ⟨hm, hin, hout, hbyte⟩ := State.failStacks_spec [3 * i, 3 * i + 1, 3 * i + 2] (by simp) hc
    simp only [mem_islandStacks] at hin hout hbyte
    exact ⟨hin, hout, hbyte, hm.frame⟩
  · rw [if_neg (by omega), if_pos h25]
    obtain ⟨hm, hin, hout⟩ := State.foldl_ports (hit := fun x => x.state = .training) (st := .down) (ok := fun _ => True)
      (f := fun s p => if (s.port p).state = .training then (s.portTo p .down 0).emitPort p 1 evPortState .internal [1] else s)
      (fun _ _ _ _ => trivial)
      (fun s p hc _ => ⟨fun hs => by
        simp only [if_pos hs]
        exact State.portTo_emitPort_of_alone hc (.inl (by simp [hs])) _ _ _ _ _ _, fun hs => if_neg hs⟩)
      _ (islandPorts_nodup i) hc trivial
    refine ⟨fun p hpi => ⟨fun hs => ?_, (hin p hpi).2⟩, hout, hm.frame⟩
    rw [(hin p hpi).1 hs]
    exact ⟨rfl, rfl⟩
  · rw [if_neg (by omega), if_neg (by omega), if_pos ⟨h26, h34⟩]
    obtain ⟨hstate, hcause, hother⟩ := State.retireWake_of_idle (cause := 1) hc hs hj0 hj1
    exact ⟨hstate, hcause, hother, State.retireWake_moves.frame⟩
  · rw [if_neg (by omega), if_neg (by omega), if_neg (by omega), if_pos hi]
  · rw [if_neg (by omega), if_neg (by omega), if_neg (by omega), if_neg (by omega)]
  · rintro ⟨hp, hn, hle⟩
    rcases h with h | h | h
    · exact h hp
    · exact hn h
    · omega

/-- Settles O5: the loss of each kind of island, its return, and its time-out. -/
theorem islandsLoseAndRegainLock : Obligations.IslandsLoseAndRegainLock := by
  unfold Obligations.IslandsLoseAndRegainLock
  exact ⟨islandLoss, islandRecovery⟩

end Sys2Proof.Machine

/-! ## Delay lines and beats (O6) -/

namespace Sys2Proof.Machine

open Sys2Proof.Laws Sys2Proof.Safety

/-! ### A settled machine has nothing to wake, join or deliver -/

theorem State.rewake_of_unparked {s : State} (h : ∀ e ∈ s.crews, e.2.parked = []) : s.rewake = s := by
  have hnone : (s.crews.filter fun e => !e.2.parked.isEmpty) = [] :=
    List.filter_eq_nil_iff.2 fun e he => by simp [h e he]
  rw [State.rewake, hnone, List.foldl_nil]

theorem State.joinDrained_of_free {s : State} (h : s.sched.busy = false) : s.joinDrained = s := by
  simp [State.joinDrained, h]

theorem State.pumpAll_of_delivered {s : State} (h : ∀ e ∈ s.rings, e.2.waiting = []) : s.pumpAll = s := by
  have hnone : (s.rings.filter fun e => !e.2.waiting.isEmpty) = [] :=
    List.filter_eq_nil_iff.2 fun e he => by simp [h e he]
  rw [State.pumpAll, hnone, List.foldl_nil]

theorem State.moveQueue_of_empty {s : State} {c : Nat} (hq : (s.crew c).queue = []) (hp : (s.crew c).parked = [])
    (which : Task → Bool) (ok : Nat → Bool) : s.moveQueue c which ok = s := by
  rw [State.moveQueue, hq, hp, List.append_nil, List.foldl_nil]

/-- Whoever leaves the crews, the rings and the scheduler settled leaves nothing to wake, join or deliver. -/
theorem settled_of_moves {ps : List Part} {s t : State} (h : settled s) (m : Moves ps s t) (hc : Part.crews ∉ ps)
    (hr : Part.rings ∉ ps) (hs : Part.sched ∉ ps) : settled t := by
  obtain ⟨hparked, hwaiting, hbusy⟩ := h
  have hcrews : t.crews = s.crews := m.frame .crews hc
  have hrings : t.rings = s.rings := m.frame .rings hr
  have hsched : t.sched = s.sched := m.frame .sched hs
  exact ⟨hcrews ▸ hparked, hrings ▸ hwaiting, hsched ▸ hbusy⟩

theorem settled_setCrew {s : State} (h : settled s) (c : Nat) {v : Crew} (hv : v.parked = []) : settled (s.setCrew c v) := by
  obtain ⟨hparked, hwaiting, hbusy⟩ := h
  refine ⟨fun e he => ?_, hwaiting, hbusy⟩
  rcases Tab.mem_put _ _ _ _ _ he with he | ⟨he, -⟩
  · exact hparked e he
  · rw [he, hv]

/-! ### A scull that is at work on nothing retires -/

theorem State.byte_dropRange (s : State) (lo hi a : Nat) :
    (s.dropRange lo hi).byte a = if lo ≤ a ∧ a < hi then 0 else s.byte a := by
  have hget : (s.dropRange lo hi).byte a = _ := Tab.get_filter 0 s.mem (fun k => decide (k < lo) || decide (hi ≤ k)) a
  rw [hget]
  by_cases h : lo ≤ a ∧ a < hi
  · rw [if_pos h, if_neg (by simp; omega)]
  · rw [if_neg h, if_pos (by simp; omega)]
    rfl

/-- A scull that leaves service with nothing to hand back. -/
noncomputable def State.tileGone (s : State) (k cause : Nat) : State :=
  (((s.setScull k { s.scull k with state := .retired, cause := cause, testing := false, testDue := false }).dropRange
    (scullBase + k * 0x80000) (scullBase + (k + 1) * 0x80000)).bump 0x274 0 14).emitUnit 0 k 2 evRetire .tileRetired [w32 k, w32 cause]

theorem State.retireOne_of_idle {s : State} {k : Nat} (hg : (s.scull k).state = .good) (ht : (s.scull k).task = none)
    (hs : (s.scull k).suspended = []) (cause : Nat) : s.retireOne k cause = s.tileGone k cause := by
  simp [State.retireOne, State.tileGone, hg, ht, hs]

theorem State.retireOne_of_absent {s : State} {k : Nat} (h : (s.scull k).state ≠ .good) (cause : Nat) : s.retireOne k cause = s := by
  simp [State.retireOne, h]

theorem State.tileGone_moves {s : State} {k cause : Nat} : Moves (logged [.regs, .mem, .poison, .sculls]) s (s.tileGone k cause) :=
  (((State.setScull_moves.mono (by decide)).via State.dropRange_moves (by decide)).via (State.bump_moves_regs (by decide) (by decide))
    (by decide)).via State.emitUnit_moves (by decide)

theorem State.byte_tileGone (s : State) (k cause a : Nat) :
    (s.tileGone k cause).byte a = if scullBase + k * 0x80000 ≤ a ∧ a < scullBase + (k + 1) * 0x80000 then 0 else s.byte a := by
  rw [State.tileGone, byte_eq_of_moves State.emitUnit_moves (by decide), State.bump_byte, State.byte_dropRange]
  rfl

theorem State.scull_tileGone {s : State} (hc : canonical s) (k cause j : Nat) :
    (s.tileGone k cause).scull j =
      if j = k then { s.scull k with state := .retired, cause := cause, testing := false, testDue := false } else s.scull j := by
  rw [State.tileGone, scull_eq_of_moves State.emitUnit_moves (by decide), State.bump_scull,
    scull_eq_of_moves State.dropRange_moves (by decide)]
  split
  case isTrue h => rw [h, State.scull_setScull _ _ _ hc.sculls]
  case isFalse h => rw [State.scull_setScull_of_ne _ _ _ _ (Ne.symm h)]

/-- The count of retired units in one of its fields, as a unit is counted in it and recorded. -/
theorem State.fld_bump_emitUnit (s : State) {off lo n : Nat} (hr : resetAt off = 0) (h1 : off ≠ 0x264) (h2 : off ≠ 0x278)
    (hn : 0 < n) (h : lo + n ≤ 32) (u k sev code : Nat) (st : Status) (pl : List Word) :
    ((s.bump off lo n).emitUnit u k sev code st pl).fld off lo n = min (s.fld off lo n + 1) (2 ^ n - 1) := by
  rw [State.fld, reg_eq_of_moves State.emitUnit_moves (by decide) h1 h2]
  exact State.fld_bump_of_reset_zero s off lo n hr hn h

theorem resetAt_retired : resetAt 0x274 = 0 := by decide +kernel

theorem State.tileGone_retired {s : State} (hc : canonical s) (k cause : Nat) : scullRetired k cause s (s.tileGone k cause) where
  unit := by
    rw [State.scull_tileGone hc, if_pos rfl]
    exact ⟨rfl, rfl, rfl⟩
  others j hj := by rw [State.scull_tileGone hc, if_neg hj]
  storeLost a h1 h2 := by rw [State.byte_tileGone, if_pos ⟨h1, h2⟩]
  storeKept a h := by rw [State.byte_tileGone, if_neg (by omega)]
  count := State.fld_bump_emitUnit _ resetAt_retired (by decide) (by decide) (by decide) (by decide) _ _ _ _ _ _
  log := State.emit_recorded _ _ _ _ _ _ _

/-- With another good scull in its crew the retirement ends with the scull. -/
theorem State.retireScull_of_spareable {s : State} (hc : canonical s) {k : Nat} (h : spareable k s) (cause : Nat) :
    s.retireScull k cause = s.tileGone k cause := by
  obtain ⟨hg, ht, hs, i, hi, hne, hgood⟩ := h
  have hany : ((List.range 16).any fun i => ((s.tileGone k cause).scull (k / 16 * 16 + i)).state == .good) = true :=
    List.any_eq_true.2 ⟨i, List.mem_range.2 hi, by rw [State.scull_tileGone hc, if_neg hne, hgood]; rfl⟩
  unfold State.retireScull
  rw [State.retireOne_of_idle hg ht hs]
  exact if_pos hany

/-! ### An idle crew retires -/

/-- What the retirement of idle sculls `l` for cause 6 does: the good ones go, no byte comes back, no crew is counted. -/
structure idleRetired (l : List Nat) (s t : State) : Prop where
  moves : Moves (logged [.regs, .mem, .poison, .sculls]) s t
  gone : ∀ k ∈ l, (s.scull k).state = .good → (t.scull k).state = .retired ∧ (t.scull k).cause = 6
  rest : ∀ k, k ∉ l → t.scull k = s.scull k
  zero : ∀ a, s.byte a = 0 → t.byte a = 0
  crews : t.fld 0x274 14 10 = s.fld 0x274 14 10

theorem State.tileGone_idleRetired {s : State} (hc : canonical s) (k : Nat) : idleRetired [k] s (s.tileGone k 6) where
  moves := State.tileGone_moves
  gone j hj _ := by
    rw [List.mem_singleton.1 hj]
    obtain ⟨hstate, hcause, -⟩ := (State.tileGone_retired hc k 6).unit
    exact ⟨hstate, hcause⟩
  rest j hj := (State.tileGone_retired hc k 6).others j (by simpa using hj)
  zero a ha := by rw [State.byte_tileGone, ha, ite_self]
  crews := by
    set u := (s.setScull k { s.scull k with state := .retired, cause := 6, testing := false, testDue := false }).dropRange
      (scullBase + k * 0x80000) (scullBase + (k + 1) * 0x80000) with hu
    have hm : Moves [.mem, .poison, .sculls] s u := (State.setScull_moves.mono (by decide)).via State.dropRange_moves (by decide)
    have heq : s.tileGone k 6 = (u.bump 0x274 0 14).emitUnit 0 k 2 evRetire .tileRetired [w32 k, w32 6] := rfl
    rw [heq, State.fld, reg_eq_of_moves State.emitUnit_moves (by decide) (by decide) (by decide)]
    exact State.fld_setFld_of_disjoint u 0x274 0 14 _ 14 10 (hm.keeps hc).regs (by decide) (by decide)

theorem State.retireOne_idleRetired {s : State} (hc : canonical s) {k : Nat}
    (h : (s.scull k).task = none ∧ (s.scull k).suspended = []) : idleRetired [k] s (s.retireOne k 6) := by
  by_cases hg : (s.scull k).state = .good
  · rw [State.retireOne_of_idle hg h.1 h.2]
    exact State.tileGone_idleRetired hc k
  · rw [State.retireOne_of_absent hg]
    exact ⟨Moves.refl _ _, fun j hj k => absurd (List.mem_singleton.1 hj ▸ k) hg, fun _ _ => rfl, fun _ h => h, rfl⟩

theorem State.retireAll_idleRetired (l : List Nat) (hl : l.Nodup) {s : State} (hc : canonical s)
    (h : ∀ k ∈ l, (s.scull k).task = none ∧ (s.scull k).suspended = []) :
    idleRetired l s (l.foldl (fun s k => s.retireOne k 6) s) := by
  induction l generalizing s with
  | nil => exact ⟨Moves.refl _ _, fun _ h => absurd h (by simp), fun _ _ => rfl, fun _ h => h, rfl⟩
  | cons x l ih =>
    obtain ⟨hx, hl⟩ := List.nodup_cons.1 hl
    obtain ⟨m1, g1, r1, z1, c1⟩ := State.retireOne_idleRetired hc (h x (by simp))
    have hother (k : Nat) (hk : k ∈ l) : (s.retireOne x 6).scull k = s.scull k :=
      r1 k (by rintro hkx; exact hx (List.mem_singleton.1 hkx ▸ hk))
    obtain ⟨m2, g2, r2, z2, c2⟩ := ih hl (m1.keeps hc) fun k hk => by rw [hother k hk]; exact h k (by simp [hk])
    refine ⟨m1.trans m2, fun k hk hg => ?_, fun k hk => ?_, fun a ha => z2 a (z1 a ha), c2.trans c1⟩
    · rw [List.foldl_cons]
      rcases List.mem_cons.1 hk with hk | hk
      · subst hk
        rw [r2 k hx]
        exact g1 k (by simp) hg
      · exact g2 k hk (by rwa [hother k hk])
    · simp only [List.mem_cons, not_or] at hk
      rw [List.foldl_cons, r2 k hk.2, r1 k (by simpa using hk.1)]

/-- The sculls of a crew. -/
noncomputable def crewSculls (c : Nat) : List Nat := (List.range 16).map fun i => 16 * c + i

theorem mem_crewSculls {c k : Nat} : k ∈ crewSculls c ↔ k / 16 = c := by
  simp only [crewSculls, List.mem_map, List.mem_range]
  exact ⟨fun ⟨i, hi, h⟩ => by omega, fun h => ⟨k % 16, by omega, by omega⟩⟩

theorem crewSculls_nodup (c : Nat) : (crewSculls c).Nodup :=
  List.nodup_range.map fun a b h => by simpa using h

/-- A crew with its state changed and its store lost, before its sculls go. -/
noncomputable def State.crewOut (s : State) (c cause : Nat) : State :=
  (s.setCrew c { s.crew c with state := .retired, cause := cause, seifTest := false }).dropRange
    (crewBase + c * 0x400000) (crewBase + (c + 1) * 0x400000)

theorem State.crewOut_moves {s : State} {c cause : Nat} : Moves [.mem, .poison, .crews] s (s.crewOut c cause) :=
  (State.setCrew_moves.mono (by decide)).via State.dropRange_moves (by decide)

theorem State.crew_crewOut {s : State} (hc : canonical s) (c cause j : Nat) :
    (s.crewOut c cause).crew j =
      if j = c then { s.crew c with state := .retired, cause := cause, seifTest := false } else s.crew j := by
  rw [State.crewOut, crew_eq_of_moves State.dropRange_moves (by decide)]
  split
  case isTrue h => rw [h, State.crew_setCrew _ _ _ hc.crews]
  case isFalse h => rw [State.crew_setCrew_of_ne _ _ _ _ (Ne.symm h)]

/-- A crew with its sculls retired, counted and recorded. -/
noncomputable def State.crewGone (s : State) (c cause : Nat) : State :=
  (((crewSculls c).foldl (fun s k => s.retireOne k 6) (s.crewOut c cause)).bump 0x274 14 10).emitUnit 1 c 2 evRetire .crewRetired
    [w32 (unitId 1 c), w32 cause]

theorem State.crewOut_retireAll {s : State} (hc : canonical s) {c : Nat} (h : crewIdle c s) (cause : Nat) :
    idleRetired (crewSculls c) (s.crewOut c cause) ((crewSculls c).foldl (fun s k => s.retireOne k 6) (s.crewOut c cause)) := by
  obtain ⟨-, -, -, -, hidle⟩ := h
  refine State.retireAll_idleRetired _ (crewSculls_nodup c) (State.crewOut_moves.keeps hc) fun k hk => ?_
  have hkc := mem_crewSculls.1 hk
  have hi := hidle (k % 16) (by omega)
  rw [scull_eq_of_moves State.crewOut_moves (by decide)]
  rwa [show 16 * c + k % 16 = k by omega] at hi

theorem State.crewGone_last {s : State} {c cause : Nat} :
    Moves (logged [.regs]) ((crewSculls c).foldl (fun s k => s.retireOne k 6) (s.crewOut c cause)) (s.crewGone c cause) :=
  ((State.bump_moves_regs (by decide) (by decide)).mono (by decide)).via State.emitUnit_moves (by decide)

theorem State.crewGone_of_crewOut {s : State} (hc : canonical s) {c : Nat} (h : crewIdle c s) (cause : Nat) :
    Moves (logged [.regs, .mem, .poison, .sculls]) (s.crewOut c cause) (s.crewGone c cause) :=
  (State.crewOut_retireAll hc h cause).moves.via State.crewGone_last (by decide)

theorem State.crewGone_moves {s : State} (hc : canonical s) {c : Nat} (h : crewIdle c s) (cause : Nat) :
    Moves (logged [.regs, .mem, .poison, .sculls, .crews]) s (s.crewGone c cause) :=
  (State.crewOut_moves.mono (by decide)).via (State.crewGone_of_crewOut hc h cause) (by decide)

theorem State.crewGone_retired {s : State} (hc : canonical s) {c : Nat} (h : crewIdle c s) (cause : Nat) :
    crewRetired c cause s (s.crewGone c cause) := by
  obtain ⟨m, hgone, hrest, hzero, hcount⟩ := State.crewOut_retireAll hc h cause
  have hout (k : Nat) : (s.crewOut c cause).scull k = s.scull k := scull_eq_of_moves State.crewOut_moves (by decide) k
  have hscull := scull_eq_of_moves (State.crewGone_last (s := s) (c := c) (cause := cause)) (by decide)
  have hcrew (j : Nat) : (s.crewGone c cause).crew j = (s.crewOut c cause).crew j :=
    crew_eq_of_moves (State.crewGone_of_crewOut hc h cause) (by decide) j
  refine ⟨?_, fun j hj => ?_, fun i hi hg => ?_, fun k hk => ?_, fun a h1 h2 => ?_, ?_, ?_⟩
  · rw [hcrew, State.crew_crewOut hc, if_pos rfl]
    exact ⟨rfl, rfl, rfl⟩
  · rw [hcrew, State.crew_crewOut hc, if_neg hj]
  · rw [hscull]
    exact hgone _ (mem_crewSculls.2 (by omega)) (by rwa [hout])
  · rw [hscull, hrest k (fun hm => hk (mem_crewSculls.1 hm)), hout]
  · rw [byte_eq_of_moves State.crewGone_last (by decide)]
    refine hzero a ?_
    rw [State.crewOut, State.byte_dropRange, if_pos ⟨h1, h2⟩]
  · have hfld : (s.crewOut c cause).fld 0x274 14 10 = s.fld 0x274 14 10 := by
      rw [State.fld, State.fld, reg_eq_of_moves State.crewOut_moves (by decide) (by decide) (by decide)]
    rw [State.crewGone, State.fld_bump_emitUnit _ resetAt_retired (by decide) (by decide) (by decide) (by decide), hcount, hfld]
    rfl
  · unfold State.crewGone
    exact State.emit_recorded (State.bump _ 0x274 14 10) _ _ _ _ _ _

/-- A settled machine has nothing to do after an idle crew is gone. -/
theorem State.retireCrew_of_idle {s : State} (hc : canonical s) {c : Nat} (h : crewIdle c s) (cause : Nat) :
    s.retireCrew c cause = s.crewGone c cause := by
  obtain ⟨hset, hg, hq, hp, -⟩ := id h
  have hself : (s.crewGone c cause).crew c = { s.crew c with state := .retired, cause := cause, seifTest := false } := by
    rw [crew_eq_of_moves (State.crewGone_of_crewOut hc h cause) (by decide), State.crew_crewOut hc, if_pos rfl]
  have hout : Safety.settled (s.crewOut c cause) :=
    settled_of_moves (settled_setCrew hset c (v := { s.crew c with state := .retired, cause := cause, seifTest := false }) hp) State.dropRange_moves (by decide) (by decide) (by decide)
  obtain ⟨hparked, hwaiting, hbusy⟩ :=
    settled_of_moves hout (State.crewGone_of_crewOut hc h cause) (by decide) (by decide) (by decide)
  have heq : s.retireCrew c cause =
      (((s.crewGone c cause).moveQueue c (fun _ => true) fun _ => true).rewake.joinDrained).pumpAll := by
    unfold State.retireCrew State.crewGone crewSculls State.crewOut
    rw [List.foldl_map]
    exact if_neg (by simp [hg])
  rw [heq, State.moveQueue_of_empty (by rw [hself, hq]) (by rw [hself, hp]), State.rewake_of_unparked hparked,
    State.joinDrained_of_free hbusy, State.pumpAll_of_delivered hwaiting]

/-! ### A Bow without a task retires -/

/-- A Bow that leaves service with nothing to hand back. -/
noncomputable def State.bowGone (s : State) (d cause : Nat) : State :=
  ((s.setErg d { s.erg d with bow := .retired, bowCause := cause, bowTest := false }).bump 0x274 24 4).emitUnit 3 d 2 evRetire .internal
    [w32 (unitId 3 d), w32 cause]

theorem State.bowGone_moves {s : State} {d cause : Nat} : Moves (logged [.regs, .ergs]) s (s.bowGone d cause) :=
  ((State.setErg_moves.mono (by decide)).via (State.bump_moves_regs (by decide) (by decide)) (by decide)).via
    State.emitUnit_moves (by decide)

theorem State.bowGone_retired {s : State} (hc : canonical s) (d cause : Nat) : bowRetired d cause s (s.bowGone d cause) := by
  have herg (j : Nat) :
      (s.bowGone d cause).erg j = (s.setErg d { s.erg d with bow := .retired, bowCause := cause, bowTest := false }).erg j := by
    rw [State.bowGone, erg_eq_of_moves State.emitUnit_moves (by decide), State.bump_erg]
  refine ⟨?_, fun j hj => ?_, State.fld_bump_emitUnit _ resetAt_retired (by decide) (by decide) (by decide) (by decide) _ _ _ _ _ _,
    State.emit_recorded _ _ _ _ _ _ _⟩
  · rw [herg, State.erg_setErg _ _ _ hc.ergs]
    exact ⟨rfl, rfl, rfl⟩
  · rw [herg, State.erg_setErg_of_ne _ _ _ _ (Ne.symm hj)]

theorem State.moveQueues_of_empty (l : List Nat) {s : State} (h : ∀ c ∈ l, (s.crew c).queue = [] ∧ (s.crew c).parked = [])
    (which : Task → Bool) (ok : Nat → Bool) : l.foldl (fun s c => s.moveQueue c which ok) s = s := by
  induction l with
  | nil => rfl
  | cons c l ih =>
    obtain ⟨hq, hp⟩ := h c (by simp)
    rw [List.foldl_cons, State.moveQueue_of_empty hq hp]
    exact ih fun c hc => h c (by simp [hc])

theorem State.retireBow_of_idle {s : State} {d : Nat} (h : bowIdle d s) (cause : Nat) : s.retireBow d cause = s.bowGone d cause := by
  obtain ⟨hset, hg, ht, hcrews⟩ := h
  have hcrew (c : Nat) : (s.bowGone d cause).crew c = s.crew c := crew_eq_of_moves State.bowGone_moves (by decide) c
  obtain ⟨hparked, hwaiting, -⟩ := settled_of_moves hset (State.bowGone_moves (d := d) (cause := cause)) (by decide) (by decide) (by decide)
  have heq : s.retireBow d cause = (((ergCrews d).foldl (fun t c => t.moveQueue c Task.onBow
      fun c => ((s.bowGone d cause).erg (c / 48)).bow == .good) (s.bowGone d cause)).rewake).pumpAll := by
    simp [State.retireBow, State.bowGone, hg, ht]
  rw [heq, State.moveQueues_of_empty _ (fun c hc => by rw [hcrew]; exact hcrews c hc), State.rewake_of_unparked hparked,
    State.pumpAll_of_delivered hwaiting]

/-! ### The visit to a delay line (R33, R34) -/

/-- A visit keeps the least margin of the erg. -/
noncomputable def State.lineSeen (s : State) (c m : Nat) : State :=
  s.setFld (ergReg (c / 48) 0x10C) 0 16 (min (s.fld (ergReg (c / 48) 0x10C) 0 16) m)

/-- A line takes a tap of its calibration (R33). -/
noncomputable def State.tapTaken (s : State) (n : Nat) : State :=
  { s with nv := { s.nv with taps := Tab.put 0 s.nv.taps n (Tab.get 0 s.nv.taps n + 1) } }

section

variable {s : State} {c m : Nat} (hb : s.background = true) (hg : (s.crew c).state = .good)

include hb hg

theorem exec_delayLineRecal_wide (hm : 60 ≤ m) (l : Line) (taps : Bool) :
    exec (.delayLineRecal c l m taps) s = .next (s.lineSeen c m) :=
  (if_pos ⟨hb, hg⟩).trans (if_pos hm)

theorem exec_delayLineRecal_tap (hm : m < 60) (l : Line) :
    exec (.delayLineRecal c l m true) s = .next ((((s.lineSeen c m).tapTaken (lineKey c l)).bump (ergReg (c / 48) 0x10C) 16 8).emitUnit
      1 c 1 evDelayTap .ok [w32 c]) :=
  (if_pos ⟨hb, hg⟩).trans ((if_neg (Nat.not_le.2 hm)).trans (if_pos rfl))

theorem exec_delayLineRecal_scull (hm : m < 60) (k : Nat) :
    exec (.delayLineRecal c (.scull k) m false) s = .next ((s.lineSeen c m).retireScull k 4) :=
  (if_pos ⟨hb, hg⟩).trans ((if_neg (Nat.not_le.2 hm)).trans (if_neg (by decide)))

theorem exec_delayLineRecal_crew (hm : m < 60) :
    exec (.delayLineRecal c .crew m false) s = .next ((s.lineSeen c m).retireCrew c 3) :=
  (if_pos ⟨hb, hg⟩).trans ((if_neg (Nat.not_le.2 hm)).trans (if_neg (by decide)))

theorem exec_delayLineRecal_bow (hm : m < 60) :
    exec (.delayLineRecal c .bow m false) s = .next ((s.lineSeen c m).retireBow (c / 48) 3) :=
  (if_pos ⟨hb, hg⟩).trans ((if_neg (Nat.not_le.2 hm)).trans (if_neg (by decide)))

end

theorem State.lineSeen_moves {s : State} {c m : Nat} : Moves [.regs, .lossCounts] s (s.lineSeen c m) :=
  State.setFld_moves.mono (by decide)

theorem State.fld_lineSeen_least {s : State} (hc : canonical s) (c m : Nat) :
    (s.lineSeen c m).fld (ergReg (c / 48) 0x10C) 0 16 = min (s.fld (ergReg (c / 48) 0x10C) 0 16) m := by
  have hlt : s.fld (ergReg (c / 48) 0x10C) 0 16 < 2 ^ 16 := bits_lt _ _ _
  rw [State.lineSeen, State.fld_setFld _ _ _ _ _ hc.regs (by decide), Nat.mod_eq_of_lt (by omega)]

theorem State.fld_lineSeen_taps {s : State} (hc : canonical s) (c m : Nat) :
    (s.lineSeen c m).fld (ergReg (c / 48) 0x10C) 16 8 = s.fld (ergReg (c / 48) 0x10C) 16 8 :=
  State.fld_setFld_of_disjoint _ _ _ _ _ _ _ hc.regs (by decide) (by decide)

theorem State.reg_lineSeen_of_ne (s : State) (c m : Nat) {off : Nat} (h : off ≠ ergReg (c / 48) 0x10C) :
    (s.lineSeen c m).reg off = s.reg off :=
  State.reg_setFld_of_ne _ _ _ _ _ _ (Ne.symm h)

theorem State.fld_lineSeen_retired (s : State) (c m lo n : Nat) : (s.lineSeen c m).fld 0x274 lo n = s.fld 0x274 lo n := by
  rw [State.fld, State.reg_lineSeen_of_ne _ _ _ (by simp [ergReg]; omega), State.fld]

/-- Of the non-volatile store only the end of the reserved record numbers may differ. -/
theorem nv_eq_of_moves {ps : List Part} {s t : State} (m : Moves ps s t) (hn : Part.nv ∉ ps) (hi : Part.ident ∉ ps)
    (hl : Part.life ∉ ps) : { t.nv with reserved := s.nv.reserved } = s.nv := by
  obtain ⟨hvariant, hserial⟩ := m.frame .ident hi
  obtain ⟨hlifecycle, hused⟩ := m.frame .life hl
  have hrest := congrArg (fun v : Nv => { v with
    variant := s.nv.variant, serial := s.nv.serial, lifecycle := s.nv.lifecycle, lcUsed := s.nv.lcUsed,
    reserved := s.nv.reserved }) (m.frame .nv hn)
  refine Eq.trans ?_ hrest
  rw [← hvariant, ← hserial, ← hlifecycle, ← hused]

theorem State.tapTaken_moves {s : State} {n : Nat} : Moves [.nv] s (s.tapTaken n) :=
  Moves.upd_nv rfl rfl rfl rfl rfl le_rfl le_rfl (fun _ h => h) fun _ h => h

theorem delayLineRecal_tap {s : State} (hc : canonical s) (hw : Tab.wf 0 s.nv.taps = true) (c m : Nat) (l : Line) {t : State}
    (ht : t = ((((s.lineSeen c m).tapTaken (lineKey c l)).bump (ergReg (c / 48) 0x10C) 16 8).emitUnit 1 c 1 evDelayTap .ok [w32 c])) :
    t.fld (ergReg (c / 48) 0x10C) 0 16 = min (s.fld (ergReg (c / 48) 0x10C) 0 16) m ∧
      t.fld (ergReg (c / 48) 0x10C) 16 8 = min (s.fld (ergReg (c / 48) 0x10C) 16 8 + 1) 0xFF ∧
      recorded t 3 (unitId 1 c) 1 evDelayTap .ok [w32 c] ∧
      Tab.get 0 t.nv.taps (lineKey c l) = Tab.get 0 s.nv.taps (lineKey c l) + 1 ∧
      { t.nv with taps := s.nv.taps, reserved := s.nv.reserved } = s.nv ∧
      (∀ off, off ≠ ergReg (c / 48) 0x10C → off ≠ 0x264 → off ≠ 0x278 → t.reg off = s.reg off) ∧ changesOnly (logged [.nv, .regs]) s t := by
  set off := ergReg (c / 48) 0x10C with hoff
  set u := (s.lineSeen c m).tapTaken (lineKey c l) with hu
  have hne : off ≠ 0x264 ∧ off ≠ 0x278 := by simp [hoff, ergReg]; omega
  have hmu : Moves [.nv, .regs, .lossCounts] s u := (State.lineSeen_moves.mono (by decide)).via State.tapTaken_moves (by decide)
  have hlast : Moves (logged []) (u.bump off 16 8) t := ht ▸ State.emitUnit_moves
  have hreg (r : Nat) (h1 : r ≠ 0x264) (h2 : r ≠ 0x278) : t.reg r = (u.bump off 16 8).reg r :=
    reg_eq_of_moves hlast (by decide) h1 h2
  have hfld (lo n : Nat) : u.fld off lo n = (s.lineSeen c m).fld off lo n := rfl
  have hbump : Moves [.regs] u (u.bump off 16 8) := State.bump_moves_regs hne.1 hne.2
  have hnv : { t.nv with reserved := u.nv.reserved } = u.nv :=
    nv_eq_of_moves ((hbump.mono (by decide : partsIn _ (logged [.regs]) = true)).via hlast (by decide)) (by decide) (by decide) (by decide)
  have htaps : t.nv.taps = Tab.put 0 s.nv.taps (lineKey c l) (Tab.get 0 s.nv.taps (lineKey c l) + 1) := congrArg Nv.taps hnv
  refine ⟨?_, ?_, ht ▸ State.emit_recorded _ _ _ _ _ _ _, ?_, ?_, fun r hr h1 h2 => ?_, ?_⟩
  · rw [State.fld, hreg off hne.1 hne.2, ← State.fld_lineSeen_least hc c m, ← hoff, ← hfld]
    exact State.fld_setFld_of_disjoint _ _ _ _ _ _ _ (hmu.keeps hc).regs (by decide) (by decide)
  · rw [State.fld, hreg off hne.1 hne.2, ← State.fld_lineSeen_taps hc c m, ← hoff, ← hfld]
    exact State.fld_bumpBy _ _ _ _ _ (hmu.keeps hc).regs (by decide)
  · rw [htaps]
    exact Tab.get_put_self (fun _ => 0) _ _ _ ((Tab.wf_iff _ _).1 hw)
  · exact congrArg (fun v : Nv => { v with taps := s.nv.taps, reserved := s.nv.reserved }) hnv
  · rw [hreg r h1 h2, State.reg_bump_of_ne _ _ _ _ _ (Ne.symm hr)]
    exact State.reg_lineSeen_of_ne _ _ _ hr
  · exact (((hmu.mono (by decide)).via hbump (by decide)).via hlast (by decide)).frame

/-! ### The units that a line without taps takes with it (R34) -/

theorem delayLineRecal_scull {s : State} (hc : canonical s) {k m : Nat} (h : spareable k s) :
    scullRetired k 4 s ((s.lineSeen (k / 16) m).retireScull k 4) ∧
      changesOnly (logged [.regs, .mem, .poison, .sculls]) s ((s.lineSeen (k / 16) m).retireScull k 4) := by
  have hseen : Moves [.regs, .lossCounts] s (s.lineSeen (k / 16) m) := State.lineSeen_moves
  have hscull := scull_eq_of_moves hseen (by decide)
  have hspare : spareable k (s.lineSeen (k / 16) m) := by simpa only [spareable, hscull] using h
  obtain ⟨hunit, hothers, hlost, hkept, hcount, hlog⟩ := State.tileGone_retired (hseen.keeps hc) k 4
  rw [State.retireScull_of_spareable (hseen.keeps hc) hspare]
  refine ⟨⟨hunit, fun j hj => (hothers j hj).trans (hscull j), hlost, fun a ha => (hkept a ha).trans ?_, ?_, hlog⟩, ?_⟩
  · exact byte_eq_of_moves hseen (by decide) a
  · rwa [State.fld_lineSeen_retired] at hcount
  · exact ((hseen.mono (by decide)).via State.tileGone_moves (by decide)).frame

theorem delayLineRecal_crew {s : State} (hc : canonical s) {c m : Nat} (h : crewIdle c s) :
    crewRetired c 3 s ((s.lineSeen c m).retireCrew c 3) ∧
      changesOnly (logged [.regs, .mem, .poison, .sculls, .crews]) s ((s.lineSeen c m).retireCrew c 3) := by
  have hseen : Moves [.regs, .lossCounts] s (s.lineSeen c m) := State.lineSeen_moves
  have hscull := scull_eq_of_moves hseen (by decide)
  have hcrew := crew_eq_of_moves hseen (by decide)
  have hidle : crewIdle c (s.lineSeen c m) := by
    obtain ⟨hset, hrest⟩ := h
    exact ⟨settled_of_moves hset hseen (by decide) (by decide) (by decide), by simpa only [hscull, hcrew] using hrest⟩
  obtain ⟨hunit, hothers, hgone, hrest, hlost, hcount, hlog⟩ := State.crewGone_retired (hseen.keeps hc) hidle 3
  rw [State.retireCrew_of_idle (hseen.keeps hc) hidle]
  refine ⟨⟨hunit, fun j hj => (hothers j hj).trans (hcrew j), fun i hi hg => hgone i hi (by rwa [hscull]),
    fun k hk => (hrest k hk).trans (hscull k), hlost, ?_, hlog⟩, ?_⟩
  · rwa [State.fld_lineSeen_retired] at hcount
  · exact ((hseen.mono (by decide)).via (State.crewGone_moves (hseen.keeps hc) hidle 3) (by decide)).frame

theorem delayLineRecal_bow {s : State} (hc : canonical s) {c m : Nat} (h : bowIdle (c / 48) s) :
    bowRetired (c / 48) 3 s ((s.lineSeen c m).retireBow (c / 48) 3) ∧
      changesOnly (logged [.regs, .ergs]) s ((s.lineSeen c m).retireBow (c / 48) 3) := by
  have hseen : Moves [.regs, .lossCounts] s (s.lineSeen c m) := State.lineSeen_moves
  have herg := erg_eq_of_moves hseen (by decide)
  have hcrew := crew_eq_of_moves hseen (by decide)
  have hidle : bowIdle (c / 48) (s.lineSeen c m) := by
    obtain ⟨hset, hrest⟩ := h
    exact ⟨settled_of_moves hset hseen (by decide) (by decide) (by decide), by simpa only [herg, hcrew] using hrest⟩
  obtain ⟨hunit, hothers, hcount, hlog⟩ := State.bowGone_retired (hseen.keeps hc) (c / 48) 3
  rw [State.retireBow_of_idle hidle]
  refine ⟨⟨hunit, fun j hj => (hothers j hj).trans (herg j), ?_, hlog⟩, ?_⟩
  · rwa [State.fld_lineSeen_retired] at hcount
  · exact ((hseen.mono (by decide)).via State.bowGone_moves (by decide)).frame

/-! ### A window of the beat monitor (R48) -/

/-- The word that shows a rate and a voltage. -/
noncomputable def beatWord (beats mv : Nat) : Word := w32 (min (beats / 100) 0xFFFF + mv % 1024 * 0x10000)

theorem bits_beatWord (beats mv : Nat) :
    bits (beatWord beats mv) 0 16 = min (beats / 100) 0xFFFF ∧ bits (beatWord beats mv) 16 10 = mv % 1024 := by
  have hto : (beatWord beats mv).toNat = min (beats / 100) 0xFFFF + mv % 1024 * 0x10000 := by
    rw [beatWord, w32, BitVec.toNat_ofNat, Nat.mod_eq_of_lt (by omega)]
  simp only [bits, hto]
  constructor <;> omega

theorem beatRateWindowEnd_spec {s : State} (hc : canonical s) {d mv : Nat} (hp : s.power = .on) (ht : s.timer = true)
    (h100 : s.etc % 100 = 0) (hw : (s.erg d).windows < s.etc / 100) :
    ∃ t, exec (.beatRateWindowEnd d mv) s = .next t ∧
      t.fld (ergReg d 0x108) 0 16 = min (s.beatsIn d (s.etc - 100) 100 / 100) 0xFFFF ∧ t.fld (ergReg d 0x108) 16 10 = mv % 1024 ∧
      t.erg d = { s.erg d with windows := s.etc / 100 } ∧ (∀ j, j ≠ d → t.erg j = s.erg j) ∧
      (∀ off, off ≠ ergReg d 0x108 → t.reg off = s.reg off) ∧ changesOnly [.regs, .lossCounts, .ergs] s t := by
  refine ⟨(s.setErg d { s.erg d with windows := s.etc / 100 }).setReg (ergReg d 0x108)
    (beatWord (s.beatsIn d (s.etc - 100) 100) mv), if_pos ⟨hp, ht, h100, hw⟩, ?_⟩
  obtain ⟨hrate, hvolt⟩ := bits_beatWord (s.beatsIn d (s.etc - 100) 100) mv
  have herg : Moves [.ergs] s (s.setErg d { s.erg d with windows := s.etc / 100 }) := State.setErg_moves
  refine ⟨?_, ?_, State.erg_setErg _ _ _ hc.ergs, fun j hj => State.erg_setErg_of_ne _ _ _ _ (Ne.symm hj),
    fun off hoff => State.reg_setReg_of_ne _ _ _ _ (Ne.symm hoff), ?_⟩
  · rw [State.fld, State.reg_setReg _ _ _ (herg.keeps hc).regs, hrate]
  · rw [State.fld, State.reg_setReg _ _ _ (herg.keeps hc).regs, hvolt]
  · exact ((herg.mono (by decide)).via State.setReg_moves (by decide)).frame

/-- Settles O6: each way a visit to a delay line ends, and the windows of the beat monitor. -/
theorem delayLinesAndBeats : Obligations.DelayLinesAndBeats := by
  unfold Obligations.DelayLinesAndBeats
  refine ⟨fun s c l m taps hc hb hg hm => ⟨_, exec_delayLineRecal_wide hb hg hm l taps, State.fld_lineSeen_least hc c m,
      State.fld_lineSeen_taps hc c m, fun off hoff => State.reg_lineSeen_of_ne s c m hoff, State.lineSeen_moves.frame⟩,
    fun s c l m hc hw hb hg hm => ⟨_, exec_delayLineRecal_tap hb hg hm l, delayLineRecal_tap hc hw c m l rfl⟩,
    fun s k m hc hb hg hm h => ⟨_, exec_delayLineRecal_scull hb hg hm k, delayLineRecal_scull hc h⟩,
    fun s c m hc hb hm h => ⟨_, exec_delayLineRecal_crew hb h.2.1 hm, delayLineRecal_crew hc h⟩,
    fun s c m hc hb hg hm h => ⟨_, exec_delayLineRecal_bow hb hg hm, delayLineRecal_bow hc h⟩,
    fun s c l m taps h => if_neg ?_,
    fun s d mv hc hp ht h100 hw => beatRateWindowEnd_spec hc hp ht h100 hw,
    fun s d mv h => if_neg ?_⟩
  · rintro ⟨hb, hg⟩
    rcases h with h | h
    · simp [h] at hb
    · exact h hg
  · rintro ⟨hp, ht, h100, hw⟩
    rcases h with h | h | h | h
    · exact h hp
    · simp [h] at ht
    · exact h h100
    · omega

end Sys2Proof.Machine

/-! ## Bytes written and read back

What a store to the host or the Hamada window leaves at each address, and a little-endian number among bytes. -/

namespace Sys2Proof.Machine

open Sys2Proof.Laws Sys2Proof.Safety

/-! ### Entries put one after the other -/

theorem Tab.get_foldl_put_of_not_mem {α : Type} [DecidableEq α] (d : α) {cs : List (Nat × α)} (t : Tab α) {k : Nat}
    (h : k ∉ cs.map Prod.fst) : Tab.get d (cs.foldl (fun m c => Tab.put d m c.1 c.2) t) k = Tab.get d t k := by
  induction cs generalizing t with
  | nil => rfl
  | cons c cs ih =>
    simp only [List.map_cons, List.mem_cons, not_or] at h
    rw [List.foldl_cons, ih _ h.2, Tab.get_put_of_ne _ _ _ _ _ _ (Ne.symm h.1)]

/-- Of entries with different keys each reads as it was put. -/
theorem Tab.get_foldl_put_of_mem {α : Type} [DecidableEq α] (d : α) {cs : List (Nat × α)} {t : Tab α} (ht : Tab.okBy (fun _ => d) t)
    (hd : (cs.map Prod.fst).Nodup) {k : Nat} {v : α} (hm : (k, v) ∈ cs) :
    Tab.get d (cs.foldl (fun m c => Tab.put d m c.1 c.2) t) k = v := by
  induction cs generalizing t with
  | nil => exact absurd hm (by simp)
  | cons c cs ih =>
    obtain ⟨hc, hd⟩ := List.nodup_cons.1 (by simpa using hd : (c.1 :: cs.map Prod.fst).Nodup)
    rw [List.foldl_cons]
    rcases List.mem_cons.1 hm with hm | hm
    · subst hm
      rw [Tab.get_foldl_put_of_not_mem d _ hc]
      exact Tab.get_put_self (fun _ => d) _ _ _ ht
    · exact ih (Tab.okBy_put (fun _ => d) _ _ _ ht) hd hm
/-! ### A store to an open window -/

theorem cellsAt_keys (da : Nat) (bs : List Byte) : (cellsAt da bs).map Prod.fst = (List.range bs.length).map (da + ·) := by
  rw [cellsAt, List.map_map]
  refine List.ext_getElem (by simp) fun i h1 h2 => by simp

theorem cellsAt_keys_nodup (da : Nat) (bs : List Byte) : ((cellsAt da bs).map Prod.fst).Nodup := by
  rw [cellsAt_keys]
  exact List.nodup_range.map fun a b h => by simpa using h

theorem mem_cellsAt {da i : Nat} {bs : List Byte} (h : i < bs.length) : (da + i, bs.getD i 0) ∈ cellsAt da bs := by
  refine List.mem_map.2 ⟨(bs.getD i 0, i), ?_, rfl⟩
  rw [List.mem_zipIdx_iff_getElem?]
  simp [h]

/-- A line of the host window, or of a Hamada window that can be written. -/
def State.windowLine (s : State) (l : Nat) : Prop :=
  regionOf (l * 256) = some .host ∨ (regionOf (l * 256) = some .flash ∧ s.flashOpen = true)

theorem State.writeLine_of_window {s : State} {l : Nat} (h : s.windowLine l) (key : Word) (cs : List Cell) :
    s.writeLine key l cs = s.store cs := by
  unfold State.writeLine
  rcases h with h | ⟨h, ho⟩ <;> simp only [h]
  exact if_pos ho

/-- Lines of open windows are stored and nothing else: each cell's byte, once its line has been written. -/
theorem State.writeLines_of_window (key : Word) (cs : List Cell) (hd : (cs.map Prod.fst).Nodup) (ls : List Nat) {s : State}
    (hm : memOk s) (h : ∀ l ∈ ls, s.windowLine l) :
    Moves [.mem] s (ls.foldl (fun s l => s.writeLine key l (cs.filter fun c => c.1 / 256 == l)) s) ∧
      ∀ a v, (a, v) ∈ cs → a / 256 ∈ ls ∨ s.byte a = v →
        (ls.foldl (fun s l => s.writeLine key l (cs.filter fun c => c.1 / 256 == l)) s).byte a = v := by
  induction ls generalizing s with
  | nil => exact ⟨Moves.refl _ _, fun a v _ h => h.resolve_left (by simp)⟩
  | cons l ls ih =>
    rw [List.foldl_cons, State.writeLine_of_window (h l (by simp))]
    set u := s.store (cs.filter fun c => c.1 / 256 == l) with hu
    have hstep : Moves [.mem] s u := State.store_moves
    have hopen : u.flashOpen = s.flashOpen := rfl
    have hmu : memOk u := by
      refine ⟨(Tab.wf_iff _ _).2 ?_, hm.2⟩
      exact Tab.okBy_foldl_put 0 _ _ ((Tab.wf_iff _ _).1 hm.1)
    obtain ⟨hmoves, hbytes⟩ := ih hmu fun j hj => by
      have := h j (by simp [hj])
      rwa [State.windowLine, hopen]
    refine ⟨hstep.trans hmoves, fun a v hav hor => hbytes a v hav ?_⟩
    by_cases hl : a / 256 = l
    · refine .inr (Tab.get_foldl_put_of_mem 0 ((Tab.wf_iff _ _).1 hm.1) (hd.sublist (List.filter_sublist.map _)) ?_)
      exact List.mem_filter.2 ⟨hav, by simp [hl]⟩
    · rcases hor with hor | hor
      · exact .inl ((List.mem_cons.1 hor).resolve_left hl)
      · refine .inr ((s.byte_store_of_not_mem _ a fun c hc hca => hl ?_).trans hor)
        rw [← hca]
        simpa using (List.mem_filter.1 hc).2

/-- Bytes at a run of addresses of an open window are stored there, and nothing else changes. -/
theorem State.write_cellsAt_of_window {s : State} (hm : memOk s) (key : Word) (da : Nat) (bs : List Byte)
    (h : ∀ i, i < bs.length → s.windowLine ((da + i) / 256)) :
    Moves [.mem] s (s.write key (cellsAt da bs)) ∧
      (∀ i, i < bs.length → (s.write key (cellsAt da bs)).byte (da + i) = bs.getD i 0) ∧
      ∀ a, a < da ∨ da + bs.length ≤ a → (s.write key (cellsAt da bs)).byte a = s.byte a := by
  have hkeys (k : Nat) (hk : k ∈ (cellsAt da bs).map Prod.fst) : ∃ i, i < bs.length ∧ da + i = k := by
    rw [cellsAt_keys] at hk
    simpa using hk
  obtain ⟨hmoves, hbytes⟩ := State.writeLines_of_window key (cellsAt da bs) (cellsAt_keys_nodup da bs) (linesOf (cellsAt da bs)) hm
    fun l hl => by
      obtain ⟨c, hc, rfl⟩ := List.mem_map.1 (List.mem_dedup.1 hl)
      obtain ⟨i, hi, hk⟩ := hkeys c.1 (List.mem_map_of_mem hc)
      rw [← hk]
      exact h i hi
  refine ⟨hmoves, fun i hi => hbytes _ _ (mem_cellsAt hi) (.inl ?_), fun a ha => s.byte_write_cellsAt key da bs a ha⟩
  exact List.mem_dedup.2 (List.mem_map.2 ⟨_, mem_cellsAt hi, rfl⟩)

/-! ### Little-endian numbers -/

theorem leNat_leBytes (n v : Nat) : leNat n (leBytes n v) = v % 256 ^ n := by
  induction n generalizing v with
  | zero => simp [leNat, Nat.mod_one]
  | succ n ih =>
    have hsplit : v % (256 * 256 ^ n) = v % 256 + 256 * (v / 256 % 256 ^ n) := Nat.mod_mul
    rw [leBytes, leNat, ih, BitVec.toNat_ofNat, Nat.pow_succ' (m := 256), hsplit]

theorem leNat_append (n : Nat) (bs r : List Byte) (h : bs.length = n) : leNat n (bs ++ r) = leNat n bs := by
  induction n generalizing bs with
  | zero => rfl
  | succ n ih =>
    cases bs with
    | nil => exact absurd h (by simp)
    | cons b bs => rw [List.cons_append, leNat, leNat, ih bs (by simpa using h)]

/-- Bytes that agree with those of a number read as it. -/
theorem leNat_of_getD {n v : Nat} {bs : List Byte} (hl : bs.length = n) (h : ∀ i, i < n → bs.getD i 0 = (leBytes n v).getD i 0) :
    leNat n bs = v % 256 ^ n := by
  rw [← leNat_leBytes]
  congr 1
  refine List.ext_getElem (by rw [hl, length_leBytes]) fun i h1 h2 => ?_
  have hi := h i (hl ▸ h1)
  rwa [List.getD_eq_getElem _ _ h1, List.getD_eq_getElem _ _ h2] at hi

theorem State.loadNat_of_bytes {s : State} {da n v : Nat} (h : ∀ i, i < n → s.byte (da + i) = (leBytes n v).getD i 0) :
    s.loadNat da n = v % 256 ^ n := by
  refine leNat_of_getD (by simp [State.load]) fun i hi => ?_
  rw [← h i hi]
  simp [State.load, hi]

theorem leNat_lt (n : Nat) (bs : List Byte) : leNat n bs < 256 ^ n := by
  induction n generalizing bs with
  | zero => simp [leNat]
  | succ n ih =>
    cases bs with
    | nil => simp [leNat]
    | cons b bs =>
      have := ih bs
      have := b.isLt
      rw [leNat, Nat.pow_succ]
      omega

/-- Equal bytes read as equal numbers. -/
theorem State.loadNat_congr {s t : State} {da n : Nat} (h : ∀ i, i < n → t.byte (da + i) = s.byte (da + i)) :
    t.loadNat da n = s.loadNat da n := by
  unfold State.loadNat State.load
  congr 1
  exact List.map_congr_left fun i hi => h i (List.mem_range.1 hi)

end Sys2Proof.Machine

/-! ## How a mailbox takes a command and answers it

A command that passes its checks leaves its mailbox running while its work is done, and the end of the work answers it. -/

namespace Sys2Proof.Machine

open Sys2Proof.Laws Sys2Proof.Safety

/-! ### Nothing but an answer alerts the board -/

/-- Times the board's sideband was alerted. -/
noncomputable def State.alerts (s : State) : Nat := s.tx.count (.alert 8)

theorem State.raise_alerts (s : State) (v : Nat) : (s.raise v).alerts = s.alerts := by
  unfold State.raise
  split
  · rfl
  · split
    · rfl
    · exact List.count_cons_of_ne (by simp)

theorem State.writeRec_alerts (s : State) (cls ident sev code : Nat) (st : Status) (pl : List Word) :
    (s.writeRec cls ident sev code st pl).alerts = s.alerts := by
  unfold State.writeRec
  extract_lets l r0 r full old gone l' src nv s1 s2
  have hs2 : s2.alerts = s.alerts := by
    dsimp only [s2]
    split
    · exact congrArg (List.count _) (State.bump_tx _ _ _ _)
    · rfl
  split
  · exact (State.raise_alerts _ _).trans hs2
  · exact hs2

theorem State.record_alerts (s : State) (cls ident sev code : Nat) (st : Status) (pl : List Word) :
    (s.record cls ident sev code st pl).alerts = s.alerts := by
  unfold State.record
  extract_lets s1
  have hs1 : s1.alerts = s.alerts := State.writeRec_alerts _ _ _ _ _ _ _
  split <;> exact hs1

theorem State.reportLoss_alerts (s : State) : s.reportLoss.alerts = s.alerts := by
  unfold State.reportLoss
  split
  · split
    · exact State.writeRec_alerts _ _ _ _ _ _ _
    · rfl
  · rfl

theorem State.openBoot_alerts (s : State) : s.openBoot.alerts = s.alerts := by
  unfold State.openBoot
  dsimp only
  rw [State.record_alerts]
  split <;> exact State.record_alerts _ _ _ _ _ _ _

theorem State.emit_alerts (s : State) (cls ident sev code : Nat) (st : Status) (pl : List Word) :
    (s.emit cls ident sev code st pl).alerts = s.alerts := by
  unfold State.emit
  extract_lets s1 s2 ws
  have hs1 : s1.alerts = s.alerts := by
    dsimp only [s1]
    split
    · rfl
    · exact State.openBoot_alerts s
  have hs2 : s2.alerts = s.alerts := (State.reportLoss_alerts s1).trans hs1
  split
  · exact (congrArg (List.count _) (State.bump_tx _ _ _ _)).trans hs2
  · exact (State.record_alerts _ _ _ _ _ _ _).trans hs2

/-! ### The command in the buffer (Table COX.1) -/

/-- A command buffer with bytes written to its start. -/
noncomputable def Mailbox.filled (b : Mailbox) (bs : List Byte) : Mailbox :=
  { b with cmd := bs.zipIdx.foldl (fun (t : Tab Byte) x => Tab.put 0 t (0 + x.2) x.1) b.cmd }

/-- The box of a command that has been taken and runs. -/
noncomputable def Mailbox.taken (b : Mailbox) (op : Nat) (c : MbCmd) : Mailbox :=
  { b.filled (cmdBytes op c) with
    phase := .running, lastOp := BitVec.ofNat 16 op, tag := c.tag, irq := c.flags.getLsbD 0, unread := false }

theorem Mailbox.filled_cmd {b : Mailbox} (h : Tab.wf 0 b.cmd = true) (bs : List Byte) {i : Nat} (hi : i < bs.length) :
    Tab.get 0 (b.filled bs).cmd i = bs.getD i 0 := by
  have hm := mem_cellsAt (da := 0) hi
  have hget := Tab.get_foldl_put_of_mem 0 ((Tab.wf_iff _ _).1 h) (cellsAt_keys_nodup 0 bs) hm
  rw [cellsAt, List.foldl_map] at hget
  rwa [Nat.zero_add] at hget

/-- The command bytes of a well-formed command fit the buffer. -/
theorem cmdBytes_of_wellFormed {c : MbCmd} (h : wellFormed c) (op : Nat) :
    cmdBytes op c = leBytes 2 op ++ leBytes 2 c.flags.toNat ++ leBytes 4 c.tag.toNat ++ leBytes 4 c.length.toNat ++
      leBytes 4 c.reserved.toNat ++ c.payload := by
  obtain ⟨-, -, -, hlen⟩ := h
  refine List.take_of_length_le ?_
  simp only [List.length_append, length_leBytes]
  omega

/-- A number among bytes: what stands at its place. -/
theorem leNat_field {f : Nat → Byte} {bs : List Byte} (h : ∀ i, i < bs.length → f i = bs.getD i 0) (pre post : List Byte) {n v o : Nat}
    (hbs : bs = pre ++ (leBytes n v ++ post)) (ho : pre.length = o) :
    leNat n ((List.range n).map fun i => f (o + i)) = v % 256 ^ n := by
  refine leNat_of_getD (by simp) fun i hi => ?_
  have hlen : i < (leBytes n v).length := by rwa [length_leBytes]
  have hget : ((List.range n).map fun i => f (o + i)).getD i 0 = f (o + i) := by simp [hi]
  rw [hget, h _ (by rw [hbs]; simp only [List.length_append]; omega), hbs]
  simp only [List.getD_eq_getElem?_getD]
  rw [List.getElem?_append_right (by omega), List.getElem?_append_left (by omega)]
  congr 2
  omega

/-- The mailbox finds the command that was placed in it. -/
theorem Mailbox.parsed_of_wellFormed {b : Mailbox} (hw : Tab.wf 0 b.cmd = true) {c : MbCmd} (h : wellFormed c) {op : Nat}
    (hop : op < 65536) : (b.filled (cmdBytes op c)).parsed c.m c.id = (op, c) := by
  obtain ⟨f, hf⟩ : ∃ f : Nat → Byte, f = Tab.get 0 (b.filled (cmdBytes op c)).cmd := ⟨_, rfl⟩
  have hbytes (i : Nat) (hi : i < (cmdBytes op c).length) : f i = (cmdBytes op c).getD i 0 :=
    hf ▸ Mailbox.filled_cmd hw (cmdBytes op c) hi
  rw [cmdBytes_of_wellFormed h] at hbytes
  have hpayload (i : Nat) (hi : i < c.payload.length) : f (16 + i) = c.payload[i] := by
    have hpre : (leBytes 2 op ++ leBytes 2 c.flags.toNat ++ leBytes 4 c.tag.toNat ++ leBytes 4 c.length.toNat ++
        leBytes 4 c.reserved.toNat).length = 16 := by simp [length_leBytes]
    rw [hbytes _ (by rw [List.length_append, hpre]; omega), List.getD_eq_getElem?_getD, List.getElem?_append_right (by omega), hpre]
    simp [hi]
  simp only [List.append_assoc] at hbytes
  have hopcode : leNat 2 ((List.range 2).map fun i => f (0 + i)) = op % 256 ^ 2 := leNat_field hbytes [] _ rfl rfl
  have hflags : leNat 2 ((List.range 2).map fun i => f (2 + i)) = c.flags.toNat % 256 ^ 2 :=
    leNat_field hbytes (leBytes 2 op) _ rfl (length_leBytes _ _)
  have htag : leNat 4 ((List.range 4).map fun i => f (4 + i)) = c.tag.toNat % 256 ^ 4 :=
    leNat_field hbytes (leBytes 2 op ++ leBytes 2 c.flags.toNat) _ (by simp only [List.append_assoc]; rfl) (by simp [length_leBytes])
  have hlength : leNat 4 ((List.range 4).map fun i => f (8 + i)) = c.length.toNat % 256 ^ 4 :=
    leNat_field hbytes (leBytes 2 op ++ leBytes 2 c.flags.toNat ++ leBytes 4 c.tag.toNat) _ (by simp only [List.append_assoc]; rfl)
      (by simp [length_leBytes])
  have hreserved : leNat 4 ((List.range 4).map fun i => f (12 + i)) = c.reserved.toNat % 256 ^ 4 :=
    leNat_field hbytes (leBytes 2 op ++ leBytes 2 c.flags.toNat ++ leBytes 4 c.tag.toNat ++ leBytes 4 c.length.toNat) _
      (by simp only [List.append_assoc]; rfl) (by simp [length_leBytes])
  obtain ⟨-, -, hlen, hmax⟩ := h
  have hmap : ((List.range c.payload.length).map fun i => f (16 + i)) = c.payload :=
    List.ext_getElem (by simp) fun i h1 h2 => by simpa using hpayload i h2
  have hl := c.length.isLt
  have ht := c.tag.isLt
  have hr := c.reserved.isLt
  have hfl := c.flags.isLt
  simp only [Mailbox.parsed, ← hf]
  rw [hopcode, hflags, htag, hlength, hreserved, w32, w32, w32]
  simp only [Nat.reducePow] at hl ht hr hfl ⊢
  rw [Nat.mod_eq_of_lt hop, Nat.mod_eq_of_lt hfl, Nat.mod_eq_of_lt ht, Nat.mod_eq_of_lt hl, Nat.mod_eq_of_lt hr]
  simp only [BitVec.ofNat_toNat, BitVec.setWidth_eq]
  rw [hlen, Nat.min_eq_left hmax, hmap]

/-! ### The command is taken and its work is done -/

/-- A command is in its mailbox's buffer and the mailbox runs it. -/
noncomputable def State.placed (s : State) (op : Nat) (c : MbCmd) : State :=
  (s.setMb c.m ((s.mb c.m).filled (cmdBytes op c))).setMb c.m ((s.mb c.m).taken op c)

theorem State.placed_moves {s : State} {op : Nat} {c : MbCmd} : Moves [.mbs] s (s.placed op c) :=
  State.setMb_moves.trans State.setMb_moves

theorem State.placed_mb {s : State} (hc : canonical s) (op : Nat) (c : MbCmd) : (s.placed op c).mb c.m = (s.mb c.m).taken op c :=
  State.mb_setMb _ _ _ (State.setMb_moves.keeps hc).mbs

theorem State.placed_mb_of_ne (s : State) (op : Nat) (c : MbCmd) {j : Nat} (h : j ≠ c.m) : (s.placed op c).mb j = s.mb j :=
  (State.mb_setMb_of_ne _ _ _ _ (Ne.symm h)).trans (State.mb_setMb_of_ne _ _ _ _ (Ne.symm h))

/-- A free mailbox takes the command that its buffer holds. -/
theorem State.ringMb_of_free {s : State} {m : Nat} {b : Mailbox} (hb : s.mb m = b) (hfree : b.phase = .idle ∨ b.phase = .done)
    {id : BitVec 16} {op : Nat} {c : MbCmd} (hparsed : b.parsed m id = (op, c)) (hknown : opKnown op = true) (hform : wellFormed c)
    (interrupted : Bool) (host : List Cell) :
    s.ringMb m id interrupted host =
      if opState op then
        let t := s.setMb m { b with
          phase := .running, lastOp := BitVec.ofNat 16 op, tag := c.tag, irq := c.flags.getLsbD 0, unread := false }
        { t with mbQueue := t.mbQueue ++ [(m, c)] }.drainCmds (t.mbQueue ++ [(m, c)]).length
      else (s.setMb m { b with
        phase := .running, lastOp := BitVec.ofNat 16 op, tag := c.tag, irq := c.flags.getLsbD 0, unread := false }).runCmd m op
          c.payload interrupted host := by
  obtain ⟨hflags, hreserved, hlen, hmax⟩ := hform
  have hok : (!opKnown op || decide (2 ≤ c.flags.toNat) || c.reserved != 0 || decide (4080 < c.length.toNat)) = false := by
    simp [hknown, hreserved]
    omega
  unfold State.ringMb
  rw [hb]
  rcases hfree with h | h <;> simp only [h, hparsed, hok] <;> rfl

/-- The one command that waits has its turn. -/
theorem State.drainCmds_one {t : State} (hs : t.stateMb = none) {m : Nat} {c : MbCmd} (hq : t.mbQueue = [(m, c)]) :
    t.drainCmds 1 = { t with mbQueue := [] }.runCmd m (t.mb m).lastOp.toNat c.payload false [] := by
  unfold State.drainCmds
  rw [hs, hq]
  rfl

theorem State.withoutQueue_of_empty {s : State} (h : s.mbQueue = []) : { s with mbQueue := [] } = s := by
  cases s
  cases h
  rfl

/-- A state command that waits for no other goes on at once. -/
theorem State.drainCmds_of_alone {s : State} (hs : s.stateMb = none) (hq : s.mbQueue = []) {m : Nat} {c : MbCmd} :
    { s with mbQueue := s.mbQueue ++ [(m, c)] }.drainCmds (s.mbQueue ++ [(m, c)]).length =
      s.runCmd m (s.mb m).lastOp.toNat c.payload false [] := by
  have hone := State.drainCmds_one (t := { s with mbQueue := s.mbQueue ++ [(m, c)] }) hs (m := m) (c := c) (by simp [hq])
  have hlen : (s.mbQueue ++ [(m, c)]).length = 1 := by simp [hq]
  rw [hlen, hone]
  exact congrArg (fun u : State => u.runCmd m (s.mb m).lastOp.toNat c.payload false []) (State.withoutQueue_of_empty hq)

/-- A command that passes the mailbox's own checks is placed and run. -/
theorem State.submit_of_sends {s : State} {op : Nat} {c : MbCmd} (h : sends op c s) (hknown : opKnown op = true) (hop : op < 65536)
    {interrupted : Bool} {host : List Cell} (hstate : opState op = true → interrupted = false ∧ host = []) :
    s.submit op c interrupted host = (s.placed op c).runCmd c.m op c.payload interrupted host := by
  obtain ⟨⟨⟨hc, hw⟩, hway⟩, hbox, hform, hfree⟩ := h
  have hmb : (s.setMb c.m ((s.mb c.m).filled (cmdBytes op c))).mb c.m = (s.mb c.m).filled (cmdBytes op c) :=
    State.mb_setMb _ _ _ hc.mbs
  have hfill : s.fillMb c.m 0 (cmdBytes op c) = s.setMb c.m ((s.mb c.m).filled (cmdBytes op c)) := by
    refine if_neg ?_
    rcases hbox with h | h <;> simp [h]
  have hring : (s.fillMb c.m 0 (cmdBytes op c)).ringMb c.m c.id interrupted host =
      (s.placed op c).runCmd c.m op c.payload interrupted host := by
    rw [hfill, State.ringMb_of_free hmb hbox (Mailbox.parsed_of_wellFormed hw hform hop) hknown hform]
    split
    case isTrue hst =>
      obtain ⟨hnone, hempty⟩ := hfree hst
      obtain ⟨rfl, rfl⟩ := hstate hst
      have hlast : ((s.placed op c).mb c.m).lastOp.toNat = op := by
        rw [State.placed_mb hc]
        exact Nat.mod_eq_of_lt hop
      have hdrain := State.drainCmds_of_alone (s := s.placed op c) (m := c.m) (c := c) hnone hempty
      rw [hlast] at hdrain
      exact hdrain
    case isFalse => rfl
  unfold State.submit
  rcases hway with ⟨hm, hreach⟩ | ⟨hm, hp, hl⟩
  · rw [if_neg (by omega), if_pos hm, State.onReg_of_reaches hreach]
    exact hring
  · rw [if_pos hm, if_pos ⟨hp, hl⟩]
    exact hring

/-- A command that passes every check of R420 does its work, and the end of that answers it. -/
theorem State.submit_of_passes {s : State} {op : Nat} {c : MbCmd} (h : Safety.passes op c s) (hknown : opKnown op = true) (hop : op < 65536)
    (hne : op ≠ 0x72) {interrupted : Bool} {host : List Cell} (hstate : opState op = true → interrupted = false ∧ host = [])
    {st : Status} {data : List Byte} {v : State} (hwork : (s.placed op c).work c.m op c.payload interrupted host = (st, data, v)) :
    s.submit op c interrupted host = v.endCmd c.m st (if st = .ok then data else []) (opLogged op) := by
  obtain ⟨hsends, hcheck⟩ := h
  have hcheck' : (s.placed op c).opCheck c.m op c.payload = .ok := hcheck
  rw [State.submit_of_sends hsends hknown hop hstate, State.runCmd, hcheck']
  simp only [if_neg hne, hwork]

/-! ### The answer (Table COX.2) -/

section

variable {v : State} {m : Nat} {st : Status} {data : List Byte} {toLog : Bool}

/-- The box of a command that has ended. -/
noncomputable def Mailbox.answered (b : Mailbox) (st : Status) (data : List Byte) : Mailbox :=
  { b with phase := .done, lastStatus := BitVec.ofNat 16 st.code, rsp := responseBytes b.tag st data, unread := true }

/-- A command's box is written and its sender told, before the log. -/
noncomputable def State.boxDone (v : State) (m : Nat) (st : Status) (data : List Byte) : State :=
  let u := v.setMb m ((v.mb m).answered st data)
  if m = 8 then { u with tx := .alert 8 :: u.tx } else if (v.mb m).irq then u.raiseReg (mbReg m 0x2008) 8 else u

theorem State.endCmd_eq : v.endCmd m st data toLog =
    if st != .ok then (v.boxDone m st data).emit 1 m 1 evCommand st [w32 (v.mb m).lastOp.toNat, (v.mb m).tag]
    else if toLog then (v.boxDone m st data).emit 1 m 0 evCommand .ok [w32 (v.mb m).lastOp.toNat, (v.mb m).tag]
    else v.boxDone m st data := rfl

theorem State.boxDone_moves : Moves (logged []) (v.setMb m ((v.mb m).answered st data)) (v.boxDone m st data) :=
  Moves.ite (Moves.upd_tx.mono (by decide)) (Moves.ite (State.raiseReg_moves.mono (by decide)) (Moves.refl _ _))

theorem State.endCmd_last : Moves (logged []) (v.boxDone m st data) (v.endCmd m st data toLog) := by
  rw [State.endCmd_eq]
  exact Moves.ite (State.emit_moves.mono (by decide)) (Moves.ite (State.emit_moves.mono (by decide)) (Moves.refl _ _))

theorem State.endCmd_mb (hc : canonical v) : (v.endCmd m st data toLog).mb m = (v.mb m).answered st data := by
  rw [mb_eq_of_moves State.endCmd_last (by decide), mb_eq_of_moves State.boxDone_moves (by decide), State.mb_setMb _ _ _ hc.mbs]

theorem State.endCmd_mb_of_ne {j : Nat} (h : j ≠ m) : (v.endCmd m st data toLog).mb j = v.mb j := by
  rw [mb_eq_of_moves State.endCmd_last (by decide), mb_eq_of_moves State.boxDone_moves (by decide),
    State.mb_setMb_of_ne _ _ _ _ (Ne.symm h)]

theorem State.endCmd_recorded (h : st ≠ .ok ∨ toLog = true) :
    recorded (v.endCmd m st data toLog) 1 m (if st = .ok then 0 else 1) evCommand st [w32 (v.mb m).lastOp.toNat, (v.mb m).tag] := by
  rw [State.endCmd_eq]
  by_cases hst : st = .ok
  · subst hst
    rw [if_neg (by decide), if_pos (h.resolve_left (by simp)), if_pos rfl]
    exact State.emit_recorded _ _ _ _ _ _ _
  · rw [if_pos (by simpa using hst), if_neg hst]
    exact State.emit_recorded _ _ _ _ _ _ _

/-- The board is alerted once for each answer in its mailbox. -/
theorem State.endCmd_alerts (h : m = 8) : (v.endCmd m st data toLog).alerts = v.alerts + 1 := by
  have hbox : (v.boxDone m st data).alerts = v.alerts + 1 := by
    rw [State.boxDone, if_pos h]
    exact List.count_cons_self
  rw [← hbox, State.endCmd_eq]
  split
  · exact State.emit_alerts _ _ _ _ _ _ _
  · split
    · exact State.emit_alerts _ _ _ _ _ _ _
    · rfl

end

/-- The end of a command answers it. -/
theorem State.endCmd_answered {s v : State} {op : Nat} {c : MbCmd} (hc : canonical v) (hlast : (v.mb c.m).lastOp.toNat = op)
    (htag : (v.mb c.m).tag = c.tag) (hothers : ∀ j, j ≠ c.m → v.mb j = s.mb j) (halerts : v.alerts = s.alerts) (st : Status)
    (data : List Byte) : answered op c st data s (v.endCmd c.m st data (opLogged op)) where
  box := by
    rw [State.endCmd_mb hc]
    exact ⟨rfl, rfl, rfl⟩
  response := by
    rw [State.endCmd_mb hc, ← htag]
    rfl
  others j hj := (State.endCmd_mb_of_ne hj).trans (hothers j hj)
  log h := by
    have hrec := State.endCmd_recorded (v := v) (m := c.m) (data := data) h
    rwa [hlast, htag] at hrec
  alert h := (State.endCmd_alerts h).trans (congrArg (· + 1) halerts)

/-- The answer to a command whose work leaves the mailboxes and what was sent. -/
theorem State.endCmd_placed_answered {s v : State} {op : Nat} {c : MbCmd} (hc : canonical s) (hop : op < 65536) {ps : List Part}
    (hm : Moves ps (s.placed op c) v) (hmbs : Part.mbs ∉ ps) (hsent : Part.sent ∉ ps) (st : Status) (data : List Byte) :
    answered op c st data s (v.endCmd c.m st data (opLogged op)) := by
  have hself : v.mb c.m = (s.mb c.m).taken op c := (mb_eq_of_moves hm hmbs c.m).trans (State.placed_mb hc op c)
  refine State.endCmd_answered (hm.keeps (State.placed_moves.keeps hc)) ?_ ?_ (fun j hj => ?_) ?_ st data
  · rw [hself]
    exact Nat.mod_eq_of_lt hop
  · rw [hself]
    rfl
  · rw [mb_eq_of_moves hm hmbs, State.placed_mb_of_ne _ _ _ hj]
  · have htx : v.tx = (s.placed op c).tx := hm.frame .sent hsent
    exact congrArg (List.count _) htx

end Sys2Proof.Machine

/-! ## The mailbox commands of Cairn (O44) -/

namespace Sys2Proof.Machine

open Sys2Proof.Laws Sys2Proof.Safety

/-! ### What a read depends on -/

/-- A range is readable or not by the units, the marks and the flash alone. -/
theorem readBad_of_moves {ps : List Part} {s t : State} (m : Moves ps s t)
    (h : ∀ p ∈ [Part.poison, .dunes, .islands, .crews, .sculls, .flashGone, .nv], p ∉ ps) (da n : Nat) :
    t.readBad da n = s.readBad da n := by
  have hpoison : t.poison = s.poison := m.frame .poison (h _ (by decide))
  have hdunes : t.dunes = s.dunes := m.frame .dunes (h _ (by decide))
  have hislands : t.islands = s.islands := m.frame .islands (h _ (by decide))
  have hcrews : t.crews = s.crews := m.frame .crews (h _ (by decide))
  have hsculls : t.sculls = s.sculls := m.frame .sculls (h _ (by decide))
  have hgone : t.flashGone = s.flashGone := m.frame .flashGone (h _ (by decide))
  have hkey : t.nv.flashKey = s.nv.flashKey := nv_of_same (m.frame .nv (h _ (by decide))) Nv.flashKey fun _ => rfl
  have hpages : t.nv.badPages = s.nv.badPages := nv_of_same (m.frame .nv (h _ (by decide))) Nv.badPages fun _ => rfl
  simp only [State.readBad, State.duneReadBad, State.rawPoison, State.served, State.poisoned, State.buffered, State.dune, State.crew,
    State.scull, State.flashOpen, State.locked, hpoison, hdunes, hislands, hcrews, hsculls, hgone, hkey, hpages]

/-- What leaves the memory leaves every number in it. -/
theorem loadNat_of_moves {ps : List Part} {s t : State} (m : Moves ps s t) (h : Part.mem ∉ ps) (da n : Nat) :
    t.loadNat da n = s.loadNat da n :=
  State.loadNat_congr fun i _ => byte_eq_of_moves m h (da + i)

/-- A header is judged by what can be read there and by the registered lengths. -/
theorem headerOk_of_moves {ps : List Part} {s t : State} (m : Moves ps s t)
    (h : ∀ p ∈ [Part.mem, .cairn, .poison, .dunes, .islands, .crews, .sculls, .flashGone, .nv], p ∉ ps) (a : Nat) :
    t.headerOk a = s.headerOk a := by
  have hcairn : t.cairn = s.cairn := m.frame .cairn (h _ (by decide))
  have hload (da n : Nat) : t.loadNat da n = s.loadNat da n := loadNat_of_moves m (h _ (by decide)) da n
  have hbad : t.readBad a 4096 = s.readBad a 4096 :=
    readBad_of_moves m (fun p hp => h p (List.mem_cons_of_mem _ (List.mem_cons_of_mem _ hp))) a 4096
  simp only [State.headerOk, hcairn, hload, hbad]

theorem State.targetOpen_of_moves {ps : List Part} {s t : State} (m : Moves ps s t)
    (h : ∀ p ∈ [Part.flashGone, .islands, .nv], p ∉ ps) (a : Nat) : t.targetOpen a = s.targetOpen a := by
  rw [State.targetOpen, State.targetOpen, State.flashOpen, State.flashOpen, m.frame .flashGone (h _ (by decide)), State.locked,
    m.frame .islands (h _ (by decide)), nv_of_same (m.frame .nv (h _ (by decide))) Nv.flashKey fun _ => rfl, State.locked]

/-! ### A registration (R501, R502) -/

theorem State.loadNat_lt (s : State) (da n : Nat) : s.loadNat da n < 256 ^ n := leNat_lt _ _

/-- The target that a registration finds newest is valid. -/
theorem newest_target_valid {v0 v1 : Bool} (h : (v0 || v1) = true) (id0 id1 : Nat) :
    (if v0 && v1 then (if id0 < id1 then 1 else 0) else b2n v1) = 0 ∧ v0 = true ∨
      (if v0 && v1 then (if id0 < id1 then 1 else 0) else b2n v1) = 1 ∧ v1 = true := by
  cases v1 with
  | false =>
    rw [Bool.or_false] at h
    simp [h, b2n]
  | true =>
    cases v0 with
    | false => simp [b2n]
    | true => by_cases hlt : id0 < id1 <;> simp [hlt]

/-- What a registration finds: the newest valid checkpoint of its targets. -/
theorem State.cairnAccept_spec (s : State) (p : List Byte) (host : List Cell) (v : State) (hv : v = s.cairnAccept p host) :
    v.cairn.registered = true ∧ v.cairn.parts = numAt p 0 1 ∧ v.cairn.entries = cairnEntries p ∧ v.cairn.target0 = numAt p 8 8 ∧
      v.cairn.target1 = numAt p 0x10 8 ∧ v.cairn.replay = 0 ∧
      v.cairn.newestV = (v.headerOk v.cairn.target0 || v.headerOk v.cairn.target1) ∧
      (v.cairn.newestV = false → v.cairn.newestId = 0) ∧
      (v.cairn.newestV = true → v.headerOk (v.cairn.target v.cairn.newestT) = true ∧
        v.cairn.newestId = w32 (v.loadNat (v.cairn.target v.cairn.newestT + 8) 4)) ∧
      (v.headerOk v.cairn.target0 = true → v.headerOk v.cairn.target1 = true →
        v.loadNat (v.cairn.target0 + 8) 4 ≤ v.cairn.newestId.toNat ∧ v.loadNat (v.cairn.target1 + 8) 4 ≤ v.cairn.newestId.toNat) := by
  set a0 := numAt p 8 8 with ha0
  set a1 := numAt p 0x10 8 with ha1
  set v0 := v.headerOk a0 with hv0
  set v1 := v.headerOk a1 with hv1
  set id0 := v.loadNat (a0 + 8) 4 with hid0
  set id1 := v.loadNat (a1 + 8) 4 with hid1
  have hT : v.cairn.newestT = if v0 && v1 then (if id0 < id1 then 1 else 0) else b2n v1 := by rw [hv0, hv1, hid0, hid1, hv]; rfl
  have hV : v.cairn.newestV = (v0 || v1) := by rw [hv0, hv1, hv]; rfl
  have hId : v.cairn.newestId = if v0 || v1 then w32 (if v.cairn.newestT = 0 then id0 else id1) else 0 := by
    rw [hT, hv0, hv1, hid0, hid1, hv]
    rfl
  have h0 : v.cairn.target0 = a0 := by rw [hv]; rfl
  have h1 : v.cairn.target1 = a1 := by rw [hv]; rfl
  have hlt0 : id0 < 2 ^ 32 := State.loadNat_lt _ _ _
  have hlt1 : id1 < 2 ^ 32 := State.loadNat_lt _ _ _
  clear_value v0 v1 id0 id1
  refine ⟨by rw [hv]; rfl, by rw [hv]; rfl, by rw [hv]; rfl, h0, h1, by rw [hv]; rfl, by rw [h0, h1, hV, hv0, hv1], fun h => ?_, fun h => ?_,
    fun g0 g1 => ?_⟩
  · rw [hId, ← hV, h]
    rfl
  · rw [hV] at h
    rw [hId, if_pos h, Cairn.target, h0, h1, hT]
    rcases newest_target_valid h id0 id1 with ⟨ht, hvalid⟩ | ⟨ht, hvalid⟩
    · rw [ht, if_pos rfl, if_pos rfl, ← hv0, hid0]
      exact ⟨hvalid, rfl⟩
    · rw [ht, if_neg (by decide), if_neg (by decide), ← hv1, hid1]
      exact ⟨hvalid, rfl⟩
  · have g0' : v0 = true := by rw [hv0, ← h0, g0]
    have g1' : v1 = true := by rw [hv1, ← h1, g1]
    rw [h0, h1, ← hid0, ← hid1, hId, hT, g0', g1']
    simp only [Bool.or_self, Bool.and_self, if_true]
    by_cases hlt : id0 < id1
    · simp only [if_pos hlt, if_neg Nat.one_ne_zero, w32, BitVec.toNat_ofNat]
      omega
    · simp only [if_neg hlt, if_true, w32, BitVec.toNat_ofNat]
      omega

/-- The work of a registration while nothing is in progress. -/
theorem exec_cairnRegister_accepts {s : State} {c : MbCmd} {host : List Cell} (h : Safety.passes 0x70 c s) (hp : s.cairn.phase = .idle)
    (hl : s.cairn.lossWait = false) :
    exec (.cairnRegister c host) s = .next (((s.placed 0x70 c).cairnAccept c.payload host).endCmd c.m .ok [] (opLogged 0x70)) := by
  have hwork : (s.placed 0x70 c).work c.m 0x70 c.payload false host = (.ok, [], (s.placed 0x70 c).cairnAccept c.payload host) :=
    if_neg (by simp [State.cairnBusy, show (s.placed 0x70 c).cairn = s.cairn from rfl, hp, hl])
  exact congrArg Host.Outcome.next (State.submit_of_passes h rfl (by decide) (by decide) (fun k => absurd k (by decide)) hwork)

theorem cairnRegister_spec {s : State} {c : MbCmd} {host : List Cell} (h : Safety.passes 0x70 c s) (hp : s.cairn.phase = .idle)
    (hl : s.cairn.lossWait = false) :
    ∃ t, exec (.cairnRegister c host) s = .next t ∧ answered 0x70 c .ok [] s t ∧ t.cairn.registered = true ∧ t.cairn.parts = numAt c.payload 0 1 ∧
      t.cairn.entries = cairnEntries c.payload ∧ t.cairn.target0 = numAt c.payload 8 8 ∧ t.cairn.target1 = numAt c.payload 0x10 8 ∧
      t.cairn.replay = 0 ∧ t.cairn.newestV = (t.headerOk t.cairn.target0 || t.headerOk t.cairn.target1) ∧
      (t.cairn.newestV = false → t.cairn.newestId = 0) ∧
      (t.cairn.newestV = true → t.headerOk (t.cairn.target t.cairn.newestT) = true ∧
        t.cairn.newestId = w32 (t.loadNat (t.cairn.target t.cairn.newestT + 8) 4)) ∧
      (t.headerOk t.cairn.target0 = true → t.headerOk t.cairn.target1 = true → t.loadNat (t.cairn.target0 + 8) 4 ≤ t.cairn.newestId.toNat ∧
        t.loadNat (t.cairn.target1 + 8) 4 ≤ t.cairn.newestId.toNat) ∧ changesOnly (logged [.mbs, .cairn, .mem]) s t := by
  have hc : canonical s := h.1.rings.canon.1
  refine ⟨_, exec_cairnRegister_accepts h hp hl, ?_⟩
  obtain ⟨v, hv⟩ : ∃ v, v = (s.placed 0x70 c).cairnAccept c.payload host := ⟨_, rfl⟩
  have hmv : Moves [.mem, .cairn] (s.placed 0x70 c) v := hv ▸ State.cairnAccept_moves
  have hend : Moves (logged [.mbs]) v (v.endCmd c.m .ok [] (opLogged 0x70)) := State.endCmd_moves
  have hcairn : (v.endCmd c.m .ok [] (opLogged 0x70)).cairn = v.cairn := hend.frame .cairn (by decide)
  have hheader := headerOk_of_moves hend (by decide)
  have hload := loadNat_of_moves hend (by decide)
  obtain ⟨hreg, hparts, hentries, h0, h1, hreplay, hrest⟩ := State.cairnAccept_spec _ _ _ v hv
  obtain ⟨hvalid, hnone, hpick, hmax⟩ := hrest
  rw [← hv, hcairn]
  simp only [hheader, hload]
  exact ⟨State.endCmd_placed_answered hc (by decide) hmv (by decide) (by decide) _ _, hreg, hparts, hentries, h0, h1, hreplay, hvalid,
    hnone, hpick, hmax, ((State.placed_moves.mono (by decide)).via hmv (by decide) |>.via hend (by decide)).frame⟩

/-! ### Refusals while something is in progress -/

/-- A command whose work answers BUSY and changes nothing. -/
theorem submit_busy {s : State} {op : Nat} {c : MbCmd} (h : Safety.passes op c s) (hknown : opKnown op = true) (hop : op < 65536)
    (hne : op ≠ 0x72) {host : List Cell} (hstate : opState op = true → host = [])
    (hwork : (s.placed op c).work c.m op c.payload false host = (.busy, [], s.placed op c)) :
    ∃ t, s.submit op c false host = t ∧ answered op c .busy [] s t ∧ changesOnly (logged [.mbs]) s t := by
  refine ⟨_, State.submit_of_passes h hknown hop hne (fun k => ⟨rfl, hstate k⟩) hwork, ?_, ?_⟩
  · exact State.endCmd_placed_answered h.1.rings.canon.1 hop (Moves.refl [] _) (by decide) (by decide) _ _
  · exact ((State.placed_moves.mono (by decide)).via State.endCmd_moves (by decide)).frame

theorem State.cairnBusy_iff (s : State) : s.cairnBusy = true ↔ s.cairn.phase ≠ .idle ∨ s.cairn.lossWait = true := by
  simp [State.cairnBusy]

theorem cairnRegister_busy {s : State} {c : MbCmd} {host : List Cell} (hb : s.cairn.phase ≠ .idle ∨ s.cairn.lossWait = true)
    (h : Safety.passes 0x70 c s) :
    ∃ t, exec (.cairnRegister c host) s = .next t ∧ answered 0x70 c .busy [] s t ∧ changesOnly (logged [.mbs]) s t := by
  have hwork : (s.placed 0x70 c).work c.m 0x70 c.payload false host = (.busy, [], s.placed 0x70 c) :=
    if_pos ((State.cairnBusy_iff s).2 hb)
  obtain ⟨t, ht, hrest⟩ := submit_busy h rfl (by decide) (by decide) (fun k => absurd k (by decide)) hwork
  exact ⟨t, congrArg Host.Outcome.next ht, hrest⟩

theorem cairnTake_busy {s : State} {c : MbCmd} (hb : s.cairnBusy = true ∨ s.cairn.replay = 1 ∨ s.cairn.replay = 3) (h : Safety.passes 0x71 c s) :
    ∃ t, exec (.cairnTake c) s = .next t ∧ answered 0x71 c .busy [] s t ∧ changesOnly (logged [.mbs]) s t := by
  have hwork : (s.placed 0x71 c).work c.m 0x71 c.payload false [] = (.busy, [], s.placed 0x71 c) := if_pos hb
  obtain ⟨t, ht, hrest⟩ := submit_busy h rfl (by decide) (by decide) (fun _ => rfl) hwork
  exact ⟨t, congrArg Host.Outcome.next ht, hrest⟩

/-! ### A take (R503, R504) -/

/-- The target and the id of the next take. -/
noncomputable def Cairn.nextTarget (x : Cairn) : Nat := if x.newestV then 1 - x.newestT else 0
noncomputable def Cairn.nextId (x : Cairn) : Word := if x.newestV then x.newestId + 1 else 1

/-- Cairn as a take is granted. -/
noncomputable def Cairn.granted (x : Cairn) (now da ctr : Nat) (v : Word) : Cairn :=
  { x with
    phase := .stopping, grantedAt := now, drained := false, bytes := 0, lossWait := true, lossDone := false, lossDa := da,
    ctr := ctr, ctrVal := v, takeId := x.nextId, takeTarget := x.nextTarget }

/-- The header's second word, which a grant clears. -/
noncomputable def State.targetInvalid (s : State) : State := s.write 0 (cellsAt (s.cairn.target s.cairn.nextTarget + 4) (leBytes 4 0))

theorem State.cairnGrant_eq (s : State) (da ctr : Nat) (v : Word) :
    s.cairnGrant da ctr v = { s.targetInvalid with cairn := s.cairn.granted s.targetInvalid.etc da ctr v } := rfl

theorem exec_cairnTake_granted {s : State} {c : MbCmd} (h : Safety.passes 0x71 c s) (hp : s.cairn.phase = .idle) (hl : s.cairn.lossWait = false)
    (hr1 : s.cairn.replay ≠ 1) (hr3 : s.cairn.replay ≠ 3) {v : State}
    (hv : v = (s.placed 0x71 c).cairnGrant (numAt c.payload 0 8) (numAt c.payload 8 2) (w32 (numAt c.payload 0xC 4))) :
    exec (.cairnTake c) s = .next (v.cairnStarted.endCmd c.m .ok
      (leBytes 4 v.cairn.takeId.toNat ++ leBytes 1 v.cairn.takeTarget ++ leBytes 3 0) (opLogged 0x71)) := by
  have hfree : ¬ ((s.placed 0x71 c).cairnBusy = true ∨ (s.placed 0x71 c).cairn.replay = 1 ∨ (s.placed 0x71 c).cairn.replay = 3) := by
    rintro (hb | hb | hb)
    · rcases (State.cairnBusy_iff _).1 hb with hb | hb
      · exact hb hp
      · exact absurd (hl.symm.trans hb) (by decide)
    · exact hr1 hb
    · exact hr3 hb
  have hwork : (s.placed 0x71 c).work c.m 0x71 c.payload false [] =
      (.ok, leBytes 4 v.cairn.takeId.toNat ++ leBytes 1 v.cairn.takeTarget ++ leBytes 3 0, v.cairnStarted) := by
    rw [hv]
    exact if_neg hfree
  exact congrArg Host.Outcome.next
    (State.submit_of_passes h rfl (by decide) (by decide) (fun _ => ⟨rfl, rfl⟩) hwork)

/-- Four bytes after a page's start stand in the page's first line. -/
theorem windowLine_of_target {s : State} {a i : Nat} (ha : a % 4096 = 0) (hi : i < 256)
    (hr : regionOf a = some .host ∨ regionOf a = some .flash) (ho : s.targetOpen a = true) : s.windowLine ((a + i) / 256) := by
  have hline : (a + i) / 256 * 256 = a := by omega
  unfold State.windowLine
  rw [hline]
  refine hr.imp_right fun hf => ⟨hf, ?_⟩
  simpa [State.targetOpen, inFlash, hf] using ho

theorem cairnTake_spec {s : State} {c : MbCmd} {g a : Nat} {id : Word} (h : Safety.passes 0x71 c s) (hp : s.cairn.phase = .idle)
    (hl : s.cairn.lossWait = false) (hr1 : s.cairn.replay ≠ 1) (hr3 : s.cairn.replay ≠ 3) (hg : g = s.cairn.nextTarget)
    (hid : id = s.cairn.nextId) (ha : a = s.cairn.target g) (hpage : a % 4096 = 0)
    (hregion : regionOf a = some .host ∨ regionOf a = some .flash) (hopen : s.targetOpen a = true) :
    ∃ t, exec (.cairnTake c) s = .next t ∧ answered 0x71 c .ok (leBytes 4 id.toNat ++ leBytes 1 g ++ [0, 0, 0]) s t ∧
      t.cairn.phase = .stopping ∧ t.cairn.grantedAt = s.etc ∧ t.cairn.takeId = id ∧ t.cairn.takeTarget = g ∧ t.cairn.lossWait = true ∧
      t.cairn.lossDa = numAt c.payload 0 8 ∧ t.cairn.ctr = numAt c.payload 8 2 ∧ t.cairn.ctrVal = w32 (numAt c.payload 0xC 4) ∧
      t.loadNat (a + 4) 4 = 0 ∧ (∀ x, x < a + 4 ∨ a + 8 ≤ x → t.byte x = s.byte x) ∧ t.cairn.newestId = s.cairn.newestId ∧
      t.cairn.entries = s.cairn.entries ∧ changesOnly (logged [.mbs, .cairn, .mem]) s t := by
  subst hg hid ha
  have hc : canonical s := h.1.rings.canon.1
  set u := s.placed 0x71 c with hu
  set a := s.cairn.target s.cairn.nextTarget with ha
  have hcu : canonical u := State.placed_moves.keeps hc
  have htarget : u.targetInvalid = u.write 0 (cellsAt (a + 4) (leBytes 4 0)) := rfl
  obtain ⟨hmw, hin, hout⟩ := State.write_cellsAt_of_window hcu.mem 0 (a + 4) (leBytes 4 0) fun i hi => by
    rw [length_leBytes] at hi
    rw [Nat.add_assoc]
    exact windowLine_of_target hpage (by omega) hregion hopen
  rw [length_leBytes] at hin hout
  rw [← htarget] at hmw hin hout
  have hetc : u.targetInvalid.etc = s.etc := hmw.frame .etc (by decide)
  obtain ⟨v, hv⟩ : ∃ v, v = u.cairnGrant (numAt c.payload 0 8) (numAt c.payload 8 2) (w32 (numAt c.payload 0xC 4)) := ⟨_, rfl⟩
  have heq := hv.trans (State.cairnGrant_eq u _ _ _)
  have hcairn : v.cairn = s.cairn.granted s.etc (numAt c.payload 0 8) (numAt c.payload 8 2) (w32 (numAt c.payload 0xC 4)) := by
    rw [heq, hetc]
    rfl
  have hmv : Moves [.mem, .cairn] u v := by
    rw [heq]
    exact (hmw.mono (by decide)).trans (Moves.upd_cairn.mono (by decide))
  have hbyte (x : Nat) : v.byte x = u.targetInvalid.byte x := by rw [heq]; rfl
  have hstarted : v.cairnStarted = v := by
    refine if_pos ?_
    rw [State.targetOpen_of_moves hmv (by decide), hcairn]
    exact hopen
  have hexec := exec_cairnTake_granted h hp hl hr1 hr3 hv
  rw [hstarted, hcairn] at hexec
  obtain ⟨t, ht⟩ : ∃ t, t = v.endCmd c.m .ok (leBytes 4 s.cairn.nextId.toNat ++ leBytes 1 s.cairn.nextTarget ++ leBytes 3 0)
    (opLogged 0x71) := ⟨_, rfl⟩
  have hend : Moves (logged [.mbs]) v t := ht ▸ State.endCmd_moves
  have hlast : t.cairn = s.cairn.granted s.etc (numAt c.payload 0 8) (numAt c.payload 8 2) (w32 (numAt c.payload 0xC 4)) :=
    (hend.frame .cairn (by decide)).trans hcairn
  have hbytes (x : Nat) : t.byte x = u.targetInvalid.byte x := (byte_eq_of_moves hend (by decide) x).trans (hbyte x)
  have hload : t.loadNat (a + 4) 4 = 0 := State.loadNat_of_bytes fun i hi => (hbytes _).trans (hin i hi)
  have hanswered : answered 0x71 c .ok (leBytes 4 s.cairn.nextId.toNat ++ leBytes 1 s.cairn.nextTarget ++ leBytes 3 0) s t :=
    ht ▸ State.endCmd_placed_answered hc (by decide) hmv (by decide) (by decide) _ _
  have honly : Moves (logged [.mbs, .cairn, .mem]) s t :=
    ((State.placed_moves.mono (by decide)).via hmv (by decide)).via hend (by decide)
  refine ⟨t, hexec.trans (congrArg _ ht.symm), hanswered, ?_⟩
  rw [hlast]
  exact ⟨rfl, rfl, rfl, rfl, rfl, rfl, rfl, rfl, hload, fun x hx => (hbytes x).trans (hout x (by omega)), rfl, rfl, honly.frame⟩

/-! ### A checkpoint fails (R507) -/

/-- Cairn as its checkpoint has failed. -/
noncomputable def Cairn.failed (x : Cairn) (now : Nat) : Cairn :=
  { x with
    phase := .idle, lossWait := false, lossDone := false, drained := false, status := .internal,
    window := if x.phase = .draining ∨ x.phase = .idle then x.window else now - x.grantedAt, takeId := 0 }

/-- A failure counted, before it is recorded. -/
noncomputable def State.failCounted (s : State) : State := { s with cairn := s.cairn.failed s.etc }.bump 0x02090010 16 16

theorem State.cairnFail_eq (s : State) : s.cairnFail = (s.failCounted.cairnLog 2 .internal [w32 0x71, s.cairn.takeId]).rewake := rfl

theorem State.failCounted_moves {s : State} : Moves [.regs, .cairn] s s.failCounted :=
  (Moves.upd_cairn.mono (by decide)).via (State.bump_moves_regs (by decide) (by decide)) (by decide)

theorem State.failCounted_fld {s : State} (hr : regsOk s.regs) :
    s.failCounted.fld 0x02090010 16 16 = min (s.fld 0x02090010 16 16 + 1) 0xFFFF :=
  State.fld_bumpBy { s with cairn := s.cairn.failed s.etc } 0x02090010 16 16 1 hr (by decide)

theorem State.cairnFail_last {s : State} : Moves (logged [.crews, .tasks]) s.failCounted s.cairnFail := by
  rw [State.cairnFail_eq]
  exact (State.cairnLog_moves.mono (by decide)).via State.rewake_moves (by decide)

theorem State.cairnFail_cairn (s : State) : s.cairnFail.cairn = s.cairn.failed s.etc :=
  State.cairnFail_last.frame .cairn (by decide)

theorem State.cairnFail_fld {s : State} (hr : regsOk s.regs) :
    s.cairnFail.fld 0x02090010 16 16 = min (s.fld 0x02090010 16 16 + 1) 0xFFFF := by
  rw [State.fld, reg_eq_of_moves State.cairnFail_last (by decide) (by decide) (by decide)]
  exact State.failCounted_fld hr

theorem cairnTake_closed {s : State} {c : MbCmd} (h : Safety.passes 0x71 c s) (hp : s.cairn.phase = .idle) (hl : s.cairn.lossWait = false)
    (hr1 : s.cairn.replay ≠ 1) (hr3 : s.cairn.replay ≠ 3) (hclosed : s.targetOpen (s.cairn.target s.cairn.nextTarget) = false) :
    ∃ t, exec (.cairnTake c) s = .next t ∧ t.cairn.phase = .idle ∧ t.cairn.status = .internal ∧ t.cairn.lossWait = false ∧
      t.cairn.newestId = s.cairn.newestId ∧ t.fld 0x02090010 16 16 = min (s.fld 0x02090010 16 16 + 1) 0xFFFF := by
  have hc : canonical s := h.1.rings.canon.1
  set u := s.placed 0x71 c with hu
  obtain ⟨v, hv⟩ : ∃ v, v = u.cairnGrant (numAt c.payload 0 8) (numAt c.payload 8 2) (w32 (numAt c.payload 0xC 4)) := ⟨_, rfl⟩
  have heq := hv.trans (State.cairnGrant_eq u _ _ _)
  have hmv : Moves (logged [.regs, .mem, .poison, .dunes, .cairn]) u v := hv ▸ State.cairnGrant_moves
  have htarget : v.cairn.target v.cairn.takeTarget = s.cairn.target s.cairn.nextTarget := by rw [heq]; rfl
  have hfails : v.cairnStarted = v.cairnFail := by
    refine if_neg ?_
    rw [htarget, State.targetOpen_of_moves hmv (by decide)]
    exact (Bool.eq_false_iff.1 hclosed)
  have hreg : v.reg 0x02090010 = s.reg 0x02090010 := by
    have hwrite : u.targetInvalid.reg 0x02090010 = s.reg 0x02090010 := State.write_regs _ _ _ _ (by decide) (by decide) (by decide)
    rw [heq]
    exact hwrite
  have hexec := exec_cairnTake_granted h hp hl hr1 hr3 hv
  rw [hfails] at hexec
  refine ⟨_, hexec, ?_⟩
  have hend : Moves (logged [.mbs]) v.cairnFail _ :=
    State.endCmd_moves (m := c.m) (st := .ok) (payload := leBytes 4 v.cairn.takeId.toNat ++ leBytes 1 v.cairn.takeTarget ++ leBytes 3 0)
      (logged0 := opLogged 0x71)
  have hcanon : canonical v := hmv.keeps (State.placed_moves.keeps hc)
  rw [show State.cairn _ = v.cairn.failed v.etc from (hend.frame .cairn (by decide)).trans v.cairnFail_cairn]
  refine ⟨rfl, rfl, rfl, by rw [heq]; rfl, ?_⟩
  rw [State.fld, reg_eq_of_moves hend (by decide) (by decide) (by decide)]
  exact (State.cairnFail_fld hcanon.regs).trans (by rw [State.fld, hreg, State.fld])

/-! ### A restore is accepted (R508) -/

theorem cairnRestore_spec {s : State} {c : MbCmd} (h : Safety.passes 0x72 c s) :
    ∃ t, exec (.cairnRestore c) s = .next t ∧ (t.mb c.m).phase = .running ∧ t.stateMb = some c.m ∧
      t.cairn = { s.cairn with
        restoring := some (numAt c.payload 0 1), restoreMb := c.m, tolerance := w32 (numAt c.payload 4 4), replayDa := numAt c.payload 8 8,
        replayCtr := numAt c.payload 0x10 2, replayVal := w32 (numAt c.payload 0x14 4) } ∧
      (∀ j, j ≠ c.m → t.mb j = s.mb j) ∧ changesOnly [.mbs, .stateMb, .cairn] s t := by
  obtain ⟨hsends, hcheck⟩ := h
  have hcheck' : (s.placed 0x72 c).opCheck c.m 0x72 c.payload = .ok := hcheck
  have hexec : exec (.cairnRestore c) s = .next ((s.placed 0x72 c).beginRestore c.m c.payload) := by
    refine congrArg Host.Outcome.next ((State.submit_of_sends hsends rfl (by decide) fun _ => ⟨rfl, rfl⟩).trans ?_)
    rw [State.runCmd, hcheck']
    exact if_pos rfl
  have hbox : ((s.placed 0x72 c).beginRestore c.m c.payload).mb c.m = (s.mb c.m).taken 0x72 c :=
    State.placed_mb hsends.rings.canon.1 0x72 c
  refine ⟨_, hexec, by rw [hbox]; rfl, rfl, rfl, fun j hj => State.placed_mb_of_ne s 0x72 c hj, ?_⟩
  exact ((State.placed_moves.mono (by decide)).via State.beginRestore_moves (by decide)).frame

/-- Settles O44: each mailbox command of Cairn by what its work does. -/
theorem cairnCommands : Obligations.CairnCommands := by
  unfold Obligations.CairnCommands
  refine ⟨fun s c host h hp hl => cairnRegister_spec h hp hl,
    fun s c host hb => ⟨cairnRegister_busy hb, cairnTake_busy (.inl ((State.cairnBusy_iff s).2 hb))⟩,
    fun s c h hr => cairnTake_busy (.inr hr) h,
    fun s c g a id h hp hl hr1 hr3 hg hid ha hpage hregion hopen => cairnTake_spec h hp hl hr1 hr3 hg hid ha hpage hregion hopen,
    fun s c h hp hl hr1 hr3 hclosed => cairnTake_closed h hp hl hr1 hr3 hclosed,
    fun s c h => cairnRestore_spec h⟩

end Sys2Proof.Machine
